-- ==== Sys2Proof/Word.lean ====
section
/-!
DEFINITION. Word types of the part and their plainest arithmetic (spec/14_encoding.md R293).
-/

namespace Sys2Proof

/-- One byte. -/
abbrev Byte := BitVec 8
/-- The 64-bit value of an x register, the pc, an address or a CSR (R283). -/
abbrev Word := BitVec 64
/-- A 512-bit vector register (R251, R283). -/
abbrev VReg := BitVec 512

/-- `bits(x, hi, lo)` of R293 as a number. -/
def bitsN (x : Nat) (hi lo : Nat) : Nat := (x >>> lo) % 2 ^ (hi + 1 - lo)

/-- The field `[hi:lo]` of a 64-bit word, zero-extended (R293). -/
def Word.field (x : Word) (hi lo : Nat) : Word := BitVec.ofNat 64 (bitsN x.toNat hi lo)

/-- `sext(x, n)` of R293: the low `n` bits, sign-extended to 64. -/
def sext (n : Nat) (x : Nat) : Word := ((BitVec.ofNat n x).signExtend 64)

/-- `zext(x, n)` of R293: the low `n` bits, zero-extended to 64. -/
def zext (n : Nat) (x : Nat) : Word := BitVec.ofNat 64 (x % 2 ^ n)

/-- Little-endian bytes of a number, `n` of them (R293). -/
def bytesOf : (n : Nat) → Nat → List Byte
  | 0, _ => []
  | n + 1, x => BitVec.ofNat 8 x :: bytesOf n (x / 256)

/-- The number a little-endian byte list spells (R293). -/
def ofBytes : List Byte → Nat
  | [] => 0
  | b :: bs => b.toNat + 256 * ofBytes bs

end Sys2Proof
end

