-- ==== Sys2Proof/Machine/Crypto.lean ====
section
/-!
DEFINITION. The functions the spec names and does not write out: SHA-256 (R33, R36), HMAC-SHA-256 (R236), RSASSA-PSS
verification (R33) and CRC-32C (R41, R80, R230), as FIPS 180-4, RFC 2104, RFC 8017 and RFC 3720 have them (log 12, PRESUMED).
-/

namespace Sys2Proof.Machine

/-! ### Big-endian numbers -/

/-- A big-endian number from bytes. -/
def beNat (l : List Byte) : Nat := l.foldl (fun n b => n * 256 + b.toNat) 0
/-- Big-endian bytes of a number. -/
def beBytes (n x : Nat) : List Byte := (bytesOf n x).reverse

/-! ### SHA-256 -/

/-- A 32-bit word of the hash. -/
abbrev W32 := BitVec 32

/-- The largest `r` with `r ^ e ≤ n`, its low `k` bits still to be found. -/
def rootBits (e n : Nat) : Nat → Nat → Nat
  | 0, r => r
  | k + 1, r => rootBits e n k (if (r + 2 ^ k) ^ e ≤ n then r + 2 ^ k else r)

/-- The first 64 primes. -/
def shaPrimes : List Nat := (List.range 312).filter fun n => decide (2 ≤ n) && (List.range n).all fun d => d < 2 || n % d != 0

/-- The first 32 bits of the fraction of the `e`-th root of a number. -/
def rootFraction (e p : Nat) : W32 := BitVec.ofNat 32 (rootBits e (p * 2 ^ (32 * e)) 36 0)

/-- The 64 round constants: fractions of cube roots of primes. -/
def shaConstants : List W32 := shaPrimes.map (rootFraction 3)

/-- The value the chain starts from: fractions of square roots of primes. -/
def shaStart : Vector W32 8 := Vector.ofFn fun i => rootFraction 2 (shaPrimes.getD i.val 0)

/-- The sum of a word turned right by three distances; the third is a shift where `cut`. -/
def shaMix (i j k : Nat) (cut : Bool) (x : W32) : W32 :=
  let last := if cut then x >>> k else x.rotateRight k
  last ^^^ (x.rotateRight j ^^^ x.rotateRight i)

/-- The next word of a message schedule that is kept newest first. -/
def shaNext (w : List W32) : W32 :=
  [w.getD 15 0, shaMix 7 18 3 true (w.getD 14 0), w.getD 6 0, shaMix 17 19 10 true (w.getD 1 0)].foldl (· + ·) 0

/-- A message schedule with `n` more words. -/
def shaSchedule : Nat → List W32 → List W32
  | 0, w => w
  | n + 1, w => shaSchedule n (shaNext w :: w)

/-- One round on the working variables; `k` is the round's constant and schedule word added up. -/
def shaStep (v : Vector W32 8) (k : W32) : Vector W32 8 :=
  let x := v[4]
  let low := v[7] + k + shaMix 6 11 25 false x + (v[6] ^^^ (x &&& (v[5] ^^^ v[6])))
  let y := v[0]
  let high := shaMix 2 13 22 false y + ((y &&& (v[1] ||| v[2])) ||| (v[1] &&& v[2]))
  Vector.ofFn fun i =>
    if i.val = 0 then low + high else if i.val = 4 then v[3] + low else vget32 v (i.val - 1)
where
  /-- A working variable by number. -/
  vget32 (v : Vector W32 8) (i : Nat) : W32 := v.toList.getD i 0

/-- The chain value after one block of 64 bytes. -/
def shaCompress (h : Vector W32 8) (block : List Byte) : Vector W32 8 :=
  let first := (List.range 16).map fun i => BitVec.ofNat 32 (beNat ((block.drop (4 * i)).take 4))
  let words := (shaSchedule 48 first.reverse).reverse
  let last := (List.zipWith (· + ·) shaConstants words).foldl shaStep h
  Vector.zipWith (· + ·) h last

/-- The chain value after `n` blocks. -/
def shaChain : Nat → Vector W32 8 → List Byte → Vector W32 8
  | 0, h, _ => h
  | n + 1, h, m => shaChain n (shaCompress h (m.take 64)) (m.drop 64)

/-- SHA-256 of bytes, as the 32 bytes of the digest. -/
def sha256 (m : List Byte) : List Byte :=
  let blocks := (m.length + 72) / 64
  let fill := List.replicate (64 * blocks - m.length - 9) 0
  (shaChain blocks shaStart (m ++ 0x80 :: fill ++ beBytes 8 (8 * m.length))).toList.flatMap fun w => beBytes 4 w.toNat

/-- A digest as a number whose little-endian bytes are the digest. -/
def digest (m : List Byte) : BitVec 256 := BitVec.ofNat 256 (ofBytes (sha256 m))
/-- The bytes of a digest. -/
def digestBytes (d : BitVec 256) : List Byte := bytesOf 32 d.toNat

/-- HMAC-SHA-256 with a key of 32 bytes (R236). -/
def hmac256 (key m : List Byte) : List Byte :=
  let pad (b : Byte) : List Byte := (key ++ List.replicate (64 - key.length) 0).map (· ^^^ b)
  sha256 (pad 0x5C ++ sha256 (pad 0x36 ++ m))

/-! ### RSASSA-PSS verification -/

/-- `b ^ e mod n`, by the low `k` bits of `e`. -/
def powMod (n : Nat) : Nat → Nat → Nat → Nat
  | 0, _, _ => 1 % n
  | k + 1, b, e => (if e % 2 = 1 then b else 1) * powMod n k (b * b % n) (e / 2) % n

/-- The mask generation function MGF1 with SHA-256: `n` bytes from a seed. -/
def mgf1 (seed : List Byte) (n : Nat) : List Byte :=
  ((List.range ((n + 31) / 32)).flatMap fun i => sha256 (seed ++ beBytes 4 i)).take n

/-- The salt in an unmasked block: what follows the zeros and the byte 1; the spec gives its length nowhere, so any passes. -/
def pssSalt (db : List Byte) : Option (List Byte) :=
  match db.dropWhile (· == 0) with
  | b :: salt => if b = 1 then some salt else none
  | [] => none

/-- Whether a signature of 384 bytes is that of a message under an RSA-3072 public key: modulus and exponent (R33). -/
def pssVerify (key : Nat × Nat) (m signature : List Byte) : Bool :=
  let s := beNat signature
  let em := beBytes 384 (powMod key.1 (key.2.log2 + 1) s key.2)
  let masked := em.take 351
  let h := (em.drop 351).take 32
  let db := List.zipWith (· ^^^ ·) masked (mgf1 h 351)
  signature.length == 384 && decide (s < key.1) && em.getD 383 0 == 0xBC && decide ((em.getD 0 0).toNat < 128) &&
    match pssSalt (((db.getD 0 0) &&& 0x7F) :: db.drop 1) with
    | some salt => sha256 (List.replicate 8 0 ++ sha256 m ++ salt) == h
    | none => false

/-! ### CRC-32C -/

/-- The register after `n` bits (polynomial 0x1EDC6F41, reflected). -/
def crcBits : Nat → BitVec 32 → BitVec 32
  | 0, c => c
  | n + 1, c => crcBits n (if c.getLsbD 0 then (c >>> 1) ^^^ 0x82F63B78 else c >>> 1)

/-- CRC-32C of bytes. -/
def crc32c (m : List Byte) : BitVec 32 :=
  ~~~(m.foldl (fun c b => crcBits 8 (c ^^^ b.setWidth 32)) 0xFFFFFFFF#32)

end Sys2Proof.Machine
end

