-- ==== Sys2Proof/Machine/Numbers.lean ====
section
/-!
DEFINITION. Number formats and exact arithmetic (spec/13_numbers.md): values are exact, and every operation rounds once.
-/

namespace Sys2Proof.Machine

/-- A floating-point format (R249): exponent bits, fraction bits, whether it has infinities, whether it has a NaN,
and the largest finite exponent and fraction. -/
structure Fmt where
  eb   : Nat
  mb   : Nat
  bias : Nat
  inf  : Bool
  nan  : Option Nat
  emax : Nat
  fmax : Nat
  deriving DecidableEq, Repr

/-- FP32 (R249). -/
def f32 : Fmt := { eb := 8, mb := 23, bias := 127, inf := true, nan := some 0x7FC00000, emax := 254, fmax := 2 ^ 23 - 1 }
/-- BF16 (R249). -/
def bf16 : Fmt := { eb := 8, mb := 7, bias := 127, inf := true, nan := some 0x7FC0, emax := 254, fmax := 127 }
/-- FP16 (R249). -/
def f16 : Fmt := { eb := 5, mb := 10, bias := 15, inf := true, nan := some 0x7E00, emax := 30, fmax := 1023 }
/-- FP8 E4M3 (R249). -/
def e4m3 : Fmt := { eb := 4, mb := 3, bias := 7, inf := false, nan := some 0x7F, emax := 15, fmax := 6 }
/-- FP8 E5M2 (R249). -/
def e5m2 : Fmt := { eb := 5, mb := 2, bias := 15, inf := true, nan := some 0x7E, emax := 30, fmax := 3 }
/-- E2M1, the element of MXFP4 (R249). -/
def e2m1 : Fmt := { eb := 2, mb := 1, bias := 1, inf := false, nan := none, emax := 3, fmax := 1 }

/-- Width of a format in bits. -/
def Fmt.width (f : Fmt) : Nat := f.eb + f.mb + 1

/-- An exact value: a NaN, an infinity, or (-1)^neg × num × 2^exp. -/
inductive FVal where
  | nan
  | inf (neg : Bool)
  | fin (neg : Bool) (num : Nat) (exp : Int)
  deriving DecidableEq, Repr

/-- Rounding modes of R254; stochastic rounding carries its 32 random bits (R256). -/
inductive Mode where
  | rne | rtz | rdn | rup
  | sr (r : Nat)
  deriving DecidableEq, Repr

/-- The value a bit pattern stands for (R249). -/
def decodeF (f : Fmt) (x : Nat) : FVal :=
  let neg := x / 2 ^ (f.eb + f.mb) % 2 == 1
  let e := x / 2 ^ f.mb % 2 ^ f.eb
  let m := x % 2 ^ f.mb
  if f.inf && e == 2 ^ f.eb - 1 then (if m = 0 then .inf neg else .nan)
  else if !f.inf && f.nan.isSome && e == f.emax && m > f.fmax then .nan
  else if e = 0 then .fin neg m (1 - (f.bias : Int) - f.mb)
  else .fin neg (2 ^ f.mb + m) ((e : Int) - f.bias - f.mb)

/-- num × 2^exp in units of 2^q: the integer part and the remainder over 2^sh. -/
def scaleTo (num : Nat) (exp q : Int) : Nat × Nat × Nat :=
  if q ≤ exp then (num * 2 ^ (exp - q).toNat, 0, 0)
  else
    let sh := (q - exp).toNat
    (num / 2 ^ sh, num % 2 ^ sh, sh)

/-- Whether a truncated magnitude goes up by one unit (R254, R256). -/
def roundsUp (mode : Mode) (neg : Bool) (a rem sh : Nat) : Bool :=
  match mode with
  | .rne => 2 ^ sh < 2 * rem || (2 * rem == 2 ^ sh && sh != 0 && a % 2 == 1)
  | .rtz => false
  | .rdn => neg && rem != 0
  | .rup => !neg && rem != 0
  | .sr r => decide (r < 2 ^ 32 * rem / 2 ^ sh)

/-- A sign bit before the rest of a pattern. -/
def signed (f : Fmt) (neg : Bool) (x : Nat) : Nat := if neg then 2 ^ (f.eb + f.mb) + x else x

/-- The pattern of an infinity. -/
def infBits (f : Fmt) : Nat := (2 ^ f.eb - 1) * 2 ^ f.mb
/-- The pattern of the largest finite value. -/
def maxBits (f : Fmt) : Nat := f.emax * 2 ^ f.mb + f.fmax

/-- Overflow of a rounded magnitude (R255). -/
def overflowBits (f : Fmt) (mode : Mode) (neg : Bool) : Nat :=
  if !f.inf then maxBits f
  else match mode with
    | .rne => infBits f
    | .rtz => maxBits f
    | .rdn => if neg then infBits f else maxBits f
    | .rup => if neg then maxBits f else infBits f
    | .sr _ => infBits f

/-- `round(x, fmt, mode)` of an exact value (R254-R256). -/
def roundF (f : Fmt) (mode : Mode) : FVal → Nat
  | .nan => f.nan.getD 0
  | .inf neg => if f.inf then signed f neg (infBits f) else signed f neg (maxBits f)
  | .fin neg num exp =>
    if num = 0 then signed f neg 0
    else
      let top : Int := (Nat.log2 num : Int) + exp
      let emin : Int := 1 - (f.bias : Int)
      let q : Int := max top emin - f.mb
      let (a, rem, sh) := scaleTo num exp q
      let a := if roundsUp mode neg a rem sh then a + 1 else a
      let (a, q) := if a = 2 ^ (f.mb + 1) then (2 ^ f.mb, q + 1) else (a, q)
      if a < 2 ^ f.mb then signed f neg a
      else
        let e := (q + f.mb + f.bias).toNat
        let m := a - 2 ^ f.mb
        if f.emax < e || (e == f.emax && f.fmax < m) then signed f neg (overflowBits f mode neg)
        else signed f neg (e * 2 ^ f.mb + m)

/-- The exact value as an integer in units of 2^e, for e not above its exponent. -/
def FVal.units (neg : Bool) (num : Nat) (exp e : Int) : Int :=
  let n : Int := (num * 2 ^ (exp - e).toNat : Nat)
  if neg then -n else n

/-- An exact integer as a value with the sign a zero takes under R253. -/
def ofUnits (n : Int) (e : Int) (zeroNeg : Bool) : FVal :=
  if n = 0 then .fin zeroNeg 0 0 else .fin (n < 0) n.natAbs e

/-- Exact sum (R252, R253): the mode only decides the sign of a zero. -/
def addV (mode : Mode) : FVal → FVal → FVal
  | .nan, _ => .nan
  | _, .nan => .nan
  | .inf a, .inf b => if a = b then .inf a else .nan
  | .inf a, _ => .inf a
  | _, .inf b => .inf b
  | .fin sa na ea, .fin sb nb eb =>
    if na = 0 && nb = 0 then .fin (if sa = sb then sa else mode == .rdn) 0 0
    else
      let e := min ea eb
      ofUnits (FVal.units sa na ea e + FVal.units sb nb eb e) e (mode == .rdn)

/-- The value with its sign inverted. -/
def negV : FVal → FVal
  | .nan => .nan
  | .inf a => .inf (!a)
  | .fin s n e => .fin (!s) n e

/-- Exact product (R252, R253). -/
def mulV : FVal → FVal → FVal
  | .nan, _ => .nan
  | _, .nan => .nan
  | .inf a, .inf b => .inf (a != b)
  | .inf a, .fin s n _ => if n = 0 then .nan else .inf (a != s)
  | .fin s n _, .inf b => if n = 0 then .nan else .inf (s != b)
  | .fin sa na ea, .fin sb nb eb => .fin (sa != sb) (na * nb) (ea + eb)

/-- FP32 addition of two patterns under RNE (R327, R377). -/
def addF32 (x y : Nat) : Nat := roundF f32 .rne (addV .rne (decodeF f32 x) (decodeF f32 y))

/-- An exact value converted to an integer range: rounded by the mode and saturated; a NaN gives 0 (R255). -/
def toIntV (mode : Mode) (lo hi : Int) : FVal → Int
  | .nan => 0
  | .inf neg => if neg then lo else hi
  | .fin neg num exp =>
    let (a, rem, sh) := scaleTo num exp 0
    let a := if roundsUp mode neg a rem sh then a + 1 else a
    let v : Int := if neg then -(a : Int) else a
    max lo (min hi v)

/-- An exact integer as a value; its zero is +0. -/
def intV (n : Int) : FVal := ofUnits n 0 false

/-- The signed value of an `n`-bit pattern. -/
def sval (n x : Nat) : Int :=
  let x := x % 2 ^ n
  if 2 ^ (n - 1) ≤ x then (x : Int) - (2 ^ n : Nat) else x

/-- An integer modulo 2^n as a pattern. -/
def wrapN (n : Nat) (x : Int) : Nat := (x % ((2 ^ n : Nat) : Int)).toNat

/-! ### Matrix arithmetic (R261, R262) -/

/-- The exact sum of a list of products: NaN if one is NaN or infinities of both signs meet (R261). -/
def sumV (l : List FVal) : FVal := l.foldl (addV .rne) (.fin true 0 0)

/-- One K-step on one element: the 16 products summed exactly, rounded to FP32 and added (R261). A list shorter than
16 has missing terms of +0. -/
def kStep (acc : Nat) (prods : List FVal) : Nat :=
  let l := if prods.length < 16 then prods ++ [.fin false 0 0] else prods
  roundF f32 .rne (addV .rne (decodeF f32 acc) (decodeF f32 (roundF f32 .rne (sumV l))))

/-- The decay of one element (R261). -/
def decayStep (d acc : Nat) : Nat := roundF f32 .rne (mulV (decodeF f32 d) (decodeF f32 acc))

/-! ### MXFP4 (R250, R257) -/

/-- The value of an MXFP4 element under its scale (R250). -/
def mxVal (scale x : Nat) : FVal :=
  if scale = 0xFF then .nan
  else match decodeF e2m1 x with
    | .fin s n e => .fin s n (e + scale - 127)
    | v => v

/-- floor(log2) of a finite non-zero magnitude. -/
def log2V : FVal → Int
  | .fin _ num exp => (Nat.log2 num : Int) + exp
  | _ => 0

/-- The scale of a block of exact values (R257). -/
def mxScale (l : List FVal) : Nat :=
  if l.any fun v => match v with | .fin .. => false | _ => true then 0xFF
  else
    let nz := l.filter fun v => match v with | .fin _ n _ => n != 0 | _ => false
    match nz with
    | [] => 0
    | v :: t => (max 0 (min 254 ((t.foldl (fun m w => max m (log2V w)) (log2V v)) - 2 + 127))).toNat

/-- One element of a block whose scale is known (R257). -/
def mxElem (scale : Nat) (mode : Mode) : FVal → Nat
  | .fin s n e => if scale = 0xFF then 0 else roundF e2m1 mode (.fin s n (e - ((scale : Int) - 127)))
  | _ => 0

/-! ### The generator (R265, R266) -/

/-- The constant G of R265. -/
def genG : Word := 0x9E3779B97F4A7C15

/-- `mix` of R265. -/
def mix (z : Word) : Word :=
  let z := z ^^^ (z >>> 32)
  let z := z * 0xD6E8FEB86659FD93
  let z := z ^^^ (z >>> 29)
  let z := z * 0xA3B195B52E3F5E27
  z ^^^ (z >>> 32)

/-- `hash` of R265. -/
def hash (s w1 w2 w3 : Word) : Word :=
  let h := mix (s + genG)
  let h := mix ((h ^^^ w1) + genG)
  let h := mix ((h ^^^ w2) + genG)
  mix ((h ^^^ w3) + genG)

/-- A lattice point (R266). -/
def lattice (srseed : Word) (i q j a : Nat) (shift : Bool) : Nat :=
  let n := 2 ^ q
  let g := a ^ j % n
  let delta := if shift then (mix (srseed + BitVec.ofNat 64 (j + 1) * genG)).toNat % 2 ^ 32 % n else 0
  (i * g + delta) % n * 2 ^ (32 - q) % 2 ^ 32

end Sys2Proof.Machine
end

