-- ==== Sys2Proof/Syntax.lean ====
section
/-!
DEFINITION. The steps of the part: every row of spec/opcode_table.json is one constructor of `Instr`.
The first 201 are the encoded instructions (spec/14_encoding.md R269-R281); the others are the part's own
steps, which have no encoding (spec/95_what_each_step_holds.md). The arguments of such a step say which
object it acts on: a region, a site (row × 96 + col), a partition, or an index `k` into the list of the
state that the step takes its object from.
-/

namespace Sys2Proof

/-- The number of an x register (R283). -/
abbrev Reg := BitVec 5

/-- Order codes of R278. -/
inductive Order where
  | relaxed | acquire | release | acqRel | seqCst
  deriving DecidableEq, Repr

/-- Scope codes of R278, R211. -/
inductive Scope where
  | thread | core | tile | group | partition | system
  deriving DecidableEq, Repr

/-- The etype codes 0-7 of R280. -/
inductive EType where
  | i32 | i16 | i8 | f32 | bf16 | f16 | e4m3 | e5m2
  deriving DecidableEq, Repr

/-- The order code of R278. -/
def Order.code : Order → BitVec 3
  | .relaxed => 0 | .acquire => 1 | .release => 2 | .acqRel => 3 | .seqCst => 4

/-- The order a code names, none for the illegal codes 5-7 (R278). -/
def Order.ofCode (c : BitVec 3) : Option Order :=
  match c.toNat with
  | 0 => some .relaxed | 1 => some .acquire | 2 => some .release | 3 => some .acqRel
  | 4 => some .seqCst | _ => none

/-- The scope code of R278. -/
def Scope.code : Scope → BitVec 3
  | .thread => 0 | .core => 1 | .tile => 2 | .group => 3 | .partition => 4 | .system => 5

/-- The scope a code names, none for 6 and 7 (R278). -/
def Scope.ofCode (c : BitVec 3) : Option Scope :=
  match c.toNat with
  | 0 => some .thread | 1 => some .core | 2 => some .tile | 3 => some .group
  | 4 => some .partition | 5 => some .system | _ => none

/-- The etype code of R280. -/
def EType.code : EType → BitVec 3
  | .i32 => 0 | .i16 => 1 | .i8 => 2 | .f32 => 3 | .bf16 => 4 | .f16 => 5 | .e4m3 => 6 | .e5m2 => 7

/-- The element type a code names; every code is assigned (R280). -/
def EType.ofCode (c : BitVec 3) : EType :=
  match c.toNat with
  | 0 => .i32 | 1 => .i16 | 2 => .i8 | 3 => .f32 | 4 => .bf16 | 5 => .f16 | 6 => .e4m3 | _ => .e5m2

/-- An image update (R33): the image and its signature for the staging area, and whether the commit word follows. -/
structure ImageUpdate where
  commit    : Bool
  image     : List (BitVec 8)
  signature : List (BitVec 8)
  deriving DecidableEq, Repr

/-- A site whose hardware watchdog fires; `spine` says that its network interface or control unit has stopped (R9, R227). -/
structure WatchdogEvent where
  site  : Nat
  spine : Bool
  deriving DecidableEq, Repr

/-- A site's memory bank that fails or whose rebuild ends; `what` tells the store and which of the two (R197). -/
structure BankEvent where
  site : Nat
  what : Nat
  deriving DecidableEq, Repr

/-- One constructor per row of the opcode table. -/
inductive Instr where
  /-- LB (R295). -/
  | lb (rd : Reg) (rs1 : Reg) (imm : BitVec 12)
  /-- LH (R295). -/
  | lh (rd : Reg) (rs1 : Reg) (imm : BitVec 12)
  /-- LW (R295). -/
  | lw (rd : Reg) (rs1 : Reg) (imm : BitVec 12)
  /-- LD (R295). -/
  | ld (rd : Reg) (rs1 : Reg) (imm : BitVec 12)
  /-- LBU (R295). -/
  | lbu (rd : Reg) (rs1 : Reg) (imm : BitVec 12)
  /-- LHU (R295). -/
  | lhu (rd : Reg) (rs1 : Reg) (imm : BitVec 12)
  /-- LWU (R295). -/
  | lwu (rd : Reg) (rs1 : Reg) (imm : BitVec 12)
  /-- SB (R295). -/
  | sb (rs2 : Reg) (rs1 : Reg) (imm : BitVec 12)
  /-- SH (R295). -/
  | sh (rs2 : Reg) (rs1 : Reg) (imm : BitVec 12)
  /-- SW (R295). -/
  | sw (rs2 : Reg) (rs1 : Reg) (imm : BitVec 12)
  /-- SD (R295). -/
  | sd (rs2 : Reg) (rs1 : Reg) (imm : BitVec 12)
  /-- ADDI (R297). -/
  | addi (rd : Reg) (rs1 : Reg) (imm : BitVec 12)
  /-- SLTI (R297). -/
  | slti (rd : Reg) (rs1 : Reg) (imm : BitVec 12)
  /-- SLTIU (R297). -/
  | sltiu (rd : Reg) (rs1 : Reg) (imm : BitVec 12)
  /-- XORI (R297). -/
  | xori (rd : Reg) (rs1 : Reg) (imm : BitVec 12)
  /-- ORI (R297). -/
  | ori (rd : Reg) (rs1 : Reg) (imm : BitVec 12)
  /-- ANDI (R297). -/
  | andi (rd : Reg) (rs1 : Reg) (imm : BitVec 12)
  /-- SLLI (R297). -/
  | slli (rd : Reg) (rs1 : Reg) (sh : BitVec 6)
  /-- SRLI (R297). -/
  | srli (rd : Reg) (rs1 : Reg) (sh : BitVec 6)
  /-- SRAI (R297). -/
  | srai (rd : Reg) (rs1 : Reg) (sh : BitVec 6)
  /-- ADDIW (R298). -/
  | addiw (rd : Reg) (rs1 : Reg) (imm : BitVec 12)
  /-- SLLIW (R298). -/
  | slliw (rd : Reg) (rs1 : Reg) (sh : BitVec 5)
  /-- SRLIW (R298). -/
  | srliw (rd : Reg) (rs1 : Reg) (sh : BitVec 5)
  /-- SRAIW (R298). -/
  | sraiw (rd : Reg) (rs1 : Reg) (sh : BitVec 5)
  /-- ADD (R297). -/
  | add (rd : Reg) (rs1 : Reg) (rs2 : Reg)
  /-- SUB (R297). -/
  | sub (rd : Reg) (rs1 : Reg) (rs2 : Reg)
  /-- SLL (R297). -/
  | sll (rd : Reg) (rs1 : Reg) (rs2 : Reg)
  /-- SLT (R297). -/
  | slt (rd : Reg) (rs1 : Reg) (rs2 : Reg)
  /-- SLTU (R297). -/
  | sltu (rd : Reg) (rs1 : Reg) (rs2 : Reg)
  /-- XOR (R297). -/
  | xor (rd : Reg) (rs1 : Reg) (rs2 : Reg)
  /-- SRL (R297). -/
  | srl (rd : Reg) (rs1 : Reg) (rs2 : Reg)
  /-- SRA (R297). -/
  | sra (rd : Reg) (rs1 : Reg) (rs2 : Reg)
  /-- OR (R297). -/
  | or (rd : Reg) (rs1 : Reg) (rs2 : Reg)
  /-- AND (R297). -/
  | and (rd : Reg) (rs1 : Reg) (rs2 : Reg)
  /-- MUL (R299). -/
  | mul (rd : Reg) (rs1 : Reg) (rs2 : Reg)
  /-- MULH (R299). -/
  | mulh (rd : Reg) (rs1 : Reg) (rs2 : Reg)
  /-- MULHSU (R299). -/
  | mulhsu (rd : Reg) (rs1 : Reg) (rs2 : Reg)
  /-- MULHU (R299). -/
  | mulhu (rd : Reg) (rs1 : Reg) (rs2 : Reg)
  /-- DIV (R299). -/
  | div (rd : Reg) (rs1 : Reg) (rs2 : Reg)
  /-- DIVU (R299). -/
  | divu (rd : Reg) (rs1 : Reg) (rs2 : Reg)
  /-- REM (R299). -/
  | rem (rd : Reg) (rs1 : Reg) (rs2 : Reg)
  /-- REMU (R299). -/
  | remu (rd : Reg) (rs1 : Reg) (rs2 : Reg)
  /-- ADDW (R298). -/
  | addw (rd : Reg) (rs1 : Reg) (rs2 : Reg)
  /-- SUBW (R298). -/
  | subw (rd : Reg) (rs1 : Reg) (rs2 : Reg)
  /-- SLLW (R298). -/
  | sllw (rd : Reg) (rs1 : Reg) (rs2 : Reg)
  /-- SRLW (R298). -/
  | srlw (rd : Reg) (rs1 : Reg) (rs2 : Reg)
  /-- SRAW (R298). -/
  | sraw (rd : Reg) (rs1 : Reg) (rs2 : Reg)
  /-- MULW (R299). -/
  | mulw (rd : Reg) (rs1 : Reg) (rs2 : Reg)
  /-- DIVW (R299). -/
  | divw (rd : Reg) (rs1 : Reg) (rs2 : Reg)
  /-- DIVUW (R299). -/
  | divuw (rd : Reg) (rs1 : Reg) (rs2 : Reg)
  /-- REMW (R299). -/
  | remw (rd : Reg) (rs1 : Reg) (rs2 : Reg)
  /-- REMUW (R299). -/
  | remuw (rd : Reg) (rs1 : Reg) (rs2 : Reg)
  /-- LUI (R300). -/
  | lui (rd : Reg) (imm : BitVec 20)
  /-- AUIPC (R300). -/
  | auipc (rd : Reg) (imm : BitVec 20)
  /-- JAL (R301). -/
  | jal (rd : Reg) (off : BitVec 20)
  /-- JALR (R301). -/
  | jalr (rd : Reg) (rs1 : Reg) (imm : BitVec 12)
  /-- BEQ (R302). -/
  | beq (rs1 : Reg) (rs2 : Reg) (off : BitVec 12)
  /-- BNE (R302). -/
  | bne (rs1 : Reg) (rs2 : Reg) (off : BitVec 12)
  /-- BLT (R302). -/
  | blt (rs1 : Reg) (rs2 : Reg) (off : BitVec 12)
  /-- BGE (R302). -/
  | bge (rs1 : Reg) (rs2 : Reg) (off : BitVec 12)
  /-- BLTU (R302). -/
  | bltu (rs1 : Reg) (rs2 : Reg) (off : BitVec 12)
  /-- BGEU (R302). -/
  | bgeu (rs1 : Reg) (rs2 : Reg) (off : BitVec 12)
  /-- ECALL (R312). -/
  | ecall
  /-- EBREAK (R312). -/
  | ebreak
  /-- MRET (R392). -/
  | mret
  /-- CSRRW (R310). -/
  | csrrw (rd : Reg) (csr : BitVec 12) (rs1 : Reg)
  /-- CSRRS (R310). -/
  | csrrs (rd : Reg) (csr : BitVec 12) (rs1 : Reg)
  /-- CSRRC (R310). -/
  | csrrc (rd : Reg) (csr : BitVec 12) (rs1 : Reg)
  /-- CSRRWI (R310). -/
  | csrrwi (rd : Reg) (csr : BitVec 12) (z : BitVec 5)
  /-- CSRRSI (R310). -/
  | csrrsi (rd : Reg) (csr : BitVec 12) (z : BitVec 5)
  /-- CSRRCI (R310). -/
  | csrrci (rd : Reg) (csr : BitVec 12) (z : BitVec 5)
  /-- MIN (R303). -/
  | min (rd : Reg) (rs1 : Reg) (rs2 : Reg)
  /-- MAX (R303). -/
  | max (rd : Reg) (rs1 : Reg) (rs2 : Reg)
  /-- MINU (R303). -/
  | minu (rd : Reg) (rs1 : Reg) (rs2 : Reg)
  /-- MAXU (R303). -/
  | maxu (rd : Reg) (rs1 : Reg) (rs2 : Reg)
  /-- CLZ (R303). -/
  | clz (rd : Reg) (rs1 : Reg)
  /-- CTZ (R303). -/
  | ctz (rd : Reg) (rs1 : Reg)
  /-- CPOP (R303). -/
  | cpop (rd : Reg) (rs1 : Reg)
  /-- BFX (R304). -/
  | bfx (rd : Reg) (rs1 : Reg) (off : BitVec 6) (width : BitVec 6)
  /-- BFXU (R304). -/
  | bfxu (rd : Reg) (rs1 : Reg) (off : BitVec 6) (width : BitVec 6)
  /-- BFI (R305). -/
  | bfi (rd : Reg) (rs1 : Reg) (off : BitVec 6) (width : BitVec 6)
  /-- LOOP (R307). -/
  | loop (rs1 : Reg) (last : BitVec 12)
  /-- LOOPI (R307). -/
  | loopi (count : BitVec 10) (last : BitVec 12)
  /-- SEND (R316). -/
  | send (rs1 : Reg)
  /-- SEND_G (R316). -/
  | sendG (rs1 : Reg)
  /-- SEND_S (R316). -/
  | sendS (rs1 : Reg)
  /-- SEND_GS (R316). -/
  | sendGs (rs1 : Reg)
  /-- SENDC (R317). -/
  | sendc (rs1 : Reg) (rs2 : Reg)
  /-- COMMIT (R318). -/
  | commit
  /-- ABORT (R318). -/
  | abort
  /-- SPAWN (R319). -/
  | spawn (rd : Reg) (rs1 : Reg) (rs2 : Reg)
  /-- JOINDEC (R320). -/
  | joindec (rd : Reg) (rs1 : Reg)
  /-- LAUNCH (R321). -/
  | launch (rs1 : Reg)
  /-- DONE (R322). -/
  | done
  /-- SYNC (R323). -/
  | sync (order : Order) (scope : Scope)
  /-- BAR (R324). -/
  | bar (rs1 : Reg)
  /-- WAITGEN (R325). -/
  | waitgen (rd : Reg) (rs2 : Reg) (rs1 : Reg)
  /-- HANDOVER (R329). -/
  | handover (rs1 : Reg) (cap : BitVec 2)
  /-- CAPTEST (R330). -/
  | captest (rd : Reg) (cap : BitVec 2)
  /-- CAPTEST_ID (R330). -/
  | captestId (rd : Reg) (cap : BitVec 2)
  /-- CAPDROP (R331). -/
  | capdrop (cap : BitVec 2)
  /-- TLBINV (R384). -/
  | tlbinv (rs1 : Reg) (rs2 : Reg)
  /-- CHKPT (R386). -/
  | chkpt (rd : Reg) (rs1 : Reg)
  /-- SELFREPORT_SCAN (R388). -/
  | selfreportScan (rs1 : Reg) (rs2 : Reg)
  /-- SELFREPORT_FAIL (R388). -/
  | selfreportFail (rs1 : Reg) (rs2 : Reg)
  /-- SELFREPORT_EVENT (R389). -/
  | selfreportEvent (rs1 : Reg) (rs2 : Reg)
  /-- AMOADD (R327). -/
  | amoadd (order : Order) (scope : Scope) (dbl : Bool) (rd : Reg) (rs2 : BitVec 4) (rs1 : Reg)
  /-- AMOAND (R327). -/
  | amoand (order : Order) (scope : Scope) (dbl : Bool) (rd : Reg) (rs2 : BitVec 4) (rs1 : Reg)
  /-- AMOOR (R327). -/
  | amoor (order : Order) (scope : Scope) (dbl : Bool) (rd : Reg) (rs2 : BitVec 4) (rs1 : Reg)
  /-- AMOXOR (R327). -/
  | amoxor (order : Order) (scope : Scope) (dbl : Bool) (rd : Reg) (rs2 : BitVec 4) (rs1 : Reg)
  /-- AMOMIN (R327). -/
  | amomin (order : Order) (scope : Scope) (dbl : Bool) (rd : Reg) (rs2 : BitVec 4) (rs1 : Reg)
  /-- AMOMAX (R327). -/
  | amomax (order : Order) (scope : Scope) (dbl : Bool) (rd : Reg) (rs2 : BitVec 4) (rs1 : Reg)
  /-- AMOMINU (R327). -/
  | amominu (order : Order) (scope : Scope) (dbl : Bool) (rd : Reg) (rs2 : BitVec 4) (rs1 : Reg)
  /-- AMOMAXU (R327). -/
  | amomaxu (order : Order) (scope : Scope) (dbl : Bool) (rd : Reg) (rs2 : BitVec 4) (rs1 : Reg)
  /-- AMOSWAP (R327). -/
  | amoswap (order : Order) (scope : Scope) (dbl : Bool) (rd : Reg) (rs2 : BitVec 4) (rs1 : Reg)
  /-- AMOCAS (R327). -/
  | amocas (order : Order) (scope : Scope) (dbl : Bool) (rd : Reg) (rs2 : BitVec 4) (rs1 : Reg)
  /-- AMOFADD (R327). -/
  | amofadd (order : Order) (scope : Scope) (dbl : Bool) (rd : Reg) (rs2 : BitVec 4) (rs1 : Reg)
  /-- LDF (R326). -/
  | ldf (rd : Reg) (rs1 : Reg)
  /-- LDFE (R326). -/
  | ldfe (rd : Reg) (rs1 : Reg)
  /-- STF (R326). -/
  | stf (rs2 : Reg) (rs1 : Reg)
  /-- EQPUSH (R379). -/
  | eqpush (rs2 : Reg) (rs1 : Reg)
  /-- EQFIRE (R380). -/
  | eqfire (rs1 : Reg)
  /-- EQDONE (R380). -/
  | eqdone (rs1 : Reg) (rs2 : Reg)
  /-- EQSTAT (R381). -/
  | eqstat (rd : Reg) (rs1 : Reg)
  /-- RDBLK (R376). -/
  | rdblk (rd : Reg) (rs1 : Reg)
  /-- WRBLK (R376). -/
  | wrblk (rd : Reg) (rs1 : Reg)
  /-- WRBLK_DEP (R376). -/
  | wrblkDep (rd : Reg) (rs1 : Reg)
  /-- COPY (R376). -/
  | copy (rd : Reg) (rs1 : Reg)
  /-- CPWAIT (R378). -/
  | cpwait (rd : Reg) (rs1 : Reg)
  /-- MMA (R363). -/
  | mma (store : Bool) (decay : Bool) (zero : Bool) (rd : Reg) (acc : BitVec 3) (rs1 : Reg) (rs2 : Reg)
  /-- FMMA (R368). -/
  | fmma (store : Bool) (decay : Bool) (zero : Bool) (rd : Reg) (acc : BitVec 3) (rs1 : Reg) (rs2 : Reg)
  /-- MCMD (R367). -/
  | mcmd (store : Bool) (decay : Bool) (zero : Bool) (cap : BitVec 2) (acc : BitVec 3) (rs1 : Reg) (rs2 : Reg)
  /-- ACCRD (R372). -/
  | accrd (rd : Reg) (acc : BitVec 3) (rs1 : Reg) (rs2 : Reg)
  /-- ACCWR (R373). -/
  | accwr (rd : Reg) (acc : BitVec 3) (rs1 : Reg) (rs2 : Reg)
  /-- ACCZERO (R373). -/
  | acczero (rd : Reg) (acc : BitVec 3)
  /-- ACCSPILL (R373). -/
  | accspill (zero : Bool) (rd : Reg) (acc : BitVec 3) (rs1 : Reg)
  /-- ACCFILL (R373). -/
  | accfill (rd : Reg) (acc : BitVec 3) (rs1 : Reg)
  /-- MWAIT (R374). -/
  | mwait (rd : Reg) (rs1 : Reg)
  /-- VLD (R341). -/
  | vld (et : EType) (vd : BitVec 4) (xs : BitVec 4) (pm : Bool)
  /-- VST (R341). -/
  | vst (et : EType) (vd : BitVec 4) (xs : BitVec 4) (pm : Bool)
  /-- VLDS (R341). -/
  | vlds (et : EType) (vd : BitVec 4) (xs : BitVec 4) (xt : BitVec 4) (pm : Bool)
  /-- VSTS (R341). -/
  | vsts (et : EType) (vd : BitVec 4) (xs : BitVec 4) (xt : BitVec 4) (pm : Bool)
  /-- VGATH (R342). -/
  | vgath (et : EType) (vd : BitVec 4) (xs : BitVec 4) (vi : BitVec 4) (pm : Bool)
  /-- VSCAT (R342). -/
  | vscat (et : EType) (vd : BitVec 4) (xs : BitVec 4) (vi : BitVec 4) (pm : Bool)
  /-- STRCFG (R338). -/
  | strcfg (st : BitVec 2) (xs : BitVec 4)
  /-- STREND (R338). -/
  | strend (st : BitVec 2)
  /-- VADD (R343). -/
  | vadd (et : EType) (vd : BitVec 4) (vs2 : BitVec 4) (vs1 : BitVec 4) (var : BitVec 3) (pm : Bool)
  /-- VSUB (R343). -/
  | vsub (et : EType) (vd : BitVec 4) (vs2 : BitVec 4) (vs1 : BitVec 4) (var : BitVec 3) (pm : Bool)
  /-- VMUL (R343). -/
  | vmul (et : EType) (vd : BitVec 4) (vs2 : BitVec 4) (vs1 : BitVec 4) (var : BitVec 3) (pm : Bool)
  /-- VMULH (R343). -/
  | vmulh (et : EType) (vd : BitVec 4) (vs2 : BitVec 4) (vs1 : BitVec 4) (var : BitVec 3) (pm : Bool)
  /-- VADDSAT (R343). -/
  | vaddsat (et : EType) (vd : BitVec 4) (vs2 : BitVec 4) (vs1 : BitVec 4) (var : BitVec 3) (pm : Bool)
  /-- VSUBSAT (R343). -/
  | vsubsat (et : EType) (vd : BitVec 4) (vs2 : BitVec 4) (vs1 : BitVec 4) (var : BitVec 3) (pm : Bool)
  /-- VMIN (R343). -/
  | vmin (et : EType) (vd : BitVec 4) (vs2 : BitVec 4) (vs1 : BitVec 4) (var : BitVec 3) (pm : Bool)
  /-- VMAX (R343). -/
  | vmax (et : EType) (vd : BitVec 4) (vs2 : BitVec 4) (vs1 : BitVec 4) (var : BitVec 3) (pm : Bool)
  /-- VAND (R343). -/
  | vand (et : EType) (vd : BitVec 4) (vs2 : BitVec 4) (vs1 : BitVec 4) (var : BitVec 3) (pm : Bool)
  /-- VOR (R343). -/
  | vor (et : EType) (vd : BitVec 4) (vs2 : BitVec 4) (vs1 : BitVec 4) (var : BitVec 3) (pm : Bool)
  /-- VXOR (R343). -/
  | vxor (et : EType) (vd : BitVec 4) (vs2 : BitVec 4) (vs1 : BitVec 4) (var : BitVec 3) (pm : Bool)
  /-- VSLL (R343). -/
  | vsll (et : EType) (vd : BitVec 4) (vs2 : BitVec 4) (vs1 : BitVec 4) (var : BitVec 3) (pm : Bool)
  /-- VSRL (R343). -/
  | vsrl (et : EType) (vd : BitVec 4) (vs2 : BitVec 4) (vs1 : BitVec 4) (var : BitVec 3) (pm : Bool)
  /-- VSRA (R343). -/
  | vsra (et : EType) (vd : BitVec 4) (vs2 : BitVec 4) (vs1 : BitVec 4) (var : BitVec 3) (pm : Bool)
  /-- VFADD (R344). -/
  | vfadd (et : EType) (vd : BitVec 4) (vs2 : BitVec 4) (vs1 : BitVec 4) (rm : BitVec 3) (pm : Bool)
  /-- VFSUB (R344). -/
  | vfsub (et : EType) (vd : BitVec 4) (vs2 : BitVec 4) (vs1 : BitVec 4) (rm : BitVec 3) (pm : Bool)
  /-- VFMUL (R344). -/
  | vfmul (et : EType) (vd : BitVec 4) (vs2 : BitVec 4) (vs1 : BitVec 4) (rm : BitVec 3) (pm : Bool)
  /-- VFMA (R344). -/
  | vfma (et : EType) (vd : BitVec 4) (vs2 : BitVec 4) (vs1 : BitVec 4) (rm : BitVec 3) (pm : Bool)
  /-- VFNMA (R344). -/
  | vfnma (et : EType) (vd : BitVec 4) (vs2 : BitVec 4) (vs1 : BitVec 4) (rm : BitVec 3) (pm : Bool)
  /-- VMINN (R344). -/
  | vminn (et : EType) (vd : BitVec 4) (vs2 : BitVec 4) (vs1 : BitVec 4) (pm : Bool)
  /-- VMAXN (R344). -/
  | vmaxn (et : EType) (vd : BitVec 4) (vs2 : BitVec 4) (vs1 : BitVec 4) (pm : Bool)
  /-- VEXP2 (R345). -/
  | vexp2 (et : EType) (vd : BitVec 4) (vs2 : BitVec 4) (pm : Bool)
  /-- VLOG2 (R345). -/
  | vlog2 (et : EType) (vd : BitVec 4) (vs2 : BitVec 4) (pm : Bool)
  /-- VRCP (R345). -/
  | vrcp (et : EType) (vd : BitVec 4) (vs2 : BitVec 4) (pm : Bool)
  /-- VRSQRT (R345). -/
  | vrsqrt (et : EType) (vd : BitVec 4) (vs2 : BitVec 4) (pm : Bool)
  /-- VTANH (R345). -/
  | vtanh (et : EType) (vd : BitVec 4) (vs2 : BitVec 4) (pm : Bool)
  /-- VFABS (R345). -/
  | vfabs (et : EType) (vd : BitVec 4) (vs2 : BitVec 4) (pm : Bool)
  /-- VFNEG (R345). -/
  | vfneg (et : EType) (vd : BitVec 4) (vs2 : BitVec 4) (pm : Bool)
  /-- VCMPEQ (R346). -/
  | vcmpeq (et : EType) (md : BitVec 2) (vs2 : BitVec 4) (vs1 : BitVec 4) (var : BitVec 3) (pm : Bool)
  /-- VCMPNE (R346). -/
  | vcmpne (et : EType) (md : BitVec 2) (vs2 : BitVec 4) (vs1 : BitVec 4) (var : BitVec 3) (pm : Bool)
  /-- VCMPLT (R346). -/
  | vcmplt (et : EType) (md : BitVec 2) (vs2 : BitVec 4) (vs1 : BitVec 4) (var : BitVec 3) (pm : Bool)
  /-- VCMPLE (R346). -/
  | vcmple (et : EType) (md : BitVec 2) (vs2 : BitVec 4) (vs1 : BitVec 4) (var : BitVec 3) (pm : Bool)
  /-- VSEL (R347). -/
  | vsel (et : EType) (vd : BitVec 4) (vs2 : BitVec 4) (vs1 : BitVec 4)
  /-- VMASK_AND (R348). -/
  | vmaskAnd (md : BitVec 2) (ma : BitVec 2) (mb : BitVec 2)
  /-- VMASK_OR (R348). -/
  | vmaskOr (md : BitVec 2) (ma : BitVec 2) (mb : BitVec 2)
  /-- VMASK_XOR (R348). -/
  | vmaskXor (md : BitVec 2) (ma : BitVec 2) (mb : BitVec 2)
  /-- VMASK_ANDN (R348). -/
  | vmaskAndn (md : BitVec 2) (ma : BitVec 2) (mb : BitVec 2)
  /-- VMASK_NOT (R348). -/
  | vmaskNot (md : BitVec 2) (ma : BitVec 2)
  /-- VMASK_FROMX (R348). -/
  | vmaskFromx (md : BitVec 2) (xs : BitVec 4)
  /-- VMASK_TOX (R348). -/
  | vmaskTox (xd : BitVec 4) (ma : BitVec 2)
  /-- VMASK_FIRST (R348). -/
  | vmaskFirst (md : BitVec 2) (xs : BitVec 4)
  /-- VREDSUM (R349). -/
  | vredsum (et : EType) (vd : BitVec 4) (vs2 : BitVec 4) (var : BitVec 3) (pm : Bool)
  /-- VREDMAX (R349). -/
  | vredmax (et : EType) (vd : BitVec 4) (vs2 : BitVec 4) (var : BitVec 3) (pm : Bool)
  /-- VARGMAX (R350). -/
  | vargmax (et : EType) (vd : BitVec 4) (vs2 : BitVec 4) (var : BitVec 3) (pm : Bool)
  /-- VCVT (R351). -/
  | vcvt (et : EType) (src : BitVec 4) (vd : BitVec 4) (vs2 : BitVec 4) (rm : BitVec 3) (pm : Bool)
  /-- VRAND (R353). -/
  | vrand (vd : BitVec 4) (pm : Bool)
  /-- VRAND_LAT (R353). -/
  | vrandLat (vd : BitVec 4) (xs : BitVec 4) (pm : Bool)
  /-- VMVX (R354). -/
  | vmvx (et : EType) (vd : BitVec 4) (xs : BitVec 4) (xi : BitVec 4)
  /-- VMVX_GET (R354). -/
  | vmvxGet (et : EType) (nat : Bool) (xd : BitVec 4) (vs2 : BitVec 4) (xi : BitVec 4)
  /-- VPERM (R355). -/
  | vperm (et : EType) (vd : BitVec 4) (vs2 : BitVec 4) (vs1 : BitVec 4) (pm : Bool)
  /-- VSLIDEUP (R355). -/
  | vslideup (et : EType) (vd : BitVec 4) (vs2 : BitVec 4) (xs : BitVec 4) (pm : Bool)
  /-- VSLIDEDN (R355). -/
  | vslidedn (et : EType) (vd : BitVec 4) (vs2 : BitVec 4) (xs : BitVec 4) (pm : Bool)
  /-- VZIP (R355). -/
  | vzip (et : EType) (vd : BitVec 4) (vs2 : BitVec 4) (vs1 : BitVec 4) (pm : Bool)
  /-- VUNZIP (R355). -/
  | vunzip (et : EType) (odd : Bool) (vd : BitVec 4) (vs2 : BitVec 4) (vs1 : BitVec 4) (pm : Bool)
  /-- VBCAST (R355). -/
  | vbcast (et : EType) (vd : BitVec 4) (xs : BitVec 4) (pm : Bool)
  /-- POWER_UP (R34). -/
  | powerUp (bad : Nat) (failed : List (Nat × Nat))
  /-- IMAGE_UPDATE_COMMIT (R33). -/
  | imageUpdateCommit (update : ImageUpdate)
  /-- THERMAL_SHUTDOWN (R58). -/
  | thermalShutdown
  /-- DROOP_TRIP (R57). -/
  | droopTrip (region : Nat)
  /-- DROOP_CLEAR (R57). -/
  | droopClear (region : Nat)
  /-- THERMAL_TRIP (R57). -/
  | thermalTrip (region : Nat)
  /-- THERMAL_CLEAR (R57). -/
  | thermalClear (region : Nat)
  /-- POWER_CAP_TRIP (R57). -/
  | powerCapTrip (region : Nat)
  /-- POWER_CAP_CLEAR (R57). -/
  | powerCapClear (region : Nat)
  /-- GOVERNOR_WINDOW (R55). -/
  | governorWindow (region : Nat) (estimate : Nat) (drawn : Nat)
  /-- LAUNCH_WAVE_FORWARD (R54). -/
  | launchWaveForward (k : Nat)
  /-- CSTEPLIM_WRITE (R56). -/
  | csteplimWrite (region : Nat) (val : Word)
  /-- PORT_STATUS_WRITE (R74). -/
  | portStatusWrite (port : Nat) (val : Word)
  /-- REGISTER_WRITE (R68). -/
  | registerWrite (fn : Nat) (off : Nat) (size : Nat) (val : Word)
  /-- QBASE_WRITE (R83). -/
  | qbaseWrite (fn : Nat) (q : Nat) (val : Word)
  /-- QCFG_WRITE (R84). -/
  | qcfgWrite (fn : Nat) (q : Nat) (val : Word)
  /-- QNOTIFY_WRITE (R87). -/
  | qnotifyWrite (fn : Nat) (q : Nat) (val : Word)
  /-- QSTAT_WRITE (R84). -/
  | qstatWrite (fn : Nat) (q : Nat) (val : Word)
  /-- PACKET_TAKE (R87). -/
  | packetTake (part : Nat) (ctl : Nat)
  /-- VALID_POLL (R87). -/
  | validPoll (fn : Nat) (q : Nat)
  /-- PACKET_COMPLETE (R90). -/
  | packetComplete (k : Nat)
  /-- LAUNCH_PACKET (R91). -/
  | launchPacket (k : Nat)
  /-- COPY_PACKET (R92). -/
  | copyPacket (k : Nat)
  /-- BARRIER_AND_PACKET (R93). -/
  | barrierAndPacket (k : Nat)
  /-- BARRIER_OR_PACKET (R93). -/
  | barrierOrPacket (k : Nat)
  /-- BARRIER_EVALUATION (R93). -/
  | barrierEvaluation (k : Nat)
  /-- SIGNAL_STORE (R94). -/
  | signalStore (k : Nat)
  /-- SIGNAL_ADD (R94). -/
  | signalAdd (k : Nat)
  /-- SIGNAL_SUBTRACT (R94). -/
  | signalSubtract (k : Nat)
  /-- GRAPH_REPLAY_PACKET (R95). -/
  | graphReplayPacket (k : Nat)
  /-- GRAPH_REPLAY_START (R96). -/
  | graphReplayStart (k : Nat)
  /-- EXPERT_QUEUE_CONFIGURATION (R97). -/
  | expertQueueConfiguration (k : Nat)
  /-- RECOVERY_POINT (R98). -/
  | recoveryPoint (k : Nat)
  /-- SEGMENT_ACKNOWLEDGEMENT (R80). -/
  | segmentAcknowledgement (part : Nat) (seg : Nat)
  /-- QUOTE (R99). -/
  | quote (k : Nat)
  /-- CREATE (R100). -/
  | create (k : Nat)
  /-- DESTROY (R100). -/
  | destroy (k : Nat)
  /-- BINDVF (R100). -/
  | bindvf (k : Nat)
  /-- UNBINDVF (R100). -/
  | unbindvf (k : Nat)
  /-- EGRESS (R100). -/
  | egress (k : Nat)
  /-- CSTEP (R100). -/
  | cstep (k : Nat)
  /-- SELFTEST (R38). -/
  | selftest (k : Nat)
  /-- DEVID (R77). -/
  | devid (k : Nat)
  /-- READMIT (R44). -/
  | readmit (k : Nat)
  /-- MODES (R108). -/
  | modes (k : Nat)
  /-- EVENTS (R106). -/
  | events (k : Nat)
  /-- SWITCHOUT (R229). -/
  | switchout (k : Nat)
  /-- SWITCHIN (R233). -/
  | switchin (k : Nat)
  /-- ASSIST (R109). -/
  | assist (k : Nat)
  /-- RESTORE (R100). -/
  | restore (k : Nat)
  /-- ASSIST_TIMEOUT (R109). -/
  | assistTimeout (token : Nat)
  /-- TERMINATION_WAVE (R131). -/
  | terminationWave (part : Nat) (job : Nat)
  /-- SLOT_FILL (R115). -/
  | slotFill (site : Nat) (core : Nat)
  /-- STEAL_REQUEST (R117). -/
  | stealRequest (k : Nat)
  /-- STEAL_ANSWER (R117). -/
  | stealAnswer (k : Nat)
  /-- STEAL_SWEEP_WAIT (R117). -/
  | stealSweepWait (site : Nat) (core : Nat)
  /-- BUDGET_OVERRUN (R120). -/
  | budgetOverrun (hart : Nat)
  /-- PREEMPTION_REQUEST (R122). -/
  | preemptionRequest (site : Nat) (core : Nat)
  /-- PREEMPTION_COMPLETE (R122). -/
  | preemptionComplete (site : Nat) (core : Nat)
  /-- QUANTUM_END (R125). -/
  | quantumEnd (part : Nat)
  /-- SCAN_SLICE (R38). -/
  | scanSlice (site : Nat) (core : Nat) (pass : Bool)
  /-- SELF_TEST_DEADLINE (R38). -/
  | selfTestDeadline (site : Nat) (core : Nat)
  /-- MESSAGE_ARRIVAL (R142). -/
  | messageArrival (k : Nat)
  /-- MESSAGE_ACKNOWLEDGEMENT (R144). -/
  | messageAcknowledgement (k : Nat)
  /-- RESEND_BACKOFF (R144). -/
  | resendBackoff (k : Nat)
  /-- REMOTE_STORE_ARRIVAL (R189). -/
  | remoteStoreArrival (k : Nat)
  /-- REMOTE_ATOMIC_PERFORM (R209). -/
  | remoteAtomicPerform (k : Nat)
  /-- RESPONSE_ARRIVAL (R218). -/
  | responseArrival (k : Nat)
  /-- FAULT_MESSAGE (R186). -/
  | faultMessage (k : Nat)
  /-- WAKE (R187). -/
  | wake (part : Nat) (page : Nat) (present : Bool)
  /-- ENGINE_CHUNK (R121). -/
  | engineChunk (site : Nat) (ch : Nat) (lines : List Nat)
  /-- CHUNK_RETRY (R232). -/
  | chunkRetry (site : Nat) (ch : Nat)
  /-- MATRIX_COMMAND_START (R363). -/
  | matrixCommandStart (site : Nat)
  /-- MATRIX_CHUNK (R360). -/
  | matrixChunk (site : Nat)
  /-- FLOE_CHUNK_COMMIT (R369). -/
  | floeChunkCommit (part : Nat)
  /-- FLOE_REFORM (R370). -/
  | floeReform (part : Nat) (failed : Nat)
  /-- MATRIX_COMMAND_COMPLETE (R363). -/
  | matrixCommandComplete (site : Nat)
  /-- TRANSFER_COMPLETE (R377). -/
  | transferComplete (site : Nat) (ch : Nat)
  /-- PUSH_ACCEPT (R156). -/
  | pushAccept (k : Nat)
  /-- ENTRY_AGE (R158). -/
  | entryAge (site : Nat) (q : Nat)
  /-- EXPERT_FIRING (R159). -/
  | expertFiring (site : Nat)
  /-- EQFIRE_ARRIVAL (R158). -/
  | eqfireArrival (k : Nat)
  /-- EQDONE_ARRIVAL (R160). -/
  | eqdoneArrival (k : Nat)
  /-- EQSTAT_REQUEST (R381). -/
  | eqstatRequest (k : Nat)
  /-- DEPOSIT (R169). -/
  | deposit (k : Nat)
  /-- BARRIER_ARRIVAL (R324). -/
  | barrierArrival (k : Nat)
  /-- CAPABILITY_RETURN_NOTICE (R331). -/
  | capabilityReturnNotice (k : Nat)
  /-- INVALIDATION_ACKNOWLEDGEMENT (R384). -/
  | invalidationAcknowledgement (hart : Nat)
  /-- INTERVAL_CLOSE (R237). -/
  | intervalClose (site : Nat)
  /-- CHECKPOINT_BOUNDARY (R238). -/
  | checkpointBoundary (site : Nat)
  /-- INTERVAL_COMMIT (R238). -/
  | intervalCommit (site : Nat)
  /-- TILE_FAILURE (R242). -/
  | tileFailure (site : Nat) (cause : Nat)
  /-- HARDWARE_WATCHDOG (R227). -/
  | hardwareWatchdog (event : WatchdogEvent)
  /-- UNCORRECTABLE_ERROR (R199). -/
  | uncorrectableError (kind : Nat) (at_ : Nat)
  /-- FIRN_RESTORE (R242). -/
  | firnRestore (site : Nat) (bad : Nat)
  /-- REPLAY_END (R242). -/
  | replayEnd (site : Nat)
  /-- RETIREMENT_APPEND (R42). -/
  | retirementAppend
  /-- PARTITION_ROLLBACK (R247). -/
  | partitionRollback (part : Nat)
  /-- SCRUB (R198). -/
  | scrub (site : Nat) (bonded : Nat) (scratch : Nat)
  /-- BANK_REBUILD (R197). -/
  | bankRebuild (event : BankEvent)
  /-- FLIT_RECEIVE (R73). -/
  | flitReceive (port : Nat) (crcOk : Bool) (ask : Option Nat) (lanes : Nat) (words : List Word)
  /-- ILLEGAL_INSTRUCTION (R268). -/
  | illegalInstruction (word : BitVec 32)
  /-- MODULE_POWER_LOSS (R58). -/
  | modulePowerLoss (stage : Nat)
  /-- REMOTE_LOAD_ARRIVAL (R181). -/
  | remoteLoadArrival (k : Nat)
  /-- MCMD_ARRIVAL (R367). -/
  | mcmdArrival (k : Nat)
  /-- SPAWN_FRAME_ARRIVAL (R146). -/
  | spawnFrameArrival (k : Nat)
  /-- SEGMENT_READ_BACK (R247). -/
  | segmentReadBack (part : Nat) (seg : Nat) (crcOk : Bool)
  /-- HBM_STACK_RETRAIN (R247). -/
  | hbmStackRetrain (stack : Nat) (ok : Bool)
  deriving DecidableEq, Repr

end Sys2Proof
end

