-- ==== Sys2Proof/Machine/Flags.lean ====
section
/-!
DEFINITION. Comparisons. The part has no flag register (R283): what other machines keep in flags, it computes where
it is used. These are the branch conditions, the orders of integers, and the order of floating values (R264).
-/

namespace Sys2Proof.Machine

/-- The six branch conditions (R302). -/
inductive Cond where
  | eq | ne | lt | ge | ltu | geu
  deriving DecidableEq, Repr

/-- Whether a branch is taken (R302). -/
def Cond.holds (c : Cond) (a b : Word) : Bool :=
  match c with
  | .eq => a == b
  | .ne => a != b
  | .lt => a.slt b
  | .ge => !a.slt b
  | .ltu => a.ult b
  | .geu => !a.ult b

/-- The four vector comparisons (R346). -/
inductive VCmp where
  | eq | ne | lt | le
  deriving DecidableEq, Repr

/-- Whether a `w`-bit pattern is below another, read as natural or signed (R343, R346). -/
def intLt (nat : Bool) (w a b : Nat) : Bool := if nat then decide (a < b) else decide (sval w a < sval w b)

/-- Whether a pattern is a NaN of its format. -/
def isNaN (f : Fmt) (x : Nat) : Bool := decodeF f x == .nan

/-- The place of a number that is no NaN in the order of R264, in which -0 lies below +0. -/
def floatKey (f : Fmt) (x : Nat) : Int :=
  let mag : Int := (x % 2 ^ (f.eb + f.mb) : Nat)
  if x / 2 ^ (f.eb + f.mb) % 2 = 1 then -mag - 1 else mag

/-- Whether a floating pattern is below another (R264). -/
def floatLt (f : Fmt) (a b : Nat) : Bool := decide (floatKey f a < floatKey f b)

/-- A vector comparison of integers. -/
def cmpInt (c : VCmp) (nat : Bool) (w a b : Nat) : Bool :=
  match c with
  | .eq => a == b
  | .ne => a != b
  | .lt => intLt nat w a b
  | .le => intLt nat w a b || a == b

/-- A vector comparison of floating values: a NaN makes EQ, LT and LE false and NE true (R346). -/
def cmpFloat (c : VCmp) (f : Fmt) (a b : Nat) : Bool :=
  if isNaN f a || isNaN f b then c == .ne
  else match c with
    | .eq => floatKey f a == floatKey f b
    | .ne => floatKey f a != floatKey f b
    | .lt => floatLt f a b
    | .le => floatLt f a b || floatKey f a == floatKey f b

/-- VMIN and VMAX of floating values: NaN wins, the tie goes to the first (R264). -/
def minF (f : Fmt) (a b : Nat) : Nat :=
  if isNaN f a || isNaN f b then f.nan.getD 0 else if floatLt f b a then b else a
@[inherit_doc minF] def maxF (f : Fmt) (a b : Nat) : Nat :=
  if isNaN f a || isNaN f b then f.nan.getD 0 else if floatLt f a b then b else a

/-- VMINN and VMAXN: a number beats NaN (R264). -/
def minN (f : Fmt) (a b : Nat) : Nat :=
  if isNaN f a then (if isNaN f b then f.nan.getD 0 else b) else if isNaN f b then a else minF f a b
@[inherit_doc minN] def maxN (f : Fmt) (a b : Nat) : Nat :=
  if isNaN f a then (if isNaN f b then f.nan.getD 0 else b) else if isNaN f b then a else maxF f a b

end Sys2Proof.Machine
end

