-- ==== Sys2Proof/WellFormed.lean ====
section
/-!
DEFINITION. Which instructions the part assigns a word to: the field values each accepts (R268, R313, R336,
R341-R357). A step of the part that has no word is never well-formed here, and neither are the FAIL and EVENT
kinds of SELFREPORT, whose word is that of `selfreportScan`: the kind is a run-time operand (R388).
-/

namespace Sys2Proof

/-- An integer element type, codes 0-2 (R280). -/
def EType.isInt : EType → Bool
  | .i32 | .i16 | .i8 => true
  | _ => false

/-- .f32, .bf16 or .f16, codes 3-5 (R280). -/
def EType.isFloat : EType → Bool
  | .f32 | .bf16 | .f16 => true
  | _ => false

/-- A rounding field that an instruction accepts (R254): codes 0-3 and 7, and 4 where stochastic rounding is. -/
def rmOk (sr : Bool) (rm : BitVec 3) : Bool := rm.toNat ≤ 3 || rm.toNat == 7 || (sr && rm.toNat == 4)

/-- A variant field of R336: bit 12 (`vx`), bit 13 (`nat`) only where listed, bit 14 clear. -/
def varOk (vx nat : Bool) (v : BitVec 3) : Bool :=
  (vx || !v.getLsbD 0) && (nat || !v.getLsbD 1) && !v.getLsbD 2

/-- The types and variants of the integer instructions (R343). -/
def intOk (et : EType) (nat : Bool) (v : BitVec 3) : Bool := et.isInt && varOk true nat v

/-- The types and variants of an instruction that takes integer types with variants and .f32, .bf16, .f16
with none (R343, R346, R350). -/
def mixOk (et : EType) (vx nat : Bool) (v : BitVec 3) : Bool :=
  (et.isInt && varOk vx nat v) || (et.isFloat && v == 0)

/-- Whether the part assigns the instruction a word (R268). -/
def Instr.wf : Instr → Bool
  | .lb _ _ _ => true
  | .lh _ _ _ => true
  | .lw _ _ _ => true
  | .ld _ _ _ => true
  | .lbu _ _ _ => true
  | .lhu _ _ _ => true
  | .lwu _ _ _ => true
  | .sb _ _ _ => true
  | .sh _ _ _ => true
  | .sw _ _ _ => true
  | .sd _ _ _ => true
  | .addi _ _ _ => true
  | .slti _ _ _ => true
  | .sltiu _ _ _ => true
  | .xori _ _ _ => true
  | .ori _ _ _ => true
  | .andi _ _ _ => true
  | .slli _ _ _ => true
  | .srli _ _ _ => true
  | .srai _ _ _ => true
  | .addiw _ _ _ => true
  | .slliw _ _ _ => true
  | .srliw _ _ _ => true
  | .sraiw _ _ _ => true
  | .add _ _ _ => true
  | .sub _ _ _ => true
  | .sll _ _ _ => true
  | .slt _ _ _ => true
  | .sltu _ _ _ => true
  | .xor _ _ _ => true
  | .srl _ _ _ => true
  | .sra _ _ _ => true
  | .or _ _ _ => true
  | .and _ _ _ => true
  | .mul _ _ _ => true
  | .mulh _ _ _ => true
  | .mulhsu _ _ _ => true
  | .mulhu _ _ _ => true
  | .div _ _ _ => true
  | .divu _ _ _ => true
  | .rem _ _ _ => true
  | .remu _ _ _ => true
  | .addw _ _ _ => true
  | .subw _ _ _ => true
  | .sllw _ _ _ => true
  | .srlw _ _ _ => true
  | .sraw _ _ _ => true
  | .mulw _ _ _ => true
  | .divw _ _ _ => true
  | .divuw _ _ _ => true
  | .remw _ _ _ => true
  | .remuw _ _ _ => true
  | .lui _ _ => true
  | .auipc _ _ => true
  | .jal _ _ => true
  | .jalr _ _ _ => true
  | .beq _ _ _ => true
  | .bne _ _ _ => true
  | .blt _ _ _ => true
  | .bge _ _ _ => true
  | .bltu _ _ _ => true
  | .bgeu _ _ _ => true
  | .ecall => true
  | .ebreak => true
  | .mret => true
  | .csrrw _ _ _ => true
  | .csrrs _ _ _ => true
  | .csrrc _ _ _ => true
  | .csrrwi _ _ _ => true
  | .csrrsi _ _ _ => true
  | .csrrci _ _ _ => true
  | .min _ _ _ => true
  | .max _ _ _ => true
  | .minu _ _ _ => true
  | .maxu _ _ _ => true
  | .clz _ _ => true
  | .ctz _ _ => true
  | .cpop _ _ => true
  | .bfx _ _ _ _ => true
  | .bfxu _ _ _ _ => true
  | .bfi _ _ _ _ => true
  | .loop _ last => last != 0
  | .loopi _ last => last != 0
  | .send _ => true
  | .sendG _ => true
  | .sendS _ => true
  | .sendGs _ => true
  | .sendc _ _ => true
  | .commit => true
  | .abort => true
  | .spawn _ _ _ => true
  | .joindec _ _ => true
  | .launch _ => true
  | .done => true
  | .sync order _ => order != .relaxed
  | .bar _ => true
  | .waitgen _ _ _ => true
  | .handover _ _ => true
  | .captest _ _ => true
  | .captestId _ _ => true
  | .capdrop _ => true
  | .tlbinv _ _ => true
  | .chkpt _ _ => true
  | .selfreportScan _ _ => true
  | .selfreportFail _ _ => false
  | .selfreportEvent _ _ => false
  | .amoadd _ _ _ _ _ _ => true
  | .amoand _ _ _ _ _ _ => true
  | .amoor _ _ _ _ _ _ => true
  | .amoxor _ _ _ _ _ _ => true
  | .amomin _ _ _ _ _ _ => true
  | .amomax _ _ _ _ _ _ => true
  | .amominu _ _ _ _ _ _ => true
  | .amomaxu _ _ _ _ _ _ => true
  | .amoswap _ _ _ _ _ _ => true
  | .amocas _ _ _ _ _ _ => true
  | .amofadd _ _ _ _ _ _ => true
  | .ldf _ _ => true
  | .ldfe _ _ => true
  | .stf _ _ => true
  | .eqpush _ _ => true
  | .eqfire _ => true
  | .eqdone _ _ => true
  | .eqstat _ _ => true
  | .rdblk _ _ => true
  | .wrblk _ _ => true
  | .wrblkDep _ _ => true
  | .copy _ _ => true
  | .cpwait _ _ => true
  | .mma _ _ _ _ _ _ _ => true
  | .fmma _ _ _ _ _ _ _ => true
  | .mcmd _ _ _ _ _ _ _ => true
  | .accrd _ _ _ _ => true
  | .accwr _ _ _ _ => true
  | .acczero _ _ => true
  | .accspill _ _ _ _ => true
  | .accfill _ _ _ => true
  | .mwait _ _ => true
  | .vld _ _ _ _ => true
  | .vst _ _ _ _ => true
  | .vlds _ _ _ _ _ => true
  | .vsts _ _ _ _ _ => true
  | .vgath _ _ _ _ _ => true
  | .vscat _ _ _ _ _ => true
  | .strcfg _ _ => true
  | .strend _ => true
  | .vadd et _ _ _ var _ => intOk et false var
  | .vsub et _ _ _ var _ => intOk et false var
  | .vmul et _ _ _ var _ => intOk et false var
  | .vmulh et _ _ _ var _ => intOk et true var
  | .vaddsat et _ _ _ var _ => intOk et true var
  | .vsubsat et _ _ _ var _ => intOk et true var
  | .vmin et _ _ _ var _ => mixOk et true true var
  | .vmax et _ _ _ var _ => mixOk et true true var
  | .vand et _ _ _ var _ => intOk et false var
  | .vor et _ _ _ var _ => intOk et false var
  | .vxor et _ _ _ var _ => intOk et false var
  | .vsll et _ _ _ var _ => intOk et false var
  | .vsrl et _ _ _ var _ => intOk et false var
  | .vsra et _ _ _ var _ => intOk et false var
  | .vfadd et _ _ _ rm _ => et.isFloat && rmOk false rm
  | .vfsub et _ _ _ rm _ => et.isFloat && rmOk false rm
  | .vfmul et _ _ _ rm _ => et.isFloat && rmOk false rm
  | .vfma et _ _ _ rm _ => et.isFloat && rmOk false rm
  | .vfnma et _ _ _ rm _ => et.isFloat && rmOk false rm
  | .vminn et _ _ _ _ => et.isFloat
  | .vmaxn et _ _ _ _ => et.isFloat
  | .vexp2 et _ _ _ => et == .f32 || et == .bf16
  | .vlog2 et _ _ _ => et == .f32 || et == .bf16
  | .vrcp et _ _ _ => et == .f32 || et == .bf16
  | .vrsqrt et _ _ _ => et == .f32 || et == .bf16
  | .vtanh et _ _ _ => et == .f32 || et == .bf16
  | .vfabs et _ _ _ => !et.isInt
  | .vfneg et _ _ _ => !et.isInt
  | .vcmpeq et _ _ _ var _ => mixOk et true false var
  | .vcmpne et _ _ _ var _ => mixOk et true false var
  | .vcmplt et _ _ _ var _ => mixOk et true true var
  | .vcmple et _ _ _ var _ => mixOk et true true var
  | .vsel _ _ _ _ => true
  | .vmaskAnd _ _ _ => true
  | .vmaskOr _ _ _ => true
  | .vmaskXor _ _ _ => true
  | .vmaskAndn _ _ _ => true
  | .vmaskNot _ _ => true
  | .vmaskFromx _ _ => true
  | .vmaskTox _ _ => true
  | .vmaskFirst _ _ => true
  | .vredsum et _ _ var _ => (et.isInt && var == 0) || (et.isFloat && rmOk false var)
  | .vredmax et _ _ var _ => mixOk et false true var
  | .vargmax et _ _ var _ => mixOk et false true var
  | .vcvt _ src _ _ rm _ => decide (src.toNat ≤ 11) && rmOk true rm
  | .vrand _ _ => true
  | .vrandLat _ xs _ => xs != 15
  | .vmvx et _ _ _ => et.isInt
  | .vmvxGet et _ _ _ _ => et.isInt
  | .vperm et _ _ _ _ => et.isInt
  | .vslideup et _ _ _ _ => et.isInt
  | .vslidedn et _ _ _ _ => et.isInt
  | .vzip et _ _ _ _ => et.isInt
  | .vunzip et _ _ _ _ _ => et.isInt
  | .vbcast et _ _ _ => et.isInt
  | .powerUp _ _ => false
  | .imageUpdateCommit _ => false
  | .thermalShutdown => false
  | .droopTrip _ => false
  | .droopClear _ => false
  | .thermalTrip _ => false
  | .thermalClear _ => false
  | .powerCapTrip _ => false
  | .powerCapClear _ => false
  | .governorWindow _ _ _ => false
  | .launchWaveForward _ => false
  | .csteplimWrite _ _ => false
  | .portStatusWrite _ _ => false
  | .registerWrite _ _ _ _ => false
  | .qbaseWrite _ _ _ => false
  | .qcfgWrite _ _ _ => false
  | .qnotifyWrite _ _ _ => false
  | .qstatWrite _ _ _ => false
  | .packetTake _ _ => false
  | .validPoll _ _ => false
  | .packetComplete _ => false
  | .launchPacket _ => false
  | .copyPacket _ => false
  | .barrierAndPacket _ => false
  | .barrierOrPacket _ => false
  | .barrierEvaluation _ => false
  | .signalStore _ => false
  | .signalAdd _ => false
  | .signalSubtract _ => false
  | .graphReplayPacket _ => false
  | .graphReplayStart _ => false
  | .expertQueueConfiguration _ => false
  | .recoveryPoint _ => false
  | .segmentAcknowledgement _ _ => false
  | .quote _ => false
  | .create _ => false
  | .destroy _ => false
  | .bindvf _ => false
  | .unbindvf _ => false
  | .egress _ => false
  | .cstep _ => false
  | .selftest _ => false
  | .devid _ => false
  | .readmit _ => false
  | .modes _ => false
  | .events _ => false
  | .switchout _ => false
  | .switchin _ => false
  | .assist _ => false
  | .restore _ => false
  | .assistTimeout _ => false
  | .terminationWave _ _ => false
  | .slotFill _ _ => false
  | .stealRequest _ => false
  | .stealAnswer _ => false
  | .stealSweepWait _ _ => false
  | .budgetOverrun _ => false
  | .preemptionRequest _ _ => false
  | .preemptionComplete _ _ => false
  | .quantumEnd _ => false
  | .scanSlice _ _ _ => false
  | .selfTestDeadline _ _ => false
  | .messageArrival _ => false
  | .messageAcknowledgement _ => false
  | .resendBackoff _ => false
  | .remoteStoreArrival _ => false
  | .remoteAtomicPerform _ => false
  | .responseArrival _ => false
  | .faultMessage _ => false
  | .wake _ _ _ => false
  | .engineChunk _ _ _ => false
  | .chunkRetry _ _ => false
  | .matrixCommandStart _ => false
  | .matrixChunk _ => false
  | .floeChunkCommit _ => false
  | .floeReform _ _ => false
  | .matrixCommandComplete _ => false
  | .transferComplete _ _ => false
  | .pushAccept _ => false
  | .entryAge _ _ => false
  | .expertFiring _ => false
  | .eqfireArrival _ => false
  | .eqdoneArrival _ => false
  | .eqstatRequest _ => false
  | .deposit _ => false
  | .barrierArrival _ => false
  | .capabilityReturnNotice _ => false
  | .invalidationAcknowledgement _ => false
  | .intervalClose _ => false
  | .checkpointBoundary _ => false
  | .intervalCommit _ => false
  | .tileFailure _ _ => false
  | .hardwareWatchdog _ => false
  | .uncorrectableError _ _ => false
  | .firnRestore _ _ => false
  | .replayEnd _ => false
  | .retirementAppend => false
  | .partitionRollback _ => false
  | .scrub _ _ _ => false
  | .bankRebuild _ => false
  | .flitReceive _ _ _ _ _ => false
  | .illegalInstruction _ => false
  | .modulePowerLoss _ => false
  | .remoteLoadArrival _ => false
  | .mcmdArrival _ => false
  | .spawnFrameArrival _ => false
  | .segmentReadBack _ _ _ => false
  | .hbmStackRetrain _ _ => false

end Sys2Proof
end

