-- ==== Sys2Proof/Decode.lean ====
section
/-!
DEFINITION. Instruction words: the encoder and the decoder, total on every word and on every byte list.
A word is an instruction exactly if it is the word of a well-formed instruction (R268).
-/

namespace Sys2Proof

/-- LOAD (R274). -/
def opLoad : BitVec 7 := 0x03#7
/-- STORE (R274). -/
def opStore : BitVec 7 := 0x23#7
/-- OP-IMM (R274). -/
def opImm : BitVec 7 := 0x13#7
/-- OP-IMM-32 (R274). -/
def opImm32 : BitVec 7 := 0x1B#7
/-- OP (R274). -/
def opReg : BitVec 7 := 0x33#7
/-- OP-32 (R274). -/
def opReg32 : BitVec 7 := 0x3B#7
/-- BRANCH (R274). -/
def opBranch : BitVec 7 := 0x63#7
/-- JALR (R274). -/
def opJalr : BitVec 7 := 0x67#7
/-- JAL (R274). -/
def opJal : BitVec 7 := 0x6F#7
/-- LUI (R274). -/
def opLui : BitVec 7 := 0x37#7
/-- AUIPC (R274). -/
def opAuipc : BitVec 7 := 0x17#7
/-- SYSTEM (R274). -/
def opSystem : BitVec 7 := 0x73#7
/-- custom-0 (R274). -/
def opCustom0 : BitVec 7 := 0x0B#7
/-- custom-1 (R274). -/
def opCustom1 : BitVec 7 := 0x2B#7
/-- custom-2 (R274). -/
def opCustom2 : BitVec 7 := 0x5B#7
/-- custom-3 (R274). -/
def opCustom3 : BitVec 7 := 0x7B#7

/-- One flag bit. -/
def flagBit (b : Bool) : BitVec 1 := if b then 1#1 else 0#1

/-- The R format (R269). -/
def encR (f7 : BitVec 7) (rs2 rs1 : BitVec 5) (f3 : BitVec 3) (rd : BitVec 5) (op : BitVec 7) : BitVec 32 :=
  f7 ++ rs2 ++ rs1 ++ f3 ++ rd ++ op

/-- The I format (R269). -/
def encI (imm : BitVec 12) (rs1 : BitVec 5) (f3 : BitVec 3) (rd : BitVec 5) (op : BitVec 7) : BitVec 32 :=
  imm ++ rs1 ++ f3 ++ rd ++ op

/-- The S format (R269). -/
def encS (imm : BitVec 12) (rs2 rs1 : BitVec 5) (f3 : BitVec 3) (op : BitVec 7) : BitVec 32 :=
  imm.extractLsb' 5 7 ++ rs2 ++ rs1 ++ f3 ++ imm.extractLsb' 0 5 ++ op

/-- The B format (R269); `off` holds imm[12:1]. -/
def encB (off : BitVec 12) (rs2 rs1 : BitVec 5) (f3 : BitVec 3) (op : BitVec 7) : BitVec 32 :=
  off.extractLsb' 11 1 ++ off.extractLsb' 4 6 ++ rs2 ++ rs1 ++ f3 ++ off.extractLsb' 0 4 ++
    off.extractLsb' 10 1 ++ op

/-- The U format (R269). -/
def encU (imm : BitVec 20) (rd : BitVec 5) (op : BitVec 7) : BitVec 32 := imm ++ rd ++ op

/-- The J format (R269); `off` holds imm[20:1]. -/
def encJ (off : BitVec 20) (rd : BitVec 5) (op : BitVec 7) : BitVec 32 :=
  off.extractLsb' 19 1 ++ off.extractLsb' 0 10 ++ off.extractLsb' 10 1 ++ off.extractLsb' 11 8 ++ rd ++ op

/-- The atomic layout (R271). -/
def encA (op : BitVec 4) (order : BitVec 3) (dbl : Bool) (rs2 : BitVec 4) (rs1 : BitVec 5) (scope : BitVec 3)
    (rd : BitVec 5) : BitVec 32 :=
  op ++ order ++ flagBit dbl ++ rs2 ++ rs1 ++ scope ++ rd ++ opCustom1

/-- The V format (R272). -/
def encV (f6 : BitVec 6) (et : BitVec 3) (vs2 vs1 : BitVec 4) (var : BitVec 3) (vd : BitVec 4) (pm : Bool) :
    BitVec 32 :=
  f6 ++ et ++ vs2 ++ vs1 ++ var ++ vd ++ flagBit pm ++ opCustom2

/-- `n` bits of a word from bit `lo`. -/
def fld (w : BitVec 32) (lo n : Nat) : BitVec n := w.extractLsb' lo n
/-- One bit of a word as a flag. -/
def flag (w : BitVec 32) (lo : Nat) : Bool := fld w lo 1 == 1#1
/-- The fields of R269 and R272. -/
def fRd (w : BitVec 32) : BitVec 5 := fld w 7 5
@[inherit_doc fRd] def fRs1 (w : BitVec 32) : BitVec 5 := fld w 15 5
@[inherit_doc fRd] def fRs2 (w : BitVec 32) : BitVec 5 := fld w 20 5
@[inherit_doc fRd] def fF3 (w : BitVec 32) : BitVec 3 := fld w 12 3
@[inherit_doc fRd] def fF7 (w : BitVec 32) : BitVec 7 := fld w 25 7
@[inherit_doc fRd] def fImmI (w : BitVec 32) : BitVec 12 := fld w 20 12
@[inherit_doc fRd] def fImmS (w : BitVec 32) : BitVec 12 := fld w 25 7 ++ fld w 7 5
@[inherit_doc fRd] def fOffB (w : BitVec 32) : BitVec 12 := fld w 31 1 ++ fld w 7 1 ++ fld w 25 6 ++ fld w 8 4
@[inherit_doc fRd] def fOffJ (w : BitVec 32) : BitVec 20 := fld w 31 1 ++ fld w 12 8 ++ fld w 20 1 ++ fld w 21 10
@[inherit_doc fRd] def fEt (w : BitVec 32) : EType := EType.ofCode (fld w 23 3)
@[inherit_doc fRd] def fVs2 (w : BitVec 32) : BitVec 4 := fld w 19 4
@[inherit_doc fRd] def fVs1 (w : BitVec 32) : BitVec 4 := fld w 15 4
@[inherit_doc fRd] def fVar (w : BitVec 32) : BitVec 3 := fld w 12 3
@[inherit_doc fRd] def fVd (w : BitVec 32) : BitVec 4 := fld w 8 4


/-- The word of an instruction, from the formats of R269-R273 and the maps of R275-R281, R313, R357 and R383.
The part's own steps have no word; 0 stands for none. -/
def encode : Instr → BitVec 32
  | .lb rd rs1 imm => encI imm rs1 0#3 rd opLoad
  | .lh rd rs1 imm => encI imm rs1 1#3 rd opLoad
  | .lw rd rs1 imm => encI imm rs1 2#3 rd opLoad
  | .ld rd rs1 imm => encI imm rs1 3#3 rd opLoad
  | .lbu rd rs1 imm => encI imm rs1 4#3 rd opLoad
  | .lhu rd rs1 imm => encI imm rs1 5#3 rd opLoad
  | .lwu rd rs1 imm => encI imm rs1 6#3 rd opLoad
  | .sb rs2 rs1 imm => encS imm rs2 rs1 0#3 opStore
  | .sh rs2 rs1 imm => encS imm rs2 rs1 1#3 opStore
  | .sw rs2 rs1 imm => encS imm rs2 rs1 2#3 opStore
  | .sd rs2 rs1 imm => encS imm rs2 rs1 3#3 opStore
  | .addi rd rs1 imm => encI imm rs1 0#3 rd opImm
  | .slti rd rs1 imm => encI imm rs1 2#3 rd opImm
  | .sltiu rd rs1 imm => encI imm rs1 3#3 rd opImm
  | .xori rd rs1 imm => encI imm rs1 4#3 rd opImm
  | .ori rd rs1 imm => encI imm rs1 6#3 rd opImm
  | .andi rd rs1 imm => encI imm rs1 7#3 rd opImm
  | .slli rd rs1 sh => encI (0#6 ++ sh) rs1 1#3 rd opImm
  | .srli rd rs1 sh => encI (0#6 ++ sh) rs1 5#3 rd opImm
  | .srai rd rs1 sh => encI (16#6 ++ sh) rs1 5#3 rd opImm
  | .addiw rd rs1 imm => encI imm rs1 0#3 rd opImm32
  | .slliw rd rs1 sh => encI (0#7 ++ sh) rs1 1#3 rd opImm32
  | .srliw rd rs1 sh => encI (0#7 ++ sh) rs1 5#3 rd opImm32
  | .sraiw rd rs1 sh => encI (32#7 ++ sh) rs1 5#3 rd opImm32
  | .add rd rs1 rs2 => encR 0#7 rs2 rs1 0#3 rd opReg
  | .sub rd rs1 rs2 => encR 32#7 rs2 rs1 0#3 rd opReg
  | .sll rd rs1 rs2 => encR 0#7 rs2 rs1 1#3 rd opReg
  | .slt rd rs1 rs2 => encR 0#7 rs2 rs1 2#3 rd opReg
  | .sltu rd rs1 rs2 => encR 0#7 rs2 rs1 3#3 rd opReg
  | .xor rd rs1 rs2 => encR 0#7 rs2 rs1 4#3 rd opReg
  | .srl rd rs1 rs2 => encR 0#7 rs2 rs1 5#3 rd opReg
  | .sra rd rs1 rs2 => encR 32#7 rs2 rs1 5#3 rd opReg
  | .or rd rs1 rs2 => encR 0#7 rs2 rs1 6#3 rd opReg
  | .and rd rs1 rs2 => encR 0#7 rs2 rs1 7#3 rd opReg
  | .mul rd rs1 rs2 => encR 1#7 rs2 rs1 0#3 rd opReg
  | .mulh rd rs1 rs2 => encR 1#7 rs2 rs1 1#3 rd opReg
  | .mulhsu rd rs1 rs2 => encR 1#7 rs2 rs1 2#3 rd opReg
  | .mulhu rd rs1 rs2 => encR 1#7 rs2 rs1 3#3 rd opReg
  | .div rd rs1 rs2 => encR 1#7 rs2 rs1 4#3 rd opReg
  | .divu rd rs1 rs2 => encR 1#7 rs2 rs1 5#3 rd opReg
  | .rem rd rs1 rs2 => encR 1#7 rs2 rs1 6#3 rd opReg
  | .remu rd rs1 rs2 => encR 1#7 rs2 rs1 7#3 rd opReg
  | .addw rd rs1 rs2 => encR 0#7 rs2 rs1 0#3 rd opReg32
  | .subw rd rs1 rs2 => encR 32#7 rs2 rs1 0#3 rd opReg32
  | .sllw rd rs1 rs2 => encR 0#7 rs2 rs1 1#3 rd opReg32
  | .srlw rd rs1 rs2 => encR 0#7 rs2 rs1 5#3 rd opReg32
  | .sraw rd rs1 rs2 => encR 32#7 rs2 rs1 5#3 rd opReg32
  | .mulw rd rs1 rs2 => encR 1#7 rs2 rs1 0#3 rd opReg32
  | .divw rd rs1 rs2 => encR 1#7 rs2 rs1 4#3 rd opReg32
  | .divuw rd rs1 rs2 => encR 1#7 rs2 rs1 5#3 rd opReg32
  | .remw rd rs1 rs2 => encR 1#7 rs2 rs1 6#3 rd opReg32
  | .remuw rd rs1 rs2 => encR 1#7 rs2 rs1 7#3 rd opReg32
  | .lui rd imm => encU imm rd opLui
  | .auipc rd imm => encU imm rd opAuipc
  | .jal rd off => encJ off rd opJal
  | .jalr rd rs1 imm => encI imm rs1 0#3 rd opJalr
  | .beq rs1 rs2 off => encB off rs2 rs1 0#3 opBranch
  | .bne rs1 rs2 off => encB off rs2 rs1 1#3 opBranch
  | .blt rs1 rs2 off => encB off rs2 rs1 4#3 opBranch
  | .bge rs1 rs2 off => encB off rs2 rs1 5#3 opBranch
  | .bltu rs1 rs2 off => encB off rs2 rs1 6#3 opBranch
  | .bgeu rs1 rs2 off => encB off rs2 rs1 7#3 opBranch
  | .ecall => encI 0#12 0#5 0#3 0#5 opSystem
  | .ebreak => encI 1#12 0#5 0#3 0#5 opSystem
  | .mret => encI 770#12 0#5 0#3 0#5 opSystem
  | .csrrw rd csr rs1 => encI csr rs1 1#3 rd opSystem
  | .csrrs rd csr rs1 => encI csr rs1 2#3 rd opSystem
  | .csrrc rd csr rs1 => encI csr rs1 3#3 rd opSystem
  | .csrrwi rd csr z => encI csr z 5#3 rd opSystem
  | .csrrsi rd csr z => encI csr z 6#3 rd opSystem
  | .csrrci rd csr z => encI csr z 7#3 rd opSystem
  | .min rd rs1 rs2 => encR 0#7 rs2 rs1 0#3 rd opCustom0
  | .max rd rs1 rs2 => encR 1#7 rs2 rs1 0#3 rd opCustom0
  | .minu rd rs1 rs2 => encR 2#7 rs2 rs1 0#3 rd opCustom0
  | .maxu rd rs1 rs2 => encR 3#7 rs2 rs1 0#3 rd opCustom0
  | .clz rd rs1 => encR 4#7 0#5 rs1 0#3 rd opCustom0
  | .ctz rd rs1 => encR 5#7 0#5 rs1 0#3 rd opCustom0
  | .cpop rd rs1 => encR 6#7 0#5 rs1 0#3 rd opCustom0
  | .bfx rd rs1 off width => encI (width ++ off) rs1 1#3 rd opCustom0
  | .bfxu rd rs1 off width => encI (width ++ off) rs1 2#3 rd opCustom0
  | .bfi rd rs1 off width => encI (width ++ off) rs1 3#3 rd opCustom0
  | .loop rs1 last => encI last rs1 4#3 0#5 opCustom0
  | .loopi count last => encI last (count.extractLsb' 0 5) 5#3 (count.extractLsb' 5 5) opCustom0
  | .send rs1 => encR 0#7 0#5 rs1 6#3 0#5 opCustom0
  | .sendG rs1 => encR 1#7 0#5 rs1 6#3 0#5 opCustom0
  | .sendS rs1 => encR 2#7 0#5 rs1 6#3 0#5 opCustom0
  | .sendGs rs1 => encR 3#7 0#5 rs1 6#3 0#5 opCustom0
  | .sendc rs1 rs2 => encR 4#7 rs2 rs1 6#3 0#5 opCustom0
  | .commit => encR 8#7 0#5 0#5 6#3 0#5 opCustom0
  | .abort => encR 9#7 0#5 0#5 6#3 0#5 opCustom0
  | .spawn rd rs1 rs2 => encR 16#7 rs2 rs1 6#3 rd opCustom0
  | .joindec rd rs1 => encR 17#7 0#5 rs1 6#3 rd opCustom0
  | .launch rs1 => encR 24#7 0#5 rs1 6#3 0#5 opCustom0
  | .done => encR 127#7 0#5 0#5 6#3 0#5 opCustom0
  | .sync order scope => encR 0#7 (0#2 ++ order.code) (0#2 ++ scope.code) 7#3 0#5 opCustom0
  | .bar rs1 => encR 1#7 0#5 rs1 7#3 0#5 opCustom0
  | .waitgen rd rs2 rs1 => encR 2#7 rs2 rs1 7#3 rd opCustom0
  | .handover rs1 cap => encR 8#7 (0#3 ++ cap) rs1 7#3 0#5 opCustom0
  | .captest rd cap => encR 9#7 (0#3 ++ cap) 0#5 7#3 rd opCustom0
  | .captestId rd cap => encR 9#7 (0#3 ++ cap) 1#5 7#3 rd opCustom0
  | .capdrop cap => encR 10#7 (0#3 ++ cap) 0#5 7#3 0#5 opCustom0
  | .tlbinv rs1 rs2 => encR 16#7 rs2 rs1 7#3 0#5 opCustom0
  | .chkpt rd rs1 => encR 17#7 0#5 rs1 7#3 rd opCustom0
  | .selfreportScan rs1 rs2 => encR 18#7 rs2 rs1 7#3 0#5 opCustom0
  | .selfreportFail rs1 rs2 => encR 18#7 rs2 rs1 7#3 0#5 opCustom0
  | .selfreportEvent rs1 rs2 => encR 18#7 rs2 rs1 7#3 0#5 opCustom0
  | .amoadd order scope dbl rd rs2 rs1 => encA 0#4 order.code dbl rs2 rs1 scope.code rd
  | .amoand order scope dbl rd rs2 rs1 => encA 1#4 order.code dbl rs2 rs1 scope.code rd
  | .amoor order scope dbl rd rs2 rs1 => encA 2#4 order.code dbl rs2 rs1 scope.code rd
  | .amoxor order scope dbl rd rs2 rs1 => encA 3#4 order.code dbl rs2 rs1 scope.code rd
  | .amomin order scope dbl rd rs2 rs1 => encA 4#4 order.code dbl rs2 rs1 scope.code rd
  | .amomax order scope dbl rd rs2 rs1 => encA 5#4 order.code dbl rs2 rs1 scope.code rd
  | .amominu order scope dbl rd rs2 rs1 => encA 6#4 order.code dbl rs2 rs1 scope.code rd
  | .amomaxu order scope dbl rd rs2 rs1 => encA 7#4 order.code dbl rs2 rs1 scope.code rd
  | .amoswap order scope dbl rd rs2 rs1 => encA 8#4 order.code dbl rs2 rs1 scope.code rd
  | .amocas order scope dbl rd rs2 rs1 => encA 9#4 order.code dbl rs2 rs1 scope.code rd
  | .amofadd order scope dbl rd rs2 rs1 => encA 10#4 order.code dbl rs2 rs1 scope.code rd
  | .ldf rd rs1 => encR 0#7 0#5 rs1 6#3 rd opCustom1
  | .ldfe rd rs1 => encR 1#7 0#5 rs1 6#3 rd opCustom1
  | .stf rs2 rs1 => encR 2#7 rs2 rs1 6#3 0#5 opCustom1
  | .eqpush rs2 rs1 => encR 16#7 rs2 rs1 6#3 0#5 opCustom1
  | .eqfire rs1 => encR 17#7 0#5 rs1 6#3 0#5 opCustom1
  | .eqdone rs1 rs2 => encR 18#7 rs2 rs1 6#3 0#5 opCustom1
  | .eqstat rd rs1 => encR 19#7 0#5 rs1 6#3 rd opCustom1
  | .rdblk rd rs1 => encR 0#7 0#5 rs1 7#3 rd opCustom1
  | .wrblk rd rs1 => encR 1#7 0#5 rs1 7#3 rd opCustom1
  | .wrblkDep rd rs1 => encR 2#7 0#5 rs1 7#3 rd opCustom1
  | .copy rd rs1 => encR 8#7 0#5 rs1 7#3 rd opCustom1
  | .cpwait rd rs1 => encR 9#7 0#5 rs1 7#3 rd opCustom1
  | .mma store decay zero rd acc rs1 rs2 => encR (0#1 ++ flagBit store ++ flagBit decay ++ flagBit zero ++ acc) rs2 rs1 0#3 rd opCustom3
  | .fmma store decay zero rd acc rs1 rs2 => encR (0#1 ++ flagBit store ++ flagBit decay ++ flagBit zero ++ acc) rs2 rs1 1#3 rd opCustom3
  | .mcmd store decay zero cap acc rs1 rs2 => encR (0#1 ++ flagBit store ++ flagBit decay ++ flagBit zero ++ acc) rs2 rs1 2#3 (0#3 ++ cap) opCustom3
  | .accrd rd acc rs1 rs2 => encR (0#4 ++ acc) rs2 rs1 3#3 rd opCustom3
  | .accwr rd acc rs1 rs2 => encR (0#4 ++ acc) rs2 rs1 4#3 rd opCustom3
  | .acczero rd acc => encR (0#4 ++ acc) 0#5 0#5 5#3 rd opCustom3
  | .accspill zero rd acc rs1 => encR (0#3 ++ flagBit zero ++ acc) 0#5 rs1 6#3 rd opCustom3
  | .accfill rd acc rs1 => encR (8#4 ++ acc) 0#5 rs1 6#3 rd opCustom3
  | .mwait rd rs1 => encR 0#7 0#5 rs1 7#3 rd opCustom3
  | .vld et vd xs pm => encV 0#6 et.code 0#4 xs 0#3 vd pm
  | .vst et vd xs pm => encV 1#6 et.code 0#4 xs 0#3 vd pm
  | .vlds et vd xs xt pm => encV 2#6 et.code xt xs 0#3 vd pm
  | .vsts et vd xs xt pm => encV 3#6 et.code xt xs 0#3 vd pm
  | .vgath et vd xs vi pm => encV 4#6 et.code vi xs 0#3 vd pm
  | .vscat et vd xs vi pm => encV 5#6 et.code vi xs 0#3 vd pm
  | .strcfg st xs => encV 6#6 0#3 0#4 xs 0#3 (3#2 ++ st) false
  | .strend st => encV 7#6 0#3 0#4 0#4 0#3 (3#2 ++ st) false
  | .vadd et vd vs2 vs1 var pm => encV 8#6 et.code vs2 vs1 var vd pm
  | .vsub et vd vs2 vs1 var pm => encV 9#6 et.code vs2 vs1 var vd pm
  | .vmul et vd vs2 vs1 var pm => encV 10#6 et.code vs2 vs1 var vd pm
  | .vmulh et vd vs2 vs1 var pm => encV 11#6 et.code vs2 vs1 var vd pm
  | .vaddsat et vd vs2 vs1 var pm => encV 12#6 et.code vs2 vs1 var vd pm
  | .vsubsat et vd vs2 vs1 var pm => encV 13#6 et.code vs2 vs1 var vd pm
  | .vmin et vd vs2 vs1 var pm => encV 14#6 et.code vs2 vs1 var vd pm
  | .vmax et vd vs2 vs1 var pm => encV 15#6 et.code vs2 vs1 var vd pm
  | .vand et vd vs2 vs1 var pm => encV 16#6 et.code vs2 vs1 var vd pm
  | .vor et vd vs2 vs1 var pm => encV 17#6 et.code vs2 vs1 var vd pm
  | .vxor et vd vs2 vs1 var pm => encV 18#6 et.code vs2 vs1 var vd pm
  | .vsll et vd vs2 vs1 var pm => encV 19#6 et.code vs2 vs1 var vd pm
  | .vsrl et vd vs2 vs1 var pm => encV 20#6 et.code vs2 vs1 var vd pm
  | .vsra et vd vs2 vs1 var pm => encV 21#6 et.code vs2 vs1 var vd pm
  | .vfadd et vd vs2 vs1 rm pm => encV 24#6 et.code vs2 vs1 rm vd pm
  | .vfsub et vd vs2 vs1 rm pm => encV 25#6 et.code vs2 vs1 rm vd pm
  | .vfmul et vd vs2 vs1 rm pm => encV 26#6 et.code vs2 vs1 rm vd pm
  | .vfma et vd vs2 vs1 rm pm => encV 27#6 et.code vs2 vs1 rm vd pm
  | .vfnma et vd vs2 vs1 rm pm => encV 28#6 et.code vs2 vs1 rm vd pm
  | .vminn et vd vs2 vs1 pm => encV 29#6 et.code vs2 vs1 0#3 vd pm
  | .vmaxn et vd vs2 vs1 pm => encV 30#6 et.code vs2 vs1 0#3 vd pm
  | .vexp2 et vd vs2 pm => encV 32#6 et.code vs2 0#4 0#3 vd pm
  | .vlog2 et vd vs2 pm => encV 33#6 et.code vs2 0#4 0#3 vd pm
  | .vrcp et vd vs2 pm => encV 34#6 et.code vs2 0#4 0#3 vd pm
  | .vrsqrt et vd vs2 pm => encV 35#6 et.code vs2 0#4 0#3 vd pm
  | .vtanh et vd vs2 pm => encV 36#6 et.code vs2 0#4 0#3 vd pm
  | .vfabs et vd vs2 pm => encV 37#6 et.code vs2 0#4 0#3 vd pm
  | .vfneg et vd vs2 pm => encV 38#6 et.code vs2 0#4 0#3 vd pm
  | .vcmpeq et md vs2 vs1 var pm => encV 40#6 et.code vs2 vs1 var (0#2 ++ md) pm
  | .vcmpne et md vs2 vs1 var pm => encV 41#6 et.code vs2 vs1 var (0#2 ++ md) pm
  | .vcmplt et md vs2 vs1 var pm => encV 42#6 et.code vs2 vs1 var (0#2 ++ md) pm
  | .vcmple et md vs2 vs1 var pm => encV 43#6 et.code vs2 vs1 var (0#2 ++ md) pm
  | .vsel et vd vs2 vs1 => encV 44#6 et.code vs2 vs1 0#3 vd false
  | .vmaskAnd md ma mb => encV 45#6 0#3 (0#2 ++ ma) (0#2 ++ mb) 0#3 (0#2 ++ md) false
  | .vmaskOr md ma mb => encV 45#6 1#3 (0#2 ++ ma) (0#2 ++ mb) 0#3 (0#2 ++ md) false
  | .vmaskXor md ma mb => encV 45#6 2#3 (0#2 ++ ma) (0#2 ++ mb) 0#3 (0#2 ++ md) false
  | .vmaskAndn md ma mb => encV 45#6 3#3 (0#2 ++ ma) (0#2 ++ mb) 0#3 (0#2 ++ md) false
  | .vmaskNot md ma => encV 45#6 4#3 (0#2 ++ ma) 0#4 0#3 (0#2 ++ md) false
  | .vmaskFromx md xs => encV 45#6 5#3 0#4 xs 0#3 (0#2 ++ md) false
  | .vmaskTox xd ma => encV 45#6 6#3 (0#2 ++ ma) 0#4 0#3 xd false
  | .vmaskFirst md xs => encV 45#6 7#3 0#4 xs 0#3 (0#2 ++ md) false
  | .vredsum et vd vs2 var pm => encV 48#6 et.code vs2 0#4 var vd pm
  | .vredmax et vd vs2 var pm => encV 49#6 et.code vs2 0#4 var vd pm
  | .vargmax et vd vs2 var pm => encV 50#6 et.code vs2 0#4 var vd pm
  | .vcvt et src vd vs2 rm pm => encV 51#6 et.code vs2 src rm vd pm
  | .vrand vd pm => encV 52#6 0#3 0#4 0#4 0#3 vd pm
  | .vrandLat vd xs pm => encV 52#6 0#3 0#4 xs 4#3 vd pm
  | .vmvx et vd xs xi => encV 53#6 et.code xi xs 0#3 vd false
  | .vmvxGet et nat xd vs2 xi => encV 53#6 et.code vs2 xi (1#1 ++ flagBit nat ++ 0#1) xd false
  | .vperm et vd vs2 vs1 pm => encV 56#6 et.code vs2 vs1 0#3 vd pm
  | .vslideup et vd vs2 xs pm => encV 57#6 et.code vs2 xs 0#3 vd pm
  | .vslidedn et vd vs2 xs pm => encV 58#6 et.code vs2 xs 0#3 vd pm
  | .vzip et vd vs2 vs1 pm => encV 59#6 et.code vs2 vs1 0#3 vd pm
  | .vunzip et odd vd vs2 vs1 pm => encV 60#6 et.code vs2 vs1 (flagBit odd ++ 0#2) vd pm
  | .vbcast et vd xs pm => encV 61#6 et.code 0#4 xs 0#3 vd pm
  | .powerUp _ _ => 0
  | .imageUpdateCommit _ => 0
  | .thermalShutdown => 0
  | .droopTrip _ => 0
  | .droopClear _ => 0
  | .thermalTrip _ => 0
  | .thermalClear _ => 0
  | .powerCapTrip _ => 0
  | .powerCapClear _ => 0
  | .governorWindow _ _ _ => 0
  | .launchWaveForward _ => 0
  | .csteplimWrite _ _ => 0
  | .portStatusWrite _ _ => 0
  | .registerWrite _ _ _ _ => 0
  | .qbaseWrite _ _ _ => 0
  | .qcfgWrite _ _ _ => 0
  | .qnotifyWrite _ _ _ => 0
  | .qstatWrite _ _ _ => 0
  | .packetTake _ _ => 0
  | .validPoll _ _ => 0
  | .packetComplete _ => 0
  | .launchPacket _ => 0
  | .copyPacket _ => 0
  | .barrierAndPacket _ => 0
  | .barrierOrPacket _ => 0
  | .barrierEvaluation _ => 0
  | .signalStore _ => 0
  | .signalAdd _ => 0
  | .signalSubtract _ => 0
  | .graphReplayPacket _ => 0
  | .graphReplayStart _ => 0
  | .expertQueueConfiguration _ => 0
  | .recoveryPoint _ => 0
  | .segmentAcknowledgement _ _ => 0
  | .quote _ => 0
  | .create _ => 0
  | .destroy _ => 0
  | .bindvf _ => 0
  | .unbindvf _ => 0
  | .egress _ => 0
  | .cstep _ => 0
  | .selftest _ => 0
  | .devid _ => 0
  | .readmit _ => 0
  | .modes _ => 0
  | .events _ => 0
  | .switchout _ => 0
  | .switchin _ => 0
  | .assist _ => 0
  | .restore _ => 0
  | .assistTimeout _ => 0
  | .terminationWave _ _ => 0
  | .slotFill _ _ => 0
  | .stealRequest _ => 0
  | .stealAnswer _ => 0
  | .stealSweepWait _ _ => 0
  | .budgetOverrun _ => 0
  | .preemptionRequest _ _ => 0
  | .preemptionComplete _ _ => 0
  | .quantumEnd _ => 0
  | .scanSlice _ _ _ => 0
  | .selfTestDeadline _ _ => 0
  | .messageArrival _ => 0
  | .messageAcknowledgement _ => 0
  | .resendBackoff _ => 0
  | .remoteStoreArrival _ => 0
  | .remoteAtomicPerform _ => 0
  | .responseArrival _ => 0
  | .faultMessage _ => 0
  | .wake _ _ _ => 0
  | .engineChunk _ _ _ => 0
  | .chunkRetry _ _ => 0
  | .matrixCommandStart _ => 0
  | .matrixChunk _ => 0
  | .floeChunkCommit _ => 0
  | .floeReform _ _ => 0
  | .matrixCommandComplete _ => 0
  | .transferComplete _ _ => 0
  | .pushAccept _ => 0
  | .entryAge _ _ => 0
  | .expertFiring _ => 0
  | .eqfireArrival _ => 0
  | .eqdoneArrival _ => 0
  | .eqstatRequest _ => 0
  | .deposit _ => 0
  | .barrierArrival _ => 0
  | .capabilityReturnNotice _ => 0
  | .invalidationAcknowledgement _ => 0
  | .intervalClose _ => 0
  | .checkpointBoundary _ => 0
  | .intervalCommit _ => 0
  | .tileFailure _ _ => 0
  | .hardwareWatchdog _ => 0
  | .uncorrectableError _ _ => 0
  | .firnRestore _ _ => 0
  | .replayEnd _ => 0
  | .retirementAppend => 0
  | .partitionRollback _ => 0
  | .scrub _ _ _ => 0
  | .bankRebuild _ => 0
  | .flitReceive _ _ _ _ _ => 0
  | .illegalInstruction _ => 0
  | .modulePowerLoss _ => 0
  | .remoteLoadArrival _ => 0
  | .mcmdArrival _ => 0
  | .spawnFrameArrival _ => 0
  | .segmentReadBack _ _ _ => 0
  | .hbmStackRetrain _ _ => 0

/-- LOAD (R275). -/
def candLoad (w : BitVec 32) : Option Instr :=
  match (fF3 w).toNat with
  | 0 => some (.lb (fRd w) (fRs1 w) (fImmI w))
  | 1 => some (.lh (fRd w) (fRs1 w) (fImmI w))
  | 2 => some (.lw (fRd w) (fRs1 w) (fImmI w))
  | 3 => some (.ld (fRd w) (fRs1 w) (fImmI w))
  | 4 => some (.lbu (fRd w) (fRs1 w) (fImmI w))
  | 5 => some (.lhu (fRd w) (fRs1 w) (fImmI w))
  | 6 => some (.lwu (fRd w) (fRs1 w) (fImmI w))
  | _ => none

/-- STORE (R275). -/
def candStore (w : BitVec 32) : Option Instr :=
  match (fF3 w).toNat with
  | 0 => some (.sb (fRs2 w) (fRs1 w) (fImmS w))
  | 1 => some (.sh (fRs2 w) (fRs1 w) (fImmS w))
  | 2 => some (.sw (fRs2 w) (fRs1 w) (fImmS w))
  | 3 => some (.sd (fRs2 w) (fRs1 w) (fImmS w))
  | _ => none

/-- BRANCH (R275). -/
def candBranch (w : BitVec 32) : Option Instr :=
  match (fF3 w).toNat with
  | 0 => some (.beq (fRs1 w) (fRs2 w) (fOffB w))
  | 1 => some (.bne (fRs1 w) (fRs2 w) (fOffB w))
  | 4 => some (.blt (fRs1 w) (fRs2 w) (fOffB w))
  | 5 => some (.bge (fRs1 w) (fRs2 w) (fOffB w))
  | 6 => some (.bltu (fRs1 w) (fRs2 w) (fOffB w))
  | 7 => some (.bgeu (fRs1 w) (fRs2 w) (fOffB w))
  | _ => none

/-- JALR (R275). -/
def candJalr (w : BitVec 32) : Option Instr :=
  match (fF3 w).toNat with
  | 0 => some (.jalr (fRd w) (fRs1 w) (fImmI w))
  | _ => none

/-- OP-IMM (R275). -/
def candImm (w : BitVec 32) : Option Instr :=
  match (fF3 w).toNat with
  | 0 => some (.addi (fRd w) (fRs1 w) (fImmI w))
  | 2 => some (.slti (fRd w) (fRs1 w) (fImmI w))
  | 3 => some (.sltiu (fRd w) (fRs1 w) (fImmI w))
  | 4 => some (.xori (fRd w) (fRs1 w) (fImmI w))
  | 6 => some (.ori (fRd w) (fRs1 w) (fImmI w))
  | 7 => some (.andi (fRd w) (fRs1 w) (fImmI w))
  | 1 =>
    match (fld w 26 6).toNat with
    | 0 => some (.slli (fRd w) (fRs1 w) (fld w 20 6))
    | _ => none
  | 5 =>
    match (fld w 26 6).toNat with
    | 0 => some (.srli (fRd w) (fRs1 w) (fld w 20 6))
    | 16 => some (.srai (fRd w) (fRs1 w) (fld w 20 6))
    | _ => none
  | _ => none

/-- OP-IMM-32 (R275). -/
def candImm32 (w : BitVec 32) : Option Instr :=
  match (fF3 w).toNat with
  | 0 => some (.addiw (fRd w) (fRs1 w) (fImmI w))
  | 1 =>
    match (fF7 w).toNat with
    | 0 => some (.slliw (fRd w) (fRs1 w) (fld w 20 5))
    | _ => none
  | 5 =>
    match (fF7 w).toNat with
    | 0 => some (.srliw (fRd w) (fRs1 w) (fld w 20 5))
    | 32 => some (.sraiw (fRd w) (fRs1 w) (fld w 20 5))
    | _ => none
  | _ => none

/-- OP (R275). -/
def candReg (w : BitVec 32) : Option Instr :=
  match (fF7 w).toNat, (fF3 w).toNat with
  | 0, 0 => some (.add (fRd w) (fRs1 w) (fRs2 w))
  | 32, 0 => some (.sub (fRd w) (fRs1 w) (fRs2 w))
  | 0, 1 => some (.sll (fRd w) (fRs1 w) (fRs2 w))
  | 0, 2 => some (.slt (fRd w) (fRs1 w) (fRs2 w))
  | 0, 3 => some (.sltu (fRd w) (fRs1 w) (fRs2 w))
  | 0, 4 => some (.xor (fRd w) (fRs1 w) (fRs2 w))
  | 0, 5 => some (.srl (fRd w) (fRs1 w) (fRs2 w))
  | 32, 5 => some (.sra (fRd w) (fRs1 w) (fRs2 w))
  | 0, 6 => some (.or (fRd w) (fRs1 w) (fRs2 w))
  | 0, 7 => some (.and (fRd w) (fRs1 w) (fRs2 w))
  | 1, 0 => some (.mul (fRd w) (fRs1 w) (fRs2 w))
  | 1, 1 => some (.mulh (fRd w) (fRs1 w) (fRs2 w))
  | 1, 2 => some (.mulhsu (fRd w) (fRs1 w) (fRs2 w))
  | 1, 3 => some (.mulhu (fRd w) (fRs1 w) (fRs2 w))
  | 1, 4 => some (.div (fRd w) (fRs1 w) (fRs2 w))
  | 1, 5 => some (.divu (fRd w) (fRs1 w) (fRs2 w))
  | 1, 6 => some (.rem (fRd w) (fRs1 w) (fRs2 w))
  | 1, 7 => some (.remu (fRd w) (fRs1 w) (fRs2 w))
  | _, _ => none

/-- OP-32 (R275). -/
def candReg32 (w : BitVec 32) : Option Instr :=
  match (fF7 w).toNat, (fF3 w).toNat with
  | 0, 0 => some (.addw (fRd w) (fRs1 w) (fRs2 w))
  | 32, 0 => some (.subw (fRd w) (fRs1 w) (fRs2 w))
  | 0, 1 => some (.sllw (fRd w) (fRs1 w) (fRs2 w))
  | 0, 5 => some (.srlw (fRd w) (fRs1 w) (fRs2 w))
  | 32, 5 => some (.sraw (fRd w) (fRs1 w) (fRs2 w))
  | 1, 0 => some (.mulw (fRd w) (fRs1 w) (fRs2 w))
  | 1, 4 => some (.divw (fRd w) (fRs1 w) (fRs2 w))
  | 1, 5 => some (.divuw (fRd w) (fRs1 w) (fRs2 w))
  | 1, 6 => some (.remw (fRd w) (fRs1 w) (fRs2 w))
  | 1, 7 => some (.remuw (fRd w) (fRs1 w) (fRs2 w))
  | _, _ => none

/-- SYSTEM (R276). -/
def candSystem (w : BitVec 32) : Option Instr :=
  match (fF3 w).toNat with
  | 0 =>
    match (fImmI w).toNat with
    | 0 => some (.ecall)
    | 1 => some (.ebreak)
    | 770 => some (.mret)
    | _ => none
  | 1 => some (.csrrw (fRd w) (fImmI w) (fRs1 w))
  | 2 => some (.csrrs (fRd w) (fImmI w) (fRs1 w))
  | 3 => some (.csrrc (fRd w) (fImmI w) (fRs1 w))
  | 5 => some (.csrrwi (fRd w) (fImmI w) (fRs1 w))
  | 6 => some (.csrrsi (fRd w) (fImmI w) (fRs1 w))
  | 7 => some (.csrrci (fRd w) (fImmI w) (fRs1 w))
  | _ => none

/-- The custom-0 space (R277, R313, R383). -/
def candCustom0 (w : BitVec 32) : Option Instr :=
  match (fF3 w).toNat with
  | 0 =>
    match (fF7 w).toNat with
    | 0 => some (.min (fRd w) (fRs1 w) (fRs2 w))
    | 1 => some (.max (fRd w) (fRs1 w) (fRs2 w))
    | 2 => some (.minu (fRd w) (fRs1 w) (fRs2 w))
    | 3 => some (.maxu (fRd w) (fRs1 w) (fRs2 w))
    | 4 => some (.clz (fRd w) (fRs1 w))
    | 5 => some (.ctz (fRd w) (fRs1 w))
    | 6 => some (.cpop (fRd w) (fRs1 w))
    | _ => none
  | 1 => some (.bfx (fRd w) (fRs1 w) (fld w 20 6) (fld w 26 6))
  | 2 => some (.bfxu (fRd w) (fRs1 w) (fld w 20 6) (fld w 26 6))
  | 3 => some (.bfi (fRd w) (fRs1 w) (fld w 20 6) (fld w 26 6))
  | 4 => some (.loop (fRs1 w) (fImmI w))
  | 5 => some (.loopi (fRd w ++ fRs1 w) (fImmI w))
  | 6 =>
    match (fF7 w).toNat with
    | 0 => some (.send (fRs1 w))
    | 1 => some (.sendG (fRs1 w))
    | 2 => some (.sendS (fRs1 w))
    | 3 => some (.sendGs (fRs1 w))
    | 4 => some (.sendc (fRs1 w) (fRs2 w))
    | 8 => some (.commit)
    | 9 => some (.abort)
    | 16 => some (.spawn (fRd w) (fRs1 w) (fRs2 w))
    | 17 => some (.joindec (fRd w) (fRs1 w))
    | 24 => some (.launch (fRs1 w))
    | 127 => some (.done)
    | _ => none
  | 7 =>
    match (fF7 w).toNat with
    | 0 =>
      match Order.ofCode (fld w 20 3), Scope.ofCode (fld w 15 3) with
      | some o, some s => some (.sync o s)
      | _, _ => none
    | 1 => some (.bar (fRs1 w))
    | 2 => some (.waitgen (fRd w) (fRs2 w) (fRs1 w))
    | 8 => some (.handover (fRs1 w) (fld w 20 2))
    | 9 => if fld w 15 1 = 0#1 then some (.captest (fRd w) (fld w 20 2)) else some (.captestId (fRd w) (fld w 20 2))
    | 10 => some (.capdrop (fld w 20 2))
    | 16 => some (.tlbinv (fRs1 w) (fRs2 w))
    | 17 => some (.chkpt (fRd w) (fRs1 w))
    | 18 => some (.selfreportScan (fRs1 w) (fRs2 w))
    | _ => none
  | _ => none

/-- The atomics of custom-1 (R271, R278). -/
def candAmo (w : BitVec 32) : Option Instr :=
  match Order.ofCode (fld w 25 3), Scope.ofCode (fF3 w) with
  | some o, some s =>
    match (fld w 28 4).toNat with
    | 0 => some (.amoadd o s (fld w 24 1 == 1#1) (fRd w) (fld w 20 4) (fRs1 w))
    | 1 => some (.amoand o s (fld w 24 1 == 1#1) (fRd w) (fld w 20 4) (fRs1 w))
    | 2 => some (.amoor o s (fld w 24 1 == 1#1) (fRd w) (fld w 20 4) (fRs1 w))
    | 3 => some (.amoxor o s (fld w 24 1 == 1#1) (fRd w) (fld w 20 4) (fRs1 w))
    | 4 => some (.amomin o s (fld w 24 1 == 1#1) (fRd w) (fld w 20 4) (fRs1 w))
    | 5 => some (.amomax o s (fld w 24 1 == 1#1) (fRd w) (fld w 20 4) (fRs1 w))
    | 6 => some (.amominu o s (fld w 24 1 == 1#1) (fRd w) (fld w 20 4) (fRs1 w))
    | 7 => some (.amomaxu o s (fld w 24 1 == 1#1) (fRd w) (fld w 20 4) (fRs1 w))
    | 8 => some (.amoswap o s (fld w 24 1 == 1#1) (fRd w) (fld w 20 4) (fRs1 w))
    | 9 => some (.amocas o s (fld w 24 1 == 1#1) (fRd w) (fld w 20 4) (fRs1 w))
    | 10 => some (.amofadd o s (fld w 24 1 == 1#1) (fRd w) (fld w 20 4) (fRs1 w))
    | _ => none
  | _, _ => none

/-- The custom-1 space (R278, R313, R357). -/
def candCustom1 (w : BitVec 32) : Option Instr :=
  match (fF3 w).toNat with
  | 6 =>
    match (fF7 w).toNat with
    | 0 => some (.ldf (fRd w) (fRs1 w))
    | 1 => some (.ldfe (fRd w) (fRs1 w))
    | 2 => some (.stf (fRs2 w) (fRs1 w))
    | 16 => some (.eqpush (fRs2 w) (fRs1 w))
    | 17 => some (.eqfire (fRs1 w))
    | 18 => some (.eqdone (fRs1 w) (fRs2 w))
    | 19 => some (.eqstat (fRd w) (fRs1 w))
    | _ => none
  | 7 =>
    match (fF7 w).toNat with
    | 0 => some (.rdblk (fRd w) (fRs1 w))
    | 1 => some (.wrblk (fRd w) (fRs1 w))
    | 2 => some (.wrblkDep (fRd w) (fRs1 w))
    | 8 => some (.copy (fRd w) (fRs1 w))
    | 9 => some (.cpwait (fRd w) (fRs1 w))
    | _ => none
  | _ => candAmo w

/-- The custom-3 space (R281, R357). -/
def candCustom3 (w : BitVec 32) : Option Instr :=
  match (fF3 w).toNat with
  | 0 => some (.mma (flag w 30) (flag w 29) (flag w 28) (fRd w) (fld w 25 3) (fRs1 w) (fRs2 w))
  | 1 => some (.fmma (flag w 30) (flag w 29) (flag w 28) (fRd w) (fld w 25 3) (fRs1 w) (fRs2 w))
  | 2 => some (.mcmd (flag w 30) (flag w 29) (flag w 28) (fld w 7 2) (fld w 25 3) (fRs1 w) (fRs2 w))
  | 3 => some (.accrd (fRd w) (fld w 25 3) (fRs1 w) (fRs2 w))
  | 4 => some (.accwr (fRd w) (fld w 25 3) (fRs1 w) (fRs2 w))
  | 5 => some (.acczero (fRd w) (fld w 25 3))
  | 6 => if flag w 31 then some (.accfill (fRd w) (fld w 25 3) (fRs1 w)) else some (.accspill (flag w 28) (fRd w) (fld w 25 3) (fRs1 w))
  | 7 => some (.mwait (fRd w) (fRs1 w))
  | _ => none

/-- The custom-2 space (R279). -/
def candCustom2 (w : BitVec 32) : Option Instr :=
  match (fld w 26 6).toNat with
  | 0 => some (.vld (fEt w) (fVd w) (fVs1 w) (flag w 7))
  | 1 => some (.vst (fEt w) (fVd w) (fVs1 w) (flag w 7))
  | 2 => some (.vlds (fEt w) (fVd w) (fVs1 w) (fVs2 w) (flag w 7))
  | 3 => some (.vsts (fEt w) (fVd w) (fVs1 w) (fVs2 w) (flag w 7))
  | 4 => some (.vgath (fEt w) (fVd w) (fVs1 w) (fVs2 w) (flag w 7))
  | 5 => some (.vscat (fEt w) (fVd w) (fVs1 w) (fVs2 w) (flag w 7))
  | 6 => some (.strcfg (fld w 8 2) (fVs1 w))
  | 7 => some (.strend (fld w 8 2))
  | 8 => some (.vadd (fEt w) (fVd w) (fVs2 w) (fVs1 w) (fVar w) (flag w 7))
  | 9 => some (.vsub (fEt w) (fVd w) (fVs2 w) (fVs1 w) (fVar w) (flag w 7))
  | 10 => some (.vmul (fEt w) (fVd w) (fVs2 w) (fVs1 w) (fVar w) (flag w 7))
  | 11 => some (.vmulh (fEt w) (fVd w) (fVs2 w) (fVs1 w) (fVar w) (flag w 7))
  | 12 => some (.vaddsat (fEt w) (fVd w) (fVs2 w) (fVs1 w) (fVar w) (flag w 7))
  | 13 => some (.vsubsat (fEt w) (fVd w) (fVs2 w) (fVs1 w) (fVar w) (flag w 7))
  | 14 => some (.vmin (fEt w) (fVd w) (fVs2 w) (fVs1 w) (fVar w) (flag w 7))
  | 15 => some (.vmax (fEt w) (fVd w) (fVs2 w) (fVs1 w) (fVar w) (flag w 7))
  | 16 => some (.vand (fEt w) (fVd w) (fVs2 w) (fVs1 w) (fVar w) (flag w 7))
  | 17 => some (.vor (fEt w) (fVd w) (fVs2 w) (fVs1 w) (fVar w) (flag w 7))
  | 18 => some (.vxor (fEt w) (fVd w) (fVs2 w) (fVs1 w) (fVar w) (flag w 7))
  | 19 => some (.vsll (fEt w) (fVd w) (fVs2 w) (fVs1 w) (fVar w) (flag w 7))
  | 20 => some (.vsrl (fEt w) (fVd w) (fVs2 w) (fVs1 w) (fVar w) (flag w 7))
  | 21 => some (.vsra (fEt w) (fVd w) (fVs2 w) (fVs1 w) (fVar w) (flag w 7))
  | 24 => some (.vfadd (fEt w) (fVd w) (fVs2 w) (fVs1 w) (fVar w) (flag w 7))
  | 25 => some (.vfsub (fEt w) (fVd w) (fVs2 w) (fVs1 w) (fVar w) (flag w 7))
  | 26 => some (.vfmul (fEt w) (fVd w) (fVs2 w) (fVs1 w) (fVar w) (flag w 7))
  | 27 => some (.vfma (fEt w) (fVd w) (fVs2 w) (fVs1 w) (fVar w) (flag w 7))
  | 28 => some (.vfnma (fEt w) (fVd w) (fVs2 w) (fVs1 w) (fVar w) (flag w 7))
  | 29 => some (.vminn (fEt w) (fVd w) (fVs2 w) (fVs1 w) (flag w 7))
  | 30 => some (.vmaxn (fEt w) (fVd w) (fVs2 w) (fVs1 w) (flag w 7))
  | 32 => some (.vexp2 (fEt w) (fVd w) (fVs2 w) (flag w 7))
  | 33 => some (.vlog2 (fEt w) (fVd w) (fVs2 w) (flag w 7))
  | 34 => some (.vrcp (fEt w) (fVd w) (fVs2 w) (flag w 7))
  | 35 => some (.vrsqrt (fEt w) (fVd w) (fVs2 w) (flag w 7))
  | 36 => some (.vtanh (fEt w) (fVd w) (fVs2 w) (flag w 7))
  | 37 => some (.vfabs (fEt w) (fVd w) (fVs2 w) (flag w 7))
  | 38 => some (.vfneg (fEt w) (fVd w) (fVs2 w) (flag w 7))
  | 40 => some (.vcmpeq (fEt w) (fld w 8 2) (fVs2 w) (fVs1 w) (fVar w) (flag w 7))
  | 41 => some (.vcmpne (fEt w) (fld w 8 2) (fVs2 w) (fVs1 w) (fVar w) (flag w 7))
  | 42 => some (.vcmplt (fEt w) (fld w 8 2) (fVs2 w) (fVs1 w) (fVar w) (flag w 7))
  | 43 => some (.vcmple (fEt w) (fld w 8 2) (fVs2 w) (fVs1 w) (fVar w) (flag w 7))
  | 44 => some (.vsel (fEt w) (fVd w) (fVs2 w) (fVs1 w))
  | 45 =>
    match (fld w 23 3).toNat with
    | 0 => some (.vmaskAnd (fld w 8 2) (fld w 19 2) (fld w 15 2))
    | 1 => some (.vmaskOr (fld w 8 2) (fld w 19 2) (fld w 15 2))
    | 2 => some (.vmaskXor (fld w 8 2) (fld w 19 2) (fld w 15 2))
    | 3 => some (.vmaskAndn (fld w 8 2) (fld w 19 2) (fld w 15 2))
    | 4 => some (.vmaskNot (fld w 8 2) (fld w 19 2))
    | 5 => some (.vmaskFromx (fld w 8 2) (fVs1 w))
    | 6 => some (.vmaskTox (fVd w) (fld w 19 2))
    | _ => some (.vmaskFirst (fld w 8 2) (fVs1 w))
  | 48 => some (.vredsum (fEt w) (fVd w) (fVs2 w) (fVar w) (flag w 7))
  | 49 => some (.vredmax (fEt w) (fVd w) (fVs2 w) (fVar w) (flag w 7))
  | 50 => some (.vargmax (fEt w) (fVd w) (fVs2 w) (fVar w) (flag w 7))
  | 51 => some (.vcvt (fEt w) (fVs1 w) (fVd w) (fVs2 w) (fVar w) (flag w 7))
  | 52 => if flag w 14 then some (.vrandLat (fVd w) (fVs1 w) (flag w 7)) else some (.vrand (fVd w) (flag w 7))
  | 53 => if flag w 14 then some (.vmvxGet (fEt w) (flag w 13) (fVd w) (fVs2 w) (fVs1 w)) else some (.vmvx (fEt w) (fVd w) (fVs1 w) (fVs2 w))
  | 56 => some (.vperm (fEt w) (fVd w) (fVs2 w) (fVs1 w) (flag w 7))
  | 57 => some (.vslideup (fEt w) (fVd w) (fVs2 w) (fVs1 w) (flag w 7))
  | 58 => some (.vslidedn (fEt w) (fVd w) (fVs2 w) (fVs1 w) (flag w 7))
  | 59 => some (.vzip (fEt w) (fVd w) (fVs2 w) (fVs1 w) (flag w 7))
  | 60 => some (.vunzip (fEt w) (flag w 14) (fVd w) (fVs2 w) (fVs1 w) (flag w 7))
  | 61 => some (.vbcast (fEt w) (fVd w) (fVs1 w) (flag w 7))
  | _ => none

/-- The instruction whose fields a word spells, before the field checks of R268 (R274). -/
def candidate (w : BitVec 32) : Option Instr :=
  match (fld w 0 7).toNat with
  | 0x03 => candLoad w
  | 0x23 => candStore w
  | 0x13 => candImm w
  | 0x1B => candImm32 w
  | 0x33 => candReg w
  | 0x3B => candReg32 w
  | 0x63 => candBranch w
  | 0x67 => candJalr w
  | 0x6F => some (.jal (fRd w) (fOffJ w))
  | 0x37 => some (.lui (fRd w) (fld w 12 20))
  | 0x17 => some (.auipc (fRd w) (fld w 12 20))
  | 0x73 => candSystem w
  | 0x0B => candCustom0 w
  | 0x2B => candCustom1 w
  | 0x5B => candCustom2 w
  | 0x7B => candCustom3 w
  | _ => none

/-- Why bytes are no instruction (R267, R268). -/
inductive Reject where
  /-- fewer than four bytes -/
  | short
  /-- bits [1:0] are not 0b11 -/
  | lowBits
  /-- a major opcode marked illegal, or an unassigned selector -/
  | unassigned
  /-- a field value the instruction does not accept, or an unused field that is not 0 -/
  | field
  deriving DecidableEq, Repr

/-- The instruction a word is, or why it is none (R268). -/
def decodeWord (w : BitVec 32) : Except Reject Instr :=
  if fld w 0 2 = 3#2 then
    match candidate w with
    | some i => if i.wf && encode i == w then .ok i else .error .field
    | none => .error .unassigned
  else .error .lowBits

/-- The first instruction of a byte list, with the rest of the list (R267: little-endian). -/
def decodeBytes : List Byte → Except Reject (Instr × List Byte)
  | a :: b :: c :: d :: rest =>
    match decodeWord (d ++ c ++ b ++ a) with
    | .ok i => .ok (i, rest)
    | .error e => .error e
  | _ => .error .short

/-- The instruction the decoder reads from the word the host's table numbers `w`. -/
def decodeTableWord (_nbits w : Nat) : Option Instr :=
  match decodeBytes (bytesOf 4 w) with
  | .ok (i, _) => some i
  | .error _ => none

end Sys2Proof
end

