-- ==== Sys2Proof/Config.lean ====
section
/-!
DEFINITION. What one part fixes and what the spec leaves open.
The opaque constants are free values: nothing is known of them (notes/assumptions/6.md, 12.md).
-/

namespace Sys2Proof.Config

/-- A free 64-bit value, a fresh one for each counter value (log 6, DESIGN CHOICE). -/
opaque freeWord : Nat → Word

/-- A free byte for the n-th use (log 6, 9): what the unarchitected parts of the system area read as. -/
opaque freeByte : Nat → Byte

/-- SHA-256 of the boot ROM, whose contents the spec does not give (R36 entry 0, log 12, PRESUMED). -/
opaque romHash : BitVec 256

/-- The Maelvex public key fused in the boot controller, modulus and exponent (R33, log 3, DESIGN CHOICE). -/
opaque fusedKey : Nat × Nat

/-- The Ubnar image in flash as shipped (R33, log 3, DESIGN CHOICE). -/
opaque shippedImage : List Byte

/-- Its signature (R33, log 3, DESIGN CHOICE). -/
opaque shippedSignature : List Byte

/-- The commit word of an image update, whose value the spec does not give (R33, log 12, DESIGN CHOICE). -/
opaque imageCommit : Word

/-- Byte `i` of how an item that is neither a message nor a frame is carried, by its sender's rank, its SEQ and `i` (R241,
log 93, DESIGN CHOICE). -/
opaque itemByte : Nat → Nat → Nat → Byte

/-- The SEQ in the header of a message that the spec gives no number: by its sender's rank, the low half of the message id of what
it is about, and the cause or kind (R143, R195, log 6, DESIGN CHOICE). -/
opaque itemSeq : Nat → Nat → Nat → Nat

/-- Maelvex's PCI-SIG vendor identifier, which every function reports (R66, log 95, DESIGN CHOICE). -/
opaque vendorId : BitVec 16

/-- CRC-64 over the words of a flit, whose polynomial the spec does not give (R72, log 40, DESIGN CHOICE). -/
opaque crc64 : List Word → Word

/-- The credit return of a flit, by its link sequence: the spec gives the field no meaning in numbers (R72, log 40, DESIGN CHOICE). -/
opaque creditReturn : Nat → Nat

/-- What a message slot says of a remote store, load or atomic, whose layout the spec does not give (R72, log 40, DESIGN CHOICE): the
operation (1 store, 2 load, from 3 on the atomics of R278 in order), address, bytes, value and compare value; 0 for nothing. -/
opaque peerAccess : List Word → Nat × Nat × Nat × Nat × Nat

/-- How many items the egress buffer of a port holds beside the first (R81, log 40, DESIGN CHOICE). -/
opaque egressRoom : Nat

/-- The fuse map as the measured byte string of R36 entry 2, whose form the spec does not give (log 12, PRESUMED). -/
opaque fuseBytes : List (Nat × Nat) → List Byte

/-- The 384-byte RSASSA-PSS signature of a quote over nonce and entries (R36, R99, log 12, PRESUMED). -/
opaque quoteSignature : Nat → List Byte → Vector Byte 384

/-- Whether some mesh link would carry reserved-class traffic of two reservations (R62): from the sites without a router,
the regions of the reservations there are, and those of a new one. Routes are not stated (log 35, DESIGN CHOICE). -/
opaque meshShared : List Nat → List (List Nat) → List Nat → Bool

/-- Sites per row and per column (R7). -/
def gridSide : Nat := 96
/-- Sites of the wafer (R3, R7). -/
def numSites : Nat := 9216
/-- Most ranked tiles (R1, R19). -/
def maxRank : Nat := 8192
/-- HBM stacks (R28). -/
def numStacks : Nat := 48
/-- Bytes of HBM (R182): 2,304 GiB. -/
def hbmBytes : Nat := 2304 * 2 ^ 30
/-- First byte of the system area of a scratchpad (R141). -/
def sysArea : Nat := 0x3D0000
/-- First reserved byte of the system area (R141). -/
def sysPlain : Nat := 0x3FD800
/-- Bytes of a scratchpad (R3). -/
def scratchBytes : Nat := 0x400000
/-- Local address of bonded-block offset 0 (R173). -/
def bondedLocal : Nat := 0x10000000
/-- First byte of the carried-code slots in the system area (R141). -/
def carriedBase : Nat := 0x3FD000

end Sys2Proof.Config
end

