-- ==== Sys2Proof/Machine/State.lean ====
section
/-!
DEFINITION. The state of the part as plain data.
Tables that are mostly at their reset value (threads, cores, tiles, partitions, memory) are sparse lists of
(key, value) pairs: an unlisted key holds the reset value (Machine/Ops.lean reads and writes them).
Words that software sees are bit vectors; counts and identifiers are natural numbers.
-/

namespace Sys2Proof.Machine

/-- Privilege levels (R282). -/
inductive Priv where
  | M | U
  deriving DecidableEq, Repr

/-- A writer capability (R190); a slot holds one or none. -/
structure Cap where
  rid   : Nat
  gen   : Nat
  szlog : Nat
  base  : Nat
  deriving DecidableEq, Repr

/-- The 16-byte message header of R135. -/
structure Header where
  sdev  : Nat
  srank : Nat
  drank : Nat
  chan  : Nat
  kind  : Nat
  ninsn : Nat
  job   : Nat
  ddev  : Nat
  ceg   : Bool
  seq   : Nat
  deriving DecidableEq, Repr

/-- The domain in which a receiving NI filters duplicates (R137, R161, R320, R367, R377). A `line` stands for one line of a block
write, or its arrival, at the home that has taken it (R243). In `item`, `core` is 4 for
the domain of the whole NI and 0-3 for the copies of a multicast that one core accepts (log 20, DEDUCED). -/
inductive Domain where
  | item (sdev srank : Nat) (ceg : Bool) (core : Nat)
  | fire (sdev srank qid : Nat)
  | home (home sdev srank : Nat)
  | engine (tile tag kind : Nat)
  | line (tile tag n : Nat)
  deriving DecidableEq, Repr

/-- A message (R135): header, 64-byte payload, the capability HANDOVER adds, its filter domain, its number among the arrivals
at its tile and its place in the queue or spill ring it stands in (R141, R143). -/
structure Msg where
  hdr     : Header
  payload : Vector Word 8
  cap     : Option Cap
  dom     : Domain
  mid     : Word
  arr     : Nat
  slot    : Nat
  deriving DecidableEq, Repr

/-- A deque frame (R145, R319): bytes 0-7 hold the handler address and BUDLOG; `slot` is its place in its deque (R141, R143). -/
structure Frame where
  haddr   : Word
  budlog  : Nat
  job     : Nat
  seq     : Nat
  sdev    : Nat
  pusher  : Nat
  payload : Vector Word 8
  slot    : Nat := 0
  deriving DecidableEq, Repr

/-- What started an activation (R132). -/
inductive Origin where
  | msg (m : Msg)
  | frame (f : Frame)
  deriving DecidableEq, Repr

/-- One run of a handler (R132, R133). -/
structure Activation where
  origin : Origin
  entry  : Word
  budlog : Nat
  job    : Nat
  part   : Nat
  kind   : Nat
  chan   : Nat
  ninsn  : Nat
  mid    : Word
  deriving DecidableEq, Repr

/-- A speculative send in the hold buffer (R149): destination word, group form, payload. -/
structure HeldSend where
  dest    : Word
  group   : Bool
  payload : Vector Word 8
  deriving DecidableEq, Repr

/-- A bound stream (R337, R338): the checked descriptor and the next row. -/
structure Stream where
  base   : Nat
  nrows  : Nat
  write  : Bool
  typ    : Nat
  nelem  : Nat
  stride : Int
  scale  : Nat
  row    : Nat
  deriving DecidableEq, Repr

/-- The answer to a returning operation, waiting for the instruction to take it up (R218). -/
structure Resp where
  value : Word
  data  : List Byte
  deriving DecidableEq, Repr

/-- What a blocked thread waits for (R118, R210, R319, R324-R326, R329, R331, R374, R384). -/
inductive Wait where
  /-- the response of a returning operation (R218) -/
  | response
  /-- a condition the instruction tests again at its next issue turn (R210, R326, R358, R374, R376) -/
  | retry
  /-- the other members of a barrier instance (R324) -/
  | barrier (group inst : Nat)
  /-- the target's answer to a SPAWN (R319) -/
  | spawn
  /-- earlier writes under the capability a HANDOVER has taken out of its slot (R329) -/
  | handover (cap : Cap)
  /-- earlier writes under the capability a CAPDROP has taken out (R331) -/
  | capdrop (cap : Cap)
  /-- the acknowledgements of a TLBINV (R384) -/
  | tlbinv (base size : Nat)
  deriving DecidableEq, Repr

/-- A thread's scheduling status (R115, R118, R219). -/
inductive ThreadStatus where
  | free | running | parked
  | blocked (w : Wait)
  deriving DecidableEq, Repr

/-- The engine command a thread issued last in its activation (R366). `ended` says that an MCMD has ended by an error. -/
structure CmdRef where
  eng   : Nat
  site  : Nat
  tag   : Nat
  ended : Bool := false
  deriving DecidableEq, Repr

/-- One hardware thread (R179, R283, R285). `req` is the order number, plus 1, of the returning operation it waits for
(R218); `actNo` counts the activations it has started; `pend` is a register window written while it was parked (R179); `beat`
is the beat a stream instruction has come to, `rows` the rows it has read (R119, R340), `hold` the turns MUL or DIV still hold
(R294). -/
structure Thread where
  status   : ThreadStatus
  priv     : Priv
  x        : Vector Word 32
  v        : Vector VReg 16
  m        : Vector Word 4
  pc       : Word
  fround   : BitVec 3
  accdecay : BitVec 32
  vl       : BitVec 8
  lpstart  : Word
  lpend    : Word
  lpcount  : Word
  budget   : BitVec 27
  msrc     : Word
  mchan    : Word
  mseq     : Word
  hcause   : Word
  haddr    : Word
  hmsgid   : Word
  mtvec    : Word
  mscratch : Word
  mepc     : Word
  mcause   : Word
  mtval    : Word
  act      : Option Activation
  retired  : Nat
  nAtomic  : Nat
  nCycle   : Nat
  dn       : Nat
  qret     : Nat
  qdone    : Bool
  seq      : BitVec 32
  held     : List HeldSend
  streams  : Vector (Option Stream) 4
  resp     : Option Resp
  req      : Nat
  actNo    : Nat
  pend     : Option (List Byte)
  beat     : Nat
  rows     : List (List Byte)
  hold     : Nat
  lastCmd  : Option CmdRef
  deriving DecidableEq, Repr

/-- A handler-table entry (R113). -/
structure Handler where
  haddr  : Word
  budlog : Nat
  single : Bool
  carry  : Bool
  en     : Bool
  prio   : Nat
  deriving DecidableEq, Repr

/-- A channel (R142, R224): queue entries, each with a mark while its activation runs, and the spill ring. -/
structure Channel where
  queue : List (Msg × Bool)
  spill : List Msg
  deriving DecidableEq, Repr

/-- A core's steal in progress (R117): victims still to ask and whether a request is out or the sweep waits. -/
structure Steal where
  victims : List Nat
  asking  : Bool
  pausing : Bool
  deriving DecidableEq, Repr

/-- One core: everything its eight threads share. `slices` counts the scan slices of self-test interval `scanIv`, counted
from the time `scanFrom` on; `scanRest` says that it may take up normal work again after a slice in the last second (R38, R388). -/
structure Core where
  caps      : Vector (Option Cap) 4
  spawnlim  : BitVec 17
  handlers  : Vector Handler 16
  spbase    : Nat
  splog     : Nat
  dqbase    : Nat
  dqlog     : Nat
  channels  : Vector Channel 16
  deque     : List Frame
  lastTaken : Vector Nat 8
  lastIssue : Nat
  steal     : Option Steal
  preReq    : Bool
  preempt   : Bool
  preempted : Bool
  barCount  : List (Nat × Nat)
  slices    : Nat
  scanIv    : Nat
  scanFrom  : Nat
  scanDue   : Bool
  scanAsked : Bool
  scanRest  : Bool := false
  coreFail  : Bool
  deriving DecidableEq, Repr

/-- The matrix descriptor of R361 after its checks. -/
structure MatDesc where
  abase  : Nat
  bbase  : Nat
  astr   : Int
  bstr   : Int
  k      : Nat
  atype  : Nat
  btype  : Nat
  mrow   : Nat
  ncol   : Nat
  xtra   : Nat
  cbase  : Nat
  cstr   : Int
  ctype  : Nat
  send   : Bool
  chan   : Nat
  ascale : Nat
  bscale : Nat
  deriving DecidableEq, Repr

/-- What an entry of the matrix engine's queue does (R358, R363, R367, R368, R373). -/
inductive MatOp where
  | mma | mcmd | floe
  | accwr (addr first count : Nat)
  | acczero
  | accspill (addr : Nat)
  | accfill (addr : Nat)
  deriving DecidableEq, Repr

/-- A matrix command (R358-R373): operands read at issue, the issuer, the tag, the place in the order of issue, the
capabilities attached at issue, the one that guards an MCMD, and the number under which homes know its writes (R376). -/
structure MatCmd where
  op     : MatOp
  acc    : Nat
  store  : Bool
  decay  : Bool
  zero   : Bool
  dcy    : BitVec 32
  koff   : Nat
  desc   : MatDesc
  descAt : Word
  tag    : Nat
  src    : Nat
  srank  : Nat
  job    : Nat
  part   : Nat
  ach    : Nat
  seq    : Nat
  ord    : Nat
  caps   : List Cap
  guard  : Option Cap
  key    : Nat := 0
  deriving DecidableEq, Repr

/-- The running matrix command with its resume cursor (R360, R365, R366): the next K-step and row, the address whose page is missing
while it is parked, whether a K-step has run, whether a floe member has finished the current chunk, the bytes its writes have
landed, their denials, the pieces of its store-back that have been dealt with, and the end of a chunk that a home under recovery has
broken off, 0 where there is none. -/
structure MatRun where
  cmd   : MatCmd
  k     : Nat
  row   : Nat
  park  : Option Nat
  begun : Bool
  ready : Bool
  landed : Nat
  denied : List (Nat × Nat × Nat)
  wrote : Nat := 0
  till  : Nat := 0
  deriving DecidableEq, Repr

/-- What one engine command left for MWAIT and CPWAIT and the cursors (R366, R374). -/
structure EngResult where
  tag   : Nat
  cause : Nat
  prog  : Nat
  kstep : Nat
  deriving DecidableEq, Repr

/-- The copy-engine instructions (R376). -/
inductive XferOp where
  | copy | rdblk | wrblk | deposit
  deriving DecidableEq, Repr

/-- A transfer on a copy channel (R375-R377): operands, the lines that have landed or been denied, the bytes landed,
the denials (destination number, cause, address), the address whose page is missing while it is parked, the lines of which the
part on the first page has been dealt with, the number under which homes know it (R376), and the parts of lines, two to a line, that
wait at their homes (R221). -/
structure Xfer where
  op      : XferOp
  src     : Word
  dst     : Word
  len     : Nat
  arr     : Word
  send    : Bool
  chan    : Nat
  mc      : List Nat
  red     : Nat
  slot    : Nat
  user    : Word
  tag     : Nat
  hart    : Nat
  srank   : Nat
  job     : Nat
  part    : Nat
  ach     : Nat
  seq     : Nat
  ord     : Nat
  caps    : List Cap
  done    : List Nat
  landed  : Nat
  denied  : List (Nat × Nat × Nat)
  pending : Bool
  park    : Option Nat
  half    : List Nat := []
  key     : Nat := 0
  held    : List Nat := []
  deriving DecidableEq, Repr

/-- An expert-queue entry (R154) with the time it was accepted, its pusher's job (R158, R161), and its place in the spill area
(R153). -/
structure EqEntry where
  bytes : List Byte
  since : Int
  job   : Nat
  slot  : Nat := 0
  deriving DecidableEq, Repr

/-- A batch in flight (R159, R160). -/
structure Batch where
  base  : Nat
  count : Nat
  fire  : Nat
  need  : Nat
  got   : Nat
  jobs  : List Nat
  deriving DecidableEq, Repr

/-- An expert queue (R97, R152-R170). -/
structure ExpertQueue where
  configured : Bool
  ringlog    : Nat
  prio       : Nat
  enable     : Bool
  mcast      : Bool
  spillhbm   : Bool
  chan       : Nat
  ringoff    : Nat
  fill       : Nat
  maxbatch   : Nat
  age        : Nat
  target     : Nat
  spillAt    : Nat
  spillLen   : Nat
  job        : Nat
  part       : Nat
  ring       : List EqEntry
  spill      : List EqEntry
  head       : Nat
  force      : Bool
  fires      : Nat
  batches    : List Batch
  top        : Option Int
  spflt      : Bool
  statusAtQ  : Word
  deriving DecidableEq, Repr

/-- A cached translation (R185): the page, its size, its leaf and its region entry. -/
structure TlbEntry where
  part : Nat
  page : Nat
  size : Nat
  leaf : Word
  w0   : Word
  w1   : Word
  deriving DecidableEq, Repr

/-- A CHKPT notice not yet sent (R386). -/
structure Notice where
  interval : Nat
  msg      : Msg
  drank    : Nat
  hart     : Nat
  job      : Nat
  part     : Nat
  deriving DecidableEq, Repr

/-- How far an item has come (R137, R142, R144, R221, R124). -/
inductive Stage where
  | waiting | refused (backoff : Nat) | held (page : Nat) | collected
  deriving DecidableEq, Repr

/-- Where an item goes (R77, R135, R181). -/
inductive Dest where
  | core (c : Nat)
  | tile (l : Nat)
  | stack (k : Nat)
  | site (s : Nat)
  | hart (h : Nat)
  | root (p : Nat)
  | device (d : Nat)
  | hostMem
  deriving DecidableEq, Repr

/-- The atomic operations of R278. -/
inductive AmoOp where
  | add | and | or | xor | min | max | minu | maxu | swap | cas | fadd
  deriving DecidableEq, Repr

/-- A returning read or read-modify-write (R218). -/
inductive RetOp where
  /-- a load, gather or row read of these (address, bytes) parts -/
  | read (parts : List (Nat × Nat))
  | ldf (a : Nat)
  | ldfe (a : Nat)
  | waitgen (a g : Nat)
  | amo (op : AmoOp) (a w v c : Nat)
  | joindec (a : Nat)
  | eqstat (qid : Nat)
  deriving DecidableEq, Repr

/-- What an item carries. -/
inductive Body where
  | message (m : Msg)
  | store (a : Nat) (data : List Byte) (fe : Bool)
  | ret (op : RetOp)
  | response (cause : Nat) (addr : Nat) (wr : Bool) (r : Resp) (req : Nat)
  | ack (core chan free : Nat)
  | frame (f : Frame) (target : Nat)
  | spawnAns (ok : Bool)
  | push (qid : Nat) (entry : List Byte)
  | eqfire (qid : Nat)
  | eqdone (qid fire : Nat)
  | deposit (record slot : Nat) (data : List Byte) (site ch : Nat)
  /-- part `piece` of a block write's lines that its home holds (R221): the sender's tile and the transfer's number there -/
  | line (a : Nat) (data : List Byte) (red num piece site : Nat)
  | barrier (part group inst core : Nat)
  | capReturn (part : Nat) (c : Cap)
  | mcmd (c : MatCmd)
  | packet (words : Vector Word 8)
  | stealReq (thief : Nat)
  | stealAns (f : Option Frame)
  | fault (va : Nat) (job : Nat) (hart : Option Nat)
  | irq (fn vector : Nat)
  | sig (a : Word) (op : Nat) (v : Word)
  deriving DecidableEq, Repr

/-- An item in flight (R135, R137, R142): issuer, its activation's number, sequence number, order of issue, stage, contents;
`fn` is the function of the host port that it travels on (R70). -/
structure Item where
  src     : Nat
  act     : Nat
  srank   : Nat
  job     : Nat
  part    : Nat
  seq     : Nat
  ceg     : Bool
  ord     : Nat
  mid     : Word
  chan    : Nat
  release : Bool
  cap     : Option (Nat × Nat)
  counted : Bool
  fn      : Nat
  stage   : Stage
  dst     : Dest
  body    : Body
  deriving DecidableEq, Repr

/-- Where a packet was taken from (R83, R95, R150). -/
inductive QSrc where
  | vf (fn q : Nat)
  | device (part ctl : Nat)
  | graph (id : Nat)
  deriving DecidableEq, Repr

/-- Stages of a taken packet (R89, R90, R108). -/
inductive PStage where
  | ready | held (token : Nat) | waiting | running | finished
  deriving DecidableEq, Repr

/-- A taken packet (R87, R101); `mid` and `chan` are those of the activation whose LAUNCH it is (R143, R150). `era` says how often its
queue had been enabled when it was taken; `again` that its effects had been performed before its control tile failed (R107). -/
structure Taken where
  id     : Nat
  src    : QSrc
  idx    : Nat
  part   : Nat
  ctl    : Nat
  words  : Vector Word 8
  prio   : Nat
  stage  : PStage
  patch  : List (Nat × Word)
  members : List Nat
  caps   : List Nat
  mid    : Word
  chan   : Nat
  era    : Nat
  again  : Bool
  deriving DecidableEq, Repr

/-- A record of the message log (R241): type, QN, body words, the item a TYPE 1 or 2 record is about, length of the body.
Types 10 and up are notes of the model's own that take no place in the ring (log 34, 61); `taken` is the packet that one of
them notes (R107). `seen` says how far the tile's threads had got when the record was made: thread, number of its activation,
instructions retired in it and what it does (log 34). -/
structure LogRec where
  typ  : Nat
  qn   : Nat
  body : List Word
  item : Option Item
  size : Nat
  taken : Option Taken := none
  seen : List (Nat × Nat × Nat) := []
  deriving DecidableEq, Repr

/-- Stage of the tile's checkpoint (R237, R238). -/
inductive CkStage where
  | open_ | closing | copying
  deriving DecidableEq, Repr

/-- Roles of R27. -/
inductive Role where
  | ranked | spare | supervisor | extra | retired | unhomed | memHome | memBuddy | memIdle | void
  deriving DecidableEq, Repr

/-- One site: tile-class entry, tile-wide registers, engines, network interface, checkpoint logic. `chunkQ` holds for
the copy engine and the matrix engine the quantum of the last chunk, counted from 1 (R125); `awaits` says that a
spare has not read its firn copy yet (R242), `rq` is the quantum a replaying tile has reached (R243), `markQ` the quanta
completed at the last interval mark (R241); `logHead` and `logMark` are the ring offsets of the next record and of that
mark (R235), `recFrom` the region whose supervisor recovers the tile (R242); `bodyOnly` says of a failure that spine and
memories still work (R239); `spbuild` says that a failed scratchpad bank is being rebuilt into the
spare, `accbuild` that a failed accumulator bank is in erasure service, `accused` that that store's spare is in use (R197); `cycleBase` are
the cycles of its region that its cycle counter leaves out (R394). -/
structure Tile where
  cls       : Nat
  role      : Role
  rank      : Option Nat
  home      : Option Nat
  homePart  : Nat
  hops      : Nat
  buddy     : Option Nat
  donor     : Bool
  prot      : Bool
  usable    : Nat
  lpt       : Vector Word 16
  srseed    : Word
  mtag      : Nat
  mqueue    : List MatCmd
  mrun      : Option MatRun
  mdone     : List EngResult
  ctag      : Nat
  xfers     : Vector (Option Xfer) 4
  cdone     : List EngResult
  chunkQ    : Vector Nat 2
  eqs       : List (Nat × ExpertQueue)
  filter    : List (Domain × Nat)
  sent      : List (Nat × Nat)
  recv      : List (Nat × Nat)
  tlb       : List TlbEntry
  credits   : List ((Nat × Nat) × Nat)
  barriers  : List ((Nat × Nat × Nat) × List Nat)
  notices   : List Notice
  arrivals  : Nat
  ival      : Nat
  stage     : CkStage
  logBytes  : Nat
  logHead   : Nat
  logMark   : Nat
  closeReq  : Bool
  fullReq   : Bool
  log       : List LogRec
  bbce      : Nat
  spce      : Nat
  failb     : Nat
  spused    : Bool
  spbuild   : Bool
  accused   : Bool
  accbuild  : Bool
  failed    : Bool
  failc     : Nat
  bodyOnly  : Bool
  replaying : Bool
  replay    : List LogRec
  awaits    : Bool
  rq        : Nat
  markQ     : Nat
  recFrom   : Option Nat
  out       : Bool
  cycleBase : Int := 0
  deriving DecidableEq, Repr

/-- Throttle causes of R57. -/
inductive Throttle where
  | droop | thermal | power
  deriving DecidableEq, Repr

/-- One power region (R49-R57). `scaled` is the time since power-up by its cycle counter, scaled to its clock, in units of 5 ns: half as
fast while it is throttled (R38, R57). -/
structure Region where
  mhz     : Nat
  fixed   : Bool
  causes  : List Throttle
  first   : Nat
  startC  : Nat
  startT  : Nat
  excur   : Nat
  limit   : Nat
  holds   : Nat
  cycles  : Nat
  half    : Nat
  current : Nat
  scaled  : Nat := 0
  deriving DecidableEq, Repr

/-- A job a partition holds (R104, R130, R143). -/
structure Job where
  num      : Nat
  errCore  : Option Nat
  lastWave : Option (Nat × Nat)
  launched : Bool
  deriving DecidableEq, Repr

/-- An egress window (R81, R100 EGRESS). -/
structure Egress where
  kind : Nat
  dest : Nat
  base : Nat
  len  : Nat
  sent : Nat
  deriving DecidableEq, Repr

/-- An event ring (R106). -/
structure EventRing where
  base    : Nat
  sizelog : Nat
  vector  : Nat
  count   : Nat
  deriving DecidableEq, Repr

/-- A floe command as the floe keeps it for a replay of its issuer's tile: the issuer, its number, the issuer's interval, and what
became of it (R243, R245). -/
structure FloeNote where
  srank  : Nat
  key    : Nat
  ival   : Nat
  result : Option EngResult
  deriving DecidableEq, Repr

/-- A floe (R29-R32, R368-R371): its grid, generation, and the running command with the whole floe's cursor, the address whose
page is missing while it is parked, the members that have stored back, what the store-back landed and was denied, the members whose
store-back has begun, the logical number of a member that has failed, and the commands accepted from protected tiles. -/
structure Floe where
  cols    : List Nat
  rows    : List Nat
  region  : List Nat
  fgen    : Nat
  run     : Option MatCmd
  k       : Nat
  row     : Nat
  begun   : Bool
  park    : Option Nat
  stored  : List Nat
  landed  : Nat
  denied  : List (Nat × Nat × Nat)
  waiting : List MatCmd
  storing : List Nat := []
  lost    : Option Nat := none
  known   : List FloeNote := []
  deriving DecidableEq, Repr

/-- The first faulting access of a job at a page (R186): what its error report says. -/
structure Faulter where
  job   : Nat
  mid   : Word
  srank : Nat
  chan  : Nat
  deriving DecidableEq, Repr

/-- A fault entry at the root of the combining tree (R186): page, the jobs that faulted, the threads, held assist. -/
structure FaultEntry where
  page  : Nat
  jobs  : List Faulter
  harts : List Nat
  token : Option Nat
  deriving DecidableEq, Repr

/-- A router's entry for a page with a fault in the combining tree (R186): the child ports that its wake retraces. -/
structure FaultPort where
  router : Nat
  page   : Nat
  ports  : List Nat
  deriving DecidableEq, Repr

/-- A recovery point being streamed to the safe tier (R80): `todo` are the segments not acknowledged, with their ports. -/
structure RpStream where
  num    : Nat
  packet : Nat
  dev    : Nat
  ports  : Nat
  todo   : List (Nat × Nat)
  deriving DecidableEq, Repr

/-- Stages of a switch-out or rollback of a partition (R229, R247). -/
inductive PartStage where
  | active | draining | out | stopped | restoring
  deriving DecidableEq, Repr

/-- A partition (R100). `tiles` are the logical numbers of its ranked tiles; `rbSeq` counts the rollbacks of each job
(R82); `badStacks` are the stacks that a rollback waits for (R247); `lost` says that one is gone that a partition which is
switched out maps (R246); `foreign` holds
the tiles bound to a spare outside the reservation: number, region, start in cycles and in module reference (R65); `rpTiles` the
logical numbers to which the images of a point of other tiles were restored, in order (R100 RESTORE). -/
structure Partition where
  regions : List Nat
  tiles   : List Nat
  mhz     : Nat
  hslots  : Nat
  fslots  : Nat
  prot    : Bool
  det     : Bool
  quantum : Nat
  routes  : List (Nat × Nat)
  wheel   : Nat
  flits   : List (Nat × Nat)
  vcs     : List (Nat × Nat)
  jobs    : List Job
  egress  : Vector Egress 16
  ring    : Option EventRing
  evSeq   : Nat
  excSeq  : Nat
  rbSeq   : List (Nat × Nat)
  assist  : Nat
  rpNext  : Nat
  rpCur   : Nat
  rp      : Option RpStream
  rpPorts : Nat
  rpDev   : Nat
  rpSrc   : Nat × Nat
  readTodo : List Nat
  badStacks : List Nat
  foreign : List (Nat × Nat × Nat × Nat)
  restore : Option Nat
  floe    : Option Floe
  quanta  : Nat
  faults  : List FaultEntry
  wakes   : List (Nat × Bool)
  stage   : PartStage
  save    : Nat
  lost    : Bool
  swPacket : Option Nat
  routers : List FaultPort := []
  rpTiles : List Nat := []
  deriving DecidableEq, Repr

/-- A user or privileged queue's registers (R83, R84, R87). -/
structure QRegs where
  base     : Word
  errvec   : Nat
  prio     : Nat
  sizelog  : Nat
  en       : Bool
  qread    : BitVec 32
  notified : BitVec 32
  erridx   : BitVec 32
  errcode  : Nat
  stopped  : Bool
  polls    : Nat
  enables  : Nat
  deriving DecidableEq, Repr

/-- A graph replay (R95, R96). -/
structure Replay where
  id      : Nat
  packet  : Nat
  part    : Nat
  graph   : Nat
  patch   : List (Nat × Word)
  started : Bool
  next    : Nat
  count   : Nat
  deriving DecidableEq, Repr

/-- A launch wave (R54): the regions still to deliver, each with its messages. -/
structure Wave where
  packet : Nat
  rest   : List (Nat × List Item)
  deriving DecidableEq, Repr

/-- A retirement-log record (R41). -/
structure Rec where
  typ   : Nat
  cause : Nat
  seq   : Nat
  site  : Nat
  lnum  : Nat
  spare : Nat
  boots : Nat
  nrank : Nat
  deriving DecidableEq, Repr

/-- A retirement-log slot that is not erased: the 64 bytes of its record area and its commit word (R40). -/
structure Slot where
  bytes  : List Byte
  commit : Word
  deriving DecidableEq, Repr

/-- A bank header (R40): generation, its CRC-32C, commit word. -/
structure BankHead where
  gen    : Nat
  crc    : BitVec 32
  commit : Word
  deriving DecidableEq, Repr

/-- A flash bank (R40): slot 0, none where it is erased, and the slots from 1 up to the first erased one. -/
structure Bank where
  header : Option BankHead
  slots  : List Slot
  deriving DecidableEq, Repr

/-- An append waiting at the flash port (R42). -/
structure Append where
  record : Rec
  token  : Option Nat
  deriving DecidableEq, Repr

/-- An excursion of a reservation that a power-down began (R65, log 86, DEDUCED): its partition and region, the setting in MHz, the
supervisor's cycle count and the time at its start, and its duration in units of 10 ns once the next start-up has ended it. -/
structure DownRec where
  part   : Nat
  region : Nat
  mhz    : Nat
  start  : Nat
  time   : Nat
  dur    : Option Nat
  deriving DecidableEq, Repr

/-- Module flash and fuses: all that survives a power-down (R33, R40, R58). The image and the staged one stand with their
RSA-3072 signatures, `header` is the commit word of the last update, `key` the fused public key: modulus and exponent.
`down` are the excursions of power-downs that no event ring has taken yet (R65). -/
structure Flash where
  image    : List Byte
  signature : List Byte
  staged   : Option (List Byte × List Byte)
  header   : Word
  key      : Nat × Nat
  bankA    : Bank
  bankB    : Bank
  fallback : List (Nat × List Nat)
  fuses    : List (Nat × Nat)
  boots    : Nat
  down     : List DownRec
  deriving DecidableEq, Repr

/-- The boot status register (R35). -/
structure Boot where
  ranked  : Nat
  spares  : Nat
  rmapchg : Bool
  torn    : Bool
  compact : Bool
  newret  : Bool
  short   : Bool
  cause   : Nat
  stage   : Nat
  state   : Nat
  deriving DecidableEq, Repr

/-- A flit in a port's retry buffer (R72, R73): its link sequence, the device it goes to, the number that chooses its port (R77),
its partition, what chooses its virtual channel (the source thread rank; whether it is a response, none for management traffic), that
channel (R75), whether it is a bulk flit, and its message slot or its data. -/
structure Flit where
  seq   : Nat
  dev   : Nat
  sel   : Nat
  part  : Nat
  srank : Nat
  resp  : Option Bool
  vc    : Nat
  bulk  : Bool
  slot  : List Word
  deriving DecidableEq, Repr

/-- A Rypol port (R73, R74): its status, the link sequence it expects, when it asked for replays, the link sequence of the next
flit it sends, and its retry buffer. -/
structure Port where
  crcerr  : Nat
  replay  : Nat
  resvc   : Nat
  lanes   : Nat
  state   : Nat
  lseq    : Nat
  times   : List Nat
  txSeq   : Nat
  retry   : List Flit
  deriving DecidableEq, Repr

/-- A held assist request (R109): token, function, partition, argument, the packet or site concerned. -/
structure Assist where
  token : Nat
  func  : Nat
  part  : Nat
  arg   : Word
  obj   : Nat
  deriving DecidableEq, Repr

/-- What an HBM home agent keeps (R129, R185); `ce` counts the corrected errors of its stack (R198). -/
structure HomeAgent where
  tlb    : List TlbEntry
  sent   : List (Nat × Nat)
  recv   : List (Nat × Nat)
  filter : List (Domain × Nat)
  ce     : Nat
  deriving DecidableEq, Repr

/-- A device queue of a control tile (R150): packets with message id, issuer and channel of the LAUNCH that wrote them, and the SEQ
last accepted of each thread rank. -/
structure DevQueue where
  slots : List (Vector Word 8 × Word × Nat × Nat)
  last  : List (Nat × Nat)
  deriving DecidableEq, Repr

/-- A tile's state as a checkpoint or a save record holds it (R230, R234), with the site it was taken at, the time of its queues
then (R158), and a control tile's open packets (R107). -/
structure TileImage where
  rank    : Nat
  site    : Nat
  tile    : Tile
  cores   : List (Nat × Core)
  threads : List (Nat × Thread)
  scratch : List Host.Cell
  bonded  : List Host.Cell
  accs    : List Host.Cell
  fullS   : List Nat
  fullB   : List Nat
  issued  : List Item
  at_     : Nat
  taken   : List Taken
  replays : List Replay
  deriving DecidableEq, Repr

/-- What a state image at a buddy holds beside the bytes of its area (R230, R234): one for each of the two slots. -/
structure Firn where
  ward  : Nat
  ival  : Nat
  image : TileImage
  deriving DecidableEq, Repr

/-- The save of a switched-out partition (R230). -/
structure Save where
  part   : Nat
  base   : Nat
  images : List TileImage
  deriving DecidableEq, Repr

/-- A recovery point on the safe tier `tier` (R80, R100 RESTORE): what was streamed in `segs` segments, by source device,
partition and number; `spans` are the stretches of HBM it holds; `whole` once every segment is acknowledged. -/
structure RecPoint where
  tier   : Nat
  src    : Nat
  part   : Nat
  num    : Nat
  segs   : Nat
  spans  : List (Nat × Nat)
  images : List TileImage
  hbm    : List Host.Cell
  full   : List Nat
  jobs   : List Job
  whole  : Bool
  deriving DecidableEq, Repr

/-- What the outside sees (R68, R82, R90). -/
inductive Output where
  | msix (fn vector : Nat)
  | unsupported (fn off : Nat)
  | sent (dev : Nat) (i : Item)
  | flit (port : Nat) (words : List Word)
  | segment (dev port num index : Nat) (crc : BitVec 32)
  | returned (dev vc cause : Nat) (i : Item)
  | notice (dev vc : Nat) (bytes : List Byte)
  | hostWrite (fn at_ size : Nat)
  | replayRequest (port lseq : Nat)
  | linkDown
  deriving DecidableEq, Repr

/-- One turn of the agenda: a step of the part, an issue turn of a core (site × 4 + core), or time passing
in units of 10 ns of the module reference (log 4, DESIGN CHOICE). -/
inductive Turn where
  | event (i : Instr)
  | issue (core : Nat)
  | elapse (n : Nat)
  deriving DecidableEq, Repr

/-- Why the machine stops. -/
inductive Fault where
  /-- Raised by `step` when the module has no power and the agenda holds no power-up: the spec gives a part
  without power no behaviour (R50, R58). Safe. -/
  | unpowered
  deriving DecidableEq, Repr

/-- Why a step has no meaning. -/
inductive Refusal where
  /-- Raised by an arm of `exec` for an instruction that has no meaning yet. Safe. -/
  | notModelled (mnemonic : String)
  deriving DecidableEq, Repr

/-- The whole part. `mapped` holds the frames that page tables map, with their sizes (R194), `floe0` the floe over the whole
wafer (R29). `firnMem` holds the firn and log areas of the buddies at their locations (R234, R235), `tagKey` the key of
integrity tags (R236), `failQ` the failed sites whose recovery has not begun, with their causes (R242). `egressQ` holds committed egress with the site and the interval whose commit releases it (R81);
`egressed` the highest sequence number an egress point, a port, has sent for each sender rank and kind; `aer` the functions'
uncorrectable error status (R66). -/
structure State where
  agenda   : List Turn
  cur      : Nat
  freeCtr  : Nat
  refTime  : Nat
  ordCtr   : Nat
  powered  : Bool
  mem      : List Host.Cell
  full     : List Nat
  mapped   : List (Nat × Nat)
  poison   : List Nat
  dirty    : List Nat
  instrs   : List (Nat × Nat)
  threads  : List (Nat × Thread)
  cores    : List (Nat × Core)
  tiles    : List (Nat × Tile)
  regions  : Vector Region 16
  parts    : List (Nat × Partition)
  homes    : List (Nat × HomeAgent)
  binding  : List (Nat × Nat)
  unbound  : List Nat
  fenced   : List Nat
  boot     : Boot
  devid    : BitVec 12
  devValid : Bool
  attest   : Vector (BitVec 256) 6
  flash    : Flash
  appends  : List Append
  queues   : List (Nat × QRegs)
  devq     : List (Nat × DevQueue)
  taken    : List Taken
  turns    : List (Nat × Nat)
  replays  : List Replay
  waves    : List Wave
  nextId   : Nat
  vfs      : Vector (Option Nat) 16
  selfSecs : Nat
  floe0    : Option Floe
  ports    : Vector Port 64
  net      : List Item
  egressQ  : List (Nat × Nat × Item)
  egressed : List (Nat × Nat × Bool × Nat)
  aer      : List (Nat × Nat)
  assists  : List Assist
  ring0    : Option EventRing
  ev0Seq   : Nat
  firns    : List Firn
  firnMem  : List Host.Cell
  tagKey   : List Byte
  failQ    : List (Nat × Nat)
  saves    : List Save
  points   : List RecPoint
  outs     : List Output
  deriving DecidableEq, Repr

/-- A thread after power-up, free and at the activation-start values of its CSRs (R133, R258, R260, R335,
R391); the values the spec does not give are those of log 2, DESIGN CHOICE. -/
def Thread.init : Thread :=
  { status := .free, priv := .U, x := Vector.replicate 32 0, v := Vector.replicate 16 0,
    m := Vector.replicate 4 0, pc := 0, fround := 0, accdecay := 0x3F800000, vl := 128,
    lpstart := 0, lpend := 0, lpcount := 0, budget := 0, msrc := 0, mchan := 0, mseq := 0,
    hcause := 0, haddr := 0, hmsgid := 0, mtvec := 0, mscratch := 0, mepc := 0, mcause := 0,
    mtval := 0, act := none, retired := 0, nAtomic := 0, nCycle := 0, dn := 0, qret := 0, qdone := false, seq := 0,
    held := [], streams := Vector.replicate 4 none, resp := none, req := 0, actNo := 0, pend := none, beat := 0, rows := [], hold := 0, lastCmd := none }

/-- A handler-table entry after reset (R113). -/
def Handler.init : Handler :=
  { haddr := 0, budlog := 0, single := false, carry := false, en := false, prio := 0 }

/-- A core after reset (R113, R116, R143, R147, R190). -/
def Core.init : Core :=
  { caps := Vector.replicate 4 none, spawnlim := 64, handlers := Vector.replicate 16 Handler.init,
    spbase := 0, splog := 0, dqbase := 0, dqlog := 0,
    channels := Vector.replicate 16 { queue := [], spill := [] }, deque := [],
    lastTaken := Vector.replicate 8 15, lastIssue := 7, steal := none, preReq := false, preempt := false,
    preempted := false, barCount := [], slices := 0, scanIv := 0, scanFrom := 0, scanDue := false, scanAsked := false,
    coreFail := false }

/-- A site before start-up has given it a role (R27, R175, R259, R359). -/
def Tile.init : Tile :=
  { cls := 0, role := .extra, rank := none, home := none, homePart := 0, hops := 0, buddy := none,
    donor := false, prot := false, usable := 0, lpt := Vector.replicate 16 0, srseed := 0,
    mtag := 0, mqueue := [], mrun := none, mdone := [], ctag := 0,
    xfers := Vector.replicate 4 none, cdone := [], chunkQ := Vector.replicate 2 0, eqs := [], filter := [], sent := [], recv := [],
    tlb := [], credits := [], barriers := [], notices := [], arrivals := 0, ival := 0,
    stage := .open_, logBytes := 0, logHead := 0, logMark := 0, closeReq := false, fullReq := false,
    log := [], bbce := 0, spce := 0, failb := 0, spused := false, spbuild := false, accused := false, accbuild := false, failed := false, failc := 0, bodyOnly := false,
    replaying := false, replay := [], awaits := false, rq := 0, markQ := 0, recFrom := none, out := false }

/-- A region after reset (R49, R53, R56). -/
def Region.init : Region :=
  { mhz := 3000, fixed := false, causes := [], first := 0, startC := 0, startT := 0, excur := 0,
    limit := 180, holds := 0, cycles := 0, half := 0, current := 0 }

/-- A partition number that no CREATE has taken (R100). -/
def Partition.init : Partition :=
  { regions := [], tiles := [], mhz := 0, hslots := 0, fslots := 0, prot := false, det := false, quantum := 0,
    routes := [], wheel := 0, flits := [], vcs := [], jobs := [],
    egress := Vector.replicate 16 { kind := 0, dest := 0, base := 0, len := 0, sent := 0 },
    ring := none, evSeq := 0, excSeq := 0, rbSeq := [], assist := 0, rpNext := 1, rpCur := 0,
    rp := none, rpPorts := 0, rpDev := 0, rpSrc := (0, 0), readTodo := [], badStacks := [], foreign := [], restore := none, floe := none, quanta := 0,
    faults := [], wakes := [], stage := .active, save := 0, lost := false, swPacket := none }

/-- An HBM home agent after reset. -/
def HomeAgent.init : HomeAgent := { tlb := [], sent := [], recv := [], filter := [], ce := 0 }

/-- An empty device queue (R150). -/
def DevQueue.init : DevQueue := { slots := [], last := [] }

/-- Queue registers after reset (R84). -/
def QRegs.init : QRegs :=
  { base := 0, errvec := 0, prio := 0, sizelog := 4, en := false, qread := 0, notified := 0,
    erridx := 0, errcode := 0, stopped := false, polls := 0, enables := 0 }

/-- An unconfigured expert queue (R152). -/
def ExpertQueue.init : ExpertQueue :=
  { configured := false, ringlog := 8, prio := 0, enable := false, mcast := false, spillhbm := false,
    chan := 0, ringoff := 0, fill := 1, maxbatch := 1, age := 0, target := 0, spillAt := 0,
    spillLen := 0, job := 0, part := 0, ring := [], spill := [], head := 0, force := false,
    fires := 0, batches := [], top := none, spflt := false, statusAtQ := 0 }

/-- Boot status after reset (R35). -/
def Boot.init : Boot :=
  { ranked := 0, spares := 0, rmapchg := false, torn := false, compact := false, newret := false,
    short := false, cause := 0, stage := 0, state := 0 }

/-- A Rypol port after reset (R74). -/
def Port.init : Port := { crcerr := 0, replay := 0, resvc := 0, lanes := 0, state := 0, lseq := 0, times := [], txSeq := 0, retry := [] }

/-- Flash as shipped: erased log banks (R40); image, signature and fused key are free values, so the part that R1 delivers is one
whose image passes R33 (log 3, DESIGN CHOICE). The other values that the spec does not give are those of log 3 too. -/
def Flash.init : Flash :=
  { image := Config.shippedImage, signature := Config.shippedSignature, staged := none, header := BitVec.allOnes 64, key := Config.fusedKey,
    bankA := { header := none, slots := [] }, bankB := { header := none, slots := [] }, fallback := [], fuses := [],
    boots := 0, down := [] }

/-- The part powered and at reset, before the start-up of R34 has run: no site has a role, no partition
exists, nothing runs (log 2, 3, 7). -/
def State.reset : State :=
  { agenda := [], cur := 0, freeCtr := 0, refTime := 0, ordCtr := 0, powered := true, mem := [],
    full := [], mapped := [], poison := [], dirty := [], instrs := [], threads := [], cores := [], tiles := [],
    regions := Vector.replicate 16 Region.init, parts := [], homes := [], binding := [],
    unbound := [], fenced := [], boot := Boot.init, devid := 0, devValid := false,
    attest := Vector.replicate 6 0, flash := Flash.init, appends := [], queues := [], devq := [],
    taken := [], turns := [], replays := [], waves := [], nextId := 1, vfs := Vector.replicate 16 none,
    selfSecs := 300, floe0 := none, ports := Vector.replicate 64 Port.init, net := [], egressQ := [],
    egressed := [], aer := [], assists := [], ring0 := none, ev0Seq := 0, firns := [], firnMem := [],
    tagKey := List.replicate 32 0, failQ := [], saves := [], points := [], outs := [] }

end Sys2Proof.Machine
end

