-- ==== Sys2Proof/Machine/Map.lean ====
section
/-!
DEFINITION. Sparse tables: the operations every part of the state is read and written through.
-/

namespace Sys2Proof.Machine

/-- The value at a key; an unlisted key holds the default `d`. -/
def SMap.get {α : Type} (d : α) : List (Nat × α) → Nat → α
  | [], _ => d
  | (k, v) :: t, i => if k = i then v else SMap.get d t i

/-- Sets a key and keeps the keys rising. -/
def SMap.put {α : Type} : List (Nat × α) → Nat → α → List (Nat × α)
  | [], i, v => [(i, v)]
  | (k, w) :: t, i, v =>
    if i < k then (i, v) :: (k, w) :: t
    else if i = k then (i, v) :: t
    else (k, w) :: SMap.put t i v

/-- Removes a key. -/
def SMap.del {α : Type} : List (Nat × α) → Nat → List (Nat × α)
  | [], _ => []
  | (k, w) :: t, i => if i = k then t else (k, w) :: SMap.del t i

/-- Adds to a counter table (unlisted: 0). -/
def SMap.bump (m : List (Nat × Nat)) (i n : Nat) : List (Nat × Nat) := SMap.put m i (SMap.get 0 m i + n)

/-- What a byte of memory that nothing has written reads as (log 1, DESIGN CHOICE). -/
def Memory.blank : Byte := 0

/-- One byte of memory. -/
def Memory.read (m : List Host.Cell) (a : Nat) : Byte := SMap.get Memory.blank m a

/-- Writes one byte; writing what an unlisted address reads as removes the entry. -/
def Memory.write (m : List Host.Cell) (a : Nat) (b : Byte) : List Host.Cell :=
  if b = Memory.blank then SMap.del m a else SMap.put m a b

/-- `n` bytes from `a` up. -/
def Memory.readN (m : List Host.Cell) : Nat → Nat → List Byte
  | _, 0 => []
  | a, n + 1 => Memory.read m a :: Memory.readN m (a + 1) n

/-- Writes bytes from `a` up. -/
def Memory.writeN (m : List Host.Cell) : Nat → List Byte → List Host.Cell
  | _, [] => m
  | a, b :: bs => Memory.writeN (Memory.write m a b) (a + 1) bs

/-- The cells of `[lo, lo + n)`, moved so that `lo` becomes 0. -/
def Memory.slice (m : List Host.Cell) (lo n : Nat) : List Host.Cell :=
  (m.filter fun c => lo ≤ c.1 && c.1 < lo + n).map fun c => (c.1 - lo, c.2)

/-- Memory with `[lo, lo + n)` blank. -/
def Memory.clear (m : List Host.Cell) (lo n : Nat) : List Host.Cell :=
  m.filter fun c => !(lo ≤ c.1 && c.1 < lo + n)

/-- Memory with `[lo, lo + n)` replaced by cells counted from 0. -/
def Memory.paste (m : List Host.Cell) (lo n : Nat) (cs : List Host.Cell) : List Host.Cell :=
  cs.foldl (fun acc c => if c.1 < n then Memory.write acc (lo + c.1) c.2 else acc) (Memory.clear m lo n)

/-- The canonical form: addresses strictly rise and no entry equals what an unlisted address reads as. -/
def Memory.wf : List Host.Cell → Bool
  | [] => true
  | [(_, b)] => b != Memory.blank
  | (a, b) :: (a', b') :: t => b != Memory.blank && decide (a < a') && Memory.wf ((a', b') :: t)

/-- Whether a key is in a rising list of keys. -/
def KeySet.mem (l : List Nat) (i : Nat) : Bool := l.contains i

/-- Adds a key to a rising list. -/
def KeySet.add : List Nat → Nat → List Nat
  | [], i => [i]
  | k :: t, i => if i < k then i :: k :: t else if i = k then k :: t else k :: KeySet.add t i

/-- Removes a key. -/
def KeySet.drop (l : List Nat) (i : Nat) : List Nat := l.filter (· != i)

/-- The keys of `[lo, lo + n)` moved so that `lo` becomes 0. -/
def KeySet.slice (l : List Nat) (lo n : Nat) : List Nat :=
  (l.filter fun k => lo ≤ k && k < lo + n).map (· - lo)

/-- The set with `[lo, lo + n)` replaced. -/
def KeySet.paste (l : List Nat) (lo n : Nat) (ks : List Nat) : List Nat :=
  ks.foldl (fun acc k => KeySet.add acc (lo + k)) (l.filter fun k => !(lo ≤ k && k < lo + n))

/-- The element at an index of a list, if there is one. -/
def nth {α : Type} (l : List α) (k : Nat) : Option α := l[k]?

/-- The list without its `k`-th element. -/
def dropNth {α : Type} (l : List α) (k : Nat) : List α := l.eraseIdx k

/-- The list with its `k`-th element replaced. -/
def setNth {α : Type} (l : List α) (k : Nat) (v : α) : List α := l.set k v

/-- A vector with one element replaced, unchanged if the index is out of range. -/
def vset {α : Type} {n : Nat} (v : Vector α n) (i : Nat) (a : α) : Vector α n :=
  if h : i < n then v.set i a h else v

/-- A vector's element, or a default. -/
def vget {α : Type} {n : Nat} (d : α) (v : Vector α n) (i : Nat) : α :=
  if h : i < n then v[i] else d

/-- Inserts into a list kept in order by `lt`, after elements that are not greater. -/
def insertBy {α : Type} (lt : α → α → Bool) (a : α) : List α → List α
  | [] => [a]
  | b :: t => if lt a b then a :: b :: t else b :: insertBy lt a t

/-- A stable insertion sort. -/
def sortBy {α : Type} (lt : α → α → Bool) (l : List α) : List α := l.foldl (fun acc a => insertBy lt a acc) []

end Sys2Proof.Machine
end

