-- ==== Sys2Proof/Machine/Ops.lean ====
section
/-!
DEFINITION. The named operations over threads, memory and messages that every meaning is written with: numbering of
sites, cores and threads, the registers, the bytes of memory, the local protection unit, taking an exception and
returning from one, error reports and event records, issuing items, and retiring an instruction.
-/

namespace Sys2Proof.Machine

/-- What a meaning answers. -/
abbrev Out := Host.Outcome State Fault Refusal

/-! ### Numbering (R7, R22): hart = site × 32 + core × 8 + thread; core = site × 4 + core -/

/-- The site of a thread. -/
def siteOf (h : Nat) : Nat := h / 32
/-- The core key of a thread. -/
def coreOf (h : Nat) : Nat := h / 8
/-- The power region of a site (R7). -/
def regionOf (site : Nat) : Nat := (site / 96) / 24 * 4 + (site % 96) / 24
/-- The reticle field of a site (R7). -/
def fieldOf (site : Nat) : Nat := (site / 96) / 12 * 8 + (site % 96) / 12
/-- The coordinate form of R23: column in [13:7], row in [6:0]. -/
def coordOf (site : Nat) : Nat := (site % 96) * 128 + site / 96
/-- The site a coordinate names, if it is one (R7, R23). -/
def siteOfCoord (c : Nat) : Option Nat :=
  if c / 128 < 96 && c % 128 < 96 && c < 16384 then some (c % 128 * 96 + c / 128) else none
/-- The edge of a stack (R28): 0 north, 1 east, 2 south, 3 west. -/
def stackEdge (k : Nat) : Nat := k / 12
/-- The eight edge sites that a stack attaches to (R28), counted along its edge in the order of its number. -/
def stackSites (k : Nat) : List Nat :=
  (List.range 8).map fun j =>
    let n := 8 * (k % 12) + j
    match stackEdge k with
    | 0 => n
    | 1 => n * 96 + 95
    | 2 => 95 * 96 + (95 - n)
    | _ => (95 - n) * 96
/-- The numbers from one to another, rising or falling. -/
def between (a b : Nat) : List Nat :=
  if a ≤ b then (List.range (b + 1 - a)).map (a + ·) else (List.range (a + 1 - b)).map (a - ·)
/-- The sites on the way from one to another, along its row and then along the other's column (log 101, DESIGN CHOICE). -/
def wayTo (a b : Nat) : List Nat :=
  (between (a % 96) (b % 96)).map (fun c => a / 96 * 96 + c) ++ ((between (a / 96) (b / 96)).drop 1).map fun r => r * 96 + b % 96
/-- A truth value as a number. -/
def ofBool (b : Bool) : Nat := if b then 1 else 0
/-- `ceil (a / b)`. -/
def ceilDiv (a b : Nat) : Nat := (a + b - 1) / b
/-- Whether a 32-bit number is later than another (R137). -/
def seqLater (a b : Nat) : Bool :=
  let d := (a + 2 ^ 32 - b % 2 ^ 32) % 2 ^ 32
  1 ≤ d && d < 2 ^ 31

/-! ### Records of the state -/

/-- A thread. -/
def State.thread (s : State) (h : Nat) : Thread := SMap.get Thread.init s.threads h
/-- Sets a thread. -/
def State.setThread (s : State) (h : Nat) (t : Thread) : State := { s with threads := SMap.put s.threads h t }
/-- A core. -/
def State.core (s : State) (c : Nat) : Core := SMap.get Core.init s.cores c
/-- Sets a core. -/
def State.setCore (s : State) (c : Nat) (x : Core) : State := { s with cores := SMap.put s.cores c x }
/-- A tile. -/
def State.tile (s : State) (i : Nat) : Tile := SMap.get Tile.init s.tiles i
/-- Sets a tile. -/
def State.setTile (s : State) (i : Nat) (x : Tile) : State := { s with tiles := SMap.put s.tiles i x }
/-- A partition. -/
def State.part (s : State) (p : Nat) : Partition := SMap.get Partition.init s.parts p
/-- Sets a partition. -/
def State.setPart (s : State) (p : Nat) (x : Partition) : State := { s with parts := SMap.put s.parts p x }
/-- An HBM home agent. -/
def State.agent (s : State) (k : Nat) : HomeAgent := SMap.get HomeAgent.init s.homes k
/-- Sets an HBM home agent. -/
def State.setAgent (s : State) (k : Nat) (x : HomeAgent) : State := { s with homes := SMap.put s.homes k x }
/-- The thread a scalar instruction acts on. -/
def State.me (s : State) : Thread := s.thread s.cur
/-- Sets that thread. -/
def State.setMe (s : State) (t : Thread) : State := s.setThread s.cur t
/-- The site of the current thread. -/
def State.site (s : State) : Nat := siteOf s.cur
/-- Whether a partition number is in use (R100). -/
def State.hasPart (s : State) (p : Nat) : Bool := s.parts.any (·.1 == p)

/-- The site a logical tile is bound to (R23). -/
def State.siteOfRank (s : State) (l : Nat) : Option Nat :=
  (s.binding.find? fun b => b.1 == l).map (·.2)
/-- The logical tile of a site. -/
def State.rankOf (s : State) (site : Nat) : Option Nat := (s.tile site).rank
/-- The partition a site runs, of those that are switched in: the one whose ranked tile it is, wherever its site lies
(R65, R100, R229); an unranked site belongs with its region. -/
def State.partOfSite (s : State) (site : Nat) : Option Nat :=
  match (s.tile site).rank with
  | some l => (s.parts.find? fun p => p.2.tiles.contains l && p.2.stage != .out).map (·.1)
  | none => (s.parts.find? fun p => p.2.regions.contains (regionOf site) && p.2.stage != .out).map (·.1)
/-- A partition's ranked tiles with their sites, in ascending rank (R100, R107). -/
def State.partTiles (s : State) (p : Nat) : List (Nat × Nat) :=
  s.binding.filter fun b => (s.part p).tiles.contains b.1
/-- The quanta a partition has completed, as a tile sees them: one that replays its log counts its own (R243). -/
def State.quantaAt (s : State) (site p : Nat) : Nat :=
  if (s.tile site).replaying then (s.tile site).rq else (s.part p).quanta
/-- Whether a logical tile is a ranked tile of a partition. -/
def State.isRanked (s : State) (p l : Nat) : Bool := (s.partTiles p).any (·.1 == l)
/-- The core key of a logical core, if its tile is ranked in the partition (R110). -/
def State.coreKey (s : State) (p lc : Nat) : Option Nat :=
  match (s.partTiles p).find? (fun b => b.1 == lc / 4) with
  | some b => some (b.2 * 4 + lc % 4)
  | none => none
/-- The thread rank of a thread: all ones on an unranked tile (R22). -/
def State.rankOfHart (s : State) (h : Nat) : Word :=
  match s.rankOf (siteOf h) with
  | some r => BitVec.ofNat 64 (r * 32 + h % 32)
  | none => BitVec.allOnes 64
/-- The thread rank as it stands in an 18-bit header field. -/
def State.srank (s : State) (h : Nat) : Nat := (s.rankOfHart h).toNat % 2 ^ 18
/-- The logical core of a core key. -/
def State.logCore (s : State) (c : Nat) : Nat :=
  match s.rankOf (c / 4) with
  | some r => r * 4 + c % 4
  | none => 32768
/-- The partition of a thread: of its activation, else of its tile; 0 outside any (R389). -/
def State.partOfHart (s : State) (h : Nat) : Nat :=
  match (s.thread h).act with
  | some a => a.part
  | none => (s.partOfSite (siteOf h)).getD 0
/-- Whether a partition runs in deterministic mode (R123). -/
def State.det (s : State) (p : Nat) : Bool := (s.part p).det
/-- The quantum length Q (R123). -/
def Partition.qlen (p : Partition) : Nat := if p.quantum = 0 then 16384 else p.quantum
/-- The job of a thread's activation; 0 outside an activation. -/
def State.jobOf (s : State) (h : Nat) : Nat := ((s.thread h).act.map (·.job)).getD 0
/-- The message id of a thread's activation; 0 at M (R136, R389). -/
def State.midOf (s : State) (h : Nat) : Word := ((s.thread h).act.map (·.mid)).getD 0
/-- The channel of a thread's activation. -/
def State.chanOf (s : State) (h : Nat) : Nat := ((s.thread h).act.map (·.chan)).getD 0
/-- The device number that goes into headers (R77, R135): 0 while VALID is 0. -/
def State.dev (s : State) : Nat := if s.devValid then s.devid.toNat else 0
/-- The control tiles of a partition: its lowest-ranked tiles, at most four (R107). -/
def State.ctlTiles (s : State) (p : Nat) : List (Nat × Nat) := (s.partTiles p).take 4

/-! ### x registers (R283) -/

/-- X[n]: x0 reads 0. -/
def Thread.rx (t : Thread) (n : Reg) : Word := if n = 0 then 0 else vget 0 t.x n.toNat
/-- X[n] := v: a write to x0 is discarded. -/
def Thread.wx (t : Thread) (n : Reg) (v : Word) : Thread := if n = 0 then t else { t with x := vset t.x n.toNat v }
/-- X[n] of the current thread. -/
def State.rx (s : State) (n : Reg) : Word := s.me.rx n
/-- X[n] of the current thread := v. -/
def State.wx (s : State) (n : Reg) (v : Word) : State := s.setMe (s.me.wx n v)
/-- a0-a7 of a thread: the payload of a send (R316). -/
def Thread.payload (t : Thread) : Vector Word 8 := Vector.ofFn fun i => t.rx (BitVec.ofNat 5 (10 + i.val))
/-- A free 64-bit value and the state after taking it (log 6, DESIGN CHOICE). -/
def State.free (s : State) : Word × State := (Config.freeWord s.freeCtr, { s with freeCtr := s.freeCtr + 1 })

/-! ### Bytes of memory (R201) -/

/-- First location of a scratchpad. -/
def kScratch (site : Nat) : Nat := 2 ^ 44 + site * 2 ^ 22
/-- First location of a bonded block. -/
def kBonded (site : Nat) : Nat := 2 ^ 45 + site * 2 ^ 27
/-- First location of an accumulator store. -/
def kAcc (site : Nat) : Nat := 2 ^ 46 + site * 2 ^ 17
/-- First location of a partition window. -/
def kWindow (part : Nat) : Nat := 2 ^ 60 + part * 2 ^ 21
/-- The location of a host address, without its bit 63 (R85). -/
def kHost (a : Nat) : Nat := 2 ^ 64 + a % 2 ^ 63

/-- The 64-byte lines a range touches, as location numbers divided by 64. -/
def linesOf (k n : Nat) : List Nat := (List.range (ceilDiv (k % 64 + n) 64)).map (k / 64 + ·)
/-- Whether a location is checkpointed with its tile: scratchpad or bonded block (R237). -/
def isTileKey (k : Nat) : Bool := 2 ^ 44 ≤ k && k < 2 ^ 46
/-- Bytes at a location. -/
def State.bytes (s : State) (k n : Nat) : List Byte := Memory.readN s.mem k n
/-- A little-endian number at a location. -/
def State.num (s : State) (k n : Nat) : Nat := ofBytes (s.bytes k n)
/-- Writes bytes: marks the lines of a tile's own memory as written (R237) and clears the poison of every line
written whole (R199). -/
def State.putMem (s : State) (k : Nat) (bs : List Byte) : State :=
  { s with
    mem := Memory.writeN s.mem k bs
    dirty := if isTileKey k then (linesOf k bs.length).foldl KeySet.add s.dirty else s.dirty
    poison := s.poison.filter fun l => !(k ≤ l * 64 && l * 64 + 64 ≤ k + bs.length) }
/-- Writes an `n`-byte little-endian number. -/
def State.putNum (s : State) (k n v : Nat) : State := s.putMem k (bytesOf n v)
/-- The 8-byte words a range touches, as location numbers of words. -/
def wordsOf (k n : Nat) : List Nat := (List.range (ceilDiv (k % 8 + n) 8)).map (k / 8 + ·)
/-- Sets the full-empty bits of a range (R194). -/
def State.setFull (s : State) (k n : Nat) : State := { s with full := (wordsOf k n).foldl KeySet.add s.full }
/-- Sets the full-empty bits of a range empty (R194). -/
def State.setEmpty (s : State) (k n : Nat) : State := { s with full := (wordsOf k n).foldl KeySet.drop s.full }
/-- Whether the word at a location is full (R194). -/
def State.isFull (s : State) (k : Nat) : Bool := KeySet.mem s.full (k / 8)
/-- Writes bytes as an engine does: with their full-empty bits set (R194). -/
def State.putEngine (s : State) (k : Nat) (bs : List Byte) : State := (s.putMem k bs).setFull k bs.length
/-- Whether a range touches a poisoned HBM line (R199). -/
def State.poisoned (s : State) (k n : Nat) : Bool := (linesOf k n).any (KeySet.mem s.poison)

/-! ### Local addresses (R173-R176) -/

/-- Kinds of access the protection table distinguishes (R175). -/
inductive AccKind where
  | read | write | fetch
  deriving DecidableEq, Repr

/-- The location of a local range that lies wholly in the own scratchpad, or wholly in the own usable bonded
block at the tile or at its home (R15, R173). -/
def State.localKey (s : State) (site a n : Nat) : Option Nat :=
  let t := s.tile site
  if a + n ≤ Config.scratchBytes then some (kScratch site + a)
  else if Config.bondedLocal ≤ a && a + n ≤ Config.bondedLocal + t.usable * 2 ^ 20 then
    match t.home with
    | some h => some (kBonded h + t.homePart * (44 * 2 ^ 20) + (a - Config.bondedLocal))
    | none => some (kBonded site + (a - Config.bondedLocal))
  else none

/-- Whether a local range keeps clear of the system area (R141). -/
def offSystem (a n : Nat) : Bool := a + n ≤ Config.sysArea || Config.scratchBytes ≤ a

/-- Whether a protection entry grants an access to `[a, a + n)` (R175): none if it does not hold the first byte. -/
def protEntry (e : Word) (k : AccKind) (a n : Nat) : Option Bool :=
  let base := bitsN e.toNat 31 12 * 4096
  let size := 2 ^ bitsN e.toNat 5 0
  if e.getLsbD 63 && base ≤ a && a < base + size then
    some (decide (a + n ≤ base + size) &&
      (match k with | .read => e.getLsbD 56 | .write => e.getLsbD 57 | .fetch => e.getLsbD 58))
  else none

/-- The decision of the lowest-numbered entry that holds the first byte; refused if none does (R175). -/
def protDecide (es : List Word) (k : AccKind) (a n : Nat) : Bool := ((es.findSome? fun e => protEntry e k a n)).getD false

/-- A thread's local access: its location, or none for the protection error (R141, R173, R175). -/
def State.localAcc (s : State) (site : Nat) (k : AccKind) (a n : Nat) : Option Nat :=
  if offSystem a n && protDecide (s.tile site).lpt.toList k a n then s.localKey site a n else none

/-- The segment of an address (R173). -/
def segOf (a : Nat) : Nat := bitsN a 55 48

/-! ### Items and messages (R135-R144) -/

/-- The message id of R136. -/
def msgId (sdev srank seq : Nat) : Word := BitVec.ofNat 64 (sdev * 2 ^ 50 + srank * 2 ^ 32 + seq % 2 ^ 32)

/-- The next sequence number of a thread, and the state after taking it (R137). -/
def State.takeSeq (s : State) (h : Nat) : Nat × State :=
  let t := s.thread h
  let q := t.seq + 1
  (q.toNat, s.setThread h { t with seq := q })

/-- The number that stands for the home agent of stack k among the sites: beyond all of them (R129, R240). -/
def stackSite (k : Nat) : Nat := Config.numSites + 1 + k
/-- The stack whose home agent a number stands for. -/
def agentOf (site : Nat) : Option Nat :=
  if Config.numSites < site && site ≤ Config.numSites + Config.numStacks then some (site - Config.numSites - 1) else none

/-- Counts an item in SENT of a tile, or of a home agent, for a job (R129). -/
def State.countSent (s : State) (site job n : Nat) : State :=
  match agentOf site with
  | some k => s.setAgent k { s.agent k with sent := SMap.bump (s.agent k).sent job n }
  | none => if site < Config.numSites then s.setTile site { s.tile site with sent := SMap.bump (s.tile site).sent job n } else s
/-- Counts an item in RECV of a tile, or of a home agent, for a job (R129). -/
def State.countRecv (s : State) (site job n : Nat) : State :=
  match agentOf site with
  | some k => s.setAgent k { s.agent k with recv := SMap.bump (s.agent k).recv job n }
  | none => if site < Config.numSites then s.setTile site { s.tile site with recv := SMap.bump (s.tile site).recv job n } else s

/-- Puts an item on its way; the order of issue is its number. -/
def State.emit (s : State) (i : Item) : State :=
  { s with net := s.net ++ [{ i with ord := s.ordCtr }], ordCtr := s.ordCtr + 1 }

/-- An item of a thread with the message id its sequence number gives it (R136), before its destination and contents are
filled in. -/
def State.item (s : State) (h seq : Nat) (release : Bool) (dst : Dest) (body : Body) : Item :=
  { src := h, act := (s.thread h).actNo, srank := s.srank h, job := s.jobOf h, part := s.partOfHart h, seq := seq, ceg := false, ord := 0,
    mid := msgId s.dev (s.srank h) seq, chan := s.chanOf h, release := release, cap := none, counted := true, fn := 16, stage := .waiting,
    dst := dst, body := body }

/-- The header of R135. -/
def mkHeader (sdev srank drank chan kind ninsn job ddev seq : Nat) : Header :=
  { sdev := sdev, srank := srank, drank := drank, chan := chan, kind := kind, ninsn := ninsn, job := job,
    ddev := ddev, ceg := false, seq := seq % 2 ^ 32 }

/-- A message whose filter domain is that of R137. -/
def mkMsg (h : Header) (payload : Vector Word 8) (cap : Option Cap) : Msg :=
  { hdr := h, payload := payload, cap := cap, dom := .item h.sdev h.srank h.ceg 4,
    mid := msgId h.sdev h.srank h.seq, arr := 0, slot := 0 }

/-- The header word 0 of R135. -/
def Header.word0 (h : Header) : Word :=
  BitVec.ofNat 64 (h.sdev * 2 ^ 52 + h.srank * 2 ^ 34 + h.drank * 2 ^ 16 + h.chan * 2 ^ 12 + h.kind * 2 ^ 8 + h.ninsn * 8)
/-- The header word 1 of R135. -/
def Header.word1 (h : Header) : Word :=
  BitVec.ofNat 64 (h.job * 2 ^ 48 + h.ddev * 2 ^ 36 + ofBool h.ceg * 2 ^ 32 + h.seq)
/-- The 80 bytes of a message (R135). -/
def Msg.bytes (m : Msg) : List Byte :=
  bytesOf 8 m.hdr.word0.toNat ++ bytesOf 8 m.hdr.word1.toNat ++ m.payload.toList.flatMap fun w => bytesOf 8 w.toNat
/-- The 80 bytes of a frame (R145, R319): its DDEV is the device it was spawned on, as in a message (R135). -/
def Frame.bytes (f : Frame) : List Byte :=
  bytesOf 8 (f.haddr.toNat % 2 ^ 48 + f.budlog * 2 ^ 48) ++ bytesOf 8 (f.job * 2 ^ 48 + f.sdev * 2 ^ 36 + f.seq % 2 ^ 32) ++
    f.payload.toList.flatMap fun w => bytesOf 8 w.toNat
/-- Eight little-endian words at a location. -/
def State.words8 (s : State) (k : Nat) : Vector Word 8 := Vector.ofFn fun i => BitVec.ofNat 64 (s.num (k + 8 * i.val) 8)

/-- The members of a group: ascending logical core numbers read from the group table (R111). -/
def State.group (s : State) (p g : Nat) : List Nat :=
  let e := s.num (kWindow p + 8 * g) 8
  (List.range (min (e % 2 ^ 16) 32768)).map fun i =>
    s.num (kWindow p + 2048 + 4 * ((bitsN e 63 32 + i) % 65024)) 4 % 2 ^ 15

/-- A message on its way to a logical core (R135, R316): counted once in SENT of the issuer's tile (R129). -/
def State.sendTo (s : State) (h : Nat) (m : Msg) (release : Bool) : State :=
  let i := s.item h m.hdr.seq release (.core (m.hdr.drank / 8)) (.message m)
  let dst : Dest := if s.devValid && m.hdr.ddev != s.dev then .device m.hdr.ddev else i.dst
  (s.countSent (siteOf h) i.job 1).emit { i with dst := dst, job := m.hdr.job }

/-! ### Integrity tags, the firn area and the log area of a buddy (R234-R236, R240, R241) -/

/-- First location of the firn area at a buddy (R234). -/
def kFirn (buddy : Nat) : Nat := kBonded buddy + 44 * 2 ^ 20
/-- First location of the log area at a buddy (R235). -/
def kLogArea (buddy : Nat) : Nat := kBonded buddy + 92 * 2 ^ 20
/-- Offset of the log area in the buddy's block. -/
def logAreaAt : Nat := 92 * 2 ^ 20
/-- Offset of the log ring in the log area (R235). -/
def ringAt : Nat := 0x130000
/-- Bytes of a log ring (R235). -/
def logRing : Nat := 2880 * 1024

/-- The integrity tag of an object at a buddy (R236): the first 64 bits of HMAC-SHA-256 over the ward's logical number, the
interval, the object's offset in the buddy's block, eight bytes each, and its contents (log 14, DESIGN CHOICE). -/
def State.tag (s : State) (ward ival off : Nat) (bs : List Byte) : List Byte :=
  (hmac256 s.tagKey (bytesOf 8 ward ++ bytesOf 8 ival ++ bytesOf 8 off ++ bs)).take 8

/-- Bytes of the firn and log areas. -/
def State.firnBytes (s : State) (k n : Nat) : List Byte := Memory.readN s.firnMem k n
/-- Writes bytes of the firn and log areas. -/
def State.putFirn (s : State) (k : Nat) (bs : List Byte) : State := { s with firnMem := Memory.writeN s.firnMem k bs }
/-- A buddy's firn and log areas are empty (R21). -/
def State.emptyFirn (s : State) (buddy : Nat) : State := { s with firnMem := Memory.clear s.firnMem (kFirn buddy) (52 * 2 ^ 20) }

/-- Whether a record is one of R241, with its place in the ring. Types 10 and up are notes of the model's own: a launch message
that a recovered control tile sends again (R107, log 61, DEDUCED), and frames that came or went without a record of R241
(log 34, DEDUCED). -/
def LogRec.inRing (r : LogRec) : Bool := decide (r.typ < 10)

/-- Bytes of a record in the log ring (R241). -/
def LogRec.bytes (r : LogRec) : Nat := if r.inRing then 16 + r.size else 0

/-- The 80 bytes of an item as carried (R135, R145, R241); the spec gives them for messages and frames. -/
def Item.bytes (i : Item) : List Byte :=
  match i.body with
  | .message m => m.bytes
  | .frame f _ => f.bytes
  | _ => (List.range 80).map (Config.itemByte i.srank i.seq)

/-- The body of a record: its words, of four bytes each in TYPE 6, then the item of a TYPE 1 or 5, filled up with zeros to its
length (R241). -/
def LogRec.content (r : LogRec) : List Byte :=
  let words := r.body.flatMap fun w => bytesOf (if r.typ = 6 then 4 else 8) w.toNat
  let item := match r.item with | some i => (if r.typ = 1 || r.typ = 5 then i.bytes else []) | none => []
  (words ++ item ++ List.replicate r.size 0).take r.size

/-- Bytes 0-7 of a record's header (R241). -/
def LogRec.head (r : LogRec) : List Byte := bytesOf 1 r.typ ++ bytesOf 1 0 ++ bytesOf 2 r.size ++ bytesOf 4 r.qn

/-- The ring offset `n` bytes on; the ring wraps at its end (R235, log 93, DEDUCED). -/
def ringNext (off n : Nat) : Nat := (off + n) % logRing

/-- Writes bytes at a ring offset. -/
def State.putRing (s : State) (buddy off : Nat) (bs : List Byte) : State :=
  let at_ (o : Nat) : Nat := kLogArea buddy + ringAt + o
  let room := logRing - off
  (s.putFirn (at_ off) (bs.take room)).putFirn (at_ 0) (bs.drop room)

/-- Bytes from a ring offset on. -/
def State.ringBytes (s : State) (buddy off n : Nat) : List Byte :=
  let at_ (o : Nat) : Nat := kLogArea buddy + ringAt + o
  let room := logRing - off
  s.firnBytes (at_ off) (min n room) ++ s.firnBytes (at_ 0) (n - room)

/-- Writes a record with its tag into the ring at the buddy (R235, R236, R240). -/
def State.ringRecord (s : State) (site buddy : Nat) (r : LogRec) : State :=
  let t := s.tile site
  if r.inRing then
    let tag := s.tag (t.rank.getD 0) t.ival (logAreaAt + ringAt + t.logHead) (r.head ++ r.content)
    s.putRing buddy t.logHead (r.head ++ tag ++ r.content)
  else s

/-- QN of a record that a tile logs now (R241): the quanta since its interval mark at whose end it is served. -/
def State.logQn (s : State) (site : Nat) : Nat :=
  let p := (s.partOfSite site).getD 0
  if s.det p then s.quantaAt site p + 1 - (s.tile site).markQ else 0

/-- The tags of a tile's engine commands that have not ended: those of its matrix engine, and those of its copy channels. -/
def Tile.openTags (t : Tile) : List Nat × List Nat :=
  (t.mqueue.map (·.tag) ++ (t.mrun.map (·.cmd.tag)).toList, t.xfers.toList.filterMap fun x => x.map (·.tag))

/-- The number of instructions that stands for an activation that has ended. -/
def endedAct : Nat := 2 ^ 32

/-- How far a tile's threads and engines have got: for each thread the number of its activation and the instructions retired in it,
as threads 32 to 35 the last tags and the open tags of the engines (log 34, DEDUCED). -/
def State.progress (s : State) (site : Nat) : List (Nat × Nat × Nat) :=
  let t := s.tile site
  (s.threads.filterMap fun x =>
    if siteOf x.1 = site && x.2.actNo ≠ 0 then
      some (x.1 % 32, x.2.actNo, if x.2.act.isSome then x.2.retired else endedAct)
    else none) ++
  [(32, t.mtag, 0), (33, t.ctag, 0)] ++ t.openTags.1.map (fun n => (34, n, 0)) ++ t.openTags.2.map fun n => (35, n, 0)

/-- Whether a thread waits for something that only the log, or another tile, can give it. -/
def ThreadStatus.stopped : ThreadStatus → Bool
  | .blocked .response | .blocked .spawn | .parked => true
  | _ => false

/-- Whether a tile that replays its log has come to where it was when a record was made (R244, log 34, DEDUCED): a thread has ended the
activation, has retired as many instructions in it, or cannot go on; an engine has ended every command that it had ended then. -/
def State.caughtUp (s : State) (site : Nat) (seen : List (Nat × Nat × Nat)) : Bool :=
  let t := s.tile site
  let ended (last openAt : Nat) (now : List Nat) : Bool :=
    seen.all fun l => l.1 != last || now.all fun n => l.2.1 < n || seen.any fun o => o.1 == openAt && o.2.1 == n
  (seen.all fun x => 32 ≤ x.1 ||
    let h := s.thread (site * 32 + x.1)
    x.2.1 < h.actNo || (h.actNo == x.2.1 && (h.act.isNone || x.2.2 ≤ h.retired || h.status.stopped))) &&
  ended 32 34 t.openTags.1 && ended 33 35 t.openTags.2

/-- Whether a thread of a tile that replays its log has come to where it was when the first record that looks for that was made, and
waits until it has been run (R244, log 34, DEDUCED). -/
def State.replayHeld (s : State) (h : Nat) : Bool :=
  let t := s.thread h
  (s.tile (siteOf h)).replaying && t.act.isSome &&
    match (s.tile (siteOf h)).replay.find? fun r => !r.seen.isEmpty with
    | some r => !r.seen.any fun x => x.1 == h % 32 && (t.actNo < x.2.1 || (t.actNo == x.2.1 && t.retired < x.2.2))
    | none => false

/-- Appends a record to a protected tile's message log, with its QN (R240, R241). A tile without a buddy has no log (R21); one
that replays its log has these records in it already (R243). -/
def State.logRec (s : State) (site : Nat) (r : LogRec) : State :=
  let t := s.tile site
  match t.buddy with
  | some b =>
    if t.prot && !t.replaying then
      let det := s.det ((s.partOfSite site).getD 0)
      let r := { r with qn := s.logQn site, seen := if r.typ = 1 && !det then s.progress site else [] }
      (s.ringRecord site b r).setTile site { t with
        log := t.log ++ [r], logBytes := t.logBytes + r.bytes, logHead := ringNext t.logHead r.bytes }
    else s
  | none => s

/-- Whether a protected tile's log ring has no room for a record that one of its own threads or queues would make (R240). -/
def Tile.ringFull (t : Tile) : Bool := t.prot && decide (logRing < t.logBytes + 4128)

/-- Logs the answer to an operation of a thread on its own memory, which is a returning operation too (R218, R241, R333). -/
def State.logAnswer (s : State) (i : Item) (v : Word) : State :=
  let body : Body := .response 0 0 false { value := v, data := [] } 0
  s.logRec (siteOf i.src) { typ := 2, qn := 0, body := [i.mid, 0, v], item := some { i with body := body }, size := 80 }

/-- Appends a record of a type, with its body's words, its item and the length of its body. -/
def State.log (s : State) (site typ : Nat) (body : List Word) (m : Option Item) (size : Nat) : State :=
  s.logRec site { typ := typ, qn := 0, body := body, item := m, size := size }

/-- The interval that the header at a buddy names, if COMMIT matches IVAL (R235). -/
def State.headIval (s : State) (buddy : Nat) : Option Nat :=
  let head := s.firnBytes (kLogArea buddy) 16
  let n := ofBytes (head.take 8)
  if 1 ≤ n && ofBytes (head.drop 8) == 0x4649524E * 2 ^ 32 + n % 2 ^ 32 then some n else none

/-- Whether the tag of the header at a buddy holds for a ward and an interval (R235, R236). -/
def State.headTagged (s : State) (ward buddy ival : Nat) : Bool :=
  s.firnBytes (kLogArea buddy + 24) 8 == s.tag ward ival logAreaAt (s.firnBytes (kLogArea buddy) 24)

/-- The interval of a ward's firn copy, if the header at its buddy marks it valid: COMMIT matches IVAL, and the tag holds
(R235). -/
def State.firnIval (s : State) (ward buddy : Nat) : Option Nat := (s.headIval buddy).filter (s.headTagged ward buddy)

/-- Whether a firn copy is invalid for the tag of its header (R235, R246). -/
def State.headerTagFails (s : State) (ward buddy : Nat) : Bool := (s.headIval buddy).any fun n => !s.headTagged ward buddy n

/-- The committed state image of a logical tile, at its buddy (R235). -/
def State.firnOf (s : State) (ward : Nat) : Option Firn :=
  match (s.siteOfRank ward).bind fun x => (s.tile x).buddy with
  | none => none
  | some b => (s.firnIval ward b).bind fun n => s.firns.find? fun f => f.ward == ward && f.ival == n

/-- What a tile that replays its log does with an access whose value the log holds (R243): nothing special on a tile
that does not replay, the logged value once its record is reached, else it waits. -/
inductive Replayed where
  | live
  | value (v : Word) (s : State)
  | wait
  deriving DecidableEq, Repr

/-- The replay of a cycle read or a local atomic on the current tile, with its ordinal (R241, R243). The records of a
deterministic partition are found by activation and ordinal: other threads' records do not hold them back. An access that
the log does not hold waits for the end of the replay, so that it is logged. -/
def State.replayed (s : State) (typ ordinal : Nat) : Replayed :=
  let t := s.tile s.site
  let mine (r : LogRec) : Bool :=
    r.typ == typ && r.body.getD 0 0 == s.midOf s.cur && r.body.getD 1 0 == BitVec.ofNat 64 ordinal
  if !t.replaying then .live
  else if s.det (s.partOfHart s.cur) then
    match t.replay.find? mine with
    | some r => .value (r.body.getD 2 0) (s.setTile s.site { t with replay := t.replay.erase r })
    | none => .wait
  else match t.replay with
    | r :: rest => if mine r then .value (r.body.getD 2 0) (s.setTile s.site { t with replay := rest }) else .wait
    | [] => .wait

/-! ### Event rings and error reports (R82, R106, R143, R193) -/

/-- The host sees a write of its memory, on the function it travels on (R70). -/
def State.sawHost (s : State) (fn at_ n : Nat) : State := { s with outs := s.outs ++ [.hostWrite fn at_ n] }

/-- Writes one 32-byte record to an event ring in host memory, or counts it lost (R106); on the PF (R70). -/
def State.ringWrite (s : State) (r : EventRing) (record : List Byte) : EventRing × State :=
  let b := kHost r.base
  if (r.count + 2 ^ 64 - s.num (b + 8) 8) % 2 ^ 64 = 2 ^ r.sizelog then
    (r, (s.putNum (b + 16) 8 ((s.num (b + 16) 8 + 1) % 2 ^ 64)).sawHost 16 (r.base + 16) 8)
  else
    let at_ := 64 + 32 * (r.count % 2 ^ r.sizelog)
    let s := (s.putMem (b + at_) record).sawHost 16 (r.base + at_) 32
    let s := (s.putNum b 8 (r.count + 1)).sawHost 16 r.base 8
    ({ r with count := r.count + 1 }, { s with outs := s.outs ++ [.msix 16 r.vector] })

/-- Writes a 32-byte record with a SEQ of its own to the ring of a partition (R65, R82). -/
def State.recordOwn (s : State) (p : Nat) (b32 : List Byte) : State :=
  match (s.part p).ring with
  | some r =>
    let (r, s) := s.ringWrite r b32
    s.setPart p { s.part p with ring := some r }
  | none => s

/-- Forms an event record of a partition: 24 bytes and the next SEQ (R106); with no ring it is dropped (log 15, DEDUCED). -/
def State.record (s : State) (p : Nat) (b24 : List Byte) : State :=
  if p = 0 then
    let q := s.ev0Seq + 1
    match s.ring0 with
    | some r =>
      let (r, s) := s.ringWrite r (b24 ++ bytesOf 8 q)
      { s with ring0 := some r, ev0Seq := q }
    | none => { s with ev0Seq := q }
  else
    let q := (s.part p).evSeq + 1
    match (s.part p).ring with
    | some r =>
      let (r, s) := s.ringWrite r (b24 ++ bytesOf 8 q)
      s.setPart p { s.part p with ring := some r, evSeq := q }
    | none => s.setPart p { s.part p with evSeq := q }

/-- A kind 5 record (R143). -/
def State.record5 (s : State) (p cause job : Nat) (mid : Word) : State :=
  s.record p (bytesOf 2 5 ++ bytesOf 2 cause ++ bytesOf 4 p ++ bytesOf 8 mid.toNat ++ bytesOf 2 job ++ bytesOf 6 0)

/-- A kind 6 record (R193). -/
def State.record6 (s : State) (p cause : Nat) (mid : Word) (a : Nat) : State :=
  s.record p (bytesOf 2 6 ++ bytesOf 2 cause ++ bytesOf 4 p ++ bytesOf 8 mid.toNat ++ bytesOf 8 (a % 2 ^ 56))

/-- What an error report says (R143); `act` tells apart reports that say the same of different events. -/
structure Report where
  part  : Nat
  job   : Nat
  mid   : Word
  cause : Nat
  a2    : Word
  rank  : Nat
  chan  : Nat
  a4    : Word
  act   : Nat := 0
  deriving DecidableEq, Repr

/-- The domain of a report in the duplicate filter: one that a replayed tile forms again is about the same (R137, R243, log 84,
DEDUCED). -/
def Report.domain (r : Report) : Domain :=
  .engine r.rank (((r.act * 2 ^ 64 + r.mid.toNat) * 64 + r.cause) * 2 ^ 64 + r.a2.toNat) 7

/-- The job entry of a partition. -/
def Partition.job (p : Partition) (j : Nat) : Option Job := p.jobs.find? (·.num == j)

/-- Forms an error report at a site (R143): a kind 5 message to channel 15 of the job's error core, or the kind 5
record that replaces it. Its SEQ is not stated by the spec: a free value that depends on what the report says (log 6, DESIGN CHOICE). -/
def State.report (s : State) (site : Nat) (r : Report) : State :=
  let s := s.countSent site r.job 1
  let core := (((s.part r.part).job r.job).bind (·.errCore)).bind fun c =>
    if (s.coreKey r.part c).isSome then some c else none
  match core with
  | some c =>
    let h := mkHeader s.dev r.rank (c * 8) 15 5 0 r.job s.dev (Config.itemSeq r.rank r.mid.toNat r.cause)
    let pl : Vector Word 8 := #v[r.mid, BitVec.ofNat 64 r.cause, r.a2, BitVec.ofNat 64 (r.rank + r.chan * 2 ^ 32), r.a4, 0, 0, 0]
    s.emit { s.item (site * 32) h.seq false (.core c) (.message { mkMsg h pl none with dom := r.domain }) with
      srank := r.rank, job := r.job, part := r.part, mid := r.mid }
  | none => (s.record5 r.part r.cause r.job r.mid).countRecv site r.job 1

/-! ### Ending an activation; taking an exception and returning from one -/

/-- A thread whose activation has ended (R133, R134, R223): free, nothing kept but its sequence counter and its
machine CSRs; its registers hold free values until the next start (log 6, DESIGN CHOICE). -/
def Thread.release (t : Thread) (ctr : Nat) : Thread :=
  { Thread.init with
    x := Vector.ofFn fun i => if i.val = 0 then 0 else Config.freeWord (ctr + i.val)
    v := Vector.ofFn fun i => (BitVec.ofNat 512 (Config.freeWord (ctr + 32 + i.val)).toNat)
    m := Vector.ofFn fun i => Config.freeWord (ctr + 48 + i.val)
    pc := Config.freeWord (ctr + 52) &&& ~~~3#64
    seq := t.seq, actNo := t.actNo, mtvec := t.mtvec, mscratch := t.mscratch, mepc := t.mepc, mcause := t.mcause, mtval := t.mtval,
    qret := t.qret, qdone := true }

/-- Frees a thread's slot. -/
def State.freeThread (s : State) (h : Nat) : State :=
  { s.setThread h ((s.thread h).release s.freeCtr) with freeCtr := s.freeCtr + 53 }

/-- The channel of a core. -/
def Core.chan (c : Core) (k : Nat) : Channel := vget { queue := [], spill := [] } c.channels k
/-- Sets a channel of a core. -/
def Core.setChan (c : Core) (k : Nat) (x : Channel) : Core := { c with channels := vset c.channels k x }
/-- The handler entry of a channel. -/
def Core.handler (c : Core) (k : Nat) : Handler := vget Handler.init c.handlers k

/-- Takes the mark of a running message off its queue entry: it waits again in arrival order (R224). -/
def Channel.unmark (c : Channel) (arr : Nat) : Channel :=
  { c with queue := c.queue.map fun e => if e.2 && e.1.arr == arr then (e.1, false) else e }

/-- Abort of a thread's activation (R223-R225): held sends go, the message returns to the head of its channel and
EN is cleared, a frame is discarded, and the job gets an error report. Writes the activation has issued, its atomics
among them, complete; a spawn whose answer is outstanding uses its number up (log 30, DEDUCED). -/
def State.abort (s : State) (h cause : Nat) (a : Word) : State :=
  let t := s.thread h
  match t.act with
  | none => s
  | some act =>
    let a2 := if 8 ≤ cause && cause ≤ 11 then t.haddr else a
    let s := if t.status == .blocked .spawn then s.setThread h { t with seq := t.seq + 1 } else s
    let s := s.freeThread h
    let c := s.core (coreOf h)
    let s := match act.origin with
      | .msg m =>
        let hd := c.handler act.chan
        s.setCore (coreOf h) { (c.setChan act.chan ((c.chan act.chan).unmark m.arr)) with
          handlers := vset c.handlers act.chan { hd with en := false } }
      | .frame _ => s
    let s := { s with net := s.net.filter fun i => !(i.src == h && (match i.body with
      | .ret (.read _) | .ret (.ldf _) | .ret (.waitgen ..) | .ret (.eqstat _) => true
      | .ret (.ldfe _) => (match i.dst with | .site _ => true | _ => false)
      | _ => false)) }
    s.report (siteOf h)
      { part := act.part, job := act.job, mid := act.mid, cause := cause, a2 := a2, rank := s.srank h,
        chan := act.chan, a4 := 0, act := 1 + t.actNo * 32 + h % 32 }

/-- Where a cause arose, as R390 tells the causes apart. -/
inductive Site where
  | jump | fetch | load | store | other
  deriving DecidableEq, Repr

/-- The mcause code of R390; a combination its table does not list takes the code its cause has as a whole, or 24
(log 16, DEDUCED). -/
def mcauseCode (cause : Nat) : Site → Nat
  | .jump => 0
  | .fetch => if cause = 1 then 2 else 1
  | .load => if cause = 13 then 4 else if cause = 12 || cause = 7 then 24 else 5
  | .store => if cause = 13 then 6 else if cause = 12 || cause = 7 then 24 else 7
  | .other => if cause = 1 then 2 else if cause = 22 then 3 else if cause = 21 then 11 else 24

/-- Machine trap entry (R390): mepc, mcause and mtval are written and the pc goes to mtvec. -/
def Thread.trap (t : Thread) (cause : Nat) (at_ : Site) (val : Word) : Thread :=
  { t with
    mepc := t.pc &&& ~~~3#64
    mcause := BitVec.ofNat 64 (cause * 256 + mcauseCode cause at_)
    mtval := val
    pc := t.mtvec &&& ~~~3#64
    resp := none, beat := 0, rows := []
    status := .running }

/-- Taking an exception at the current thread (R223, R390): at U the activation is aborted, at M the machine trap is
taken. `addr` is the address involved, `mval` what mtval gets. -/
def State.raise (s : State) (cause : Nat) (at_ : Site) (addr mval : Word) : State :=
  match s.me.priv with
  | .U => s.abort s.cur cause addr
  | .M => s.setMe (s.me.trap cause at_ mval)

/-- The response to a thread's returning operation raises an exception there (R218, R390). -/
def State.raiseAt (s : State) (h cause : Nat) (a : Word) : State :=
  { ({ s with cur := h }).raise cause .load a a with cur := s.cur }

/-- The address that an error names: a budget overrun and an operand error name none (R143, R390). -/
def errAddr (cause : Nat) (addr : Word) : Word := if cause = 7 ∨ cause = 12 then 0 else addr

/-- An exception as the answer of a meaning (R223, R390). -/
def raiseOut (s : State) (cause : Nat) (at_ : Site) (addr : Word) : Out :=
  .next (s.raise cause at_ (errAddr cause addr) (match at_ with | .other => 0 | _ => errAddr cause addr))

/-- Operand error (R314). -/
def operandError (s : State) : Out := raiseOut s 12 .other 0

/-- The illegal-instruction error with the offending word (R217, R390). -/
def illegalOut (s : State) (word : Word) : Out := .next (s.raise 1 .other 0 word)

/-! ### Retiring an instruction (R294, R308, R311, R123, R126) -/

/-- The loop test of R308 on a thread whose own effects are done: the next pc and the loop count. -/
def loopTest (t : Thread) (next : Word) (jump : Bool) : Word × Word :=
  if jump then
    if t.lpcount != 0 && (next.toNat < t.lpstart.toNat || t.lpend.toNat < next.toNat) then (next, 0)
    else (next, t.lpcount)
  else if t.pc = t.lpend then
    if 1 < t.lpcount.toNat then (t.lpstart, t.lpcount - 1)
    else if t.lpcount = 1 then (next, 0)
    else (next, t.lpcount)
  else (next, t.lpcount)

/-- The current thread retires: the loop test, the pc, the retired counts, and in deterministic mode the budget. -/
def State.retireTo (s : State) (next : Word) (jump : Bool) : State :=
  let t := s.me
  let (n, c) := loopTest t next jump
  let b := if s.det (s.partOfHart s.cur) && t.priv == .U && t.budget != 0 then t.budget - 1 else t.budget
  { s.setMe { t with pc := n, lpcount := c, retired := t.retired + 1, qret := t.qret + 1, budget := b,
                     resp := none, status := .running } with
    instrs := SMap.bump s.instrs s.site 1 }

/-- The current thread retires to the next word. -/
def State.retire (s : State) : State := s.retireTo (s.me.pc + 4) false

/-- A meaning that only writes a register and goes on. -/
def writeReg (s : State) (rd : Reg) (v : Word) : Out := .next ((s.wx rd v).retire)

/-- The current thread waits and issues again at a later turn (R118). -/
def blockOn (s : State) (w : Wait) : Out := .next (s.setMe { s.me with status := .blocked w })

/-- Return from a machine trap (R392): the thread goes on at mepc and stays at M. -/
def State.mret (s : State) : State := s.retireTo s.me.mepc false

end Sys2Proof.Machine
end

