-- ==== Sys2Proof/Machine/Home.lean ====
section
/-!
DEFINITION. What happens at a home: translation (R181-R185), admission of writes (R188-R193), and the loads, stores,
atomics, joins and arrival updates it performs (R148, R194, R195, R209, R326, R327).
-/

namespace Sys2Proof.Machine

/-! ### Translation -/

/-- The home of a translated address (R181). -/
def homeOf (va : Nat) : Dest := if segOf va = 1 then .tile (bitsN va 44 32) else .stack (bitsN va 55 16 % 48)

/-- The site of a tile home, for an address whose rank is a ranked tile of the partition (R181). -/
def State.homeSite (s : State) (p va : Nat) : Option Nat :=
  ((s.partTiles p).find? fun b => b.1 == bitsN va 44 32).map (·.2)

/-- Levels of the page table: number, lowest index bit, index bits (R183). -/
def ptLevels : List (Nat × Nat × Nat) := [(4, 48, 8), (3, 39, 9), (2, 30, 9), (1, 21, 9), (0, 16, 5)]

/-- Whether the reserved bits of a page-table entry are clear (R184). -/
def pteClean (e : Nat) : Bool := bitsN e 7 5 == 0 && bitsN e 2 1 == 0

/-- The checks of R182 and R184 on a leaf that maps a page of 2^lo bytes: `home` is the tile's site for a tile-homed
page. -/
def State.leafOk (s : State) (home : Option Nat) (va e lo : Nat) : Bool :=
  let size := 2 ^ lo
  let frame := bitsN e 47 8 * 256
  frame % size == 0 &&
  match home with
  | some site =>
    if bitsN e 3 3 = 0 then frame + size ≤ Config.sysArea else frame + size ≤ (s.tile site).usable * 2 ^ 20
  | none =>
    bitsN e 3 3 == 0 && frame + size ≤ Config.hbmBytes && frame / 2 ^ 16 % 48 == (va / size * size) / 2 ^ 16 % 48

/-- The walk of R183-R185 from a node down: the leaf entry and the page's low bit, or cause 8, 10 or 11. A pointer
outside the HBM and a level-0 entry without LEAF are translation errors (log 17, DEDUCED). -/
def State.walk (s : State) (home : Option Nat) (va : Nat) : List (Nat × Nat × Nat) → Nat → Except Nat (Nat × Nat)
  | [], _ => .error 10
  | (lvl, lo, n) :: rest, node =>
    let a := node + 8 * bitsN va (lo + n - 1) lo
    if Config.hbmBytes < a + 8 then .error 10
    else if s.poisoned a 8 then .error 11
    else
      let e := s.num a 8
      if e % 2 = 0 then .error 8
      else if !pteClean e then .error 10
      else if bitsN e 4 4 = 1 then
        if 3 ≤ lvl then .error 10
        else if s.leafOk home va e lo then .ok (e, lo) else .error 10
      else if bitsN e 3 3 = 1 then .error 10
      else s.walk home va rest (bitsN e 47 8 * 256)

/-- The two words of a region table entry (R180, R188). -/
def State.region (s : State) (p rid : Nat) : Nat × Nat :=
  (s.num (kWindow p + 0x100000 + 16 * rid) 8, s.num (kWindow p + 0x100008 + 16 * rid) 8)

/-- The cached translations of a home. -/
def State.tlbOf (s : State) (home : Option Nat) (va : Nat) : List TlbEntry :=
  match home with
  | some site => (s.tile site).tlb
  | none => (s.agent (bitsN va 55 16 % 48)).tlb

/-- Caches a translation, the oldest leaving a full cache (R185, log 18, DESIGN CHOICE). -/
def State.cache (s : State) (home : Option Nat) (va : Nat) (e : TlbEntry) : State :=
  match home with
  | some site => s.setTile site { s.tile site with tlb := (e :: (s.tile site).tlb).take 512 }
  | none =>
    let k := bitsN va 55 16 % 48
    s.setAgent k { s.agent k with tlb := (e :: (s.agent k).tlb).take 8192 }

/-- The translation of an address at its home: from the cache, else by a walk that fills it (R185). -/
def State.translate (s : State) (p va : Nat) : Except Nat TlbEntry × State :=
  if segOf va = 1 && bitsN va 47 45 ≠ 0 then (.error 2, s)
  else if segOf va = 1 && (s.homeSite p va).isNone then (.error 14, s)
  else
    let home := if segOf va = 1 then s.homeSite p va else none
    match (s.tlbOf home va).find? fun e => e.part == p && e.page ≤ va && va < e.page + e.size with
    | some e => (.ok e, s)
    | none =>
      let root := s.num (kWindow p + 0x40000) 8
      if root = 0 then (.error 10, s)
      else match s.walk home va ptLevels root with
        | .error c => (.error c, s)
        | .ok (leaf, lo) =>
          let w := s.region p (bitsN leaf 63 48)
          let e : TlbEntry :=
            { part := p, page := va / 2 ^ lo * 2 ^ lo, size := 2 ^ lo, leaf := BitVec.ofNat 64 leaf,
              w0 := BitVec.ofNat 64 w.1, w1 := BitVec.ofNat 64 w.2 }
          (.ok e, s.cache home va e)

/-- The location a translated address names (R174, R184). -/
def State.entryKey (s : State) (p : Nat) (e : TlbEntry) (va : Nat) : Nat :=
  let off := bitsN e.leaf.toNat 47 8 * 256 + (va - e.page)
  if segOf va = 1 then
    let site := (s.homeSite p va).getD 0
    if e.leaf.getLsbD 3 then
      match (s.tile site).home with
      | some h => kBonded h + (s.tile site).homePart * (44 * 2 ^ 20) + off
      | none => kBonded site + off
    else kScratch site + off
  else off

/-- Drops the cached translations a predicate picks, at every home (R180, R185, R188, R384). -/
def State.dropTlb (s : State) (f : TlbEntry → Bool) : State :=
  { s with
    tiles := s.tiles.map fun t => (t.1, { t.2 with tlb := t.2.tlb.filter fun e => !f e })
    homes := s.homes.map fun a => (a.1, { a.2 with tlb := a.2.tlb.filter fun e => !f e }) }

/-! ### Admission (R188-R193) -/

/-- The kinds of write R189 tells apart. -/
inductive WKind where
  | store | atomic
  deriving DecidableEq, Repr

/-- Whether a home admits a write: none, or the cause of the refusal (R188, R189, R191, R193). -/
def TlbEntry.grants (e : TlbEntry) (k : WKind) (cap : Option (Nat × Nat)) : Option Nat :=
  let rid := bitsN e.leaf.toNat 63 48
  let mode := if rid = 0 then 3 else bitsN e.w1.toNat 1 0
  match mode with
  | 1 => if cap = some (rid, bitsN e.w1.toNat 63 48) then none else some 3
  | 2 => if k = .atomic then none else some 2
  | _ => some 2

/-- Whether a capability's range holds an address (R190, R191). -/
def Cap.holds (c : Cap) (va : Nat) : Bool := c.base ≤ va && va < c.base + 2 ^ c.szlog

/-- The RID and GEN a translated write carries: the lowest-numbered slot of the core that holds its first byte
(R191). -/
def attach (caps : List Cap) (va : Nat) : Option (Nat × Nat) :=
  (caps.find? fun c => c.holds va).map fun c => (c.rid, c.gen)

/-- The valid slots of a core, lowest first. -/
def Core.slots (c : Core) : List Cap := c.caps.toList.filterMap id

/-- What a home makes of an access. -/
inductive HomeAns where
  | ok (key : Nat)
  | bad (cause : Nat)
  deriving DecidableEq, Repr

/-- Resolves an access within one page at its home: the location, or cause 8 (missing), 10, 11, 14, or the refusal
of a write. -/
def State.resolve (s : State) (p va : Nat) (w : Option WKind) (cap : Option (Nat × Nat)) : HomeAns × State :=
  match s.translate p va with
  | (.error c, s) => (.bad c, s)
  | (.ok e, s) =>
    match w.bind fun k => e.grants k cap with
    | some c => (.bad c, s)
    | none => (.ok (s.entryKey p e va), s)

/-- Pieces of a range that lie in one 64 KiB page each. -/
def pagePieces : Nat → Nat → Nat → List (Nat × Nat)
  | 0, _, _ => []
  | fuel + 1, a, n =>
    let room := 65536 - a % 65536
    if n = 0 then [] else if n ≤ room then [(a, n)] else (a, room) :: pagePieces fuel (a + room) (n - room)

/-- Pieces of a range within 64 KiB pages. -/
def pieces (a n : Nat) : List (Nat × Nat) := pagePieces (n / 65536 + 2) a n

/-- Reads a list of ranges: the bytes, or the cause and the address of the first that fails (R185, R199, R218). -/
def State.readAll (s : State) (p : Nat) : List (Nat × Nat) → Except (Nat × Nat) (List Byte) × State
  | [] => (.ok [], s)
  | (a, n) :: rest =>
    match s.resolve p a none none with
    | (.bad c, s) => (.error (c, a), s)
    | (.ok k, s) =>
      if s.poisoned k n then (.error (11, a), s)
      else match s.readAll p rest with
        | (.ok bs, s) => (.ok (s.bytes k n ++ bs), s)
        | (.error e, s) => (.error e, s)

/-- Whether two ranges of locations meet. -/
def meets (k n k' n' : Nat) : Bool := decide (k < k' + n') && decide (k' < k + n)

/-- Whether an item stores to these bytes by their location: an orphan's store to its home, or an STF that waits for its release
(R176, R326). -/
def Item.storesAt (k n : Nat) (i : Item) : Bool :=
  match i.dst, i.body with
  | .site _, .store a bs _ => meets k n a bs.length
  | _, _ => false

/-- Whether an item is a translated store to these bytes of a tile's memory (R206). -/
def State.farStore (s : State) (k n : Nat) (i : Item) : Bool :=
  match i.dst, i.body with
  | .site _, _ => false
  | _, .store a bs _ =>
    match (s.translate i.part a).1 with
    | .ok e => segOf a == 1 && meets k n (s.entryKey i.part e a) bs.length
    | .error _ => false
  | _, _ => false

/-- Whether a thread has a store to these bytes of its own memory on its way, so that a later local access of it waits (R176, R206,
R326). -/
def State.pendingLocal (s : State) (h k n : Nat) : Bool :=
  s.net.any fun i => i.src == h && (i.storesAt k n || s.farStore k n i)

/-! ### Read-modify-writes -/

/-- The function of an atomic on w bits (R327). -/
def amoF (op : AmoOp) (w old v : Nat) : Nat :=
  match op with
  | .add => (old + v) % 2 ^ w
  | .and => old &&& v
  | .or => old ||| v
  | .xor => old ^^^ v
  | .min => if sval w v < sval w old then v else old
  | .max => if sval w old < sval w v then v else old
  | .minu => min old v
  | .maxu => max old v
  | .swap => v
  | .cas => v
  | .fadd =>
    if w = 32 then addF32 old v
    else addF32 (old % 2 ^ 32) (v % 2 ^ 32) + addF32 (old / 2 ^ 32) (v / 2 ^ 32) * 2 ^ 32

/-- Performs an atomic of `w` bytes at a location: the old value, and memory after it (R209, R327). -/
def State.amo (s : State) (op : AmoOp) (k w v c : Nat) : Nat × State :=
  let old := s.num k w
  if op = .cas && old ≠ c then (old, s) else (old, s.putNum k w (amoF op (8 * w) old v))

/-- Who a message formed at a home speaks for: the thread whose operation formed it (R148, R169, R195). -/
structure Sender where
  site : Nat
  home : Dest
  hart : Nat
  rank : Nat
  job  : Nat
  part : Nat
  seq  : Nat
  mid  : Word
  deriving DecidableEq, Repr

/-- The number that stands for a home in a filter domain: a tile's logical number, which stays when the tile moves (R243, R320). -/
def State.homeId (s : State) : Dest → Nat
  | .site x => (s.rankOf x).getD (2 * Config.numSites + x)
  | .stack k => 4 * Config.numSites + k
  | _ => 0

/-- The number of a home among the sites: its own, or that of a stack's home agent. -/
def homeSiteNo : Dest → Nat
  | .site x => x
  | .stack k => stackSite k
  | _ => Config.numSites

/-- Counts in SENT at a home (R129). -/
def State.sentAt (s : State) (home : Dest) (job : Nat) : State := s.countSent (homeSiteNo home) job 1

/-- Counts in RECV at a home (R129). -/
def State.recvAt (s : State) (home : Dest) (job : Nat) : State := s.countRecv (homeSiteNo home) job 1

/-- A message that a home sends for a thread's operation, in the filter domain of R320. The home keeps it until it is
acknowledged (R240). -/
def State.homeMsg (s : State) (w : Sender) (kind drank chan : Nat) (pl : Vector Word 8) : State :=
  let h := mkHeader s.dev w.rank drank chan kind 0 w.job s.dev w.seq
  let m := { mkMsg h pl none with dom := .home (s.homeId w.home) s.dev w.rank }
  let i := s.item w.hart w.seq false (.core (drank / 8)) (.message m)
  (s.sentAt w.home w.job).emit { i with srank := w.rank, job := w.job, part := w.part, mid := w.mid, src := homeSiteNo w.home * 32 }

/-- JOINDEC at the record's home (R148, R320): the returned value. -/
def State.join (s : State) (k : Nat) (w : Sender) : Word × State :=
  let word := s.num k 8
  let count := word % 2 ^ 32
  if count = 0 then (BitVec.allOnes 64, s)
  else
    let s' := s.putNum k 8 (word - 1)
    if count = 1 then
      (0, s'.homeMsg w 0 (bitsN word 49 32) (bitsN word 53 50) (s.words8 (k + 64)))
    else (BitVec.ofNat 64 (count - 1), s')

/-- The message of an arrival record whose generation advances (R195). The spec gives it no SEQ: the header's is a free
value of its own (log 6, DESIGN CHOICE), and the receiver identifies it by the transfer's tag, which stands in `w.seq` (R377). -/
def State.arriveMsg (s : State) (w : Sender) (drank chan : Nat) (pl : Vector Word 8) : State :=
  let h := mkHeader s.dev w.rank drank chan 3 0 w.job s.dev (Config.itemSeq w.rank w.seq 3)
  let m := { mkMsg h pl none with dom := .engine (w.rank / 32) w.seq 5 }
  let i := s.item w.hart 0 false (.core (drank / 8)) (.message m)
  (s.sentAt w.home w.job).emit
    { i with srank := w.rank, job := w.job, part := w.part, mid := m.mid, src := homeSiteNo w.home * 32 }

/-- The update of an arrival word by a transfer of `len` bytes (R195). -/
def State.arrive (s : State) (k len : Nat) (w : Sender) : State :=
  let word := s.num k 8
  let target := word / 2 ^ 32
  let count := bitsN word 31 8 + len / 256
  let gen := word % 256
  if target ≠ 0 ∧ target ≤ count * 256 then
    let s' := s.putNum k 8 (target * 2 ^ 32 + (count - target / 256) % 2 ^ 24 * 256 + (gen + 1) % 256)
    let note := s.num (k + 8) 8
    if note % 2 = 1 then s'.arriveMsg w (bitsN note 49 32) (bitsN note 53 50) (s.words8 (k + 64)) else s'
  else s.putNum k 8 (target * 2 ^ 32 + count % 2 ^ 24 * 256 + gen)

/-! ### What a home does with an arriving item -/

/-- The home an item's address has, as a counter place. -/
def State.homePlace (s : State) (p va : Nat) : Dest :=
  if segOf va = 1 then .site ((s.homeSite p va).getD 0) else .stack (bitsN va 55 16 % 48)

/-- The sender an item speaks for at a home. -/
def Item.sender (i : Item) (home : Dest) : Sender :=
  { site := siteOf i.src, home := home, hart := i.src, rank := i.srank, job := i.job, part := i.part, seq := i.seq,
    mid := i.mid }

/-- The report about a refused or failed posted item (R193, R217). -/
def Item.reportOf (i : Item) (cause : Nat) (a : Nat) : Report :=
  { part := i.part, job := i.job, mid := i.mid, cause := cause, a2 := BitVec.ofNat 64 a, rank := i.srank, chan := i.chan,
    a4 := 0 }

/-- The site that forms the report about a posted write that a home refuses: the home's, or the issuer's where the address has
none (R129). -/
def State.reportSite (s : State) (i : Item) (a : Nat) : Nat :=
  if segOf a = 1 && (s.homeSite i.part a).isNone then siteOf i.src else homeSiteNo (s.homePlace i.part a)

/-- The refusal of a posted write at a home: the error report, and a kind 6 record if it was refused (R193). -/
def State.refusePosted (s : State) (i : Item) (cause a : Nat) : State :=
  let s := if cause = 2 || cause = 3 then s.record6 i.part cause i.mid a else s
  s.report (s.reportSite i a) (i.reportOf cause a)

/-- Sends a fault message towards the root for a page: the NI of the thread `hart`, or the home that holds a posted write (R186). -/
def State.faultFor (s : State) (i : Item) (va : Nat) (hart : Option Nat) : State :=
  let from_ := match hart with | some _ => i.src | none => homeSiteNo (s.homePlace i.part va) * 32
  s.emit { s.item i.src 0 false (.root i.part) (.fault va i.job hart) with
    src := from_, srank := i.srank, job := i.job, part := i.part, mid := i.mid, counted := false }

/-- The write a returning operation makes, as admission sees it (R189, R326). -/
def RetOp.wkind : RetOp → Option WKind
  | .amo .. | .joindec .. => some .atomic
  | .ldfe .. => some .atomic
  | _ => none

/-- The first address of a returning operation. -/
def RetOp.addr : RetOp → Nat
  | .read ps => (ps.head?.map (·.1)).getD 0
  | .ldf a | .ldfe a | .waitgen a _ | .amo _ a _ _ _ | .joindec a => a
  | .eqstat q => q

/-- The ranges of addresses a returning operation is for. -/
def RetOp.ranges : RetOp → List (Nat × Nat)
  | .read ps => ps
  | .ldf a | .ldfe a | .waitgen a _ => [(a, 8)]
  | .amo _ a n _ _ => [(a, n)]
  | .joindec a => [(a, 128)]
  | .eqstat _ => []

/-- What a home answers to a returning operation at one location: the value, or that it must wait (R326, R325). -/
def State.performAt (s : State) (op : RetOp) (k : Nat) (w : Sender) : Option Word × State :=
  match op with
  | .ldf _ => if s.isFull k then (some (BitVec.ofNat 64 (s.num k 8)), s) else (none, s)
  | .ldfe _ => if s.isFull k then (some (BitVec.ofNat 64 (s.num k 8)), s.setEmpty k 8) else (none, s)
  | .waitgen _ g => if s.num k 1 = g then (none, s) else (some (BitVec.ofNat 64 (s.num k 8)), s)
  | .amo f _ n v c => let (old, s) := s.amo f k n v c; (some (sext (8 * n) old), s)
  | .joindec _ => let (v, s) := s.join k w; (some v, s)
  | .read _ | .eqstat _ => (some 0, s)

/-- The bytes a returning operation reads at its location, for the poison check (R199): a JOINDEC that brings its word to 0 reads
the payload too (R148, R320). -/
def State.readsAt (s : State) (op : RetOp) (k : Nat) : Nat :=
  match op with
  | .amo _ _ n _ _ => n
  | .joindec _ => if s.num k 8 % 2 ^ 32 = 1 then 128 else 8
  | _ => 8

/-- A response on its way back (R218). -/
def State.respond (s : State) (i : Item) (cause a : Nat) (wr : Bool) (r : Resp) (waited : Bool) : State :=
  let x := s.item i.src i.seq false (.hart i.src) (.response cause a wr r i.ord)
  s.emit { x with
    srank := i.srank, job := i.job, part := i.part, mid := i.mid, counted := false,
    stage := if waited then .collected else .waiting }

/-- Replaces or removes an item of the net by its order number. -/
def State.dropItem (s : State) (ord : Nat) : State := { s with net := s.net.filter fun i => i.ord != ord }
/-- Sets the stage of an item. -/
def State.setStage (s : State) (ord : Nat) (st : Stage) : State :=
  { s with net := s.net.map fun i => if i.ord == ord then { i with stage := st } else i }

/-- Logs a write that a copy packet, an engine or a signal has made in a tile's memory from elsewhere, with the bytes it
left there, one item for each 64 bytes, so that a replay makes it again (R240, R241, R243, log 38, DEDUCED). `mark` is the sender's
tile, the number of its command and the line. -/
def State.logWrite (s : State) (site part a k n : Nat) (fe : Bool) (mark : Option (Nat × Nat × Nat)) : State :=
  match s.homePlace part a with
  | .site x =>
    if x = site then s
    else
      let (rank, num, line) := match mark with | some m => (m.1, m.2.1 + 1, m.2.2) | none => (0, 0, 0)
      (List.range (ceilDiv n 64)).foldl (fun s j =>
        let i := s.item (site * 32) 0 false (homeOf a) (.store (a + 64 * j) (s.bytes (k + 64 * j) (min 64 (n - 64 * j))) fe)
        s.log x 1 [] (some { i with part := part, counted := false, srank := 32 * rank, seq := num, act := line }) 80) s
  | _ => s

/-! ### What a home has taken of an engine's command (R243, R376) -/

/-- Whether a home has taken a write or an arrival of an engine's command before. -/
def State.lineTaken (s : State) (home : Dest) (d : Domain) : Bool :=
  match home with
  | .site x => (s.tile x).filter.any (·.1 == d)
  | .stack k => (s.agent k).filter.any (·.1 == d)
  | _ => false

/-- Notes at a home that it has taken it, with the sender's open interval: until that commits the sender may replay it
(R243, log 97, DEDUCED). -/
def State.noteLine (s : State) (home : Dest) (d : Domain) (ival : Nat) : State :=
  match home with
  | .site x => let t := s.tile x; s.setTile x { t with filter := (d, ival) :: t.filter }
  | .stack k => let a := s.agent k; s.setAgent k { a with filter := (d, ival) :: a.filter }
  | _ => s

/-- Whether a note is of a tile's command in an interval up to a number. -/
def lineOf (rank ival : Nat) (f : Domain × Nat) : Bool :=
  match f.1 with
  | .line tile _ _ => tile == rank && decide (f.2 ≤ ival)
  | _ => false

/-- A floe without its notes of a tile's commands in an interval up to a number. -/
def Floe.forget (rank ival : Nat) (f : Floe) : Floe :=
  { f with known := f.known.filter fun n => n.srank / 32 != rank || decide (ival < n.ival) }

/-- An interval of a tile has committed: the homes and the floes forget what they have taken of its commands in it. -/
def State.forgetLines (s : State) (rank ival : Nat) : State :=
  { s with
    parts := s.parts.map fun p => (p.1, { p.2 with floe := p.2.floe.map (Floe.forget rank ival) })
    tiles := s.tiles.map fun t => (t.1, { t.2 with filter := t.2.filter.filter fun f => !lineOf rank ival f })
    homes := s.homes.map fun a => (a.1, { a.2 with filter := a.2.filter.filter fun f => !lineOf rank ival f }) }

end Sys2Proof.Machine
end

