-- ==== Sys2Proof/Machine/Operands.lean ====
section
/-!
DEFINITION. Operand forms: immediates (R270), address operands and the accesses behind them (R173, R295, R296),
destination words (R315), 64-byte descriptors (R317, R361, R375), vector elements and masks (R251, R334).
-/

namespace Sys2Proof.Machine

/-! ### Immediates and addresses (R270) -/

/-- `imm_I` and `imm_S`. -/
def imm12 (i : BitVec 12) : Word := i.signExtend 64
/-- `imm_B`. -/
def immB (o : BitVec 12) : Word := (o ++ 0#1 : BitVec 13).signExtend 64
/-- `imm_J`. -/
def immJ (o : BitVec 20) : Word := (o ++ 0#1 : BitVec 21).signExtend 64
/-- `imm_U`. -/
def immU (i : BitVec 20) : Word := (i ++ 0#12 : BitVec 32).signExtend 64
/-- Register n of the first sixteen (R271, R272). -/
def lowReg (n : BitVec 4) : Reg := n.setWidth 5

/-- Where an access goes (R173, R181, R296). -/
inductive Route where
  /-- bits [63:56] or bits [47:45] of a tile-homed address are not 0: the protection error at the issuer -/
  | denied
  | localWin
  | translated
  deriving DecidableEq, Repr

/-- The route of an address (R173, R181). -/
def routeOf (a : Nat) : Route :=
  if a / 2 ^ 56 ≠ 0 then .denied
  else if segOf a = 0 then .localWin
  else if segOf a = 1 && bitsN a 47 45 != 0 then .denied
  else .translated

/-- Whether a local address lies in the bonded block of an orphan, at its home (R15, R176). -/
def State.atHome (s : State) (a : Nat) : Bool := (s.tile s.site).home.isSome && decide (Config.bondedLocal ≤ a)

/-- Whether an item is an access that is not yet performed at its home: a store, a returning operation, an insertion into an
expert queue (R209, R210, R216). -/
def Item.access (i : Item) : Bool :=
  match i.body with
  | .store .. | .ret _ | .push .. => true
  | _ => false

/-- Whether accesses of a thread's activation are issued and not yet performed at their homes (R202, R210, R216, R323). -/
def State.openAccess (s : State) (h : Nat) : Bool :=
  s.net.any fun i => i.src == h && i.act == (s.thread h).actNo && i.access

/-- Sends a returning operation to its home and blocks the thread for the response (R218). Only operations that
write take a sequence number (R137). -/
def State.ask (s : State) (op : RetOp) (release : Bool) : State :=
  let (q, s) := if op.wkind.isSome then s.takeSeq s.cur else (0, s)
  let cap := attach (s.core (coreOf s.cur)).slots op.addr
  let i := s.item s.cur q release (homeOf op.addr) (.ret op)
  let s := if op.wkind.isSome then s.countSent s.site i.job 1 else s
  let s := s.emit { i with cap := if op.wkind.isSome then cap else none, counted := op.wkind.isSome }
  s.setMe { s.me with status := .blocked .response, req := s.ordCtr }

/-- A posted store of the current thread: an item for the home, with its sequence number and the capability the NI
attaches (R137, R191). -/
def State.post (s : State) (a : Nat) (bs : List Byte) (fe release : Bool) : State :=
  let (q, s) := s.takeSeq s.cur
  let i := s.item s.cur q release (homeOf a) (.store a bs fe)
  (s.countSent s.site i.job 1).emit { i with cap := attach (s.core (coreOf s.cur)).slots a }

/-- A local store that is performed later, at a location fixed at the issuer: an orphan's at its home (R176), or one
behind an STF that waits for its release (R326). -/
def State.postHome (s : State) (home k : Nat) (bs : List Byte) (fe release : Bool) : State :=
  s.emit { s.item s.cur 0 release (.site home) (.store k bs fe) with counted := false }

/-- The site whose memory holds a local address: the home of an orphan's bonded block, else the own site. -/
def State.holder (s : State) (a : Nat) : Nat := if s.atHome a then (s.tile s.site).home.getD 0 else s.site

/-- `load(a, n)` of one element and what follows it (R173-R176, R295, R296). -/
def loadThen (s : State) (a n : Nat) (k : List Byte → State → Out) : Out :=
  match s.me.resp with
  | some r => k r.data s
  | none =>
    match routeOf a with
    | .denied => raiseOut s 2 .load (BitVec.ofNat 64 a)
    | .localWin =>
      match s.localAcc s.site .read a n with
      | none => raiseOut s 2 .load (BitVec.ofNat 64 a)
      | some key => if s.pendingLocal s.cur key n then blockOn s .retry else k (s.bytes key n) s
    | .translated =>
      if a % n = 0 then .next (s.ask (.read [(a, n)]) false) else raiseOut s 13 .load (BitVec.ofNat 64 a)

/-- Whether a thread has a translated store to these bytes of its own memory on its way (R206). -/
def State.pendingFar (s : State) (h k n : Nat) : Bool :=
  s.net.any fun i => i.src == h && s.farStore k n i

/-- `store(a, n, v)` (R173-R176, R193, R295, R296): the state after it, or the cause of the error at the issuer. -/
def State.storeAt (s : State) (a : Nat) (bs : List Byte) : Except Nat State :=
  match routeOf a with
  | .denied => .error 2
  | .localWin =>
    match s.localAcc s.site .write a bs.length with
    | none => .error 2
    | some key =>
      if s.atHome a || s.pendingLocal s.cur key bs.length then .ok (s.postHome (s.holder a) key bs false false)
      else .ok (s.putMem key bs)
  | .translated => if a % bs.length = 0 then .ok (s.post a bs false false) else .error 13

/-- Whether a store of the current thread waits: it is local, and an earlier translated one of the thread to these bytes is not
performed (R206). -/
def State.storeWaits (s : State) (a n : Nat) : Bool :=
  routeOf a == .localWin && (s.localAcc s.site .write a n).any fun k => s.pendingFar s.cur k n

/-- A store instruction. -/
def storeOut (s : State) (a : Nat) (bs : List Byte) : Out :=
  if s.storeWaits a bs.length then blockOn s .retry
  else match s.storeAt a bs with
    | .ok s => .next s.retire
    | .error c => raiseOut s c .store (BitVec.ofNat 64 a)

/-! ### Local blocks that an instruction reads when it issues (R317, R361, R375) -/

/-- The location of a range in the own scratchpad outside the system area or the own usable bonded block, or the
cause of the error: an address outside the local window is an operand error, and a local one that R141 or R175
refuses a protection error (R338 and R379 say so; log 19, DEDUCED for R317, R361 and R375). -/
def State.blockKey (s : State) (k : AccKind) (a n : Nat) : Except Nat Nat :=
  match routeOf a with
  | .denied => .error 2
  | .translated => .error 12
  | .localWin =>
    match s.localAcc s.site k a n with
    | some key => .ok key
    | none => .error 2

/-- As `blockKey`, where every address outside the local window is an operand error (R338, R379). -/
def State.windowKey (s : State) (k : AccKind) (a n : Nat) : Except Nat Nat :=
  if routeOf a = .localWin then s.blockKey k a n else .error 12

/-- Reads a 64-byte block and goes on with its eight words (R317, R361, R375). -/
def blockThen (s : State) (a : Word) (k : Vector Word 8 → Out) : Out :=
  if a.toNat % 64 ≠ 0 then raiseOut s 13 .load a
  else match s.blockKey .read a.toNat 64 with
    | .error c => raiseOut s c .load a
    | .ok key => if s.pendingLocal s.cur key 64 then blockOn s .retry else k (s.words8 key)

/-! ### Destination words (R315) -/

/-- A checked destination word. -/
structure DestWord where
  ninsn : Nat
  ddev  : Nat
  chan  : Nat
  drank : Nat
  group : Nat
  deriving DecidableEq, Repr

/-- Which instruction a destination word belongs to. -/
inductive DestForm where
  | send | group | carried | handover
  deriving DecidableEq, Repr

/-- The checks of R315; none is the operand error. -/
def State.destWord (s : State) (f : DestForm) (d : Word) : Option DestWord :=
  let x := d.toNat
  let ninsn := bitsN x 44 40
  let fab := bitsN x 36 36 == 1
  let ddev := bitsN x 35 24
  let ok := bitsN x 63 45 == 0 && bitsN x 39 37 == 0 && bitsN x 19 18 == 0 &&
    (if f = .carried then 1 ≤ ninsn && ninsn ≤ 16 else ninsn == 0) &&
    (fab || ddev == 0) && (!fab || (s.devValid && (f = .send || f = .carried))) &&
    (f != .group || bitsN x 17 8 == 0)
  if ok then
    some { ninsn := ninsn, ddev := if fab then ddev else s.dev, chan := bitsN x 23 20, drank := bitsN x 17 0,
           group := bitsN x 7 0 }
  else none

/-! ### Vector elements (R251, R280, R334) -/

end Sys2Proof.Machine

namespace Sys2Proof

/-- Element width in bits (R280). -/
def EType.bits : EType → Nat
  | .i32 | .f32 => 32
  | .i16 | .bf16 | .f16 => 16
  | .i8 | .e4m3 | .e5m2 => 8

/-- Elements per register (R251). -/
def EType.count (e : EType) : Nat := 512 / e.bits

/-- The format of a floating element type. -/
def EType.fmt : EType → Machine.Fmt
  | .f32 => Machine.f32
  | .bf16 => Machine.bf16
  | .f16 => Machine.f16
  | .e4m3 => Machine.e4m3
  | .e5m2 => Machine.e5m2
  | .i32 | .i16 | .i8 => Machine.f32

end Sys2Proof

namespace Sys2Proof.Machine

/-- Element i of width w (R251). -/
def elem (v : VReg) (w i : Nat) : Nat := v.toNat / 2 ^ (w * i) % 2 ^ w
/-- All elements of width w. -/
def elems (v : VReg) (w : Nat) : List Nat := (List.range (512 / w)).map (elem v w)
/-- Packs elements of width w into a number, element 0 lowest. -/
def packNat (w : Nat) : List Nat → Nat
  | [] => 0
  | x :: t => x % 2 ^ w + 2 ^ w * packNat w t
/-- Packs elements into a register. -/
def pack (w : Nat) (l : List Nat) : VReg := BitVec.ofNat 512 (packNat w l)
/-- V[n]. -/
def Thread.rv (t : Thread) (n : BitVec 4) : VReg := vget 0 t.v n.toNat
/-- V[n] := x. -/
def Thread.wv (t : Thread) (n : BitVec 4) (x : VReg) : Thread := { t with v := vset t.v n.toNat x }
/-- M[n]. -/
def Thread.rm (t : Thread) (n : BitVec 2) : Word := vget 0 t.m n.toNat
/-- M[n] := x. -/
def Thread.wm (t : Thread) (n : BitVec 2) (x : Word) : Thread := { t with m := vset t.m n.toNat x }
/-- Whether element i of a register-only instruction is active (R334). -/
def Thread.active (t : Thread) (c : Nat) (pm : Bool) (i : Nat) : Bool :=
  decide (i < min t.vl.toNat c) && (!pm || (t.rm 0).getLsbD i)
/-- The stream a vector field names: st0-st3 stand in fields 12-15 while they are bound (R338). -/
def Thread.streamOf (t : Thread) (n : BitVec 4) : Option Stream :=
  if 12 ≤ n.toNat then vget none t.streams (n.toNat - 12) else none
/-- Sets a stream binding. -/
def Thread.setStream (t : Thread) (k : Nat) (x : Option Stream) : Thread := { t with streams := vset t.streams k x }
/-- The bits of a number as bytes. -/
def elemBytes (w x : Nat) : List Byte := bytesOf (w / 8) x

end Sys2Proof.Machine
end

