-- ==== Sys2Proof/Machine/Csr.lean ====
section
/-!
DEFINITION. The CSRs of R285: which exist, who may use them, what each reads and what a write does to it.
-/

namespace Sys2Proof.Machine

/-- Access and level of a CSR (R285). -/
structure CsrInfo where
  ro : Bool
  m  : Bool
  deriving DecidableEq, Repr

/-- The CSR map; none for a number the part does not implement (R285, R286). -/
def csrInfo (n : Nat) : Option CsrInfo :=
  if n = 0x305 || (0x340 ≤ n && n ≤ 0x343) then some { ro := false, m := true }
  else if 0x8C0 ≤ n && n ≤ 0x8C8 then some { ro := false, m := false }
  else if n = 0xC00 || (0xCC0 ≤ n && n ≤ 0xCCE) || n = 0xF14 then some { ro := true, m := false }
  else none

/-- tilecoord (R26). -/
def tilecoord (h : Nat) : Nat :=
  let site := siteOf h
  fieldOf site * 2 ^ 32 + regionOf site * 2 ^ 24 + site % 96 * 2 ^ 16 + site / 96 * 2 ^ 8 + h / 8 % 4 * 8 + h % 8

/-- The role code of R27. -/
def Role.code : Role → Nat
  | .ranked => 0 | .spare => 1 | .supervisor => 2 | .extra => 3 | .retired => 4 | .unhomed => 5
  | .memHome => 6 | .memBuddy => 7 | .memIdle => 8 | .void => 9

/-- A site's tile-class entry (R27). -/
def Tile.classWord (t : Tile) : Nat :=
  ((t.home.map coordOf).getD 0x3FFF) * 2 ^ 50 + ((t.buddy.map coordOf).getD 0x3FFF) * 2 ^ 36 +
    t.usable % 256 * 2 ^ 24 + t.hops % 16 * 2 ^ 20 + t.role.code * 16 + ofBool t.donor * 8 + ofBool t.prot * 4 + t.cls % 4

/-- The floe of a site's partition; a site of no partition sees the one over the whole wafer, which start-up has formed (R29, R31). -/
def State.floeOf (s : State) (site : Nat) : Option Floe :=
  match s.partOfSite site with
  | some p => (s.part p).floe
  | none => s.floe0

/-- The place of a number in a list, 0xFFFF if it is not there. -/
def indexIn (l : List Nat) (x : Nat) : Nat := if l.contains x then l.idxOf x else 0xFFFF

/-- Row and column index of a site in a floe (R29, R31). -/
def Floe.place (f : Floe) (site : Nat) : Nat × Nat :=
  let r := indexIn f.rows (site / 96)
  let c := indexIn f.cols (site % 96)
  if r = 0xFFFF || c = 0xFFFF then (0xFFFF, 0xFFFF) else (r, c)

/-- floerows (R31). -/
def State.floerows (s : State) (site : Nat) : Nat :=
  match s.floeOf site with
  | some f => f.fgen % 2 ^ 16 * 2 ^ 32 + (f.place site).1 * 2 ^ 16 + f.rows.length
  | none => 0xFFFF * 2 ^ 16

/-- floecols (R31). -/
def State.floecols (s : State) (site : Nat) : Nat :=
  match s.floeOf site with
  | some f => (f.place site).2 * 2 ^ 16 + f.cols.length
  | none => 0xFFFF * 2 ^ 16

/-- regclk (R53). -/
def Region.word (r : Region) : Nat :=
  min r.excur 0xFFFF * 2 ^ 32 + ofBool (!r.causes.isEmpty) * 2 ^ 17 + ofBool r.fixed * 2 ^ 16 + r.mhz % 2 ^ 16

/-- The region of a site. -/
def State.regionAt (s : State) (site : Nat) : Region := vget Region.init s.regions (regionOf site)

/-- memerr (R200). -/
def Tile.memerr (t : Tile) : Nat :=
  min t.bbce 0xFFFF * 2 ^ 48 + min t.spce 0xFFFF * 2 ^ 32 + min t.failb 5 * 2 ^ 8 + ofBool t.spused

/-- The state of an engine command as the cursors show it (R366). -/
structure CurView where
  state : Nat
  prog  : Nat
  park  : Bool
  row   : Nat
  kstep : Nat
  deriving DecidableEq, Repr

/-- The result of a tag in a list. -/
def resultOf (l : List EngResult) (tag : Nat) : Option EngResult := l.find? (·.tag == tag)

/-- The view of a finished command. -/
def EngResult.view (r : EngResult) : CurView :=
  { state := if r.cause = 0 then 1 else 3, prog := r.prog, park := false, row := 0, kstep := r.kstep }

/-- A command that has not begun. -/
def waitingView (k0 : Nat) : CurView := { state := 0, prog := 0, park := false, row := 0, kstep := k0 }

/-- Whether a matrix entry is one of R373, which has no K-steps. -/
def MatOp.isAcc : MatOp → Bool
  | .mma | .mcmd | .floe => false
  | _ => true

/-- The cursor of a local matrix or accumulator command (R366). -/
def Tile.matView (t : Tile) (tag : Nat) : CurView :=
  match resultOf t.mdone tag with
  | some r => r.view
  | none =>
    match t.mrun with
    | some r =>
      if r.cmd.tag = tag then
        { state := 0, prog := if r.cmd.op.isAcc then r.landed / 64 else r.k - r.cmd.koff, park := r.park.isSome
          row := r.row, kstep := r.k }
      else waitingView (((t.mqueue.find? (·.tag == tag)).map (·.koff)).getD 0)
    | none => waitingView (((t.mqueue.find? (·.tag == tag)).map (·.koff)).getD 0)

/-- The cursor of a floe command, whose results stand with its issuer's tile (R366, R368, R369). -/
def State.floeView (s : State) (site tag : Nat) : CurView :=
  match resultOf (s.tile site).mdone tag with
  | some r => r.view
  | none =>
    match s.floeOf site with
    | some f =>
      match f.run with
      | some c =>
        if c.tag = tag && siteOf c.src = site then
          { state := 0, prog := f.k - c.koff, park := f.park.isSome, row := f.row, kstep := f.k }
        else waitingView (((f.waiting.find? (·.tag == tag)).map (·.koff)).getD 0)
      | none => waitingView (((f.waiting.find? (·.tag == tag)).map (·.koff)).getD 0)
    | none => waitingView 0

/-- Whether an MCMD still waits or runs: on its way, or in its target's engine. -/
def State.mcmdOpen (s : State) (h seq : Nat) : Bool :=
  let mine (c : MatCmd) : Bool := c.src == h && c.seq == seq && c.op == .mcmd
  s.net.any (fun i => match i.body with | .mcmd c => mine c | _ => false) ||
    s.tiles.any fun t => t.2.mqueue.any mine || ((t.2.mrun.map fun r => mine r.cmd).getD false)

/-- The cursor of a transfer (R366, R376). -/
def Tile.copyView (t : Tile) (tag : Nat) : CurView :=
  match resultOf t.cdone tag with
  | some r => r.view
  | none =>
    match t.xfers.toList.filterMap id |>.find? (·.tag == tag) with
    | some x => { state := if x.pending then 2 else 0, prog := min (x.landed / 64) (2 ^ 32 - 1), park := false, row := 0, kstep := 0 }
    | none => waitingView 0

/-- The command a thread issued last, as its cursors show it (R366). -/
def State.cursor (s : State) (h : Nat) : Option (Nat × CurView) :=
  (s.thread h).lastCmd.map fun c =>
    (c.eng,
      match c.eng with
      | 1 | 4 => (s.tile c.site).matView c.tag
      | 2 => s.floeView c.site c.tag
      | 3 => { waitingView 0 with state := if s.mcmdOpen h c.tag then 0 else if c.ended then 3 else 1 }
      | _ => (s.tile c.site).copyView c.tag)

/-- mcursor (R366). -/
def State.mcursor (s : State) (h : Nat) : Nat :=
  match s.cursor h with
  | none => 0
  | some (eng, v) => eng * 2 ^ 60 + v.state * 2 ^ 58 + (if eng = 3 then 0 else min v.prog (2 ^ 32 - 1))

/-- rowprog (R366): 0 unless ENG is 1 or 2. -/
def State.rowprog (s : State) (h : Nat) : Nat :=
  match s.cursor h with
  | none => 0
  | some (eng, v) => if eng = 1 || eng = 2 then ofBool v.park * 2 ^ 48 + v.row % 2 ^ 16 * 2 ^ 32 + v.kstep % 2 ^ 17 else 0

/-- cycle: the cycles of the tile's region clock, those left out in which a partition was switched out, or in deterministic mode the
instructions retired in the activation (R52, R311, R394). -/
def State.cycleCsr (s : State) : Nat :=
  if s.det (s.partOfHart s.cur) then s.me.retired
  else wrapN 64 ((s.regionAt s.site).cycles - (s.tile s.site).cycleBase)

/-- What a CSR reads at the current thread (R285). -/
def State.readCsr (s : State) (n : Nat) : Word :=
  let t := s.me
  match n with
  | 0x305 => t.mtvec
  | 0x340 => t.mscratch
  | 0x341 => t.mepc
  | 0x342 => t.mcause
  | 0x343 => t.mtval
  | 0x8C0 => if t.priv = .M then 0 else t.budget.setWidth 64
  | 0x8C1 => (s.core (coreOf s.cur)).spawnlim.setWidth 64
  | 0x8C2 => t.fround.setWidth 64
  | 0x8C3 => (s.tile s.site).srseed
  | 0x8C4 => t.accdecay.setWidth 64
  | 0x8C5 => t.vl.setWidth 64
  | 0x8C6 => t.lpstart
  | 0x8C7 => t.lpend
  | 0x8C8 => t.lpcount
  | 0xC00 => BitVec.ofNat 64 s.cycleCsr
  | 0xCC0 => BitVec.ofNat 64 (tilecoord s.cur)
  | 0xCC1 => BitVec.ofNat 64 (s.tile s.site).classWord
  | 0xCC2 => BitVec.ofNat 64 (s.floerows s.site)
  | 0xCC3 => BitVec.ofNat 64 (s.floecols s.site)
  | 0xCC4 => BitVec.ofNat 64 (s.regionAt s.site).word
  | 0xCC5 => if s.det (s.partOfHart s.cur) then BitVec.ofNat 64 (s.part (s.partOfHart s.cur)).qlen else 0
  | 0xCC6 => t.msrc
  | 0xCC7 => t.mchan
  | 0xCC8 => t.mseq
  | 0xCC9 => t.hcause
  | 0xCCA => BitVec.ofNat 64 (s.tile s.site).memerr
  | 0xCCB => t.haddr
  | 0xCCC => t.hmsgid
  | 0xCCD => BitVec.ofNat 64 (s.mcursor s.cur)
  | 0xCCE => BitVec.ofNat 64 (s.rowprog s.cur)
  | 0xF14 => s.rankOfHart s.cur
  | _ => 0

/-- Clears bits [1:0] (R306, R391). -/
def clear2 (v : Word) : Word := v &&& ~~~3#64

/-- The write of a thread's own CSR, in the fields its map marks RW (R120, R258, R260, R306, R335, R391, R393). -/
def Thread.writeCsr (t : Thread) (n : Nat) (v : Word) : Thread :=
  match n with
  | 0x305 => { t with mtvec := clear2 v }
  | 0x340 => { t with mscratch := v }
  | 0x341 => { t with mepc := clear2 v }
  | 0x342 => { t with mcause := v &&& 0xFFFF#64 }
  | 0x343 => { t with mtval := v }
  | 0x8C0 =>
    let left := v.setWidth 27
    if t.priv = .M || t.budget.toNat < left.toNat then t else { t with budget := left }
  | 0x8C2 => if (v.setWidth 3 : BitVec 3).toNat ≤ 4 then { t with fround := v.setWidth 3 } else t
  | 0x8C4 => { t with accdecay := v.setWidth 32 }
  | 0x8C5 => { t with vl := v.setWidth 8 }
  | 0x8C6 => { t with lpstart := clear2 v }
  | 0x8C7 => { t with lpend := clear2 v }
  | 0x8C8 => { t with lpcount := v }
  | _ => t

/-- A CSR write (R147, R259, R310): spawnlim is the core's, srseed the tile's, every other RW CSR the thread's. -/
def State.writeCsr (s : State) (n : Nat) (v : Word) : State :=
  match n with
  | 0x8C1 => s.setCore (coreOf s.cur) { s.core (coreOf s.cur) with spawnlim := v.setWidth 17 }
  | 0x8C3 => s.setTile s.site { s.tile s.site with srseed := v }
  | _ => s.setMe (s.me.writeCsr n v)

end Sys2Proof.Machine
end

