-- ==== Sys2Proof/Machine/Net.lean ====
section
/-!
DEFINITION. Items under way: when an item may leave its NI (R142, R144, R203, R216), credits, and releasing held sends.
-/

namespace Sys2Proof.Machine

/-- The tile or home an item goes to, as the number that R142 orders items by. What a thread sends to other devices goes in order
through its NI, so that an egress point meets its numbers in order (R81). -/
def Dest.number : Dest → Nat
  | .core c => c / 4
  | .tile l => l
  | .stack k => 10000 + k
  | .site x => 20000 + x
  | .hart h => 40000 + h
  | .root p => 400000 + p
  | .device _ => 350000
  | .hostMem => 360000

@[inherit_doc Dest.number] def Item.target (i : Item) : Nat := i.dst.number

/-- Whether an instruction issued the item, so that it keeps its place among its thread's items (R142, R144). -/
def Item.ordered (i : Item) : Bool :=
  match i.body with
  | .message m => (match m.dom with | .item .. => true | _ => false)
  | .store .. | .frame .. | .push .. | .eqfire .. | .eqdone .. | .mcmd .. | .packet .. | .line .. => true
  | .ret _ => true
  | _ => false

/-- The tiles and homes an item is for: those of every part of a gather (R142, R350). -/
def Item.targets (i : Item) : List Nat :=
  match i.body with
  | .ret (.read parts) => i.target :: parts.map fun x => { i with dst := homeOf x.1 }.target
  | _ => [i.target]

/-- The domain whose messages keep their order at a tile though no thread issues them: the fire messages of one queue, and the
continuations that one home sends for one thread (R161, R320). -/
def Item.lane (i : Item) : Option Domain :=
  match i.body with
  | .message m => (match m.dom with | .fire .. | .home .. => some m.dom | _ => none)
  | _ => none

/-- The ranges of translated addresses that a store or a returning operation is for. -/
def Item.ranges (i : Item) : List (Nat × Nat) :=
  match i.dst, i.body with
  | .site _, _ => []
  | _, .store a bs _ => [(a, bs.length)]
  | _, .ret op => op.ranges
  | _, _ => []

/-- Whether an access by translated addresses follows a store of its thread by a local address that is not performed yet and meets
its bytes (R176, R205-R209, R326): it is performed after that store. -/
def State.afterLocal (s : State) (i : Item) : Bool :=
  s.net.any fun j => j.src == i.src && j.ord < i.ord && i.ranges.any fun r =>
    match (s.translate i.part r.1).1 with
    | .ok e => segOf r.1 == 1 && j.storesAt (s.entryKey i.part e r.1) r.2
    | .error _ => false

/-- Whether an earlier item of the same thread, or of the same lane, to the same place has not been taken there yet (R142,
R144, R161, R221, R320), or an earlier local store to the same bytes is not performed (R206); one that is collected for the
quantum end has landed (R125). -/
def State.behind (s : State) (i : Item) : Bool :=
  s.afterLocal i ||
  (i.ordered && s.net.any fun j =>
    j.src == i.src && j.ordered && j.ord < i.ord && i.targets.contains j.target && j.stage != .collected) ||
  (i.lane.isSome && s.net.any fun j =>
    j.lane == i.lane && j.ord < i.ord && j.target == i.target && j.stage != .collected)

/-- Whether an item has passed its receiver's filter: it landed in a quantum and waits for its end (R125). -/
def Item.passed (i : Item) : Bool := i.stage == .collected || i.stage == .refused 0

/-- Whether a receiver has accepted an item in a quantum, logged it and acknowledged it, and holds it until a quantum's end (R124,
R125, R240). -/
def Item.acked (i : Item) : Bool :=
  i.passed && (match i.body with
    | .message m => m.hdr.kind != 2
    | .push .. | .eqfire _ | .eqdone .. => true
    | _ => false)

/-- Whether an access that precedes the item in its thread is not performed yet (R203, R210, R216). -/
def State.unreleased (s : State) (i : Item) : Bool :=
  i.release && s.net.any fun j =>
    j.src == i.src && j.act == i.act && j.ord < i.ord && j.access

/-- The credit of a (core, channel) pair at a sending NI: a pair it has not entered starts at 1 (R144). -/
def Tile.credit (t : Tile) (core chan : Nat) : Nat := ((t.credits.find? fun c => c.1 == (core, chan)).map (·.2)).getD 1

/-- Enters a pair with a count as the most recently used of at most 128 (R144). -/
def Tile.setCredit (t : Tile) (core chan n : Nat) : Tile :=
  { t with credits := (((core, chan), n) :: t.credits.filter fun c => c.1 != (core, chan)).take 128 }

/-- Messages of a tile to a pair that are sent and not acknowledged, refused ones among them (R144). -/
def State.unacked (s : State) (site core chan : Nat) : Nat :=
  (s.net.filter fun i => siteOf i.src == site &&
    (match i.body, i.stage with
     | .ack c k _, _ => c == core && k == chan
     | .message m, .refused _ => i.dst == .core core && m.hdr.chan == chan && !i.passed
     | _, _ => false)).length

/-- Whether credit lets a message leave (R144): a pair at 0 with nothing outstanding admits one send, and a home agent, which
has no NI, keeps no credits (log 21, DEDUCED). -/
def State.creditOk (s : State) (i : Item) : Bool :=
  match i.dst, i.body with
  | .core c, .message m =>
    (s.tile (siteOf i.src)).credit c m.hdr.chan != 0 || s.unacked (siteOf i.src) c m.hdr.chan == 0 ||
      Config.numSites ≤ siteOf i.src
  | _, _ => true

/-- Whether a capability is among those attached at the issue of an engine command. -/
def capIn (k : Cap) (caps : List Cap) : Bool := caps.any fun c => c.rid == k.rid && c.gen == k.gen

/-- Whether a range of a command's destination lies in the range of a capability, in part. -/
def Cap.meets (k : Cap) (r : Nat × Nat) : Bool := bitsN r.1 63 56 == 0 && Machine.meets r.1 r.2 k.base (2 ^ k.szlog)

/-- The destination with another tile's rank (R376). -/
def withRank (a : Word) (rank : Nat) : Word :=
  (a &&& ~~~(BitVec.ofNat 64 (8191 * 2 ^ 32))) ||| BitVec.ofNat 64 (rank * 2 ^ 32)

/-- The destinations of a transfer: its own, or one per tile of the group (R376). -/
def Xfer.dests (x : Xfer) : List Word := if x.mc.isEmpty then [x.dst] else x.mc.map (withRank x.dst)

/-- The arrival record of a transfer for one of its destinations (R376). -/
def Xfer.arrival (x : Xfer) (d : Word) : Word := if x.mc.isEmpty then x.arr else withRank x.arr (bitsN d.toNat 44 32)

/-- The ranges a transfer writes: at each destination its data, or the slots of its record, and its arrival record. -/
def Xfer.writeRanges (x : Xfer) : List (Nat × Nat) :=
  x.dests.flatMap fun d =>
    (d.toNat, if x.op = .deposit then 64 + (x.slot + 1) * x.len else x.len) ::
      if x.arr = 0 then [] else [((x.arrival d).toNat, 128)]

/-- Whether a transfer writes under a capability (R191). -/
def Xfer.writesUnder (x : Xfer) (k : Cap) : Bool := capIn k x.caps && x.writeRanges.any k.meets

/-- base + i × stride as a 64-bit address. -/
def strided (base : Nat) (stride : Int) (i : Nat) : Nat := wrapN 64 ((base : Int) + stride * i)

/-- Bytes of an element of C (R361). -/
def MatDesc.cbytes (d : MatDesc) : Nat := if d.ctype = 3 then 4 else 2

/-- C row i: address. -/
def MatDesc.cRow (d : MatDesc) (i : Nat) : Nat := strided d.cbase d.cstr i

/-- The ranges a store-back of `rows` rows of `cols` elements writes (R361). -/
def MatDesc.writes (d : MatDesc) (rows cols : Nat) : List (Nat × Nat) :=
  (List.range rows).map fun i => (d.cRow i, cols * d.cbytes)

/-- The ranges a command writes (R363, R368, R373): its store-back, over the whole floe for a floe command, or the lines of an
ACCSPILL. -/
def MatCmd.writeRanges (c : MatCmd) (f : Option Floe) : List (Nat × Nat) :=
  match c.op, f with
  | .accspill a, _ => [(a, 12288)]
  | .floe, some f => if c.store then c.desc.writes (64 * f.rows.length) (48 * f.cols.length) else []
  | _, _ => if c.store then c.desc.writes c.desc.mrow c.desc.ncol else []

/-- Whether a command writes under a capability (R191). -/
def MatCmd.writesUnder (c : MatCmd) (f : Option Floe) (k : Cap) : Bool := capIn k c.caps && (c.writeRanges f).any k.meets

/-- The commands of matrix engines that have not ended, wherever they wait or run: on their way as an MCMD, in the queue of a tile,
at its engine, at the floe (R358, R367, R368). -/
def State.matCmds (s : State) (p : Nat) : List MatCmd :=
  (s.net.filterMap fun i => match i.body with | .mcmd c => some c | _ => none) ++
    s.tiles.flatMap (fun t => t.2.mqueue ++ (t.2.mrun.map (·.cmd)).toList) ++
    match (s.part p).floe with
    | some f => f.run.toList ++ f.waiting
    | none => []

/-- Whether an engine command of a core's threads may still write under a capability (R191, R192). -/
def State.engineUnder (s : State) (core : Nat) (k : Cap) : Bool :=
  let p := s.partOfHart (core * 8)
  (s.tile (core / 4)).xfers.any (fun x => x.any fun y => coreOf y.hart == core && y.writesUnder k) ||
    (s.matCmds p).any fun c => coreOf c.src == core && c.writesUnder (s.part p).floe k

/-- Whether a write that a core's threads issued under a capability is not performed yet (R192, R329, R331). -/
def State.writesUnderAt (s : State) (core : Nat) (k : Cap) : Bool :=
  s.engineUnder core k || s.net.any fun i => coreOf i.src == core && i.cap == some (k.rid, k.gen) &&
    (match i.body with | .store .. => true | .ret _ => true | .deposit .. => true | _ => false)

/-- Whether a message carries a capability that must wait for its core's earlier writes under it (R192, R329). -/
def State.capWaits (s : State) (i : Item) : Bool :=
  match i.body with
  | .message m => m.cap.any fun k => s.writesUnderAt (coreOf i.src) k
  | _ => false

/-- Whether an item can leave its NI now: that of a site that has failed sends nothing more (R227). -/
def State.injectable (s : State) (i : Item) : Bool :=
  !s.behind i && !s.unreleased i && s.creditOk i && !s.capWaits i && !(s.tile (siteOf i.src)).failed

/-! ### Items that wait at a home for a page (R186, R221) -/

/-- The 64 KiB page of an address (R186). -/
def pageOf (va : Nat) : Nat := va / 65536 * 65536

/-- Whether an item waits at its home for a page (R221). -/
def Item.atPage (i : Item) : Bool :=
  match i.stage with
  | .held pg => pg != 0
  | _ => false

/-- What of a thread waits at a home for a page: its queue there, which holds 32 items (R221). -/
def State.homeQueue (s : State) (hart target : Nat) : List Item :=
  s.net.filter fun j => j.src == hart && j.target == target && j.atPage

/-- Whether a home has sent the fault message of a page for a held store already: once per page (R186). -/
def State.faultSent (s : State) (i : Item) (page : Nat) : Bool :=
  s.net.any fun j => j.ord != i.ord && j.part == i.part && j.stage == .held page && j.target == i.target && !s.behind j &&
    (match j.body with | .store .. | .line .. => true | _ => false)

/-- Whether an item can leave its NI but for items of its thread that wait at the same home for a page: it joins their queue
there (R221). -/
def State.joinsHeld (s : State) (i : Item) : Bool :=
  s.behind i && !s.unreleased i && !(s.tile (siteOf i.src)).failed && s.net.all fun j =>
    !(j.src == i.src && j.ordered && j.ord < i.ord && i.targets.contains j.target && j.stage != .collected) || j.atPage

/-- The page that stands for an item that waits at a home for no page of its own. -/
def noPage : Nat := 1

/-- The page of an item that waits behind others at its home: that of its address, if it has one. -/
def Item.pageAt (i : Item) : Nat :=
  match i.body with
  | .store a _ _ => pageOf a
  | .ret op => pageOf op.addr
  | .line a .. => pageOf a
  | _ => noPage

/-- The thread's sends and pushes that wait at injection or are refused, multicasts counted once (R144, R167). -/
def State.waitingSends (s : State) (h : Nat) : Nat :=
  ((s.net.filter fun i => i.src == h && i.ordered && (match i.body with | .message _ | .push .. => true | _ => false) &&
    !i.atPage && (!s.injectable i || (match i.stage with | .refused _ => true | _ => false))).map (·.seq)).dedup.length

/-- Issues the messages of one SEND with one sequence number to every destination of a list (R316). -/
def State.sendAll (s : State) (h : Nat) (d : DestWord) (kind : Nat) (pl : Vector Word 8) (cap : Option Cap)
    (dranks : List Nat) : State :=
  let (q, s) := s.takeSeq h
  dranks.foldl (fun s r =>
    s.sendTo h (mkMsg (mkHeader s.dev (s.srank h) r d.chan kind d.ninsn
      (s.jobOf h) d.ddev q) pl cap) true) s

/-- The thread ranks a destination word sends to: one, or the first of each member of its group (R316). -/
def State.destRanks (s : State) (h : Nat) (group : Bool) (d : DestWord) : List Nat :=
  if group then (s.group (s.partOfHart h) d.group).map (· * 8) else [d.drank]

/-- Releases held sends in issue order while fewer than four sends wait; `n` bounds how many (R144, R149, R318). -/
def State.releaseHeld (s : State) (h : Nat) : Nat → State
  | 0 => s
  | n + 1 =>
    let t := s.thread h
    match t.held with
    | [] => s
    | x :: rest =>
      if 4 ≤ s.waitingSends h then s
      else
        let s' := s.setThread h { t with held := rest }
        match s.destWord (if x.group then .group else .send) x.dest with
        | some d => (s'.sendAll h d 0 x.payload none (s.destRanks h x.group d)).releaseHeld h n
        | none => s'.releaseHeld h n

/-! ### Duplicate filters (R137) -/

/-- The first of the numbers that stand for senders on other devices among the sites. -/
def peerSites : Nat := Config.numSites + 64

/-- The first of the numbers that stand for the tiles of partitions that are switched out. -/
def awaySites : Nat := 2 ^ 26

/-- What stands for the site of a tile of a partition that is switched out. -/
def awaySite (p rank : Nat) : Nat := awaySites + 8192 * p + rank

/-- The device a hart number belongs to: another one from `peerSites` on (R77). -/
def State.devOf (s : State) (h : Nat) : Nat := if peerSites * 32 ≤ h && h < awaySites * 32 then (h - peerSites * 32) / 2 ^ 18 else s.dev

/-- The filter domain of a thread's items at a tile or a home (R81, R137). -/
def State.itemDomain (s : State) (i : Item) : Domain := .item (s.devOf i.src) i.srank i.ceg 4

/-- Whether an item passes a tile's duplicate filter (R137): its SEQ is later than the last accepted one's. -/
def Tile.fresh (t : Tile) (d : Domain) (seq : Nat) : Bool :=
  match t.filter.find? (·.1 == d) with
  | some x => seqLater seq x.2
  | none => true

/-- Notes the SEQ of an accepted item (R137). -/
def State.noteSeq (s : State) (site : Nat) (d : Domain) (seq : Nat) : State :=
  let t := s.tile site
  s.setTile site { t with filter := (d, seq % 2 ^ 32) :: t.filter.filter (·.1 != d) }


/-! ### The door of a tile -/

/-- Whether a failure for cause `c` leaves spine and memories of a site at work: nothing but its body has failed (R9, R239). -/
def Tile.bodyFailed (t : Tile) (c : Nat) : Bool := c != 6 && (c != 5 || t.bodyOnly)

/-- Whether a site's bonded block no longer serves: its memory or its spine has failed, its class has none, or it retired
as a home as a whole (R17). -/
def Tile.memoryLost (t : Tile) : Bool :=
  t.cls == 1 || t.cls == 3 || (t.failed && !t.bodyFailed t.failc) || (t.role == .retired && !t.donor)


/-- Bytes of the log ring that an NI keeps free: room for the records of a write of a whole window, the most that it accepts at once
(log 93, DESIGN CHOICE). -/
def logReserve : Nat := 400 * 1024

/-- Whether a tile's log ring is full: its NI refuses what it would have to log (R240). -/
def Tile.logFull (t : Tile) : Bool := t.prot && decide (logRing < t.logBytes + logReserve)

/-- What a tile's NI does with an item before it looks at it. -/
inductive Door where
  /-- fenced, stopped or not yet ready: the sender keeps the item (R24, R227) -/
  | shut
  /-- refused with FREE 0 (R231, R240, R242) -/
  | refuse
  | open_
  deriving DecidableEq, Repr

/-- The door of a site for an item of a partition. A tile that has been switched out refuses the items of the partitions that are
switched out; one of any other job goes on to be returned (R231). -/
def State.door (s : State) (site part : Nat) : Door :=
  let t := s.tile site
  if t.failed || (t.rank.map fun l => s.fenced.contains l).getD false then .shut
  else if t.replaying || (s.part part).stage == .out || t.logFull then .refuse
  else .open_

/-- An item that has come to its end without being accepted: it counts as received where it was issued (log 31, DEDUCED). -/
def State.ended (s : State) (i : Item) : State :=
  let s := s.dropItem i.ord
  if i.counted then s.countRecv (siteOf i.src) i.job 1 else s

/-- An item is refused with FREE 0, which a message's sender enters for its pair, and waits for its resend (R144), one that was collected for the quantum end for the
next one (R125). -/
def State.bounce (s : State) (i : Item) : State :=
  let site := siteOf i.src
  let s := match i.dst, i.body with
    | .core c, .message m => if site < Config.numSites then s.setTile site ((s.tile site).setCredit c m.hdr.chan 0) else s
    | _, _ => s
  match i.stage with
  | .refused _ => s
  | .collected => s.setStage i.ord (.refused 0)
  | _ => s.setStage i.ord (.refused 1024)

/-- An item joins the queue of its thread at its home; one that finds it full is refused (R221). -/
def State.joinHeld (s : State) (i : Item) : State :=
  if 32 ≤ (s.homeQueue i.src i.target).length then s.bounce i else s.setStage i.ord (.held i.pageAt)

/-- The door of an address's home. -/
def State.homeDoor (s : State) (p va : Nat) : Door :=
  match s.homePlace p va with
  | .site x => if segOf va = 1 && (s.homeSite p va).isNone then .open_ else s.door x p
  | _ => .open_

end Sys2Proof.Machine
end

