-- ==== Sys2Proof/Machine/Messages.lean ====
section
/-!
DEFINITION. Message, task, synchronisation, atomic and capability instructions (spec/16_messages.md).
-/

namespace Sys2Proof.Machine

/-! ### Messages (R315-R318) -/

/-- The members of a group the current core may send to: none if the group is empty or the core is not in it
(R316, R324). -/
def State.ownGroup (s : State) (g : Nat) : Option (List Nat) :=
  let d := s.group (s.partOfHart s.cur) g
  if d.contains (s.logCore (coreOf s.cur)) then some d else none

/-- Whether the sends of a destination word may go out: a group must hold the issuing core (R316). -/
def State.destOk (s : State) (group : Bool) (d : DestWord) : Bool := !group || (s.ownGroup d.group).isSome

/-- SEND and SEND.G (R316): a fifth waiting send blocks the thread (R144). -/
def sendNow (s : State) (group : Bool) (rs1 : Reg) : Out :=
  match s.destWord (if group then .group else .send) (s.rx rs1) with
  | none => operandError s
  | some d =>
    if !s.destOk group d then operandError s
    else if 4 ≤ s.waitingSends s.cur then blockOn s .retry
    else .next (s.sendAll s.cur d 0 s.me.payload none (s.destRanks s.cur group d)).retire

/-- SEND.S and SEND.GS (R149, R316): the ninth held send aborts with cause 7. -/
def sendHeld (s : State) (group : Bool) (rs1 : Reg) : Out :=
  match s.destWord (if group then .group else .send) (s.rx rs1) with
  | none => operandError s
  | some d =>
    if !s.destOk group d then operandError s
    else if 8 ≤ s.me.held.length then raiseOut s 7 .other 0
    else
      let x : HeldSend := { dest := s.rx rs1, group := group, payload := s.me.payload }
      .next ((s.setMe { s.me with held := s.me.held ++ [x] }).retire)

/-- SEND (R316). -/
def execSend (rs1 : Reg) (s : State) : Out := sendNow s false rs1
/-- SEND.G (R316). -/
def execSendG (rs1 : Reg) (s : State) : Out := sendNow s true rs1
/-- SEND.S (R316). -/
def execSendS (rs1 : Reg) (s : State) : Out := sendHeld s false rs1
/-- SEND.GS (R316). -/
def execSendGs (rs1 : Reg) (s : State) : Out := sendHeld s true rs1

/-- SENDC (R317). -/
def execSendc (rs1 rs2 : Reg) (s : State) : Out :=
  match s.destWord .carried (s.rx rs1) with
  | none => operandError s
  | some d => blockThen s (s.rx rs2) fun pl =>
      if 4 ≤ s.waitingSends s.cur then blockOn s .retry
      else .next (s.sendAll s.cur d 1 pl none [d.drank]).retire

/-- COMMIT (R318). -/
def execCommit (s : State) : Out :=
  let s' := s.releaseHeld s.cur s.me.held.length
  if s'.me.held.isEmpty then .next s'.retire else blockOn s' .retry

/-- ABORT (R318). -/
def execAbort (s : State) : Out := .next (s.setMe { s.me with held := [] }).retire

/-! ### Tasks (R319-R322) -/

/-- A deque's capacity (R146). -/
def Core.dqCap (c : Core) : Nat := 64 + (if c.dqlog = 0 then 0 else 2 ^ c.dqlog)
/-- Whether a deque takes one more frame (R146, R319). -/
def Core.takesFrame (c : Core) : Bool := decide (c.deque.length < min c.spawnlim.toNat c.dqCap)

/-- Whether a frame stands in the system area: the first 64 places do (R141, R145). -/
def Core.frameAt (c : Core) (core slot : Nat) : Option Nat :=
  if slot < 64 then some (0x3F8000 + 0x1400 * (core % 4) + 80 * slot)
  else if c.dqlog = 0 then none
  else some (Config.bondedLocal + c.dqbase + 80 * (slot - 64))

/-- Location of a local offset of a tile's own memory that the tile's units write: scratchpad with the system area, usable bonded
block (R141, R143, R153). -/
def State.unitKey (s : State) (site a n : Nat) : Option Nat := s.localKey site a n

/-- The lowest place of a deque that no frame holds (log 94, DESIGN CHOICE). -/
def Core.frameSlot (c : Core) : Nat :=
  ((List.range (c.deque.length + 1)).find? fun n => !c.deque.any fun f => f.slot == n).getD 0

/-- A frame goes onto a core's deque as its newest, with its 80 bytes in its place (R141, R143, R145). -/
def State.pushFrame (s : State) (core : Nat) (f : Frame) : State :=
  let c := s.core core
  let f := { f with slot := c.frameSlot }
  let s := s.setCore core { c with deque := c.deque ++ [f] }
  match (c.frameAt core f.slot).bind fun a => s.unitKey (core / 4) a 80 with
  | some k => s.putMem k f.bytes
  | none => s

/-- The frame a SPAWN pushes (R145, R319). -/
def State.frameOf (s : State) (h : Word) (seq : Nat) : Frame :=
  { haddr := h, budlog := (s.me.act.map (·.budlog)).getD 0, job := s.jobOf s.cur, seq := seq, sdev := s.dev,
    pusher := s.srank s.cur, payload := s.me.payload }

/-- SPAWN onto the own deque, after every earlier access has been performed (R319). -/
def spawnOwn (s : State) (rd : Reg) (h : Word) : Out :=
  let c := s.core (coreOf s.cur)
  if s.openAccess s.cur then blockOn s .retry
  else if c.takesFrame then
    let (q, s') := s.takeSeq s.cur
    let s' := s'.pushFrame (coreOf s.cur) (s.frameOf h q)
    writeReg ((s'.countSent s.site (s.jobOf s.cur) 1).countRecv s.site (s.jobOf s.cur) 1) rd 0
  else writeReg s rd 1

/-- SPAWN onto another core's deque: the thread blocks for the answer, and only a frame that was pushed advances the
sequence counter (R146, R319). -/
def spawnFar (s : State) (rd : Reg) (h : Word) (lc : Nat) : Out :=
  match s.me.resp with
  | some r =>
    if r.value = 0 then writeReg (s.takeSeq s.cur).2 rd 0 else writeReg s rd 1
  | none =>
    let q := (s.me.seq + 1).toNat
    let i := s.item s.cur q true (.core lc) (.frame (s.frameOf h q) s.cur)
    .next (((s.countSent s.site i.job 1).emit i).setMe { s.me with status := .blocked .spawn })

/-- SPAWN (R319). -/
def execSpawn (rd rs1 rs2 : Reg) (s : State) : Out :=
  let h := s.rx rs1
  if h.toNat % 4 ≠ 0 then raiseOut s 13 .other h
  else if bitsN h.toNat 63 48 ≠ 0 then operandError s
  else if rs2 = 0 then spawnOwn s rd h
  else
    let t := (s.rx rs2).toNat
    if 2 ^ 15 ≤ t then operandError s
    else match s.coreKey (s.partOfHart s.cur) t with
      | none => operandError s
      | some key => if key = coreOf s.cur then spawnOwn s rd h else spawnFar s rd h t

/-- The sender the current thread is at its own tile. -/
def State.meSender (s : State) (seq : Nat) : Sender :=
  { site := s.site, home := .site s.site, hart := s.cur, rank := s.srank s.cur, job := s.jobOf s.cur,
    part := s.partOfHart s.cur, seq := seq, mid := s.midOf s.cur }

/-- Whether a 128-byte record at a local address lies in the own scratchpad outside the system area (R148, R195). -/
def recordPlace (a : Nat) : Bool := a + 128 ≤ Config.sysArea

/-- An atomic on memory of the own tile, whose returned value is logged with its ordinal (R241); on replay it waits for
its record and returns the logged value (R243). -/
def localAtomic (s : State) (rd : Reg) (f : State → Word × State) : Out :=
  let count (s : State) : State := s.setMe { s.me with nAtomic := s.me.nAtomic + 1 }
  match s.replayed 8 s.me.nAtomic with
  | .wait => blockOn s .retry
  | .value v s => writeReg (count (f s).2) rd v
  | .live =>
    if (s.tile s.site).ringFull then blockOn s .retry
    else
    let (v, s) := f s
    writeReg (count (s.log s.site 8 [s.midOf s.cur, BitVec.ofNat 64 s.me.nAtomic, v, 0] none 32)) rd v

/-- JOINDEC (R148, R320). -/
def execJoindec (rd rs1 : Reg) (s : State) : Out :=
  match s.me.resp with
  | some r => writeReg s rd r.value
  | none =>
    let a := s.rx rs1
    if a.toNat % 64 ≠ 0 then raiseOut s 13 .load a
    else match routeOf a.toNat with
      | .denied => raiseOut s 2 .load a
      | .localWin =>
        if !recordPlace a.toNat then raiseOut s 2 .load a
        else match s.localAcc s.site .write a.toNat 8 with
          | none => raiseOut s 2 .load a
          | some k =>
            if s.openAccess s.cur then blockOn s .retry
            else localAtomic s rd fun s =>
              let (q, s) := s.takeSeq s.cur
              s.join k (s.meSender q)
      | .translated => .next (s.ask (.joindec a.toNat) true)

/-- `n` bytes from byte `o` of a packet, as a number. -/
def packetNum (w : Vector Word 8) (o n : Nat) : Nat :=
  ofBytes (((w.toList.flatMap fun x => bytesOf 8 x.toNat).drop o).take n)
/-- The JOB field of a packet (R88). -/
def packetJob (w : Vector Word 8) : Nat := bitsN (vget 0 w 0).toNat 47 32
/-- The TYPE field of a packet (R88). -/
def packetType (w : Vector Word 8) : Nat := bitsN (vget 0 w 0).toNat 15 8

/-- The device queue an activation's tile writes to: the control tile of rank mod 4, among those there are (R150). -/
def State.devQueueOf (s : State) (p h : Nat) : Nat :=
  let n := (s.ctlTiles p).length
  p * 4 + ((s.rankOf (siteOf h)).getD 0 % 4) % (if n = 0 then 1 else n)

/-- Adds a packet to a device queue unless its sequence number is not later than the issuer's last (R150). -/
def DevQueue.add (d : DevQueue) (w : Vector Word 8) (mid : Word) (h chan rank seq : Nat) : DevQueue :=
  let last := (d.last.find? (·.1 == rank)).map (·.2)
  if (last.map fun l => seqLater seq l).getD true then
    { slots := d.slots ++ [(w, mid, h, chan)], last := SMap.put d.last rank seq }
  else d

/-- The packet a LAUNCH writes: VALID set and JOB replaced by the activation's (R88, R91, R321). -/
def launchPacketOf (w : Vector Word 8) (job : Nat) : Vector Word 8 :=
  vset w 0 ((vget 0 w 0 &&& ~~~0xFFFF00000001#64) ||| BitVec.ofNat 64 (1 + job % 2 ^ 16 * 2 ^ 32))

/-- LAUNCH (R150, R321): blocks while the device queue is full and until every earlier access is performed; in
deterministic mode the packet is written at quantum end. -/
def execLaunch (rs1 : Reg) (s : State) : Out :=
  blockThen s (s.rx rs1) fun w =>
    let p := s.partOfHart s.cur
    let key := s.devQueueOf p s.cur
    let d := SMap.get DevQueue.init s.devq key
    let waiting := (s.net.filter fun i => i.part == p && s.devQueueOf p i.src == key &&
      (match i.body with | .packet _ => true | _ => false)).length
    if s.openAccess s.cur || 64 ≤ d.slots.length + waiting then blockOn s .retry
    else
      let pk := launchPacketOf w (s.jobOf s.cur)
      let (q, s) := s.takeSeq s.cur
      let mid := msgId s.dev (s.srank s.cur) q
      if s.det p then
        .next (s.emit { s.item s.cur q false (.root p) (.packet pk) with stage := .collected, counted := false }).retire
      else .next ({ s with devq := SMap.put s.devq key (d.add pk mid s.cur (s.chanOf s.cur) (s.srank s.cur) q) }).retire

/-- The lowest entry of a queue that no message holds (log 94, DESIGN CHOICE). -/
def Channel.queueSlot (c : Channel) : Nat :=
  ((List.range 32).find? fun n => !c.queue.any fun e => e.1.slot == n).getD 0

/-- Moves the oldest spilled message into a free queue entry (R142). -/
def Channel.refill (c : Channel) : Channel :=
  match c.spill with
  | [] => c
  | m :: t =>
    if c.queue.length < 32 then { queue := c.queue ++ [({ m with slot := c.queueSlot }, false)], spill := t } else c

/-- Frees the queue entry of a message whose activation has retired DONE (R142, R224). -/
def Channel.drop (c : Channel) (arr : Nat) : Channel :=
  Channel.refill { c with queue := c.queue.filter fun e => !(e.2 && e.1.arr == arr) }

/-- Where the entries of a channel stand: its queue in the system area, its spill ring in the bonded block (R141, R143). -/
def Core.entryAt (c : Core) (core ch slot : Nat) (spilled : Bool) : Nat :=
  if spilled then Config.bondedLocal + c.spbase + 80 * 2 ^ c.splog * ch + 80 * slot
  else 0x3D0000 + 0xA00 * (16 * (core % 4) + ch) + 80 * slot

/-- Writes the 80 bytes of a message at its place. -/
def State.putEntry (s : State) (core ch : Nat) (m : Msg) (spilled : Bool) : State :=
  match s.unitKey (core / 4) ((s.core core).entryAt core ch m.slot spilled) 80 with
  | some k => s.putMem k m.bytes
  | none => s

/-- Writes the newest entry of a channel's queue at its place. -/
def State.putNewest (s : State) (core ch : Nat) : State :=
  match ((s.core core).chan ch).queue.getLast? with
  | some e => s.putEntry core ch e.1 false
  | none => s

/-- The end of an activation (R134, R224). -/
def State.finish (s : State) (h : Nat) : State :=
  match (s.thread h).act with
  | none => s
  | some a =>
    let s := s.freeThread h
    match a.origin with
    | .msg m =>
      let c := s.core (coreOf h)
      let old := c.chan a.chan
      let s := s.setCore (coreOf h) (c.setChan a.chan (old.drop m.arr))
      if old.spill.isEmpty then s else s.putNewest (coreOf h) a.chan
    | .frame _ => s

/-- DONE (R134, R322): releases the held sends as COMMIT does, then ends the activation. At M, where there is no
activation to end, only the held sends go. -/
def execDone (s : State) : Out :=
  let s' := s.releaseHeld s.cur s.me.held.length
  if s'.me.held.isEmpty then .next (s'.retire.finish s.cur) else blockOn s' .retry

/-! ### Fence, barrier and waits (R323-R326) -/

/-- Whether an order waits for the earlier accesses to be performed: release, acq_rel, seq_cst (R210, R213). -/
def Order.releases : Order → Bool
  | .release | .acqRel | .seqCst => true
  | _ => false

/-- SYNC (R210, R323): earlier reads have always returned when it issues (R218), so an acquire retires at once. -/
def execSync (order : Order) (_scope : Scope) (s : State) : Out :=
  if Order.releases order && s.openAccess s.cur then blockOn s .retry else .next s.retire

/-- BAR (R203, R324): the arrival goes to the tile of the group's lowest-numbered member core, as a release. -/
def execBar (rs1 : Reg) (s : State) : Out :=
  match s.me.resp with
  | some _ => .next s.retire
  | none =>
    let x := (s.rx rs1).toNat
    if 256 ≤ x then operandError s
    else match s.ownGroup x with
      | none => operandError s
      | some d =>
        let c := s.core (coreOf s.cur)
        let k := SMap.get 0 c.barCount x
        let s' := s.setCore (coreOf s.cur) { c with barCount := SMap.put c.barCount x (k + 1) }
        let i := s'.item s.cur 0 true (.tile ((d.head?.getD 0) / 4))
          (.barrier (s.partOfHart s.cur) x k (s.logCore (coreOf s.cur)))
        let s' := s'.emit { i with counted := false }
        .next (s'.setMe { s'.me with status := .blocked (.barrier x k) })

/-- A wait on one aligned range of the own memory, at location `k`: performed now, or at the first moment its condition holds
(R325, R326); `op` names the location. A tile that replays its log takes the answer from it (R243, R333). -/
def localWait (s : State) (rd : Reg) (op : RetOp) (k home : Nat) : Out :=
  let i := s.item s.cur 0 false (.site home) (.ret op)
  let wait : Out :=
    let s := s.emit { i with counted := false, stage := .held 0 }
    .next (s.setMe { s.me with status := .blocked .response, req := s.ordCtr })
  if (s.tile s.site).replaying then wait
  else match s.performAt op k (s.meSender 0) with
    | (some v, s') => if (s.tile s.site).ringFull then blockOn s .retry else writeReg (s'.logAnswer i v) rd v
    | (none, _) => wait

/-- WAITGEN (R325). -/
def execWaitgen (rd rs2 rs1 : Reg) (s : State) : Out :=
  match s.me.resp with
  | some r => writeReg s rd r.value
  | none =>
    let a := s.rx rs1
    let g := (s.rx rs2).toNat
    if a.toNat % 64 ≠ 0 then raiseOut s 13 .load a
    else if 256 ≤ g then operandError s
    else match routeOf a.toNat with
      | .denied => raiseOut s 2 .load a
      | .localWin =>
        if !recordPlace a.toNat then raiseOut s 2 .load a
        else match s.localAcc s.site .read a.toNat 8 with
          | none => raiseOut s 2 .load a
          | some k => if s.pendingLocal s.cur k 8 then blockOn s .retry else localWait s rd (.waitgen k g) k s.site
      | .translated => .next (s.ask (.waitgen a.toNat g) false)

/-- LDF and LDFE (R326): LDFE writes the bit, so it needs write permission (R189, R326). -/
def ldfOut (s : State) (rd rs1 : Reg) (op : Nat → RetOp) (k : AccKind) : Out :=
  match s.me.resp with
  | some r => writeReg s rd r.value
  | none =>
    let a := s.rx rs1
    if a.toNat % 8 ≠ 0 then raiseOut s 13 .load a
    else match routeOf a.toNat with
      | .denied => raiseOut s 2 .load a
      | .localWin =>
        match s.localAcc s.site k a.toNat 8 with
        | none => raiseOut s 2 .load a
        | some key => if s.pendingLocal s.cur key 8 then blockOn s .retry else localWait s rd (op key) key (s.holder a.toNat)
      | .translated => .next (s.ask (op a.toNat) false)

/-- LDF (R326). -/
def execLdf (rd rs1 : Reg) (s : State) : Out := ldfOut s rd rs1 .ldf .read
/-- LDFE (R326). -/
def execLdfe (rd rs1 : Reg) (s : State) : Out := ldfOut s rd rs1 .ldfe .write

/-- STF (R326): posted; a local one whose release does not hold yet waits at the NI. -/
def execStf (rs2 rs1 : Reg) (s : State) : Out :=
  let a := s.rx rs1
  let bs := bytesOf 8 (s.rx rs2).toNat
  if a.toNat % 8 ≠ 0 then raiseOut s 13 .store a
  else match routeOf a.toNat with
    | .denied => raiseOut s 2 .store a
    | .localWin =>
      match s.localAcc s.site .write a.toNat 8 with
      | none => raiseOut s 2 .store a
      | some k =>
        if s.atHome a.toNat || s.openAccess s.cur then .next (s.postHome (s.holder a.toNat) k bs true true).retire
        else .next (s.putEngine k bs).retire
    | .translated => .next (s.post a.toNat bs true true).retire

/-! ### Atomics (R327, R328) -/

/-- An atomic: at once on the own memory, else as a returning operation at the home (R327, R328). -/
def amoOut (s : State) (op : AmoOp) (order : Order) (dbl : Bool) (rd : Reg) (rs2 : BitVec 4) (rs1 : Reg) : Out :=
  match s.me.resp with
  | some r => writeReg s rd r.value
  | none =>
    let w := if dbl then 8 else 4
    let a := s.rx rs1
    let v := (s.rx (lowReg rs2)).toNat % 2 ^ (8 * w)
    let c := (s.rx rd).toNat % 2 ^ (8 * w)
    if a.toNat % w ≠ 0 then raiseOut s 13 .load a
    else match routeOf a.toNat with
      | .denied => raiseOut s 2 .load a
      | .localWin =>
        match s.localAcc s.site .write a.toNat w with
        | none => raiseOut s 2 .load a
        | some k =>
          if s.pendingLocal s.cur k w || (Order.releases order && s.openAccess s.cur) then blockOn s .retry
          else localAtomic s rd fun s =>
            let (old, s) := s.amo op k w v c
            (sext (8 * w) old, s)
      | .translated => .next (s.ask (.amo op a.toNat w v c) (Order.releases order))

/-- AMOADD (R327). -/
def execAmoadd (order : Order) (_scope : Scope) (dbl : Bool) (rd : Reg) (rs2 : BitVec 4) (rs1 : Reg) (s : State) : Out :=
  amoOut s .add order dbl rd rs2 rs1

/-- AMOAND (R327). -/
def execAmoand (order : Order) (_scope : Scope) (dbl : Bool) (rd : Reg) (rs2 : BitVec 4) (rs1 : Reg) (s : State) : Out :=
  amoOut s .and order dbl rd rs2 rs1

/-- AMOOR (R327). -/
def execAmoor (order : Order) (_scope : Scope) (dbl : Bool) (rd : Reg) (rs2 : BitVec 4) (rs1 : Reg) (s : State) : Out :=
  amoOut s .or order dbl rd rs2 rs1

/-- AMOXOR (R327). -/
def execAmoxor (order : Order) (_scope : Scope) (dbl : Bool) (rd : Reg) (rs2 : BitVec 4) (rs1 : Reg) (s : State) : Out :=
  amoOut s .xor order dbl rd rs2 rs1

/-- AMOMIN (R327). -/
def execAmomin (order : Order) (_scope : Scope) (dbl : Bool) (rd : Reg) (rs2 : BitVec 4) (rs1 : Reg) (s : State) : Out :=
  amoOut s .min order dbl rd rs2 rs1

/-- AMOMAX (R327). -/
def execAmomax (order : Order) (_scope : Scope) (dbl : Bool) (rd : Reg) (rs2 : BitVec 4) (rs1 : Reg) (s : State) : Out :=
  amoOut s .max order dbl rd rs2 rs1

/-- AMOMINU (R327). -/
def execAmominu (order : Order) (_scope : Scope) (dbl : Bool) (rd : Reg) (rs2 : BitVec 4) (rs1 : Reg) (s : State) : Out :=
  amoOut s .minu order dbl rd rs2 rs1

/-- AMOMAXU (R327). -/
def execAmomaxu (order : Order) (_scope : Scope) (dbl : Bool) (rd : Reg) (rs2 : BitVec 4) (rs1 : Reg) (s : State) : Out :=
  amoOut s .maxu order dbl rd rs2 rs1

/-- AMOSWAP (R327). -/
def execAmoswap (order : Order) (_scope : Scope) (dbl : Bool) (rd : Reg) (rs2 : BitVec 4) (rs1 : Reg) (s : State) : Out :=
  amoOut s .swap order dbl rd rs2 rs1

/-- AMOCAS (R327). -/
def execAmocas (order : Order) (_scope : Scope) (dbl : Bool) (rd : Reg) (rs2 : BitVec 4) (rs1 : Reg) (s : State) : Out :=
  amoOut s .cas order dbl rd rs2 rs1

/-- AMOFADD (R327). -/
def execAmofadd (order : Order) (_scope : Scope) (dbl : Bool) (rd : Reg) (rs2 : BitVec 4) (rs1 : Reg) (s : State) : Out :=
  amoOut s .fadd order dbl rd rs2 rs1

/-! ### Capabilities (R329-R331) -/

/-- The capability in a slot of the current core. -/
def State.slot (s : State) (n : BitVec 2) : Option Cap := vget none (s.core (coreOf s.cur)).caps n.toNat
/-- Empties a slot of the current core. -/
def State.clearSlot (s : State) (n : BitVec 2) : State :=
  let c := s.core (coreOf s.cur)
  s.setCore (coreOf s.cur) { c with caps := vset c.caps n.toNat none }

/-- Whether a write issued by the current core under a capability is not performed yet (R329). -/
def State.writesUnder (s : State) (k : Cap) : Bool := s.writesUnderAt (coreOf s.cur) k

/-- HANDOVER waits until the earlier writes are performed (R329). -/
def handoverWait (s : State) (k : Cap) : Out :=
  if s.writesUnder k then blockOn s (.handover k) else .next s.retire

/-- HANDOVER (R192, R329). The message stands from the moment the slot is emptied, and an abort does not recall it; the NI
keeps it until the writes under the capability are performed, and the thread waits with it. -/
def execHandover (rs1 : Reg) (cap : BitVec 2) (s : State) : Out :=
  match s.me.status with
  | .blocked (.handover k) => handoverWait s k
  | _ =>
    match s.destWord .handover (s.rx rs1) with
    | none => operandError s
    | some d =>
      match s.slot cap with
      | none => raiseOut s 3 .other 0
      | some k =>
        if 4 ≤ s.waitingSends s.cur then blockOn s .retry
        else handoverWait ((s.clearSlot cap).sendAll s.cur d 0 s.me.payload (some k) [d.drank]) k

/-- CAPTEST (R330). -/
def execCaptest (rd : Reg) (cap : BitVec 2) (s : State) : Out :=
  writeReg s rd (match s.slot cap with
    | none => 0
    | some k => BitVec.ofNat 64 (2 ^ 63 + bitsN k.base 55 16 * 2 ^ 16 + k.szlog))

/-- CAPTEST.ID (R330). -/
def execCaptestId (rd : Reg) (cap : BitVec 2) (s : State) : Out :=
  writeReg s rd (match s.slot cap with
    | none => 0
    | some k => BitVec.ofNat 64 (2 ^ 63 + k.rid * 2 ^ 16 + k.gen))

/-- CAPDROP waits until the earlier writes are performed (R331). -/
def capdropWait (s : State) (k : Cap) : Out :=
  if s.writesUnder k then blockOn s (.capdrop k) else .next s.retire

/-- CAPDROP (R192, R331): an empty slot has no effect. The notice stands from the moment the slot is emptied, and reaches the
region entry after the writes under the capability. -/
def execCapdrop (cap : BitVec 2) (s : State) : Out :=
  match s.me.status with
  | .blocked (.capdrop k) => capdropWait s k
  | _ =>
    match s.slot cap with
    | none => .next s.retire
    | some k =>
      let s := s.clearSlot cap
      let i := s.item s.cur 0 false (.root (s.partOfHart s.cur)) (.capReturn (s.partOfHart s.cur) k)
      capdropWait (s.emit { i with counted := false }) k

end Sys2Proof.Machine
end

