-- ==== Sys2Proof/Machine/Engine.lean ====
section
/-!
DEFINITION. What the engines of a tile share (R214, R332, R364-R366, R374, R377): reading and writing memory by a
command, parking on a missing page, when a chunk may start, results, reports and completion messages.
-/

namespace Sys2Proof.Machine

/-! ### Memory as an engine reads and writes it -/

/-- Whether a range lies in one segment (R362). -/
def oneSegment (a n : Nat) : Bool := n = 0 || a / 2 ^ 48 == (a + n - 1) / 2 ^ 48

/-- Whether the homes of pieces take an engine's accesses now (R231, R242): the tile's own always does. -/
def State.homesOpen (s : State) (site part : Nat) (l : List (Nat × Nat)) : Bool :=
  l.all fun x => s.homePlace part x.1 == .site site || s.homeDoor part x.1 == .open_

/-- The bytes that a tile which replays its log has a record of as read by its engines: those of the first that holds the range
(R243, R364, log 34, DEDUCED). -/
def State.readLogged (s : State) (site a n : Nat) : Option (List Byte) :=
  let t := s.tile site
  if t.replaying then
    t.replay.findSome? fun r =>
      match r.typ, r.item.map Item.body with
      | 3, some (.ret (.read [(b, m)])) =>
        if b ≤ a && a + n ≤ b + m then some (((((r.body.drop 2).flatMap fun w => bytesOf 8 w.toNat).drop (a - b))).take n) else none
      | _, _ => none
  else none

/-- An engine's read at a tile (R173, R181, R185, R199, R364): the bytes, or the cause (8: missing page; 0: a home takes nothing
now) and the address that failed. A range that leaves its segment takes cause 2 (log 24, DEDUCED). -/
def State.engRead (s : State) (site part a n : Nat) : Except (Nat × Nat) (List Byte) × State :=
  if !oneSegment a n then (.error (2, a), s)
  else match routeOf a with
    | .denied => (.error (2, a), s)
    | .localWin =>
      match s.localAcc site .read a n with
      | some k => (.ok (s.bytes k n), s)
      | none => (.error (2, a), s)
    | .translated =>
      match s.readLogged site a n with
      | some bs => (.ok bs, s)
      | none => if s.homesOpen site part (pieces a n) then s.readAll part (pieces a n) else (.error (0, a), s)

/-- The records of what an engine has read at other homes, one returning access for each range and at most 4,096 bytes in each:
at the home as an item, at the tile as block data (R240, R241, R364). A tile that replays its log has used them up. -/
def State.logReads (s : State) (site part : Nat) (id : Word) (l : List (Nat × Nat)) : State :=
  let cut := (l.filter fun x => routeOf x.1 == .translated).flatMap fun x =>
    (List.range (ceilDiv x.2 4096)).map fun j => (x.1 + 4096 * j, min 4096 (x.2 - 4096 * j))
  cut.foldl (fun s x =>
    let i := { s.item (site * 32) 0 false (homeOf x.1) (.ret (.read [x])) with part := part, mid := id, counted := false }
    let t := s.tile site
    if t.replaying then
      match t.replay.find? fun r => r.typ == 3 && r.item.map Item.body == some i.body with
      | some r => s.setTile site { t with replay := t.replay.erase r }
      | none => s
    else if (pieces x.1 x.2).any fun y => s.homePlace part y.1 == .site site then s
    else match (s.readAll part (pieces x.1 x.2)).1 with
      | .ok bs =>
        let s := match s.homePlace part x.1 with | .site h => s.log h 1 [] (some i) 80 | _ => s
        s.log site 3 (id :: BitVec.allOnes 64 :: (List.range (ceilDiv bs.length 8)).map fun j =>
          BitVec.ofNat 64 (ofBytes ((bs.drop (8 * j)).take 8))) (some i) (16 + ceilDiv bs.length 16 * 16)
      | .error _ => s) s

/-- What became of a write of an engine (R332, R364, R365, R377). -/
inductive Landed where
  /-- landed whole -/
  | all
  /-- a page is missing: the engine parks -/
  | missing (a : Nat)
  /-- the home of the page denied it with cause 2 or 3 -/
  | denied (cause a : Nat)
  /-- the command ends with this cause -/
  | failed (cause a : Nat)
  /-- the pages of a deposit's slot that were denied, with the bytes that landed on the others -/
  | some_ (denied : List (Nat × Nat × Nat)) (landed : Nat)
  /-- a home takes nothing now: the engine tries again (R231, R232, R242) -/
  | refused
  deriving DecidableEq, Repr

/-- The words of a line after an addition to each (R377): `red` 1 adds FP32 elements, 2 integer elements, 3 the word. -/
def State.addWords (s : State) (red k : Nat) (bs : List Byte) : List Byte :=
  (List.range (bs.length / 8)).flatMap fun i =>
    let v := ofBytes ((bs.drop (8 * i)).take 8)
    let old := s.num (k + 8 * i) 8
    bytesOf 8 (
      if red = 3 then (old + v) % 2 ^ 64
      else if red = 2 then (old + v) % 2 ^ 32 + (old / 2 ^ 32 + v / 2 ^ 32) % 2 ^ 32 * 2 ^ 32
      else addF32 (old % 2 ^ 32) (v % 2 ^ 32) + addF32 (old / 2 ^ 32) (v / 2 ^ 32) * 2 ^ 32)

/-- Notes at a home what it has taken of a command, if the sender's tile may replay it. -/
def State.takeLine (s : State) (site : Nat) (home : Dest) (d : Domain) : State :=
  if (s.tile site).prot then s.noteLine home d (s.tile site).ival else s

/-- An engine's write at its home, which performs it once, `num` being the command's number and `line` that of the line or piece (R189,
R194, R243, R376, R377). `red` performs each 8-byte word as an atomic that adds (R377); a poisoned line refuses it (R199). -/
def State.engPut (s : State) (site part num line : Nat) (cap : Option (Nat × Nat)) (red : Nat) (a : Nat) (bs : List Byte) :
    Landed × State :=
  let home := s.homePlace part a
  let rank := (s.rankOf site).getD 0
  let d := Domain.line rank num line
  if !s.homesOpen site part [(a, bs.length)] then (.refused, s)
  else if s.lineTaken home d then (.all, s)
  else match s.resolve part a (some (if red = 0 then .store else .atomic)) cap with
  | (.ok k, s) =>
    if red ≠ 0 && s.poisoned k bs.length then (.failed 11 a, s)
    else
      let new := if red = 0 then bs else s.addWords red k bs
      (.all, ((s.putEngine k new).takeLine site home d).logWrite site part a k bs.length true (some (rank, num, line)))
  | (.bad c, s) => (if c = 8 then .missing a else if c = 2 || c = 3 then .denied c a else .failed c a, s)

/-- An engine's write of bytes within one 64 KiB page with the capability attached at issue (R189, R191, R377). -/
def State.engWrite (s : State) (site part num line : Nat) (caps : List Cap) (red : Nat) (a : Nat) (bs : List Byte) :
    Landed × State :=
  if !oneSegment a bs.length then (.failed 2 a, s)
  else match routeOf a with
    | .denied => (.failed 2 a, s)
    | .localWin =>
      match s.localAcc site .write a bs.length with
      | some k => (.all, s.putEngine k bs)
      | none => (.failed 2 a, s)
    | .translated => s.engPut site part num line (attach caps a) red a bs

/-- Cuts the bytes of a row or line at the page ends. -/
def cutRow (a : Nat) (bs : List Byte) : List (Nat × List Byte) :=
  (pieces a bs.length).map fun p => (p.1, (bs.drop (p.1 - a)).take p.2)

/-- The denials of a command after one more (R332): the destination number, the cause and the first denied address,
one entry per destination; a new one writes its kind 6 record (R193). -/
def State.deny (s : State) (part : Nat) (mid : Word) (l : List (Nat × Nat × Nat)) (dest cause a : Nat) :
    List (Nat × Nat × Nat) × State :=
  if l.any (·.1 == dest) then (l, s) else (l ++ [(dest, cause, a)], s.record6 part cause mid a)

/-- The denial bitmap (R332). -/
def denialMap (l : List (Nat × Nat × Nat)) : Word :=
  BitVec.ofNat 64 (l.foldl (fun n d => n ||| 2 ^ min d.1 63) 0)

/-- The lowest-numbered denial (R332). -/
def firstDenial (l : List (Nat × Nat × Nat)) : Option (Nat × Nat × Nat) :=
  l.foldl (fun b d => match b with | none => some d | some x => if d.1 < x.1 then some d else b) none

/-! ### When a chunk may start (R121, R125, R229, R237) -/

/-- An engine's NI sends its fault for a page (R186, R365). -/
def State.engFault (s : State) (hart srank job part a : Nat) : State :=
  s.emit { s.item hart 0 false (.root part) (.fault a job none) with
    srank := srank, job := job, part := part, counted := false }

/-- Whether no tile of a partition has a full log, so that every refusal of its homes ends with the recovery that causes it (R240,
R242). -/
def State.logsOpen (s : State) (part : Nat) : Bool := (s.partTiles part).all fun b => !(s.tile b.2).logFull

/-- The number of an instruction's command that carries no sequence number: its place in its thread, which a replay repeats. -/
def State.placeKey (s : State) : Nat := 2 ^ 32 * (1 + s.me.actNo * 2 ^ 40 + s.me.retired)

/-- Whether a tile starts chunks: it works, its checkpoint is not closing, no core of it is asked to be pre-empted, and
its partition runs. -/
def State.chunkGate (s : State) (site part : Nat) : Bool :=
  let t := s.tile site
  !t.failed && t.stage != .closing && !t.awaits && !(List.range 4).any (fun k => (s.core (site * 4 + k)).preempt) &&
    (s.part part).stage == .active

/-- In deterministic mode an engine starts at most one chunk per quantum (R125). -/
def State.chunkDue (s : State) (site part eng : Nat) : Bool :=
  !(s.part part).det || vget 0 (s.tile site).chunkQ eng ≤ s.quantaAt site part

/-- Notes that an engine has started its chunk of this quantum. -/
def State.noteChunk (s : State) (site part eng : Nat) : State :=
  let t := s.tile site
  if (s.part part).det then s.setTile site { t with chunkQ := vset t.chunkQ eng (s.quantaAt site part + 1) } else s

/-- Whether accesses that a thread issued before number `ord` are not performed yet (R214). -/
def State.accessBefore (s : State) (hart ord : Nat) : Bool :=
  s.net.any fun i => i.src == hart && decide (i.ord < ord) && i.access

/-! ### Completion (R365, R366, R371, R374, R377) -/

/-- A message an engine sends to the issuing thread's core (R371, R377). -/
def State.engineMsg (s : State) (site hart srank job part kind chan seq : Nat) (dom : Domain) (pl : Vector Word 8) :
    State :=
  let h := mkHeader s.dev srank (srank / 8 * 8) chan kind 0 job s.dev seq
  let m := { mkMsg h pl none with dom := dom }
  let i := s.item hart seq false (.core (srank / 8)) (.message m)
  (s.countSent site job 1).emit { i with src := site * 32, srank := srank, job := job, part := part, mid := m.mid }

/-- The payload of a completion message (R377). -/
def completionWords (eng tag cause landed : Nat) (user : Word) (bitmap : Word) : Vector Word 8 :=
  #v[BitVec.ofNat 64 (eng + tag * 2 ^ 32), BitVec.ofNat 64 cause, BitVec.ofNat 64 landed, user, bitmap, 0, 0, 0]

/-- Records a result; the results of a tag's earlier round leave. -/
def addResult (l : List EngResult) (r : EngResult) : List EngResult := l.filter (·.tag != r.tag) ++ [r]

/-- MWAIT and CPWAIT (R374, R378): `last` is the last tag given, `finished` the results. A tag that no entry of the
64 most recent bears reads as one whose cause is no longer known (log 25, DEDUCED). -/
def waitTag (s : State) (rd rs1 : Reg) (last : Nat) (open_ : Nat → Bool) (finished : List EngResult) : Out :=
  let x := (s.rx rs1).toNat
  if 2 ^ 32 ≤ x || 2 ^ 31 ≤ (last + 2 ^ 32 - x) % 2 ^ 32 then operandError s
  else if open_ x then blockOn s .retry
  else if 64 ≤ (last + 2 ^ 32 - x) % 2 ^ 32 then writeReg s rd 256
  else writeReg s rd (BitVec.ofNat 64 (((resultOf finished x).map (·.cause)).getD 256))

end Sys2Proof.Machine
end

