-- ==== Sys2Proof/Machine/Matrix.lean ====
section
/-!
DEFINITION. Issue of the matrix, floe and accumulator instructions (spec/18_matrix.md R358-R374).
-/

namespace Sys2Proof.Machine

/-! ### The descriptor (R361, R362) -/

/-- Element width in bits of a matrix operand type (R280). -/
def matBits (t : Nat) : Nat := if t = 4 || t = 5 then 16 else if t = 11 then 4 else 8

/-- K-steps of a chunk (R360). -/
def matChunk (t : Nat) : Nat := if t = 4 || t = 5 then 256 else if t = 11 then 1024 else 512

/-- The type pairs of R362. -/
def pairOk (a b : Nat) : Bool :=
  (a == b && (a == 4 || a == 5 || a == 2 || a == 11)) || ((a == 6 || a == 7) && (b == 6 || b == 7))

/-- The fields of a descriptor (R361). -/
def matDescOf (w : Vector Word 8) : MatDesc :=
  let f (i hi lo : Nat) : Nat := bitsN (vget 0 w i).toNat hi lo
  { abase := f 0 55 0, bbase := f 1 55 0, astr := sval 32 (f 2 31 0), bstr := sval 32 (f 2 63 32),
    k := f 3 20 0, atype := f 3 27 24, btype := f 3 31 28, mrow := f 3 38 32, ncol := f 3 45 40, xtra := f 3 63 48,
    cbase := f 4 55 0, cstr := sval 32 (f 5 31 0), ctype := f 5 35 32, send := f 5 63 63 == 1, chan := f 5 62 59,
    ascale := f 6 55 0, bscale := f 7 55 0 }

/-- K-steps of a command (R362). -/
def MatDesc.steps (d : MatDesc) : Nat := ceilDiv d.k 16
/-- Bytes of one A row or B column. -/
def MatDesc.rowBytes (d : MatDesc) : Nat := d.k * matBits d.atype / 8

/-- The operand checks of R362; bits that R361 gives no field in words 6 and 7 count as reserved (log 26, DEDUCED). -/
def matDescOk (w : Vector Word 8) (d : MatDesc) (store : Bool) (koff : Nat) : Bool :=
  let f (i hi lo : Nat) : Nat := bitsN (vget 0 w i).toNat hi lo
  f 0 63 56 == 0 && f 1 63 56 == 0 && f 4 63 56 == 0 && f 6 63 56 == 0 && f 7 63 56 == 0 &&
    f 3 47 46 == 0 && f 3 39 39 == 0 && f 3 23 21 == 0 && f 5 58 36 == 0 &&
    decide (1 ≤ d.mrow && d.mrow ≤ 64 && 1 ≤ d.ncol && d.ncol ≤ 48 && 1 ≤ d.k && d.k ≤ 2 ^ 20) &&
    (if store then d.ctype == 3 || d.ctype == 4 else d.cbase == 0 && d.ctype == 0) &&
    pairOk d.atype d.btype &&
    (if d.atype = 11 then d.k % 32 == 0 && d.ascale != 0 && d.bscale != 0 else d.ascale == 0 && d.bscale == 0) &&
    decide (koff < d.steps)

/-- The alignment checks of R362. -/
def MatDesc.aligned (d : MatDesc) (store : Bool) : Bool :=
  let e := if d.atype = 11 then 16 else matBits d.atype / 8
  d.abase % e == 0 && d.bbase % e == 0 && d.astr % e == 0 && d.bstr % e == 0 &&
    (!store || (d.cbase % d.cbytes == 0 && d.cstr % (d.cbytes : Int) == 0))

/-- A row i: address. -/
def MatDesc.aRow (d : MatDesc) (i : Nat) : Nat := strided d.abase d.astr i
/-- B column j: address. -/
def MatDesc.bCol (d : MatDesc) (j : Nat) : Nat := strided d.bbase d.bstr j

/-- The ranges a command of `rows` A rows and `cols` B columns reads (R361). -/
def MatDesc.reads (d : MatDesc) (rows cols : Nat) : List (Nat × Nat) :=
  ((List.range rows).map fun i => (d.aRow i, d.rowBytes)) ++ ((List.range cols).map fun j => (d.bCol j, d.rowBytes)) ++
    (if d.atype = 11 then
      ((List.range rows).map fun i => (d.ascale + i * (d.k / 32), d.k / 32)) ++
        ((List.range cols).map fun j => (d.bscale + j * (d.k / 32), d.k / 32))
    else [])

/-- The first local row of an MMA that the protection error of R362 refuses. -/
def State.badLocal (s : State) (k : AccKind) (l : List (Nat × Nat)) : Option Nat :=
  (l.find? fun r =>
    match routeOf r.1 with
    | .denied => true
    | .localWin => (s.localAcc s.site k r.1 r.2).isNone
    | .translated => false).map (·.1)

/-- Reads and checks a descriptor (R361, R362), then goes on with its fields. -/
def matIssue (s : State) (store : Bool) (rs1 rs2 : Reg) (xtra : MatDesc → Bool) (k : MatDesc → Out) : Out :=
  blockThen s (s.rx rs1) fun w =>
    let d := matDescOf w
    if !matDescOk w d store (s.rx rs2).toNat || !xtra d then operandError s
    else if !d.aligned store then raiseOut s 13 .load (s.rx rs1)
    else k d

/-! ### The engine's queue (R358, R359) -/

/-- Entries of a tile's engine queue, the running one included (R358, log 47, DEDUCED). -/
def Tile.matLoad (t : Tile) : Nat := t.mqueue.length + (if t.mrun.isSome then 1 else 0)

/-- Accepts an entry: it gets the next tag (R359). -/
def State.accept (s : State) (site : Nat) (c : MatCmd) : Nat × State :=
  let t := s.tile site
  let q := (t.mtag + 1) % 2 ^ 32
  (q, s.setTile site { t with mtag := q, mqueue := t.mqueue ++ [{ c with tag := q }] })

/-- A command of the current thread with everything it reads at issue (R260, R363, R367). -/
def State.matCmd (s : State) (op : MatOp) (acc : BitVec 3) (store decay zero : Bool) (koff : Nat) (d : MatDesc)
    (at_ : Word) : MatCmd :=
  { op := op, acc := acc.toNat, store := store, decay := decay, zero := zero, dcy := s.me.accdecay, koff := koff,
    desc := d, descAt := at_, tag := 0, src := s.cur, srank := s.srank s.cur, job := s.jobOf s.cur,
    part := s.partOfHart s.cur, ach := s.chanOf s.cur, seq := 0, ord := s.ordCtr,
    caps := (s.core (coreOf s.cur)).slots, guard := none, key := s.placeKey }

/-- Notes the command a thread issued last (R366). -/
def State.noteCmd (s : State) (eng site tag : Nat) : State :=
  s.setMe { s.me with lastCmd := some { eng := eng, site := site, tag := tag } }

/-- Hands a command to the own engine and returns its tag (R358, R359). -/
def acceptOut (s : State) (rd : Reg) (eng : Nat) (c : MatCmd) : Out :=
  if 16 ≤ (s.tile s.site).matLoad then blockOn s .retry
  else
    let (q, s) := s.accept s.site c
    writeReg (s.noteCmd eng s.site q) rd (BitVec.ofNat 64 q)

/-- MMA (R363). -/
def execMma (store decay zero : Bool) (rd : Reg) (acc : BitVec 3) (rs1 rs2 : Reg) (s : State) : Out :=
  matIssue s store rs1 rs2 (fun d => d.xtra == 0) fun d =>
    match s.badLocal .read (d.reads d.mrow d.ncol) with
    | some a => raiseOut s 2 .load (BitVec.ofNat 64 a)
    | none =>
      match (if store then s.badLocal .write (d.writes d.mrow d.ncol) else none) with
      | some a => raiseOut s 2 .store (BitVec.ofNat 64 a)
      | none => acceptOut s rd 1 (s.matCmd .mma acc store decay zero (s.rx rs2).toNat d (s.rx rs1))

/-! ### The floe (R29, R368) -/

/-- The sites of a floe, row by row (R29). -/
def Floe.members (f : Floe) : List Nat := f.rows.flatMap fun r => f.cols.map fun c => r * 96 + c

/-- The member where further commands wait (R368). -/
def Floe.origin (f : Floe) : Nat := f.members.head?.getD 0

/-- Starts the first waiting floe command if none runs and every member has room for its entry (R358, R368). -/
def State.floeNext (s : State) (p : Nat) : State :=
  match (s.part p).floe with
  | none => s
  | some f =>
    match f.run, f.waiting with
    | none, c :: rest =>
      if f.members.any fun m => 16 ≤ (s.tile m).matLoad then s
      else
        let s := s.setPart p { s.part p with
          floe := some { f with run := some c, k := c.koff, row := 0, begun := false, park := none, stored := [],
                                landed := 0, denied := [], waiting := rest, storing := [] } }
        f.members.foldl (fun s m => (s.accept m { c with op := .floe }).2) s
    | _, _ => s

/-- What a floe keeps of a command of a thread that it has accepted already (R245). -/
def Floe.note (f : Floe) (srank key : Nat) : Option FloeNote := f.known.find? fun n => n.srank == srank && n.key == key

/-- The next tag of the current tile (R359). -/
def State.nextTag (s : State) : Nat × State :=
  let t := s.tile s.site
  let q := (t.mtag + 1) % 2 ^ 32
  (q, s.setTile s.site { t with mtag := q })

/-- The result of a floe command at a tile under its tag there, if it is known. -/
def State.giveResult (s : State) (site : Nat) (r : Option EngResult) (tag : Nat) : State :=
  match r with
  | some r => s.setTile site { s.tile site with mdone := addResult (s.tile site).mdone { r with tag := tag } }
  | none => s

/-- FMMA (R368): the command takes a tag of the issuer's tile and no entry of its queue. A floe that no site is left in counts as
none (log 47, DEDUCED). A command that a replayed tile issues again and that the floe has accepted is dropped as a duplicate (R245). -/
def execFmma (store decay zero : Bool) (rd : Reg) (acc : BitVec 3) (rs1 rs2 : Reg) (s : State) : Out :=
  let p := s.partOfHart s.cur
  let again := (s.part p).floe.bind fun f => f.note (s.srank s.cur) s.placeKey
  let ok (d : MatDesc) : Bool :=
    match (s.part p).floe with
    | some f => d.mrow == 64 && d.ncol == 48 && (again.isSome || d.xtra == f.fgen) && !f.members.isEmpty
    | none => false
  matIssue s store rs1 rs2 ok fun d =>
    match (s.part p).floe, again with
    | none, _ => operandError s
    | some _, some n =>
      let (q, s) := s.nextTag
      writeReg ((s.giveResult s.site n.result q).noteCmd 2 s.site q) rd (BitVec.ofNat 64 q)
    | some f, none =>
      if 4 ≤ f.waiting.length then blockOn s .retry
      else
        let c := s.matCmd .floe acc store decay zero (s.rx rs2).toNat d (s.rx rs1)
        let known := if (s.tile s.site).prot then
            f.known ++ [{ srank := c.srank, key := c.key, ival := (s.tile s.site).ival, result := none }]
          else f.known
        let (q, s) := s.nextTag
        let s := s.setPart p { s.part p with floe := some { f with waiting := f.waiting ++ [{ c with tag := q }], known := known } }
        writeReg ((s.noteCmd 2 s.site q).floeNext p) rd (BitVec.ofNat 64 q)

/-! ### MCMD (R367) -/

/-- Whether every address of an MCMD is translated (R367). -/
def MatDesc.remote (d : MatDesc) (store : Bool) : Bool :=
  let far (a : Nat) : Bool := segOf a != 0
  far d.abase && far d.bbase && (!store || far d.cbase) && (d.atype != 11 || (far d.ascale && far d.bscale))

/-- MCMD (R367): an item with one sequence number, a release. An empty slot is found out at the target. -/
def execMcmd (store decay zero : Bool) (cap : BitVec 2) (acc : BitVec 3) (rs1 rs2 : Reg) (s : State) : Out :=
  let p := s.partOfHart s.cur
  matIssue s store rs1 rs2 (fun d => d.xtra / 2 ^ 13 == 0 && d.remote store && s.isRanked p d.xtra) fun d =>
    let target := (s.siteOfRank d.xtra).getD 0
    let (q, s) := s.takeSeq s.cur
    let c := { s.matCmd .mcmd acc store decay zero (s.rx rs2).toNat d (s.rx rs1) with seq := q, key := q, guard := s.slot cap }
    let s := s.emit { s.item s.cur q true (.tile d.xtra) (.mcmd c) with counted := false }
    .next (s.noteCmd 3 target q).retire

/-! ### Arithmetic on the accumulator (R261-R263) -/

/-- Location of an accumulator (R178). -/
def accAt (site acc : Nat) : Nat := kAcc site + 12288 * acc

/-- The rows of an accumulator, 64 of 48 FP32 patterns (R178). -/
def State.accRows (s : State) (site acc : Nat) : List (List Nat) :=
  (List.range 64).map fun i => (List.range 48).map fun j => s.num (accAt site acc + 4 * (48 * i + j)) 4

/-- Writes the rows back. -/
def State.setAccRows (s : State) (site acc : Nat) (w : List (List Nat)) : State :=
  { s with mem := Memory.writeN s.mem (accAt site acc) (w.flatten.flatMap (bytesOf 4)) }

/-- Applies a function to the first m rows and n columns. -/
def mapBlock (m n : Nat) (f : Nat → Nat) (w : List (List Nat)) : List (List Nat) :=
  (w.take m).map (fun r => (r.take n).map f ++ r.drop n) ++ w.drop m

/-- Zeroing and decay of the working copy (R363). -/
def MatCmd.prepare (c : MatCmd) (w : List (List Nat)) : List (List Nat) :=
  let w := if c.zero then mapBlock c.desc.mrow c.desc.ncol (fun _ => 0) w else w
  if c.decay then mapBlock c.desc.mrow c.desc.ncol (decayStep c.dcy.toNat) w else w

/-- An exact product of operand elements; an integer zero has no sign (R262). -/
def matMul (t : Nat) (a b : FVal) : FVal :=
  match mulV a b with
  | .fin s n e => if t = 2 && n = 0 then .fin false 0 0 else .fin s n e
  | v => v

/-- One K-step along a row of the working copy: one element per B column (R261). -/
def stepRow (t : Nat) (a : List FVal) : List (List FVal) → List Nat → List Nat
  | b :: bs, x :: xs => kStep x (List.zipWith (matMul t) a b) :: stepRow t a bs xs
  | _, xs => xs

/-- One K-step on the working copy (R261, R363). -/
def stepBlock (t : Nat) (b : List (List FVal)) : List (List FVal) → List (List Nat) → List (List Nat)
  | a :: as, x :: xs => stepRow t a b x :: stepBlock t b as xs
  | _, xs => xs

/-- The value of an operand element (R249, R250, R262). -/
def operandVal (t scale x : Nat) : FVal :=
  if t = 2 then intV (sval 8 x) else if t = 4 then decodeF bf16 x else if t = 5 then decodeF f16 x
  else if t = 6 then decodeF e4m3 x else if t = 7 then decodeF e5m2 x else mxVal scale x

/-- Where the rows of a command's block come from: the tiles whose local windows hold the A rows and the B columns, and
the first row and column of the block (R363, R368). -/
structure Geom where
  siteA : Nat
  siteB : Nat
  row0  : Nat
  col0  : Nat
  deriving DecidableEq, Repr

/-- The elements of one operand row for K-step k, as values; the range read is their bytes. -/
def State.slice (s : State) (site part t kdim base scale k : Nat) : Except (Nat × Nat) (List FVal) × State :=
  let n := min 16 (kdim - 16 * k)
  match s.engRead site part (base + 16 * k * matBits t / 8) (ceilDiv (n * matBits t) 8) with
  | (.error e, s) => (.error e, s)
  | (.ok bs, s) =>
    let (sc, s) := if t = 11 then s.engRead site part (scale + 16 * k / 32) 1 else (.ok [], s)
    match sc with
    | .error e => (.error e, s)
    | .ok c =>
      let x := ofBytes bs
      (.ok ((List.range n).map fun i => operandVal t (ofBytes c) (x / 2 ^ (matBits t * i) % 2 ^ matBits t)), s)

/-- The slices of a list of rows (address, scale address), or the index of the first that fails. -/
def State.slices (s : State) (site part t kdim k idx : Nat) :
    List (Nat × Nat) → Except (Nat × Nat × Nat) (List (List FVal)) × State
  | [] => (.ok [], s)
  | (a, sc) :: rest =>
    if !oneSegment a (kdim * matBits t / 8) then (.error (idx, 2, a), s)
    else match s.slice site part t kdim a sc k with
      | (.error (c, x), s) => (.error (idx, c, x), s)
      | (.ok v, s) =>
        match s.slices site part t kdim k (idx + 1) rest with
        | (.error e, s) => (.error e, s)
        | (.ok vs, s) => (.ok (v :: vs), s)

/-- The first of a list of rows (address, scale address) of `k` elements that a tile's own memory or its protection does not hold as
a whole (R368). -/
def State.rowRefused (s : State) (site t k : Nat) (rows : List (Nat × Nat)) : Option (Nat × Nat) :=
  let bad (a n : Nat) : Bool := routeOf a == .localWin && (s.localAcc site .read a n).isNone
  (((List.range rows.length).zip rows).findSome? fun x =>
    if bad x.2.1 (k * matBits t / 8) then some (x.1, x.2.1)
    else if t = 11 && bad x.2.2 (k / 32) then some (x.1, x.2.2) else none)

/-- The operands of K-step k of a block: the A rows and the B columns, or the row, cause and address that fail. A floe member checks
each of its local rows as a whole (R362, R368). -/
def State.operands (s : State) (g : Geom) (c : MatCmd) (k : Nat) :
    Except (Nat × Nat × Nat) (List (List FVal) × List (List FVal)) × State :=
  let d := c.desc
  let sc (base i : Nat) : Nat := base + i * (d.k / 32)
  let rows := (List.range d.mrow).map fun i => (d.aRow (g.row0 + i), sc d.ascale (g.row0 + i))
  let cols := (List.range d.ncol).map fun j => (d.bCol (g.col0 + j), sc d.bscale (g.col0 + j))
  let refused := if c.op != .floe then none
    else match s.rowRefused g.siteA d.atype d.k rows with
      | some x => some x
      | none => (s.rowRefused g.siteB d.btype d.k cols).map fun x => (d.mrow + x.1, x.2)
  match refused with
  | some (row, a) => (.error (row, 2, a), s)
  | none =>
  match s.slices g.siteA c.part d.atype d.k k 0 rows with
  | (.error e, s) => (.error e, s)
  | (.ok a, s) =>
    match s.slices g.siteB c.part d.btype d.k k d.mrow cols with
    | (.error e, s) => (.error e, s)
    | (.ok b, s) => (.ok (a, b), s)

/-- The parts of the operand rows that K-steps `k` to `k' - 1` of a block read. -/
def MatCmd.stepReads (c : MatCmd) (g : Geom) (k k' : Nat) : List (Nat × Nat) :=
  let d := c.desc
  let first := 16 * k
  let n := min d.k (16 * k') - first
  let part (a : Nat) : Nat × Nat := (a + first * matBits d.atype / 8, ceilDiv (n * matBits d.atype) 8)
  let scale (base i : Nat) : Nat × Nat := (base + i * (d.k / 32) + first / 32, (first + n - 1) / 32 - first / 32 + 1)
  let rows := List.range d.mrow
  let cols := List.range d.ncol
  if n = 0 then []
  else (rows.map fun i => part (d.aRow (g.row0 + i))) ++ (cols.map fun j => part (d.bCol (g.col0 + j))) ++
    (if d.atype = 11 then rows.map (fun i => scale d.ascale (g.row0 + i)) ++ cols.map fun j => scale d.bscale (g.col0 + j) else [])

/-- Runs up to `n` K-steps from k on a working copy: where it got to, the copy, and the row, cause and address that
stopped it. -/
def State.ksteps (s : State) (g : Geom) (c : MatCmd) : Nat → Nat → List (List Nat) →
    (Nat × List (List Nat) × Option (Nat × Nat × Nat)) × State
  | 0, k, w => ((k, w, none), s)
  | n + 1, k, w =>
    match s.operands g c k with
    | (.error e, s) => ((k, w, some e), s)
    | (.ok (a, b), s) => s.ksteps g c n (k + 1) (stepBlock c.desc.atype b a w)

/-- The block a tile's engine computes for a command: its own, or its place in the floe (R363, R368). -/
def State.geom (s : State) (site : Nat) (c : MatCmd) : Geom :=
  match c.op, (s.part c.part).floe with
  | .floe, some f =>
    let r := indexIn f.rows (site / 96)
    let q := indexIn f.cols (site % 96)
    { siteA := site / 96 * 96 + f.cols.head?.getD 0, siteB := f.rows.head?.getD 0 * 96 + site % 96, row0 := 64 * r,
      col0 := 48 * q }
  | _, _ => { siteA := site, siteB := site, row0 := 0, col0 := 0 }

/-! ### Accumulator operations (R372, R373) -/

/-- The first row and the count of R372. -/
def rowsOperand (x : Nat) : Option (Nat × Nat) :=
  let first := bitsN x 5 0
  let count := bitsN x 14 8
  if bitsN x 7 6 == 0 && bitsN x 63 15 == 0 && 1 ≤ count && count ≤ 64 && first + count ≤ 64 then some (first, count)
  else none

/-- Whether a command runs on an accumulator, so that it owns it (R359). -/
def Tile.owner (t : Tile) (acc : Nat) : Option MatRun := t.mrun.filter fun r => r.cmd.acc == acc

/-- The snapshot ACCRD takes of an owned accumulator (R372): the working copy at a K-step of the current chunk that the
spec leaves open (a free value, log 6, DESIGN CHOICE), and that K-step. -/
def State.snapshot (s : State) (site : Nat) (r : MatRun) : List (List Nat) × Nat × State :=
  let w := s.accRows site r.cmd.acc
  if r.cmd.op.isAcc then (w, 0, s)
  else
    let (k0, begun, park) := match r.cmd.op, (s.part r.cmd.part).floe with
      | .floe, some f => (f.k, f.begun, f.park.isSome)
      | _, _ => (r.k, r.begun, r.park.isSome)
    let (x, s) := s.free
    let n := if park then 0 else x.toNat % (min (matChunk r.cmd.desc.atype) (r.cmd.desc.steps - k0) + 1)
    if n = 0 then (w, k0, s)
    else
      match s.ksteps (s.geom site r.cmd) r.cmd n k0 (if begun then w else r.cmd.prepare w) with
      | ((k, w', _), s) => (if k = k0 then w else w', k, s)

/-- ACCRD (R372). -/
def execAccrd (rd : Reg) (acc : BitVec 3) (rs1 rs2 : Reg) (s : State) : Out :=
  let a := s.rx rs1
  if a.toNat % 64 ≠ 0 then raiseOut s 13 .store a
  else match rowsOperand (s.rx rs2).toNat with
    | none => operandError s
    | some (first, count) =>
      match s.blockKey .write a.toNat (192 * count) with
      | .error c => raiseOut s c .store a
      | .ok key =>
        if Config.sysArea < a.toNat + 192 * count then raiseOut s 2 .store a
        else if s.pendingLocal s.cur key (192 * count) then blockOn s .retry
        else
          let (w, step, s) := match (s.tile s.site).owner acc.toNat with
            | some r =>
              let (w, k, s) := s.snapshot s.site r
              (w, BitVec.ofNat 64 (2 ^ 63 + r.cmd.tag % 2 ^ 31 * 2 ^ 32 + k), s)
            | none => (s.accRows s.site acc.toNat, (0 : Word), s)
          let bytes := (((w.drop first).take count).flatten).flatMap (bytesOf 4)
          writeReg (s.putMem key bytes) rd step

/-- An address operand of 64-byte alignment and `n` bytes of an accumulator operation: a local one is checked at issue
as R362 checks an MMA's, a translated one at its home (R365, R373). -/
def accAddress (s : State) (a : Word) (k : AccKind) (n : Nat) (far : Bool) (next : Out) : Out :=
  let site : Site := if k = .write then .store else .load
  if a.toNat % 64 ≠ 0 then raiseOut s 13 site a
  else match routeOf a.toNat with
    | .denied => raiseOut s 2 site a
    | .localWin => if (s.localAcc s.site k a.toNat n).isNone then raiseOut s 2 site a else next
    | .translated => if far then next else operandError s

/-- A descriptor with no field set, for entries that have none. -/
def MatDesc.none : MatDesc := matDescOf (Vector.replicate 8 0)

/-- ACCWR (R373). -/
def execAccwr (rd : Reg) (acc : BitVec 3) (rs1 rs2 : Reg) (s : State) : Out :=
  match rowsOperand (s.rx rs2).toNat with
  | none => operandError s
  | some (first, count) =>
    accAddress s (s.rx rs1) .read (192 * count) false
      (acceptOut s rd 4 (s.matCmd (.accwr (s.rx rs1).toNat first count) acc false false false 0 MatDesc.none 0))

/-- ACCZERO (R373). -/
def execAcczero (rd : Reg) (acc : BitVec 3) (s : State) : Out :=
  acceptOut s rd 4 (s.matCmd .acczero acc false false false 0 MatDesc.none 0)

/-- ACCSPILL (R373). -/
def execAccspill (zero : Bool) (rd : Reg) (acc : BitVec 3) (rs1 : Reg) (s : State) : Out :=
  accAddress s (s.rx rs1) .write 12288 true
    (acceptOut s rd 4 (s.matCmd (.accspill (s.rx rs1).toNat) acc false false zero 0 MatDesc.none 0))

/-- ACCFILL (R373). -/
def execAccfill (rd : Reg) (acc : BitVec 3) (rs1 : Reg) (s : State) : Out :=
  accAddress s (s.rx rs1) .read 12288 true
    (acceptOut s rd 4 (s.matCmd (.accfill (s.rx rs1).toNat) acc false false false 0 MatDesc.none 0))

/-- Whether a tag of a tile's matrix engine is queued or running, as a local entry or as a floe command (R374). -/
def State.matOpen (s : State) (site tag : Nat) : Bool :=
  let t := s.tile site
  let mine (c : MatCmd) : Bool := c.tag == tag && siteOf c.src == site
  t.mqueue.any (·.tag == tag) || (((t.mrun.map fun r => r.cmd.tag == tag)).getD false) ||
    (match s.floeOf site with
     | some f => f.waiting.any mine || ((f.run.map mine).getD false)
     | none => false)

/-- MWAIT (R374). -/
def execMwait (rd rs1 : Reg) (s : State) : Out :=
  let t := s.tile s.site
  waitTag s rd rs1 t.mtag (s.matOpen s.site) t.mdone

end Sys2Proof.Machine
end

