-- ==== Sys2Proof/Machine/Window.lean ====
section
/-!
DEFINITION. The on-chip window map (spec/09_memory.md R175, R177-R180, R188; R111-R113, R143): reading and writing the
objects of a tile window and of a partition window, as copy packets and the copy engine do.
-/

namespace Sys2Proof.Machine

/-- Which window an on-chip address names (R177). -/
inductive Window where
  | tile (site : Nat)
  | part (p : Nat)
  deriving DecidableEq, Repr

/-- The objects of R178 and R180. -/
inductive WinObj where
  | scratch
  | acc (a : Nat)
  | regs (t : Nat)
  | handlers (k : Nat)
  | control (k : Nat)
  | protection
  | groups
  | ptroot
  | regions
  deriving DecidableEq, Repr

/-- An on-chip address decoded for a partition: the window and the offset (R177). A privileged queue, partition 0, reaches
the window of every bound tile and no partition window (log 39, DEDUCED). -/
def State.window (s : State) (p a : Nat) : Option (Window × Nat) :=
  if bitsN a 47 47 = 1 then
    if bitsN a 46 32 = 0 && p != 0 then some (.part p, a % 2 ^ 32) else none
  else if bitsN a 46 45 ≠ 0 then none
  else
    let tiles := if p = 0 then s.binding else s.partTiles p
    (tiles.find? (·.1 == bitsN a 44 32)).map fun b => (.tile b.2, a % 2 ^ 32)

/-- The object at an offset, where it starts and how long it is (R178, R180). -/
def Window.object (w : Window) (o : Nat) : Option (WinObj × Nat × Nat) :=
  match w with
  | .tile _ =>
    if o < 0x400000 then some (.scratch, 0, 0x400000)
    else if 0x1000000 ≤ o && o < 0x1018000 then
      let a := (o - 0x1000000) / 0x3000
      some (.acc a, 0x1000000 + 0x3000 * a, 0x3000)
    else if 0x2000000 ≤ o && o < 0x2020000 then
      let t := (o - 0x2000000) / 0x1000
      some (.regs t, 0x2000000 + 0x1000 * t, 0x1000)
    else if 0x3000000 ≤ o && o < 0x3000800 then
      let k := (o - 0x3000000) / 0x200
      let b := 0x3000000 + 0x200 * k
      if o < b + 0x100 then some (.handlers k, b, 0x100)
      else if o < b + 0x140 then some (.control k, b + 0x100, 0x40)
      else none
    else if 0x3001000 ≤ o && o < 0x3001080 then some (.protection, 0x3001000, 0x80)
    else none
  | .part _ =>
    if o < 0x40000 then some (.groups, 0, 0x40000)
    else if 0x40000 ≤ o && o < 0x40008 then some (.ptroot, 0x40000, 8)
    else if 0x100000 ≤ o && o < 0x200000 then some (.regions, 0x100000, 0x100000)
    else none

/-- A piece of a range within one object: the object, its start, the piece's offset and length. -/
structure WinRun where
  obj  : WinObj
  base : Nat
  off  : Nat
  len  : Nat
  deriving DecidableEq, Repr

/-- Cuts a range into pieces of listed objects; none if a byte of it is in no object (R177). -/
def Window.runs (w : Window) : Nat → Nat → Nat → Option (List WinRun)
  | 0, _, _ => none
  | fuel + 1, o, n =>
    if n = 0 then some []
    else match w.object o with
      | none => none
      | some (b, base, size) =>
        let m := min n (base + size - o)
        (w.runs fuel (o + m) (n - m)).map fun l => { obj := b, base := base, off := o, len := m } :: l

/-! ### The objects as bytes -/

/-- PEND of a channel (R113, R224). -/
def Channel.pend (c : Channel) : Nat := min ((c.queue.filter fun e => !e.2).length + c.spill.length) 0xFFFF

/-- The handler table of a core (R113). -/
def Core.handlerBytes (c : Core) : List Byte :=
  (List.range 16).flatMap fun i =>
    let h := c.handler i
    bytesOf 8 h.haddr.toNat ++
      bytesOf 8 ((c.chan i).pend * 2 ^ 48 + h.budlog * 2 ^ 20 + ofBool h.single * 128 + ofBool h.carry * 64 +
        ofBool h.en * 32 + h.prio)

/-- The control block of a core (R143). -/
def Core.controlBytes (c : Core) : List Byte :=
  bytesOf 8 c.spbase ++ bytesOf 8 (c.dqlog * 256 + c.splog) ++ bytesOf 8 c.dqbase ++ bytesOf 40 0

/-- The register window of a thread (R179). -/
def Thread.windowBytes (t : Thread) : List Byte :=
  (t.x.toList.flatMap fun w => bytesOf 8 w.toNat) ++ (t.v.toList.flatMap fun w => bytesOf 64 w.toNat) ++
    (t.m.toList.flatMap fun w => bytesOf 8 w.toNat) ++
    ([t.pc, t.lpstart, t.lpend, t.lpcount, t.hcause, t.haddr, t.hmsgid].flatMap fun w => bytesOf 8 w.toNat) ++
    bytesOf (0x1000 - 0x558) 0

/-- The `i`-th 8-byte word of an image. -/
def imgWord (l : List Byte) (i : Nat) : Nat := ofBytes ((l.drop (8 * i)).take 8)
/-- The number of `n` bytes at an offset of an image. -/
def imgNum (l : List Byte) (o n : Nat) : Nat := ofBytes ((l.drop o).take n)
/-- An image with bytes replaced from an offset up. -/
def overlay (l : List Byte) (o : Nat) (bs : List Byte) : List Byte := l.take o ++ bs ++ l.drop (o + bs.length)

/-- A handler table from its image: the RW fields (R113). -/
def Core.setHandlers (c : Core) (l : List Byte) : Core :=
  { c with handlers := Vector.ofFn fun i =>
      let w0 := imgWord l (2 * i.val)
      let w1 := imgWord l (2 * i.val + 1)
      { haddr := BitVec.ofNat 64 (bitsN w0 47 2 * 4), budlog := bitsN w1 24 20, single := bitsN w1 7 7 == 1,
        carry := bitsN w1 6 6 == 1, en := bitsN w1 5 5 == 1, prio := bitsN w1 2 0 } }

/-- A register window from its image; read-only words and x0 are kept (R179). -/
def Thread.setWindow (t : Thread) (l : List Byte) : Thread :=
  { t with
    x := Vector.ofFn fun i => if i.val = 0 then 0 else BitVec.ofNat 64 (imgWord l i.val)
    v := Vector.ofFn fun i => BitVec.ofNat 512 (imgNum l (0x100 + 64 * i.val) 64)
    m := Vector.ofFn fun i => BitVec.ofNat 64 (imgNum l (0x500 + 8 * i.val) 8)
    pc := BitVec.ofNat 64 (imgNum l 0x520 8) &&& ~~~3#64
    lpstart := BitVec.ofNat 64 (imgNum l 0x528 8) &&& ~~~3#64
    lpend := BitVec.ofNat 64 (imgNum l 0x530 8) &&& ~~~3#64
    lpcount := BitVec.ofNat 64 (imgNum l 0x538 8) }

/-! ### Checks that give error 4 -/

/-- The areas a control block claims in the bonded block: start and length (R143). -/
def Core.areas (c : Core) : List (Nat × Nat) :=
  (if c.splog = 0 then [] else [(c.spbase, 16 * 80 * 2 ^ c.splog)]) ++
    (if c.dqlog = 0 then [] else [(c.dqbase, 80 * 2 ^ c.dqlog)])

/-- Whether two ranges are disjoint. -/
def apart (x y : Nat × Nat) : Bool := x.1 + x.2 ≤ y.1 || y.1 + y.2 ≤ x.1

/-- Whether every two ranges of a list are disjoint. -/
def allApart : List (Nat × Nat) → Bool
  | [] => true
  | x :: t => t.all (apart x) && allApart t

/-- A core with the control block of an image. -/
def Core.setControl (c : Core) (l : List Byte) : Core :=
  { c with spbase := imgWord l 0 % 2 ^ 32, dqlog := bitsN (imgWord l 1) 12 8, splog := bitsN (imgWord l 1) 4 0,
           dqbase := imgWord l 2 % 2 ^ 32 }

/-- Whether a core holds a spilled message or a spilled frame (R143). -/
def Core.spilled (c : Core) : Bool := c.channels.any (fun x => !x.spill.isEmpty) || c.deque.any fun f => decide (64 ≤ f.slot)

/-- The rules of R143 for a new control block of core k of a site. -/
def State.controlOk (s : State) (site k : Nat) (new : Core) : Bool :=
  let old := s.core (site * 4 + k)
  let all := new.areas ++ ((List.range 4).filter (· != k)).flatMap fun j => (s.core (site * 4 + j)).areas
  let same := old.spbase == new.spbase && old.splog == new.splog && old.dqbase == new.dqbase && old.dqlog == new.dqlog
  new.spbase % 64 == 0 && new.dqbase % 64 == 0 &&
    (new.splog == 0 || (5 ≤ new.splog && new.splog ≤ 12)) && (new.dqlog == 0 || (6 ≤ new.dqlog && new.dqlog ≤ 16)) &&
    all.all (fun x => x.1 + x.2 ≤ (s.tile site).usable * 2 ^ 20) && allApart all && (same || !old.spilled)

/-- Whether an entry of the local protection table may be written (R175). -/
def protWordOk (w : Nat) : Bool :=
  bitsN w 63 63 == 0 ||
    (12 ≤ bitsN w 5 0 && bitsN w 5 0 ≤ 31 && bitsN w 31 12 * 4096 % 2 ^ bitsN w 5 0 == 0)

/-- The RW bits of a protection entry (R175). -/
def protMask : Nat := 2 ^ 63 + 7 * 2 ^ 56 + (2 ^ 32 - 2 ^ 12) + 63

/-- Whether a list strictly rises. -/
def rising : List Nat → Bool
  | a :: b :: t => decide (a < b) && rising (b :: t)
  | _ => true

/-- The rules of R112 for the whole group table of a partition. -/
def State.groupsOk (s : State) (p : Nat) : Bool :=
  let entry (g : Nat) : Nat := s.num (kWindow p + 8 * g) 8
  let used := (List.range 256).filter fun g => entry g % 2 ^ 16 != 0
  let groups := used.map fun g => s.group p g
  used.all (fun g => entry g % 2 ^ 16 ≤ 32768 && bitsN (entry g) 63 32 + entry g % 2 ^ 16 ≤ 65024) &&
    groups.all rising && groups.all (fun l => l.all fun c => (s.coreKey p c).isSome) &&
    groups.flatten.dedup.all fun c => (groups.filter (·.contains c)).length ≤ 4

/-! ### Capabilities (R188, R190, R192) -/

/-- The lowest free slot of a core. -/
def Core.freeSlot (c : Core) : Option Nat := (List.range 4).find? fun i => (vget none c.caps i).isNone

/-- Puts a capability into the lowest free slot of a core, if it has one. -/
def State.installCap (s : State) (core : Nat) (c : Cap) : Option State :=
  let k := s.core core
  k.freeSlot.map fun i => s.setCore core { k with caps := vset k.caps i (some c) }

/-- Word 1 of a region entry (R188). -/
def regionWord (gen holder held mode : Nat) : Nat := gen % 2 ^ 16 * 2 ^ 48 + holder % 2 ^ 16 * 2 ^ 32 + held * 4 + mode % 4

/-- Sets HELD of a region entry. -/
def State.setHeld (s : State) (p rid held : Nat) : State :=
  let (_, w1) := s.region p rid
  let w := regionWord (bitsN w1 63 48) (bitsN w1 47 32) held (bitsN w1 1 0)
  { s with mem := Memory.writeN s.mem (kWindow p + 0x100008 + 16 * rid) (bytesOf 8 w) }

/-- A capability comes to rest at its entry, unless the entry has been written since (R188, R192, R331). -/
def State.restCap (s : State) (p : Nat) (c : Cap) : State :=
  if bitsN (s.region p c.rid).2 63 48 = c.gen then s.setHeld p c.rid 0 else s

/-- The write of one region entry (R188). -/
def State.regionWrite (s : State) (p rid w0 w1 : Nat) : State :=
  let gen := (bitsN (s.region p rid).2 63 48 + 1) % 2 ^ 16
  let base := bitsN w0 55 16 * 2 ^ 16
  let holder := bitsN w1 47 32
  let cap : Cap := { rid := rid, gen := gen, szlog := bitsN w0 5 0, base := base }
  let k := kWindow p + 0x100000 + 16 * rid
  let s := s.dropTlb fun e => e.part == p && bitsN e.leaf.toNat 63 48 == rid
  let (held, s) :=
    if rid ≠ 0 && bitsN w1 1 0 = 1 && holder < 2 ^ 15 then
      match (s.coreKey p holder).bind fun c => s.installCap c cap with
      | some s' => (1, s')
      | none => (0, s)
    else (0, s)
  let m := Memory.writeN s.mem k (bytesOf 8 (base + bitsN w0 5 0))
  { s with mem := Memory.writeN m (k + 8) (bytesOf 8 (regionWord gen holder held (bitsN w1 1 0))) }

/-! ### Reading and writing a window -/

/-- The bytes of one piece. -/
def State.runRead (s : State) (w : Window) (r : WinRun) : List Byte × State :=
  let cut (l : List Byte) : List Byte := (l.drop (r.off - r.base)).take r.len
  match w with
  | .part p => (s.bytes (kWindow p + r.off) r.len, s)
  | .tile site =>
    match r.obj with
    | .acc _ => (s.bytes (kAcc site + (r.off - 0x1000000)) r.len, s)
    | .regs t => (cut (s.thread (site * 32 + t)).windowBytes, s)
    | .handlers k => (cut (s.core (site * 4 + k)).handlerBytes, s)
    | .control k => (cut (s.core (site * 4 + k)).controlBytes, s)
    | .protection => (cut ((s.tile site).lpt.toList.flatMap fun w => bytesOf 8 w.toNat), s)
    | _ =>
      let plain := min r.len (Config.sysPlain - r.off)
      let rest := r.len - plain
      (s.bytes (kScratch site + r.off) plain ++ (List.range rest).map fun i => Config.freeByte (s.freeCtr + i),
        { s with freeCtr := s.freeCtr + rest })

/-- Reads a window range (R178): none if it is refused. The reserved bytes of the system area are free values (log 9, DESIGN
CHOICE). -/
def State.winRead (s : State) (w : Window) (o n : Nat) : Option (List Byte) × State :=
  match w.runs 64 o n with
  | none => (none, s)
  | some l =>
    let (bs, s) := l.foldl (fun x r => let (b, s) := x.2.runRead w r; (x.1 ++ b, s)) (([], s) : List Byte × State)
    (some bs, s)

/-- Writes one piece: none where a rule gives error 4, else whether it was refused (R113, R143, R175, R178-R180,
R188). -/
def State.runWrite (s : State) (w : Window) (r : WinRun) (bs : List Byte) : Option (Bool × State) :=
  let at_ := r.off - r.base
  match w with
  | .part p =>
    let put (s : State) : State := { s with mem := Memory.writeN s.mem (kWindow p + r.off) bs }
    match r.obj with
    | .groups => some (false, put s)
    | .ptroot =>
      let s' := put s
      let v := s'.num (kWindow p + 0x40000) 8
      if v % 2048 ≠ 0 || Config.hbmBytes ≤ v then none else some (false, s'.dropTlb fun e => e.part == p)
    | _ =>
      if at_ % 16 ≠ 0 || r.len % 16 ≠ 0 then none
      else
        let es := (List.range (r.len / 16)).map fun i => (at_ / 16 + i, imgWord bs (2 * i), imgWord bs (2 * i + 1))
        if es.all fun e => 16 ≤ bitsN e.2.1 5 0 && bitsN e.2.1 5 0 ≤ 40 &&
            bitsN e.2.1 55 16 * 2 ^ 16 % 2 ^ bitsN e.2.1 5 0 == 0 then
          some (false, es.foldl (fun s e => s.regionWrite p e.1 e.2.1 e.2.2) s)
        else none
  | .tile site =>
    match r.obj with
    | .acc a =>
      if ((s.tile site).owner a).isSome then some (true, s)
      else some (false, { s with mem := Memory.writeN s.mem (kAcc site + (r.off - 0x1000000)) bs })
    | .regs t =>
      let h := s.thread (site * 32 + t)
      if h.act.isSome && h.status != .parked then some (true, s)
      else if h.status == .parked then
        some (false, s.setThread (site * 32 + t) { h with pend := some (overlay (h.pend.getD h.windowBytes) at_ bs) })
      else some (false, s.setThread (site * 32 + t) (h.setWindow (overlay h.windowBytes at_ bs)))
    | .handlers k =>
      let c := s.core (site * 4 + k)
      some (false, s.setCore (site * 4 + k) (c.setHandlers (overlay c.handlerBytes at_ bs)))
    | .control k =>
      let c := s.core (site * 4 + k)
      let new := c.setControl (overlay c.controlBytes at_ bs)
      if s.controlOk site k new then some (false, s.setCore (site * 4 + k) new) else none
    | .protection =>
      let t := s.tile site
      let img := overlay (t.lpt.toList.flatMap fun w => bytesOf 8 w.toNat) at_ bs
      let ws := (List.range 16).map fun i => imgWord img i &&& protMask
      let touched := (List.range 16).filter fun i => at_ < 8 * i + 8 && 8 * i < at_ + r.len
      if touched.all fun i => protWordOk (ws.getD i 0) then
        some (false, s.setTile site { t with lpt := Vector.ofFn fun i => BitVec.ofNat 64 (ws.getD i.val 0) })
      else none
    | _ => some (false, s.putEngine (kScratch site + r.off) bs)

/-- Writes the pieces of a range in order. -/
def State.runsWrite (s : State) (w : Window) (o : Nat) (bs : List Byte) : List WinRun → Bool → Option (Bool × State)
  | [], b => some (b, s)
  | r :: rest, b =>
    match s.runWrite w r ((bs.drop (r.off - o)).take r.len) with
    | none => none
    | some (b', s) => s.runsWrite w o bs rest (b || b')

/-- What a window write comes to. -/
inductive WinAns where
  /-- written; `refused` if a register window or an accumulator turned its lines away (R92, R178, R179) -/
  | done (refused : Bool)
  /-- error 4, nothing written -/
  | rule
  /-- refused, nothing written -/
  | refused
  deriving DecidableEq, Repr

/-- Whether a window range reaches the system area of a scratchpad (R141). -/
def Window.system (w : Window) (o n : Nat) : Bool :=
  match w.runs 64 o n with
  | some l => l.any fun r => r.obj == .scratch && Config.sysArea < r.off + r.len
  | none => false

/-- A window write of a copy packet or a COPY, `control` if a control tile or a copy packet makes it (R177-R180, R188). -/
def State.winWrite (s : State) (w : Window) (control : Bool) (o : Nat) (bs : List Byte) : WinAns × State :=
  match w.runs 64 o bs.length with
  | none => (.refused, s)
  | some l =>
    let regs := l.any fun r => r.obj == .regions
    if w.system o bs.length || (regs && !control) then (.refused, s)
    else match s.runsWrite w o bs l false with
      | none => (.rule, s)
      | some (b, s') =>
        match w with
        | .part p => if l.any (fun r => r.obj == .groups) && !s'.groupsOk p then (.rule, s) else (.done b, s')
        | .tile _ => (.done b, s')


/-- Logs a window write to a tile that another tile or a copy packet has made, one item for each line (R240, R241, R243, log 38, DEDUCED); `a` is the
on-chip address. -/
def State.logWindow (s : State) (site part : Nat) (w : Window) (a : Nat) (bs : List Byte) : State :=
  match w with
  | .tile x =>
    if x = site then s
    else
      (List.range (ceilDiv bs.length 64)).foldl (fun s j =>
        let i := s.item (site * 32) 0 false (.site x) (.store (a + 64 * j) ((bs.drop (64 * j)).take 64) true)
        s.log x 1 [] (some { i with part := part, counted := false }) 80) s
  | .part _ => s

end Sys2Proof.Machine
end

