-- ==== Sys2Proof/Machine/Copy.lean ====
section
/-!
DEFINITION. The copy engine: COPY, RDBLK, WRBLK, WRBLK.DEP, CPWAIT and the engine's steps (spec/18_matrix.md R375-R378,
spec/16_messages.md R332, spec/08_experts.md R168, R169, spec/09_memory.md R195, R196).
-/

namespace Sys2Proof.Machine

/-! ### Operands (R375, R376) -/

/-- The forms of an address word (R375). -/
inductive AddrForm where
  | localWin | translated | chip
  deriving DecidableEq, Repr

/-- The form of an address word: none where bits [63:56] of a data address are not 0 (R173, R375). -/
def formOf (x : Word) : Option AddrForm :=
  if bitsN x.toNat 63 62 = 1 then some .chip
  else if bitsN x.toNat 63 56 ≠ 0 then none
  else if segOf x.toNat = 0 then some .localWin
  else some .translated

/-- The forms, address fields and length one instruction allows (R376). -/
def formsOk (op : XferOp) (src dst : AddrForm) (x : Word) (y : Word) (len : Nat) : Bool :=
  let scratch (a : Word) : Bool := a.toNat < Config.scratchBytes
  (src != .chip || bitsN x.toNat 61 56 == 0) && (dst != .chip || bitsN y.toNat 61 56 == 0) &&
  match op with
  | .copy => 8 ≤ len && len ≤ 2 ^ 36
  | .rdblk => src == .translated && dst == .localWin && scratch y && 64 ≤ len && len ≤ 2 ^ 32
  | .wrblk => src == .localWin && dst == .translated && scratch x && 64 ≤ len && len ≤ 2 ^ 32
  | .deposit => src == .localWin && (dst == .translated || (dst == .localWin && scratch y)) && scratch x &&
      8 ≤ len && len ≤ 65536

/-- The alignment rules of R376. -/
def xferAligned (op : XferOp) (x y : Word) (len : Nat) : Bool :=
  let n := match op with | .rdblk | .wrblk => 64 | _ => 8
  x.toNat % 8 == 0 && y.toNat % 8 == 0 && len % n == 0 && (op != .deposit || y.toNat % 64 == 0)

/-- The distinct tiles of a group's members in ascending rank (R376). -/
def State.groupTiles (s : State) (p g : Nat) : List Nat := ((s.group p g).map (· / 4)).dedup

/-- Whether two ranges of one length overlap. -/
def overlaps (a b n : Nat) : Bool := a < b + n && b < a + n

/-- A transfer from its descriptor; the fields the checks below have passed (R375). -/
def State.xferOf (s : State) (op : XferOp) (w : Vector Word 8) (mc : List Nat) : Xfer :=
  let f (i hi lo : Nat) : Nat := bitsN (vget 0 w i).toNat hi lo
  { op := op, src := vget 0 w 0, dst := vget 0 w 1, len := f 2 36 0, arr := vget 0 w 3, send := f 4 63 63 == 1,
    chan := f 4 62 59, mc := mc, red := f 5 11 8, slot := f 5 2 0, user := vget 0 w 6, tag := 0, hart := s.cur,
    srank := s.srank s.cur, job := s.jobOf s.cur, part := s.partOfHart s.cur, ach := s.chanOf s.cur, seq := 0,
    ord := s.ordCtr, caps := (s.core (coreOf s.cur)).slots, done := [], landed := 0, denied := [], pending := false,
    park := none }

/-- The reserved bits and the fields that belong to one instruction (R375, R376). -/
def xferBitsOk (op : XferOp) (w : Vector Word 8) : Bool :=
  let f (i hi lo : Nat) : Nat := bitsN (vget 0 w i).toNat hi lo
  f 2 63 37 == 0 && f 4 58 0 == 0 && f 5 63 25 == 0 && f 5 15 12 == 0 && f 7 63 0 == 0 && decide (f 5 11 8 ≤ 3) &&
    (op == .wrblk || f 5 11 8 == 0) && (op == .copy || (f 5 24 24 == 0 && f 5 23 16 == 0)) &&
    (f 5 24 24 == 1 || f 5 23 16 == 0) && (if op = .deposit then f 5 7 3 == 0 else f 5 7 0 == 0) &&
    (op == .copy || f 4 63 63 == 1)

/-- Where a local range of a transfer must lie: its own scratchpad outside the system area, or for COPY also the usable
bonded block (R141, R173, R376). What the protection table says of each line is found out when it runs (log 27, DEDUCED). -/
def State.localOk (s : State) (a n : Nat) : Bool := offSystem a n && (s.localKey s.site a n).isSome

/-- The first range of a transfer that its tile refuses at issue, with its kind. -/
def State.xferRefused (s : State) (x : Xfer) (sf df : AddrForm) : Option (Site × Word) :=
  if sf = .localWin && !s.localOk x.src.toNat x.len then some (.load, x.src)
  else if df = .localWin && !s.localOk x.dst.toNat (if x.op = .deposit then 64 else x.len) then some (.store, x.dst)
  else if x.arr ≠ 0 && formOf x.arr = some .localWin && !recordPlace x.arr.toNat then some (.store, x.arr)
  else none

/-- The operand checks of R376 that need the forms. -/
def xferOk (x : Xfer) (sf df : AddrForm) (mc : Bool) : Bool :=
  formsOk x.op sf df x.src x.dst x.len &&
    (x.arr == 0 || (x.len % 256 == 0 && x.arr.toNat % 64 == 0 && formOf x.arr != some .chip)) &&
    (!mc || (!x.mc.isEmpty && df == .translated && segOf x.dst.toNat == 1 &&
      (x.arr == 0 || segOf x.arr.toNat == 1))) &&
    (x.op == .deposit || sf != df || x.dests.all fun d => !overlaps x.src.toNat d.toNat x.len)

/-- Puts a transfer on a channel and returns its tag (R376). -/
def State.startXfer (s : State) (x : Xfer) (ch : Nat) : Nat × State :=
  let t := s.tile s.site
  let q := (t.ctag + 1) % 2 ^ 32
  (q, s.setTile s.site { t with ctag := q, xfers := vset t.xfers ch (some { x with tag := q }) })

/-- The ENG code of a transfer (R366). -/
def XferOp.eng : XferOp → Nat
  | .copy => 5
  | .rdblk => 6
  | .wrblk => 7
  | .deposit => 8

/-- Issue of a transfer (R375, R376): the block forms take a sequence number and count in SENT (R129, R137). -/
def xferIssue (s : State) (op : XferOp) (rd rs1 : Reg) : Out :=
  blockThen s (s.rx rs1) fun w =>
    let mc := bitsN (vget 0 w 5).toNat 24 24 == 1
    let p := s.partOfHart s.cur
    let x := s.xferOf op w (if mc then s.groupTiles p (bitsN (vget 0 w 5).toNat 23 16) else [])
    if !xferBitsOk op w then operandError s
    else match formOf x.src, formOf x.dst with
      | none, _ => raiseOut s 2 .load x.src
      | _, none => raiseOut s 2 .store x.dst
      | some sf, some df =>
        if x.arr ≠ 0 && (formOf x.arr).isNone then raiseOut s 2 .store x.arr
        else if !xferOk x sf df mc then operandError s
        else if !xferAligned op x.src x.dst x.len then raiseOut s 13 .load (s.rx rs1)
        else match s.xferRefused x sf df with
          | some (k, a) => raiseOut s 2 k a
          | none =>
            match (List.range 4).find? fun i => (vget none (s.tile s.site).xfers i).isNone with
            | none => blockOn s .retry
            | some ch =>
              let (q, s) := if op = .copy then (0, s) else s.takeSeq s.cur
              let s := if op = .copy then s else s.countSent s.site x.job 1
              let (tag, s) := s.startXfer { x with seq := q, key := if op = .copy then s.placeKey else q } ch
              writeReg (s.noteCmd op.eng s.site tag) rd (BitVec.ofNat 64 tag)

/-- RDBLK (R196, R376). -/
def execRdblk (rd rs1 : Reg) (s : State) : Out := xferIssue s .rdblk rd rs1
/-- WRBLK (R196, R376). -/
def execWrblk (rd rs1 : Reg) (s : State) : Out := xferIssue s .wrblk rd rs1
/-- WRBLK.DEP (R169, R376). -/
def execWrblkDep (rd rs1 : Reg) (s : State) : Out := xferIssue s .deposit rd rs1
/-- COPY (R376). -/
def execCopy (rd rs1 : Reg) (s : State) : Out := xferIssue s .copy rd rs1

/-- Whether a copy tag is on a channel. -/
def Tile.copyOpen (t : Tile) (tag : Nat) : Bool := t.xfers.any fun x => ((x.map fun y => y.tag == tag)).getD false

/-- CPWAIT (R378). -/
def execCpwait (rd rs1 : Reg) (s : State) : Out :=
  let t := s.tile s.site
  waitTag s rd rs1 t.ctag t.copyOpen t.cdone

/-! ### Chunks (R121, R196, R332, R377) -/

/-- The number under which homes know a transfer: that of its SEQ and thread, of a COPY, which has no SEQ, that of its place in its
thread (R243, R376, log 97, DEDUCED). -/
def Xfer.num (x : Xfer) : Nat := 2 * (x.srank + 2 ^ 18 * x.key)

/-- Sets a channel. -/
def State.setXfer (s : State) (site ch : Nat) (x : Option Xfer) : State :=
  let t := s.tile site
  s.setTile site { t with xfers := vset t.xfers ch x }

/-- Lines of one destination. -/
def Xfer.lines (x : Xfer) : Nat := ceilDiv x.len 64
/-- All line numbers: line j of destination i is i × lines + j. -/
def Xfer.total (x : Xfer) : Nat := x.lines * x.dests.length
/-- 64 KiB pages of one destination. -/
def Xfer.pages (x : Xfer) (d : Word) : Nat := (d.toNat + x.len - 1) / 65536 - d.toNat / 65536 + 1

/-- The message id of a transfer's items: that of its sequence number, or its tag for a COPY, which has none (R136). -/
def State.xferId (s : State) (x : Xfer) : Word :=
  if x.op = .copy then BitVec.ofNat 64 x.tag else msgId s.dev x.srank x.seq

/-- The error report about a transfer: a0 is the tag where R365 ends it, else the message id of its items (R143,
R332). -/
def State.xferReport (s : State) (site : Nat) (x : Xfer) (a0 : Word) (cause : Nat) (a4 : Word) (a : Nat) : State :=
  s.report site
    { part := x.part, job := x.job, mid := a0, cause := cause, a2 := BitVec.ofNat 64 a, rank := x.srank, chan := x.ach,
      a4 := a4, act := x.key }

/-- What a finished transfer leaves (R365, R366, R377, R378). A block operation without a completion message is counted
in RECV when it ends (R129, log 31, DEDUCED). -/
def State.finishXfer (s : State) (site ch : Nat) (x : Xfer) (cause addr : Nat) : State :=
  let t := s.tile site
  let r : EngResult := { tag := x.tag, cause := cause, prog := min (x.landed / 64) (2 ^ 32 - 1), kstep := 0 }
  let s := s.setTile site { t with xfers := vset t.xfers ch none, cdone := addResult t.cdone r }
  let s := if cause = 0 || cause = 18 then s else s.xferReport site x (BitVec.ofNat 64 x.tag) cause 0 addr
  let s := match firstDenial x.denied with
    | some (_, c, a) => s.xferReport site x (s.xferId x) c (denialMap x.denied) a
    | none => s
  if x.send then
    s.engineMsg site x.hart x.srank x.job x.part 3 x.chan x.tag (.engine (x.srank / 32) x.tag 4)
      (completionWords x.op.eng x.tag cause x.landed x.user (denialMap x.denied))
  else if x.op = .copy then s else s.countRecv site x.job 1

/-- Parks a channel on a missing page (R186, R365). -/
def State.parkXfer (s : State) (site ch : Nat) (x : Xfer) (a : Nat) : State :=
  (s.setXfer site ch (some { x with park := some a })).engFault x.hart x.srank x.job x.part a

/-- Whether a tile takes window accesses of another one now (R231, R242). -/
def State.windowOpen (s : State) (site part : Nat) (w : Window) : Bool :=
  match w with
  | .tile x => x == site || s.door x part == .open_
  | .part _ => true

/-- Reads a source range of a transfer (R377): a window read that R177 refuses, and one of the system area, takes cause 2 (R141). -/
def State.xferRead (s : State) (site : Nat) (x : Xfer) (a n : Nat) : Except (Nat × Nat) (List Byte) × State :=
  if bitsN a 63 62 = 1 then
    match s.window x.part a with
    | none => (.error (2, a), s)
    | some (w, o) =>
      if !s.windowOpen site x.part w then (.error (0, a), s)
      else if w.system o n then (.error (2, a), s)
      else match s.winRead w o n with
        | (some bs, s) => (.ok bs, s)
        | (none, s) => (.error (2, a), s)
  else s.engRead site x.part a n

/-- Whether a transfer's writes are posted remote block writes, which their homes hold (R221). -/
def Xfer.posted (x : Xfer) : Bool := x.op == .wrblk

/-- A part of a line of a block write waits at its home, for its page or behind such a one of its thread; none if the queue there is
full (R186, R221). -/
def State.holdPiece (s : State) (site : Nat) (x : Xfer) (piece a : Nat) (bs : List Byte) (missing : Bool) : Option State :=
  if 32 ≤ (s.homeQueue x.hart (homeOf a).number).length then none
  else
    let i := { s.item x.hart 0 false (homeOf a) (.line a bs x.red x.num piece site) with
      ord := s.ordCtr, srank := x.srank, job := x.job, part := x.part, mid := s.xferId x, chan := x.ach
      cap := attach x.caps a, counted := false, stage := .held (pageOf a) }
    let s' := s.emit i
    some (if missing && !s'.faultSent i (pageOf a) then s'.faultFor i a none else s')

/-- What a write of a piece comes to for a transfer whose home queues hold posted writes: `.missing` only where the engine parks. -/
def State.pieceWrite (s : State) (site : Nat) (x : Xfer) (piece a : Nat) (bs : List Byte) : Option Landed × Xfer × State :=
  let hold (s : State) (missing : Bool) : Option Landed × Xfer × State :=
    match s.holdPiece site x piece a bs missing with
    | some s => (none, { x with held := x.held ++ [piece] }, s)
    | none => (some .refused, x, s)
  if x.posted && !(s.homeQueue x.hart (homeOf a).number).isEmpty then hold s false
  else match s.engWrite site x.part x.num piece x.caps x.red a bs with
    | (.all, s) => (none, { x with landed := x.landed + bs.length }, s)
    | (.missing b, s) => if x.posted then hold s true else (some (.missing b), x, s)
    | (e, s) => (some e, x, s)

/-- The number of the page of an address among the destinations of a transfer (R332). -/
def Xfer.pageNo (x : Xfer) (i : Nat) (d : Word) (a : Nat) : Nat := i * x.pages d + (a / 65536 - d.toNat / 65536)

/-- Writes the pieces of line `n` at one destination from piece `j` on; `i` is the destination's place. A line whose second page turns
it away keeps what its first page has taken (R377). -/
def State.linePieces (s : State) (site n i : Nat) (d : Word) : List (Nat × List Byte) → Nat → Xfer →
    Option Landed × Xfer × State
  | [], _, x => (none, x, s)
  | (a, bs) :: rest, j, x =>
    match s.pieceWrite site x (2 * n + j) a bs with
    | (none, x, s) => s.linePieces site n i d rest (j + 1) x
    | (some (.denied c b), x, s) =>
      let (l, s) := s.deny x.part (s.xferId x) x.denied (x.pageNo i d a) c b
      s.linePieces site n i d rest (j + 1) { x with denied := l }
    | (some e, x, s) => (some e, if j = 0 then x else { x with half := KeySet.add x.half n }, s)

/-- The 8-byte words of data, the last one filled with zeros. -/
def padWords (bs : List Byte) : List Word :=
  (List.range (ceilDiv bs.length 8)).map fun j => BitVec.ofNat 64 (ofBytes ((bs.drop (8 * j)).take 8))

/-- Moves one line (R377). -/
def State.oneLine (s : State) (site : Nat) (x : Xfer) (n : Nat) : Option Landed × Xfer × State :=
  let i := n / x.lines
  let off := n % x.lines * 64
  let len := min 64 (x.len - off)
  let d := x.dests.getD i x.dst
  match s.xferRead site x (x.src.toNat + off) len with
  | (.error (c, a), s) => (some (if c = 8 then .missing a else if c = 0 then .refused else .failed c a), x, s)
  | (.ok bs, s) =>
    let j := if x.half.contains n then 1 else 0
    match s.linePieces site n i d ((cutRow (d.toNat + off) bs).drop j) j x with
    | (none, x, s) => (none, { x with done := x.done ++ [n], half := x.half.filter (· != n) }, s)
    | r => r

/-- The records of the data a block read has landed (R241): offset and bytes, of lines that follow one another, up to 4,096
bytes. -/
def blockRuns : List (Nat × List Byte) → List (Nat × List Byte)
  | [] => []
  | (o, b) :: rest =>
    match blockRuns rest with
    | (o', b') :: t => if o + b.length = o' && b.length + b'.length ≤ 4096 then (o, b ++ b') :: t else (o, b) :: (o', b') :: t
    | [] => [(o, b)]

/-- Logs the lines of a block read that have landed beyond the first `old` (R240, R241). -/
def State.logBlocks (s : State) (site : Nat) (x : Xfer) (l : List Nat) : State :=
  let line (n : Nat) : Nat × List Byte :=
    let a := x.dst.toNat + 64 * n
    (a, ((s.localKey site a 64).map fun k => s.bytes k 64).getD [])
  if x.op = .rdblk then
    (blockRuns (l.map line)).foldl (fun s r =>
      s.log site 3 (s.xferId x :: BitVec.ofNat 64 r.1 :: padWords r.2) none (16 + r.2.length)) s
  else s

/-- Moves the lines of a chunk until one parks the channel, is refused, or ends the transfer. -/
def State.moveLines (s : State) (site ch : Nat) : List Nat → Xfer → Xfer × State
  | [], x => (x, s.setXfer site ch (some x))
  | n :: rest, x =>
    match s.oneLine site x n with
    | (none, x, s) => s.moveLines site ch rest x
    | (some (.missing a), x, s) => (x, s.parkXfer site ch x a)
    | (some (.failed c a), x, s) => (x, s.finishXfer site ch x c a)
    | (some _, x, s) => (x, s.setXfer site ch (some { x with pending := true }))

/-- A read that failed: it parks the channel on a missing page, waits for a home that takes nothing now, or ends the transfer. -/
def State.stopRead (s : State) (site ch : Nat) (x : Xfer) (cause a : Nat) : State :=
  if cause = 8 then s.parkXfer site ch x a
  else if cause = 0 then s.setXfer site ch (some { x with pending := true })
  else s.finishXfer site ch x cause a

/-- The first line of a window write that the window turns away (R177-R179). -/
def State.lineRefused (s : State) (w : Window) (control : Bool) (o : Nat) (bs : List Byte) : Option Nat :=
  (List.range (ceilDiv bs.length 64)).find? fun j =>
    match (s.winWrite w control (o + 64 * j) ((bs.drop (64 * j)).take 64)).1 with
    | .refused | .done true => true
    | _ => false

/-- A chunk to an on-chip destination: the next lines in ascending order, as one write up to the first line that is refused, which
ends the transfer (R177, R377, log 28, DESIGN CHOICE). -/
def State.chipChunk (s : State) (site ch : Nat) (x : Xfer) : State :=
  let first := x.done.length
  let n := min 4096 (x.lines - first)
  let off := first * 64
  let len := min (n * 64) (x.len - off)
  let d := x.dst.toNat + off
  match s.xferRead site x (x.src.toNat + off) len with
  | (.error (c, a), s) => s.stopRead site ch x c a
  | (.ok bs, s) =>
    match s.window x.part d with
    | none => s.finishXfer site ch x 2 d
    | some (w, o) =>
      if !s.windowOpen site x.part w then s.setXfer site ch (some { x with pending := true })
      else
        let control := (s.ctlTiles x.part).any (·.2 == site)
        let stop := s.lineRefused w control o bs
        let good := match stop with | some j => bs.take (64 * j) | none => bs
        match (if good.isEmpty then (.done false, s) else s.winWrite w control o good) with
        | (.done false, s) =>
          let s := s.logWindow site x.part w d good
          let x := { x with
            done := x.done ++ (List.range (ceilDiv good.length 64)).map (first + ·), landed := x.landed + good.length }
          match stop with
          | some j => s.finishXfer site ch x 2 (d + 64 * j)
          | none => s.setXfer site ch (some x)
        | (.rule, s) => s.finishXfer site ch x 12 d
        | (_, s) => s.finishXfer site ch x 2 d

/-- The chunk of a deposit: the source is read and sent to the record's home (R169). -/
def State.depositChunk (s : State) (site ch : Nat) (x : Xfer) : State :=
  match s.engRead site x.part x.src.toNat x.len with
  | (.error (c, a), s) => s.stopRead site ch x c a
  | (.ok bs, s) =>
    let dst : Dest := if segOf x.dst.toNat = 0 then .site site else homeOf x.dst.toNat
    let i := s.item x.hart x.seq false dst (.deposit x.dst.toNat x.slot bs site ch)
    let s := s.emit { i with
      src := site * 32, srank := x.srank, job := x.job, part := x.part, mid := s.xferId x, chan := x.ach,
      cap := attach x.caps x.dst.toNat, counted := false }
    s.setXfer site ch (some { x with done := List.range x.total })

/-- Whether a tile can take the data of a block read: it does not replay its log, and its log ring is not full (R240, R243). -/
def Tile.takesData (t : Tile) : Bool := !t.replaying && !t.logFull

/-- Whether an earlier deposit of the thread is not finished: a thread's deposits go in the order of issue (R142). -/
def State.depositBefore (s : State) (site : Nat) (x : Xfer) : Bool :=
  x.op == .deposit && (s.tile site).xfers.any fun y => y.any fun z => z.op == .deposit && z.hart == x.hart && decide (z.ord < x.ord)

/-- Whether a channel could move lines now. -/
def State.channelReady (s : State) (site : Nat) (x : Xfer) : Bool :=
  x.park.isNone && !x.pending && (x.op != .rdblk || (s.tile site).takesData) && !s.accessBefore x.hart x.ord &&
    !s.depositBefore site x && decide (x.done.length < x.total)

/-- The channel whose turn it is in a deterministic partition: of those that could move lines the one whose transfer was issued first
(log 100, DESIGN CHOICE). -/
def State.channelTurn (s : State) (site : Nat) : Option Nat :=
  let ready := (List.range 4).filterMap fun c => ((vget none (s.tile site).xfers c).filter (s.channelReady site)).map fun x => (x.ord, c)
  (ready.foldl (fun b x => match b with | none => some x | some y => if x.1 < y.1 then some x else some y) none).map (·.2)

/-- The lines of a transfer's chunk that have not landed: a chunk is 4,096 lines, and one follows another (R121, R376). -/
def Xfer.chunk (x : Xfer) : List Nat :=
  let c := x.done.length / 4096
  ((List.range 4096).map (4096 * c + ·)).filter fun n => n < x.total && !x.done.contains n

/-- The lines a step moves: the named ones of the chunk; the whole chunk where none is named, or in a deterministic partition. -/
def Xfer.lineOrder (x : Xfer) (lines : List Nat) (det : Bool) : List Nat :=
  let named := (lines.filter x.chunk.contains).dedup
  if det || named.isEmpty then named ++ x.chunk.filter fun n => !named.contains n else named

/-- A chunk of a deterministic partition that a home under recovery has turned away goes on in the same quantum, so that a recovery
changes no result (R125, R127, R245). -/
def State.chunkAgain (s : State) (site ch part : Nat) : State :=
  match vget none (s.tile site).xfers ch with
  | some x =>
    if x.pending && (s.part part).det && s.logsOpen part then
      let t := s.tile site
      (s.setTile site { t with chunkQ := vset t.chunkQ 0 (s.quantaAt site part) }).setXfer site ch (some { x with pending := false })
    else s
  | none => s

/-- ENGINE_CHUNK (R121, R232, R377): channel `ch` of a tile moves lines of its chunk in the order named. The chunk of a partition
that is switched out is refused and left pending; the data of a block read waits for room in the log (R240). In deterministic mode
the copy engine starts one chunk in a quantum (R125). -/
def execEngineChunk (site ch : Nat) (lines : List Nat) (s : State) : Out :=
  match vget none (s.tile site).xfers ch with
  | none => .next s
  | some x =>
    if !s.channelReady site x || !s.chunkDue site x.part 0 then .next s
    else if (s.part x.part).stage == .out then .next (s.setXfer site ch (some { x with pending := true }))
    else if !s.chunkGate site x.part || (s.det x.part && s.channelTurn site != some ch) then .next s
    else
      let s := s.noteChunk site x.part 0
      match x.op with
      | .deposit => .next ((s.depositChunk site ch x).chunkAgain site ch x.part)
      | _ =>
        if bitsN x.dst.toNat 63 62 = 1 then .next ((s.chipChunk site ch x).chunkAgain site ch x.part)
        else
          let (x', s) := s.moveLines site ch (x.lineOrder lines (s.part x.part).det) x
          .next ((s.logBlocks site x (x'.done.drop x.done.length)).chunkAgain site ch x.part)

/-- CHUNK_RETRY (R232): a pending remainder is tried again. -/
def execChunkRetry (site ch : Nat) (s : State) : Out :=
  match vget none (s.tile site).xfers ch with
  | some x => if x.pending then .next (s.setXfer site ch (some { x with pending := false })) else .next s
  | none => .next s

/-! ### Completion (R195, R332, R377) -/

/-- Bytes of a destination that landed: its length less its denied pages (R195, R332). -/
def Xfer.landedAt (x : Xfer) (i : Nat) (d : Word) : Nat :=
  let page (j : Nat) : Nat :=
    min (d.toNat + x.len) ((d.toNat / 65536 + j + 1) * 65536) - max d.toNat ((d.toNat / 65536 + j) * 65536)
  (((List.range (x.pages d)).filter fun j => !x.denied.any (·.1 == i * x.pages d + j)).map page).sum

/-- The place of an arrival among what a home takes of a command: beyond every line's. -/
def arrivalLine (i : Nat) : Nat := 2 ^ 56 + i

/-- The arrival update of one destination at the record's home, as an atomic, made once (R189, R195, R243); a poisoned record
refuses it (R199). -/
def State.arriveAt (s : State) (site : Nat) (x : Xfer) (i a len : Nat) : Option Nat × State :=
  let w (home : Dest) : Sender :=
    { site := site, home := home, hart := x.hart, rank := x.srank, job := x.job, part := x.part, seq := x.tag,
      mid := s.xferId x }
  match routeOf a with
  | .denied => (none, s.xferReport site x (s.xferId x) 2 0 a)
  | .localWin =>
    match s.localAcc site .write a 128 with
    | some k => (none, s.arrive k len (w (.site site)))
    | none => (none, s.xferReport site x (s.xferId x) 2 0 a)
  | .translated =>
    let home := s.homePlace x.part a
    let d := Domain.line ((s.rankOf site).getD 0) x.num (arrivalLine i)
    if s.lineTaken home d then (none, s)
    else match s.resolve x.part a (some .atomic) (attach x.caps a) with
    | (.ok k, s) =>
      if s.poisoned k 128 then (none, s.xferReport (homeSiteNo home) x (s.xferId x) 11 0 a)
      else (none, ((s.arrive k len (w home)).takeLine site home d).logWrite site x.part a k 8 false
        (some ((s.rankOf site).getD 0, x.num, arrivalLine i)))
    | (.bad c, s) =>
      if c = 8 then (some a, s)
      else
        let s := if c = 2 || c = 3 then s.record6 x.part c (s.xferId x) a else s
        (none, s.xferReport (homeSiteNo home) x (s.xferId x) c 0 a)

/-- The arrival updates of every destination; a missing page stops before any is made. -/
def State.arriveAll (s : State) (site : Nat) (x : Xfer) : List (Nat × Word) → Option Nat × State
  | [] => (none, s)
  | (i, d) :: rest =>
    match s.arriveAt site x i (x.arrival d).toNat (x.landedAt i d) with
    | (some m, s) => (some m, s)
    | (none, s) => s.arriveAll site x rest

/-- TRANSFER_COMPLETE (R195, R332, R377): when the last line has landed or been denied, the arrival record is named and
the transfer completes. A missing page of a record parks the channel before any record is updated. -/
def execTransferComplete (site ch : Nat) (s : State) : Out :=
  match vget none (s.tile site).xfers ch with
  | none => .next s
  | some x =>
    let away := s.net.any fun i => match i.body with | .deposit _ _ _ st c => st == site && c == ch | _ => false
    let records := (x.dests.map x.arrival).filter fun a => x.arr != 0 && routeOf a.toNat == .translated
    if x.done.length < x.total || x.park.isSome || !x.held.isEmpty || away || (s.tile site).failed ||
        !s.homesOpen site x.part (records.map fun a => (a.toNat, 8)) then .next s
    else if x.arr = 0 then .next (s.finishXfer site ch x 0 0)
    else
      let ds := (List.range x.dests.length).zip x.dests
      match s.arriveAll site x ds with
      | (some a, _) => .next (s.parkXfer site ch x a)
      | (none, s) => .next (s.finishXfer site ch x 0 0)

/-! ### Lines of a block write that their homes hold (R221) -/

/-- A change of the transfer that a line held at a home belongs to, wherever its tile is: at its site, or in the record of a partition
that is switched out. -/
def State.onTransfer (s : State) (i : Item) (num site : Nat) (f : Xfer → Xfer) : State :=
  let one (t : Tile) : Tile := { t with xfers := t.xfers.map fun x => x.map fun y => if y.num = num then f y else y }
  { s.setTile site (one (s.tile site)) with
    saves := s.saves.map fun v => if v.part ≠ i.part then v else
      { v with images := v.images.map fun g => if g.rank = i.srank / 32 then { g with tile := one g.tile } else g } }

/-- A line held at its home is performed, denied, or waits on (R189, R221, R332). -/
def State.offerLine (s : State) (i : Item) (a : Nat) (bs : List Byte) (red num piece site : Nat) : State :=
  let answered (x : Xfer) : Xfer := { x with held := x.held.filter (· != piece) }
  match s.engPut site i.part num piece i.cap red a bs with
  | (.all, s) => (s.dropItem i.ord).onTransfer i num site fun x => { answered x with landed := x.landed + bs.length }
  | (.denied c b, s) =>
    let new := !(s.tile site).xfers.any fun x => x.any fun y => y.num == num && y.denied.any (·.1 == y.pageNo 0 y.dst a)
    let s := if new then s.record6 i.part c i.mid b else s
    (s.dropItem i.ord).onTransfer i num site fun x =>
      { answered x with denied := if new then x.denied ++ [(x.pageNo 0 x.dst a, c, b)] else x.denied }
  | (.missing b, s) =>
    let s' := s.setStage i.ord (.held (pageOf b))
    if s.faultSent i (pageOf b) then s' else s'.faultFor i b none
  | (.failed c b, s) => ((s.dropItem i.ord).refusePosted i c b).onTransfer i num site answered
  | (.some_ .., s) | (.refused, s) => s

/-! ### DEPOSIT (R168, R169) -/

/-- A transfer's channel after its deposit has been answered: landed, denied, or ended with a cause. -/
def State.depositDone (s : State) (site ch : Nat) (ans : Landed) : State :=
  match vget none (s.tile site).xfers ch with
  | none => s
  | some x =>
    match ans with
    | .all => s.setXfer site ch (some { x with landed := x.len })
    | .denied c a => s.setXfer site ch (some { x with denied := x.denied ++ [(0, c, a)] })
    | .some_ l n => s.setXfer site ch (some { x with denied := l, landed := n })
    | .failed c a => s.finishXfer site ch x c a
    | .missing a => s.parkXfer site ch { x with done := [] } a
    | .refused => s

/-- Writes a slot page by page; a page that is denied does not keep the others from landing (R332). `base` is the record's address, from
whose page the destinations are numbered, `l` and `n` are the denials and the bytes landed so far. -/
def State.slotPieces (s : State) (i : Item) (base : Nat) :
    List (Nat × List Byte) → List (Nat × Nat × Nat) → Nat → Landed × State
  | [], l, n => (if l.isEmpty then .all else .some_ l n, s)
  | (a, bs) :: rest, l, n =>
    if segOf base != 0 then
      match s.resolve i.part a (some .atomic) i.cap with
      | (.ok k, s) => (s.putEngine k bs).slotPieces i base rest l (n + bs.length)
      | (.bad c, s) =>
        if c = 8 then (.missing a, s)
        else if c = 2 || c = 3 then
          let (l, s) := s.deny i.part i.mid l (a / 65536 - base / 65536) c a
          s.slotPieces i base rest l n
        else (.failed c a, s)
    else
      match i.dst with
      | .site x =>
        match s.localAcc x .write a bs.length with
        | some k => (s.putEngine k bs).slotPieces i base rest l (n + bs.length)
        | none => (.failed 2 a, s)
      | _ => (.failed 2 a, s)

/-- A deposit at its record, whose location is known (R169): what became of it. -/
def State.deposit (s : State) (i : Item) (a slot : Nat) (bs : List Byte) (key : Nat) (home : Dest) : Landed × State :=
  let w0 := s.num key 8
  let k := bitsN w0 3 0
  let filled := bitsN w0 23 16
  let bytes := s.num (key + 8) 8
  if k ≤ slot || filled / 2 ^ slot % 2 = 1 || bs.length ≠ bytes then
    (.failed 18 a, s.report (homeSiteNo home) (i.reportOf 18 a))
  else match s.slotPieces i a (cutRow (a + 64 + slot * bytes) bs) [] 0 with
    | (.all, s) =>
      let f := filled ||| 2 ^ slot
      let s := s.putNum key 8 (w0 ||| 2 ^ (16 + slot))
      if f = 2 ^ k - 1 then
        let pl : Vector Word 8 := Vector.ofFn fun j =>
          if j.val = 0 then BitVec.ofNat 64 a else if j.val = 1 then BitVec.ofNat 64 f
          else BitVec.ofNat 64 (s.num (key + 16 + 8 * (j.val - 2)) 8)
        (.all, s.homeMsg (i.sender home) 0 (bitsN w0 49 32) (bitsN w0 53 50) pl)
      else (.all, s)
    | r => r

/-- The domain in which a home tells repeated deposits of a replayed tile apart: by the thread that issued them and its number,
in any order (R137, R243). -/
def Item.depositDomain (i : Item) : Domain := .engine i.srank i.seq 6

/-- Whether a home has performed a deposit before. -/
def State.deposited (s : State) (i : Item) (home : Dest) : Bool :=
  match home with
  | .site x => (s.tile x).filter.any (·.1 == i.depositDomain)
  | .stack k => (s.agent k).filter.any (·.1 == i.depositDomain)
  | _ => false

/-- Notes and logs a deposit at its home (R240). -/
def State.noteDeposit (s : State) (i : Item) (home : Dest) : State :=
  match home with
  | .site x =>
    let t := s.tile x
    (s.setTile x { t with filter := (i.depositDomain, i.seq) :: t.filter }).log x 1 [] (some i) 80
  | .stack k =>
    let a := s.agent k
    s.setAgent k { a with filter := (i.depositDomain, i.seq) :: a.filter }
  | _ => s

/-- A deposit at its record, noted unless it comes back for a missing page (R137, R169); a poisoned line of the record refuses
it (R199). -/
def State.depositOnce (s : State) (i : Item) (a slot : Nat) (bs : List Byte) (key : Nat) (home : Dest) : Landed × State :=
  if s.poisoned key 64 then (.failed 11 a, s)
  else match s.deposit i a slot bs key home with
    | (.missing m, _) => (.missing m, s)
    | (r, s) => (r, s.noteDeposit i home)

/-- A deposit at its record's home: what became of it (R169). -/
def State.offerDeposit (s : State) (i : Item) (a slot : Nat) (bs : List Byte) : Landed × State :=
  let home : Dest := match i.dst with | .site x => .site x | _ => s.homePlace i.part a
  if s.deposited i home then (.all, s)
  else
    match i.dst with
    | .site x =>
      match s.localAcc x .write a 64 with
      | some key => s.depositOnce i a slot bs key home
      | none => (.failed 2 a, s)
    | _ =>
      match s.resolve i.part a (some .atomic) i.cap with
      | (.ok key, s) => s.depositOnce i a slot bs key home
      | (.bad c, s) => (if c = 8 then .missing a else if c = 2 || c = 3 then .denied c a else .failed c a, s)

/-- DEPOSIT (R169): the `k`-th item is a deposit that has reached its record's home. -/
def execDeposit (k : Nat) (s : State) : Out :=
  match nth s.net k with
  | none => .next s
  | some i =>
    match i.body with
    | .deposit a slot bs site ch =>
      if i.stage != .waiting || s.homeDoor i.part a != .open_ || (s.tile (siteOf i.src)).failed then .next s
      else
        let (ans, s) := (s.dropItem i.ord).offerDeposit i a slot bs
        let s := match ans with | .denied c b => s.record6 i.part c i.mid b | _ => s
        .next (s.depositDone site ch ans)
    | _ => .next s

end Sys2Proof.Machine
end

