-- ==== Sys2Proof/Machine/Fetch.lean ====
section
/-!
DEFINITION. The issue port of a core: which thread issues next (R118, R123), where its instruction word is fetched
(R133, R175, R267), and the check of carried code (R140).
-/

namespace Sys2Proof.Machine

/-! ### Candidates (R118, R123) -/

/-- Whether a tile executes instructions: it has neither failed nor been switched out. -/
def Tile.works (t : Tile) : Bool := !t.failed && !t.out

/-- A wait whose condition the thread tests again itself. -/
def Wait.polls : Wait → Bool
  | .retry | .handover .. | .capdrop _ => true
  | _ => false

/-- Whether a thread of a deterministic partition is to test its condition at the start of this quantum (R125). -/
def State.pollDue (s : State) (h : Nat) : Bool :=
  let t := s.thread h
  !t.qdone && (match t.status with | .blocked w => w.polls | _ => false)

/-- Whether a thread may issue or test what it waits for (R118): it holds an activation, or runs the part's own firmware at M
(R282), and it is neither parked nor waiting for an answer, nor ahead of a log that its tile replays. In deterministic mode it stops after Q/8 instructions, and the
waits that end at the start of a quantum are tested before anything else issues (R123, R125). -/
def State.canIssue (s : State) (h : Nat) : Bool :=
  let t := s.thread h
  let p := s.partOfHart h
  (s.tile (siteOf h)).works && !(s.tile (siteOf h)).awaits && !s.replayHeld h && (t.act.isSome || t.priv == .M) &&
    ((s.part p).stage == .active || (s.part p).stage == .draining) &&
    (if s.det p then
      s.pollDue h || (t.status == .running && !t.qdone && decide (t.qret < (s.part p).qlen / 8) &&
        !s.threads.any fun x => s.pollDue x.1 && s.partOfHart x.1 == p)
    else match t.status with
      | .running => true
      | .blocked w => w.polls
      | _ => false)

/-- The threads of a core in the order of an issue turn: from the one after the thread that issued last (R118). -/
def State.issueOrder (s : State) (core : Nat) : List Nat :=
  (List.range 8).map fun k => core * 8 + ((s.core core).lastIssue + 1 + k) % 8

/-- Whether a thread is a candidate for an issue turn: it may issue, waits for nothing, and no multi-turn instruction holds it
(R118, R294). -/
def State.isCandidate (s : State) (h : Nat) : Bool :=
  s.canIssue h && (s.thread h).status == .running && (s.thread h).hold == 0

/-- The next thread a core issues from, if no wait of a thread before it has ended (R118). -/
def State.candidate (s : State) (core : Nat) : Option Nat := (s.issueOrder core).find? s.isCandidate

/-- A held thread's turn passes without it (R294). -/
def State.passTurn (s : State) (h : Nat) : State :=
  let t := s.thread h
  s.setThread h { t with hold := t.hold - 1 }

/-- The state in which a thread's instruction runs: it is the current thread and its core notes that it issued. -/
def State.issueAs (s : State) (h : Nat) : State :=
  { s.setCore (coreOf h) { s.core (coreOf h) with lastIssue := h % 8 } with cur := h }

/-! ### Fetch (R133, R141, R175) -/

/-- The carried-code slot of a thread as a scratchpad offset (R141). -/
def carriedSlot (h : Nat) : Nat := Config.carriedBase + 64 * (h % 32)

/-- Whether a thread runs carried code (R140). -/
def Thread.carried (t : Thread) : Option Nat := t.act.bind fun a => if a.kind = 1 then some a.ninsn else none

/-- Where the word at a thread's pc lies, none for the protection error of a fetch (R175). -/
def State.fetchKey (s : State) (h : Nat) : Option Nat :=
  let t := s.thread h
  match t.carried with
  | some _ => some (kScratch (siteOf h) + t.pc.toNat)
  | none => s.localAcc (siteOf h) .fetch t.pc.toNat 4

/-- The word fetched from a location. -/
def State.fetchWord (s : State) (k : Nat) : List Byte := s.bytes k 4

/-! ### Carried code (R140) -/

/-- How the check of R140 treats an instruction. -/
inductive CarryClass where
  | plain
  | memory (rs1 : Reg) (off : Word) (n : Nat)
  | branch (c : Cond) (rs1 rs2 : Reg) (off : BitVec 12)
  | jump (off : BitVec 20)
  | ending
  | barred
  /-- illegal at U wherever it stands: it goes on to raise that error -/
  | illegal
  deriving DecidableEq, Repr

/-- A CSR read or write as R140 sees it; a use that R286 makes illegal at U stays illegal. -/
def carryCsr (csr : BitVec 12) (writes read : Bool) : CarryClass :=
  match csrInfo csr.toNat with
  | none => .illegal
  | some c => if c.m || (c.ro && writes) then .illegal else if read then .plain else .barred

/-- The table of R140. -/
def Instr.carryClass : Instr → CarryClass
  | .lb _ a o | .lbu _ a o => .memory a (imm12 o) 1
  | .lh _ a o | .lhu _ a o => .memory a (imm12 o) 2
  | .lw _ a o | .lwu _ a o => .memory a (imm12 o) 4
  | .ld _ a o => .memory a (imm12 o) 8
  | .sb _ a o => .memory a (imm12 o) 1
  | .sh _ a o => .memory a (imm12 o) 2
  | .sw _ a o => .memory a (imm12 o) 4
  | .sd _ a o => .memory a (imm12 o) 8
  | .addi .. | .slti .. | .sltiu .. | .xori .. | .ori .. | .andi .. | .slli .. | .srli .. | .srai .. => .plain
  | .addiw .. | .slliw .. | .srliw .. | .sraiw .. => .plain
  | .add .. | .sub .. | .sll .. | .slt .. | .sltu .. | .xor .. | .srl .. | .sra .. | .or .. | .and .. => .plain
  | .mul .. | .mulh .. | .mulhsu .. | .mulhu .. | .div .. | .divu .. | .rem .. | .remu .. => .plain
  | .addw .. | .subw .. | .sllw .. | .srlw .. | .sraw .. | .mulw .. | .divw .. | .divuw .. | .remw .. | .remuw .. =>
    .plain
  | .lui .. | .auipc .. => .plain
  | .jal _ o => .jump o
  | .beq a b o => .branch .eq a b o
  | .bne a b o => .branch .ne a b o
  | .blt a b o => .branch .lt a b o
  | .bge a b o => .branch .ge a b o
  | .bltu a b o => .branch .ltu a b o
  | .bgeu a b o => .branch .geu a b o
  | .csrrs _ n a | .csrrc _ n a => carryCsr n (a != 0) (a == 0)
  | .csrrw _ n _ | .csrrwi _ n _ => carryCsr n true false
  | .csrrsi _ n z | .csrrci _ n z => carryCsr n (z != 0) false
  | .min .. | .max .. | .minu .. | .maxu .. | .clz .. | .ctz .. | .cpop .. | .bfx .. | .bfxu .. | .bfi .. => .plain
  | .send .. | .sendG .. | .sendS .. | .sendGs .. | .commit | .abort | .joindec .. => .plain
  | .amoadd .. | .amoand .. | .amoor .. | .amoxor .. | .amomin .. | .amomax .. | .amominu .. | .amomaxu .. => .plain
  | .amoswap .. | .amocas .. | .amofadd .. => .plain
  | .done => .ending
  | .mret | .illegalInstruction _ => .illegal
  | _ => .barred

/-- Whether a control transfer by `off` bytes from word `idx` goes to a later word below `ninsn`. -/
def laterWord (idx ninsn : Nat) (off : Int) : Bool :=
  decide (0 < off) && decide ((4 * idx : Int) + off < (4 * ninsn : Int))

/-- The check of R140 on the instruction at word `idx` of a carried program of `ninsn` words. -/
def State.carryOk (s : State) (i : Instr) (idx ninsn : Nat) : Bool :=
  match Instr.carryClass i with
  | .illegal => true
  | .ending => decide (idx < ninsn)
  | .plain => decide (idx + 1 < ninsn)
  | .memory a o n => decide (idx + 1 < ninsn) && decide ((s.rx a + o).toNat + n ≤ Config.sysArea)
  | .branch c a b o =>
    if c.holds (s.rx a) (s.rx b) then laterWord idx ninsn (immB o).toInt else decide (idx + 1 < ninsn)
  | .jump o => laterWord idx ninsn (immJ o).toInt
  | .barred => false

/-- Whether the current thread may run an instruction as far as R140 is concerned. -/
def State.mayRun (s : State) (i : Instr) : Bool :=
  match s.me.carried with
  | some n => s.carryOk i ((s.me.pc.toNat - carriedSlot s.cur) / 4) n
  | none => true

end Sys2Proof.Machine
end

