-- ==== Sys2Proof/Machine/System.lean ====
section
/-!
DEFINITION. TLBINV, CHKPT and SELFREPORT (spec/19_system.md R383-R389) and the step that completes a TLBINV.
-/

namespace Sys2Proof.Machine

/-! ### TLBINV (R384, R385) -/

/-- TLBINV (R384): after every earlier access has been performed the thread blocks for the acknowledgements; a range
that lies wholly in segment 0x00 completes at once. -/
def execTlbinv (rs1 rs2 : Reg) (s : State) : Out :=
  match s.me.resp with
  | some _ => .next s.retire
  | none =>
    let base := (s.rx rs1).toNat
    let szlog := (s.rx rs2).toNat
    if base / 2 ^ 56 ≠ 0 || base % 2 ^ 16 ≠ 0 || szlog < 16 || 56 < szlog || base % 2 ^ szlog ≠ 0 then operandError s
    else if s.openAccess s.cur then blockOn s .retry
    else if base + 2 ^ szlog ≤ 2 ^ 48 then .next s.retire
    else blockOn s (.tlbinv base (2 ^ szlog))

/-- Sends the wakes for the fault entries whose page lies in a range (R187, R384). -/
def State.wakeRange (s : State) (p base size : Nat) : State :=
  let x := s.part p
  let hit (e : FaultEntry) : Bool := e.page < base + size && base < e.page + 65536
  s.setPart p { x with
    faults := x.faults.filter fun e => !hit e
    wakes := x.wakes ++ (x.faults.filter hit).map fun e => (e.page, true) }

/-- INVALIDATION_ACKNOWLEDGEMENT (R384, R385): every NI of the partition and every home agent has discarded the cached
translations of a thread's TLBINV; the thread may retire it, in deterministic mode from the next quantum on. -/
def execInvalidationAcknowledgement (hart : Nat) (s : State) : Out :=
  let t := s.thread hart
  match t.status with
  | .blocked (.tlbinv base size) =>
    if t.resp.isSome then .next s
    else
      let p := s.partOfHart hart
      let s := s.dropTlb fun e => e.part == p && e.page < base + size && base < e.page + e.size
      let s := s.wakeRange p base size
      let t := { t with resp := some { value := 0, data := [] }, status := if s.det p then t.status else .running }
      .next (s.setThread hart t)
  | _ => .next s

/-! ### CHKPT (R386, R387) -/

/-- Sends a notice's message (R386). -/
def State.sendNotice (s : State) (n : Notice) : State :=
  s.emit { s.item n.hart n.msg.hdr.seq false (.core (n.drank / 8)) (.message n.msg) with
    srank := n.msg.hdr.srank, job := n.job, part := n.part }

/-- CHKPT (R386): the register is written before the destination word and the payload are read. -/
def execChkpt (rd rs1 : Reg) (s : State) : Out :=
  let p := s.partOfHart s.cur
  let t := s.tile s.site
  let n := if t.prot then t.ival else 0
  let s' := s.wx rd (if s.det p then 0 else BitVec.ofNat 64 n)
  let close (s : State) : State :=
    let t := s.tile s.site
    if t.prot && t.stage != .closing then s.setTile s.site { t with closeReq := true } else s
  if rs1 = 0 then .next (close s').retire
  else match s'.destWord .handover (s'.rx rs1) with
    | none => operandError s
    | some d =>
      if t.prot && 32 ≤ t.notices.length then blockOn s .retry
      else
        let pl := vset s'.me.payload 0 (s'.rx rd)
        let (q, s') := s'.takeSeq s'.cur
        let h := mkHeader s'.dev (s'.srank s'.cur) d.drank d.chan 0 0 (s'.jobOf s'.cur) s'.dev q
        let note : Notice :=
          { interval := n, msg := mkMsg h pl none, drank := d.drank, hart := s'.cur, job := s'.jobOf s'.cur, part := p }
        let s' := s'.countSent s'.site note.job 1
        if t.prot then
          let t := s'.tile s'.site
          .next (close (s'.setTile s'.site { t with notices := t.notices ++ [note] })).retire
        else .next (s'.sendNotice note).retire

/-! ### SELFREPORT (R388, R389) -/

/-- A tile stops at once (R227); the cause is that of the retirement record its supervisor appends (R41, R242). -/
def State.stopTile (s : State) (site cause : Nat) : State :=
  let t := s.tile site
  if t.failed then s else s.setTile site { t with failed := true, failc := cause }

/-- The record of R389. -/
def State.record9 (s : State) (code : Word) : State :=
  let p := s.partOfHart s.cur
  s.record p (bytesOf 2 9 ++ bytesOf 1 (s.cur % 32) ++ bytesOf 1 0 ++ bytesOf 4 p ++ bytesOf 8 (s.midOf s.cur).toNat ++
    bytesOf 8 code.toNat)

/-- Time in units of 10 ns on which a core's self-test intervals are measured: by its tile's cycle counter, scaled to the region's
clock, from power-up (R38). -/
def State.scanNow (s : State) (core : Nat) : Nat := (s.regionAt (core / 4)).scaled / 2
/-- The length of a self-test interval. -/
def State.scanSpan (s : State) : Nat := s.selfSecs * 10 ^ 8
/-- The self-test interval a core is in. -/
def State.scanIndex (s : State) (core : Nat) : Nat := (s.scanNow core - (s.core core).scanFrom) / s.scanSpan
/-- Slices a core has passed in its interval, 64 once its test is complete (R38). -/
def State.slicesOf (s : State) (core : Nat) : Nat :=
  if (s.core core).scanIv = s.scanIndex core then (s.core core).slices else 0
/-- Whether slices remain less than 1 s before a core's interval ends (R38). -/
def State.scanUrgent (s : State) (core : Nat) : Bool :=
  decide (s.slicesOf core < 64) &&
    decide ((s.scanIndex core + 1) * s.scanSpan < s.scanNow core - (s.core core).scanFrom + 10 ^ 8)
/-- Whether a tile's log notes, since its interval's mark, that a test asked for on a core has passed (R388, log 34, DEDUCED). -/
def Tile.scanPassed (t : Tile) (core : Nat) : Bool :=
  (t.log.reverse.takeWhile (·.typ != 9)).any fun r => r.typ == 15 && r.body.getD 0 0 == BitVec.ofNat 64 (core % 4)

/-- A request for a full test (R388): none while one is pending, nor on a replay of one that has passed. -/
def State.askScan (s : State) (core : Nat) : State :=
  let c := s.core core
  if c.scanAsked || ((s.tile (core / 4)).replaying && (s.tile (core / 4)).scanPassed core) then s
  else s.setCore core { c with scanAsked := true, slices := 0, scanIv := s.scanIndex core }

/-- SELFREPORT by its kind (R388). -/
def selfreport (s : State) (rs1 rs2 : Reg) : Out :=
  let k := (s.rx rs1).toNat
  let v := s.rx rs2
  if k = 0 then
    if v ≠ 0 then operandError s
    else .next (s.askScan (coreOf s.cur)).retire
  else if k = 1 then
    if v ≠ 0 || s.me.priv = .U then operandError s else .next (s.retire.stopTile s.site 7)
  else if k = 2 then .next (s.record9 v).retire
  else operandError s

/-- SELFREPORT kind 0 (R388); the word's register says which kind it is. -/
def execSelfreportScan (rs1 rs2 : Reg) (s : State) : Out := selfreport s rs1 rs2
/-- SELFREPORT kind 1 (R388). -/
def execSelfreportFail (rs1 rs2 : Reg) (s : State) : Out := selfreport s rs1 rs2
/-- SELFREPORT kind 2 (R388, R389). -/
def execSelfreportEvent (rs1 rs2 : Reg) (s : State) : Out := selfreport s rs1 rs2

end Sys2Proof.Machine
end

