-- ==== Sys2Proof/Machine/Start.lean ====
section
/-!
DEFINITION. The core scheduler (spec/06_scheduler.md): filling a slot and starting an activation, stealing, the budget
watchdog, pre-emption, scan self-tests, and the termination detector.
-/

namespace Sys2Proof.Machine

/-! ### Starting an activation (R120, R133, R136, R140) -/

/-- The cycles or instructions a BUDLOG grants (R113). -/
def budgetOf (l : Nat) : BitVec 27 := BitVec.ofNat 27 (if 10 ≤ l && l ≤ 26 then 2 ^ l else 2 ^ 20)

/-- The CSR msrc (R136). -/
def msrcWord (sdev srank : Nat) : Word := BitVec.ofNat 64 (sdev % 2 ^ 12 * 2 ^ 32 + srank % 2 ^ 18)
/-- The CSR mchan (R136). -/
def mchanWord (job kind chan : Nat) : Word := BitVec.ofNat 64 (job % 2 ^ 16 * 2 ^ 32 + kind % 16 * 2 ^ 8 + chan % 16)

/-- A thread at the start of an activation (R133, R136, R220): what it keeps is its sequence counter, its machine CSRs
and its count of the quantum. -/
def Thread.begin (t : Thread) (a : Activation) (msrc mchan mseq : Word) (pl : Vector Word 8) : Thread :=
  { Thread.init with
    status := .running, pc := a.entry, act := some a, budget := budgetOf a.budlog,
    x := Vector.ofFn fun i => if 10 ≤ i.val && i.val < 18 then vget 0 pl (i.val - 10) else 0
    msrc := msrc, mchan := mchan, mseq := mseq, hmsgid := a.mid, seq := t.seq, actNo := t.actNo + 1,
    mtvec := t.mtvec, mscratch := t.mscratch, mepc := t.mepc, mcause := t.mcause, mtval := t.mtval,
    qret := t.qret }

/-- Starts the activation of a message on a thread (R133, R140). -/
def State.startMsg (s : State) (h : Nat) (m : Msg) (hd : Handler) : State :=
  let carried := m.hdr.kind == 1
  let a : Activation :=
    { origin := .msg m, entry := if carried then BitVec.ofNat 64 (carriedSlot h) else hd.haddr, budlog := hd.budlog,
      job := m.hdr.job, part := (s.partOfSite (siteOf h)).getD 0, kind := m.hdr.kind, chan := m.hdr.chan,
      ninsn := m.hdr.ninsn, mid := m.mid }
  let s := if carried then
      s.putMem (kScratch (siteOf h) + carriedSlot h) (m.payload.toList.flatMap fun w => bytesOf 8 w.toNat)
    else s
  s.setThread h ((s.thread h).begin a (msrcWord m.hdr.sdev m.hdr.srank) (mchanWord m.hdr.job m.hdr.kind m.hdr.chan)
    (BitVec.ofNat 64 (m.hdr.seq % 2 ^ 32)) m.payload)

/-- Starts the activation of a frame on a thread (R145). -/
def State.startFrame (s : State) (h : Nat) (f : Frame) : State :=
  let a : Activation :=
    { origin := .frame f, entry := f.haddr, budlog := f.budlog, job := f.job,
      part := (s.partOfSite (siteOf h)).getD 0, kind := 6, chan := 0, ninsn := 0, mid := msgId f.sdev f.pusher f.seq }
  s.setThread h ((s.thread h).begin a (msrcWord f.sdev f.pusher) (mchanWord f.job 6 0)
    (BitVec.ofNat 64 (f.seq % 2 ^ 32)) f.payload)

/-- Logs a start in normal mode (R241). -/
def State.logStart (s : State) (h : Nat) : State :=
  if s.det (s.partOfHart h) then s else s.log (siteOf h) 4 [s.midOf h, BitVec.ofNat 64 (h % 32)] none 16

/-! ### Selection (R115, R116) -/

/-- The message a channel would give next: the first that is not running. -/
def Channel.head (c : Channel) : Option Msg := (c.queue.find? fun e => !e.2).map (·.1)

/-- Whether a channel is runnable (R116). -/
def Core.runnable (c : Core) (k : Nat) : Bool := (c.handler k).en && (c.chan k).head.isSome

/-- The channel a core takes next (R116). -/
def Core.nextChannel (c : Core) : Option Nat :=
  let l := (List.range 16).filter c.runnable
  let top := l.foldl (fun p k => max p (c.handler k).prio) 0
  let last := vget 15 c.lastTaken top
  ((List.range 16).map fun i => (last + 1 + i) % 16).find? fun k => l.contains k && (c.handler k).prio == top

/-- Marks the head of a channel as running and notes the channel as the last taken at its priority (R116, R224). -/
def Core.takeHead (c : Core) (k : Nat) (m : Msg) : Core :=
  let ch := c.chan k
  { (c.setChan k { ch with queue := ch.queue.map fun e => if e.1.arr == m.arr && !e.2 then (e.1, true) else e }) with
    lastTaken := vset c.lastTaken (c.handler k).prio k }

/-- Whether the core scheduler may place an activation on a thread (R107, R115). -/
def State.slotFree (s : State) (h : Nat) : Bool :=
  let t := s.thread h
  t.act.isNone && t.status == .free && t.priv == .U &&
    !(h % 32 == 31 && (s.ctlTiles ((s.partOfSite (siteOf h)).getD 0)).any (·.2 == siteOf h))

/-- The lowest free slot of a core. -/
def State.freeSlot (s : State) (core : Nat) : Option Nat :=
  ((List.range 8).map (core * 8 + ·)).find? s.slotFree

/-- Whether a core is to run slices before it starts activations (R38, R388). -/
def State.scanHolds (s : State) (core : Nat) : Bool :=
  let c := s.core core
  c.scanDue || c.scanAsked || (s.scanUrgent core && !c.scanRest)

/-- Whether a core starts activations at all (R38, R115, R122, R237, R388). In deterministic mode slices change no result: they run
between two quanta, on a core that holds no activation then (log 92, DESIGN CHOICE). -/
def State.mayFill (s : State) (core : Nat) : Bool :=
  let c := s.core core
  let t := s.tile (core / 4)
  t.works && t.stage != .closing && !t.awaits && !c.preempt && !t.ringFull &&
    (s.det ((s.partOfSite (core / 4)).getD 0) || !s.scanHolds core) &&
    (match s.partOfSite (core / 4) with | some p => (s.part p).stage == .active | none => false)

/-- Fills a thread from the core's channels, then from its deque, newest frame first (R115). -/
def State.fillThread (s : State) (core h : Nat) : Option State :=
  let c := s.core core
  match c.nextChannel with
  | some k =>
    match (c.chan k).head with
    | some m => some (((s.setCore core (c.takeHead k m)).startMsg h m (c.handler k)).logStart h)
    | none => none
  | none =>
    match c.deque.getLast? with
    | some f => some (((s.setCore core { c with deque := c.deque.dropLast }).startFrame h f).logStart h)
    | none => none

/-! ### Stealing (R117) -/

/-- A list of logical cores from just after one of them, wrapping round, without it. -/
def afterSelf (me : Nat) (l : List Nat) : List Nat := l.filter (fun c => me < c) ++ l.filter (fun c => c < me)

/-- The victims of a core in order (R117). -/
def State.victims (s : State) (core : Nat) : List Nat :=
  let p := (s.partOfSite (core / 4)).getD 0
  let me := s.logCore core
  let tile := (List.range 4).map fun k => me / 4 * 4 + k
  let groups := ((List.range 256).map (s.group p)).filter (·.contains me)
  let all := (s.partTiles p).flatMap fun b => (List.range 4).map fun k => b.1 * 4 + k
  afterSelf me tile ++ groups.flatMap (afterSelf me) ++ afterSelf me all

/-- An item of a core that belongs to no activation. -/
def State.coreItem (s : State) (core : Nat) (dst : Dest) (body : Body) : Item :=
  { s.item (core * 8) 0 false dst body with part := (s.partOfSite (core / 4)).getD 0, job := 0, counted := false }

/-- Asks the next victim, or waits after a whole sweep (R117). -/
def State.askVictim (s : State) (core : Nat) : List Nat → State
  | [] => s.setCore core { s.core core with steal := some { victims := [], asking := false, pausing := true } }
  | v :: rest =>
    let s := s.setCore core { s.core core with steal := some { victims := rest, asking := true, pausing := false } }
    s.emit (s.coreItem core (.core v) (.stealReq (s.logCore core)))

/-- A core with a free slot and no work of its own begins to steal (R117). In deterministic mode one request stands for
the whole sweep and is served at quantum end (R124, R125). -/
def State.beginSteal (s : State) (core : Nat) : State :=
  if (s.core core).steal.isSome then s
  else if s.det ((s.partOfSite (core / 4)).getD 0) then
    let s := s.setCore core { s.core core with steal := some { victims := [], asking := true, pausing := false } }
    let i := s.coreItem core (.core (s.logCore core)) (.stealReq (s.logCore core))
    s.emit { i with stage := .collected }
  else s.askVictim core (s.victims core)

/-- Fills the lowest free slot of a core, or begins a steal (R115, R117). -/
def State.fillCore (s : State) (core : Nat) : State :=
  match s.freeSlot core with
  | none => s
  | some h =>
    match s.fillThread core h with
    | some s => s.setCore core { s.core core with scanRest := false }
    | none => s.beginSteal core

/-- SLOT_FILL (R115). In deterministic mode slots are filled at quantum start only (R125); a tile that replays its log
starts the activations of its log (R243). -/
def execSlotFill (site core : Nat) (s : State) : Out :=
  let c := site * 4 + core
  if !s.mayFill c || (s.tile site).replaying || s.det ((s.partOfSite site).getD 0) then .next s
  else .next (s.fillCore c)

/-- A victim's answer: the oldest frame of its deque, or a refusal (R117). The victim notes what it gives away, in a note that is
no record of R241, so that a replay gives it away too (log 34, DEDUCED). -/
def State.grant (s : State) (core : Nat) : Option Frame × State :=
  let c := s.core core
  match c.deque with
  | f :: rest =>
    if c.preempt then (none, s)
    else
      let s := s.log (core / 4) 11 [1, BitVec.ofNat 64 (core % 4)]
        (some (s.coreItem core (.core (s.logCore core)) (.frame f 0))) 0
      (some f, s.setCore core { c with deque := rest })
  | [] => (none, s)

/-- STEAL_REQUEST (R117): the `k`-th item is a steal request at its victim. -/
def execStealRequest (k : Nat) (s : State) : Out :=
  match nth s.net k with
  | none => .next s
  | some i =>
    match i.body, i.dst with
    | .stealReq thief, .core v =>
      if i.stage != .waiting then .next s
      else match s.coreKey i.part v with
        | none => .next ((s.dropItem i.ord).emit { i with dst := .core thief, body := .stealAns none })
        | some key =>
          if !(s.tile (key / 4)).works || (s.tile (key / 4)).replaying then .next s
          else
            let (f, s) := (s.dropItem i.ord).grant key
            let s := match f with | some x => s.countSent (key / 4) x.job 1 | none => s
            .next (s.emit { s.coreItem key (.core thief) (.stealAns f) with part := i.part })
    | _, _ => .next s

/-- A stolen frame arrives in the thief's deque (R117, R129, R241); in deterministic mode, where steals follow from R125, a note
without a place in the ring stands for the record (log 34, DEDUCED). -/
def State.stolen (s : State) (core : Nat) (f : Frame) : State :=
  let s := s.countRecv (core / 4) f.job 1
  let det := s.det ((s.partOfSite (core / 4)).getD 0)
  let s := s.log (core / 4) (if det then 11 else 5) [] (some (s.coreItem core (.core (s.logCore core)) (.frame f 0)))
    (if det then 0 else 80)
  let s := s.pushFrame core f
  s.setCore core { s.core core with steal := none }

/-- Whether a core may send a steal request: it has a free slot, no work of its own, and fills slots (R117, R122). -/
def State.mayAsk (s : State) (core : Nat) : Bool :=
  s.mayFill core && (s.freeSlot core).isSome && (s.core core).nextChannel.isNone && (s.core core).deque.isEmpty

/-- STEAL_ANSWER (R117): the `k`-th item is an answer at its thief; after a refusal it asks the next victim if it still steals. -/
def execStealAnswer (k : Nat) (s : State) : Out :=
  match nth s.net k with
  | none => .next s
  | some i =>
    match i.body, i.dst with
    | .stealAns f, .core v =>
      match s.coreKey i.part v with
      | none => .next (s.dropItem i.ord)
      | some key =>
        if i.stage != .waiting || !(s.tile (key / 4)).works || (s.tile (key / 4)).replaying then .next s
        else
          let s := s.dropItem i.ord
          match f with
          | some x => .next (s.stolen key x)
          | none =>
            if s.mayAsk key then .next (s.askVictim key (((s.core key).steal.map (·.victims)).getD []))
            else .next (s.setCore key { s.core key with steal := none })
    | _, _ => .next s

/-- STEAL_SWEEP_WAIT (R117): the 1,024 cycles after a sweep without a grant are over. -/
def execStealSweepWait (site core : Nat) (s : State) : Out :=
  let key := site * 4 + core
  let c := s.core key
  match c.steal with
  | some x =>
    if x.pausing then
      let s := s.setCore key { c with steal := none }
      if s.mayAsk key then .next (s.beginSteal key) else .next s
    else .next s
  | none => .next s

/-! ### Budget and pre-emption (R120, R122, R126) -/

/-- Whether an activation has used its budget up (R120). -/
def Thread.overdue (t : Thread) : Bool := t.act.isSome && t.priv == .U && t.status != .parked && t.budget == 0

/-- BUDGET_OVERRUN (R120). -/
def execBudgetOverrun (hart : Nat) (s : State) : Out :=
  if (s.thread hart).overdue && (s.tile (siteOf hart)).works then .next (s.abort hart 4 0) else .next s

/-- PREEMPTION_REQUEST (R122): the core stops filling slots and refuses steals; in deterministic mode from the next
quantum end on (R126). -/
def execPreemptionRequest (site core : Nat) (s : State) : Out :=
  let key := site * 4 + core
  let c := s.core key
  if s.det ((s.partOfSite site).getD 0) then .next (s.setCore key { c with preReq := true })
  else .next (s.setCore key { c with preempt := true })

/-- Whether a pre-emption request is complete on a core: its threads are free or parked (R122), and its tile is not being
recovered (R245). Engines stand at a chunk boundary between any two steps. -/
def State.preemptDone (s : State) (core : Nat) : Bool :=
  (s.core core).preempt && !(s.tile (core / 4)).replaying && !(s.tile (core / 4)).awaits && (List.range 8).all fun t =>
    let st := (s.thread (core * 8 + t)).status
    st == .free || st == .parked

/-- PREEMPTION_COMPLETE (R122); in deterministic mode it is part of a quantum end (R126). -/
def execPreemptionComplete (site core : Nat) (s : State) : Out :=
  let key := site * 4 + core
  if s.preemptDone key && !s.det ((s.partOfSite site).getD 0) then
    .next (s.setCore key { s.core key with preempted := true })
  else .next s

/-! ### Scan self-test (R38, R39, R388) -/

/-- Whether a core may run a slice: slices of its interval remain, no activation is on it, and nothing is runnable unless a
slice is due. -/
def State.sliceDue (s : State) (core : Nat) : Bool :=
  let c := s.core core
  (s.tile (core / 4)).works && decide (s.slicesOf core < 64) &&
    ((List.range 8).all fun t => (s.thread (core * 8 + t)).act.isNone) &&
    (s.scanHolds core || (c.nextChannel.isNone && c.deque.isEmpty))

/-- A core that has passed one more slice (R38): in the last second it takes up normal work again after it. The 64th completes the test;
one that was asked for starts the interval again (R388). -/
def State.passSlice (s : State) (core : Nat) : Core :=
  let c := s.core core
  let n := s.slicesOf core + 1
  if n = 64 && c.scanAsked then
    { c with slices := 0, scanIv := 0, scanFrom := s.scanNow core, scanDue := false, scanAsked := false, scanRest := false }
  else { c with slices := n, scanIv := s.scanIndex core, scanDue := false, scanRest := s.scanUrgent core }

/-- SCAN_SLICE (R38, R39): a failed slice fails the tile. That a test asked for has passed is noted for a replay (R388, log 34,
DEDUCED). -/
def execScanSlice (site core : Nat) (pass : Bool) (s : State) : Out :=
  let key := site * 4 + core
  let c := s.core key
  if !s.sliceDue key then .next s
  else if pass then
    let s' := s.setCore key (s.passSlice key)
    .next (if c.scanAsked && !(s'.core key).scanAsked then s'.log site 15 [BitVec.ofNat 64 (key % 4)] none 0 else s')
  else .next ((s.setCore key { c with coreFail := true }).stopTile site 2)

/-- SELF_TEST_DEADLINE (R38): the core starts no activation until it has run its next slice. -/
def execSelfTestDeadline (site core : Nat) (s : State) : Out :=
  let key := site * 4 + core
  if (s.tile site).works && s.scanUrgent key && !(s.core key).scanRest then
    .next (s.setCore key { s.core key with scanDue := true })
  else .next s

/-! ### Termination (R129-R131) -/

/-- Whether a core holds anything of a job (R130). -/
def Core.holdsJob (c : Core) (j : Nat) : Bool :=
  c.channels.any (fun x => x.queue.any (·.1.hdr.job == j) || x.spill.any (·.hdr.job == j)) || c.deque.any (·.job == j)

/-- Whether a tile is quiet for a job (R130). -/
def State.quietTile (s : State) (site j : Nat) : Bool :=
  let t := s.tile site
  !t.failed && !t.replaying &&
    (List.range 32).all (fun k => s.jobOf (site * 32 + k) != j || (s.thread (site * 32 + k)).act.isNone) &&
    (List.range 4).all (fun k => !(s.core (site * 4 + k)).holdsJob j) &&
    t.eqs.all (fun q => !(q.2.ring ++ q.2.spill).any (·.job == j) && !q.2.batches.any (·.jobs.contains j)) &&
    t.mqueue.all (·.job != j) && (t.mrun.map fun r => r.cmd.job != j).getD true &&
    s.net.all (fun i => siteOf i.src != site || i.job != j ||
      (match i.dst, i.body with | _, .mcmd _ => false | .site _, .store .. => false | _, _ => true)) &&
    t.xfers.all fun x => (x.map fun f => f.job != j).getD true

/-- Whether the floe of a partition holds a command of a job. -/
def Partition.floeHolds (p : Partition) (j : Nat) : Bool :=
  (p.floe.map fun f => (f.run.toList ++ f.waiting).any (·.job == j)).getD false

/-- Whether every home holds no item of a job under R221. -/
def State.homesQuiet (s : State) (j : Nat) : Bool :=
  s.net.all fun i => i.job != j || (match i.stage with | .held _ => false | _ => true)

/-- The sums of SENT and RECV of a job over a partition's tiles and the home agents (R131). -/
def State.sums (s : State) (p j : Nat) : Nat × Nat :=
  let ts := (s.partTiles p).map fun b => s.tile b.2
  ((ts.map fun t => SMap.get 0 t.sent j).sum + (s.homes.map fun a => SMap.get 0 a.2.sent j).sum,
   (ts.map fun t => SMap.get 0 t.recv j).sum + (s.homes.map fun a => SMap.get 0 a.2.recv j).sum)

@[inherit_doc packetJob] def Taken.job (t : Taken) : Nat := packetJob t.words
@[inherit_doc packetType] def Taken.typ (t : Taken) : Nat := packetType t.words

/-- Whether a taken packet is a launch that software on the part has issued and that has not started (R91, R130). -/
def Taken.childLaunch (t : Taken) : Bool :=
  t.typ == 1 && (match t.src with | .vf .. => false | _ => true) &&
    (match t.stage with | .ready | .held _ => true | _ => false)

/-- Whether launch messages of a job, or child launches that are not distributed, are still under way (R91, R131). -/
def State.launching (s : State) (p j : Nat) : Bool :=
  s.waves.any (fun w => s.taken.any fun t => t.id == w.packet && t.part == p && t.job == j) ||
  s.taken.any (fun t => t.part == p && t.job == j && t.childLaunch) ||
  s.devq.any (fun d => d.1 / 4 == p && d.2.slots.any fun x => packetType x.1 == 1 && packetJob x.1 == j) ||
  s.net.any fun i => i.part == p && (match i.body with
    | .message _ => i.job == j && i.src % 32 == 31
    | .packet w => packetType w == 1 && packetJob w == j
    | _ => false)

/-- Whether a packet of a job that a partition has taken is outstanding (R104). -/
def State.jobTaken (s : State) (p j : Nat) : Bool := s.taken.any fun t => t.part == p && t.job == j

/-- Releases a job that is quiet (R104). -/
def State.releaseJob (s : State) (p j : Nat) : State :=
  let x := s.part p
  if s.jobTaken p j then s else s.setPart p { x with jobs := x.jobs.filter (·.num != j) }

/-- TERMINATION_WAVE (R130, R131): two successive quiet waves with the same equal sums complete the job, and with it the
launches that wait for it; a job without a taken packet is released (R104). -/
def execTerminationWave (part job : Nat) (s : State) : Out :=
  let p := s.part part
  match p.job job with
  | none => .next s
  | some x =>
    if p.stage != .active || s.launching part job then .next s
    else
      let quiet := (s.partTiles part).all (fun b => s.quietTile b.2 job) && !p.floeHolds job && s.homesQuiet job
      let (a, b) := s.sums part job
      let set (w : Option (Nat × Nat)) : State :=
        s.setPart part { p with jobs := p.jobs.map fun y => if y.num == job then { x with lastWave := w } else y }
      if !quiet || a ≠ b then .next (set none)
      else if x.lastWave = some (a, b) then
        let done (t : Taken) : Taken :=
          if t.part == part && t.job == job && t.typ == 1 && t.stage == .running then { t with stage := .finished } else t
        .next ({ set none with taken := s.taken.map done }.releaseJob part job)
      else .next (set (some (a, b)))

end Sys2Proof.Machine
end

