-- ==== Sys2Proof/Machine/Egress.lean ====
section
/-!
DEFINITION. What leaves the part (spec/04_links.md R68-R82): egress windows, committed and immediate egress, and the
addresses of packets (spec/05_command.md R85, R90).
-/

namespace Sys2Proof.Machine

/-! ### Windows (R81, R100) -/

/-- The number that stands for the host in an egress window (R100). -/
def hostDest : Nat := 0xFFFF

/-- The egress window an item targets: the lowest that covers it (R100). A message has no address: only a window of
LEN 0 covers it. -/
def Partition.window (p : Partition) (dest : Nat) (range : Option (Nat × Nat)) : Option Nat :=
  (List.range 16).find? fun i =>
    let w := vget { kind := 0, dest := 0, base := 0, len := 0, sent := 0 } p.egress i
    w.kind != 0 && w.dest == dest &&
      (w.len == 0 || (match range with | some (a, n) => w.base ≤ a && a + n ≤ w.base + w.len | none => false))

/-- The kind of a window: 1 outside every window (R100). -/
def Partition.windowKind (p : Partition) (w : Option Nat) : Nat :=
  (w.map fun i => (vget { kind := 0, dest := 0, base := 0, len := 0, sent := 0 } p.egress i).kind).getD 1

/-- Counts an item that left exposed through a window (R82, R248). -/
def State.countWindow (s : State) (p : Nat) (w : Option Nat) : State :=
  match w with
  | none => s
  | some i =>
    let x := s.part p
    let e := vget { kind := 0, dest := 0, base := 0, len := 0, sent := 0 } x.egress i
    s.setPart p { x with egress := vset x.egress i { e with sent := e.sent + 1 } }

/-- The VFs bound to a partition, lowest first (R69). -/
def State.vfsOf (s : State) (p : Nat) : List Nat := (List.range 16).filter fun v => vget none s.vfs v == some p

/-! ### Signals (R85, R90, R94) -/

/-- Whether every home of a range of any form takes accesses now: its tile is neither failed nor being recovered (R24, R85, R242). -/
def State.doorsOpen (s : State) (p : Nat) (a : Word) (n : Nat) : Bool :=
  if a.getLsbD 63 then true
  else if a.getLsbD 62 then
    match s.window p a.toNat with
    | some (.tile x, _) => s.door x p == .open_
    | _ => true
  else (pieces a.toNat n).all fun x => s.homeDoor p x.1 == .open_

/-- A signal's value: its bytes, or none if it cannot be read (R85, R93), now or at all. -/
def State.sigRead (s : State) (p : Nat) (a : Word) : Option Nat × State :=
  if a.getLsbD 63 then (some (s.num (kHost a.toNat) 8), s)
  else if !s.doorsOpen p a 8 then (none, s)
  else if a.getLsbD 62 then
    match s.window p a.toNat with
    | some (w, o) => match s.winRead w o 8 with | (some bs, s) => (some (ofBytes bs), s) | (none, s) => (none, s)
    | none => (none, s)
  else match s.readAll p [(a.toNat, 8)] with
    | (.ok bs, s) => (some (ofBytes bs), s)
    | (.error _, s) => (none, s)

/-- A signal that a command processor may not change: the kind 6 record, with cause 2 (R90). A packet's decrement has no message id: it
reads 0 (log 103, DESIGN CHOICE). -/
def State.sigRefused (s : State) (p : Nat) (mid a : Word) : Bool × State := (false, s.record6 p 2 mid a.toNat)

/-- Changes a signal by a function: a read and a write on the host, an atomic at a device signal's home (R90, R94). A signal of
on-chip form is read and written as a copy packet does it, with its full-empty bits, and its refusal is recorded as that of a
device signal is (log 43, DEDUCED). A poisoned line is left as it is (R199). A device signal whose page is missing or does not
translate is not changed, and nothing reports it (log 103, DESIGN CHOICE). False where nothing changed. -/
def State.sigUpdate (s : State) (p : Nat) (mid : Word) (a : Word) (f : Nat → Nat) : Bool × State :=
  if a.getLsbD 63 then (true, s.putNum (kHost a.toNat) 8 (f (s.num (kHost a.toNat) 8) % 2 ^ 64))
  else if a.getLsbD 62 then
    match s.window p a.toNat with
    | none => s.sigRefused p mid a
    | some (w, o) =>
      match s.winRead w o 8 with
      | (some bs, s) =>
        let new := bytesOf 8 (f (ofBytes bs) % 2 ^ 64)
        match s.winWrite w true o new with
        | (.done false, s) => (true, s.logWindow Config.numSites p w a.toNat new)
        | (_, s) => s.sigRefused p mid a
      | (none, s) => s.sigRefused p mid a
  else match s.resolve p a.toNat (some .atomic) none with
    | (.ok k, s) =>
      if s.poisoned k 8 then (false, s)
      else (true, (s.putNum k 8 (f (s.num k 8) % 2 ^ 64)).logWrite Config.numSites p a.toNat k 8 false none)
    | (.bad c, s) => if c = 2 || c = 3 then s.sigRefused p mid a else (false, s)

/-- The new value of a signal: 0 stores, 1 adds, 2 subtracts (R94). -/
def sigChange (op : Nat) (v : Word) (old : Nat) : Nat :=
  match op with
  | 0 => v.toNat
  | 1 => old + v.toNat
  | _ => old + 2 ^ 64 - v.toNat

/-! ### Barrier packets (R93, R108) -/

/-- The `i`-th 8-byte word of a packet. -/
def Taken.word (t : Taken) (i : Nat) : Word := vget 0 t.words i
/-- The signals a barrier packet names (R93). -/
def Taken.signals (t : Taken) : List Word := ([2, 3, 4, 5, 6].map t.word).filter (· != 0)
/-- Whether a packet is a barrier packet. -/
def Taken.isBarrier (t : Taken) : Bool := t.typ == 3 || t.typ == 4

/-- Sets the stage of a taken packet. -/
def State.setPacket (s : State) (id : Nat) (st : PStage) : State :=
  let taken : List Taken := s.taken.map fun t => if t.id == id then { t with stage := st } else t
  { s with taken := taken }

/-- Reads signals; none for one that cannot be read. -/
def State.readSignals (s : State) (p : Nat) : List Word → List (Option Nat) × State
  | [] => ([], s)
  | a :: rest =>
    match s.sigRead p a with
    | (v, s) =>
      let (l, s) := s.readSignals p rest
      (v :: l, s)

/-- Whether a signal reads 0 or less as a signed value (R93). One that cannot be read does not, and nothing reports it: the spec
says nothing of it (log 96, DESIGN CHOICE). -/
def signalDown (v : Option Nat) : Bool := (v.map fun x => x == 0 || decide (2 ^ 63 ≤ x)).getD false

/-- One evaluation of a barrier packet (R93): a packet that is satisfied is complete. -/
def State.evaluate (s : State) (t : Taken) : Bool × State :=
  let (l, s) := s.readSignals t.part t.signals
  if if t.typ = 3 then l.all signalDown else l.any signalDown then (true, s.setPacket t.id .finished) else (false, s)

/-- A command processor of a partition has changed a device signal: the barrier packets that wait for it are evaluated, but for
those the host resolves (R93, R108). -/
def State.signalChanged (s : State) (p : Nat) (a : Word) : State :=
  if a.getLsbD 63 || a.getLsbD 62 || (s.part p).assist.testBit 1 then s
  else (s.taken.filter fun t => t.part == p && t.isBarrier && t.stage == .running && t.signals.contains a).foldl
    (fun s t => (s.evaluate t).2) s

/-! ### Rypol ports as egress points (R72, R73, R75, R77) -/

/-- A Rypol port. -/
def State.port (s : State) (k : Nat) : Port := vget Port.init s.ports k
/-- Sets a Rypol port. -/
def State.setPort (s : State) (k : Nat) (p : Port) : State := { s with ports := vset s.ports k p }
/-- Whether a port is in service: up or degraded (R74). -/
def Port.inService (p : Port) : Bool := p.state == 2 || p.state == 3
/-- The ports of a mask, in ascending order. -/
def portsOf (mask : Nat) : List Nat := (List.range 64).filter mask.testBit
/-- The ports a partition's route table gives for a device (R77). -/
def Partition.route (p : Partition) (dev : Nat) : Nat := ((p.routes.find? (·.1 == dev)).map (·.2)).getD 0

/-- The port that traffic takes to a device: number `sel` mod n of the n ports in the route's mask, and where that port is not in
service the next one after it that is (R73, R77, log 40, DEDUCED). None without a route, or with every port down. -/
def State.portFor (s : State) (p dev sel : Nat) : Option Nat :=
  let l := portsOf ((s.part p).route dev)
  let k := sel % l.length
  (l.drop k ++ l.take k).find? fun x => (s.port x).inService

/-- The virtual channel of a request or a response on a port (R75). -/
def State.channelOf (s : State) (p port srank : Nat) (response : Bool) : Nat :=
  match (s.part p).vcs.find? (·.1 == port) with
  | some (_, i) => 4 + 2 * i + ofBool response
  | none => if response then 1 else 2 + srank % 2

/-- The 32 words of a flit: a message flit with one of its three slots in use, or a bulk flit (R72, log 40, DESIGN CHOICE). -/
def Flit.words (f : Flit) : List Word :=
  let head := BitVec.ofNat 64 (1 + ofBool f.bulk + f.vc * 2 ^ 4 + f.seq * 2 ^ 8 + Config.creditReturn f.seq % 2 ^ 40 * 2 ^ 24)
  let body := head :: (f.slot ++ List.replicate 30 0).take 30
  body ++ [Config.crc64 body]

/-- The virtual channel of a flit on a port (R75). -/
def State.flitChannel (s : State) (port : Nat) (f : Flit) : Nat :=
  match f.resp with
  | none => 0
  | some r => s.channelOf f.part port f.srank r

/-- A port sends a flit, with its next link sequence and on the channel that is its own there, and keeps it in the retry buffer
(R72, R73, R75). A flit leaves the buffer when the other end asks for a later one, and the buffer has no limit (log 103, DESIGN
CHOICE). -/
def State.transmit (s : State) (port : Nat) (f : Flit) : State :=
  let p := s.port port
  let f := { f with seq := p.txSeq, vc := s.flitChannel port f }
  { s.setPort port { p with txSeq := (p.txSeq + 1) % 2 ^ 16, retry := p.retry ++ [f] } with outs := s.outs ++ [.flit port f.words] }

/-- The message slot of a message (R72, R135). -/
def Msg.slotWords (m : Msg) : List Word := m.hdr.word0 :: m.hdr.word1 :: m.payload.toList

/-- The port of management traffic to a device: of the partition's route, else of any partition's, else the lowest in service (R75,
log 103, DESIGN CHOICE). -/
def State.managePort (s : State) (p dev : Nat) : Option Nat :=
  (s.portFor p dev 0).orElse fun _ =>
    (s.parts.findSome? fun q => s.portFor q.1 dev 0).orElse fun _ => (List.range 64).find? fun k => (s.port k).inService

/-- Management traffic leaves on VC 0 (R75): a rollback notice, or a request that returns to its sender. -/
def State.manageOut (s : State) (p dev : Nat) (slot : List Word) : State :=
  match s.managePort p dev with
  | some k => s.transmit k { seq := 0, dev := dev, sel := 0, part := p, srank := 0, resp := none, vc := 0, bulk := false, slot := slot }
  | none => s

/-- A request of another device returns to its sender's error channel, with a cause, as an error message (R75, R77). Its core and channel
there are the other device's to find, and its SEQ is free (log 103, DESIGN CHOICE). -/
def State.returnPeer (s : State) (i : Item) (dev cause : Nat) : State :=
  let h := mkHeader s.dev i.srank 0 15 5 0 i.job dev (Config.itemSeq i.srank i.mid.toNat cause)
  let m := mkMsg h #v[i.mid, BitVec.ofNat 64 cause, 0, BitVec.ofNat 64 i.srank, 0, 0, 0, 0] none
  { s with outs := s.outs ++ [Output.returned dev 0 cause i] }.manageOut i.part dev m.slotWords

/-- The port that a message for another device leaves by (R77). -/
def State.messagePort (s : State) (i : Item) : Option Nat :=
  match i.body, i.dst with
  | .message m, .device d => s.portFor i.part d (i.srank ^^^ m.hdr.drank)
  | _, _ => none

/-- Whether the egress buffer of the port has room for a message; else it stays at its NI (R81). -/
def State.egressFits (s : State) (i : Item) : Bool :=
  match s.messagePort i with
  | none => false
  | some k => (s.egressQ.filter fun e => s.messagePort e.2.2 == some k).length ≤ Config.egressRoom

/-! ### Leaving (R69, R70, R81) -/

/-- A message leaves by its port: the egress point drops one whose number is not higher than the highest it has sent for the
sender's rank and the egress kind (R81). One that no port can take now goes to the head of what the next commit releases. -/
def State.leavePort (s : State) (i : Item) (m : Msg) (d : Nat) : Bool × State :=
  match s.messagePort i with
  | none => (false, { s with egressQ := s.egressQ ++ [(siteOf i.src, 0, i)] })
  | some k =>
    let key (x : Nat × Nat × Bool × Nat) : Bool := x.1 == k && x.2.1 == i.srank && x.2.2.1 == i.ceg
    if (s.egressed.find? key).all fun x => seqLater i.seq x.2.2.2 then
      let f : Flit := { seq := 0, dev := d, sel := i.srank ^^^ m.hdr.drank, part := i.part, srank := i.srank, resp := some false
                        vc := 0, bulk := false, slot := m.slotWords }
      (true, { s with egressed := (k, i.srank, i.ceg, i.seq) :: s.egressed.filter (fun x => !key x)
                      outs := s.outs ++ [Output.sent d i] }.transmit k f)
    else (false, s)

/-- The number that stands for the host port among the egress points (R81). -/
def hostPort : Nat := 64

/-- Whether the host port has already sent an item's number, or a later one, for the rank and the kind (R81). The supervisors' own
egress has no interval behind it and is not sent again. -/
def State.sentToHost (s : State) (i : Item) : Bool :=
  i.part != 0 && (s.egressed.any fun x => x.1 == hostPort && x.2.1 == i.srank && x.2.2.1 == i.ceg && !seqLater i.seq x.2.2.2)

/-- The host port has sent an item (R81). -/
def State.noteHost (s : State) (i : Item) : State :=
  let key (x : Nat × Nat × Bool × Nat) : Bool := x.1 == hostPort && x.2.1 == i.srank && x.2.2.1 == i.ceg
  if i.part = 0 then s
  else { s with egressed := (hostPort, i.srank, i.ceg, i.seq) :: s.egressed.filter (fun x => !key x) }

/-- An item leaves: a write of host memory or a change of a signal, on the function it travels on; an interrupt, which a VF that
is bound to no partition does not raise; or a message to another device. A write that the host port has sent is dropped (R81), and a
change of a signal whose home is being recovered waits. False where nothing is sent. -/
def State.leaveOut (s : State) (i : Item) : Bool × State :=
  match i.body with
  | .store a bs _ => if s.sentToHost i then (false, s) else (true, ((s.noteHost i).putMem (kHost a) bs).sawHost i.fn a bs.length)
  | .sig a op v =>
    if !s.doorsOpen i.part a 8 then (false, { s with egressQ := s.egressQ ++ [(siteOf i.src, 0, i)] })
    else
      let (ok, s) := s.sigUpdate i.part i.mid a (sigChange op v)
      (true, if a.getLsbD 63 then s.sawHost i.fn (a.toNat % 2 ^ 63) 8 else if ok then s.signalChanged i.part a else s)
  | .irq fn vector =>
    if fn < 16 && (vget none s.vfs fn).isNone then (false, s) else (true, { s with outs := s.outs ++ [.msix fn vector] })
  | .message m => s.leavePort i m (match i.dst with | .device d => d | _ => 0)
  | _ => (false, s)

/-- The state after an item has left. -/
def State.leave (s : State) (i : Item) : State := (s.leaveOut i).2

/-- An item leaves exposed: it counts for its window (R82, R247, R248). -/
def State.leaveExposed (s : State) (i : Item) (w : Option Nat) : State :=
  match s.leaveOut i with
  | (true, s) => s.countWindow i.part w
  | (false, s) => s

/-- Egress of a tile (R81): immediate egress, and all egress of an unprotected partition, leaves at once and counts as
exposed; committed egress waits for the commit of the interval that is open now. -/
def State.depart (s : State) (site : Nat) (i : Item) (dest : Nat) (range : Option (Nat × Nat)) : State :=
  let p := s.part i.part
  let w := p.window dest range
  let committed := p.windowKind w == 1
  let i := { i with ceg := committed, body := match i.body with
    | .message m => .message { m with hdr := { m.hdr with ceg := committed } }
    | b => b }
  if committed && p.prot && (s.tile site).prot then
    { s with egressQ := s.egressQ ++ [(site, (s.tile site).ival, i)] }
  else s.leaveExposed i w

/-- Egress of the part's own firmware, always immediate (R81). -/
def State.leaveNow (s : State) (i : Item) : State := s.leave i

/-- Releases the committed egress of a tile's intervals up to a number (R238). -/
def State.release (s : State) (site ival : Nat) : State :=
  let due (x : Nat × Nat × Item) : Bool := x.1 == site && decide (x.2.1 ≤ ival)
  let out := s.egressQ.filter due
  out.foldl (fun s x => s.leave x.2.2) { s with egressQ := s.egressQ.filter fun x => !due x }

/-! ### Ports that go down (R71, R73, R80) -/

/-- The contents of a tile as a recovery point streams them: scratchpad, accumulators, the rest of 576 KiB of other state, whose
form is open, and bonded block (R80, log 36, DESIGN CHOICE). -/
def TileImage.stream (g : TileImage) : List Byte :=
  Memory.readN g.scratch 0 Config.scratchBytes ++ Memory.readN g.accs 0 98304 ++ (List.range (576 * 1024 - 98304)).map Config.freeByte ++
    Memory.readN g.bonded 0 (g.tile.usable * 2 ^ 20)

/-- A segment of a recovery point: 1 MiB of the tiles' contents and the HBM (R80). -/
def RecPoint.segment (r : RecPoint) (n : Nat) : List Byte :=
  let all := r.images.flatMap TileImage.stream ++ r.spans.flatMap fun x => Memory.readN r.hbm x.1 x.2
  (all.drop (2 ^ 20 * n)).take (2 ^ 20)

/-- Words in the pieces that bulk flits carry: 240 bytes each (R72). -/
def bulkPieces : Nat → List Word → List (List Word)
  | 0, _ => []
  | n + 1, l => if l.isEmpty then [] else l.take 30 :: bulkPieces n (l.drop 30)

/-- The data of a segment's bulk flits: the point's number, the index, the CRC-32C, and the bytes; where in the flits the numbers
stand is open (R72, R80, log 40, DESIGN CHOICE). -/
def segmentData (num seg : Nat) (crc : BitVec 32) (bs : List Byte) : List (List Word) :=
  let words := (List.range (ceilDiv bs.length 8)).map fun i => BitVec.ofNat 64 (ofBytes ((bs.drop (8 * i)).take 8))
  bulkPieces (words.length + 3) (BitVec.ofNat 64 num :: BitVec.ofNat 64 seg :: BitVec.ofNat 64 crc.toNat :: words)

/-- A segment of a recovery point leaves by a port in bulk flits, with the point's number, its index and its CRC-32C (R72, R80). -/
def State.sendSegment (s : State) (p : Nat) (r : RpStream) (seg port : Nat) : State :=
  let point := s.points.find? fun y => y.tier == r.dev && y.src == s.dev && y.part == p && y.num == r.num
  let bs := (point.map fun y => y.segment seg).getD []
  let crc := (point.map fun y => crc32c (y.segment seg)).getD 0
  (segmentData r.num seg crc bs).foldl (fun s data =>
    s.transmit port { seq := 0, dev := r.dev, sel := 0, part := p, srank := 0, resp := some false, vc := 0, bulk := true, slot := data })
    { s with outs := s.outs ++ [.segment r.dev port r.num seg crc] }

/-- The segments of a recovery point that went by a port go by the others it names that are in service, in turn (R80). -/
def State.moveSegments (s : State) (port : Nat) (r : RpStream) : RpStream :=
  let l := (portsOf r.ports).filter fun k => k != port && (s.port k).inService
  if l.isEmpty then r
  else { r with todo := r.todo.zipIdx.map fun x => if x.1.2 = port then (x.1.1, l.getD (x.2 % l.length) port) else x.1 }

/-- A port no longer in service: what its retry buffer holds goes by the next port of R77, on the channel that is its own there, and
segments by the other ports (R73, R75, R80). What no port can take stays. -/
def State.portDown (s : State) (port : Nat) : State :=
  let held := (s.port port).retry.filter fun f => !f.bulk
  let s := s.setPort port { s.port port with retry := [] }
  let s := held.foldl (fun s f =>
    match if f.resp.isNone then s.managePort f.part f.dev else s.portFor f.part f.dev f.sel with
    | some k => s.transmit k f
    | none => s.setPort port { s.port port with retry := (s.port port).retry ++ [f] }) s
  s.parts.foldl (fun s p =>
    match p.2.rp with
    | none => s
    | some r =>
      let r' := s.moveSegments port r
      (r'.todo.filter fun x => !r.todo.contains x).foldl (fun s x => s.sendSegment p.1 r x.1 x.2)
        (s.setPart p.1 { s.part p.1 with rp := some r' })) s

end Sys2Proof.Machine
end

