-- ==== Sys2Proof/Machine/Expert.lean ====
section
/-!
DEFINITION. Expert queues: EQPUSH, EQFIRE, EQDONE, EQSTAT and the steps of the expert queue unit (spec/08_experts.md
R152-R167, R170; spec/18_matrix.md R379-R381).
-/

namespace Sys2Proof.Machine

/-! ### Queues (R152-R158, R162, R163) -/

/-- A queue of a tile. -/
def Tile.eq (t : Tile) (i : Nat) : ExpertQueue := SMap.get ExpertQueue.init t.eqs i
/-- Sets a queue of a tile. -/
def State.setEq (s : State) (site i : Nat) (q : ExpertQueue) : State :=
  let t := s.tile site
  s.setTile site { t with eqs := SMap.put t.eqs i q }

/-- The clock a tile's waits are counted with: completed quanta in deterministic mode, else the region's cycles
(R158). -/
def State.eqNow (s : State) (site p : Nat) : Nat :=
  if (s.part p).det then s.quantaAt site p else (s.regionAt site).cycles

/-- WAITING (R157). -/
def ExpertQueue.waiting (q : ExpertQueue) : Nat := q.ring.length + q.spill.length
/-- The oldest waiting entry. -/
def ExpertQueue.oldest (q : ExpertQueue) : Option EqEntry := (q.ring ++ q.spill).head?
/-- The wait of the oldest waiting entry (R158). -/
def ExpertQueue.wait (q : ExpertQueue) (now : Nat) : Nat := ((q.oldest.map fun e => ((now : Int) - e.since).toNat)).getD 0
/-- Ring slots in use: waiting entries and batches not released (R153). -/
def ExpertQueue.occupied (q : ExpertQueue) : Nat := q.ring.length + (q.batches.map (·.count)).sum
/-- Batches in flight (R160). -/
def ExpertQueue.inFlight (q : ExpertQueue) : Nat := (q.batches.filter fun b => b.got < b.need).length
/-- Whether age makes the queue eligible (R158). -/
def ExpertQueue.aged (q : ExpertQueue) (now : Nat) : Bool := q.age != 0 && decide (1 ≤ q.waiting && q.age ≤ q.wait now)
/-- Whether the queue is fire-eligible (R158). -/
def ExpertQueue.eligible (q : ExpertQueue) (now : Nat) : Bool :=
  q.configured && q.enable && decide (1 ≤ q.waiting) && (decide (q.fill ≤ q.waiting) || q.aged now || q.force)
/-- The effective priority (R162). -/
def ExpertQueue.eprio (q : ExpertQueue) (now : Nat) : Nat :=
  if q.age = 0 then q.prio else min 7 (q.prio + (q.wait now / q.age - 1))
/-- The status word (R157). -/
def ExpertQueue.status (q : ExpertQueue) (now : Nat) : Word :=
  if q.configured then
    BitVec.ofNat 64 (min q.spill.length 0xFFFF * 2 ^ 48 + ofBool q.spflt * 2 ^ 44 + q.inFlight % 8 * 2 ^ 41 +
      ofBool q.force * 2 ^ 40 + ofBool (q.eligible now) * 2 ^ 39 + ofBool q.enable * 2 ^ 38 + q.eprio now % 8 * 2 ^ 35 +
      q.waiting % 2 ^ 32)
  else 0
/-- Since when a queue that is at effective priority 7 has been there (R163): as noted, else since its oldest entry was old
enough. -/
def ExpertQueue.topSince (q : ExpertQueue) (now : Nat) : Int :=
  match q.top with
  | some t => t
  | none =>
    let old : Int := match q.oldest with | some e => e.since | none => now
    if q.age = 0 || 7 ≤ q.prio then now else min now (old + ((8 - q.prio) * q.age : Nat))
/-- Notes since when a queue has been at effective priority 7 (R163). -/
def ExpertQueue.noteTop (q : ExpertQueue) (now : Nat) : ExpertQueue :=
  { q with top := if q.eprio now = 7 then some (q.topSince now) else none }
/-- A queue that fires counts as reaching effective priority 7 afresh (R163). -/
def ExpertQueue.freshTop (q : ExpertQueue) (now : Nat) : ExpertQueue := { q with top := if q.eprio now = 7 then some now else none }
/-- A queue with its times `d` later (R158). -/
def ExpertQueue.shift (d : Int) (q : ExpertQueue) : ExpertQueue :=
  let later (e : EqEntry) : EqEntry := { e with since := e.since + d }
  { q with ring := q.ring.map later, spill := q.spill.map later, top := q.top.map (· + d) }

/-- The queue a global id names in a partition: its site, local index and state, if its home is a ranked tile of the
partition and it is configured there (R152, R156, R380). -/
def State.findEq (s : State) (p qid : Nat) : Option (Nat × Nat × ExpertQueue) :=
  match (s.partTiles p).find? (·.1 == qid / 64) with
  | none => none
  | some b =>
    let q := (s.tile b.2).eq (qid % 64)
    if q.configured && q.part == p then some (b.2, qid % 64, q) else none

/-! ### Instructions (R379-R381) -/

/-- The checks of R154 on an entry's bytes. -/
def entryOk (bs : List Byte) : Bool :=
  decide ((bs.getD 28 0).toNat ≤ 7) && bs.getD 29 0 == 0 && bs.getD 30 0 == 0 && bs.getD 31 0 == 0 && bs.getD 23 0 == 0

/-- EQPUSH (R154, R379): with four sends or pushes waiting it blocks (R144, R167). -/
def execEqpush (rs2 rs1 : Reg) (s : State) : Out :=
  let a := s.rx rs1
  let qid := (s.rx rs2).toNat
  if a.toNat % 32 ≠ 0 then raiseOut s 13 .load a
  else match s.windowKey .read a.toNat 32 with
    | .error c => raiseOut s c .load a
    | .ok key =>
      if s.pendingLocal s.cur key 32 then blockOn s .retry
      else if 2 ^ 32 ≤ qid || !entryOk (s.bytes key 32) then operandError s
      else if 4 ≤ s.waitingSends s.cur then blockOn s .retry
      else
        let bs := s.bytes key 32
        let (q, s) := s.takeSeq s.cur
        let i := s.item s.cur q true (.tile (qid / 64)) (.push qid bs)
        .next ((s.countSent s.site i.job 1).emit i).retire

/-- EQFIRE and EQDONE (R380): an item with one sequence number to the queue's home. -/
def eqPost (s : State) (qid : Nat) (release : Bool) (b : Body) : Out :=
  let (q, s) := s.takeSeq s.cur
  .next (s.emit { s.item s.cur q release (.tile (qid / 64)) b with counted := false }).retire

/-- EQFIRE (R380). -/
def execEqfire (rs1 : Reg) (s : State) : Out :=
  let qid := (s.rx rs1).toNat
  if 2 ^ 32 ≤ qid then operandError s else eqPost s qid false (.eqfire qid)

/-- EQDONE (R160, R380). -/
def execEqdone (rs1 rs2 : Reg) (s : State) : Out :=
  let qid := (s.rx rs1).toNat
  let fire := (s.rx rs2).toNat
  if 2 ^ 32 ≤ qid || 2 ^ 32 ≤ fire then operandError s else eqPost s qid true (.eqdone qid fire)

/-- EQSTAT (R381): a returning operation, also to the own tile. -/
def execEqstat (rd rs1 : Reg) (s : State) : Out :=
  match s.me.resp with
  | some r => writeReg s rd r.value
  | none =>
    let qid := (s.rx rs1).toNat
    if 2 ^ 32 ≤ qid then operandError s
    else
      let i := s.item s.cur 0 false (.tile (qid / 64)) (.ret (.eqstat qid))
      let s := s.emit { i with counted := false }
      .next (s.setMe { s.me with status := .blocked .response, req := s.ordCtr })

/-! ### Insertion and release (R153, R155, R156, R167) -/

/-- Writes an entry into ring slot `n` with its words full (R155). -/
def State.putSlot (s : State) (site : Nat) (q : ExpertQueue) (n : Nat) (bs : List Byte) : State :=
  s.putEngine (kScratch site + q.ringoff + 32 * (n % 2 ^ q.ringlog)) bs

/-- Appends an entry to the ring of a queue that has a free slot. -/
def State.toRing (s : State) (site i : Nat) (e : EqEntry) : State :=
  let q := (s.tile site).eq i
  (s.putSlot site q (q.head + q.occupied) e.bytes).setEq site i { q with ring := q.ring ++ [e] }

/-- Moves spilled entries into free ring slots, oldest first (R156). -/
def State.unspill (s : State) (site i : Nat) : Nat → State
  | 0 => s
  | n + 1 =>
    let q := (s.tile site).eq i
    match q.spill with
    | [] => s
    | e :: rest =>
      if q.occupied < 2 ^ q.ringlog then ((s.setEq site i { q with spill := rest }).toRing site i e).unspill site i n
      else s

/-- Frees the ring slots of the oldest batches that have all their EQDONEs (R155, R160). -/
def State.freeBatches (s : State) (site i : Nat) : Nat → State
  | 0 => s
  | n + 1 =>
    let q := (s.tile site).eq i
    match q.batches with
    | b :: rest =>
      if b.got < b.need then s
      else
        let s := (List.range b.count).foldl (fun s j =>
          s.setEmpty (kScratch site + q.ringoff + 32 * ((q.head + j) % 2 ^ q.ringlog)) 32) s
        let q := { q with head := (q.head + b.count) % 2 ^ q.ringlog, batches := rest, spflt := false }
        (s.setEq site i q).freeBatches site i n
    | [] => s

/-- What became of an item that needs no more. -/
def State.takeItem (s : State) (i : Item) : State := s.dropItem i.ord

/-- A push, EQFIRE or EQDONE at the home of its queue (R156, R231, R380): the door of the home comes first, then the duplicate
filter; a queue that is not configured there, or whose home is no ranked tile of the partition, gives the report "no such queue",
which the home forms where there is one (R129). -/
def State.atQueue (s : State) (i : Item) (qid : Nat) (take : Nat → Nat → ExpertQueue → State) : State :=
  match (s.partTiles i.part).find? (·.1 == qid / 64) with
  | none => (s.ended i).report (siteOf i.src) (i.reportOf 16 0)
  | some b =>
    match s.door b.2 i.part with
    | .shut => s
    | .refuse => s.bounce i
    | .open_ =>
      if !i.passed && !(s.tile b.2).fresh (s.itemDomain i) i.seq then s.takeItem i
      else match s.findEq i.part qid with
        | none => (s.ended i).report b.2 (i.reportOf 16 0)
        | some (site, n, q) => take site n q

/-- The next place of a queue's spill area (log 94, DESIGN CHOICE). -/
def ExpertQueue.spillSlot (q : ExpertQueue) : Nat :=
  match q.spill.getLast? with
  | some e => (e.slot + 1) % (q.spillLen / 32)
  | none => 0

/-- Writes an entry at its place in a queue's spill area, without a capability (R153). A home that refuses it, and a page that is
missing, leave memory as it is, and the refusal is reported; the unit keeps the entry (log 29, DEDUCED). -/
def State.putSpill (s : State) (site : Nat) (q : ExpertQueue) (i : Item) (e : EqEntry) : State :=
  let a := q.spillAt + 32 * e.slot
  match s.translate q.part a with
  | (.error _, s) => s
  | (.ok t, s) =>
    match t.grants .atomic (some (bitsN t.leaf.toNat 63 48, bitsN t.w1.toNat 63 48)) with
    | none =>
      let k := s.entryKey q.part t a
      (s.putMem k e.bytes).logWrite site q.part a k 32 false none
    | some c => (s.record6 q.part c i.mid a).report site (i.reportOf c a)

/-- A push at its home (R156): accepted into the ring or the spill area, refused, or reported. -/
def State.acceptPush (s : State) (i : Item) (qid : Nat) (bs : List Byte) : State :=
  s.atQueue i qid fun site n q =>
      let e : EqEntry :=
        { bytes := bs.take 24 ++ bytesOf 4 (i.srank % 2 ^ 18) ++ bs.drop 28, since := s.eqNow site q.part, job := i.job }
      let done (s : State) : State :=
        let s := s.takeItem i
        let s := if (s.tile site).fresh (s.itemDomain i) i.seq then s.noteSeq site (s.itemDomain i) i.seq else s
        let s := s.countRecv site i.job 1
        if i.passed then s else s.log site 1 [] (some i) 80
      if q.spill.isEmpty && q.occupied < 2 ^ q.ringlog then
        let s := done (s.toRing site n e)
        s.setEq site n (((s.tile site).eq n).noteTop (s.eqNow site q.part))
      else if (q.spill.length + 1) * 32 ≤ q.spillLen then
        let e := { e with slot := q.spillSlot }
        done ((s.putSpill site q i e).setEq site n { ((s.tile site).eq n) with spill := q.spill ++ [e] })
      else
        let s := s.bounce i
        if q.spflt then s
        else
          (s.setEq site n { q with spflt := true }).report site
            { part := i.part, job := i.job, mid := i.mid, cause := 20, a2 := BitVec.ofNat 64 q.spillAt, rank := i.srank,
              chan := i.chan, a4 := 0 }

/-- A push, EQFIRE or EQDONE that lands in a quantum is logged, passes the filter and waits for the quantum's end (R124, R137,
R240, R380). -/
def State.collect (s : State) (i : Item) (qid : Nat) : State :=
  match s.siteOfRank (qid / 64) with
  | none => s.setStage i.ord .collected
  | some site =>
    match s.door site i.part with
    | .shut => s
    | .refuse => s.bounce i
    | .open_ =>
      if (s.tile site).fresh (s.itemDomain i) i.seq then
        ((s.log site 1 [] (some { i with stage := .collected }) 80).noteSeq site (s.itemDomain i) i.seq).setStage i.ord .collected
      else s.takeItem i

/-- PUSH_ACCEPT (R124, R156, R165, R166): the `k`-th item is a push at its home. In deterministic mode it is collected
until the quantum ends. -/
def execPushAccept (k : Nat) (s : State) : Out :=
  match nth s.net k with
  | none => .next s
  | some i =>
    match i.body with
    | .push qid bs =>
      if i.stage != .waiting || !s.injectable i then .next s
      else if s.det i.part then .next (s.collect i qid)
      else .next (s.acceptPush i qid bs)
    | _ => .next s

/-! ### Firing (R158-R163) -/

/-- ENTRY_AGE (R158, R163, R170): the oldest waiting entry of a queue has waited AGE, so that the queue is eligible; the
unit notes when it reaches effective priority 7. -/
def execEntryAge (site q : Nat) (s : State) : Out :=
  let x := (s.tile site).eq q
  let now := s.eqNow site x.part
  if x.configured && x.aged now then .next (s.setEq site q (x.noteTop now)) else .next s

/-- Whether a queue may fire now: eligible, with an entry in its ring and, for a multicast, a member (R159). -/
def State.canFire (s : State) (site : Nat) (q : ExpertQueue) : Bool :=
  q.eligible (s.eqNow site q.part) && !q.ring.isEmpty && (!q.mcast || !(s.group q.part q.target).isEmpty)

/-- Whether a queue goes before another (R163). -/
def eqBefore (now : Nat) (a b : Nat × ExpertQueue) : Bool :=
  let pa := a.2.eprio now
  let pb := b.2.eprio now
  if pa ≠ pb then pb < pa
  else if pa = 7 then
    let ta := a.2.topSince now
    let tb := b.2.topSince now
    if ta ≠ tb then ta < tb else a.1 < b.1
  else
    let wa := a.2.wait now
    let wb := b.2.wait now
    if wa ≠ wb then wb < wa else a.1 < b.1

/-- The queue a tile fires next (R159, R163). -/
def State.nextQueue (s : State) (site : Nat) : Option (Nat × ExpertQueue) :=
  let t := s.tile site
  if 4 ≤ (t.eqs.map fun x => x.2.inFlight).sum then none
  else
    (t.eqs.filter fun x => s.canFire site x.2).foldl (fun b x =>
      match b with
      | none => some x
      | some y => if eqBefore (s.eqNow site x.2.part) x y then some x else some y) none

/-- The message id of a fire message (R161). -/
def fireId (sdev qid fire : Nat) : Word := BitVec.ofNat 64 (2 ^ 63 + sdev * 2 ^ 51 + qid * 2 ^ 32 + fire % 2 ^ 32)

/-- The messages of a firing (R161). -/
def State.fireMessages (s : State) (site : Nat) (q : ExpertQueue) (qid fire : Nat) (dest : List Nat)
    (pl : Vector Word 8) : State :=
  let rank := qid / 64
  dest.foldl (fun s c =>
    let h := mkHeader s.dev (rank * 32) (c * 8) q.chan 2 0 q.job s.dev fire
    let m := { mkMsg h pl none with dom := .fire s.dev (rank * 32) qid, mid := fireId s.dev qid fire }
    let i := s.item (site * 32) 0 false (.core c) (.message m)
    (s.countSent site q.job 1).emit
      { i with srank := rank * 32, job := q.job, part := q.part, mid := m.mid,
               stage := if (s.part q.part).det then .collected else .waiting }) s

/-- Fires a queue (R159-R161). -/
def State.fire (s : State) (site n : Nat) (q : ExpertQueue) : State :=
  let now := s.eqNow site q.part
  let qid := ((s.tile site).rank.getD 0) * 64 + n
  let dest := if q.mcast then s.group q.part q.target else [q.target]
  let count := min q.maxbatch q.ring.length
  let base := (q.head + (q.batches.map (·.count)).sum) % 2 ^ q.ringlog
  let f := q.fires + 1
  let need := dest.length
  let b : Batch := { base := base, count := count, fire := f, need := need, got := 0, jobs := (q.ring.take count).map (·.job) }
  let why := ofBool (decide (q.fill ≤ q.waiting)) * 2 ^ 32 + ofBool (q.aged now) * 2 ^ 33 + ofBool q.force * 2 ^ 34
  let pl : Vector Word 8 :=
    #v[BitVec.ofNat 64 (qid + why), BitVec.ofNat 64 base, BitVec.ofNat 64 count, BitVec.ofNat 64 (q.wait now),
       BitVec.ofNat 64 (2 ^ 62 + qid / 64 * 2 ^ 32 + q.ringoff), BitVec.ofNat 64 q.ringlog, BitVec.ofNat 64 f,
       BitVec.ofNat 64 need]
  let q' := { q with ring := q.ring.drop count, batches := q.batches ++ [b], fires := f, force := false, top := none }
  let s := s.setEq site n (q'.freshTop now)
  let s := if (s.part q.part).det then s
    else s.log site 6 [BitVec.ofNat 64 qid, BitVec.ofNat 64 base, BitVec.ofNat 64 count, BitVec.ofNat 64 f] none 16
  s.fireMessages site q qid f dest pl

/-- EXPERT_FIRING (R159): a tile fires one queue. In deterministic mode firings are decided at quantum end only (R166);
a tile that replays its log repeats the logged firing (R171). -/
def execExpertFiring (site : Nat) (s : State) : Out :=
  let t := s.tile site
  let p := (s.partOfSite site).getD 0
  if t.failed || (s.part p).stage != .active || s.det p || t.ringFull then .next s
  else if t.replaying then
    match t.replay with
    | r :: rest =>
      if r.typ = 6 then
        let n := (r.body.getD 0 0).toNat % 64
        .next ((s.setTile site { t with replay := rest }).fire site n (t.eq n))
      else .next s
    | [] => .next s
  else match s.nextQueue site with
    | none => .next s
    | some (n, q) => .next (s.fire site n q)

/-! ### EQFIRE, EQDONE and EQSTAT at the home (R157, R158, R160, R380, R381) -/

/-- An EQFIRE at its home (R158, R380), logged as an accepted item is (R171, log 34, DEDUCED). -/
def State.acceptFire (s : State) (i : Item) (qid : Nat) : State :=
  s.atQueue i qid fun site n q =>
    let s := if i.passed then s.takeItem i
      else ((s.takeItem i).noteSeq site (s.itemDomain i) i.seq).log site 1 [] (some i) 80
    s.setEq site n { q with force := q.force || 1 ≤ q.waiting }

/-- EQFIRE_ARRIVAL (R158, R166, R380). -/
def execEqfireArrival (k : Nat) (s : State) : Out :=
  match nth s.net k with
  | none => .next s
  | some i =>
    match i.body with
    | .eqfire qid =>
      if i.stage != .waiting || !s.injectable i then .next s
      else if s.det i.part then .next (s.collect i qid)
      else .next (s.acceptFire i qid)
    | _ => .next s

/-- An EQDONE at its home (R160, R380). -/
def State.acceptDone (s : State) (i : Item) (qid fire : Nat) : State :=
  s.atQueue i qid fun site n q =>
    let s := if i.passed then s.takeItem i
      else ((s.takeItem i).noteSeq site (s.itemDomain i) i.seq).log site 1 [] (some i) 80
    if q.batches.any fun b => b.fire == fire && decide (b.got < b.need) then
      let bs := q.batches.map fun b => if b.fire == fire then { b with got := b.got + 1 } else b
      ((s.setEq site n { q with batches := bs }).freeBatches site n (q.batches.length)).unspill site n q.spill.length
    else s.report site (i.reportOf 17 0)

/-- EQDONE_ARRIVAL (R160, R166, R380). -/
def execEqdoneArrival (k : Nat) (s : State) : Out :=
  match nth s.net k with
  | none => .next s
  | some i =>
    match i.body with
    | .eqdone qid fire =>
      if i.stage != .waiting || !s.injectable i then .next s
      else if s.det i.part then .next (s.collect i qid)
      else .next (s.acceptDone i qid fire)
    | _ => .next s

/-- The word EQSTAT returns (R157, R381): in deterministic mode as it stood at the start of the quantum. -/
def State.eqWord (s : State) (p qid : Nat) : Word :=
  match s.findEq p qid with
  | none => 0
  | some (site, _, q) => if (s.part p).det then q.statusAtQ else q.status (s.eqNow site p)

/-- A status request at its home (R381); the door of a tile that has stopped is shut for it (R227). -/
def State.offerStat (s : State) (i : Item) (qid : Nat) : State :=
  match s.door ((s.siteOfRank (qid / 64)).getD Config.numSites) i.part with
  | .shut => s
  | .refuse => s.bounce i
  | .open_ => (s.takeItem i).respond i 0 0 false { value := s.eqWord i.part qid, data := [] } false

/-- EQSTAT_REQUEST (R381): the `k`-th item is a status request at its home. -/
def execEqstatRequest (k : Nat) (s : State) : Out :=
  match nth s.net k with
  | none => .next s
  | some i =>
    match i.body with
    | .ret (.eqstat qid) =>
      if i.stage != .waiting || !s.injectable i then .next s else .next (s.offerStat i qid)
    | _ => .next s

/-! ### Configuration (R97, R152) -/

/-- A queue with the fields of a configuration packet (R97). -/
def ExpertQueue.configure (q : ExpertQueue) (part : Nat) (w : Vector Word 8) : ExpertQueue :=
  let flags := packetNum w 22 1
  { q with
    configured := true, part := part, job := packetJob w
    ringlog := packetNum w 20 1, prio := packetNum w 21 1, enable := flags.testBit 0, mcast := flags.testBit 1
    spillhbm := flags.testBit 2, chan := packetNum w 23 1, ringoff := packetNum w 24 4, fill := packetNum w 28 2
    maxbatch := packetNum w 30 2, age := packetNum w 32 4, target := packetNum w 36 4, spillAt := packetNum w 48 8
    spillLen := packetNum w 56 8 }

/-- The queue after a configuration packet at time `now`: one that was at effective priority 7 already and stays there has been
there since then, another one that is there now has reached it now (R163). -/
def ExpertQueue.reconfigure (q : ExpertQueue) (part : Nat) (w : Vector Word 8) (now : Nat) : ExpertQueue :=
  let new := q.configure part w
  let since : Option Int := if q.configured then (q.noteTop now).top else none
  { new with top := if new.eprio now = 7 then some (since.getD now) else none }

/-- Applies a configuration packet at its queue's home (R97, R170). -/
def State.configureEq (s : State) (part : Nat) (w : Vector Word 8) : State :=
  let qid := packetNum w 16 4
  match (s.partTiles part).find? (·.1 == qid / 64) with
  | none => s
  | some b =>
    s.setEq b.2 (qid % 64) (((s.tile b.2).eq (qid % 64)).reconfigure part w (s.eqNow b.2 part))

end Sys2Proof.Machine
end

