-- ==== Sys2Proof/Machine/MatrixRun.lean ====
section
/-!
DEFINITION. The steps of the matrix engine and of the floe (spec/18_matrix.md R358-R373, spec/01_wafer.md R29, R32).
-/

namespace Sys2Proof.Machine

/-! ### What ends a command (R365, R374, R377) -/

/-- The ENG code of a command (R366). -/
def MatOp.eng : MatOp → Nat
  | .mma => 1
  | .floe => 2
  | .mcmd => 3
  | _ => 4

/-- The error report about an engine command (R332, R365): its a0 holds the tag. -/
def State.cmdReport (s : State) (site : Nat) (c : MatCmd) (cause : Nat) (a4 : Word) (a : Nat) : State :=
  s.report site
    { part := c.part, job := c.job, mid := BitVec.ofNat 64 c.tag, cause := cause, a2 := BitVec.ofNat 64 a,
      rank := c.srank, chan := c.ach, a4 := a4, act := c.key }

/-- An MCMD that ends by an error shows in its issuer's cursor (R366). -/
def State.noteEnded (s : State) (c : MatCmd) : State :=
  let t := s.thread c.src
  match t.lastCmd with
  | some r => if r.eng = 3 && r.tag = c.seq then s.setThread c.src { t with lastCmd := some { r with ended := true } } else s
  | none => s

/-- The floe keeps what became of a command of a protected tile until that tile's interval commits (R245). -/
def State.noteFloe (s : State) (c : MatCmd) (r : EngResult) : State :=
  match c.op, (s.part c.part).floe with
  | .floe, some f =>
    s.setPart c.part { s.part c.part with floe := some { f with known := f.known.map fun n =>
      if n.srank == c.srank && n.key == c.key then { n with result := some r } else n } }
  | _, _ => s

/-- What a finished command leaves at the tile `site` that gave it its tag: the result, the reports and the completion
message (R365, R366, R374, R377). -/
def State.finishCmd (s : State) (site : Nat) (c : MatCmd) (cause addr prog k landed : Nat)
    (denied : List (Nat × Nat × Nat)) : State :=
  let t := s.tile site
  let s := s.setTile site { t with
    mdone := addResult t.mdone { tag := c.tag, cause := cause, prog := prog, kstep := k } }
  let s := if cause = 0 || cause = 23 then s else s.cmdReport site c cause 0 addr
  let s := if cause ≠ 0 && c.op == .mcmd then s.noteEnded c else s
  let s := s.noteFloe c { tag := c.tag, cause := cause, prog := prog, kstep := k }
  let s := match firstDenial denied with
    | some (_, dc, a) => s.cmdReport site c dc (denialMap denied) a
    | none => s
  if c.desc.send then
    let pl := completionWords c.op.eng c.tag cause landed 0 (denialMap denied)
    match c.op with
    | .mcmd => s.engineMsg site c.src c.srank c.job c.part 3 c.desc.chan c.seq (.home (s.homeId (.site site)) s.dev c.srank) pl
    | _ => s.engineMsg site c.src c.srank c.job c.part 3 c.desc.chan c.tag (.engine (c.srank / 32) c.tag 3) pl
  else s

/-- Ends the running local command of a tile with a cause, 0 if it completed; the engine is free again. -/
def State.endMatrix (s : State) (site : Nat) (r : MatRun) (cause addr : Nat) : State :=
  let s := s.setTile site { s.tile site with mrun := none }
  let prog := if r.cmd.op.isAcc then r.landed / 64 else r.k - r.cmd.koff
  (s.finishCmd site r.cmd cause addr prog r.k r.landed r.denied).floeNext r.cmd.part

/-- Parks the running command on a page (R365). -/
def State.parkMatrix (s : State) (site : Nat) (r : MatRun) (a : Nat) : State :=
  let s := s.setTile site { s.tile site with mrun := some { r with park := some a } }
  s.engFault r.cmd.src r.cmd.srank r.cmd.job r.cmd.part a

/-! ### MATRIX_COMMAND_START -/

/-- MATRIX_COMMAND_START (R358, R359, R363, R368): the head of the queue starts once its issuer's earlier accesses are
performed (R214). Zeroing and decay are applied to the working copy together with the first K-step. -/
def execMatrixCommandStart (site : Nat) (s : State) : Out :=
  let t := s.tile site
  match t.mrun, t.mqueue with
  | none, c :: rest =>
    if s.chunkGate site c.part && !s.accessBefore c.src c.ord then
      let r : MatRun :=
        { cmd := c, k := if c.op.isAcc then 0 else c.koff, row := 0, park := none, begun := false, ready := false,
          landed := 0, denied := [] }
      .next (s.setTile site { t with mqueue := rest, mrun := some r })
    else .next s
  | _, _ => .next s

/-! ### Writes of a command (R332, R364, R373) -/

/-- The 64 KiB pages of a list of ranges, in order (R332). -/
def destPages (l : List (Nat × Nat)) : List Nat :=
  (l.flatMap fun r => (pieces r.1 r.2).map fun p => p.1 / 65536).dedup

/-- What a command's writes came to: the bytes landed, the denials, a missing page or a failure that stopped them, and the pieces
dealt with. -/
structure WriteSum where
  landed : Nat
  denied : List (Nat × Nat × Nat)
  stop   : Option Landed
  did    : Nat
  deriving DecidableEq, Repr

/-- The number under which homes know a command's writes (R376, log 97, DEDUCED). -/
def MatCmd.num (c : MatCmd) : Nat := 2 * (c.srank + 2 ^ 18 * c.key) + 1

/-- What a command's writes have come to so far. -/
def MatRun.sum (r : MatRun) : WriteSum := { landed := r.landed, denied := r.denied, stop := none, did := r.wrote }

/-- A command after some of its writes. -/
def MatRun.after (r : MatRun) (x : WriteSum) : MatRun := { r with landed := x.landed, denied := x.denied, wrote := x.did }

/-- Writes pieces that each lie in one page, in order, until a page is missing or one fails. -/
def State.putPieces (s : State) (site : Nat) (c : MatCmd) (pages : List Nat) :
    List (Nat × List Byte) → WriteSum → WriteSum × State
  | [], x => (x, s)
  | (a, bs) :: rest, x =>
    match s.engWrite site c.part c.num x.did c.caps 0 a bs with
    | (.all, s) => s.putPieces site c pages rest { x with landed := x.landed + bs.length, did := x.did + 1 }
    | (.denied cause b, s) =>
      let (l, s) := s.deny c.part (BitVec.ofNat 64 c.tag) x.denied (indexIn pages (a / 65536)) cause b
      s.putPieces site c pages rest { x with denied := l, did := x.did + 1 }
    | (e, s) => ({ x with stop := some e }, s)

/-- The first write whose range leaves its segment (R362). -/
def brokenRow (l : List (Nat × Nat)) : Option Nat := (l.find? fun r => !oneSegment r.1 r.2).map (·.1)

/-- The rows a store-back writes for a block of the accumulator (R363, R368). -/
def State.storeRows (s : State) (site : Nat) (c : MatCmd) (g : Geom) : List (Nat × List Byte) :=
  let d := c.desc
  let f := if d.ctype = 3 then f32 else bf16
  (List.range d.mrow).map fun i =>
    (d.cRow (g.row0 + i) + g.col0 * d.cbytes,
      (List.range d.ncol).flatMap fun j =>
        bytesOf d.cbytes (roundF f .rne (decodeF f32 (s.num (accAt site c.acc + 4 * (48 * i + j)) 4))))

/-- A store-back (R363, R364): every row, page by page, from where it stopped. -/
def State.storeBack (s : State) (site : Nat) (c : MatCmd) (x : WriteSum) : WriteSum × State :=
  let g := s.geom site c
  let whole := match c.op, (s.part c.part).floe with
    | .floe, some f => c.desc.writes (64 * f.rows.length) (48 * f.cols.length)
    | _, _ => c.desc.writes c.desc.mrow c.desc.ncol
  match brokenRow whole with
  | some a => ({ x with stop := some (.failed 2 a) }, s)
  | none =>
    s.putPieces site c (destPages whole) (((s.storeRows site c g).flatMap fun r => cutRow r.1 r.2).drop x.did) x

/-! ### MATRIX_CHUNK -/

/-- A read of an accumulator operation that failed: it parks, waits for a home that takes nothing now, or ends the command. -/
def State.stopAcc (s : State) (site : Nat) (r : MatRun) (cause a : Nat) : State :=
  if cause = 8 then s.parkMatrix site r a else if cause = 0 then s else s.endMatrix site r cause a

/-- Runs an accumulator operation (R373). -/
def State.accOp (s : State) (site : Nat) (r : MatRun) : State :=
  let c := r.cmd
  let finish (s : State) (n : Nat) (d : List (Nat × Nat × Nat)) : State :=
    s.setTile site { s.tile site with mrun := some { r with k := 1, landed := n, denied := d, wrote := 0 } }
  match c.op with
  | .acczero => finish { s with mem := Memory.clear s.mem (accAt site c.acc) 12288 } 0 r.denied
  | .accwr a first count =>
    match s.engRead site c.part a (192 * count) with
    | (.ok bs, s) =>
      finish { s with mem := Memory.writeN s.mem (accAt site c.acc + 192 * first) bs } (192 * count) r.denied
    | (.error (cause, b), s) => s.stopAcc site r cause b
  | .accfill a =>
    match s.engRead site c.part a 12288 with
    | (.ok bs, s) =>
      (finish { s with mem := Memory.writeN s.mem (accAt site c.acc) bs } 12288 r.denied).logReads site c.part
        (BitVec.ofNat 64 c.tag) [(a, 12288)]
    | (.error (cause, b), s) => s.stopAcc site r cause b
  | .accspill a =>
    match s.putPieces site c (destPages [(a, 12288)]) ((cutRow a (s.bytes (accAt site c.acc) 12288)).drop r.wrote) r.sum with
    | (x, s) =>
      match x.stop with
      | some (.missing b) => s.parkMatrix site (r.after x) b
      | some (.failed cause b) => s.endMatrix site (r.after x) cause b
      | some .refused => s.setTile site { s.tile site with mrun := some (r.after x) }
      | _ =>
        finish (if c.zero then { s with mem := Memory.clear s.mem (accAt site c.acc) 12288 } else s) x.landed x.denied
  | .mma | .mcmd | .floe => s

/-- Runs a chunk of a local matrix command (R360, R363, R364, R365). A missing page ends the chunk at its K-step; one that a home
breaks off by taking nothing now goes on later from there. Any other failure leaves the accumulator as the last chunk end or park left it. -/
def State.localChunk (s : State) (site : Nat) (r : MatRun) : State :=
  let c := r.cmd
  let w := s.accRows site c.acc
  let last := if r.k < r.till then r.till else min (r.k + matChunk c.desc.atype) c.desc.steps
  match s.ksteps (s.geom site c) c (last - r.k) r.k (if r.begun then w else c.prepare w) with
  | ((k, w, stop), s) =>
    let go : State := if k = r.k then s else s.setAccRows site c.acc w
    let r' : MatRun := { r with k := k, row := 0, begun := r.begun || k != r.k, till := 0 }
    let reads (s : State) : State := s.logReads site c.part (BitVec.ofNat 64 c.tag) (c.stepReads (s.geom site c) r.k k)
    match stop with
    | none => reads (go.setTile site { go.tile site with mrun := some r' })
    | some (row, cause, a) =>
      if cause = 8 then reads (go.parkMatrix site { r' with row := row } a)
      else if cause = 0 then reads (go.setTile site { go.tile site with mrun := some { r' with till := last } })
      else s.endMatrix site r cause a

/-- A chunk of a deterministic partition that a home under recovery has broken off goes on in the same quantum, so that a recovery changes
no result (R125, R127, R245). -/
def State.matrixAgain (s : State) (site part : Nat) : State :=
  let t := s.tile site
  let off (r : MatRun) : Bool :=
    match r.cmd.op with
    | .mma | .mcmd | .floe => r.till != 0
    | _ => r.k == 0
  match t.mrun with
  | some r =>
    if off r && r.park.isNone && (s.part part).det && s.logsOpen part then
      s.setTile site { t with chunkQ := vset t.chunkQ 1 (s.quantaAt site part) }
    else s
  | none => s

/-- MATRIX_CHUNK (R121, R226, R360, R363, R373): one chunk of the running command. A floe member's chunk is finished
here and written when the floe commits it (R369). A residue mismatch is repeated with the same result (R226). -/
def execMatrixChunk (site : Nat) (s : State) : Out :=
  match (s.tile site).mrun with
  | none => .next s
  | some r =>
    if r.park.isSome || !s.chunkGate site r.cmd.part || !s.chunkDue site r.cmd.part 1 then .next s
    else
      let go := s.noteChunk site r.cmd.part 1
      match r.cmd.op with
      | .mma | .mcmd => if r.cmd.desc.steps ≤ r.k then .next s else .next ((go.localChunk site r).matrixAgain site r.cmd.part)
      | .floe =>
        match (s.part r.cmd.part).floe with
        | some f =>
          if r.ready || f.park.isSome || r.cmd.desc.steps ≤ f.k then .next s
          else .next (go.setTile site { go.tile site with mrun := some { r with ready := true } })
        | none => .next s
      | _ => if r.k ≠ 0 then .next s else .next ((go.accOp site r).matrixAgain site r.cmd.part)

/-! ### The floe (R29, R368-R371) -/

/-- Rows or columns of a rectangle of power regions: `f` picks the coordinate block of a region (R7, R29). -/
def spanOf (regions : List Nat) (f : Nat → Nat) : List Nat :=
  (List.range 96).filter fun x => regions.any fun r => f r == x / 24

/-- The rows and columns a floe keeps: those of the rectangle in which every site holds one of the ranked tiles (R29). -/
def gridOver (regions ranked : List Nat) : List Nat × List Nat :=
  let rows := spanOf regions (· / 4)
  let cols := spanOf regions (· % 4)
  let bad := (rows.flatMap fun r => cols.map fun c => r * 96 + c).filter fun x => !ranked.contains x
  (rows.filter fun r => !bad.any (· / 96 == r), cols.filter fun c => !bad.any (· % 96 == c))

/-- The rows and columns of a partition's floe (R29): a tile that has failed is no working site of it, whether its number has moved
yet or not (R32, R370). -/
def State.formGrid (s : State) (p : Nat) (regions : List Nat) : List Nat × List Nat :=
  gridOver regions (((s.partTiles p).map (·.2)).filter fun x => !(s.tile x).failed)

/-- A floe at its first formation (R31): rows and columns over regions. -/
def Floe.over (regions : List Nat) (g : List Nat × List Nat) : Floe :=
  { cols := g.2, rows := g.1, region := regions, fgen := 1, run := none, k := 0, row := 0, begun := false, park := none,
    stored := [], landed := 0, denied := [], waiting := [] }

/-- Removes the running floe command's entries from every member (R370): the members' results bear the cause. -/
def State.clearMembers (s : State) (members : List Nat) (cause : Nat) : State :=
  members.foldl (fun s m =>
    let t := s.tile m
    let gone := (t.mqueue.filter (·.op == .floe)) ++ ((t.mrun.filter (·.cmd.op == .floe)).map (·.cmd)).toList
    s.setTile m { t with
      mqueue := t.mqueue.filter (·.op != .floe)
      mrun := t.mrun.filter (·.cmd.op != .floe)
      mdone := gone.foldl (fun l c => addResult l { tag := c.tag, cause := cause, prog := 0, kstep := 0 }) t.mdone }) s

/-- The running floe command ends with a cause, 0 if it completed (R365, R368). -/
def State.endFloe (s : State) (p cause addr : Nat) : State :=
  match (s.part p).floe with
  | none => s
  | some f =>
    match f.run with
    | none => s
    | some c =>
      let s := s.clearMembers f.members cause
      let s := s.setPart p { s.part p with floe := some { f with run := none } }
      (s.finishCmd (siteOf c.src) c cause addr (f.k - c.koff) f.k f.landed f.denied).floeNext p

/-- The row of a member's block counted over the whole floe (R366). -/
def Floe.globalRow (f : Floe) (g : Geom) (row : Nat) : Nat :=
  if row < 64 then g.row0 + row else 64 * f.rows.length + g.col0 + (row - 64)

/-- How far each member can run a chunk: the least K-step reached, and what stopped there. -/
def State.floeReach (s : State) (f : Floe) (c : MatCmd) (n : Nat) :
    List Nat → Nat × Option (Nat × Nat × Nat) → (Nat × Option (Nat × Nat × Nat)) × State
  | [], x => (x, s)
  | m :: rest, x =>
    let g := s.geom m { c with op := .floe }
    match s.ksteps g c n f.k [] with
    | ((k, _, stop), s) =>
      let x := match stop with
        | some (row, cause, a) => if k < x.1 then (k, some (f.globalRow g row, cause, a)) else x
        | none => x
      s.floeReach f c n rest x

/-- Writes one member's working copy for the K-steps from f.k to k. -/
def State.floeWrite (s : State) (f : Floe) (c : MatCmd) (k m : Nat) : State :=
  let acc := c.acc
  let w := s.accRows m acc
  match s.ksteps (s.geom m { c with op := .floe }) c (k - f.k) f.k (if f.begun then w else c.prepare w) with
  | ((_, w, _), s) =>
    let t := s.tile m
    (s.setAccRows m acc w).setTile m { t with mrun := t.mrun.map fun r => { r with ready := false, k := k, begun := true } }

/-- FLOE_CHUNK_COMMIT (R365, R369): every member has finished the chunk; the members write their working copies. On a
missing page every member commits the K-steps below it and the floe parks; any other failure commits nothing more. With a member that
has failed nothing is committed: the floe forms again (R227, R370). -/
def execFloeChunkCommit (part : Nat) (s : State) : Out :=
  match (s.part part).floe with
  | none => .next s
  | some f =>
    match f.run with
    | none => .next s
    | some c =>
      let ready (m : Nat) : Bool := ((s.tile m).mrun.map fun r => r.cmd.op == .floe && r.ready).getD false
      if (s.part part).stage == .out || f.park.isSome || c.desc.steps ≤ f.k || !f.members.all ready || f.members.isEmpty ||
          f.members.any (fun m => (s.tile m).failed) then
        .next s
      else
        let n := min (matChunk c.desc.atype) (c.desc.steps - f.k)
        match s.floeReach f c n f.members (f.k + n, none) with
        | ((k, stop), s) =>
          let waits := k == f.k && (stop.map (·.2.1)) == some 0
          let go : State := if k = f.k then s else f.members.foldl (fun s m => s.floeWrite f c k m) s
          let page := (stop.filter (·.2.1 != 0)).map fun x => x.2.2
          let f' := { f with k := k, row := (stop.map (·.1)).getD 0, begun := f.begun || k != f.k, park := page }
          let go := go.setPart part { go.part part with floe := some f' }
          if waits then .next s
          else match stop with
          | none => .next go
          | some (_, cause, a) =>
            if cause = 0 then .next go
            else if cause = 8 then
              let go := f.members.foldl (fun s m =>
                let t := s.tile m
                s.setTile m { t with mrun := t.mrun.map fun r => { r with ready := false } }) go
              .next (go.engFault c.src c.srank c.job c.part a)
            else .next (s.endFloe part cause a)

/-- Results and the reform event of one abandoned floe command (R370, R371). -/
def State.reformOne (s : State) (p failed krest : Nat) (new : Floe) (stored : Bool) (c : MatCmd) (kdone : Nat) : State :=
  let site := siteOf c.src
  let t := s.tile site
  let r : EngResult := { tag := c.tag, cause := 23, prog := kdone - c.koff, kstep := kdone }
  let s := (s.setTile site { t with mdone := addResult t.mdone r }).noteFloe c r
  let lost := if failed < 0x3FFF then failed else 0x3FFF
  let pl : Vector Word 8 :=
    #v[BitVec.ofNat 64 c.tag, BitVec.ofNat 64 (kdone + ofBool stored * 2 ^ 32), BitVec.ofNat 64 lost,
       BitVec.ofNat 64 (if lost = 0x3FFF then 0 else krest),
       BitVec.ofNat 64 (new.rows.length + new.cols.length * 2 ^ 16 + new.fgen % 2 ^ 16 * 2 ^ 32), c.descAt, 0, 0]
  s.engineMsg site c.src c.srank c.job p 4 c.desc.chan c.tag (.engine (c.srank / 32) c.tag 2) pl

/-- KREST of a failed member (R370): the K-steps its firn copy records, KOFF if it records none. -/
def State.krest (s : State) (failed : Nat) (c : MatCmd) : Nat :=
  match s.firnOf failed with
  | some x =>
    (((x.image.tile.mrun.filter fun r => r.cmd.op == .floe && r.cmd.src == c.src && r.cmd.ord == c.ord)).map (·.k)).getD
      c.koff
  | none => c.koff

/-- A store-back that has begun on a member of an abandoned floe command goes on there as a command of its own (R370): the member's
block as it stands. -/
def MatRun.tail (r : MatRun) (g : Geom) (park : Option Nat) : MatRun :=
  let d := r.cmd.desc
  { r with
    cmd := { r.cmd with op := .mma, desc := { d with cbase := d.cRow g.row0 + g.col0 * d.cbytes, send := false } }
    k := d.steps, ready := false, park := park }

/-- A member keeps its store-back that has begun; everything else of the floe command leaves it. -/
def State.keepTail (s : State) (f : Floe) (c : MatCmd) (m : Nat) : Option MatRun :=
  if f.storing.contains m && !f.stored.contains m && !(s.tile m).failed then
    ((s.tile m).mrun.filter (·.cmd.op == .floe)).map fun r => r.tail (s.geom m { c with op := .floe }) f.park
  else none

/-- The logical number of the failed member that a reform event names, 0x3FFF if the reform has another cause (R371): where several have
failed, the one that the failure's report names. -/
def State.lostMember (s : State) (f : Floe) (named : Nat) : Nat :=
  let failed := f.members.filterMap fun m => if (s.tile m).failed then (s.tile m).rank else none
  if failed.contains named then named else ((f.lost.toList ++ failed).head?).getD 0x3FFF

/-- FLOE_REFORM (R32, R370, R371): a member has failed or a binding inside the floe has changed, so that the grid of
R29 is no longer the floe's. `named` is the logical tile whose failure is reported, 0x3FFF if there was another cause. -/
def execFloeReform (part named : Nat) (s : State) : Out :=
  match (s.part part).floe with
  | none => .next s
  | some f =>
    let grid := s.formGrid part f.region
    if (s.part part).stage == .out || (grid.1 == f.rows && grid.2 == f.cols) then .next s
    else
      let failed := s.lostMember f named
      let tails := f.members.map fun m => (m, f.run.bind fun c => s.keepTail f c m)
      let alive := f.members.filter fun m => !(s.tile m).failed && (s.tile m).rank.isSome
      let stored := !alive.isEmpty && alive.all f.stored.contains && (f.run.map (·.store)).getD false
      let s := tails.foldl (fun s x => match x.2 with
        | some r => s.setTile x.1 { s.tile x.1 with mrun := some r }
        | none => s) (s.clearMembers f.members 23)
      let new : Floe := { known := f.known, cols := grid.2, rows := grid.1, region := f.region, fgen := (f.fgen + 1) % 2 ^ 16, run := none,
                          k := 0, row := 0, begun := false, park := none, stored := [], landed := 0, denied := [],
                          waiting := [] }
      let s := s.setPart part { s.part part with floe := some new }
      let s := match f.run with
        | some c => s.reformOne part failed (s.krest failed c) new stored c f.k
        | none => s
      .next (f.waiting.foldl (fun s c => s.reformOne part failed (s.krest failed c) new false c c.koff) s)

/-! ### MATRIX_COMMAND_COMPLETE -/

/-- A local command after its last K-step: the store-back as a chunk of its own, then the result (R360, R363, R364). -/
def State.completeLocal (s : State) (site : Nat) (r : MatRun) : State :=
  if !r.cmd.store then s.endMatrix site r 0 0
  else match s.storeBack site r.cmd r.sum with
    | (x, s) =>
      match x.stop with
      | some (.missing a) => s.parkMatrix site (r.after x) a
      | some (.failed cause a) => s.endMatrix site (r.after x) cause a
      | some .refused => s.setTile site { s.tile site with mrun := some (r.after x) }
      | _ => s.endMatrix site (r.after x) 0 0

/-- A floe member's store-back from where it stopped; the last one completes the command (R368). -/
def State.completeMember (s : State) (site p : Nat) (f : Floe) (c : MatCmd) : State :=
  let from_ : WriteSum := { landed := f.landed, denied := f.denied, stop := none, did := (((s.tile site).mrun.map (·.wrote)).getD 0) }
  let (x, s) := if c.store then s.storeBack site { c with op := .floe } from_ else (from_, s)
  let s := s.setTile site { s.tile site with mrun := (s.tile site).mrun.map fun r => { r with wrote := x.did } }
  let f := { f with denied := x.denied, landed := x.landed, storing := if c.store then KeySet.add f.storing site else f.storing }
  match x.stop with
  | some (.missing a) =>
    (s.setPart p { s.part p with floe := some { f with park := some a } }).engFault c.src c.srank c.job p a
  | some (.failed cause a) => (s.setPart p { s.part p with floe := some f }).endFloe p cause a
  | some .refused => s.setPart p { s.part p with floe := some f }
  | _ =>
    let f := { f with stored := f.stored ++ [site] }
    let s := s.setPart p { s.part p with floe := some f }
    if f.members.all f.stored.contains then s.endFloe p 0 0 else s

/-- Whether the homes of a command's destination take its store-back now (R231, R242). -/
def State.storeOpen (s : State) (site : Nat) (c : MatCmd) : Bool :=
  let d := c.desc
  let g := s.geom site c
  let rows := (List.range d.mrow).flatMap fun i => pieces (d.cRow (g.row0 + i) + g.col0 * d.cbytes) (d.ncol * d.cbytes)
  s.homesOpen site c.part (rows.filter fun x => routeOf x.1 == .translated)

/-- MATRIX_COMMAND_COMPLETE (R363, R364, R365, R366, R374, R377). -/
def execMatrixCommandComplete (site : Nat) (s : State) : Out :=
  match (s.tile site).mrun with
  | none => .next s
  | some r =>
    let p := r.cmd.part
    if r.park.isSome || !s.chunkGate site p then .next s
    else match r.cmd.op with
      | .mma | .mcmd =>
        if r.k < r.cmd.desc.steps || (r.cmd.store && (!s.chunkDue site p 1 || !s.storeOpen site r.cmd)) then .next s
        else .next ((if r.cmd.store then s.noteChunk site p 1 else s).completeLocal site r)
      | .floe =>
        match (s.part p).floe with
        | some f =>
          match f.run with
          | some c =>
            if f.park.isSome || f.k < c.desc.steps || f.stored.contains site || !s.chunkDue site p 1 ||
                (c.store && !s.storeOpen site c) then .next s
            else .next ((if c.store then s.noteChunk site p 1 else s).completeMember site p f c)
          | none => .next s
        | none => .next s
      | _ => if r.k = 0 then .next s else .next (s.endMatrix site r 0 0)

/-! ### MCMD_ARRIVAL -/

/-- Whether a guard capability names the region of a tile's scratchpad offset 0 as it is now (R367). -/
def State.mayCommand (s : State) (p rank : Nat) (g : Option Cap) : Bool × State :=
  let v := 2 ^ 48 + rank * 2 ^ 32
  match s.translate p v with
  | (.error _, s) => (false, s)
  | (.ok e, s) =>
    let rid := bitsN e.leaf.toNat 63 48
    (rid != 0 && bitsN e.w1.toNat 1 0 == 1 && g.any (fun c => c.rid == rid && c.gen == bitsN e.w1.toNat 63 48), s)

/-- An MCMD at its target (R358, R367). -/
def State.offerMcmd (s : State) (i : Item) (c : MatCmd) (rank : Nat) : State :=
  match s.siteOfRank rank with
  | none => s
  | some site =>
    match s.door site i.part with
    | .shut => s
    | .refuse => s.bounce i
    | .open_ =>
      if !(s.tile site).fresh (s.itemDomain i) i.seq then s.dropItem i.ord
      else match s.mayCommand i.part rank c.guard with
      | (false, s) =>
        let v := 2 ^ 48 + rank * 2 ^ 32
        let s := ((s.dropItem i.ord).record6 i.part 3 i.mid v).noteEnded c
        s.report site { i.reportOf 3 v with chan := c.ach }
      | (true, s) =>
        if 16 ≤ (s.tile site).matLoad then s.bounce i
        else
          let s := ((s.dropItem i.ord).noteSeq site (s.itemDomain i) i.seq).log site 1 [] (some i) 80
          (s.accept site { c with part := i.part }).2

/-- MCMD_ARRIVAL (R358, R367): the `k`-th item is an MCMD that has reached its target. -/
def execMcmdArrival (k : Nat) (s : State) : Out :=
  match nth s.net k with
  | none => .next s
  | some i =>
    match i.body, i.dst with
    | .mcmd c, .tile rank =>
      if i.stage != .waiting || !s.injectable i then .next s else .next (s.offerMcmd i c rank)
    | _, _ => .next s

end Sys2Proof.Machine
end

