-- ==== Sys2Proof/Machine/Deliver.lean ====
section
/-!
DEFINITION. Items at their receivers (spec/07_execution.md R135-R146, spec/09_memory.md R181-R195, spec/11_traps.md
R218-R222, R231): messages, stores, returning operations, responses, frames, barriers, faults and wakes.
-/

namespace Sys2Proof.Machine

/-! ### Duplicate filters of messages (R137, R161, R320, R377) -/

/-- The domain in which one core's copies of a multicast are told apart (log 20, DEDUCED). -/
def Domain.atCore (d : Domain) (k : Nat) : Domain :=
  match d with
  | .item a b c _ => .item a b c k
  | .fire a b q => .fire a (b + 2 ^ 18 * (k + 1)) q
  | d => d

/-- The last number a tile accepted in a domain. -/
def Tile.last (t : Tile) (d : Domain) : Option Nat := (t.filter.find? (·.1 == d)).map (·.2)

/-- Whether a message for core `k` of a tile passes the filter. -/
def Tile.freshMsg (t : Tile) (m : Msg) (k : Nat) : Bool :=
  match m.dom, t.last m.dom with
  | _, none => true
  | .engine .., some _ => false
  | d, some q => seqLater m.hdr.seq q || (m.hdr.seq % 2 ^ 32 == q && t.last (d.atCore k) != some q && d.atCore k != d)

/-- Enters a message in the filter (R137). -/
def State.noteMsg (s : State) (site : Nat) (m : Msg) (k : Nat) : State :=
  (s.noteSeq site m.dom m.hdr.seq).noteSeq site (m.dom.atCore k) m.hdr.seq

/-! ### Messages (R135, R142-R144, R192) -/

/-- A channel's capacity (R144). -/
def Core.chanCap (c : Core) : Nat := 32 + (if c.splog = 0 then 0 else 2 ^ c.splog)
/-- The messages a channel holds, running ones included (R144, R224). -/
def Channel.count (c : Channel) : Nat := c.queue.length + c.spill.length

/-- The next place of a channel's spill ring (log 94, DESIGN CHOICE). -/
def Channel.spillSlot (c : Channel) (splog : Nat) : Nat :=
  match c.spill.getLast? with
  | some m => (m.slot + 1) % 2 ^ splog
  | none => 0

/-- Whether a message that arrives at a channel goes into its queue (R142). -/
def Core.queues (c : Core) (k : Nat) : Bool := (c.chan k).queue.length < 32 && ((c.chan k).spill.isEmpty || c.splog = 0)

/-- Appends a message to a channel, if it has room (R142). -/
def Core.enqueue (c : Core) (k : Nat) (m : Msg) : Option Core :=
  let ch := c.chan k
  if c.queues k then some (c.setChan k { ch with queue := ch.queue ++ [({ m with slot := ch.queueSlot }, false)] })
  else if ch.count < c.chanCap && c.splog ≠ 0 then
    some (c.setChan k { ch with spill := ch.spill ++ [{ m with slot := ch.spillSlot c.splog }] })
  else none

/-- A message joins a channel that has room for it: its bytes stand at its place (R141-R143). -/
def State.enqueueMsg (s : State) (core k : Nat) (m : Msg) : State :=
  let c := s.core core
  let s := s.setCore core ((c.enqueue k m).getD c)
  if c.queues k then s.putNewest core k
  else match ((s.core core).chan k).spill.getLast? with
    | some m => s.putEntry core k m true
    | none => s

/-- The acknowledgement of a message with FREE (R144). -/
def State.acknowledge (s : State) (i : Item) (lc chan free : Nat) : State :=
  s.emit { s.item i.src 0 false (.hart i.src) (.ack lc chan free) with
    part := i.part, job := i.job, counted := false }

/-- FREE of a channel (R144). -/
def Core.free (c : Core) (k : Nat) : Nat := min 255 (c.chanCap - (c.chan k).count)

/-- Returns a message to its sender's job as an error report, or records a report that cannot be delivered
(R23, R135, R139, R143, R231, R329). -/
def State.returnMsg (s : State) (i : Item) (m : Msg) (cause : Nat) : State :=
  let s := s.ended i
  let s := match m.cap with | some c => s.restCap i.part c | none => s
  if peerSites ≤ siteOf i.src then
    s.returnPeer i m.hdr.sdev cause
  else if m.hdr.kind = 5 then s.record5 i.part (vget 0 m.payload 1).toNat m.hdr.job (vget 0 m.payload 0)
  else s.report (siteOf i.src) (i.reportOf cause 0)

/-- Accepts a message at a core: filter, log, capability, queue (R137, R142, R143, R192, R240). `passed` says that the
NI has let it pass, logged and acknowledged it already, for the end of its quantum. -/
def State.acceptMsg (s : State) (i : Item) (m : Msg) (lc key : Nat) (passed : Bool) : State :=
  let site := key / 4
  let c := s.core key
  if !passed && !(s.tile site).freshMsg m (key % 4) then
    (s.dropItem i.ord).acknowledge i lc m.hdr.chan (c.free m.hdr.chan)
  else if m.hdr.kind = 1 && !(c.handler m.hdr.chan).carry then s.returnMsg i m 6
  else match c.enqueue m.hdr.chan { m with arr := (s.tile site).arrivals } with
    | none => s.bounce i
    | some _ =>
      let s := s.dropItem i.ord
      let s := if (s.tile site).freshMsg m (key % 4) then s.noteMsg site m (key % 4) else s
      let s := if passed then s else s.log site 1 [] (some i) 80
      let s := match m.cap with
        | none => s
        | some k =>
          match s.installCap key k with
          | some s => s
          | none => (s.restCap i.part k).report site (i.reportOf 19 0)
      let t := s.tile site
      let s := s.setTile site { t with arrivals := t.arrivals + 1 }
      let s := s.enqueueMsg key m.hdr.chan { m with arr := t.arrivals }
      let block := match m.dom with
        | .engine _ _ k => k != 5 && 6 ≤ (vget 0 m.payload 0).toNat % 16 && m.hdr.kind == 3
        | _ => false
      let s := s.countRecv site m.hdr.job (if block && (vget 0 m.payload 0).toNat % 16 ≤ 8 then 2 else 1)
      let s := if m.hdr.kind = 5 && !(c.handler m.hdr.chan).en then
          s.record5 i.part (vget 0 m.payload 1).toNat m.hdr.job (vget 0 m.payload 0)
        else s
      if passed then s else s.acknowledge i lc m.hdr.chan ((s.core key).free m.hdr.chan)

/-- A message at the NI of its destination (R23, R124, R135, R142, R231). -/
def State.offerMsg (s : State) (i : Item) (m : Msg) (lc : Nat) (atEnd : Bool) : State :=
  match s.siteOfRank (lc / 4) with
  | none => s.returnMsg i m 14
  | some site =>
    match s.door site i.part with
    | .shut => s
    | .refuse => s.bounce i
    | .open_ =>
      let key := site * 4 + lc % 4
      if s.partOfSite site != some i.part || ((s.part i.part).job m.hdr.job).isNone then s.returnMsg i m 15
      else if s.det i.part && !atEnd && m.hdr.kind != 2 && !((s.core key).handler m.hdr.chan).single then
        if !(s.tile site).freshMsg m (key % 4) then
          (s.dropItem i.ord).acknowledge i lc m.hdr.chan ((s.core key).free m.hdr.chan)
        else
          let s := s.log site 1 [] (some { i with stage := .collected }) 80
          ((s.noteMsg site m (key % 4)).setStage i.ord .collected).acknowledge i lc m.hdr.chan
            ((s.core key).free m.hdr.chan)
      else s.acceptMsg i m lc key (i.passed && m.hdr.kind != 2)

/-- Takes one credit of the pair a message goes to (R144). -/
def State.spendCredit (s : State) (i : Item) (lc chan : Nat) : State :=
  let t := s.tile (siteOf i.src)
  if siteOf i.src < Config.numSites then
    s.setTile (siteOf i.src) (t.setCredit lc chan (t.credit lc chan - 1))
  else s

/-- MESSAGE_ARRIVAL (R77, R81, R142): the `k`-th item is a message that can leave its NI; one for another device waits there for a
port and for room in its egress buffer. -/
def execMessageArrival (k : Nat) (s : State) : Out :=
  match nth s.net k with
  | none => .next s
  | some i =>
    match i.body, i.dst with
    | .message m, .core lc =>
      if i.stage == .waiting && s.joinsHeld i then .next (s.joinHeld i)
      else if i.stage != .waiting || !s.injectable i then .next s
      else
        let s' := s.offerMsg i m lc false
        let kept := s'.net.any fun j => j.ord == i.ord && j.stage == .waiting
        .next (if kept then s' else s'.spendCredit i lc m.hdr.chan)
    | .message _, .device d =>
      if i.stage != .waiting || !s.injectable i || !s.devValid || !s.egressFits i then .next s
      else .next ((s.dropItem i.ord).depart (siteOf i.src) i d none)
    | _, _ => .next s

/-- MESSAGE_ACKNOWLEDGEMENT (R144): the pair's count becomes FREE less what is sent and not acknowledged. -/
def execMessageAcknowledgement (k : Nat) (s : State) : Out :=
  match nth s.net k with
  | none => .next s
  | some i =>
    match i.body with
    | .ack core chan free =>
      let s := s.dropItem i.ord
      let site := siteOf i.src
      if Config.numSites ≤ site then .next s
      else .next (s.setTile site ((s.tile site).setCredit core chan (free - s.unacked site core chan)))
    | _ => .next s

/-! ### Frames, barriers, returned capabilities (R146, R319, R324, R331) -/

/-- The answer to a spawn (R146). -/
def State.answerSpawn (s : State) (i : Item) (ok : Bool) : State :=
  s.emit { s.item i.src i.seq false (.hart i.src) (.spawnAns ok) with part := i.part, job := i.job, counted := false }

/-- A spawned frame at its target (R137, R146, R240). -/
def State.offerFrame (s : State) (i : Item) (f : Frame) (lc : Nat) : State :=
  match s.coreKey i.part lc with
  | none => (s.ended i).answerSpawn i false
  | some key =>
    let site := key / 4
    match s.door site i.part with
    | .shut => s
    | .refuse => s.bounce i
    | .open_ =>
      if !(s.tile site).fresh (s.itemDomain i) i.seq then (s.dropItem i.ord).answerSpawn i true
      else if (s.core key).takesFrame then
        let s := ((s.dropItem i.ord).noteSeq site (s.itemDomain i) i.seq).log site 1 [] (some i) 80
        ((s.pushFrame key f).countRecv site f.job 1).answerSpawn i true
      else (s.ended i).answerSpawn i false

/-- SPAWN_FRAME_ARRIVAL (R146): in deterministic mode collected until quantum end (R124). -/
def execSpawnFrameArrival (k : Nat) (s : State) : Out :=
  match nth s.net k with
  | none => .next s
  | some i =>
    match i.body, i.dst with
    | .frame f _, .core lc =>
      if i.stage != .waiting || !s.injectable i then .next s
      else if s.det i.part then .next (s.setStage i.ord .collected)
      else .next (s.offerFrame i f lc)
    | _, _ => .next s

/-- The members' threads that wait at a barrier instance get their release (R324); in deterministic mode they go on at
the next quantum start (R125). -/
def State.openBarrier (s : State) (p g inst : Nat) (cores : List Nat) : State :=
  { s with threads := s.threads.map fun x =>
      if x.2.status == .blocked (.barrier g inst) && s.partOfHart x.1 == p && cores.contains (s.logCore (coreOf x.1)) then
        (x.1, { x.2 with resp := some { value := 0, data := [] }
                         status := if s.det p then x.2.status else .running })
      else x }

/-- An arrival at the counting tile (R324). -/
def State.countBarrier (s : State) (site p g inst lc : Nat) : State :=
  let t := s.tile site
  let key := (p, g, inst)
  let old := ((t.barriers.find? (·.1 == key)).map (·.2)).getD []
  let now := if old.contains lc then old else old ++ [lc]
  let s := s.setTile site { t with barriers := (key, now) :: t.barriers.filter (·.1 != key) }
  let d := s.group p g
  if d.all now.contains then s.openBarrier p g inst d else s

/-- Whether an arrival comes from a thread of a tile that replays its log: the tile counts it, once (R243, R324, R333). -/
def State.ownArrival (s : State) (i : Item) (site : Nat) : Bool :=
  let t := s.tile site
  siteOf i.src == site && t.replaying && !t.awaits && !t.failed

/-- BARRIER_ARRIVAL (R324). The counting tile notes the arrival, so that it stands over a recovery (log 34, DEDUCED). -/
def execBarrierArrival (k : Nat) (s : State) : Out :=
  match nth s.net k with
  | none => .next s
  | some i =>
    match i.body, i.dst with
    | .barrier p g inst lc, .tile l =>
      match s.siteOfRank l with
      | none => .next (s.dropItem i.ord)
      | some site =>
        if (s.door site p == .open_ || s.ownArrival i site) && s.injectable i then
          .next (((s.dropItem i.ord).log site 12 [] (some i) 0).countBarrier site p g inst lc)
        else .next s
    | _, _ => .next s

/-- CAPABILITY_RETURN_NOTICE (R331). -/
def execCapabilityReturnNotice (k : Nat) (s : State) : Out :=
  match nth s.net k with
  | none => .next s
  | some i =>
    match i.body with
    | .capReturn p c =>
      if s.writesUnderAt (coreOf i.src) c then .next s else .next ((s.dropItem i.ord).restCap p c)
    | _ => .next s

/-! ### Writes and returning operations at their homes (R137, R181, R189, R193, R199, R209, R221, R326) -/

/-- The filter of a home for an item, of another device's too (R81): a tile's NI or a stack's home agent. -/
def State.freshAt (s : State) (home : Dest) (i : Item) : Bool :=
  match home with
  | .site x => (s.tile x).fresh (s.itemDomain i) i.seq
  | .stack k =>
    match (s.agent k).filter.find? (·.1 == s.itemDomain i) with
    | some x => seqLater i.seq x.2
    | none => true
  | _ => true

/-- Enters an item in the filter of its home and counts it (R129, R137). -/
def State.takenAt (s : State) (home : Dest) (i : Item) : State :=
  let s := match home with
    | .site x => (s.noteSeq x (s.itemDomain i) i.seq).log x 1 [] (some i) 80
    | .stack k =>
      let a := s.agent k
      s.setAgent k { a with
        filter := (s.itemDomain i, i.seq % 2 ^ 32) :: a.filter.filter fun x => x.1 != s.itemDomain i }
    | _ => s
  if i.counted then s.recvAt home i.job else s

/-- A posted store at its home (R189, R193, R221). -/
def State.offerStore (s : State) (i : Item) (a : Nat) (bs : List Byte) (fe : Bool) : State :=
  match i.dst with
  | .site x =>
    if (s.tile x).memoryLost then s
    else
      let s := s.dropItem i.ord
      if fe then s.putEngine a bs else s.putMem a bs
  | _ =>
    match s.homeDoor i.part a with
    | .shut => s
    | .refuse => s.bounce i
    | .open_ =>
      let home := s.homePlace i.part a
      if !s.freshAt home i then s.dropItem i.ord
      else match s.resolve i.part a (some .store) i.cap with
        | (.ok k, s) =>
          let s := (s.dropItem i.ord).takenAt home i
          if fe then s.putEngine k bs else s.putMem k bs
        | (.bad c, s) =>
          if c = 8 then
            let s' := s.setStage i.ord (.held (pageOf a))
            if s.faultSent i (pageOf a) then s' else s'.faultFor i a none
          else (s.ended i).refusePosted i c a

/-- REMOTE_STORE_ARRIVAL (R189, R221): the `k`-th item is a posted write that can leave its NI, or a line of a block write that its home
has held. -/
def execRemoteStoreArrival (k : Nat) (s : State) : Out :=
  match nth s.net k with
  | none => .next s
  | some i =>
    match i.body with
    | .store a bs fe =>
      if i.stage != .waiting then .next s
      else if s.injectable i then .next (s.offerStore i a bs fe)
      else if s.joinsHeld i then .next (s.joinHeld i)
      else .next s
    | .line a bs red num piece site =>
      if i.stage == .waiting && s.injectable i then .next (s.offerLine i a bs red num piece site) else .next s
    | _ => .next s

/-- A returning operation that its home refuses: the response with the cause (R193, R218). -/
def State.refuseRet (s : State) (i : Item) (op : RetOp) (c a : Nat) : State :=
  let s := if (c = 2 || c = 3) && op.wkind.isSome then s.record6 i.part c i.mid a else s
  (s.ended i).respond i c a op.wkind.isSome { value := 0, data := [] } false

/-- A missing page parks a returning operation: its NI keeps it, and the response reports cause 8 (R186, R219). -/
def State.parkRet (s : State) (i : Item) (op : RetOp) (a : Nat) : State :=
  ((s.setStage i.ord (.held (pageOf a))).respond i 8 a op.wkind.isSome { value := 0, data := [] } false).faultFor i a
    (some i.src)

/-- A repeated read-modify-write of a replayed thread: its home drops it, and a response kept for it goes to the request
that the thread now waits with (R240, R243). -/
def State.redirect (s : State) (i : Item) : State :=
  let s := s.dropItem i.ord
  { s with net := s.net.map fun j =>
      match j.body with
      | .response c a w r q =>
        if j.mid == i.mid && j.src == i.src then { j with body := .response c a w r (if w then i.ord else q) } else j
      | _ => j }

/-- Whether a returning operation is an atomic that a thread performs on memory homed at its own tile (R241). -/
def RetOp.ownAtomic (op : RetOp) (i : Item) (home : Dest) : Bool :=
  match op with
  | .amo .. | .joindec _ => home == .site (siteOf i.src)
  | _ => false

/-- An atomic of a tile on its own memory, by a translated address, is noted and logged as a local atomic (R137, R241, R328). -/
def State.ownTaken (s : State) (home : Dest) (i : Item) (v : Word) : State :=
  let x := siteOf i.src
  let t := s.thread i.src
  let s := (s.noteSeq x (s.itemDomain i) i.seq).log x 8 [s.midOf i.src, BitVec.ofNat 64 t.nAtomic, v, 0] none 32
  let s := s.setThread i.src { s.thread i.src with nAtomic := t.nAtomic + 1 }
  if i.counted then s.recvAt home i.job else s

/-- A returning operation at its home (R181, R189, R199, R209, R218, R325, R326). -/
def State.offerRet (s : State) (i : Item) (op : RetOp) : State :=
  let a := op.addr
  match s.homeDoor i.part a with
  | .shut => s
  | .refuse => s.bounce i
  | .open_ =>
    let home := s.homePlace i.part a
    match op with
    | .read parts =>
      match s.readAll i.part parts with
      | (.ok bs, s) =>
        let s := match home with | .site x => s.log x 1 [] (some i) 80 | _ => s
        (s.dropItem i.ord).respond i 0 a false { value := 0, data := bs } false
      | (.error (c, b), s) => if c = 8 then s.parkRet i op b else s.refuseRet i op c b
    | _ =>
      if op.wkind.isSome && !s.freshAt home i then s.redirect i
      else match s.resolve i.part a op.wkind i.cap with
        | (.bad c, s) => if c = 8 then s.parkRet i op a else s.refuseRet i op c a
        | (.ok key, s) =>
          if s.poisoned key (s.readsAt op key) then s.refuseRet i op 11 a
          else match s.performAt op key (i.sender home) with
            | (none, _) => s.setStage i.ord (.held 0)
            | (some v, s) =>
              let s := s.dropItem i.ord
              let s := if op.ownAtomic i home then s.ownTaken home i v
                else if op.wkind.isSome then s.takenAt home i
                else match home with | .site x => s.log x 1 [] (some i) 80 | _ => s
              s.respond i 0 a op.wkind.isSome { value := v, data := [] } (s.det i.part && i.stage == .held 0)

/-- Whether a returning operation may be looked at now: it can leave its NI. One that waits at its home is answered at the
first moment its condition holds (R325, R326). -/
def State.retDue (s : State) (i : Item) : Bool := i.stage == .waiting && s.injectable i

/-- A returning operation at its home: it is looked at, or joins its thread's queue there (R218, R221). -/
def State.retArrival (s : State) (i : Item) (op : RetOp) : Out :=
  if s.retDue i then .next (s.offerRet i op)
  else if i.stage == .waiting && s.joinsHeld i then .next (s.joinHeld i)
  else .next s

/-- A wait of a thread on its own memory, looked at again: it is answered once its condition holds (R325, R326); in
deterministic mode the thread goes on at the next quantum start (R125). A tile that replays its log takes the answer from it (R333). -/
def State.localWaiter (s : State) (i : Item) (op : RetOp) : State :=
  if (s.tile (siteOf i.src)).replaying then s
  else match s.performAt op op.addr (i.sender i.dst) with
  | (none, _) => s
  | (some v, s) =>
    let s := (s.dropItem i.ord).logAnswer { i with stage := if s.det i.part then .collected else .waiting } v
    let t := s.thread i.src
    s.setThread i.src { t with
      resp := some { value := v, data := [] }, status := if s.det i.part then t.status else .running }

/-- An operation that waits at its home, looked at again. -/
def State.waiter (s : State) (i : Item) : State :=
  match i.body, i.dst with
  | .ret op, .site _ => s.localWaiter i op
  | .ret op, _ => if s.homeDoor i.part op.addr == .open_ then s.offerRet i op else s
  | _, _ => s

/-- Whether an item waits at a home for a word to fill or for a generation to advance. -/
def Item.awaits (i : Item) : Bool := i.stage == .held 0 && (match i.body with | .ret _ => true | _ => false)

/-- Whether an item is an LDFE, which takes the word it waits for (R326). -/
def Item.takes (i : Item) : Bool :=
  match i.body with
  | .ret (.ldfe _) => true
  | _ => false

/-- The order in which the events of a quantum are served: by logical core of the issuer, then its threads and the order of
their numbers, later ones last also where a counter has wrapped, then the order of issue (R125, R137). -/
def servedBefore (a b : Item) : Bool :=
  if a.srank ≠ b.srank then a.srank < b.srank
  else if a.seq % 2 ^ 32 ≠ b.seq % 2 ^ 32 then seqLater b.seq a.seq
  else a.ord < b.ord

/-- Every operation whose condition holds now is answered: the LDFs and WAITGENs, then one LDFE for each word that is full, in
the order they came, in deterministic mode in that of R125 (R325, R326). -/
def State.wakeWaiters (s : State) : State :=
  let w := s.net.filter Item.awaits
  let det := w.filter fun i => s.det i.part
  let order := w.filter (fun i => !i.takes) ++ w.filter (fun i => i.takes && !s.det i.part) ++
    sortBy servedBefore (det.filter Item.takes)
  order.foldl State.waiter s

/-- REMOTE_ATOMIC_PERFORM (R209): the `k`-th item is an atomic or a JOINDEC at its home. -/
def execRemoteAtomicPerform (k : Nat) (s : State) : Out :=
  match nth s.net k with
  | none => .next s
  | some i =>
    match i.body with
    | .ret (.amo op a w v c) => s.retArrival i (.amo op a w v c)
    | .ret (.joindec a) => s.retArrival i (.joindec a)
    | _ => .next s

/-- REMOTE_LOAD_ARRIVAL (R181): the `k`-th item is a load, LDF, LDFE or WAITGEN at its home. -/
def execRemoteLoadArrival (k : Nat) (s : State) : Out :=
  match nth s.net k with
  | none => .next s
  | some i =>
    match i.body with
    | .ret (.read ps) => s.retArrival i (.read ps)
    | .ret (.ldf a) => s.retArrival i (.ldf a)
    | .ret (.ldfe a) => s.retArrival i (.ldfe a)
    | .ret (.waitgen a g) => s.retArrival i (.waitgen a g)
    | _ => .next s

/-! ### Responses (R218-R220) -/

/-- hcause after one more park (R220). -/
def parkCause (old : Word) (wr : Bool) : Word :=
  BitVec.ofNat 64 (min (bitsN old.toNat 47 32 + 1) 0xFFFF * 2 ^ 32 + ofBool wr * 256 + 8)

/-- A thread parks at its instruction (R219, R220). -/
def Thread.park (t : Thread) (a : Nat) (wr : Bool) : Thread :=
  { t with status := .parked, hcause := parkCause t.hcause wr, haddr := BitVec.ofNat 64 (a % 2 ^ 56) }

/-- A thread that resumes takes up the register window that was written while it was parked (R179). -/
def Thread.unpend (t : Thread) : Thread :=
  match t.pend with
  | some w => { t.setWindow w with pend := none }
  | none => t

/-- The thread a logged message id names on a tile (R136). -/
def hartOfMid (site : Nat) (mid : Word) : Nat := site * 32 + bitsN mid.toNat 36 32

/-- A thread resumes with the response it waited for; where a window write has moved it to another instruction, the response is for
nobody (R179, R219). -/
def Thread.resume (t : Thread) (r : Resp) : Thread :=
  { t.unpend with resp := if t.unpend.pc = t.pc then some r else none, status := .running }

/-- The offset of data that goes to no scratchpad: all ones (R241, R356, log 34, DEDUCED). -/
def noOffset : Word := BitVec.allOnes 64

/-- Logs a response (R241): its data, or the value it returns; the rows a stream instruction reads as block data, 4,096 bytes a
record (R356). -/
def State.logResponse (s : State) (site : Nat) (i : Item) (cause : Nat) (r : Resp) : State :=
  if cause ≠ 0 || (s.thread (hartOfMid site i.mid)).rows.isEmpty then
    s.log site 2 (i.mid :: BitVec.ofNat 64 cause :: (if r.data.isEmpty then [r.value] else padWords r.data)) (some i) 80
  else
    let part (k : Nat) : List Byte := (r.data.drop (4096 * k)).take 4096
    let n := ceilDiv r.data.length 4096
    (List.range n).foldl (fun s k =>
      s.log site 3 (i.mid :: noOffset :: padWords (part k)) (if k + 1 = n then some i else none)
        (16 + ceilDiv (part k).length 16 * 16)) s

/-- A response takes effect at its thread (R218, R219, R241); the row a stream reads is logged as block data (R356). -/
def State.answer (s : State) (i : Item) (h cause a : Nat) (wr : Bool) (r : Resp) (req : Nat) : State :=
  let s := s.dropItem i.ord
  let t := s.thread h
  let waits := match t.status with | .blocked .response | .parked => t.req == req + 1 | _ => false
  if !waits then s
  else
    let s := s.logResponse (siteOf h) i cause r
    if cause = 0 then s.setThread h (t.resume r)
    else if cause = 8 then s.setThread h (t.park a wr)
    else s.raiseAt h cause (BitVec.ofNat 64 a)

/-- The answer of a spawn takes effect at its thread (R146, R319). -/
def State.spawnAnswered (s : State) (i : Item) (h : Nat) (ok : Bool) : State :=
  let s := s.dropItem i.ord
  let t := s.thread h
  if t.status == .blocked .spawn && (t.seq + 1).toNat == i.seq then
    (s.log (siteOf h) 2 [i.mid, 0, BitVec.ofNat 64 (ofBool !ok)] (some i) 80).setThread h
      { t with resp := some { value := if ok then 0 else 1, data := [] }, status := .running }
  else s

/-- A response to another device's access leaves by a port, on a response channel (R75, R77); it waits while none can take it, or
while the part has no DEVID. -/
def State.peerAnswer (s : State) (i : Item) (a : Nat) : State :=
  let d := s.devOf i.src
  let sel := i.srank ^^^ bitsN a 47 16
  if !s.devValid then s
  else match s.portFor i.part d sel with
  | some k =>
    let slot := (List.range 10).map fun j => BitVec.ofNat 64 (ofBytes ((i.bytes.drop (8 * j)).take 8))
    let f : Flit := { seq := 0, dev := d, sel := sel, part := i.part, srank := i.srank, resp := some true, vc := 0, bulk := false, slot := slot }
    let s := s.dropItem i.ord
    { s with outs := s.outs ++ [Output.sent d i] }.transmit k f
  | none => s

/-- Whether a tile's NI takes responses now (R227, R240, R243). -/
def Tile.takesResponse (t : Tile) : Bool := !t.failed && !t.replaying && !t.logFull

/-- RESPONSE_ARRIVAL (R218): the `k`-th item is a response at its thread. In deterministic mode a parked thread goes on,
and a spawn is answered, at quantum end (R123, R124). -/
def execResponseArrival (k : Nat) (s : State) : Out :=
  match nth s.net k with
  | none => .next s
  | some i =>
    match i.body, i.dst with
    | .response cause a wr r req, .hart h =>
      if peerSites * 32 ≤ h then .next (s.peerAnswer i a)
      else if i.stage != .waiting || !(s.tile (siteOf h)).takesResponse then .next s
      else if s.det i.part && (s.thread h).status == .parked then .next (s.setStage i.ord .collected)
      else .next (s.answer i h cause a wr r req)
    | .spawnAns ok, .hart h =>
      if i.stage != .waiting || !(s.tile (siteOf h)).takesResponse then .next s
      else if s.det i.part then .next (s.setStage i.ord .collected)
      else .next (s.spawnAnswered i h ok)
    | _, _ => .next s

/-! ### Faults and wakes (R186, R187, R221) -/

/-- Writes a kind 4 record and holds an assist request with a fresh token (R109). -/
def State.assistFor (s : State) (func part : Nat) (arg : Word) (obj : Nat) : State :=
  let tok := s.nextId
  let a : Assist := { token := tok, func := func, part := part, arg := arg, obj := obj }
  let s := { s with nextId := tok + 1, assists := s.assists ++ [a] }
  s.record part (bytesOf 2 4 ++ bytesOf 1 func ++ bytesOf 1 0 ++ bytesOf 4 part ++ bytesOf 8 tok ++ bytesOf 8 arg.toNat)

/-- Whether a function of a partition is host-assisted (R108). -/
def Partition.assisted (p : Partition) (func : Nat) : Bool := p.assist.testBit func

/-- The report of a missing page at the root (R186). -/
def State.faultReport (s : State) (p page : Nat) (f : Faulter) : State :=
  s.report (((s.ctlTiles p).head?.map (·.2)).getD 0)
    { part := p, job := f.job, mid := f.mid, cause := 8, a2 := BitVec.ofNat 64 page, rank := f.srank, chan := f.chan,
      a4 := 0, act := s.ordCtr + 1 }

/-- The site at which a message of a site, or of a stack's home agent, enters the tree (R28, R186). -/
def entrySite (x : Nat) : Nat :=
  if x < Config.numSites then x else ((stackSites (x - Config.numSites)).head?).getD 0

/-- A fault climbs the routers on its way: it stops at one that has an entry for its page, which notes the port it came from, and makes
an entry at every other. True if it reaches the root; none while a router's eight entries are in use (R186). -/
def State.climb (s : State) (p page : Nat) : List Nat → Nat → Option (Bool × State)
  | [], _ => some (true, s)
  | r :: rest, from_ =>
    let x := s.part p
    if x.routers.any fun e => e.router == r && e.page == page then
      some (false, s.setPart p { x with routers := x.routers.map fun e =>
        if e.router == r && e.page == page then { e with ports := KeySet.add e.ports from_ } else e })
    else if 8 ≤ ((s.parts.flatMap (·.2.routers)).filter (·.router == r)).length then none
    else (s.setPart p { x with routers := x.routers ++ [{ router := r, page := page, ports := [from_] }] }).climb p page rest r

/-- FAULT_MESSAGE (R186): the `k`-th item is a fault message that climbs towards the root: it joins the entry of its page at a
router, or at the root, where it makes one if there is none. A wake that has been sent passes first (R187). -/
def execFaultMessage (k : Nat) (s : State) : Out :=
  match nth s.net k with
  | none => .next s
  | some i =>
    match i.body with
    | .fault va job hart =>
      let page := pageOf va
      let root := ((s.ctlTiles i.part).head?.map (·.2)).getD 0
      let from_ := entrySite (siteOf i.src)
      match s.climb i.part page ((wayTo from_ root).filter (· != root)) from_ with
      | none => .next s
      | some (top, s') =>
      if top && (s.part i.part).wakes.any (·.1 == page) then .next s
      else
      let s := s'
      let f : Faulter := { job := job, mid := i.mid, srank := i.srank, chan := i.chan }
      let s := s.dropItem i.ord
      let p := s.part i.part
      match p.faults.find? (·.page == page) with
      | some e =>
        let new := !e.jobs.any (·.job == job)
        let e := { e with jobs := if new then e.jobs ++ [f] else e.jobs, harts := e.harts ++ hart.toList }
        let s := s.setPart i.part { p with faults := p.faults.map fun x => if x.page == page then e else x }
        .next (if new && e.token.isNone then s.faultReport i.part page f else s)
      | none =>
        if !top then .next s
        else
        let held := p.assisted 2
        let e : FaultEntry :=
          { page := page, jobs := [f], harts := hart.toList, token := if held then some s.nextId else none }
        let s := s.setPart i.part { p with faults := p.faults ++ [e] }
        .next (if held then s.assistFor 2 i.part (BitVec.ofNat 64 va) page else s.faultReport i.part page f)
    | _ => .next s

/-- The fault is delivered to an item that its page holds (R187, R221): to a thread that has not parked yet as a response. -/
def State.failHeld (s : State) (i : Item) (page : Nat) : State :=
  match i.body with
  | .ret op =>
    let s := s.ended i
    if (s.thread i.src).req == i.ord + 1 && (s.thread i.src).status == .parked then s.raiseAt i.src 9 (s.thread i.src).haddr
    else s.respond i 9 op.addr op.wkind.isSome { value := 0, data := [] } false
  | .store a _ _ =>
    let s := s.dropItem i.ord
    let s := if i.counted then s.recvAt (s.homePlace i.part a) i.job else s
    s.report (s.reportSite i a) (i.reportOf 9 a)
  | .line a _ _ num piece site =>
    ((s.dropItem i.ord).report (s.reportSite i a) (i.reportOf 9 a)).onTransfer i num site fun x =>
      { x with held := x.held.filter (· != piece) }
  | _ => (s.ended i).report (siteOf i.src) (i.reportOf 9 page)

/-- Wakes or fails what a tile's engines hold for a page (R187, R365). -/
def State.wakeEngines (s : State) (p page site : Nat) (present : Bool) : State :=
  let t := s.tile site
  let s := match t.mrun with
    | some r =>
      if r.cmd.part == p && r.park.map pageOf == some page then
        if present then s.setTile site { t with mrun := some { r with park := none } }
        else s.endMatrix site r 9 (r.park.getD page)
      else s
    | none => s
  (List.range 4).foldl (fun s c =>
    match vget none (s.tile site).xfers c with
    | some x =>
      if x.part == p && x.park.map pageOf == some page then
        if present then s.setXfer site c (some { x with park := none }) else s.finishXfer site c x 9 (x.park.getD page)
      else s
    | none => s) s

/-- Whether the fault of what waits for a page has not reached an entry of the tree, which the wake retraces: it has the thread's own
fault, or its home's or its engine's (R186, R187). -/
def State.climbing (s : State) (part page : Nat) (hart : Option Nat) : Bool :=
  s.net.any fun i => i.part == part && (match i.body with | .fault va _ h => pageOf va == page && h == hart | _ => false)

/-- Whether the wake for a page comes to an item that waits for it (R187). -/
def State.wakes (s : State) (part page : Nat) (i : Item) : Bool :=
  i.part == part && i.stage == .held page && page != 0 &&
    !s.climbing part page (match i.body with | .ret _ => some i.src | _ => none)

/-- WAKE (R187, R221): the wake for a page retraces the tree to the NIs and homes and frees its entries: what waits for the page is tried
again in the order of issue, or the fault is delivered. What a partition that is switched out has in its records is sent again by
SWITCHIN (R233). -/
def execWake (part page : Nat) (present : Bool) (s : State) : Out :=
  let p := s.part part
  if !p.wakes.contains (page, present) then .next s
  else
    let s := s.setPart part { p with
      wakes := p.wakes.erase (page, present), routers := p.routers.filter fun e => e.page != page }
    let mine := s.wakes part page
    let engines := !s.climbing part page none
    let hit := s.net.filter mine
    let follows (i : Item) : Bool := i.atPage && hit.any fun j => j.src == i.src && j.target == i.target && j.ord < i.ord
    let s := { s with net := s.net.map fun i =>
      if (follows i && !mine i) || (present && mine i) then { i with stage := Stage.waiting } else i }
    let s := if present then s else hit.foldl (fun s i => s.failHeld i page) s
    let s := if engines then s.tiles.foldl (fun s t => s.wakeEngines part page t.1 present) s else s
    match (s.part part).floe with
    | some f =>
      if f.park.map pageOf == some page && engines then
        if present then .next (s.setPart part { s.part part with floe := some { f with park := none } })
        else .next (s.endFloe part 9 (f.park.getD page))
      else .next s
    | none => .next s

/-! ### Resending (R125, R144) -/

/-- Offers an item to its receiver once more, whatever it carries. -/
def State.offer (s : State) (i : Item) (atEnd : Bool) : State :=
  match i.body, i.dst with
  | .message m, .core lc => s.offerMsg i m lc atEnd
  | .store a bs fe, _ => s.offerStore i a bs fe
  | .ret (.eqstat qid), _ => s.offerStat i qid
  | .ret op, _ => s.offerRet i op
  | .frame f _, .core lc => s.offerFrame i f lc
  | .push qid bs, _ => s.acceptPush i qid bs
  | .eqfire qid, _ => s.acceptFire i qid
  | .eqdone qid fire, _ => s.acceptDone i qid fire
  | .mcmd c, .tile rank => s.offerMcmd i c rank
  | _, _ => s

/-- RESEND_BACKOFF (R144): a refused item is sent again; a second refusal doubles the wait up to 65,536 cycles. In
deterministic mode it is offered at quantum ends instead (R125). -/
def execResendBackoff (k : Nat) (s : State) : Out :=
  match nth s.net k with
  | none => .next s
  | some i =>
    match i.stage with
    | .refused b =>
      if s.det i.part || s.behind i || (s.tile (siteOf i.src)).failed then .next s
      else
        let s' := (s.setStage i.ord .waiting).offer { i with stage := .waiting } false
        let again := s'.net.any fun j => j.ord == i.ord && (match j.stage with | .refused _ | .waiting => true | _ => false)
        .next (if again then s'.setStage i.ord (.refused (min (2 * b) 65536)) else s')
    | _ => .next s

end Sys2Proof.Machine
end

