-- ==== Sys2Proof/Machine/Boot.lean ====
section
/-!
DEFINITION. Start-up (spec/02_bringup.md R33-R48): the retirement log, the roles and ranks of the sites
(spec/01_wafer.md R10-R21), power-up, power loss, and the appends of the flash port.
-/

namespace Sys2Proof.Machine

/-! ### Paths on the wafer (R12) -/

/-- Column and row of a site (R7). -/
def colOf (site : Nat) : Nat := site % 96
@[inherit_doc colOf] def rowOf (site : Nat) : Nat := site / 96

/-- The distance of two numbers. -/
def absDiff (a b : Nat) : Nat := max a b - min a b

/-- The neighbours of a site in the mesh (R7). -/
def neighbours (site : Nat) : List Nat :=
  (if colOf site = 0 then [] else [site - 1]) ++ (if colOf site = 95 then [] else [site + 1]) ++
    (if rowOf site = 0 then [] else [site - 96]) ++ (if rowOf site = 95 then [] else [site + 96])

/-- Whether a site has no router: it is void, or its spine has failed in service (R11). CLASS stays what start-up found
(R27). -/
def Tile.noRouter (t : Tile) : Bool := t.cls == 3 || (t.failed && t.failc == 6)
@[inherit_doc Tile.noRouter] def State.noRouter (s : State) (site : Nat) : Bool := (s.tile site).noRouter

/-- Breadth-first distance round the sites without a router: `front` are the sites at distance `d`. -/
def State.wave (s : State) (goal : Nat) : Nat → Nat → List Nat → List Nat → Option Nat
  | 0, _, _, _ => none
  | fuel + 1, d, front, seen =>
    if front.contains goal then some d
    else
      let next := (front.flatMap neighbours).dedup.filter fun x => !seen.contains x && (!s.noRouter x || x == goal)
      if next.isEmpty then none else s.wave goal fuel (d + 1) next (seen ++ next)

/-- Whether every site of the rectangle between two sites has a router. -/
def State.clearBetween (s : State) (a b : Nat) : Bool :=
  s.tiles.all fun t => !t.2.noRouter ||
    !(min (colOf a) (colOf b) ≤ colOf t.1 && colOf t.1 ≤ max (colOf a) (colOf b) &&
      min (rowOf a) (rowOf b) ≤ rowOf t.1 && rowOf t.1 ≤ max (rowOf a) (rowOf b))

/-- The hop count between two sites (R12): along rows and columns where nothing is in the way, else round the sites
without a router by a shortest path (log 32, DEDUCED). A site that no way reaches counts as 1,000 links: it is chosen last
(log 102, DESIGN CHOICE). -/
def State.hops (s : State) (a b : Nat) : Nat :=
  if s.clearBetween a b then absDiff (colOf a) (colOf b) + absDiff (rowOf a) (rowOf b)
  else (s.wave b 400 0 [a] [a]).getD 1000

/-- The candidate with fewest hops from a site, then of the lower row, then of the lower column (R13, R20, R47). Site
numbers are in row-major order. -/
def State.nearest (s : State) (site : Nat) (l : List Nat) : Option Nat :=
  l.foldl (fun b x =>
    match b with
    | none => some x
    | some y =>
      let dx := s.hops site x
      let dy := s.hops site y
      if dx < dy || (dx == dy && x < y) then some x else some y) none

/-- Every site in row-major order. -/
def allSites : List Nat := List.range Config.numSites
/-- The other regions in the order of R20 and R47, for region n. -/
def regionOrder (n : Nat) : List Nat := [n ^^^ 1, n ^^^ 4] ++ (List.range 16).filter fun r => r != n && r != n ^^^ 1 && r != n ^^^ 4

/-! ### Homes (R13) -/

/-- Orphans a site serves as a home. -/
def State.served (s : State) (home : Nat) : Nat := (s.tiles.filter fun t => t.2.home == some home).length

/-- Whether a site is the buddy of some ward. -/
def State.isBuddy (s : State) (x : Nat) : Bool := s.tiles.any fun t => t.2.buddy == some x

/-- Whether a site may serve one more orphan (R13). A buddy has no room: a ward's firn copy lies where the donated
partition would (R14, R20, log 62, DEDUCED). -/
def State.mayServe (s : State) (orphan x : Nat) : Bool :=
  let t := s.tile x
  t.role != .retired && regionOf x == regionOf orphan && x != orphan && !t.failed && !s.isBuddy x &&
    ((t.cls == 2 && s.served x < 2) || (t.cls == 0 && s.served x == 0)) &&
    decide (s.hops orphan x ≤ 6)

/-- The home an orphan gets: memory-only sites before donors (R13). -/
def State.homeFor (s : State) (orphan : Nat) : Option Nat :=
  let l := allSites.filter (s.mayServe orphan)
  match s.nearest orphan (l.filter fun x => (s.tile x).cls == 2) with
  | some x => some x
  | none => s.nearest orphan (l.filter fun x => (s.tile x).cls == 0)

/-- The 44 MiB partition of a home that an orphan gets, counted from the home's offset 0: a donor's own bytes are the first,
so the donated one is the second (R14). -/
def State.partitionAt (s : State) (home : Nat) : Nat :=
  if (s.tile home).cls = 0 || s.tiles.any (fun t => t.2.home == some home && t.2.homePart == 0) then 1 else 0

/-- Gives an orphan its home (R13, R14, R27); without one it is unhomed. -/
def State.giveHome (s : State) (orphan : Nat) : State :=
  match s.homeFor orphan with
  | none => s.setTile orphan { s.tile orphan with role := .unhomed, home := none, homePart := 0, hops := 0, usable := 0 }
  | some h =>
    let s := s.setTile orphan { s.tile orphan with
      home := some h, homePart := s.partitionAt h, hops := s.hops orphan h, usable := 44 }
    let t := s.tile h
    if t.cls = 2 then s.setTile h { t with role := .memHome } else s.setTile h { t with donor := true, usable := 44 }

/-- A home without an orphan is none any more (R17, R27): a donor has its own block back. -/
def State.freeHome (s : State) (home : Nat) : State :=
  let t := s.tile home
  if 0 < s.served home then s
  else if t.role == .memHome then s.setTile home { t with role := .memIdle }
  else if t.donor then s.setTile home { t with donor := false, usable := if t.prot then 44 else 92 }
  else s

/-- An orphan's partition at its home is freed (R17, R27). -/
def State.leaveHome (s : State) (orphan : Nat) : State :=
  let t := s.tile orphan
  match t.home with
  | none => s
  | some h => (s.setTile orphan { t with home := none, homePart := 0, hops := 0 }).freeHome h

/-! ### Roles and ranks (R18, R19) -/

/-- Whether a site can never be ranked as R19 step 3 counts them. -/
def State.unrankable (s : State) (site : Nat) : Bool :=
  let t := s.tile site
  t.cls == 2 || t.cls == 3 || t.role == .retired || t.role == .unhomed || t.role == .supervisor

/-- Every site with its class and nothing else; the retired ones stay so. USABLE of a memory-only site reads 0: no program of its
own runs there (R27, log 102, DESIGN CHOICE). -/
def State.plain (s : State) (cls : Nat → Nat) (retired : List Nat) : State :=
  { s with tiles := allSites.map fun x =>
      (x, { Tile.init with
        cls := cls x
        role := if retired.contains x then .retired else if cls x = 3 then .void
                else if cls x = 2 then .memIdle else .extra
        usable := if cls x = 0 then 92 else 0 }) }

/-- A region's fallback list; one that flash does not hold is the region's sites in row-major order (log 3, DESIGN CHOICE). -/
def Flash.fallbackOf (f : Flash) (region : Nat) : List Nat :=
  ((f.fallback.find? (·.1 == region)).map (·.2)).getD (allSites.filter fun x => regionOf x == region)

/-- The first complete site of a region's fallback list that a predicate allows (R19, R34, R46). -/
def State.fallbackSite (s : State) (region : Nat) (ok : Nat → Bool) : Option Nat :=
  (s.flash.fallbackOf region).find? fun x => (s.tile x).cls == 0 && (s.tile x).role != .retired && !(s.tile x).failed && ok x

/-- Spares of a region: complete tiles of a row or column that floes drop first, then the others (R19 step 3). -/
def State.spareList (s : State) (bad : List Nat) (region : Nat) : List Nat :=
  let l := allSites.filter fun x => regionOf x == region && (s.tile x).cls == 0 && (s.tile x).role == .extra
  let drops (x : Nat) : Bool := bad.any fun b => rowOf b == rowOf x || colOf b == colOf x
  (l.filter drops ++ l.filter fun x => !drops x).take 8

/-- Applies R19 to classes and retired sites: roles, homes and ranks. -/
def State.assignRoles (s : State) (cls : Nat → Nat) (retired : List Nat) : State :=
  let s := s.plain cls retired
  let s := (allSites.filter fun x => cls x == 1 && !retired.contains x).foldl State.giveHome s
  let s := (List.range 16).foldl (fun s r =>
    match s.fallbackSite r fun _ => true with
    | some x => s.setTile x { s.tile x with role := .supervisor }
    | none => s) s
  let bad := allSites.filter s.unrankable
  let s := ((List.range 16).flatMap (s.spareList bad)).foldl (fun s x => s.setTile x { s.tile x with role := .spare }) s
  let cand := allSites.filter fun x => (s.tile x).role == .extra
  let ranked := (List.range Config.maxRank).zip cand
  let s := ranked.foldl (fun s r => s.setTile r.2 { s.tile r.2 with role := .ranked, rank := some r.1 }) s
  { s with binding := ranked }

/-- The replacement of a tile: a spare, then an extra complete tile, of its own region, then of the others (R47). -/
def State.replacement (s : State) (site : Nat) : Option Nat :=
  let pick (region : Nat) (role : Role) : Option Nat :=
    s.nearest site (allSites.filter fun x =>
      regionOf x == region && (s.tile x).role == role && (s.tile x).cls == 0 && !(s.tile x).failed)
  (regionOf site :: regionOrder (regionOf site)).findSome? fun r =>
    match pick r .spare with
    | some x => some x
    | none => pick r .extra

/-- Binds a logical number to a site (R23, R24). -/
def State.bind (s : State) (l site : Nat) : State :=
  { s with binding := sortBy (fun a b => a.1 < b.1) ((l, site) :: s.binding.filter (·.1 != l)) }

/-- A site becomes retired (R27); an orphan's partition is freed (R17). -/
def State.retireSite (s : State) (site : Nat) : State :=
  (s.setTile site { s.tile site with role := .retired, rank := none }).leaveHome site

/-- A site retires and no other takes its logical number: the number is unbound. -/
def State.retireUnbound (s : State) (site : Nat) : State :=
  let s := s.retireSite site
  { s with binding := s.binding.filter (·.2 != site) }

/-- Moves a logical number from a site that retires to its replacement. -/
def State.moveRank (s : State) (l old new : Nat) : State :=
  let s := s.retireSite old
  (s.setTile new { s.tile new with role := .ranked, rank := some l }).bind l new

/-! ### Buddies (R20) -/

/-- Whether a site can be a buddy (R20). A tile of an unprotected partition may be one: its firn copy is held apart from the 92 MiB
(log 102, DESIGN CHOICE). -/
def State.canBuddy (s : State) (x : Nat) : Bool :=
  let t := s.tile x
  !t.failed && ((t.cls == 0 && !t.donor && (t.role == .ranked || t.role == .extra)) || (t.cls == 2 && t.role == .memIdle))

/-- The buddy a ward takes: none where no site is left. -/
def State.buddyFor (s : State) (ward : Nat) (skip : Nat) : Option Nat :=
  let taken := s.tiles.filterMap fun t => t.2.buddy
  (regionOrder (regionOf ward)).findSome? fun r =>
    s.nearest ward (allSites.filter fun x => regionOf x == r && x != skip && s.canBuddy x && !taken.contains x)

/-- Gives a ward a buddy. -/
def State.giveBuddy (s : State) (ward skip : Nat) : State :=
  match s.buddyFor ward skip with
  | none => s.setTile ward { s.tile ward with buddy := none }
  | some b =>
    let s := s.setTile ward { s.tile ward with buddy := some b }
    if (s.tile b).cls = 2 then s.setTile b { s.tile b with role := .memBuddy } else s

/-- A ward has no buddy any more: a memory-only site that was one is idle again (R20, R27). -/
def State.leaveBuddy (s : State) (ward : Nat) : State :=
  let t := s.tile ward
  match t.buddy with
  | none => s
  | some b =>
    let s := s.setTile ward { t with buddy := none }
    let u := s.tile b
    if u.role == .memBuddy then s.setTile b { u with role := .memIdle } else s

/-! ### The retirement log (R40-R45) -/

/-- The 64 bytes of a record (R41). -/
def Rec.bytes (r : Rec) : List Byte :=
  let b := bytesOf 4 0x4E594C47 ++ bytesOf 2 r.typ ++ bytesOf 2 r.cause ++ bytesOf 8 r.seq ++ bytesOf 2 r.site ++
    bytesOf 2 r.lnum ++ bytesOf 2 r.spare ++ bytesOf 2 0 ++ bytesOf 4 r.boots ++ bytesOf 4 r.nrank ++ bytesOf 28 0
  b ++ bytesOf 4 (crc32c b).toNat

/-- What `erased` flash reads as, eight bytes of it (R42). -/
def erasedWord : Word := BitVec.allOnes 64

/-- The commit word of a sequence number (R42); a bank header's is formed alike from its generation (log 91, DEDUCED). -/
def commitWord (n : Nat) : Word := BitVec.ofNat 64 (0x5A5AC3C3 * 2 ^ 32 + n % 2 ^ 32)

/-- A field of a slot's record area. -/
def Slot.field (x : Slot) (at_ n : Nat) : Nat := ofBytes ((x.bytes.drop at_).take n)

/-- The record a slot holds (R41). -/
def Slot.record (x : Slot) : Rec :=
  { typ := x.field 4 2, cause := x.field 6 2, seq := x.field 8 8, site := x.field 16 2, lnum := x.field 18 2,
    spare := x.field 20 2, boots := x.field 24 4, nrank := x.field 28 4 }

/-- Whether a slot's CRC and its commit word match (R43). -/
def Slot.good (x : Slot) : Bool :=
  x.field 60 4 == (crc32c (x.bytes.take 60)).toNat && x.commit == commitWord x.record.seq

/-- Whether slot contents count, after the highest SEQ counted before (R43). -/
def Slot.counts (x : Slot) (top : Nat) : Bool :=
  x.good && 1 ≤ x.record.typ && x.record.typ ≤ 3 && decide (top < x.record.seq)

/-- The counted records of a bank in order (R43). -/
def countedFrom : Nat → List Slot → List Rec
  | _, [] => []
  | top, x :: t => if x.counts top then x.record :: countedFrom x.record.seq t else countedFrom top t

/-- Whether a bank holds a torn record (R43). -/
def tornFrom : Nat → List Slot → Bool
  | _, [] => false
  | top, x :: t => if x.counts top then tornFrom x.record.seq t else true

/-- A whole bank header (R40); its generation is measured as eight bytes (log 91, DESIGN CHOICE). -/
def bankHead (gen : Nat) : BankHead := { gen := gen, crc := crc32c (bytesOf 8 gen), commit := commitWord gen }

/-- The generation of a bank whose header has a matching CRC and commit word (R40). -/
def Bank.gen (b : Bank) : Option Nat :=
  match b.header with
  | some h => if h == bankHead h.gen then some h.gen else none
  | none => none

/-- Whether a bank holds anything other than erased flash (R40). -/
def Bank.dirty (b : Bank) : Bool := b.header.isSome || !b.slots.isEmpty

/-- The active bank: A if it has the higher generation (R40). -/
def Flash.activeA (f : Flash) : Option Bool :=
  match f.bankA.gen, f.bankB.gen with
  | some a, some b => some (decide (b ≤ a))
  | some _, none => some true
  | none, some _ => some false
  | none, none => none

/-- The slots of the active bank. -/
def Flash.slots (f : Flash) : List Slot :=
  match f.activeA with
  | some true => f.bankA.slots
  | some false => f.bankB.slots
  | none => []

/-- The flash with other slots in the active bank. -/
def Flash.setSlots (f : Flash) (l : List Slot) : Flash :=
  match f.activeA with
  | some true => { f with bankA := { f.bankA with slots := l } }
  | some false => { f with bankB := { f.bankB with slots := l } }
  | none => f

/-- The counted records of the log. -/
def Flash.counted (f : Flash) : List Rec := countedFrom 0 f.slots

/-- Whether the log cannot be read: no valid header, and something that is not erased flash (R40). -/
def Flash.logBroken (f : Flash) : Bool := f.activeA.isNone && (f.bankA.dirty || f.bankB.dirty)

/-- Sites retired by a list of records: named by a type 1 record and by no later type 2 record (R44). -/
def retiredBy (l : List Rec) : List Nat :=
  l.foldl (fun acc r => if r.typ = 1 then acc ++ [r.site] else if r.typ = 2 then acc.filter (· != r.site) else acc) []

/-- Records before the latest type 3 record, and from it on. -/
def atEpoch (l : List Rec) : List Rec × List Rec :=
  let after := (l.reverse.takeWhile (·.typ != 3)).reverse
  let n := l.length - after.length
  if n = 0 then ([], l) else (l.take (n - 1), l.drop (n - 1))

/-- The latest type 1 record of each site in a list. -/
def latestOf (sites : List Nat) : List Rec → List Rec
  | [] => []
  | r :: t =>
    let later := t.any fun x => x.typ == 1 && x.site == r.site
    if r.typ = 1 && sites.contains r.site && !later then r :: latestOf sites t else latestOf sites t

/-- The records that a compaction keeps (R45). A log without a type 3 record has no epoch: it keeps every counted record
(log 91, DESIGN CHOICE). -/
def Flash.kept (f : Flash) : List Rec :=
  let (old, new) := atEpoch f.counted
  latestOf (retiredBy old) old ++ new

/-- The bank that is not active, erased; none while no bank is active (R45). -/
def Flash.eraseOther (f : Flash) : Flash :=
  match f.activeA with
  | some true => { f with bankB := { header := none, slots := [] } }
  | some false => { f with bankA := { header := none, slots := [] } }
  | none => f

/-- The records that stay, copied into the other bank, which has no header yet (R45). -/
def Flash.copyKept (f : Flash) : Flash :=
  let slots := f.kept.map fun r => ({ bytes := r.bytes, commit := commitWord r.seq } : Slot)
  match f.activeA with
  | some true => { f with bankB := { f.bankB with slots := slots } }
  | some false => { f with bankA := { f.bankA with slots := slots } }
  | none => f

/-- The header of the new bank is committed, with the generation increased by one (R45). -/
def Flash.switchBank (f : Flash) : Flash :=
  match f.activeA with
  | some true => { f with bankB := { f.bankB with header := f.bankA.gen.map fun g => bankHead (g + 1) } }
  | some false => { f with bankA := { f.bankA with header := f.bankB.gen.map fun g => bankHead (g + 1) } }
  | none => f

/-- The log compacted into the other bank (R45). -/
def Flash.compact (f : Flash) : Flash := f.eraseOther.copyKept.switchBank

/-- Record slots of a bank (R40). -/
def bankSlots : Nat := 8191
/-- Erased record slots of the active bank. -/
def Flash.room (f : Flash) : Nat := bankSlots - f.slots.length

/-- The next sequence number (R42). -/
def Flash.nextSeq (f : Flash) : Nat := (f.counted.foldl (fun n r => max n r.seq) 0) + 1

/-- The first append to an empty log starts bank A (R40). -/
def Flash.startBank (f : Flash) : Flash :=
  if f.activeA.isNone then { f with bankA := { header := some (bankHead 1), slots := [] } } else f

/-- Step 1 of an append (R42): the record goes to the first erased slot; its commit word is erased still. -/
def Flash.writeRecord (f : Flash) (r : Rec) : Flash := f.setSlots (f.slots ++ [{ bytes := r.bytes, commit := erasedWord }])

/-- Step 2 (R42): the record is read back and checked. -/
def Flash.readBack (f : Flash) (r : Rec) : Bool := (f.slots.getLast?.map (·.bytes)) == some r.bytes

/-- Step 3 (R42): the commit word. -/
def Flash.commitRecord (f : Flash) (r : Rec) : Flash :=
  f.setSlots (f.slots.dropLast ++ [{ bytes := r.bytes, commit := commitWord r.seq }])

/-- A record with the number and the start-up count that the flash port gives it (R41, R42). -/
def Flash.numbered (f : Flash) (r : Rec) : Rec := { r with seq := f.nextSeq, boots := f.boots }

/-- Whether an append finds the active bank full, so that it compacts the log first (R42). -/
def Flash.mustCompact (f : Flash) : Bool := f.room == 0

/-- One append: it compacts a full bank first; a log that stays full takes no record (R42). -/
def Flash.append (f : Flash) (r : Rec) : Flash :=
  let f := if f.mustCompact then f.compact else f
  if f.mustCompact then f
  else
    let f := f.startBank
    let r := f.numbered r
    let f := f.writeRecord r
    if f.readBack r then f.commitRecord r else f

/-- A site in a record, in the form of R23. -/
def recSite (site : Option Nat) : Nat := (site.map coordOf).getD 0x3FFF

/-- A type 1 record (R41); SEQ and BOOTS are filled in by the append. -/
def retireRec (cause site : Nat) (lnum spare : Option Nat) : Rec :=
  { typ := 1, cause := cause, seq := 0, site := coordOf site, lnum := lnum.getD 0xFFFF, spare := recSite spare,
    boots := 0, nrank := 0 }

/-- Appends a record to the log of the part (R42); COMPACT shows a compaction (R35). -/
def State.appendRec (s : State) (r : Rec) : State :=
  { s with flash := s.flash.append r, boot := { s.boot with compact := s.boot.compact || s.flash.mustCompact } }

/-! ### Homes that are lost (R17) -/

/-- The orphans whose home is lost. -/
def State.stranded (s : State) : List Nat :=
  (s.tiles.filter fun t =>
    t.2.role != .retired && !t.2.failed && (match t.2.home with | some h => (s.tile h).memoryLost | none => false)).map (·.1)

/-! ### Stages 5 to 8 of start-up (R34, R36, R46, R48) -/

/-- A site that a type 2 record names (R44, R46 step 2): an extra without a number. A memory-only site has no such role and
is idle, a compute-only one needs a home first, a void one stays void (log 62, DEDUCED). -/
def State.readmitSite (s : State) (x : Nat) : State :=
  let t := s.tile x
  let s := { s with binding := s.binding.filter (·.2 != x) }
  let s := s.setTile x { t with
    rank := none, role := if t.cls = 2 then .memIdle else if t.cls = 3 then .void else .extra }
  if t.cls = 1 then s.giveHome x else s

/-- Replays one record after the epoch (R46 step 2). -/
def State.replayRec (s : State) (r : Rec) : State :=
  match siteOfCoord r.site with
  | none => s
  | some x =>
    if r.typ = 1 then
      match siteOfCoord r.spare with
      | some y => s.moveRank r.lnum x y
      | none => s.retireUnbound x
    else if r.typ = 2 then s.readmitSite x
    else s

/-- Whether the log has a slot for one more record, if need be after a compaction (R42). -/
def Flash.takes (f : Flash) : Bool := !(if f.mustCompact then f.compact else f).mustCompact

/-- A site retires at start-up with the record that is written for it (R46 step 3): a replacement takes its number. NEWRET
tells of a record that was appended (R35). The record goes to the list of those written, also where a full log does not take it
(log 91, DESIGN CHOICE). -/
def State.retireNew (s : State × List Rec) (x : Nat) : State × List Rec :=
  let l := s.1.rankOf x
  let spare := l.bind fun _ => s.1.replacement x
  let r := retireRec 1 x l spare
  let t := s.1.appendRec r
  let t := match l, spare with
    | some l, some y => t.moveRank l x y
    | _, _ => t.retireUnbound x
  ({ t with boot := { t.boot with newret := s.1.boot.newret || s.1.flash.takes } }, s.2 ++ [r])

/-- An orphan whose home is lost at start-up takes a new home. One that none can serve has lost its bonded block: a ranked
one retires with a record, as a site that fails stage 4 does (R17, R37, log 62, DEDUCED). -/
def State.rehomeNew (s : State × List Rec) (x : Nat) : State × List Rec :=
  let t := s.1.leaveHome x
  let u := t.giveHome x
  if (u.tile x).home.isSome || (t.rankOf x).isNone then (u, s.2)
  else State.retireNew (t, s.2) x

/-- A region without a supervisor takes the first spare or extra complete tile on its fallback list (R46 step 4). -/
def State.supervise (s : State) (region : Nat) : State :=
  if s.tiles.any fun t => t.2.role == .supervisor && regionOf t.1 == region then s
  else match s.fallbackSite region fun x => (s.tile x).role == .spare || (s.tile x).role == .extra with
    | some x => s.setTile x { s.tile x with role := .supervisor }
    | none => s

/-- Ubnar runs at M on a thread (R282). -/
def State.ubnarThread (s : State) (h : Nat) : State := s.setThread h { s.thread h with priv := .M }

/-- The command processors of a partition run at M on thread 7 of core 3 of its control tiles (R107, R282). -/
def State.ubnarCtl (s : State) (p : Nat) : State := (s.ctlTiles p).foldl (fun s b => s.ubnarThread (b.2 * 32 + 31)) s

/-- Ubnar runs at M on every thread of a site (R282). -/
def State.runUbnar (s : State) (site : Nat) : State :=
  (List.range 32).foldl (fun s k => s.ubnarThread (site * 32 + k)) s

/-- Whether every region has a supervisor. -/
def State.supervised (s : State) : Bool :=
  (List.range 16).all fun r => s.tiles.any fun t => t.2.role == .supervisor && regionOf t.1 == r

/-- A type 1 record that took a logical number out of use (R48). -/
def Rec.uncovered (r : Rec) : Bool := r.typ == 1 && r.lnum != 0xFFFF && r.spare == 0x3FFF

/-- The lowest class a site of start-up has: its fuse class, or the one it fell to at stage 4 (R10). -/
def classOf (fuse : Nat) (failed : List (Nat × Nat)) (x : Nat) : Nat :=
  (failed.filter (·.1 == x)).foldl (fun c f => max c f.2) fuse

/-- The sites of start-up with the classes that stage 4 leaves (R10, R37). -/
def State.classed (s : State) (failed : List (Nat × Nat)) : State :=
  allSites.foldl (fun s x =>
    s.setTile x { s.tile x with cls := classOf (SMap.get 0 s.flash.fuses x) failed x, failed := false, failc := 0 }) s

/-- Ranks computed densely over the sites that are not retired, and their type 3 record (R48). R19 is applied to the fuse map, as
the next start-up applies it (R46 step 1): a site that falls at stage 4 has been retired. -/
def State.denseRanks (s : State) : State :=
  let retired := (s.tiles.filter fun t => t.2.role == .retired).map (·.1)
  let s' := s.assignRoles (SMap.get 0 s.flash.fuses ·) retired
  let s' := s'.appendRec { typ := 3, cause := 0, seq := 0, site := 0x3FFF, lnum := 0xFFFF, spare := 0x3FFF, boots := 0,
                           nrank := s'.binding.length }
  { s' with boot := { s'.boot with rmapchg := true } }

/-- The rank map of R46 and R48: `failed` lists the sites that fail stage 4 with the class they fall to. The orphans whose
homes retire follow the new failures (log 62, DEDUCED). A spine that fails stage 4 is routed round from the first replacement on
(R11, R12, R47). -/
def State.rankMap (s : State) (failed : List (Nat × Nat)) : State :=
  let (old, new) := atEpoch s.flash.counted
  let fuse (x : Nat) : Nat := SMap.get 0 s.flash.fuses x
  let s := s.assignRoles fuse ((retiredBy old).filterMap siteOfCoord)
  let s := new.foldl State.replayRec s
  let bad := allSites.filter fun x => decide (fuse x < classOf (fuse x) failed x) && (s.tile x).role != .retired
  let s := allSites.foldl (fun s x =>
    let t := s.tile x
    if classOf (fuse x) failed x = 3 then s.setTile x { t with failed := true, failc := 6 }
    else if bad.contains x then s.setTile x { t with failed := true } else s) s
  let (s, written) := bad.foldl State.retireNew (s, [])
  let s := s.classed failed
  let (s, written) := s.stranded.foldl State.rehomeNew (s, written)
  let s := (List.range 16).foldl State.supervise s
  if (new ++ written).any Rec.uncovered then s.denseRanks.classed failed else s

/-- Entries 0 to 2 of the attestation log (R36). -/
def State.measure (s : State) : State :=
  let a := vset s.attest 0 Config.romHash
  let a := vset a 1 (digest s.flash.image)
  { s with attest := vset a 2 (digest (Config.fuseBytes s.flash.fuses)) }

/-- The 8,192 binding entries as they are measured (R36). -/
def State.bindingBytes (s : State) : List Byte :=
  (List.range Config.maxRank).flatMap fun l => bytesOf 2 (((s.siteOfRank l).map coordOf).getD 0x3FFF)

/-- The start record of entry 5 (R36). -/
def startRecord : List Byte := bytesOf 2 300 ++ List.replicate 62 0

/-- The six edge sites of a Rypol port (R71). -/
def portSites (k : Nat) : List Nat :=
  (List.range 6).map fun i =>
    let n := 6 * (k % 16) + i
    match k / 16 with
    | 0 => n
    | 1 => n * 96 + 95
    | 2 => 95 * 96 + (95 - n)
    | _ => (95 - n) * 96

/-- The ports after training: disabled where all six sites are dead, else up on four lanes (R71, R74, log 33, DESIGN CHOICE). -/
def State.trainPorts (s : State) : State :=
  { s with ports := Vector.ofFn fun k : Fin 64 =>
      if (portSites k.val).all s.noRouter then { Port.init with state := 4 }
      else { Port.init with state := 2, lanes := 4 } }

/-- The excursion of a power-down ends when power is back (R65, log 86, DEDUCED). -/
def DownRec.ended (d : DownRec) (now : Nat) : DownRec := { d with dur := some (d.dur.getD (now - d.time)) }

/-- The part as a power-up finds it: flash, the host's memory and the safe tier are what is left (R58). The power-down
counts as an excursion in the regions of reservations (R65, log 86, DEDUCED). -/
def State.cold (s : State) : State :=
  { State.reset with
    flash := { s.flash with boots := s.flash.boots + 1, down := s.flash.down.map (DownRec.ended · s.refTime) }
    regions := Vector.ofFn fun r =>
      if s.flash.down.any fun d => d.region == r.val && d.dur.isNone then { Region.init with excur := 1 } else Region.init
    agenda := s.agenda, freeCtr := s.freeCtr, nextId := s.nextId, refTime := s.refTime, outs := s.outs
    points := s.points
    mem := s.mem.filter fun c => 2 ^ 64 ≤ c.1 }

/-- A start-up that fails at a stage (R35). RANKED, SPARES and SHORT tell of a start-up that ends: they stay 0, also at stage 5
(log 91, DESIGN CHOICE). -/
def State.bootFail (s : State) (cause stage : Nat) : State :=
  { s with boot := { s.boot with state := 3, cause := cause, stage := stage } }

/-- Stage 5: the log is read and compacted, the rank map built (R34, R40, R43, R45). -/
def State.stage5 (s : State) (failed : List (Nat × Nat)) : State :=
  let torn := tornFrom 0 s.flash.slots
  let short := s.flash.activeA.isSome && decide (s.flash.room < 64)
  let s := if short then { s with flash := s.flash.compact } else s
  let s := { s with boot := { s.boot with torn := torn, compact := short } }
  let s := s.rankMap failed
  { s with attest := vset s.attest 3 (digest (s.flash.counted.flatMap Rec.bytes)) }

/-- The floe over the whole wafer (R29). -/
def State.formWafer (s : State) : State :=
  { s with floe0 := some (Floe.over (List.range 16) (gridOver (List.range 16) (s.binding.map (·.2)))) }

/-- The floe over the whole wafer formed again where a tile in it has failed (R32). -/
def State.reformWafer (s : State) : State :=
  match s.floe0 with
  | none => s
  | some f =>
    let g := gridOver f.region (s.binding.map (·.2))
    if g == (f.rows, f.cols) then s else { s with floe0 := some { f with rows := g.1, cols := g.2, fgen := f.fgen + 1 } }

/-- Stages 6 to 8: buddies, the floe, measurements, training, and STATE 2 (R20, R29, R34, R36). Ubnar runs on at M on supervisors
and spares (R282). -/
def State.stages6to8 (s : State) : State :=
  let s := ((s.binding.map (·.2)).foldl (fun s x => s.giveBuddy x Config.numSites) s).formWafer
  let s := (s.tiles.filter fun t => t.2.role == .supervisor || t.2.role == .spare).foldl (fun s t => s.runUbnar t.1) s
  let a := vset s.attest 4 (digest s.bindingBytes)
  let s := { s with attest := vset a 5 (digest startRecord) }.trainPorts
  { s with boot := { s.boot with
      ranked := s.binding.length
      spares := (s.tiles.filter fun t => t.2.role == .spare).length
      short := decide (s.binding.length < Config.maxRank)
      stage := 8, state := 2 } }

/-- The key of integrity tags that the boot controller draws at a start-up: a free value (R236, log 14, DESIGN CHOICE). -/
def State.drawKey (s : State) : State :=
  { s with tagKey := (List.range 4).flatMap fun i => bytesOf 8 (Config.freeWord (s.freeCtr + i)).toNat, freeCtr := s.freeCtr + 4 }

/-- Whether the image in flash passes the check of R33. -/
def Flash.imageOk (f : Flash) : Bool := pssVerify f.key f.image f.signature

/-- POWER_UP (R33, R34): the start-up of a part that has no power or has not started. The image is checked; `bad` is 2 where
the flash cannot be read, 4 where the service network does not start; `failed` lists the sites that fail stage 4 with the
class each falls to. Self-test intervals count from here (R38). -/
def execPowerUp (bad : Nat) (failed : List (Nat × Nat)) (s : State) : Out :=
  if s.powered && s.boot.state != 0 then .next s
  else
    let s := s.cold.measure
    if !s.flash.imageOk then .next (s.bootFail 1 2)
    else if bad = 4 then .next (s.bootFail 4 3)
    else if bad = 2 then .next (s.bootFail 2 5)
    else if s.flash.logBroken then .next (s.bootFail 3 5)
    else
      let s := s.stage5 failed
      if s.supervised then .next s.drawKey.stages6to8 else .next (s.bootFail 5 5)

/-- IMAGE_UPDATE_COMMIT (R33): an update writes an image and its signature to the staging area; with `commit` the commit
word goes to the flash header and the image becomes active, if it passes the check. One that fails stays staged, and an
update acts whatever STATE reads (log 91, DESIGN CHOICE). -/
def execImageUpdateCommit (update : ImageUpdate) (s : State) : Out :=
  let f := { s.flash with staged := some (update.image, update.signature) }
  if !s.powered then .next s
  else if update.commit && pssVerify f.key update.image update.signature then
    .next { s with flash :=
      { f with image := update.image, signature := update.signature, staged := none, header := Config.imageCommit } }
  else .next { s with flash := f }

/-! ### Power loss and the flash port (R42, R58) -/

/-- The excursions that a power-down begins: one in each region of a reservation that is switched in (R58, R65). -/
def State.downNow (s : State) : List DownRec :=
  (s.parts.filter fun p => p.2.mhz != 0 && p.2.stage != .out).flatMap fun p => p.2.regions.map fun r =>
    { part := p.1, region := r, mhz := p.2.mhz, start := (vget Region.init s.regions r).cycles, time := s.refTime, dur := none }

/-- The part without power: nothing but flash is left, and the host sees the link go down (R58). -/
def State.dark (s : State) : State :=
  { State.reset with
    flash := { s.flash with down := s.flash.down ++ s.downNow }, powered := false, agenda := s.agenda, freeCtr := s.freeCtr, nextId := s.nextId, refTime := s.refTime
    points := s.points, outs := s.outs ++ [.linkDown], mem := s.mem.filter fun c => 2 ^ 64 ≤ c.1 }

/-- THERMAL_SHUTDOWN (R58): a junction sensor reads 115 °C and the power stages remove power from the module. -/
def execThermalShutdown (s : State) : Out := if s.powered then .next s.dark else .next s

/-- Whether an append may run: in host-assisted mode it waits for its answer (R42, R108). -/
def Append.ready (a : Append) : Bool := a.token.isNone

/-- The flash after power fails during the first append waiting. The record is written 1 without its commit word, 2 with it,
7 in part; 3 a compaction has erased the other bank, 4 it has copied the records and not committed the header (R45); in an
empty log 5 the header of bank A is written in part, 6 it is whole (R40, R42). -/
def Flash.cut (f : Flash) (stage : Nat) (r : Rec) : Flash :=
  let start := f.startBank
  match stage with
  | 1 => if f.mustCompact then f else start.writeRecord (start.numbered r)
  | 2 => f.append r
  | 3 => f.eraseOther
  | 4 => f.eraseOther.copyKept
  | 5 => if f.activeA.isSome then f
    else { f with bankA := { header := some { bankHead 1 with commit := erasedWord }, slots := [] } }
  | 6 => start
  | 7 => if f.mustCompact then f
    else start.setSlots (start.slots ++
      [{ bytes := (start.numbered r).bytes.take 32 ++ List.replicate 32 0xFF, commit := erasedWord }])
  | _ => f

/-- MODULE_POWER_LOSS (R58): power goes while the flash port may be at work on the first append that waits. -/
def execModulePowerLoss (stage : Nat) (s : State) : Out :=
  if !s.powered then .next s
  else match s.appends.find? Append.ready with
    | some a => .next { s with flash := s.flash.cut stage a.record }.dark
    | none => .next s.dark

/-- RETIREMENT_APPEND (R42): the flash port carries out the first append that does not wait for an answer. -/
def execRetirementAppend (s : State) : Out :=
  match s.appends.find? Append.ready with
  | some a => .next { s.appendRec a.record with appends := s.appends.erase a }
  | none => .next s

end Sys2Proof.Machine
end

