-- ==== Sys2Proof/Machine/Checkpoint.lean ====
section
/-!
DEFINITION. Checkpoints (spec/12_recovery.md R234-R241): the image of a tile, closing an interval, its boundary and its
commit.
-/

namespace Sys2Proof.Machine

/-! ### Images (R230, R234) -/

/-- The threads of a site. -/
def tileHarts (site : Nat) : List Nat := (List.range 32).map (site * 32 + ·)
/-- The core keys of a site. -/
def tileCores (site : Nat) : List Nat := (List.range 4).map (site * 4 + ·)
/-- Bytes of an accumulator store (R178). -/
def accBytes : Nat := 98304

/-- Location and size of a tile's usable bonded block, at the tile or at its home (R14, R173). -/
def State.bondedPlace (s : State) (site : Nat) : Nat × Nat :=
  let t := s.tile site
  match t.home with
  | some h => (kBonded h + t.homePart * (44 * 2 ^ 20), t.usable * 2 ^ 20)
  | none => (kBonded site, t.usable * 2 ^ 20)

/-- Whether a tile's NI keeps an item until it is acknowledged, so that an image holds it (R24, R243). -/
def Item.kept (i : Item) : Bool :=
  match i.body with
  | .message _ | .store .. | .ret _ | .frame .. | .push .. | .eqfire _ | .eqdone .. | .deposit .. | .mcmd _ |
    .packet _ => true
  | _ => false

/-- The site of control tile `c` of a partition (R107). -/
def State.ctlSite (s : State) (p c : Nat) : Option Nat := ((s.ctlTiles p)[c]?).map (·.2)

/-- The open packets of a partition's control tile at a site (R107). -/
def State.packetsAt (s : State) (site : Nat) : List Taken :=
  s.taken.filter fun t => t.part != 0 && s.ctlSite t.part t.ctl == some site

/-- The open graph replays of those packets. -/
def State.replaysAt (s : State) (site : Nat) : List Replay :=
  s.replays.filter fun r => (s.packetsAt site).any (·.id == r.packet)

/-- The state of a tile that a checkpoint or a save record holds (R107, R158, R230, R234). -/
def State.image (s : State) (site : Nat) : TileImage :=
  let (b, n) := s.bondedPlace site
  let t := s.tile site
  { rank := t.rank.getD 0, site := site
    tile := { t with log := [], replay := [] }
    cores := (tileCores site).map fun c => (c % 4, s.core c)
    threads := (tileHarts site).map fun h => (h % 32, s.thread h)
    scratch := Memory.slice s.mem (kScratch site) Config.scratchBytes
    bonded := Memory.slice s.mem b n
    accs := Memory.slice s.mem (kAcc site) accBytes
    fullS := KeySet.slice s.full (kScratch site / 8) (Config.scratchBytes / 8)
    fullB := KeySet.slice s.full (b / 8) (n / 8)
    issued := s.net.filter fun i => siteOf i.src == site && i.kept
    at_ := s.eqNow site ((s.partOfSite site).getD 0), taken := s.packetsAt site, replays := s.replaysAt site }

/-- Bytes of the area that is not architected. -/
def plainArea : Nat := 248 * 1024 - 8

/-- The 8 KiB of tile-window bytes from 0x0300_0000 (R178). -/
def State.tileWindow (s : State) (site : Nat) : List Byte :=
  let block (k : Nat) : List Byte :=
    let c := s.core (site * 4 + k)
    c.handlerBytes ++ c.controlBytes ++ bytesOf (0x200 - 0x140) 0
  let low := (List.range 4).flatMap block
  low ++ List.replicate (0x1000 - 0x800) 0 ++ ((s.tile site).lpt.toList.flatMap fun w => bytesOf 8 w.toNat) ++
    List.replicate (0x1000 - 0x80) 0

/-- An image with what the bytes of its areas hold: scratchpad, accumulators, register windows, tile window, the area that is
not architected, bonded block (R230, R234). -/
def TileImage.fromRecord (g : TileImage) (parts : List (List Byte)) : TileImage :=
  let area (i : Nat) : List Byte := parts.getD i []
  let win := area 3
  let core (c : Nat × Core) : Nat × Core :=
    (c.1, (c.2.setHandlers ((win.drop (0x200 * c.1)).take 0x100)).setControl ((win.drop (0x200 * c.1 + 0x100)).take 0x40))
  { g with
    scratch := Memory.writeN [] 0 (area 0)
    accs := Memory.writeN [] 0 (area 1)
    bonded := Memory.writeN [] 0 (area 5)
    threads := g.threads.map fun x => (x.1, x.2.setWindow ((area 2).drop (0x1000 * x.1)))
    cores := g.cores.map core
    tile := { g.tile with lpt := Vector.ofFn fun i => BitVec.ofNat 64 (imgWord (win.drop 0x1000) i.val &&& protMask) } }

/-! ### Closing an interval (R237) -/

/-- The lines of a tile's scratchpad and usable bonded block written since its last boundary. -/
def State.dirtyLines (s : State) (site : Nat) : List Nat :=
  let (b, n) := s.bondedPlace site
  s.dirty.filter fun l =>
    (kScratch site / 64 ≤ l && l < (kScratch site + Config.scratchBytes) / 64) || (b / 64 ≤ l && l < (b + n) / 64)

/-- The records from the last mark on: the mark is the first record of its interval (R235, R238). All of them if there is no
mark. -/
def sinceMark (l : List LogRec) : List LogRec :=
  let after := (l.reverse.takeWhile (·.typ != 9)).reverse
  if after.length = l.length then l else l.drop (l.length - after.length - 1)

/-- Bytes of log records in the open interval (R237). -/
def openBytes (l : List LogRec) : Nat := ((sinceMark l).map LogRec.bytes).sum

/-- Whether a tile takes checkpoints: it is protected, has a buddy and runs (R21, R234). -/
def State.checkpoints (s : State) (site : Nat) : Bool :=
  let t := s.tile site
  t.prot && t.buddy.isSome && t.works && !t.replaying &&
    (match s.partOfSite site with
     | some p => (s.part p).stage == .active || (s.part p).stage == .draining
     | none => false)

/-- Whether a tile's interval is to close (R237). -/
def State.closeDue (s : State) (site : Nat) : Bool :=
  let t := s.tile site
  t.closeReq || t.fullReq || decide (131072 ≤ (s.dirtyLines site).length) || decide (2 * 2 ^ 20 ≤ openBytes t.log) ||
    decide (2 ^ 28 ≤ SMap.get 0 s.instrs site)

/-- INTERVAL_CLOSE (R237): the tile stops starting activations and chunks. -/
def execIntervalClose (site : Nat) (s : State) : Out :=
  let t := s.tile site
  if t.stage == .open_ && s.checkpoints site && s.closeDue site then .next (s.setTile site { t with stage := .closing })
  else .next s

/-! ### The boundary (R238) -/

/-- Whether a thread stands still enough for a boundary (R237). -/
def ThreadStatus.still : ThreadStatus → Bool
  | .free | .parked | .blocked _ => true
  | .running => false

/-- Whether a closing tile has reached its boundary (R237); engines stand at a chunk boundary between any two steps. -/
def State.atBoundary (s : State) (site : Nat) : Bool :=
  (s.tile site).stage == .closing && s.checkpoints site && (tileHarts site).all fun h => (s.thread h).status.still

/-- The firn area of an image (R234): the scratchpad, then 44 MiB of bonded block, as cells from offset 0. -/
def TileImage.firnCells (g : TileImage) : List Host.Cell :=
  Memory.paste (Memory.paste [] 0 (4 * 2 ^ 20) g.scratch) (4 * 2 ^ 20) (44 * 2 ^ 20) g.bonded

/-- The block tag table (R236): the tags of the 12,288 blocks of a firn area, each of the interval that is committed
(log 93, DEDUCED). -/
def State.blockTags (s : State) (ward ival : Nat) (cells : List Host.Cell) : List Byte :=
  (List.range 12288).flatMap fun n =>
    s.tag ward ival (44 * 2 ^ 20 + 4096 * n) (Memory.readN cells (4096 * n) 4096)

/-- Location of state image slot `ival` mod 2 at a buddy (R235). -/
def slotAt (ival : Nat) : Nat := 0x10000 + ival % 2 * 0x90000

/-- The parts of a state image after the accumulators, with their offsets (R234): register windows, tile window, the area
that is not architected, tag table. -/
def imageAreas : List (Nat × Nat) :=
  [(0, accBytes), (0x18000, 0x20000), (0x38000, 0x2000), (0x3A000, plainArea), (0x78000, 12288 * 8)]

/-- The parts of a tile's state image; those of the area that is not architected are free values (log 6, DESIGN CHOICE). -/
def State.imageParts (s : State) (site ival : Nat) (g : TileImage) : List (List Byte) :=
  [s.bytes (kAcc site) accBytes, (tileHarts site).flatMap fun h => (s.thread h).windowBytes, s.tileWindow site,
   (List.range plainArea).map fun i => Config.freeByte (s.freeCtr + i), s.blockTags g.rank ival g.firnCells]

/-- Writes a state image of interval `ival` with its tag, which takes the place of the record's check word (R230, R234, R236,
log 93, DESIGN CHOICE). -/
def State.putImage (s : State) (site buddy ival : Nat) (g : TileImage) : State :=
  let parts := s.imageParts site ival g
  let at_ := kLogArea buddy + slotAt ival
  let s := (imageAreas.zip parts).foldl (fun s x => s.putFirn (at_ + x.1.1) x.2) { s with freeCtr := s.freeCtr + plainArea }
  s.putFirn (at_ + 0x77FF8) (s.tag g.rank ival (logAreaAt + slotAt ival) parts.flatten)

/-- Steps 1 to 3 of R238: the mark, the image of the interval, and the next interval is open. -/
def State.boundary (s : State) (site : Nat) : State :=
  let t := s.tile site
  let p := (s.partOfSite site).getD 0
  let lines := s.dirtyLines site
  let q := (s.part p).quanta + 1
  let s := s.setTile site { t with
    ival := t.ival + 1, stage := .copying, closeReq := false, fullReq := false, rq := q, markQ := q, logMark := t.logHead }
  let s := s.log site 9 [BitVec.ofNat 64 (t.ival + 1), 0] none 16
  let img := if s.det p then { s.image site with at_ := q } else s.image site
  let f : Firn := { ward := img.rank, ival := t.ival, image := img }
  let s := match t.buddy with | some b => s.putImage site b t.ival img | none => s
  { s with
    firns := f :: s.firns.filter fun x => x.ward != img.rank || x.ival % 2 != t.ival % 2
    dirty := s.dirty.filter fun l => !lines.contains l
    instrs := SMap.del s.instrs site }

/-- CHECKPOINT_BOUNDARY (R238); a deterministic partition reaches boundaries at quantum ends (R237). -/
def execCheckpointBoundary (site : Nat) (s : State) : Out :=
  if s.atBoundary site && !s.det ((s.partOfSite site).getD 0) then .next (s.boundary site) else .next s

/-! ### The commit (R238) -/

/-- Writes the header of a committed interval at a buddy (R235, R238 step 5): IVAL, COMMIT, LOGSTART, TAG. -/
def State.putHeader (s : State) (ward buddy ival start : Nat) : State :=
  let head := bytesOf 8 ival ++ bytesOf 4 ival ++ bytesOf 4 0x4649524E ++ bytesOf 8 start
  s.putFirn (kLogArea buddy) (head ++ s.tag ward ival logAreaAt head)

/-- Step 4 of R238: the interval's lines stand in the firn area; a line that was written since keeps its boundary contents. -/
def State.putArea (s : State) (ward buddy ival : Nat) : State :=
  match s.firns.find? fun f => f.ward == ward && f.ival == ival with
  | some f => { s with firnMem := Memory.paste s.firnMem (kFirn buddy) (48 * 2 ^ 20) f.image.firnCells }
  | none => s

/-- Steps 4 to 6 of R238: the commit, the release of the interval's committed egress and notices, and the ring space. -/
def State.commitInterval (s : State) (site : Nat) : State :=
  let t := s.tile site
  let n := t.ival - 1
  let log : List LogRec := sinceMark t.log
  let s := match t.buddy with
    | some b => (s.putArea (t.rank.getD 0) b n).putHeader (t.rank.getD 0) b n t.logMark
    | none => s
  let s := (s.setTile site { t with
    stage := .open_, log := log, logBytes := (log.map LogRec.bytes).sum
    notices := t.notices.filter fun x => n < x.interval }).forgetLines (t.rank.getD 0) n
  let s := (t.notices.filter fun x => x.interval ≤ n).foldl State.sendNotice s
  s.release site n

/-- INTERVAL_COMMIT (R238): the buddy has acknowledged every write of the interval. -/
def execIntervalCommit (site : Nat) (s : State) : Out :=
  if (s.tile site).stage == .copying && s.checkpoints site then .next (s.commitInterval site) else .next s

end Sys2Proof.Machine
end

