-- ==== Sys2Proof/Machine/Replay.lean ====
section
/-!
DEFINITION. The start of a quantum on a tile (spec/06_scheduler.md R123, R125), and the replay of a tile's message log
(spec/12_recovery.md R243).
-/

namespace Sys2Proof.Machine

/-! ### Quanta on one tile (R123, R125) -/

/-- Whether a thread of a deterministic partition has reached the quantum (R123); waits that are tested at the start of a
quantum have been tested. -/
def State.reached (s : State) (h : Nat) : Bool :=
  let t := s.thread h
  !t.overdue &&
    match t.status with
    | .free | .parked => true
    | .running => (t.act.isNone && t.priv == .U) || decide ((s.part (s.partOfHart h)).qlen / 8 ≤ t.qret)
    | .blocked .response => false
    | .blocked w => !w.polls || t.qdone

/-- A thread at the start of a quantum: it may retire Q/8 instructions again, and goes on if what it waited for has come
(R123, R125). -/
def Thread.nextQuantum (t : Thread) : Thread :=
  { t with qret := 0, qdone := false, status := match t.status with
      | .blocked w => if t.resp.isSome then .running else .blocked w
      | x => x }

/-- Fills the free slots of a core in ascending thread order (R115, R125). -/
def State.fillSlots (s : State) (core : Nat) : State :=
  if !s.mayFill core then s
  else
    let s := (List.range 8).foldl (fun s k =>
      if s.slotFree (core * 8 + k) then (s.fillThread core (core * 8 + k)).getD s else s) s
    if (s.freeSlot core).isSome && !(s.tile (core / 4)).replaying then s.beginSteal core else s

/-- The quantum starts on a tile (R125, R157, R170). -/
def State.startTile (s : State) (site : Nat) : State :=
  let s := (tileHarts site).foldl (fun s h =>
    if s.threads.any (·.1 == h) then s.setThread h (s.thread h).nextQuantum else s) s
  let t := s.tile site
  let now := s.eqNow site ((s.partOfSite site).getD 0)
  let s := s.setTile site { t with eqs := t.eqs.map fun q =>
    (q.1, { q.2.noteTop now with statusAtQ := q.2.status now }) }
  (tileCores site).foldl State.fillSlots s

/-- The firings of a tile at a quantum end (R166): at most four batches in flight. -/
def State.fireTile (s : State) (site : Nat) : Nat → State
  | 0 => s
  | n + 1 =>
    match s.nextQueue site with
    | none => s
    | some (i, q) => (s.fire site i q).fireTile site n

/-! ### Performing a logged item (R243) -/

/-- Runs a step of a tile's NI as it ran before the tile failed: its door is open, its partition has completed the quanta that the
tile has replayed (R158), nothing is logged again, and nobody is answered a second time. -/
def State.bypass (s : State) (site : Nat) (f : State → State) : State :=
  let t := s.tile site
  let at_ (n : Nat) (s : State) : State :=
    match s.partOfSite site with | some p => s.setPart p { s.part p with quanta := n } | none => s
  let old := (s.part ((s.partOfSite site).getD 0)).quanta
  let s' := f ((at_ t.rq s).setTile site { t with replaying := false, prot := false })
  let s' := at_ old (s'.setTile site { s'.tile site with replaying := true, prot := t.prot })
  { s' with net := s'.net.filter fun i => i.ord < s.ordCtr ||
      (match i.body with | .ack .. | .response .. | .spawnAns _ => false | _ => true) }

/-- The home notes again the write of an engine's command that it has logged (R243, R376). -/
def State.markLine (s : State) (site : Nat) (i : Item) : State :=
  let rank := i.srank / 32
  if i.seq = 0 then s
  else s.noteLine (.site site) (.line rank (i.seq - 1) i.act) (((s.siteOfRank rank).map fun x => (s.tile x).ival).getD 0)

/-- A logged item as it is delivered: one that had passed its receiver's filter when it was logged passes it again (R125). -/
def Item.logged (i : Item) : Item := { i with stage := if i.passed then .collected else .waiting }

/-- Whether an item stays with its sender while its receiver has no room for it. -/
def Item.needsRoom (i : Item) : Bool :=
  match i.body with
  | .message _ | .frame .. | .push .. | .eqfire _ | .eqdone .. | .mcmd _ => true
  | _ => false

/-- A logged item at its receiver once more: none if the receiver has no room for it now. -/
def State.offerLogged (s : State) (site : Nat) (i : Item) : Option State :=
  let j := { i with ord := s.ordCtr }
  let s' := s.bypass site fun s => (s.emit j).offer j true
  if s'.net.any fun k => k.ord == j.ord then (if j.needsRoom then none else some (s'.dropItem j.ord)) else some s'

/-- A logged item is delivered, queued or performed; none while there is no room for it yet. -/
def State.deliverLogged (s : State) (site : Nat) (i : Item) : Option State :=
  let i := i.logged
  match i.body with
  | .deposit a slot bs _ _ => some (s.bypass site fun s => (s.offerDeposit i a slot bs).2)
  | .ret (.read _) => some s
  | .store a bs fe =>
    some (s.bypass site fun s =>
      if i.counted then s.offer i true
      else if bitsN a 63 62 = 1 then (s.winWrite (.tile site) true (a % 2 ^ 32) bs).2
      else match s.resolve i.part a none none with
        | (.ok k, s) => (if fe then s.putEngine k bs else s.putMem k bs).markLine site i
        | (_, s) => s)
  | .packet w => some (s.bypass site fun s => s.configureEq i.part w)
  | .frame _ _ =>
    match i.dst with
    | .core lc => if (s.core (site * 4 + lc % 4)).takesFrame then s.offerLogged site i else none
    | _ => some s
  | _ => s.offerLogged site i

/-- Whether a logged completion message of one of the tile's own engines may be delivered: its command, issued again, has ended
(R244, log 34, DEDUCED). A floe's commands are not issued again. -/
def Tile.engineEnded (t : Tile) (i : Item) : Bool :=
  match i.body with
  | .message m =>
    match m.dom with
    | .engine r tag k =>
      t.rank != some r || (vget 0 m.payload 0).toNat % 16 == 2 ||
        !((k == 3 && t.openTags.1.contains tag) || (k == 4 && t.openTags.2.contains tag))
    | _ => true
  | _ => true

/-- An item that a replaying tile has sent to itself again: one that it had accepted is dropped, and a message acknowledged
(R243). -/
def State.dropRepeat (s : State) (site : Nat) (i : Item) : State :=
  let t := s.tile site
  let known : Bool := i.seq != 0 && !t.fresh (s.itemDomain i) i.seq
  match i.body, i.dst with
  | .message m, .core lc =>
    if t.freshMsg m (lc % 4) then s
    else (s.dropItem i.ord).acknowledge i lc m.hdr.chan ((s.core (site * 4 + lc % 4)).free m.hdr.chan)
  | .store .., _ | .push .., _ | .eqfire _, _ | .eqdone .., _ => if known then s.dropItem i.ord else s
  | _, _ => s

/-- Drops what a replaying tile has sent to itself again and had accepted. -/
def State.dropRepeats (s : State) (site : Nat) : State :=
  let mine (i : Item) : Bool := siteOf i.src == site && some i.target == (s.tile site).rank && !i.acked
  (s.net.filter mine).foldl (fun s i => s.dropRepeat site i) s

/-! ### Logged responses, block data and starts (R243) -/

/-- Whether a thread waits for a logged response. -/
def State.wantsLogged (s : State) (h : Nat) (i : Item) : Bool :=
  match (s.thread h).status, i.body with
  | .blocked .response, .response .. => true
  | .parked, .response .. => true
  | .blocked .spawn, .spawnAns _ => true
  | _, _ => false

/-- A logged response takes effect, on the own memory too where the thread waits at it: the request the thread has issued again, and a response kept for it, are not needed;
a request that was parked stays with its NI (R219, R221). -/
def State.answerLogged (s : State) (h : Nat) (i : Item) : State :=
  let t := s.thread h
  let mine (j : Item) : Bool := j.src == h &&
    (match j.body, i.body with
     | .ret _, .response .. => true
     | .response .., .response .. => true
     | .frame .., .spawnAns _ => true
     | .spawnAns _, .spawnAns _ => true
     | _, _ => false)
  let perform (s : State) : State :=
    match s.net.find? mine with
    | some j =>
      match j.body, j.dst with
      | .ret op, .site x => (s.performAt op op.addr (j.sender (.site x))).2
      | _, _ => s
    | none => s
  match i.body with
  | .response cause a wr r _ =>
    if cause = 8 then
      let net := s.net.map fun j => if mine j && j.ord + 1 == t.req then { j with stage := .held (a / 65536 * 65536) } else j
      { s with net := net }.setThread h (t.park a wr)
    else
      let s := perform s
      let s := { s with net := s.net.filter fun j => !mine j }
      if cause = 0 then s.setThread h (t.resume r)
      else s.raiseAt h cause (BitVec.ofNat 64 a)
  | .spawnAns ok =>
    { s with net := s.net.filter fun j => !mine j }.setThread h
      { t with resp := some { value := if ok then 0 else 1, data := [] }
               status := if s.det (s.partOfHart h) then t.status else .running }
  | _ => s

/-- The copy channel whose block read a record belongs to. -/
def State.logChannel (s : State) (site : Nat) (id : Word) : Option (Nat × Xfer) :=
  (List.range 4).findSome? fun c =>
    match vget none (s.tile site).xfers c with
    | some x => if x.op == .rdblk && s.xferId x == id then some (c, x) else none
    | none => none

/-- A logged chunk of a block read lands: one line or more. -/
def State.landLogged (s : State) (site ch : Nat) (x : Xfer) (r : LogRec) : State :=
  let a := (r.body.getD 1 0).toNat
  let bs := (r.body.drop 2).flatMap fun w => bytesOf 8 w.toNat
  let first := (a - x.dst.toNat) / 64
  match s.linePieces site first 0 x.dst (cutRow a bs) 0 x with
  | (_, x, s) => s.setXfer site ch (some { x with done := x.done ++ (List.range (bs.length / 64)).map (first + ·) })

/-- The channel of a core whose queue holds a message id that no activation runs. -/
def Core.channelOf (c : Core) (mid : Word) : Option (Nat × Msg) :=
  (List.range 16).findSome? fun k =>
    ((c.chan k).queue.find? fun e => !e.2 && e.1.mid == mid).map fun e => (k, e.1)

/-- A logged start: the activation runs on the thread the record names (R241, R243). -/
def State.startLogged (s : State) (site : Nat) (mid : Word) (slot : Nat) : Option State :=
  let h := site * 32 + slot
  let core := coreOf h
  let c := s.core core
  if !s.slotFree h then none
  else match c.channelOf mid with
    | some (k, m) => some ((s.setCore core (c.takeHead k m)).startMsg h m (c.handler k))
    | none =>
      match c.deque.find? fun f => msgId f.sdev f.pusher f.seq == mid with
      | some f => some ((s.setCore core { c with deque := c.deque.erase f }).startFrame h f)
      | none => none

/-- A logged steal: a frame that came to the tile, or one that it gave away (R241, log 34, DEDUCED). -/
def State.stealLogged (s : State) (site : Nat) (r : LogRec) : State :=
  match r.item.map Item.body with
  | some (.frame f _) =>
    if r.body.isEmpty then
      match r.item.map Item.dst with
      | some (.core lc) =>
        let key := site * 4 + lc % 4
        let s := (s.countRecv site f.job 1).pushFrame key f
        s.setCore key { s.core key with steal := none }
      | _ => s
    else
      let key := site * 4 + (r.body.getD 1 0).toNat
      let c := s.core key
      (s.countSent site f.job 1).setCore key { c with deque := c.deque.erase f }
  | _ => s

/-- Whether the frame that a logged steal takes away is there (R244). -/
def State.stealReady (s : State) (site : Nat) (r : LogRec) : Bool :=
  match r.item.map Item.body with
  | some (.frame f _) => r.body.isEmpty || (s.core (site * 4 + (r.body.getD 1 0).toNat)).deque.contains f
  | _ => true

/-! ### Packets of a recovered control tile (R107, log 61, DEDUCED) -/

/-- The partition that holds a job (R104). -/
def State.jobOwner (s : State) (j : Nat) : Option Nat := (s.parts.find? fun p => (p.2.job j).isSome).map (·.1)

/-- The job of a launch is held from its first launch on (R91, R104, R143): false if another partition holds it. -/
def State.holdJob (s : State) (t : Taken) (members : List Nat) : Bool × State :=
  match s.jobOwner t.job with
  | some p => (p == t.part, s)
  | none =>
    let x := s.part t.part
    let j : Job := { num := t.job, errCore := members.head?, lastWave := none, launched := true }
    (true, s.setPart t.part { x with jobs := x.jobs ++ [j] })

/-- A packet of a graph replay that is taken again: its replay stands after it; `top` is the replay's own packet, `count` its
number of packets (R95). -/
def State.replayAgain (s : State) (t : Taken) (id top count : Nat) : State :=
  let next (r : Replay) : Replay := if r.id = id then { r with started := true, next := max r.next (t.idx + 1) } else r
  if s.replays.any (·.id == id) then { s with replays := s.replays.map next }
  else match s.taken.find? (·.id == top) with
    | none => s
    | some x =>
      let r : Replay :=
        { id := id, packet := top, part := t.part, graph := (x.word 2).toNat, patch := x.patch, started := true
          next := t.idx + 1, count := count }
      { s with replays := s.replays ++ [r] }.setPacket top .running

/-- QREAD of the queue of a packet that is taken again moves past it, unless the queue has been enabled again since (R84, R107). -/
def State.passAgain (s : State) (t : Taken) : State :=
  match t.src with
  | .vf fn q =>
    let key := fn * 16 + q
    let r := SMap.get QRegs.init s.queues key
    if r.enables = t.era && seqLater (t.idx + 1) r.qread.toNat then
      { s with queues := SMap.put s.queues key { r with qread := BitVec.ofNat 32 (t.idx + 1) } }
    else s
  | _ => s

/-- A packet that a control tile took after its last commit is taken again, in its place among those of other tiles (R96), with its
assist request if the host still has one. -/
def State.retake (s : State) (t : Taken) (body : List Word) : State :=
  let stage : PStage := match s.assists.find? fun a => a.obj == t.id && (a.func == 0 || a.func == 1 || a.func == 3) with
    | some a => .held a.token
    | none => .ready
  let s := if t.typ = 1 then (s.holdJob t t.members).2 else s
  let s := s.passAgain t
  let s := { s with taken := sortBy (fun a b => a.id < b.id) (s.taken ++ [{ t with stage := stage }]) }
  match t.src with
  | .graph id => s.replayAgain t id (body.getD 0 0).toNat (body.getD 1 0).toNat
  | _ => s

/-- A packet that has failed since the last commit is not taken again: its error stands. -/
def State.forgetPacket (s : State) (id : Nat) : State :=
  { s with taken := s.taken.filter (·.id != id), replays := s.replays.filter (·.packet != id) }

/-- A packet whose effects had been performed after the last commit repeats none of them; its thread's number stands where it stood
(R81, R107, R137). -/
def State.performedAgain (s : State) (site id seq : Nat) : State :=
  let h := site * 32 + 31
  let taken : List Taken := s.taken.map fun t => if t.id == id then { t with again := true } else t
  { s with taken := taken }.setThread h { s.thread h with seq := BitVec.ofNat 32 seq }

/-- A logged launch message of the command processor is sent again with its number, unless its wave still holds it; its packet
runs. -/
def State.relaunch (s : State) (site : Nat) (i : Item) (packet : Nat) : State :=
  let h := site * 32 + 31
  let s := s.setPacket packet .running
  let s := (s.setThread h { s.thread h with seq := BitVec.ofNat 32 i.seq }).countSent site i.job 1
  let waits := s.waves.any fun w => w.rest.any fun r => r.2.any fun j => j.srank == i.srank && j.seq == i.seq
  if waits then s else s.emit { i with src := h }

/-- A logged atomic on the tile's own memory that a thread issued by a translated address: it is performed, and its response
follows in the log (R241, R243). None if no such thread waits: the record is for a local address. -/
def State.atomicLogged (s : State) (site : Nat) (r : LogRec) : Option State :=
  let mine (i : Item) : Bool :=
    siteOf i.src == site && s.midOf i.src == r.body.getD 0 0 && BitVec.ofNat 64 (s.thread i.src).nAtomic == r.body.getD 1 0 &&
      (match i.body with | .ret op => op.ownAtomic i (s.homePlace i.part op.addr) | _ => false)
  match s.net.find? mine with
  | none => none
  | some i =>
    match i.body with
    | .ret op =>
      match s.resolve i.part op.addr op.wkind i.cap with
      | (.ok k, s) =>
        some (s.bypass site fun s => ((s.performAt op k (i.sender (.site site))).2).ownTaken (.site site) i 0)
      | (.bad _, s) => some s
    | _ => none

/-- A barrier arrival that the tile had counted (R324). -/
def State.barrierLogged (s : State) (site : Nat) (i : Item) : State :=
  match i.body with
  | .barrier p g inst lc => s.countBarrier site p g inst lc
  | _ => s

/-! ### The pump -/

/-- Runs one record on a tile that can take it now; none if the tile is not there yet. Records of types 7 and 8 wait for
their instruction. -/
def State.runRecord (s : State) (site : Nat) (r : LogRec) : Option State :=
  match r.typ with
  | 1 =>
    match r.item with
    | some i => if s.caughtUp site r.seen && (s.tile site).engineEnded i then s.deliverLogged site i else none
    | none => some s
  | 2 | 3 =>
    match r.item with
    | some i =>
      let h := hartOfMid site (r.body.getD 0 0)
      if s.wantsLogged h i then some (s.answerLogged h i) else none
    | none => if r.body.getD 1 0 == noOffset then some s else (s.logChannel site (r.body.getD 0 0)).map fun x => s.landLogged site x.1 x.2 r
  | 4 => s.startLogged site (r.body.getD 0 0) (r.body.getD 1 0).toNat
  | 5 | 11 => if s.stealReady site r then some (s.stealLogged site r) else none
  | 6 =>
    let n := (r.body.getD 0 0).toNat % 64
    let q := (s.tile site).eq n
    if q.ring.isEmpty then none else some (s.fire site n q)
  | 8 => s.atomicLogged site r
  | 9 => some s
  | 10 => r.item.map fun i => s.relaunch site i (r.body.getD 0 0).toNat
  | 12 => r.item.map (s.barrierLogged site)
  | 13 => r.taken.map fun t => s.retake t r.body
  | 14 => some (((r.taken.map s.passAgain).getD s).forgetPacket (r.body.getD 0 0).toNat)
  | 15 => some s
  | 16 => some (s.performedAgain site (r.body.getD 0 0).toNat (r.body.getD 1 0).toNat)
  | _ => none

/-- Takes a record off a tile's replay. -/
def State.dropRecord (s : State) (site : Nat) (r : LogRec) : State :=
  let t := s.tile site
  s.setTile site { t with replay := t.replay.erase r }

/-- One record of a normal-mode replay: the first one. -/
def State.pumpNormal (s : State) (site : Nat) : Option State :=
  match (s.tile site).replay with
  | [] => none
  | r :: _ => (s.runRecord site r).map fun s => s.dropRecord site r

/-- Whether a record may run inside a quantum: a response its thread is blocked for, or block data. -/
def State.midQuantum (s : State) (site : Nat) (r : LogRec) : Bool :=
  match r.typ, r.item with
  | 2, some i | 3, some i =>
    let h := hartOfMid site (r.body.getD 0 0)
    i.stage != .collected && (s.thread h).status == .blocked .response && s.wantsLogged h i
  | 3, none => r.body.getD 1 0 == noOffset || (s.logChannel site (r.body.getD 0 0)).isSome
  | 8, _ => (s.atomicLogged site r).isSome
  | _, _ => false

/-- Whether a record is of a fire message, which comes after the firings of a quantum's end (R166). -/
def LogRec.fires (r : LogRec) : Bool :=
  r.typ == 1 && (match r.item.map Item.body with | some (.message m) => m.hdr.kind == 2 | _ => false)

/-- Whether a record is of an item that a quantum's end served in its place among others (R125). -/
def LogRec.served (r : LogRec) : Bool := r.typ == 1 && !r.fires && (r.item.map fun i => i.stage == .collected).getD false

/-- The place of a record among those of a quantum's end: the EQFIREs after the rest (R125, R166). -/
def servedFirst (a b : LogRec) : Bool :=
  let late (r : LogRec) : Bool := match r.item.map Item.body with | some (.eqfire _) => true | _ => false
  match a.item, b.item with
  | some i, some j => if late a == late b then servedBefore i j else late b
  | _, _ => false

/-- A record of a quantum's end is run if its item finds room, else it is offered again at the next one (R125). -/
def State.serveLogged (s : State) (site : Nat) (r : LogRec) : State :=
  match s.runRecord site r with
  | some s' => s'.dropRecord site r
  | none => s

/-- A record of a quantum that is run with the threads of the tile at its end: one that nothing waits for any more is dropped. -/
def State.runDue (s : State) (site : Nat) (r : LogRec) : Option State :=
  if r.served || r.fires then none
  else match s.runRecord site r with
    | some s' => some (s'.dropRecord site r)
    | none => if r.typ = 1 then none else some (s.dropRecord site r)

/-- The end of a replayed quantum, and the start of the next (R125, R166). -/
def State.endReplayed (s : State) (site : Nat) (now : List LogRec) : State :=
  let s := (sortBy servedFirst (now.filter LogRec.served)).foldl (fun s r => s.serveLogged site r) s
  let s := (now.filter LogRec.fires).foldl (fun s r => s.serveLogged site r) (s.fireTile site 4)
  let s := s.setTile site { s.tile site with rq := (s.tile site).rq + 1 }
  s.startTile site

/-- One step of a deterministic replay: what a thread of the tile waits for inside the quantum; at the tile's quantum end
the records of that quantum in order, those that were served, the firings, and the start of the next quantum (R125, R243). -/
def State.pumpDet (s : State) (site p : Nat) : Option State :=
  let t := s.tile site
  match t.replay.find? (s.midQuantum site) with
  | some r => (s.runRecord site r).map fun s => s.dropRecord site r
  | none =>
    if !(tileHarts site).all s.reached then none
    else
      let now := t.replay.filter fun r => r.qn + t.markQ ≤ t.rq + 1 && r.typ != 8
      match now.findSome? (s.runDue site) with
      | some s => some s
      | none => if t.rq < (s.part p).quanta then some (s.endReplayed site now) else none

/-- Replays as much of a tile's log as can run now; `n` bounds the records. -/
def State.pump (s : State) (site : Nat) : Nat → State
  | 0 => s
  | n + 1 =>
    let p := (s.partOfSite site).getD 0
    let next := if s.det p then s.pumpDet site p else s.pumpNormal site
    match next with
    | some s => s.pump site n
    | none => s

/-- Every tile that replays its log goes on with it. -/
def State.pumpAll (s : State) : State :=
  (s.tiles.filter fun t => t.2.replaying && !t.2.awaits).foldl (fun s t =>
    (s.pump t.1 (2 * t.2.replay.length + 1)).dropRepeats t.1) s

end Sys2Proof.Machine
end

