-- ==== Sys2Proof/Machine/Power.lean ====
section
/-!
DEFINITION. Power regions (spec/03_power.md R49-R65): throttles and timing excursions, the current governor, the launch
wave.
-/

namespace Sys2Proof.Machine

/-- A power region; one that does not exist is as after reset. -/
def State.reg (s : State) (region : Nat) : Region := vget Region.init s.regions region
/-- Sets a power region. -/
def State.setReg (s : State) (region : Nat) (r : Region) : State := { s with regions := vset s.regions region r }

/-! ### Timing excursions (R65) -/

/-- The number of a throttle cause (R57, R65). -/
def Throttle.code : Throttle → Nat
  | .droop => 1
  | .thermal => 2
  | .power => 3

/-- The reservation partition that holds a region, while it is switched in. -/
def State.reservation (s : State) (region : Nat) : Option Nat :=
  (s.parts.find? fun p => p.2.mhz != 0 && p.2.stage != .out && p.2.regions.contains region).map (·.1)

/-- The record of an excursion that has ended (R65): `start` in cycles, `dur` in units of 10 ns, `lost` in cycles. -/
def State.recordExcursion (s : State) (p region cause start dur lost : Nat) : State :=
  let q := (s.part p).excSeq + 1
  let s := s.setPart p { s.part p with excSeq := q }
  s.recordOwn p (bytesOf 2 1 ++ bytesOf 1 region ++ bytesOf 1 cause ++ bytesOf 4 p ++ bytesOf 8 (start % 2 ^ 64) ++
    bytesOf 4 (min dur 0xFFFFFFFF) ++ bytesOf 4 (min lost 0xFFFFFFFF) ++ bytesOf 8 q)

/-- Cycles that a region has lost since it stood at `start` against a setting, over `dur` units of 10 ns (R65). -/
def Region.lost (r : Region) (mhz start dur : Nat) : Nat := dur * mhz / 100 - (r.cycles - start)

/-- Counts an excursion in EXCUR of a region (R53, R65). -/
def State.countExcursion (s : State) (region : Nat) : State :=
  let r := s.reg region
  s.setReg region { r with excur := min (r.excur + 1) 0xFFFF }

/-! ### Throttles (R57) -/

/-- A cause trips: the first one starts the throttle and, in a reservation, an excursion. -/
def State.trip (s : State) (region : Nat) (c : Throttle) : State :=
  let r := s.reg region
  if r.causes.contains c then s
  else if r.causes.isEmpty then
    let s := s.setReg region { r with causes := [c], first := c.code, startC := r.cycles, startT := s.refTime }
    if (s.reservation region).isSome then s.countExcursion region else s
  else s.setReg region { r with causes := r.causes ++ [c] }

/-- The excursion of a throttled region of a reservation ends: its record (R65). -/
def State.endExcursion (s : State) (p region : Nat) : State :=
  let r := s.reg region
  let dur := s.refTime - r.startT
  s.recordExcursion p region r.first r.startC dur (r.lost r.mhz r.startC dur)

/-- A reservation takes regions that are throttled: an excursion of its own begins in each (R65, log 86, DEDUCED). -/
def State.beginExcursions (s : State) (regions : List Nat) : State :=
  (regions.filter fun k => !(s.reg k).causes.isEmpty).foldl (fun s k =>
    (s.setReg k { s.reg k with startC := (s.reg k).cycles, startT := s.refTime }).countExcursion k) s

/-- A reservation gives up regions that are throttled: its excursions in them end (R65, log 86, DEDUCED). -/
def State.endExcursions (s : State) (p : Nat) : State :=
  if (s.part p).mhz = 0 then s
  else ((s.part p).regions.filter fun k => !(s.reg k).causes.isEmpty).foldl (fun s k => s.endExcursion p k) s

/-- A cause clears: the last one ends the throttle and the excursion (R57, R65). -/
def State.clearCause (s : State) (region : Nat) (c : Throttle) : State :=
  let r := s.reg region
  if !r.causes.contains c then s
  else
    let s := s.setReg region { r with causes := r.causes.erase c }
    if r.causes.length = 1 then
      match s.reservation region with
      | some p => s.endExcursion p region
      | none => s
    else s

/-- DROOP_TRIP (R57). -/
def execDroopTrip (region : Nat) (s : State) : Out := .next (s.trip region .droop)
/-- DROOP_CLEAR (R57). -/
def execDroopClear (region : Nat) (s : State) : Out := .next (s.clearCause region .droop)
/-- THERMAL_TRIP (R57). -/
def execThermalTrip (region : Nat) (s : State) : Out := .next (s.trip region .thermal)
/-- THERMAL_CLEAR (R57). -/
def execThermalClear (region : Nat) (s : State) : Out := .next (s.clearCause region .thermal)
/-- POWER_CAP_TRIP (R57). -/
def execPowerCapTrip (region : Nat) (s : State) : Out := .next (s.trip region .power)
/-- POWER_CAP_CLEAR (R57). -/
def execPowerCapClear (region : Nat) (s : State) : Out := .next (s.clearCause region .power)

/-! ### Foreign spares (R65) -/

/-- A logical tile of a reservation is bound to a spare outside its regions: an excursion begins. -/
def State.foreignStart (s : State) (p l site : Nat) : State :=
  let x := s.part p
  let region := regionOf site
  if x.mhz = 0 || x.regions.contains region then s
  else
    let e := (l, region, (s.reg region).cycles, s.refTime)
    (s.setPart p { x with foreign := x.foreign ++ [e] }).countExcursion region

/-- The excursion of a foreign spare ends with its binding. -/
def State.foreignEnd (s : State) (p l : Nat) : State :=
  let x := s.part p
  match x.foreign.find? (·.1 == l) with
  | none => s
  | some (_, region, startC, startT) =>
    let dur := s.refTime - startT
    let lost := (s.reg region).lost x.mhz startC dur
    (s.setPart p { x with foreign := x.foreign.filter (·.1 != l) }).recordExcursion p region 4 startC dur lost

/-! ### The governor (R55, R56) -/

/-- GOVERNOR_WINDOW (R55): a window begins for which the region's estimate is `estimate` amperes, and draws `drawn`. A
start that the governor defers changes only when things happen; HOLDS counts the window. -/
def execGovernorWindow (region estimate drawn : Nat) (s : State) : Out :=
  let r := s.reg region
  let holds := if r.current + r.limit < estimate then min (r.holds + 1) 0xFFFF else r.holds
  .next (s.setReg region { r with holds := holds, current := drawn })

/-- CSTEPLIM as it reads (R56). -/
def Region.cstepWord (r : Region) : Word := BitVec.ofNat 64 (r.holds * 2 ^ 32 + r.limit)

/-- CSTEPLIM_WRITE (R56): HOLDS clears where ones are written; LIMIT stays. -/
def execCsteplimWrite (region : Nat) (val : Word) (s : State) : Out :=
  let r := s.reg region
  let ones := bitsN val.toNat 47 32
  .next (s.setReg region { r with holds := r.holds &&& (0xFFFF ^^^ ones) })

/-! ### The launch wave (R54) -/

/-- The chain of the launch wave (R54). -/
def chain : List Nat := [0, 1, 2, 3, 7, 6, 5, 4, 8, 9, 10, 11, 15, 14, 13, 12]

/-- Sends the items of a wave that a region delivers. -/
def State.emitAll (s : State) (l : List Item) : State := l.foldl State.emit s

/-- LAUNCH_WAVE_FORWARD (R54): the `k`-th wave goes on to its next region. The members left
when their partition is being switched out wait (R229). -/
def execLaunchWaveForward (k : Nat) (s : State) : Out :=
  match nth s.waves k with
  | none => .next s
  | some w =>
    let held := s.taken.any fun t => t.id == w.packet && (s.part t.part).stage != .active
    if held then .next s
    else match w.rest with
    | [] => .next { s with waves := dropNth s.waves k }
    | (_, items) :: rest =>
      let ws := if rest.isEmpty then dropNth s.waves k else setNth s.waves k { w with rest := rest }
      .next ({ s with waves := ws }.emitAll items)

end Sys2Proof.Machine
end

