-- ==== Sys2Proof/Machine/Recovery.lean ====
section
/-!
DEFINITION. Failures and tile recovery (spec/12_recovery.md R242-R246, spec/09_memory.md R197-R199, spec/01_wafer.md
R17, R21, R24): the failure of a site, the takeover by a spare, the restore of its firn copy.
-/

namespace Sys2Proof.Machine

/-! ### Appends to the retirement log in service (R42, R108) -/

/-- The first orphan of a home: that of its lowest partition (R42, R174). -/
def State.firstOrphan (s : State) (home : Nat) : Option Nat :=
  ((s.tiles.filter fun t => t.2.home == some home).foldl (fun b t =>
    match b with
    | some o => if t.2.homePart < (s.tile o).homePart then some t.1 else b
    | none => some t.1) (none : Option Nat))

/-- The partition whose mode decides an append for a site (R42). Where only a partition that is switched out holds its logical
number, hardware mode applies (log 102, DESIGN CHOICE). -/
def State.appendPart (s : State) (site : Nat) : Option Nat :=
  if (s.tile site).rank.isSome then s.partOfSite site
  else match s.tiles.find? (·.2.buddy == some site) with
    | some w => s.partOfSite w.1
    | none => (s.firstOrphan site).bind s.partOfSite

/-- Asks the flash port for a record; in host-assisted mode it waits for the answer (R42, R109). -/
def State.askAppend (s : State) (p : Option Nat) (site : Nat) (r : Rec) : State :=
  match p with
  | some p =>
    if (s.part p).assisted 5 then
      let tok := s.nextId
      let s := s.assistFor 5 p (BitVec.ofNat 64 (coordOf site)) site
      { s with appends := s.appends ++ [{ record := r, token := some tok }] }
    else { s with appends := s.appends ++ [{ record := r, token := none }] }
  | none => { s with appends := s.appends ++ [{ record := r, token := none }] }

/-! ### Buddies in service (R21) -/

/-- The firn copy of a ward is no longer there. -/
def State.dropFirn (s : State) (ward : Nat) : State :=
  { s with firns := s.firns.filter fun f => some f.ward != (s.tile ward).rank }

/-- A ward takes a full interval: until it commits there is no valid firn copy, and firn and log areas of its buddy are
empty (R21). -/
def State.fullInterval (s : State) (ward : Nat) : State :=
  let t := s.tile ward
  let s := s.setTile ward { t with fullReq := true, log := [], logBytes := 0, logHead := 0, logMark := 0, stage := .open_ }
  let s := match t.buddy with | some b => s.emptyFirn b | none => s
  s.dropFirn ward

/-- The ward of a site gets another buddy (R21). -/
def State.reassignBuddy (s : State) (old : Nat) : State :=
  match s.tiles.find? (·.2.buddy == some old) with
  | none => s
  | some w => ((s.leaveBuddy w.1).giveBuddy w.1 old).fullInterval w.1

/-- A region whose supervisor has failed takes another (R46, R242): one that was a buddy gives up that role (R20). -/
def State.superviseNow (s : State) (region : Nat) : State :=
  let s := s.supervise region
  let s := (s.tiles.filter fun t => t.2.role == .supervisor && regionOf t.1 == region).foldl (fun s t => s.runUbnar t.1) s
  (s.tiles.filter fun t => t.2.role == .supervisor && regionOf t.1 == region).foldl (fun s t => s.reassignBuddy t.1) s

/-- Wards without a buddy try again when a site becomes free (R21). -/
def State.retryBuddies (s : State) : State :=
  (s.tiles.filter fun t => t.2.rank.isSome && t.2.buddy.isNone && t.2.prot).foldl (fun s t =>
    let s := s.giveBuddy t.1 Config.numSites
    if (s.tile t.1).buddy.isSome then s.fullInterval t.1 else s) s

/-! ### Moving a logical tile (R24, R47, R242) -/

/-- A thread key moved with its tile. -/
def moveHart (old new h : Nat) : Nat := if siteOf h = old then new * 32 + h % 32 else h

/-- A matrix command moved with its issuer. -/
def MatCmd.move (old new : Nat) (c : MatCmd) : MatCmd := { c with src := moveHart old new c.src }

/-- An item moved with its issuer. -/
def Item.move (old new : Nat) (i : Item) : Item :=
  { i with
    src := moveHart old new i.src
    dst := match i.dst with | .hart h => .hart (moveHart old new h) | d => d
    body := match i.body with
      | .mcmd c => .mcmd (c.move old new)
      | .deposit a n bs site ch => .deposit a n bs (if site = old then new else site) ch
      | .line a bs red num piece site => .line a bs red num piece (if site = old then new else site)
      | b => b }

/-- A tile's own records moved to its new site. -/
def Tile.move (old new : Nat) (t : Tile) : Tile :=
  { t with
    mqueue := t.mqueue.map (MatCmd.move old new)
    mrun := t.mrun.map fun r => { r with cmd := r.cmd.move old new }
    xfers := t.xfers.map fun x => x.map fun y => { y with hart := moveHart old new y.hart }
    notices := t.notices.map fun n => { n with hart := moveHart old new n.hart } }

/-- Whether an item of a failed tile outlives it: it waits at its home, or its receiver has it or keeps it (R125, R221, R240). -/
def Item.outlives (i : Item) : Bool :=
  i.acked || (match i.stage, i.dst with | .held _, .site _ => false | .held _, _ => true | _, _ => false) ||
    (match i.body with
     | .stealAns (some _) | .fault .. | .capReturn .. | .ack .. => true
     | .response _ _ wr _ _ => wr
     | _ => false)

/-- Egress of a failed tile that nothing repeats: the interrupt of a queue that has stopped (R102, R107). -/
def Item.errorIrq (i : Item) : Bool := i.ord == 0 && (match i.body with | .irq .. => true | _ => false)

/-- What a failed tile had on its way is lost, its committed egress with it, and what outlives it follows its logical number
(R81, R107). -/
def State.moveItems (s : State) (old new : Nat) : State :=
  let net := (s.net.filter fun i => siteOf i.src != old || i.outlives).map (Item.move old new)
  let egress := (s.egressQ.filter fun x => x.1 != old || x.2.2.errorIrq).map
    fun x => if x.1 = old then (new, x.2.1, x.2.2.move old new) else x
  let moveFloe (f : Floe) : Floe :=
    { f with run := f.run.map (MatCmd.move old new), waiting := f.waiting.map (MatCmd.move old new) }
  { s with
    net := net
    egressQ := egress
    waves := s.waves.map fun w => { w with rest := w.rest.map fun r => (r.1, r.2.map (Item.move old new)) }
    parts := s.parts.map fun p => (p.1, { p.2 with
      floe := p.2.floe.map moveFloe
      faults := p.2.faults.map fun e => { e with harts := e.harts.map (moveHart old new) } }) }

/-- A site's threads, cores, accumulators and scratchpad as after power-up. -/
def State.blankSite (s : State) (site : Nat) : State :=
  { s with
    threads := s.threads.filter fun x => siteOf x.1 != site
    cores := s.cores.filter fun x => x.1 / 4 != site
    mem := Memory.clear (Memory.clear s.mem (kScratch site) Config.scratchBytes) (kAcc site) accBytes
    full := s.full.filter fun w => !(kScratch site / 8 ≤ w && w < (kScratch site + Config.scratchBytes) / 8) }

/-- Gives up whatever service a site did for others as a buddy or a home (R17, R21): `new` takes over the role of buddy,
where there is a new site, also one that R20 would not choose: a donor, or a site in the ward's own region (log 102, DESIGN CHOICE). -/
def State.handOver (s : State) (old : Nat) (new : Option Nat) : State :=
  let ward := s.tiles.find? (·.2.buddy == some old)
  let s := match new, ward with
    | some y, some w => (s.setTile w.1 { s.tile w.1 with buddy := some y }).fullInterval w.1
    | none, some _ => s.reassignBuddy old
    | _, none => s
  s

/-- The pre-emption requests of a site's cores at another site: they are of the partition, not of the tile (R122, R245). -/
def State.carryRequests (s : State) (old new : Nat) : State :=
  (List.range 4).foldl (fun t k =>
    let c := s.core (old * 4 + k)
    t.setCore (new * 4 + k) { t.core (new * 4 + k) with preReq := c.preReq, preempt := c.preempt }) s

/-- A tile without the work, the log and the buddy it had: it has failed (R242). -/
def Tile.leftBehind (t : Tile) : Tile :=
  { t with
    buddy := none, prot := false, log := [], logBytes := 0, logHead := 0, logMark := 0, replay := [], replaying := false
    awaits := false, recFrom := none, mqueue := [], mrun := none, xfers := Vector.replicate 4 none }

/-- The takeover of logical number `l` of a failed site by site `y` (R21, R24, R242 steps 1-3): the spare refuses items
until its restore has run, and goes on with the log and the open interval. -/
def State.takeover (s : State) (l site y : Nat) : State :=
  let s := s.reassignBuddy y
  let t := s.tile site
  let p := (s.partOfSite site).getD 0
  let s := s.foreignEnd p l
  let s := (((s.moveRank l site y).moveItems site y).blankSite y).carryRequests site y
  let s := s.setTile site (s.tile site).leftBehind
  let u := s.tile y
  let s := s.setTile y { u with
    buddy := t.buddy, prot := t.prot, ival := t.ival, log := t.log, logBytes := t.logBytes, logHead := t.logHead
    logMark := t.logMark, markQ := t.markQ, rq := t.rq, closeReq := t.closeReq
    usable := if t.prot || u.donor then 44 else 92, stage := .open_ }
  ((s.handOver site (some y)).ubnarCtl p).foreignStart p l y

/-! ### Loading an image (R233, R242 step 4) -/

/-- A core of an image as it stands at a site now: no steal is on its way, requests and self-test stay those of the site
(R38, R122, R245). -/
def Core.restored (c old : Core) : Core :=
  { c with
    steal := none, preReq := old.preReq, preempt := old.preempt, slices := old.slices, scanIv := old.scanIv
    scanFrom := old.scanFrom, scanDue := old.scanDue, scanAsked := old.scanAsked, scanRest := old.scanRest, coreFail := old.coreFail }

/-- The times of a site's expert queues, counted from when they were `at_` (R158). -/
def State.rebase (s : State) (site at_ : Nat) : State :=
  let t := s.tile site
  let d := (s.eqNow site ((s.partOfSite site).getD 0) : Int) - at_
  s.setTile site { t with eqs := t.eqs.map fun q => (q.1, q.2.shift d) }

/-- Restores an image to a site: the registers, memories and queues of the tile; its place on the wafer, its buddy and
its log stay the site's own, and no notice of an interval that is over is sent again (R387). The entries of its queues have waited as long as they had at the image (R158). -/
def State.loadImage (s : State) (site : Nat) (g : TileImage) : State :=
  let old := g.site
  let (b, n) := s.bondedPlace site
  let t := s.tile site
  let i := g.tile.move old site
  let cores := g.cores.map fun c => (c.1, c.2.restored (s.core (site * 4 + c.1)))
  let s := s.blankSite site
  let s := s.setTile site { i with
    cls := t.cls, role := t.role, rank := t.rank, home := t.home, homePart := t.homePart, hops := t.hops
    buddy := t.buddy, donor := t.donor, prot := t.prot, usable := t.usable, bbce := t.bbce, spce := t.spce
    failb := t.failb, spused := t.spused, spbuild := t.spbuild, accused := t.accused, accbuild := t.accbuild, failed := t.failed, failc := t.failc, bodyOnly := t.bodyOnly, ival := max t.ival i.ival
    cycleBase := t.cycleBase, notices := []
    log := t.log, logBytes := t.logBytes, logHead := t.logHead, logMark := t.logMark, stage := .open_, closeReq := t.closeReq
    replaying := t.replaying, replay := t.replay, awaits := t.awaits, recFrom := t.recFrom, out := t.out
    mqueue := i.mqueue.filter (·.op != .floe), mrun := i.mrun.filter (·.cmd.op != .floe) }
  let s := s.rebase site g.at_
  let s := cores.foldl (fun s c => s.setCore (site * 4 + c.1) c.2) s
  let s := g.threads.foldl (fun s x =>
    let cmd := x.2.lastCmd.map fun r => if r.site = old then { r with site := site } else r
    s.setThread (site * 32 + x.1) { x.2 with lastCmd := cmd }) s
  let m := Memory.paste s.mem (kScratch site) Config.scratchBytes g.scratch
  let m := Memory.paste m b n g.bonded
  let m := Memory.paste m (kAcc site) accBytes g.accs
  { s with
    mem := m
    full := KeySet.paste (KeySet.paste s.full (kScratch site / 8) (Config.scratchBytes / 8) g.fullS) (b / 8) (n / 8) g.fullB }

/-- A location of a tile's own memory, moved from the site of an image to the site that the tile is at now. -/
def State.movedKey (s : State) (site : Nat) (g : TileImage) (k : Nat) : Nat :=
  let old := match g.tile.home with
    | some h => kBonded h + g.tile.homePart * (44 * 2 ^ 20)
    | none => kBonded g.site
  if kScratch g.site ≤ k && k < kScratch g.site + Config.scratchBytes then kScratch site + (k - kScratch g.site)
  else if old ≤ k && k < old + g.tile.usable * 2 ^ 20 then (s.bondedPlace site).1 + (k - old)
  else k

/-- An operation on a location with another one. -/
def RetOp.at_ (f : Nat → Nat) : RetOp → RetOp
  | .ldf a => .ldf (f a)
  | .ldfe a => .ldfe (f a)
  | .waitgen a g => .waitgen (f a) g
  | op => op

/-- An item that works on a location of its tile's own memory, at the tile's place now. -/
def State.movedItem (s : State) (site : Nat) (g : TileImage) (i : Item) : Item :=
  let here : Dest := .site ((s.tile site).home.getD site)
  match i.dst, i.body with
  | .site _, .store a bs fe => { i with dst := here, body := .store (s.movedKey site g a) bs fe }
  | .site _, .ret op => { i with dst := here, body := .ret (op.at_ (s.movedKey site g)) }
  | _, _ => i

/-- The restored NI sends again what the image shows as issued and not acknowledged (R243). -/
def State.resendIssued (s : State) (site : Nat) (g : TileImage) : State :=
  let again := g.issued.map fun i =>
    let j := s.movedItem site g (i.move g.site site)
    let st : Stage := match j.stage, j.dst with
      | .held 0, .site _ => .held 0
      | .collected, _ => .collected
      | .refused b, _ => .refused b
      | _, _ => .waiting
    { j with stage := st }
  let new := again.filter fun i => !s.net.any fun j => j.src == i.src && j.ord == i.ord
  { s with net := s.net ++ new }

/-! ### Failures (R227, R242, R245, R246) -/

/-- Whether the buddy of a site is there and has not failed. -/
def State.buddyWorks (s : State) (site : Nat) : Bool := (s.tile site).buddy.any fun b => !(s.tile b).failed

/-- Whether a valid firn copy of a logical tile exists at a buddy that works (R235, R246). -/
def State.hasFirn (s : State) (l : Nat) : Bool := (s.firnOf l).isSome && (s.siteOfRank l).any s.buddyWorks

/-- A partition stops for a rollback (R246, R247 step 1). -/
def State.stopPart (s : State) (p : Nat) : State :=
  if s.hasPart p then s.setPart p { s.part p with stage := .stopped } else s

/-- The tile now bound to a logical number awaits the restore of its firn copy under the supervisor of `region`; where there
is none the partition rolls back (R242, R246). -/
def State.awaitRestore (s : State) (l region : Nat) : State :=
  match s.siteOfRank l with
  | none => s
  | some y =>
    let t := s.tile y
    match s.partOfSite y with
    | none => s
    | some p =>
      if t.prot && s.hasFirn l then
        s.setTile y { t with replaying := true, awaits := true, replay := [], recFrom := some region }
      else s.stopPart p

/-- A tile whose own memory is lost while its body works is restored where it is (R17). -/
def State.restoreHere (s : State) (x : Nat) : State :=
  let t := s.tile x
  match t.rank, s.partOfSite x with
  | some l, some p => if t.stage == .copying then s.stopPart p else (s.moveItems x x).awaitRestore l (regionOf x)
  | _, _ => s

/-- A failed tile's number moves to its replacement (R47, R242 steps 1-3). False if no site can take it. -/
def State.swapTile (s : State) (l site cause : Nat) : Bool × State :=
  let p := s.appendPart site
  match s.replacement site with
  | none =>
    let s := s.askAppend p site (retireRec cause site (some l) none)
    let s := ((s.handOver site none).leaveBuddy site).retireSite site
    let s := s.setTile site (s.tile site).leftBehind
    let s := { s with binding := s.binding.filter (·.1 != l), unbound := KeySet.add s.unbound l }
    (false, match p with | some p => s.ubnarCtl p | none => s)
  | some y =>
    let s := s.askAppend p site (retireRec cause site (some l) (some y))
    (true, s.takeover l site y)

/-- An orphan whose home is lost takes a new home and is restored there; one that none can serve is replaced by a spare
(R17). -/
def State.rehomeOne (s : State) (x : Nat) : State :=
  let l := s.rankOf x
  let s := (s.leaveHome x).giveHome x
  if (s.tile x).home.isSome then s.restoreHere x
  else match l with
    | none => s
    | some l =>
      let p := s.partOfSite x
      match s.swapTile l x 5, p with
      | (true, s), some _ => s.awaitRestore l (regionOf x)
      | (false, s), some p => s.stopPart p
      | (_, s), none => s

/-- The ports whose six sites all have dead spines by now are disabled, and their traffic moves on (R71, R73). -/
def State.disablePorts (s : State) : State :=
  (List.range 64).foldl (fun s k =>
    if (s.port k).state != 4 && (portSites k).all s.noRouter then
      (s.setPort k { s.port k with state := 4, lanes := 0 }).portDown k
    else s) s

/-- What follows a site's retirement: its orphans move, wards without a buddy try again, the floe over the whole wafer is formed
again, and ports without a site go out of service (R17, R21, R32, R71). -/
def State.afterRetire (s : State) : State := (s.stranded.foldl State.rehomeOne s).retryBuddies.reformWafer.disablePorts

/-- The recoveries of a region begin again from step 1 under its new supervisor (R242): a tile that has its replacement is
restored once more. -/
def State.restartRecoveries (s : State) (region : Nat) : State :=
  (s.tiles.filter fun t => t.2.recFrom == some region && t.2.replaying).foldl (fun s t =>
    let s := s.moveItems t.1 t.1
    s.setTile t.1 { s.tile t.1 with awaits := true, replay := [] }) s

/-- A site that holds no logical number retires: its services move on, and its record is asked for (R21, R27, R42). -/
def State.retirePlain (s : State) (site cause : Nat) : State :=
  let p := s.appendPart site
  let super := (s.tile site).role == .supervisor
  let s := s.askAppend p site (retireRec cause site none none)
  let s := (s.retireSite site).handOver site none
  let s := if super then (s.superviseNow (regionOf site)).restartRecoveries (regionOf site) else s
  s.afterRetire

/-- A failed tile is replaced, with all that follows. -/
def State.replaceTile (s : State) (l site cause : Nat) : Bool × State :=
  let (ok, s) := s.swapTile l site cause
  (ok, s.afterRetire)

/-- Tile recovery (R242): the replacement, and its restore to come. Without a replacement the partition rolls back. -/
def State.recoverTile (s : State) (p l site cause : Nat) : State :=
  match s.swapTile l site cause with
  | (false, s) => (s.stopPart p).afterRetire
  | (true, s) => (s.awaitRestore l (regionOf site)).afterRetire

/-- Partition rollback after a tile failure: the tile is replaced, and the partition stops (R246). -/
def State.rollTile (s : State) (p l site cause : Nat) : State := (s.replaceTile l site cause).2.stopPart p

/-- Whether a ward is being restored by a copy that a site holds (R245). -/
def State.restoringFrom (s : State) (buddy : Nat) : Option Nat :=
  ((s.tiles.find? fun t => t.2.buddy == some buddy && t.2.replaying).map (·.1)).bind s.partOfSite

/-- The floe of a tile's partition keeps the number of a member that has failed for its reform event (R371). -/
def State.noteLost (s : State) (site : Nat) : State :=
  match s.partOfSite site, (s.tile site).rank with
  | some p, some l =>
    let x := s.part p
    s.setPart p { x with floe := x.floe.map fun f => if f.members.contains site then { f with lost := some (f.lost.getD l) } else f }
  | _, _ => s

/-- What a site's failure leads to, its cause known (R242-R246). -/
def State.failSite (s : State) (site cause : Nat) : State :=
  let hurt := s.restoringFrom site
  let s := s.noteLost site
  let t := s.tile site
  let s := match t.rank with
    | none => s.retirePlain site cause
    | some l =>
      match s.partOfSite site with
      | none => (s.replaceTile l site cause).2
      | some p =>
        let body := t.bodyFailed cause
        let s := if t.stage == .copying && body && s.buddyWorks site then s.commitInterval site else s
        if !t.prot || !s.hasFirn l || (t.stage == .copying && !body) then s.rollTile p l site cause
        else if (s.part p).assisted 4 then s.assistFor 4 p (BitVec.ofNat 64 l) site
        else s.recoverTile p l site cause
  match hurt with
  | some p => s.stopPart p
  | none => s

/-- Whether the supervisor of a region is at work on a recovery: a tile is being restored, or the host is asked (R242). -/
def State.recovering (s : State) (region : Nat) : Bool :=
  (s.tiles.any fun t => t.2.recFrom == some region && t.2.replaying && !t.2.failed &&
      (s.partOfSite t.1).any fun p => (s.part p).stage != .stopped) ||
    s.assists.any fun a => a.func == 4 && regionOf a.obj == region

/-- The supervisor of a region begins its next recovery, in the order of detection, unless it is at work on one. Its own failure comes
first: another supervisor takes over, and carries the recoveries on (R242). -/
def State.nextRecovery (s : State) (region : Nat) : State :=
  let here := s.failQ.filter fun f => regionOf f.1 == region
  let super := here.find? fun f => (s.tile f.1).role == .supervisor
  match (if super.isNone && s.recovering region then none else super <|> here.head?) with
    | none => s
    | some f => { s with failQ := s.failQ.erase f }.failSite f.1 f.2

/-- Every supervisor goes on with the recoveries of its region. -/
def State.recoverNext (s : State) : State := s.failQ.foldl (fun s f => s.nextRecovery (regionOf f.1)) s

/-- A retired site whose memory or spine fails as well: the orphans it still serves move, and routes go round it (R11, R17). -/
def State.lateFailure (s : State) (site cause : Nat) : State :=
  let t := s.tile site
  let worse := cause = 6 || (cause = 5 && t.bodyFailed t.failc) || !t.failed
  if t.role == .retired && worse && (cause = 5 || cause = 6) then
    (s.setTile site { t with failed := true, failc := cause, bodyOnly := false }).afterRetire
  else s

/-- TILE_FAILURE (R242): the failure of a site is reported to its region's supervisor; `cause` is that of its retirement
record where the tile has not stopped of itself. A failure that waits for its turn or for the host's decision is not taken
twice. -/
def execTileFailure (site cause : Nat) (s : State) : Out :=
  let t := s.tile site
  let known := s.failQ.any (·.1 == site) || s.assists.any fun a => a.func == 4 && a.obj == site
  if t.role == .retired then .next (s.lateFailure site cause)
  else if t.role == .void || known || Config.numSites ≤ site then .next s
  else
    let cause := if t.failed then t.failc else cause
    .next ({ s.stopTile site cause with failQ := s.failQ ++ [(site, cause)] }.nextRecovery (regionOf site))

/-- HARDWARE_WATCHDOG (R227): a watchdog or a parity failure of control state stops the tile; where it is the NI's or the
control unit's, the `spine` has failed (R9, R41, log 61, DEDUCED). -/
def execHardwareWatchdog (event : WatchdogEvent) (s : State) : Out :=
  let t := s.tile event.site
  if t.role == .retired && event.spine then .next (s.lateFailure event.site 6)
  else if t.failed || t.role == .retired || t.role == .void then .next s
  else .next (s.stopTile event.site (if event.spine then 6 else 4))

/-! ### Uncorrectable errors (R17, R199) -/

/-- The leaves below a node of a page table: address, entry, low bit of the page (R183). -/
def State.leaves (s : State) : List (Nat × Nat × Nat) → Nat → Nat → List (Nat × Nat × Nat)
  | [], _, _ => []
  | (_, lo, n) :: rest, node, va =>
    (List.range (2 ^ n)).flatMap fun i =>
      let e := s.num (node + 8 * i) 8
      if e % 2 = 0 then []
      else if bitsN e 4 4 = 1 then [(va + i * 2 ^ lo, e, lo)]
      else s.leaves rest (bitsN e 47 8 * 256) (va + i * 2 ^ lo)

/-- The HBM frames that a partition's page table maps, with their sizes (R182, R184). -/
def State.hbmFrames (s : State) (p : Nat) : List (Nat × Nat) :=
  let root := s.num (kWindow p + 0x40000) 8
  if root = 0 then []
  else (s.leaves ptLevels root 0).filterMap fun x =>
    if segOf x.1 = 1 then none else some (bitsN x.2.1 47 8 * 256, 2 ^ x.2.2)

/-- The frames that a partition's page table maps, each with a name, its location and its size (R184, R194): a frame of the HBM is
named by its location, one of a tile by partition, logical number, memory (R184) and place, which stay when the tile moves. -/
def State.frames (s : State) (p : Nat) : List (Nat × Nat × Nat) :=
  let root := s.num (kWindow p + 0x40000) 8
  if root = 0 then []
  else (s.leaves ptLevels root 0).map fun x =>
    let e : TlbEntry := { part := p, page := x.1, size := 2 ^ x.2.2, leaf := BitVec.ofNat 64 x.2.1, w0 := 0, w1 := 0 }
    let k := s.entryKey p e x.1
    (if segOf x.1 = 1 then 2 ^ 60 * (p + 1) + (2 * bitsN x.1 44 32 + bitsN x.2.1 3 3) * 2 ^ 42 + bitsN x.2.1 41 8 * 256 else k, k, 2 ^ x.2.2)

/-- The frames that page tables map (R194). -/
def State.mappedNow (s : State) : List (Nat × Nat) := s.parts.flatMap fun p => (s.frames p.1).map fun f => (f.1, f.2.2)

/-- The full-empty bits of frames that no page table mapped before read empty (R194). -/
def State.emptyMapped (s : State) : State :=
  let here := (s.parts.filter fun p => p.2.stage != .out).flatMap fun p => s.frames p.1
  let new := here.filter fun f => !s.mapped.any fun m => m.1 ≤ f.1 && f.1 + f.2.2 ≤ m.1 + m.2
  let fresh (w : Nat) : Bool := new.any fun f =>
    f.2.1 ≤ 8 * w && 8 * w < f.2.1 + f.2.2 && !s.mapped.any fun m => m.1 ≤ f.1 + (8 * w - f.2.1) && f.1 + (8 * w - f.2.1) < m.1 + m.2
  { s with mapped := s.mappedNow, full := if new.isEmpty then s.full else s.full.filter fun w => !fresh w }

/-- Whether a frame has a byte on a stack (R182). -/
def onStack (k : Nat) (f : Nat × Nat) : Bool :=
  (List.range (min 48 (f.2 / 2 ^ 16))).any fun i => (f.1 / 2 ^ 16 + i) % 48 == k

/-- The partitions that map a stack (R246). -/
def State.stackUsers (s : State) (k : Nat) : List Nat :=
  (s.parts.filter fun p => (s.hbmFrames p.1).any (onStack k)).map (·.1)

/-- The orphans that a home serves lose their bonded block: each is restored from its firn copy (R17). -/
def State.loseHome (s : State) (home : Nat) : State :=
  (s.tiles.filter fun t => t.2.home == some home).foldl (fun s t => s.restoreHere t.1) s

/-- A whole stack is lost: the partitions that map it roll back (R199, R246). One that is switched out has lost its save, and is
restored when it is switched in (log 76, DEDUCED). -/
def State.loseStack (s : State) (k : Nat) : State :=
  (s.stackUsers k).foldl (fun s p =>
    let x := s.part p
    let out := x.stage == .out
    s.setPart p { x with stage := if out then .out else .stopped, lost := x.lost || out, badStacks := KeySet.add x.badStacks k }) s

/-- UNCORRECTABLE_ERROR (R199): `kind` 0 is a tile's scratchpad or own bonded block, 4 its accumulators, which are part of its
body (R9, R239), 1 an orphan's bonded block at its home, all with the site in `at_`; 2 an HBM line with its number; 3 a
whole stack. -/
def execUncorrectableError (kind at_ : Nat) (s : State) : Out :=
  match kind with
  | 0 =>
    let t := s.tile at_
    if t.role == .retired then .next (s.lateFailure at_ 5)
    else if t.failed || t.role == .void then .next s
    else .next (s.stopTile at_ 5)
  | 1 =>
    match (s.tile at_).home with
    | some h => .next (s.loseHome h)
    | none => .next s
  | 2 => if at_ * 64 < Config.hbmBytes then .next { s with poison := KeySet.add s.poison at_ } else .next s
  | 3 => if Config.numStacks ≤ at_ then .next s else .next (s.loseStack at_)
  | 4 =>
    let t := s.tile at_
    if t.failed || t.role == .retired || t.role == .void then .next s
    else
      let s := s.stopTile at_ 5
      .next (s.setTile at_ { s.tile at_ with bodyOnly := true })
  | _ => .next s

/-! ### The restore (R242 step 4, R246, R248) -/

/-- A kind 7 record (R248). -/
def State.record7 (s : State) (p obj l off : Nat) : State :=
  s.record p (bytesOf 2 7 ++ bytesOf 1 obj ++ bytesOf 1 0 ++ bytesOf 4 p ++ bytesOf 8 l ++ bytesOf 8 off)

/-- Offset of the `n`-th object of a kind in the buddy's block: 1 block, 2 state image of interval `n`, 3 header, 4 log record at
ring offset `n` (R234, R235, R248). -/
def tagOffset (obj n : Nat) : Nat :=
  match obj with
  | 1 => 44 * 2 ^ 20 + 4096 * n
  | 2 => logAreaAt + slotAt n
  | 3 => logAreaAt
  | _ => logAreaAt + ringAt + n

/-- The parts of a state image as they stand at a buddy (R234, R235). -/
def State.slotParts (s : State) (buddy ival : Nat) : List (List Byte) :=
  imageAreas.map fun x => s.firnBytes (kLogArea buddy + slotAt ival + x.1) x.2

/-- The first block of the firn area whose tag in the block tag table does not match (R236). -/
def State.badBlock (s : State) (ward buddy ival : Nat) (table : List Byte) : Option Nat :=
  (List.range 12288).find? fun n =>
    (table.drop (8 * n)).take 8 != s.tag ward ival (tagOffset 1 n) (s.firnBytes (kFirn buddy + 4096 * n) 4096)

/-- The first record of a log from a ring offset on whose tag does not match (R236, R241). -/
def State.badRecord (s : State) (ward buddy ival : Nat) : Nat → List LogRec → Option Nat
  | _, [] => none
  | off, r :: rest =>
    let b := s.ringBytes buddy off r.bytes
    if r.inRing && (b.drop 8).take 8 != s.tag ward ival (tagOffset 4 off) (b.take 8 ++ b.drop 16) then some off
    else s.badRecord ward buddy ival (ringNext off r.bytes) rest

/-- The object of a firn copy that fails its tag, with its offset (R235, R236, R242 step 4): header, image, blocks, and the
records since LOGSTART. -/
def State.badTag (s : State) (site ward buddy : Nat) : Option (Nat × Nat) :=
  match s.firnIval ward buddy with
  | none => some (3, logAreaAt)
  | some n =>
    let parts := s.slotParts buddy n
    if s.firnBytes (kLogArea buddy + slotAt n + 0x77FF8) 8 != s.tag ward n (tagOffset 2 n) parts.flatten then some (2, tagOffset 2 n)
    else match s.badBlock ward buddy n (parts.getD 4 []) with
      | some k => some (1, tagOffset 1 k)
      | none =>
        let start := ofBytes (s.firnBytes (kLogArea buddy + 16) 8)
        (s.badRecord ward buddy (n + 1) start (sinceMark (s.tile site).log)).map fun o => (4, tagOffset 4 o)

/-- A firn copy as it stands at its buddy: the image of the committed interval with the bytes of its areas (R234, R242). -/
def State.firnImage (s : State) (buddy : Nat) (f : Firn) : TileImage :=
  let p := s.slotParts buddy f.ival
  let g := f.image.fromRecord [[], p.getD 0 [], p.getD 1 [], p.getD 2 [], [], []]
  { g with
    scratch := Memory.slice s.firnMem (kFirn buddy) Config.scratchBytes
    bonded := Memory.slice s.firnMem (kFirn buddy + 4 * 2 ^ 20) (44 * 2 ^ 20) }

/-- A capability at rest that a copy keeps: the region with its generation. -/
def capKey (rid gen : Nat) : Nat := gen * 2 ^ 16 + rid

/-- Takes capabilities from rest or puts them back: HELD of their regions, unless the entry has been written since. -/
def State.holdCaps (s : State) (p : Nat) (caps : List Nat) (held : Nat) : State :=
  caps.foldl (fun s c =>
    let rid := c % 2 ^ 16
    if bitsN (s.region p rid).2 63 48 = c / 2 ^ 16 then s.setHeld p rid held else s) s

/-- A packet of an image as it goes on: one whose assist request has been answered since is ready. -/
def State.resumed (s : State) (t : Taken) : Taken :=
  match t.stage with
  | .held tok => if s.assists.any (·.token == tok) then t else { t with stage := .ready }
  | _ => t

/-- QREAD of the queues of a control tile as it was at the last commit: where the first packet stood that has been taken since (R107). -/
def State.queuesBack (s : State) (log : List LogRec) : State :=
  (log.filter fun r => r.typ == 13 || r.typ == 14).reverse.foldl (fun s r =>
    match r.taken with
    | some t =>
      match t.src with
      | .vf fn q =>
        let key := fn * 16 + q
        let x := SMap.get QRegs.init s.queues key
        if x.enables = t.era then { s with queues := SMap.put s.queues key { x with qread := BitVec.ofNat 32 t.idx } } else s
      | _ => s
    | none => s) s

/-- A recovered control tile resumes with the queues and the packets of its last commit (R107); those that have failed since are gone by
the log, and those taken since come with it. -/
def State.resumePackets (s : State) (site : Nat) (g : TileImage) : State :=
  let now := s.packetsAt site
  let open_ := s.replaysAt site
  let s := s.queuesBack (sinceMark (s.tile site).log)
  let s := now.foldl (fun s t => s.holdCaps t.part t.caps 0) s
  let s := { s with
    taken := sortBy (fun a b => a.id < b.id) (s.taken.filter (fun t => !now.contains t) ++ g.taken.map s.resumed)
    replays := s.replays.filter (fun r => !open_.contains r) ++ g.replays }
  g.taken.foldl (fun s t => s.holdCaps t.part t.caps 1) s

/-- What a recovered tile had accepted in a quantum and logged since its boundary comes from its log (R125, R243). -/
def State.dropLogged (s : State) (site : Nat) : State :=
  let log := sinceMark (s.tile site).log
  let known (i : Item) : Bool := i.acked && log.any fun r => r.served && (r.item.map fun j => j.ord == i.ord && j.src == i.src).getD false
  { s with net := s.net.filter fun i => !known i }

/-- Steps 4 and 5 of R242: the spare loads the firn copy and begins to replay the records since its boundary. -/
def State.restoreFirn (s : State) (site p buddy : Nat) (f : Firn) : State :=
  let g := s.firnImage buddy f
  let g := { g with issued := g.issued.filter fun i => !i.acked }
  let s := ((s.loadImage site g).resumePackets site g).dropLogged site
  let t := s.tile site
  let s := s.setTile site { t with awaits := false, replaying := true, replay := sinceMark t.log }
  let s := s.resendIssued site g
  let s := s.ubnarCtl p
  if s.det p then s.startTile site else s

/-- FIRN_RESTORE (R242 steps 4 and 5, R245, R246): the spare reads the firn copy of its logical tile. `bad` is 0, or what it
reads otherwise than it was written: modulo 8 the object whose tag fails for that, 1 block, 2 image, 3 header, 4 log record,
with its number in the rest, or 5 where a check code says so. -/
def execFirnRestore (site bad : Nat) (s : State) : Out :=
  let t := s.tile site
  let l := t.rank.getD 0
  let p := (s.partOfSite site).getD 0
  if !t.awaits || t.failed then .next s
  else match t.buddy, s.firnOf l with
    | some b, some f =>
      if (s.tile b).failed || bad % 8 = 5 then .next (s.stopPart p)
      else if bad % 8 ≠ 0 then
        .next ((s.record7 p (bad % 8) l (tagOffset (bad % 8) (if bad % 8 = 2 then f.ival else bad / 8))).stopPart p)
      else match s.badTag site l b with
        | some (obj, off) => .next ((s.record7 p obj l off).stopPart p)
        | none => .next (s.restoreFirn site p b f)
    | some b, none =>
      .next ((if s.headerTagFails l b then s.record7 p 3 l logAreaAt else s).stopPart p)
    | none, _ => .next (s.stopPart p)

/-- What a deterministic replay leaves for the end of the quantum that runs now: items that were collected in it, and those that found
no room before (R125). -/
def State.putBack (s : State) (site : Nat) (l : List LogRec) : State :=
  let t := s.tile site
  { s with net := s.net ++ l.filterMap fun r => r.item.map fun i =>
      { i with stage := if r.qn + t.markQ = t.rq + 1 then .collected else .refused 0 } }

/-- REPLAY_END (R242, R243, R245): the log is exhausted; the tile stops refusing, unless its buddy has failed. What its NI
keeps for a missing page is tried again, and members of the partition that still wait at a barrier send their arrival
again, as a release still (R203, R216, R243). -/
def execReplayEnd (site : Nat) (s : State) : Out :=
  let t := s.tile site
  let p := (s.partOfSite site).getD 0
  if !t.replaying || t.awaits || !t.replay.all LogRec.served || (s.det p && t.rq != (s.part p).quanta) then .next s
  else if !s.buddyWorks site then .next (s.stopPart p)
  else
    let s := (s.setTile site { t with replaying := false, recFrom := none, replay := [] }).putBack site t.replay
    let again (i : Item) : Item :=
      match i.stage with
      | .held pg => if siteOf i.src == site && pg != 0 then { i with stage := .waiting } else i
      | _ => i
    let s := { s with net := s.net.map again }
    let waits := s.threads.filterMap fun x =>
      match x.2.status with
      | .blocked (.barrier g inst) => if s.partOfHart x.1 == p && x.2.resp.isNone then some (x.1, g, inst) else none
      | _ => none
    .next (waits.foldl (fun s w =>
      let i := s.item w.1 0 false (.tile (((s.group p w.2.1).head?.getD 0) / 4))
        (.barrier p w.2.1 w.2.2 (s.logCore (coreOf w.1)))
      s.emit { i with counted := false, release := true }) s)

/-! ### Corrected errors (R197, R198, R200) -/

/-- SCRUB (R198, R200): corrected errors are written back and counted, at an orphan those of its partition at its home, at a stack's
place those of its lines. What the codes correct comes as SCRUB, what they only detect as UNCORRECTABLE_ERROR (log 98, DEDUCED). -/
def execScrub (site bonded scratch : Nat) (s : State) : Out :=
  match agentOf site with
  | some k => .next (s.setAgent k { s.agent k with ce := (s.agent k).ce + bonded })
  | none =>
  let t := s.tile site
  .next (s.setTile site { t with bbce := min (t.bbce + bonded) 0xFFFF, spce := min (t.spce + scratch) 0xFFFF })

/-- A scratchpad bank of a tile fails: its lines are rebuilt on every read, and into the spare while that is free. With more than
four in erasure service errors cannot be corrected (R197, R199). -/
def State.failBank (s : State) (site : Nat) : State :=
  let t := s.tile site
  let s := s.setTile site { t with failb := min (t.failb + 1) 5, spbuild := t.spbuild || !t.spused }
  if t.failb < 4 then s else s.stopTile site 5

/-- A bank of a tile's accumulator store fails: the store bears one (R197). The accumulators are part of the body (R9). -/
def State.failAccBank (s : State) (site : Nat) : State :=
  let t := s.tile site
  if !t.accbuild then s.setTile site { t with accbuild := true }
  else
    let s := s.stopTile site 5
    s.setTile site { s.tile site with bodyOnly := true }

/-- BANK_REBUILD (R197, R200): `event.what` is 0 where a scratchpad bank fails, 1 where the spare holds all stripes of one; 2 and 3 are
the same for the accumulator store. -/
def execBankRebuild (event : BankEvent) (s : State) : Out :=
  let site := event.site
  let t := s.tile site
  if t.failed || t.role == .retired || t.role == .void then .next s
  else match event.what with
  | 0 => .next (s.failBank site)
  | 1 => if t.spbuild then .next (s.setTile site { t with spbuild := false, spused := true, failb := t.failb - 1 }) else .next s
  | 2 => .next (s.failAccBank site)
  | 3 => if t.accbuild && !t.accused then .next (s.setTile site { t with accbuild := false, accused := true }) else .next s
  | _ => .next s

end Sys2Proof.Machine
end

