-- ==== Sys2Proof/Machine/Rollback.lean ====
section
/-!
DEFINITION. Recovery points and partition rollback (spec/04_links.md R80, R82, spec/12_recovery.md R246-R248): what a
point holds, reading it back, and the rollback of a partition.
-/

namespace Sys2Proof.Machine

/-! ### What a recovery point holds (R80) -/

/-- The page-table nodes of a partition: address and bytes (R183). -/
def State.nodes (s : State) : List (Nat × Nat × Nat) → Nat → List (Nat × Nat)
  | [], _ => []
  | (_, _, n) :: rest, node =>
    (node, 8 * 2 ^ n) :: (List.range (2 ^ n)).flatMap fun i =>
      let e := s.num (node + 8 * i) 8
      if e % 2 = 0 || bitsN e 4 4 = 1 then [] else s.nodes rest (bitsN e 47 8 * 256)

/-- The HBM of a partition: the frames it maps and its page table (log 36, DEDUCED). -/
def State.hbmSpans (s : State) (p : Nat) : List (Nat × Nat) :=
  let root := s.num (kWindow p + 0x40000) 8
  s.hbmFrames p ++ (if root = 0 then [] else s.nodes ptLevels root)

/-- Whether a location lies in one of the spans. -/
def inSpans (l : List (Nat × Nat)) (k : Nat) : Bool := l.any fun x => x.1 ≤ k && k < x.1 + x.2

/-- The segments a partition's stream is cut into (R80): scratchpad, usable bonded block and 576 KiB of other state of
each tile, and the HBM. -/
def State.segments (s : State) (p : Nat) : Nat :=
  let tiles := ((s.partTiles p).map fun b => (4 + (s.tile b.2).usable) * 2 ^ 20 + 576 * 1024).sum
  ceilDiv (tiles + ((s.hbmSpans p).map (·.2)).sum) (2 ^ 20)

/-- Takes what a recovery point streams (R80 step 2). -/
def State.capture (s : State) (p num tier : Nat) : RecPoint :=
  let spans := s.hbmSpans p
  { tier := tier, src := s.dev, part := p, num := num, segs := s.segments p
    spans := spans, images := (s.partTiles p).map fun b => s.image b.2
    hbm := s.mem.filter fun c => inSpans spans c.1
    full := s.full.filter fun w => inSpans spans (8 * w)
    jobs := (s.part p).jobs, whole := false }

/-- The recovery point a partition rolls back to. -/
def State.currentPoint (s : State) (p : Nat) : Option RecPoint :=
  let x := s.part p
  if x.rpCur = 0 then none
  else s.points.find? fun r => r.tier == x.rpDev && (r.src, r.part) == x.rpSrc && r.num == x.rpCur

/-! ### Discarding a partition's work (R247 step 1) -/

/-- A thread with nothing left but its level, its sequence counter and its machine CSRs. -/
def Thread.clear (t : Thread) : Thread :=
  { Thread.init with
    priv := t.priv, seq := t.seq, actNo := t.actNo, mtvec := t.mtvec, mscratch := t.mscratch, mepc := t.mepc, mcause := t.mcause, mtval := t.mtval }

/-- A core without messages, frames and requests. -/
def Core.clear (c : Core) : Core :=
  { c with
    channels := c.channels.map fun _ => { queue := [], spill := [] }
    deque := [], steal := none, preReq := false, preempt := false, preempted := false }

/-- A tile without commands, entries, notices and counts of items. -/
def Tile.clear (t : Tile) : Tile :=
  { t with
    mqueue := [], mrun := none, xfers := Vector.replicate 4 none, notices := [], barriers := [], credits := []
    eqs := t.eqs.map fun q => (q.1, { q.2 with ring := [], spill := [], batches := [], force := false, top := none,
                                               spflt := false })
    sent := [], recv := [], filter := [], tlb := [], log := [], logBytes := 0, replaying := false, replay := []
    awaits := false, stage := .open_, closeReq := false }

/-- Ends all work of a partition: activations, commands, held sends and stores, queued items, packets taken (R247). The
tiles of one that is switched out are no longer its own. The egress points keep the highest numbers they have sent (R81). -/
def State.purge (s : State) (p : Nat) : State :=
  let here := if (s.part p).stage == .out then [] else s.partTiles p
  let sites := here.map (·.2)
  let ranks := here.map (·.1)
  let gone := (s.taken.filter (·.part == p)).map (·.id)
  let x := s.part p
  let ours (d : Domain) : Bool := match d with | .item _ r _ _ => ranks.contains (r / 32) | .line r _ _ => ranks.contains r | _ => false
  { s with
    threads := s.threads.map fun t => if sites.contains (siteOf t.1) then (t.1, t.2.clear) else t
    cores := s.cores.map fun c => if sites.contains (c.1 / 4) then (c.1, c.2.clear) else c
    tiles := s.tiles.map fun t => if sites.contains t.1 then (t.1, t.2.clear) else t
    homes := s.homes.map fun a => (a.1, { a.2 with filter := a.2.filter.filter fun f => !ours f.1 })
    net := s.net.filter (·.part != p)
    egressQ := s.egressQ.filter fun e => e.2.2.part != p
    taken := s.taken.filter (·.part != p)
    replays := s.replays.filter (·.part != p)
    waves := s.waves.filter fun w => !gone.contains w.packet
    devq := s.devq.filter fun d => d.1 / 4 != p
    assists := s.assists.filter fun a => a.part != p || a.func == 5
    firns := s.firns.filter fun f => !ranks.contains f.ward
    parts := SMap.put s.parts p { x with
      faults := [], wakes := [], routers := [], rp := none
      floe := x.floe.map fun f =>
        { f with
          run := none, park := none, stored := [], landed := 0, denied := [], waiting := [], storing := [], known := [] } } }

/-! ### The notice and the exposed windows (R82, R247 step 2, R248) -/

/-- The windows that exposed items have left through since the recovery point: immediate ones, in an unprotected partition those of
either kind, whatever the window is now (R81, R82, R247). -/
def Partition.exposed (x : Partition) : List (Nat × Nat) :=
  (List.range 16).filterMap fun i =>
    let w := vget { kind := 0, dest := 0, base := 0, len := 0, sent := 0 } x.egress i
    if w.sent != 0 then some (i, w.sent) else none

/-- The rollback notice of a job: on the fabric, on VC 0, to every device of the route table, and in the event ring (R82). -/
def State.notice (s : State) (p job : Nat) : State :=
  let x := s.part p
  let q := SMap.get 0 x.rbSeq job + 1
  let bytes := bytesOf 2 2 ++ bytesOf 2 s.dev ++ bytesOf 2 job ++ bytesOf 2 0 ++ bytesOf 8 x.rpCur ++
    bytesOf 8 x.exposed.length ++ bytesOf 8 q
  let s := s.setPart p { x with rbSeq := SMap.put x.rbSeq job q }
  let words := (List.range 4).map fun i => BitVec.ofNat 64 (ofBytes ((bytes.drop (8 * i)).take 8))
  (x.routes.foldl (fun (s : State) (r : Nat × Nat) => s.manageOut p r.1 words)
    { s with outs := s.outs ++ x.routes.map fun (r : Nat × Nat) => Output.notice r.1 0 bytes }).recordOwn p bytes

/-- A kind 8 record (R248). -/
def State.record8 (s : State) (p : Nat) (w : Nat × Nat) : State :=
  s.record p (bytesOf 2 8 ++ bytesOf 1 w.1 ++ bytesOf 1 0 ++ bytesOf 4 p ++ bytesOf 8 (s.part p).rpCur ++ bytesOf 8 w.2)

/-! ### Restoring (R247 steps 3-7) -/

/-- Blanks the memory of a partition: its tiles' scratchpads, accumulators and bonded blocks, and the HBM it maps. -/
def State.blankPart (s : State) (p : Nat) : State :=
  let spans := s.hbmFrames p ++ (s.partTiles p).flatMap fun b =>
    [(kScratch b.2, Config.scratchBytes), (kAcc b.2, accBytes), s.bondedPlace b.2]
  { s with
    mem := s.mem.filter fun c => !inSpans spans c.1
    full := s.full.filter fun w => !inSpans spans (8 * w)
    poison := s.poison.filter fun l => !inSpans spans (64 * l) }

/-- Loads the tiles of a recovery point in ascending rank. -/
def State.loadTiles (s : State) : List ((Nat × Nat) × TileImage) → State
  | [] => s
  | (b, g) :: rest => ((s.loadImage b.2 g).resendIssued b.2 g).loadTiles rest

/-- The tiles of a partition with the images of a recovery point: by logical number, or for a point that RESTORE named by the tiles
that took its images in ascending rank then (R100 RESTORE, R247). -/
def State.imagesFor (s : State) (p : Nat) (r : RecPoint) : List ((Nat × Nat) × TileImage) :=
  let x := s.part p
  let ranks := if x.rpTiles.isEmpty then r.images.map (·.rank) else x.rpTiles
  (s.partTiles p).filterMap fun b => ((ranks.zip r.images).find? (·.1 == b.1)).map fun g => (b, g.2)

/-- Restores what a recovery point holds (R80, R100 RESTORE, R247). -/
def State.loadPoint (s : State) (p : Nat) (r : RecPoint) : State :=
  let s := s.blankPart p
  let mem := r.hbm.foldl (fun m (c : Host.Cell) => Memory.write m c.1 c.2) s.mem
  let full := r.full.foldl KeySet.add s.full
  let s := { s with mem := mem, full := full }
  let s := s.loadTiles (s.imagesFor p r)
  let s := s.setPart p { s.part p with jobs := r.jobs, rpNext := r.num + 1 }
  { s with mapped := s.mappedNow }

/-- Every tile of a protected partition takes a full interval (R239, R247 step 6). -/
def State.fullAll (s : State) (p : Nat) : State :=
  if (s.part p).prot then ((s.partTiles p).map (·.2)).foldl State.fullInterval s else s

/-- EN is cleared on every queue of a partition's VFs (R247 step 7). -/
def State.disableQueues (s : State) (p : Nat) : State :=
  let fns := s.vfsOf p
  { s with queues := s.queues.map fun q => if fns.contains (q.1 / 16) then (q.1, { q.2 with en := false }) else q }

/-- Entry 5 of the attestation log extended by a packet, its VALID cleared (R36). -/
def State.attestOp (s : State) (w : Vector Word 8) : State :=
  let packet := (vset w 0 (vget 0 w 0 &&& ~~~1#64)).toList.flatMap fun x => bytesOf 8 x.toNat
  { s with attest := vset s.attest 5 (digest (digestBytes (vget 0 s.attest 5) ++ packet)) }

/-- A partition operation has had its effect: entry 5 of the attestation log is extended, and the packet completes (R36). -/
def State.accepted (s : State) (id : Nat) : State :=
  match s.taken.find? (·.id == id) with
  | some t => (s.attestOp t.words).setPacket id .finished
  | none => s

/-- A restore has everything it waits for: the point is loaded, or without one every job ends and memory is zero, and
the partition runs again (R247 steps 3-7). -/
def State.finishRestore (s : State) (p : Nat) : State :=
  let x := s.part p
  if x.stage != .restoring || !x.readTodo.isEmpty || !x.badStacks.isEmpty then s
  else
    let s := match s.currentPoint p with
      | some r => s.loadPoint p r
      | none => (s.blankPart p).setPart p { x with jobs := [] }
    let s := (s.fullAll p).disableQueues p
    let s := match x.restore with
      | some id => s.accepted id
      | none => s
    (s.ubnarCtl p).setPart p { s.part p with stage := .active, restore := none }

/-- A partition discards its work, and the notice and the exposed windows are written (R247 steps 1 and 2). -/
def State.discard (s : State) (part : Nat) : State :=
  let jobs := (s.part part).jobs.map (·.num)
  let s := s.purge part
  let s := (if jobs.isEmpty then [0] else jobs).foldl (fun s j => s.notice part j) s
  (s.part part).exposed.foldl (fun s w => s.record8 part w) s

/-- The segments of a partition's current recovery point are read back (R247 step 4). -/
def State.readBack (s : State) (part : Nat) : State :=
  let todo := match s.currentPoint part with
    | some r => List.range r.segs
    | none => []
  (s.setPart part { s.part part with stage := .restoring, readTodo := todo }).finishRestore part

/-- PARTITION_ROLLBACK (R246, R247): a stopped partition discards its work and is restored. One that is switched out loses its save;
it is restored when it is switched in, since it has no tiles now (log 76, DEDUCED). -/
def execPartitionRollback (part : Nat) (s : State) : Out :=
  let x := s.part part
  if x.stage == .stopped then .next ((s.discard part).readBack part)
  else if x.stage == .out && x.lost then
    let s := s.discard part
    .next ({ s with saves := s.saves.filter (·.part != part) }.setPart part { s.part part with lost := false })
  else .next s

/-- SEGMENT_READ_BACK (R247 step 4): a segment of the recovery point has come back; one whose CRC-32C does not match is
read again. Nothing comes over the fabric while the part has no DEVID (R77). -/
def execSegmentReadBack (part seg : Nat) (crcOk : Bool) (s : State) : Out :=
  let x := s.part part
  if x.stage != .restoring || !s.devValid || !x.readTodo.contains seg || !crcOk then .next s
  else .next ((s.setPart part { x with readTodo := x.readTodo.erase seg }).finishRestore part)

/-- HBM_STACK_RETRAIN (R247 step 5): a stack trains again, or does not within 10 s, and then the partitions that wait for it
stay stopped. -/
def execHbmStackRetrain (stack : Nat) (ok : Bool) (s : State) : Out :=
  if !ok then .next s
  else .next ((s.parts.map (·.1)).foldl (fun s p =>
    let x := s.part p
    (s.setPart p { x with badStacks := KeySet.drop x.badStacks stack }).finishRestore p) s)

end Sys2Proof.Machine
end

