-- ==== Sys2Proof/Machine/Quantum.lean ====
section
/-!
DEFINITION. The end of a quantum of a deterministic partition (spec/06_scheduler.md R123-R126, spec/08_experts.md R166).
-/

namespace Sys2Proof.Machine

/-! ### When a quantum ends (R125) -/

/-- Whether an item of a partition is still to land in this quantum: one that can leave its NI now. One that waits at its
home, is refused or collected, or waits behind such a one, counts as landed (R125, log 37, DEDUCED). -/
def State.landing (s : State) (i : Item) : Bool := i.stage == .waiting && s.injectable i

/-- Whether a thread that waits for a response has one on the way; otherwise its operation waits at its home or is refused,
and the thread waits as in a waiting instruction (R123, R125). -/
def State.stuck (s : State) (h : Nat) : Bool :=
  let t := s.thread h
  t.status == .blocked .response &&
    s.net.any fun i => i.ord + 1 == t.req && i.src == h &&
      (match i.body with | .ret _ => !s.landing i | _ => false)

/-- Whether the matrix engine of a tile has something to do in this quantum (R125). -/
def State.matrixBusy (s : State) (site p : Nat) : Bool :=
  let t := s.tile site
  match t.mrun, t.mqueue with
  | some r, _ =>
    let done := match r.cmd.op with
      | .floe => ((s.part p).floe.map fun f => decide (r.cmd.desc.steps ≤ f.k)).getD true
      | .mma | .mcmd => decide (r.cmd.desc.steps ≤ r.k)
      | _ => r.k != 0
    r.cmd.part == p && r.park.isNone && !r.ready && s.chunkGate site p && (done || s.chunkDue site p 1)
  | none, c :: _ => c.part == p && s.chunkGate site p && !s.accessBefore c.src c.ord
  | none, [] => false

/-- Whether a copy channel has something to do in this quantum. -/
def State.channelBusy (s : State) (site p c : Nat) : Bool :=
  match vget none (s.tile site).xfers c with
  | some x =>
    x.part == p && x.park.isNone && !x.pending && !s.accessBefore x.hart x.ord && s.chunkGate site p &&
      (decide (x.total ≤ x.done.length) || s.chunkDue site p 0)
  | none => false

/-- Whether a floe's members have all finished a chunk that is to be committed (R369). -/
def State.floeBusy (s : State) (p : Nat) : Bool :=
  match (s.part p).floe with
  | some f =>
    f.run.isSome && f.park.isNone && !f.members.isEmpty &&
      f.members.all fun m => ((s.tile m).mrun.map fun r => r.cmd.op == .floe && r.ready).getD false
  | none => false

/-- Whether the quantum of a partition has ended (R125); scan slices that are due on an idle core come first (R38). -/
def State.quantumOver (s : State) (p : Nat) : Bool :=
  let x := s.part p
  let sites := (s.partTiles p).map (·.2)
  x.det && (x.stage == .active || x.stage == .draining) &&
    (sites.flatMap tileCores).all (fun c => !s.scanHolds c || (List.range 8).any fun t => (s.thread (c * 8 + t)).act.isSome) &&
    sites.all (fun t => (s.tile t).works && !(s.tile t).replaying) &&
    sites.all (fun t => (tileHarts t).all fun h => s.reached h || s.stuck h) &&
    s.net.all (fun i => i.part != p || !s.landing i) &&
    sites.all (fun t => !s.matrixBusy t p && (List.range 4).all fun c => !s.channelBusy t p c) && !s.floeBusy p

/-! ### Serving what was collected (R124, R125, R166) -/

/-- A steal request is served against its victim list (R117, R125). -/
def State.serveSteal (s : State) (i : Item) (thief : Nat) : State :=
  let s := s.dropItem i.ord
  match s.coreKey i.part thief with
  | none => s
  | some key =>
    let able (v : Nat) : Bool :=
      match s.coreKey i.part v with
      | some k => !(s.core k).deque.isEmpty && !(s.core k).preempt
      | none => false
    match (s.victims key).find? able with
    | none => s.setCore key { s.core key with steal := none }
    | some v =>
      match s.coreKey i.part v with
      | none => s
      | some k =>
        match s.grant k with
        | (some f, s) => (s.countSent (k / 4) f.job 1).stolen key f
        | (none, s) => s.setCore key { s.core key with steal := none }

/-- A launch packet goes into its device queue (R124, R150). -/
def State.servePacket (s : State) (i : Item) (w : Vector Word 8) : State :=
  let s := s.dropItem i.ord
  let key := s.devQueueOf i.part i.src
  let d := SMap.get DevQueue.init s.devq key
  { s with devq := SMap.put s.devq key (d.add w i.mid i.src i.chan i.srank i.seq) }

/-- Serves one collected or refused item at a quantum end; EQFIREs and answers have their own places. -/
def State.serve (s : State) (i : Item) : State :=
  match s.net.find? (·.ord == i.ord) with
  | none => s
  | some i =>
    if s.behind i then s
    else match i.body with
      | .stealReq thief => s.serveSteal i thief
      | .packet w => s.servePacket i w
      | .eqfire _ | .response .. | .spawnAns _ => s
      | _ => s.offer i true

/-- Items of a partition that a quantum end serves. -/
def State.collected (s : State) (p : Nat) : List Item :=
  sortBy servedBefore (s.net.filter fun i => i.part == p &&
    (match i.stage with | .collected | .refused _ => true | _ => false))

/-- The order in which the packets of a quantum go into the device queues: by logical core of the issuer, then in issue order
(R321). -/
def launchedBefore (a b : Item) : Bool := if a.srank / 8 ≠ b.srank / 8 then a.srank / 8 < b.srank / 8 else a.ord < b.ord

/-- Serves the collected items of a partition, the launch packets in an order of their own (R125, R321). -/
def State.serveAll (s : State) (p : Nat) : State :=
  let l := s.collected p
  let packet (i : Item) : Bool := match i.body with | .packet _ => true | _ => false
  (sortBy launchedBefore (l.filter packet)).foldl State.serve ((l.filter fun i => !packet i).foldl State.serve s)

/-- EQFIREs take effect after the insertions (R166). -/
def State.serveFires (s : State) (p : Nat) : State :=
  (s.collected p).foldl (fun s i => match i.body with | .eqfire q => if s.behind i then s else s.acceptFire i q | _ => s) s

/-- Every tile fires, and the fire messages are delivered in ascending queue number (R166). -/
def State.fireAll (s : State) (p : Nat) : State :=
  let from_ := s.ordCtr
  let s := ((s.partTiles p).map (·.2)).foldl (fun s t => s.fireTile t 4) s
  let fresh := s.net.filter fun i => from_ ≤ i.ord && i.part == p
  let qid (i : Item) : Nat := match i.body with
    | .message m => (match m.dom with | .fire _ _ q => q | _ => 0)
    | _ => 0
  (sortBy (fun a b => qid a < qid b) fresh).foldl State.serve s

/-- Answers that were collected reach their threads (R123, R124). -/
def State.serveAnswers (s : State) (p : Nat) : State :=
  (s.collected p).foldl (fun s i =>
    match i.body, i.dst with
    | .response cause a wr r req, .hart h => s.answer i h cause a wr r req
    | .spawnAns ok, .hart h => s.spawnAnswered i h ok
    | _, _ => s) s

/-! ### Pre-emption and boundaries at a quantum end (R126, R237) -/

/-- A core takes its pre-emption request, and notes that it is complete (R126). -/
def State.preemptCore (s : State) (core : Nat) : State :=
  let c := s.core core
  let s := if c.preReq then s.setCore core { c with preReq := false, preempt := true } else s
  if s.preemptDone core then s.setCore core { s.core core with preempted := true } else s

/-- A tile's checkpoint boundary, if it has reached it (R237). -/
def State.boundaryIf (s : State) (site : Nat) : State := if s.atBoundary site then s.boundary site else s

/-- QUANTUM_END (R125, R126, R166): the collected events are served, the queues fire, pre-emption requests and checkpoint
boundaries are taken, and the next quantum starts. -/
def execQuantumEnd (part : Nat) (s : State) : Out :=
  if !s.quantumOver part then .next s
  else
    let sites := (s.partTiles part).map (·.2)
    let s := s.serveAll part
    let s := (s.wakeWaiters.serveFires part).fireAll part
    let s := s.serveAnswers part
    let s := (sites.flatMap tileCores).foldl State.preemptCore s
    let s := sites.foldl State.boundaryIf s
    let x := s.part part
    let s := s.setPart part { x with quanta := x.quanta + 1 }
    .next (sites.foldl State.startTile s)

end Sys2Proof.Machine
end

