-- ==== Sys2Proof/Machine/Links.lean ====
section
/-!
DEFINITION. The host port and the Rypol ports (spec/04_links.md R66-R78, spec/05_command.md R83-R87, R102): the
host-visible registers, the queue registers, the errors that stop a queue, and flits that arrive.
-/

namespace Sys2Proof.Machine

/-! ### Queues (R83, R107) -/

/-- The physical function's number among the functions: VF0-VF15 are 0-15 (R66). -/
def pf : Nat := 16
/-- The key of a queue. -/
def queueKey (fn q : Nat) : Nat := fn * 16 + q
/-- The registers of a queue. -/
def State.queue (s : State) (fn q : Nat) : QRegs := SMap.get QRegs.init s.queues (queueKey fn q)
/-- Sets the registers of a queue. -/
def State.setQueue (s : State) (fn q : Nat) (r : QRegs) : State :=
  { s with queues := SMap.put s.queues (queueKey fn q) r }

/-- Whether a function has a queue of a number (R83). -/
def hasQueue (fn q : Nat) : Bool := (fn < 16 && q < 16) || (fn == pf && q < 4)

/-- The partition a function is bound to, 0 for the PF (R69). -/
def State.partOfFn (s : State) (fn : Nat) : Option Nat := if fn = pf then some 0 else vget none s.vfs fn

/-- The control tile that serves queue `q` of a partition's VF (R107). -/
def State.server (s : State) (p q : Nat) : Nat :=
  let n := (s.ctlTiles p).length
  if n = 0 then 0 else q % n

/-- Where the command processor of control tile `c` runs: thread 7 of core 3 (R107). Ubnar, which serves the privileged
queues, is no thread of the model and stands outside the sites. -/
def State.cpHart (s : State) (p c : Nat) : Nat := ((s.ctlSite p c).getD Config.numSites) * 32 + 31

/-- An item of a command processor, on the function of the queue it works for (R70). -/
def State.cpItem (s : State) (p c fn : Nat) (dst : Dest) (body : Body) : Item :=
  let h := s.cpHart p c
  { s.item h 0 false dst body with
    fn := fn, part := p, job := 0, counted := false, srank := if p = 0 then 0 else s.srank h, mid := 0 }

/-- The next number of a command processor's thread, which its host writes and signal changes take as remote stores and atomics (R81,
R137, log 103, DEDUCED). The privileged queues' traffic has none. -/
def State.cpSeq (s : State) (p c : Nat) : Nat × State :=
  match s.ctlSite p c with
  | some x => if p = 0 then (0, s) else s.takeSeq (x * 32 + 31)
  | none => (0, s)

/-! ### Egress of a command processor (R81, R90) -/

/-- Asks for a checkpoint boundary on a tile (R81, R237). -/
def State.askBoundary (s : State) (site : Nat) : State :=
  let t := s.tile site
  if t.prot then s.setTile site { t with closeReq := true } else s

/-- Egress that is always committed (R81): a signal's decrement, an interrupt. Without a checkpoint interval it leaves at
once; that of a privileged queue is immediate. -/
def State.commitOut (s : State) (p c : Nat) (i : Item) : State :=
  match s.ctlSite p c with
  | some site =>
    if p != 0 && (s.part p).prot && (s.tile site).prot then
      ({ s with egressQ := s.egressQ ++ [(site, (s.tile site).ival, { i with ceg := true })] }).askBoundary site
    else
      let w := match i.body with
        | .sig a _ _ => if a.getLsbD 63 then (s.part p).window hostDest (some (a.toNat, 8)) else none
        | _ => none
      s.leaveExposed i w
  | none => s.leave i

/-- Changes a signal as egress of a packet (R90, R94). -/
def State.signalOut (s : State) (p c fn id : Nat) (a : Word) (op : Nat) (v : Word) : State :=
  let (q, s) := s.cpSeq p c
  s.commitOut p c { s.cpItem p c fn .hostMem (.sig a op v) with ord := id, seq := q }

/-- Raises an MSI-X vector on a function, for a packet or for none, 0 (R90); it is dropped for a VF that is bound to no partition
when it leaves (R69). -/
def State.irqOut (s : State) (p c fn id vector : Nat) : State :=
  let (q, s) := s.cpSeq p c
  s.commitOut p c { s.cpItem p c fn .hostMem (.irq fn vector) with ord := id, seq := q }

/-! ### Stopping a queue (R84, R87, R102) -/

/-- A kind 3 record (R106). -/
def State.record3 (s : State) (p fn q idx code : Nat) : State :=
  s.record p (bytesOf 2 3 ++ bytesOf 1 (if fn = pf then 0xFF else fn) ++ bytesOf 1 q ++ bytesOf 4 p ++ bytesOf 8 idx ++
    bytesOf 2 code ++ bytesOf 6 0)

/-- A queue stops on an error (R102): STOPPED, ERRCODE and ERRIDX, then ERRVEC, then the record. The spec does not say what an
ERRVEC beyond the function's vectors does: it is raised with that number (log 66, DESIGN CHOICE). The record is that of the failed
packet's partition `p`. A function that has been bound to another one since is left as it is. -/
def State.stopQueue (s : State) (p fn q code idx : Nat) : State :=
  let r := s.queue fn q
  if (s.partOfFn fn).getD p ≠ p then s.record3 p fn q idx code
  else
    let s := s.setQueue fn q { r with stopped := true, errcode := code, erridx := BitVec.ofNat 32 idx, polls := 0 }
    (s.irqOut p (s.server p q) fn 0 r.errvec).record3 p fn q idx code

/-! ### Queue registers (R83, R84, R87) -/

/-- QCFG as it reads (R84). -/
def QRegs.cfgWord (r : QRegs) : Word :=
  BitVec.ofNat 64 (r.errvec * 2 ^ 24 + r.prio * 2 ^ 16 + r.sizelog * 16 + ofBool r.en)

/-- Whether a taken packet comes from a queue. -/
def Taken.from_ (t : Taken) (src : QSrc) : Bool := t.src == src

/-- QSTAT as it reads (R84). -/
def State.statWord (s : State) (fn q : Nat) : Word :=
  let r := s.queue fn q
  BitVec.ofNat 64 (r.erridx.toNat * 2 ^ 32 + r.errcode * 256 + ofBool r.stopped * 2 +
    ofBool (s.taken.any fun t => t.from_ (.vf fn q)))

/-- Whether the part completes accesses to a queue's registers: a VF must be bound (R69). -/
def State.queueOpen (s : State) (fn q : Nat) : Bool := hasQueue fn q && (s.partOfFn fn).isSome

/-- The offset of a queue's page in its function's BAR0 (R83). -/
def queuePage (fn q : Nat) : Nat := (if fn = pf then 0x100000 else 0) + 0x1000 * q

/-- An access that a function does not support: Unsupported Request, which its uncorrectable error status shows in bit 20
(R66, R68, R69, log 95, PRESUMED). -/
def State.unsupported (s : State) (fn off : Nat) : State :=
  { s with aer := SMap.put s.aer fn (SMap.get 0 s.aer fn ||| 2 ^ 20), outs := s.outs ++ [.unsupported fn off] }

/-- The vendor identifier that a function reports (R66). -/
def State.vendorOf (_ : State) (_fn : Nat) : BitVec 16 := Config.vendorId

/-- A write to a queue register at an offset of its page: Unsupported Request for an unbound VF (R69); dropped before STATE 2, as
all queue traffic is (R34). -/
def queueWrite (s : State) (fn q off : Nat) (f : QRegs → State) : Out :=
  if !hasQueue fn q then .next s
  else if !s.queueOpen fn q then .next (s.unsupported fn (queuePage fn q + off))
  else if s.boot.state ≠ 2 then .next s
  else .next (f (s.queue fn q))

/-- QBASE_WRITE (R83, R84): ignored while EN is 1. No rule checks the form of QBASE: where its address bits are no form of R85
the slots are read as those bits say with the rest ignored (log 66, DESIGN CHOICE). -/
def execQbaseWrite (fn q : Nat) (val : Word) (s : State) : Out :=
  queueWrite s fn q 0x00 fun r => if r.en then s else s.setQueue fn q { r with base := val &&& ~~~0xFFF#64 }

/-- QCFG after a write (R84). -/
def QRegs.writeCfg (r : QRegs) (val : Word) : QRegs :=
  let v := val.toNat
  let r := { r with errvec := bitsN v 31 24, prio := bitsN v 19 16 }
  if r.en then { r with en := v % 2 == 1 }
  else
    let r := { r with sizelog := bitsN v 8 4 }
    if v % 2 = 1 && 4 ≤ r.sizelog && r.sizelog ≤ 16 then
      { r with
        en := true, qread := 0, notified := 0, erridx := 0, errcode := 0, stopped := false, polls := 0, enables := r.enables + 1 }
    else r

/-- QCFG_WRITE (R84, R101). -/
def execQcfgWrite (fn q : Nat) (val : Word) (s : State) : Out :=
  queueWrite s fn q 0x08 fun r => s.setQueue fn q (r.writeCfg val)

/-- Whether a QNOTIFY value is accepted (R87). -/
def QRegs.accepts (r : QRegs) (n : BitVec 32) : Bool :=
  (n - r.qread).toNat ≤ 2 ^ r.sizelog && (n - r.notified).toNat ≤ 2 ^ r.sizelog

/-- QNOTIFY_WRITE (R84, R87): a value out of range stops the queue with code 8. -/
def execQnotifyWrite (fn q : Nat) (val : Word) (s : State) : Out :=
  queueWrite s fn q 0x10 fun r =>
    let n : BitVec 32 := val.setWidth 32
    if r.accepts n then s.setQueue fn q { r with notified := n }
    else s.stopQueue ((s.partOfFn fn).getD 0) fn q 8 n.toNat

/-- QSTAT_WRITE (R84, R102): writing 1 to STOPPED clears STOPPED and ERRCODE. -/
def execQstatWrite (fn q : Nat) (val : Word) (s : State) : Out :=
  queueWrite s fn q 0x20 fun r =>
    if val.getLsbD 1 then s.setQueue fn q { r with stopped := false, errcode := 0 } else s

/-! ### Other host-visible registers (R35, R56, R68, R74, R77) -/

/-- The boot status register (R35). -/
def Boot.word (b : Boot) : Word :=
  BitVec.ofNat 64 (b.ranked * 2 ^ 32 + b.spares * 2 ^ 24 + ofBool b.rmapchg * 2 ^ 23 + ofBool b.torn * 2 ^ 22 +
    ofBool b.compact * 2 ^ 21 + ofBool b.newret * 2 ^ 20 + ofBool b.short * 2 ^ 19 + b.cause * 256 + b.stage * 16 + b.state)

/-- The fabric identity register (R77). -/
def State.identityWord (s : State) : Word := BitVec.ofNat 64 (ofBool s.devValid * 2 ^ 12 + s.devid.toNat)

/-- The status register of a Rypol port (R74). -/
def Port.word (p : Port) : Word :=
  BitVec.ofNat 64 (p.crcerr * 2 ^ 48 + p.replay * 2 ^ 32 + p.resvc * 2 ^ 16 + p.lanes * 16 + p.state)

/-- PORT_STATUS_WRITE (R74): CRCERR and REPLAY clear where ones are written. -/
def execPortStatusWrite (port : Nat) (val : Word) (s : State) : Out :=
  let p := s.port port
  let v := val.toNat
  .next (s.setPort port { p with
    crcerr := p.crcerr &&& (0xFFFF ^^^ bitsN v 63 48), replay := p.replay &&& (0xFFFF ^^^ bitsN v 47 32) })

/-- What a read of BAR0 returns: none for Unsupported Request (R67, R68, R69, R83). -/
def State.readReg (s : State) (fn off size : Nat) : Option Word :=
  let regs (q r : Nat) : Word :=
    let x := s.queue fn q
    if r = 0 then x.base
    else if r = 8 then x.cfgWord
    else if r = 0x18 then x.qread.setWidth 64
    else if r = 0x20 then s.statWord fn q
    else 0
  if size ≠ 8 || off % 8 ≠ 0 then none
  else if fn = pf then
    if off = 0 then some s.boot.word
    else if off = 8 then some s.identityWord
    else if 0x1000 ≤ off && off < 0x1080 then some (s.reg ((off - 0x1000) / 8)).cstepWord
    else if 0x10000 ≤ off && off < 0x10200 then some (s.port ((off - 0x10000) / 8)).word
    else if 0x100000 ≤ off && off < 0x104000 then some (regs ((off - 0x100000) / 0x1000) (off % 0x1000))
    else some 0
  else if (s.partOfFn fn).isSome then some (if off < 0x10000 then regs (off / 0x1000) (off % 0x1000) else 0)
  else none

/-- A host read of BAR0 completes: its value, or Unsupported Request, which the function's error status shows (R66, R68, R69, log 95,
PRESUMED). The opcode table has no row for it: no step is one. -/
def State.hostRead (s : State) (fn off size : Nat) : Option Word × State :=
  match s.readReg fn off size with
  | some v => (some v, s)
  | none => (none, s.unsupported fn off)

/-- The host clears bits of a function's uncorrectable error status by writing ones to them (R66, log 95, PRESUMED). No row of the opcode
table is such an access to configuration space. -/
def State.clearAer (s : State) (fn ones : Nat) : State :=
  let v := SMap.get 0 s.aer fn
  { s with aer := SMap.put s.aer fn (v - (v &&& ones)) }

/-- A write to a register of a queue page; reserved and read-only offsets are ignored (R83). -/
def pageWrite (s : State) (fn q r : Nat) (val : Word) : Out :=
  match r with
  | 0x00 => execQbaseWrite fn q val s
  | 0x08 => execQcfgWrite fn q val s
  | 0x10 => execQnotifyWrite fn q val s
  | 0x20 => execQstatWrite fn q val s
  | _ => .next s

/-- REGISTER_WRITE (R67-R69, R83): a host write to BAR0 of a function. -/
def execRegisterWrite (fn off size : Nat) (val : Word) (s : State) : Out :=
  if pf < fn then .next s
  else if size ≠ 8 || off % 8 ≠ 0 || (s.partOfFn fn).isNone then .next (s.unsupported fn off)
  else if fn = pf then
    if 0x1000 ≤ off && off < 0x1080 then execCsteplimWrite ((off - 0x1000) / 8) val s
    else if 0x10000 ≤ off && off < 0x10200 then execPortStatusWrite ((off - 0x10000) / 8) val s
    else if 0x100000 ≤ off && off < 0x104000 then pageWrite s fn ((off - 0x100000) / 0x1000) (off % 0x1000) val
    else .next s
  else if off < 0x10000 then pageWrite s fn (off / 0x1000) (off % 0x1000) val
  else .next s

/-! ### Flits (R72, R73, R77) -/

/-- The hart number that stands for a sender on another device: beyond all sites and home agents. -/
def peerHart (sdev srank : Nat) : Nat := peerSites * 32 + sdev * 2 ^ 18 + srank

/-- The header of the two words of R135. -/
def headerOf (a b : Nat) : Header :=
  { sdev := bitsN a 63 52, srank := bitsN a 51 34, drank := bitsN a 33 16, chan := bitsN a 15 12, kind := bitsN a 11 8
    ninsn := bitsN a 7 3, job := bitsN b 63 48, ddev := bitsN b 47 36, ceg := bitsN b 32 32 == 1, seq := bitsN b 31 0 }

/-- A message from another device (R77, R135): it goes to the core it names, or back with the cause "no such job". Kinds
that the part never forms are dropped (R138). -/
def State.peerMessage (s : State) (w : List Word) : State :=
  let a := (w.getD 0 0).toNat
  let b := (w.getD 1 0).toNat
  let h := headerOf a b
  let m := mkMsg h (Vector.ofFn fun i => w.getD (2 + i.val) 0) none
  let i : Item :=
    { s.item (peerHart h.sdev h.srank) h.seq false (.core (h.drank / 8)) (.message m) with
      srank := h.srank, job := h.job, part := (s.jobOwner h.job).getD 0, mid := m.mid, ceg := h.ceg, counted := false }
  if (a = 0 && b = 0) || 6 ≤ h.kind then s
  else if (s.jobOwner h.job).isNone then s.returnMsg i m 15
  else s.emit i

/-- The atomic operations in the order of R278. -/
def amoOps : List AmoOp := [.add, .and, .or, .xor, .min, .max, .minu, .maxu, .swap, .cas, .fadd]

/-- What an access of another device asks of the address's home: a posted store, a load or an atomic (log 40, DESIGN CHOICE). -/
def peerBody (op a n v c : Nat) : Option Body :=
  match op with
  | 0 => none
  | 1 => some (.store a (bytesOf n v) false)
  | 2 => some (.ret (.read [(a, n)]))
  | k => amoOps[k - 3]?.map fun o => .ret (.amo o a n v c)

/-- An access from another device (R72, R77, R78): its home translates the address; the device returns it if no partition holds
its job. -/
def State.peerStart (s : State) (w : List Word) : State :=
  let h := headerOf (w.getD 0 0).toNat (w.getD 1 0).toNat
  let (op, a, n, v, c) := Config.peerAccess w
  match peerBody op (a % 2 ^ 56) n v c with
  | none => s
  | some body =>
    let i : Item :=
      { s.item (peerHart h.sdev h.srank) h.seq false (homeOf (a % 2 ^ 56)) body with
        srank := h.srank, job := h.job, part := (s.jobOwner h.job).getD 0, mid := msgId h.sdev h.srank h.seq, ceg := h.ceg
        counted := false }
    if (s.jobOwner h.job).isNone then s.returnPeer i h.sdev 15 else s.emit i

/-- One slot of a message flit: empty, a message, or an access (R72). -/
def State.peerSlot (s : State) (w : List Word) : State :=
  let a := (w.getD 0 0).toNat
  if a = 0 && (w.getD 1 0).toNat = 0 then s
  else if bitsN a 11 8 < 7 then s.peerMessage w
  else s.peerStart w

/-- The three message slots of a message flit (R72); a bulk flit's data has no effect of its own (log 40, DEDUCED). -/
def State.flitData (s : State) (words : List Word) : State :=
  if (words.getD 0 0).toNat % 16 = 1 then
    [1, 11, 21].foldl (fun s o => s.peerSlot ((words.drop o).take 10)) s
  else s

/-- A replay is asked for (R73): after 16 within 1 ms the port trains again on the `lanes` that remain and goes down if
there is none. -/
def Port.askReplay (p : Port) (now lanes : Nat) : Port :=
  let p := { p with crcerr := min (p.crcerr + 1) 0xFFFF, replay := min (p.replay + 1) 0xFFFF
                    times := now :: p.times.filter fun t => now < t + 100000 }
  if p.times.length < 16 then p
  else
    let n := min p.lanes lanes
    { p with times := [], lanes := n, state := if n = 0 then 0 else if n = 4 then 2 else 3 }

/-- The other end asks for a replay from a link sequence: the port sends every flit from it on again, in order, out of its retry
buffer; the earlier ones have arrived (R73). Where numbers have come round, the flit that it names is the last one with that number. -/
def State.resend (s : State) (port from_ : Nat) : State :=
  let p := s.port port
  let named (f : Flit) : Bool := f.seq == from_ % 2 ^ 16
  let after := (p.retry.reverse.takeWhile fun f => !named f).reverse
  let flits := if p.retry.any named then p.retry.drop (p.retry.length - after.length - 1) else []
  { s.setPort port { p with retry := flits } with outs := s.outs ++ flits.map fun f => .flit port f.words }

/-- FLIT_RECEIVE (R72, R73): a flit arrives, its CRC good or not; `words` are bytes 0-247. `lanes` is how many lanes remain
should the port train again. A flit out of sequence is passed over: the sender sends it again. With `ask` it is no flit that
arrives but the other end's request for a replay. -/
def execFlitReceive (port : Nat) (crcOk : Bool) (ask : Option Nat) (lanes : Nat) (words : List Word) (s : State) : Out :=
  let p := s.port port
  let head := (words.getD 0 0).toNat
  if !p.inService then .next s
  else match ask with
  | some q => .next (s.resend port q)
  | none =>
  if !crcOk || (head % 16 ≠ 1 && head % 16 ≠ 2) then
    let s := { s.setPort port (p.askReplay s.refTime lanes) with outs := s.outs ++ [.replayRequest port p.lseq] }
    .next (if (s.port port).inService then s else s.portDown port)
  else if bitsN head 23 8 ≠ p.lseq then .next s
  else .next ((s.setPort port { p with lseq := (p.lseq + 1) % 2 ^ 16 }).flitData words)

end Sys2Proof.Machine
end

