-- ==== Sys2Proof/Machine/Command.lean ====
section
/-!
DEFINITION. The command processor (spec/05_command.md R85-R99, R101-R109): taking packets, their checks, the packets of
types 0x01-0x09, completion and errors.
-/

namespace Sys2Proof.Machine

/-! ### Packets (R88) -/

/-- `n` bytes from byte `o`, as a number. -/
def Taken.num (t : Taken) (o n : Nat) : Nat := packetNum t.words o n
/-- The BARRIER bit. -/
def Taken.barrier (t : Taken) : Bool := (t.word 0).getLsbD 1
/-- The IRQ bit. -/
def Taken.irq (t : Taken) : Bool := (t.word 0).getLsbD 2
/-- The VECTOR field. -/
def Taken.vector (t : Taken) : Nat := bitsN (t.word 0).toNat 23 16
/-- The SIGNAL address, 0 for none. -/
def Taken.signal (t : Taken) : Word := t.word 1

/-! ### Addresses (R85) -/

/-- The three forms of an address word. -/
inductive PForm where
  | host | chip | device
  deriving DecidableEq, Repr

/-- The form of an address word. -/
def pform (a : Word) : PForm := if a.getLsbD 63 then .host else if a.getLsbD 62 then .chip else .device

/-- Whether an address word of a partition's packet has a valid form and alignment (R85, R177); partition 0 is the PF's,
which has no virtual addresses and no partition window. -/
def addrOk (p : Nat) (a : Word) (align : Nat) : Bool :=
  let x := a.toNat
  x % align == 0 &&
    match pform a with
    | .host => true
    | .chip => bitsN x 61 56 == 0 && (if bitsN x 47 47 = 1 then p != 0 && bitsN x 46 32 == 0 else bitsN x 46 45 == 0)
    | .device => bitsN x 61 56 == 0 && bitsN x 55 48 != 0 && p != 0

/-- Whether a range keeps to the form of its first byte. -/
def spanOk (p : Nat) (a : Word) (n : Nat) : Bool :=
  addrOk p a 1 &&
    match pform a with
    | .host => a.toNat + n ≤ 2 ^ 64
    | .chip => a.toNat % 2 ^ 56 + n ≤ 2 ^ 56
    | .device => a.toNat + n ≤ 2 ^ 56

/-- Whether a signal's address may be named (R85, R88). -/
def signalOk (p : Nat) (a : Word) : Bool := addrOk p a 8

/-- Reads bytes at an address of any form: none if the read is refused or fails (R91, R92). -/
def State.formRead (s : State) (p : Nat) (a : Word) (n : Nat) : Option (List Byte) × State :=
  match pform a with
  | .host => (some (s.bytes (kHost a.toNat) n), s)
  | .chip =>
    match s.window p a.toNat with
    | some (w, o) => s.winRead w o n
    | none => (none, s)
  | .device =>
    match s.readAll p (pieces a.toNat n) with
    | (.ok bs, s) => (some bs, s)
    | (.error _, s) => (none, s)

/-- The regions of a range of pages, if each is owned and its capability rests (R92, R189): none if a page is missing or a
region is not one a copy may write. -/
def State.restCaps (s : State) (p : Nat) : List (Nat × Nat) → List Nat → Option (List Nat) × State
  | [], acc => (some acc, s)
  | (a, _) :: rest, acc =>
    match s.translate p a with
    | (.error _, s) => (none, s)
    | (.ok e, s) =>
      let rid := bitsN e.leaf.toNat 63 48
      let w1 := (s.region p rid).2
      if rid ≠ 0 && bitsN w1 1 0 = 1 && bitsN w1 2 2 = 0 then
        s.restCaps p rest (KeySet.add acc (capKey rid (bitsN w1 63 48)))
      else (none, s)

/-- Writes bytes of a copy to the pages of a range, whose regions have been checked; each word is full (R92, R194). -/
def State.devicePut (s : State) (p : Nat) : List (Nat × List Byte) → State
  | [] => s
  | (a, bs) :: rest =>
    match s.resolve p a none none with
    | (.ok k, s) => ((s.putEngine k bs).logWrite Config.numSites p a k bs.length true none).devicePut p rest
    | (.bad _, s) => s.devicePut p rest

/-- Whether the egress buffer of the host port has room; else a command processor issues no further egress (R81). -/
def State.hostRoom (s : State) (p : Nat) : Bool :=
  p == 0 || decide ((s.egressQ.filter fun e => e.2.2.dst == .hostMem).length ≤ Config.egressRoom)

/-- A write of host memory by a command processor on a function, as egress of the window that covers it (R70, R81). -/
def State.hostOut (s : State) (p c fn id : Nat) (a : Word) (bs : List Byte) : State :=
  let (q, s) := s.cpSeq p c
  let i := { s.cpItem p c fn .hostMem (.store a.toNat bs true) with ord := id, seq := q }
  match s.ctlSite p c with
  | some site => if p = 0 then s.leaveNow i else (s.depart site i hostDest (some (a.toNat, bs.length))).askBoundary site
  | none => s.leaveNow i

/-- A host write of a packet. One that is performed again sends what is committed egress only: the rest has left, and the host port
drops it (R81, R107). -/
def State.hostWrite (s : State) (t : Taken) (fn : Nat) (a : Word) (bs : List Byte) : State :=
  let x := s.part t.part
  if t.again && x.windowKind (x.window hostDest (some (a.toNat, bs.length))) != 1 then s
  else s.hostOut t.part t.ctl fn t.id a bs

/-- Writes a result of a packet (R98, R99): none if it is refused. The duplicate filter drops one that is written again (R107). -/
def State.resultOut (s : State) (t : Taken) (fn : Nat) (a : Word) (bs : List Byte) : Option State :=
  let p := t.part
  match pform a with
  | .host => some (s.hostWrite t fn a bs)
  | _ => if t.again then some s else
  match pform a with
  | .host => some s
  | .chip =>
    match s.window p a.toNat with
    | none => none
    | some (w, o) =>
      match s.winWrite w true o bs with
      | (.done false, s) => some (s.logWindow Config.numSites p w a.toNat bs)
      | _ => none
  | .device =>
    match s.restCaps p (pieces a.toNat bs.length) [] with
    | (some _, s) => some (s.devicePut p (cutRow a.toNat bs))
    | (none, _) => none

/-! ### Order (R89, R101) -/

/-- Whether a taken packet has started. -/
def Taken.begun (t : Taken) : Bool := match t.stage with | .ready | .held _ => false | _ => true
/-- Whether R89 holds the next packet of a queue: the last one taken has not started, or a barrier packet is open. -/
def State.heldQueue (s : State) (src : QSrc) : Bool := s.taken.any fun t => t.from_ src && (!t.begun || t.isBarrier)

/-- The packets of its queue taken before a packet. -/
def State.earlier (s : State) (t : Taken) : List Taken :=
  (s.taken.takeWhile fun x => x.id != t.id).filter fun x => x.from_ t.src

/-- Whether the command processor of control tile `c` works (R107, R229); that of the privileged queues, partition 0,
always does. -/
def State.cpRuns (s : State) (p c : Nat) : Bool :=
  s.boot.state == 2 &&
    (p == 0 || ((s.part p).stage == .active && (match s.ctlSite p c with
      | some x => let t := s.tile x; t.works && !t.replaying && !t.awaits
      | none => false)))

/-- Whether a packet may start now (R89). -/
def State.startable (s : State) (t : Taken) : Bool :=
  t.stage == .ready && s.cpRuns t.part t.ctl &&
    (let l := s.earlier t
     if t.barrier then l.isEmpty else l.all fun x => x.begun && !x.isBarrier)

/-- The takeable queues of a control tile, with their priority and their place in the round (R101, R150). One whose slot is read
again until it is valid is among them (R87). -/
def State.takeable (s : State) (p c : Nat) : List (Nat × Nat × QSrc) :=
  let fns := if p = 0 then (if c = 0 then [pf] else []) else s.vfsOf p
  let vfs := fns.flatMap fun fn => (List.range (if fn = pf then 4 else 16)).filterMap fun q =>
    let r := s.queue fn q
    if (fn = pf || s.server p q == c) && r.en && !r.stopped && r.qread != r.notified &&
        !s.heldQueue (.vf fn q) then
      some (r.prio, queueKey fn q, QSrc.vf fn q)
    else none
  let dq := (SMap.get DevQueue.init s.devq (p * 4 + c)).slots
  vfs ++ (if p = 0 || dq.isEmpty || s.heldQueue (.device p c) then [] else [(8, 512, .device p c)])

/-- The key of a control tile's round at a priority. -/
def turnKey (p c prio : Nat) : Nat := (p * 4 + c) * 16 + prio

/-- Whether a queue's slot is read again until it is valid (R87). -/
def State.polling (s : State) (x : QSrc) : Bool := match x with | .vf fn q => (s.queue fn q).polls != 0 | _ => false

/-- The queue a control tile takes from next: the highest PRIO, round-robin within it (R101). A queue that polls does not hold up
those of its own priority (R107). -/
def State.nextTake (s : State) (p c : Nat) : Option (Nat × Nat × QSrc) :=
  let l := s.takeable p c
  let top := l.foldl (fun m x => max m x.1) 0
  let l := l.filter fun x => x.1 == top && !s.polling x.2.2
  match s.turns.find? (·.1 == turnKey p c top) with
  | some (_, last) => (l.find? fun x => last < x.2.1).or l.head?
  | none => l.head?

/-! ### Errors and completion (R90, R102, R104) -/

/-- Takes a packet off the list of taken packets and puts its capabilities back to rest. -/
def State.dropPacket (s : State) (t : Taken) : State :=
  { s with taken := s.taken.filter fun x => x.id != t.id }.holdCaps t.part t.caps 0

/-- Notes in its control tile's log that a packet has been taken, or that it has failed (R107, log 61, DEDUCED). -/
def State.notePacket (s : State) (t : Taken) (typ : Nat) (body : List Word) : State :=
  match s.ctlSite t.part t.ctl with
  | some x => s.logRec x { typ := typ, qn := 0, body := body, item := none, size := 0, taken := some t }
  | none => s

/-- Notes that a packet has failed. -/
def State.noteFailed (s : State) (t : Taken) : State := s.notePacket t 14 [BitVec.ofNat 64 t.id]

/-- Notes that the effects of a packet have been performed, with its thread's number then: taken again, it repeats none of them (R107,
R137). -/
def State.notePerformed (s : State) (t : Taken) : State :=
  match s.ctlSite t.part t.ctl with
  | some x => s.notePacket t 16 [BitVec.ofNat 64 t.id, (s.thread (x * 32 + 31)).seq.setWidth 64]
  | none => s

/-- The packet whose graph replay a packet belongs to. -/
def State.parent (s : State) (id : Nat) : Option Taken :=
  (s.replays.find? (·.id == id)).bind fun r => s.taken.find? (·.id == r.packet)

/-- A packet of a queue fails (R102): a host queue stops; a device queue goes on, and the job gets an error report. -/
def State.failTop (s : State) (t : Taken) (code : Nat) : State :=
  let s := (s.dropPacket t).noteFailed t
  match t.src with
  | .vf fn q => s.stopQueue t.part fn q code t.idx
  | .device p c =>
    s.report ((s.ctlSite p c).getD 0)
      { part := p, job := t.job, mid := t.mid, cause := 24, a2 := BitVec.ofNat 64 code,
        rank := bitsN t.mid.toNat 49 32, chan := t.chan, a4 := 0, act := t.id }
  | .graph _ => s

/-- A packet fails with an R103 code. One of a graph replay fails the replay's packet with it (log 41, DEDUCED). -/
def State.failPacket (s : State) (t : Taken) (code : Nat) : State :=
  match t.src with
  | .graph id =>
    let s' := (s.dropPacket t).noteFailed t
    match s.parent id with
    | some top => { s' with replays := s'.replays.filter (·.id != id) }.failTop top code
    | none => s'
  | _ => s.failTop t code

/-- A graph replay whose packets have all completed completes its packet (R95). -/
def State.endReplay (s : State) (src : QSrc) : State :=
  match src with
  | .graph id =>
    match s.replays.find? (·.id == id) with
    | some r =>
      if r.next < r.count || s.taken.any fun x => x.from_ src then s
      else { s with replays := s.replays.filter (·.id != id) }.setPacket r.packet .finished
    | none => s
  | _ => s

/-- The function whose interrupt a packet raises (R90): for a device queue the lowest VF bound to the partition. -/
def State.irqFn (s : State) (t : Taken) : Option Nat :=
  let of_ (x : QSrc) : Option Nat := match x with | .vf fn _ => some fn | .device p _ => (s.vfsOf p).head? | .graph _ => none
  match t.src with
  | .graph id => (s.parent id).bind fun x => of_ x.src
  | x => of_ x

/-- The function that a packet's traffic travels on (R70); that of a device queue whose partition has no VF travels on the PF (log 66,
DESIGN CHOICE). -/
def State.fnOf (s : State) (t : Taken) : Nat := (s.irqFn t).getD pf

/-- Whether the effects of a packet have all been performed, its egress sent (R90). -/
def State.packetDone (s : State) (t : Taken) : Bool :=
  match t.stage with
  | .finished => true
  | .waiting => !s.egressQ.any fun e => e.2.2.ord == t.id && (match e.2.2.body with | .message _ => false | _ => true)
  | _ => false

/-- PACKET_COMPLETE (R90, R95, R104): the `k`-th taken packet is complete: its signal is decremented, then its vector
raised. It waits while the egress buffer of the host port is full. -/
def execPacketComplete (k : Nat) (s : State) : Out :=
  match nth s.taken k with
  | none => .next s
  | some t =>
    if !s.packetDone t || !s.hostRoom t.part then .next s
    else
      let fn := s.irqFn t
      let s := s.dropPacket t
      let s := if t.signal = 0 then s else s.signalOut t.part t.ctl (fn.getD pf) 0 t.signal 2 1
      let s := match t.irq, fn with
        | true, some fn => s.irqOut t.part t.ctl fn t.id t.vector
        | _, _ => s
      let s := if t.typ = 1 then s.releaseJob t.part t.job else s
      .next (s.endReplay t.src)

/-! ### Checks (R88, R91-R99, R103, R105) -/

/-- A check: the code of R103, 0 if it passes. -/
def firstError (l : List (Bool × Nat)) : Nat := ((l.find? (·.1)).map (·.2)).getD 0

/-- Whether bytes of a packet are all 0. -/
def Taken.zero (t : Taken) (o n : Nat) : Bool := t.num o n == 0

/-- Whether a packet's type is accepted on its queue (R100, R103, R105, R150). -/
def Taken.accepted (t : Taken) : Bool :=
  match t.src with
  | .vf fn _ => if fn = pf then [2, 3, 4, 5, 9, 16].contains t.typ else t.typ != 16
  | .device .. => t.typ ≤ 6
  | .graph _ => t.typ ≤ 5

/-- Vectors of the function a packet belongs to (R66, R88). -/
def Taken.vectors (t : Taken) : Nat := match t.src with | .vf fn _ => if fn = pf then 256 else 64 | _ => 64

/-- The checks of a launch packet but for its job (R91). A PAYLOAD other than 0 in mode 0 counts as a reserved field that is not 0 (log 103,
DESIGN CHOICE). -/
def State.checkLaunch (s : State) (t : Taken) : Nat :=
  let mode := t.num 19 1
  firstError [(!(t.zero 20 4) || 16 ≤ t.num 18 1 || (mode = 0 && t.num 24 8 != 0) || ((mode = 1 || mode = 2) && !t.zero 32 32), 2),
    (3 ≤ mode || 256 ≤ t.num 16 2, 4), (mode != 0 && !addrOk t.part (t.word 3) 64, 3),
    ((s.group t.part (t.num 16 2)).isEmpty, 4)]

/-- The checks of a copy packet (R92). -/
def checkCopy (t : Taken) : Nat :=
  let fa := t.word 2
  let ta := t.word 3
  let n := t.num 32 8
  firstError [(!t.zero 40 24, 2), (n = 0 || 2 ^ 36 < n, 4), (!spanOk t.part fa n || !spanOk t.part ta n, 3),
    (pform fa = pform ta && overlaps fa.toNat ta.toNat n, 3)]

/-- The checks of a barrier packet (R93). -/
def checkBarrier (t : Taken) : Nat :=
  firstError [(!t.zero 56 8, 2), (t.signals.isEmpty, 4), (!t.signals.all (signalOk t.part), 3)]

/-- The checks of a signal packet (R94). -/
def checkSignal (t : Taken) : Nat :=
  firstError [(!t.zero 33 31, 2), (3 ≤ t.num 32 1, 4), (t.word 2 = 0 || !signalOk t.part (t.word 2), 3)]

/-- The checks of a graph replay packet that need no memory (R95). -/
def checkGraph (t : Taken) : Nat :=
  firstError [(!t.zero 34 30, 2), (1024 < t.num 32 2, 4),
    (pform (t.word 2) != .device || !addrOk t.part (t.word 2) 64 ||
      (t.num 32 2 != 0 && !spanOk t.part (t.word 3) (16 * t.num 32 2)), 3)]

/-- Whether a configuration would overlap the ring of another configured queue of the tile (R152). -/
def Tile.ringClash (t : Tile) (i off log : Nat) : Bool :=
  t.eqs.any fun q => q.1 != i && q.2.configured && off < q.2.ringoff + 32 * 2 ^ q.2.ringlog && q.2.ringoff < off + 32 * 2 ^ log

/-- The checks of an expert queue configuration packet (R97, R152). -/
def State.checkEq (s : State) (t : Taken) : Nat :=
  let p := t.part
  let qid := t.num 16 4
  let log := t.num 20 1
  let off := t.num 24 4
  let flags := t.num 22 1
  let target := t.num 36 4
  let spill := t.word 6
  let len := t.num 56 8
  let size := 2 ^ log
  let site := (((s.partTiles p).find? (·.1 == qid / 64)).map (·.2)).getD 0
  let q := (s.tile site).eq (qid % 64)
  let new := q.configure p t.words
  let layout (x : ExpertQueue) : Nat × Nat × Nat × Nat × Bool := (x.ringlog, x.ringoff, x.spillAt, x.spillLen, x.spillhbm)
  firstError [(8 ≤ t.num 21 1 || 8 ≤ flags || 16 ≤ t.num 23 1 || !t.zero 40 8, 2),
    (!s.isRanked p (qid / 64) || log < 8 || 13 < log, 4),
    (off % 32 != 0 || (!(spill = 0 && len = 0) && (pform spill != .device || !addrOk p spill 64)), 3),
    (t.num 28 2 = 0 || size < t.num 28 2 || t.num 30 2 = 0 || size < t.num 30 2 || len % 32 != 0, 4),
    (if flags.testBit 1 then 256 ≤ target else (s.coreKey p target).isNone, 4),
    (Config.sysArea < off + 32 * size || (s.tile site).ringClash (qid % 64) off log, 4),
    (q.configured && (q.waiting != 0 || !q.batches.isEmpty) && layout q != layout new, 10)]

/-- Whether ports may be used for a device: in service and listed in the partition's route table (R98). -/
def State.portsUsable (s : State) (p dev mask : Nat) : Bool :=
  (portsOf mask).all fun k => ((s.part p).route dev).testBit k && (s.port k).inService

/-- The checks of a recovery-point packet (R98). -/
def State.checkRp (s : State) (t : Taken) : Nat :=
  firstError [(4096 ≤ t.num 16 2 || !t.zero 18 6 || !t.zero 40 24, 2), (t.num 24 8 = 0, 4), (!addrOk t.part (t.word 4) 1, 3),
    (!s.portsUsable t.part (t.num 16 2) (t.num 24 8), 12)]

/-- The checks of a quote packet (R99). -/
def checkQuote (t : Taken) : Nat := firstError [(!t.zero 56 8, 2), (!addrOk t.part (t.word 6) 64, 3)]

/-- The checks of a partition operation that need nothing but its number (R100). -/
def checkOp (t : Taken) : Nat := firstError [(!t.zero 18 2, 2), (t.num 16 2 = 0 || 14 < t.num 16 2, 11)]

/-- The checks of a packet's type, header and body that need no memory (R88, R103, R105); their order is the model's
(log 42, DEDUCED). -/
def State.checkPacket (s : State) (t : Taken) : Nat :=
  let h := (t.word 0).toNat
  let head := firstError [(t.typ = 0 || (9 < t.typ && t.typ != 16), 1), (!t.accepted, 5),
    (bitsN h 7 3 != 0 || bitsN h 31 24 != 0 || bitsN h 63 48 != 0, 2), (t.vectors ≤ t.vector, 4),
    (t.signal != 0 && !signalOk t.part t.signal, 3)]
  if head ≠ 0 then head
  else match t.typ with
    | 1 => s.checkLaunch t
    | 2 => checkCopy t
    | 3 | 4 => checkBarrier t
    | 5 => checkSignal t
    | 6 => checkGraph t
    | 7 => s.checkEq t
    | 8 => s.checkRp t
    | 9 => checkQuote t
    | _ => checkOp t

/-- A patch entry list from its bytes: none if a reserved field is not 0 or an OFFSET is not one of the graph (R95). -/
def patchOf (count : Nat) (bs : List Byte) : Nat → Option (List (Nat × Word))
  | 0 => some []
  | n + 1 =>
    match patchOf count bs n with
    | none => none
    | some l =>
      let off := ofBytes ((bs.drop (16 * n)).take 4)
      let ok := 64 ≤ off && off % 8 == 0 && off < 64 * (count + 1) && 8 ≤ off % 64 && ofBytes ((bs.drop (16 * n + 4)).take 4) == 0
      if ok then some (l ++ [(off, BitVec.ofNat 64 (ofBytes ((bs.drop (16 * n + 8)).take 8)))]) else none

/-- Whether the packets of a graph object are of types 0x01-0x05 with VALID set (R95). -/
def graphOk (bs : List Byte) (count : Nat) : Bool :=
  (List.range count).all fun i =>
    let h := ofBytes ((bs.drop (64 * i)).take 8)
    h % 2 == 1 && 1 ≤ bitsN h 15 8 && bitsN h 15 8 ≤ 5

/-- Reads the graph object and the patch array of a replay packet: the patch, or a code (R95, R96). -/
def State.readGraph (s : State) (t : Taken) : Except Nat (List (Nat × Word)) × State :=
  let a := t.word 2
  let n := t.num 32 2
  match s.formRead t.part a 64 with
  | (none, s) => (.error 6, s)
  | (some head, s) =>
    let count := ofBytes (head.take 4)
    if count = 0 || 4096 < count || ofBytes (head.drop 4) ≠ 0 then (.error 9, s)
    else match s.formRead t.part (a + 64) (64 * count) with
      | (none, s) => (.error 6, s)
      | (some body, s) =>
        match s.formRead t.part (t.word 3) (16 * n) with
        | (none, s) => (.error 6, s)
        | (some pb, s) =>
          match patchOf count pb n with
          | some l => if graphOk body count then (.ok l, s) else (.error 9, s)
          | none => (.error 9, s)

/-- Holds a packet for the host (R108, R109). -/
def State.holdPacket (s : State) (t : Taken) (func : Nat) (arg : Nat) : State :=
  let tok := s.nextId
  (s.assistFor func t.part (BitVec.ofNat 64 arg) t.id).setPacket t.id (.held tok)

/-- The holds of host-assisted mode after a packet's checks (R108). -/
def State.assistTaken (s : State) (t : Taken) : State :=
  let p := s.part t.part
  if p.assisted 0 && (t.typ = 6 || t.typ = 7) then s.holdPacket t 0 t.idx
  else if p.assisted 3 && t.typ = 7 then s.holdPacket t 3 (t.num 16 4)
  else s

/-- A packet has been taken; its control tile's log notes it, with the packet and the length of the graph replay it is of (R107). -/
def State.addPacket (s : State) (t : Taken) : State :=
  let body : List Word := match t.src with
    | .graph id => match s.replays.find? (·.id == id) with
      | some r => [BitVec.ofNat 64 r.packet, BitVec.ofNat 64 r.count]
      | none => []
    | _ => []
  { s with taken := s.taken ++ [t] }.notePacket t 13 body

/-- Accepts a packet whose header and body have passed: what is read when it is taken is read (R96, R105, R110), and a barrier packet
that may start is evaluated (R93). -/
def State.acceptPacket (s : State) (t : Taken) : State :=
  match t.typ with
  | 1 =>
    let members := s.group t.part (t.num 16 2)
    match s.holdJob t members with
    | (true, s) => s.addPacket { t with members := members }
    | (false, s) => s.failPacket t 13
  | 3 | 4 =>
    let s := s.addPacket t
    if s.startable t && !(s.part t.part).assisted 1 then ((s.setPacket t.id .running).evaluate t).2 else s
  | 6 =>
    match s.readGraph t with
    | (.ok l, s) => (s.addPacket { t with patch := l }).assistTaken t
    | (.error c, s) => s.failPacket t c
  | _ => (s.addPacket t).assistTaken t

/-- Checks a packet as it is taken, and accepts it or reports its error. -/
def State.takePacket (s : State) (t : Taken) : State :=
  let code := s.checkPacket t
  if code = 0 then s.acceptPacket t else s.failPacket t code

/-! ### Taking (R87, R101, R107, R150) -/

/-- A packet as it is taken. -/
def newTaken (id : Nat) (src : QSrc) (idx p c prio : Nat) (w : Vector Word 8) (mid : Word) (chan : Nat) : Taken :=
  { id := id, src := src, idx := idx, part := p, ctl := c, words := w, prio := prio, stage := .ready, patch := []
    members := [], caps := [], mid := mid, chan := chan, era := 0, again := false }

/-- The eight words of 64 bytes. -/
def wordsOfBytes (bs : List Byte) : Vector Word 8 := Vector.ofFn fun i => BitVec.ofNat 64 (imgWord bs i.val)

/-- Writes a slot's header word back (R87), to host memory on the function of its queue (R70). Nothing refuses it (log 43, DEDUCED). -/
def State.headerBack (s : State) (p fn : Nat) (a : Word) (v : Nat) : State :=
  match pform a with
  | .host => (s.putNum (kHost a.toNat) 8 v).sawHost fn (a.toNat % 2 ^ 63) 8
  | .chip =>
    match s.window p a.toNat with
    | some (w, o) => (s.winWrite w true o (bytesOf 8 v)).2
    | none => s
  | .device =>
    match s.resolve p a.toNat none none with
    | (.ok k, s) => s.putNum k 8 v
    | (.bad _, s) => s

/-- The address of the slot a queue reads next (R83, R86). -/
def QRegs.slot (r : QRegs) : Word := r.base + BitVec.ofNat 64 (64 * (r.qread.toNat % 2 ^ r.sizelog))

/-- Whether the homes of what a packet is read with as it is taken answer now: a graph replay's graph and patch array (R24, R95). -/
def State.readableNow (s : State) (p : Nat) (w : Vector Word 8) : Bool :=
  bitsN (vget 0 w 0).toNat 15 8 != 6 ||
    (s.doorsOpen p (vget 0 w 2) (64 * 4097) && s.doorsOpen p (vget 0 w 3) (16 * (packetNum w 32 2)))

/-- Reads a queue's next slot: the packet is taken if VALID reads 1, else the read counts as a poll, and the last poll
stops the queue with code 7 (R87). Nothing happens while a home of the slot, or of what is read with it, is being recovered. -/
def State.readSlot (s : State) (p c fn q : Nat) : State :=
  let r := s.queue fn q
  if !s.doorsOpen p r.slot 64 then s else
  let valid (bs : Option (List Byte)) : Option (List Byte) := bs.bind fun b => if (b.getD 0 0).getLsbD 0 then some b else none
  match s.formRead p r.slot 64 with
  | (bs, s) =>
    match valid bs with
    | some bs =>
      if !s.readableNow p (wordsOfBytes bs) then s else
      let s := s.headerBack p fn r.slot (ofBytes (bs.take 8) - 1)
      let s := s.setQueue fn q { r with qread := r.qread + 1, polls := 0 }
      let id := s.nextId
      { s with nextId := id + 1 }.takePacket
        { newTaken id (.vf fn q) r.qread.toNat p c r.prio (wordsOfBytes bs) 0 0 with era := r.enables }
    | none =>
      if 1000 ≤ r.polls + 1 then
        let t := { newTaken 0 (.vf fn q) r.qread.toNat p c r.prio (wordsOfBytes []) 0 0 with era := r.enables }
        ((s.setQueue fn q { r with qread := r.qread + 1, polls := 0 }).noteFailed t).stopQueue p fn q 7 r.qread.toNat
      else s.setQueue fn q { r with polls := r.polls + 1 }

/-- Takes the oldest packet of a device queue (R150). -/
def State.takeDevice (s : State) (p c : Nat) : State :=
  let d := SMap.get DevQueue.init s.devq (p * 4 + c)
  match d.slots with
  | [] => s
  | (w, mid, _, chan) :: rest =>
    if !s.readableNow p w then s else
    let id := s.nextId
    { s with devq := SMap.put s.devq (p * 4 + c) { d with slots := rest }, nextId := id + 1 }.takePacket
      (newTaken id (.device p c) 0 p c 8 w mid chan)

/-- PACKET_TAKE (R87, R101, R107): control tile `ctl` of a partition, or for partition 0 the supervisor that serves the
privileged queues, takes its next packet. -/
def execPacketTake (part ctl : Nat) (s : State) : Out :=
  if !s.cpRuns part ctl then .next s
  else match s.nextTake part ctl with
    | none => .next s
    | some (prio, key, src) =>
      let s := { s with turns := SMap.put s.turns (turnKey part ctl prio) key }
      match src with
      | .vf fn q => .next (s.readSlot part ctl fn q)
      | .device p c => .next (s.takeDevice p c)
      | .graph _ => .next s

/-- VALID_POLL (R87): 1 µs after a read that found VALID at 0, the slot's header is read again, unless the control tile has a queue
of higher PRIO to take from (R101). -/
def execValidPoll (fn q : Nat) (s : State) : Out :=
  let r := s.queue fn q
  match s.partOfFn fn with
  | none => .next s
  | some p =>
    let c := if p = 0 then 0 else s.server p q
    if r.polls = 0 || !s.cpRuns p c then .next s
    else if !r.en then .next (s.setQueue fn q { r with polls := 0 })
    else if (s.takeable p c).any fun x => r.prio < x.1 then .next s
    else .next (s.readSlot p c fn q)

/-! ### Launch (R54, R91, R110) -/

/-- The payloads of a launch's members: none if PAYLOAD cannot be read (R91). -/
def State.launchData (s : State) (t : Taken) : Option (List Byte) × State :=
  match t.num 19 1 with
  | 0 => (some ((t.words.toList.drop 4).flatMap fun w => bytesOf 8 w.toNat), s)
  | 1 => s.formRead t.part (t.word 3) 64
  | _ => s.formRead t.part (t.word 3) (64 * t.members.length)

/-- The payload of the `i`-th member. -/
def Taken.payload (t : Taken) (bs : List Byte) (i : Nat) : Vector Word 8 :=
  if t.num 19 1 = 2 then wordsOfBytes (bs.drop (64 * i)) else wordsOfBytes bs

/-- Forms the messages of a launch in ascending logical core order, each with a sequence number of the control tile's
thread (R91, R129). -/
def State.launchItems (s : State) (t : Taken) (bs : List Byte) : List (Nat × Nat) → List Item × State
  | [] => ([], s)
  | (i, lc) :: rest =>
    let h := s.cpHart t.part t.ctl
    let (q, s) := s.takeSeq h
    let hd := mkHeader s.dev (s.srank h) (lc * 8) (t.num 18 1) 0 0 t.job s.dev q
    let item := { s.item h q false (.core lc) (.message (mkMsg hd (t.payload bs i) none)) with
      job := t.job, part := t.part, chan := t.num 18 1 }
    let (l, s) := (s.countSent (siteOf h) t.job 1).launchItems t bs rest
    (item :: l, s)

/-- Keeps the messages of a launch in the log of their control tile, which sends them again if it is recovered (R107,
log 61, DEDUCED). -/
def State.logLaunch (s : State) (site packet : Nat) (l : List Item) : State :=
  l.foldl (fun s i => s.log site 10 [BitVec.ofNat 64 packet] (some i) 0) s

/-- Whether a launch is the next that its control tile distributes: none that was taken at a higher PRIO may start (R101). -/
def State.launchTurn (s : State) (t : Taken) : Bool :=
  s.taken.all fun x => x.typ != 1 || x.part != t.part || x.ctl != t.ctl || x.prio ≤ t.prio || !s.startable x

/-- The regions a wave visits, in the order of the chain, with their items (R54). -/
def State.waveOf (s : State) (p : Nat) (l : List Item) : List (Nat × List Item) :=
  let region (i : Item) : Nat := match i.dst with
    | .core c => ((s.coreKey p c).map fun k => regionOf (k / 4)).getD 0
    | _ => 0
  chain.filterMap fun r =>
    let here := l.filter fun i => region i == r
    if here.isEmpty then none else some (r, here)

/-- Whether the homes of a launch's payload answer now (R24, R91). -/
def State.payloadOpen (s : State) (t : Taken) : Bool :=
  match t.num 19 1 with
  | 0 => true
  | 1 => s.doorsOpen t.part (t.word 3) 64
  | _ => s.doorsOpen t.part (t.word 3) (64 * t.members.length)

/-- LAUNCH_PACKET (R91, R110): the `k`-th taken packet starts; its messages are formed and handed to the wave. -/
def execLaunchPacket (k : Nat) (s : State) : Out :=
  match nth s.taken k with
  | none => .next s
  | some t =>
    if t.typ ≠ 1 || !s.startable t || !s.launchTurn t || !s.payloadOpen t then .next s
    else match s.launchData t with
      | (none, s) => .next (s.failPacket t 6)
      | (some bs, s) =>
        let (l, s) := s.launchItems t bs ((List.range t.members.length).zip t.members)
        let w : Wave := { packet := t.id, rest := s.waveOf t.part l }
        let s := s.logLaunch (siteOf (s.cpHart t.part t.ctl)) t.id l
        .next ({ s with waves := s.waves ++ [w] }.setPacket t.id .running)

/-! ### Copy (R92) -/

/-- Cuts a copy at the 64-byte lines of its source and its destination: offsets and lengths. -/
def copyCuts (fa ta : Nat) : Nat → Nat → Nat → List (Nat × Nat)
  | 0, _, _ => []
  | fuel + 1, o, n =>
    if n = 0 then []
    else
      let m := min n (min (64 - (fa + o) % 64) (64 - (ta + o) % 64))
      (o, m) :: copyCuts fa ta fuel (o + m) (n - m)

/-- Reads the lines of a copy: the readable ones with their offsets, and whether all were. -/
def State.copyRead (s : State) (p : Nat) (fa : Word) : List (Nat × Nat) → List (Nat × List Byte) × Bool × State
  | [] => ([], true, s)
  | (o, n) :: rest =>
    match s.formRead p (fa + BitVec.ofNat 64 o) n with
    | (bs, s) =>
      let (l, ok, s) := s.copyRead p fa rest
      match bs with
      | some b => ((o, b) :: l, ok, s)
      | none => (l, false, s)

/-- Joins lines that follow one another. -/
def joinLines : List (Nat × List Byte) → List (Nat × List Byte)
  | [] => []
  | (o, b) :: rest =>
    match joinLines rest with
    | (o', b') :: t => if o + b.length = o' then (o, b ++ b') :: t else (o, b) :: (o', b') :: t
    | [] => [(o, b)]

/-- Writes joined lines to a window: none where a rule gives error 4, else whether any was refused. -/
def State.copyChip (s : State) (p : Nat) (ta : Word) : List (Nat × List Byte) → Bool → Option (Bool × State)
  | [], b => some (b, s)
  | (o, bs) :: rest, b =>
    let a := ta + BitVec.ofNat 64 o
    match s.window p a.toNat with
    | none => s.copyChip p ta rest true
    | some (w, off) =>
      match s.winWrite w true off bs with
      | (.rule, _) => none
      | (.refused, s) => s.copyChip p ta rest true
      | (.done r, s) => (s.logWindow Config.numSites p w a.toNat bs).copyChip p ta rest (b || r)

/-- The copy itself: the code it ends with, its capabilities, and whether it waits for egress. The order in which lines land is open:
all are read, then they land in ascending order, in one step (log 28, DESIGN CHOICE). Taken again, it repeats no line that has landed
(R107). -/
def State.copyRun (s : State) (t : Taken) : Nat × List Nat × Bool × State :=
  let fa := t.word 2
  let ta := t.word 3
  let n := t.num 32 8
  let cuts := copyCuts fa.toNat ta.toNat n 0 n
  let fn := s.fnOf t
  match pform ta with
  | .host =>
    let (l, ok, s) := s.copyRead t.part fa cuts
    (if ok then 0 else 6, [], true, l.foldl (fun s x => s.hostWrite t fn (ta + BitVec.ofNat 64 x.1) x.2) s)
  | _ => if t.again then (0, [], false, s) else
  match pform ta with
  | .host => (0, [], false, s)
  | .chip =>
    let (l, ok, s) := s.copyRead t.part fa cuts
    match s.copyChip t.part ta (joinLines l) false with
    | none => (4, [], false, s)
    | some (refused, s) => (if ok && !refused then 0 else 6, [], false, s)
  | .device =>
    match s.restCaps t.part (pieces ta.toNat n) [] with
    | (none, s) => (6, [], false, s)
    | (some caps, s) =>
      let s := s.holdCaps t.part caps 1
      let (l, ok, s) := s.copyRead t.part fa cuts
      (if ok then 0 else 6, caps, false, s.devicePut t.part (l.map fun x => (ta.toNat + x.1, x.2)))

/-- Replaces a taken packet. -/
def State.updPacket (s : State) (t : Taken) : State :=
  let taken : List Taken := s.taken.map fun x => if x.id == t.id then t else x
  { s with taken := taken }

/-- COPY_PACKET (R92): the `k`-th taken packet copies. It waits while a tile it reads or writes is being recovered, or the egress buffer
is full. -/
def execCopyPacket (k : Nat) (s : State) : Out :=
  match nth s.taken k with
  | none => .next s
  | some t =>
    if t.typ ≠ 2 || !s.startable t || !s.doorsOpen t.part (t.word 2) (t.num 32 8) || !s.doorsOpen t.part (t.word 3) (t.num 32 8) ||
        (pform (t.word 3) == .host && !s.hostRoom t.part) then .next s
    else
      let (code, caps, wait, s) := s.copyRun t
      let t := { t with caps := caps, stage := if wait then .waiting else .finished }
      let s := (s.updPacket t).notePerformed t
      .next (if code = 0 then s else s.failPacket t code)

/-! ### Barriers and signals (R93, R94, R108) -/

/-- A barrier packet starts: it is evaluated, or in host-assisted mode the host is asked (R93, R108). -/
def startBarrier (s : State) (typ k : Nat) : Out :=
  match nth s.taken k with
  | none => .next s
  | some t =>
    if t.typ ≠ typ || !s.startable t then .next s
    else if (s.part t.part).assisted 1 then .next (s.holdPacket t 1 t.idx)
    else .next ((s.setPacket t.id .running).evaluate t).2

/-- BARRIER_AND_PACKET (R93). -/
def execBarrierAndPacket (k : Nat) (s : State) : Out := startBarrier s 3 k
/-- BARRIER_OR_PACKET (R93). -/
def execBarrierOrPacket (k : Nat) (s : State) : Out := startBarrier s 4 k

/-- BARRIER_EVALUATION (R93): a barrier packet that waits is evaluated once more; in host-assisted mode the host is asked (R108). -/
def execBarrierEvaluation (k : Nat) (s : State) : Out :=
  match nth s.taken k with
  | none => .next s
  | some t =>
    if !t.isBarrier || t.stage != .running || !s.cpRuns t.part t.ctl then .next s
    else if (s.part t.part).assisted 1 then .next (s.holdPacket t 1 t.idx)
    else .next (s.evaluate t).2

/-- A signal packet changes its signal as egress and then waits until that has been sent (R90, R94). -/
def changeSignal (s : State) (op k : Nat) : Out :=
  match nth s.taken k with
  | none => .next s
  | some t =>
    if t.typ ≠ 5 || t.num 32 1 ≠ op || !s.startable t || !s.hostRoom t.part then .next s
    else .next ((s.signalOut t.part t.ctl (s.fnOf t) t.id (t.word 2) op (t.word 3)).setPacket t.id .waiting)

/-- SIGNAL_STORE (R94). -/
def execSignalStore (k : Nat) (s : State) : Out := changeSignal s 0 k
/-- SIGNAL_ADD (R94). -/
def execSignalAdd (k : Nat) (s : State) : Out := changeSignal s 1 k
/-- SIGNAL_SUBTRACT (R94). -/
def execSignalSubtract (k : Nat) (s : State) : Out := changeSignal s 2 k

/-! ### Graph replay (R95, R96) -/

/-- GRAPH_REPLAY_PACKET (R95): the `k`-th taken packet starts; its replay waits for its turn. -/
def execGraphReplayPacket (k : Nat) (s : State) : Out :=
  match nth s.taken k with
  | none => .next s
  | some t =>
    if t.typ ≠ 6 || !s.startable t || !s.doorsOpen t.part (t.word 2) 4 then .next s
    else match s.formRead t.part (t.word 2) 4 with
      | (none, s) => .next (s.failPacket t 6)
      | (some bs, s) =>
        let r : Replay := { id := s.nextId, packet := t.id, part := t.part, graph := (t.word 2).toNat, patch := t.patch
                            started := false, next := 0, count := ofBytes bs }
        .next ({ s with nextId := s.nextId + 1, replays := s.replays ++ [r] }.setPacket t.id .running)

/-- Whether it is a replay's turn: no replay of the same graph object was taken before it and is still open (R96), not even one that
a control tile under recovery has yet to take again (R107). -/
def State.replayTurn (s : State) (r : Replay) : Bool :=
  let first (x : Taken) : Bool := x.typ == 6 && x.part == r.part && (x.word 2).toNat == r.graph
  !(s.taken.takeWhile fun x => x.id != r.packet).any first &&
    s.tiles.all fun t => t.2.replay.all fun n =>
      n.typ != 13 || !(n.taken.any fun x => first x && x.id < r.packet) ||
        t.2.replay.any fun m => m.typ == 14 && (m.taken.map (·.id)) == (n.taken.map (·.id))

/-- A packet of a graph with the patch applied in entry order (R96). -/
def patched (w : Vector Word 8) (i : Nat) (l : List (Nat × Word)) : Vector Word 8 :=
  l.foldl (fun w e => if e.1 / 64 = i + 1 then vset w (e.1 % 64 / 8) e.2 else w) w

/-- GRAPH_REPLAY_START (R95, R96): a replay whose turn it is starts, or goes on: its next packet is read, patched and
dispatched, under R89 as though from a queue of its own. -/
def execGraphReplayStart (k : Nat) (s : State) : Out :=
  match nth s.replays k with
  | none => .next s
  | some r =>
    match s.taken.find? (·.id == r.packet) with
    | none => .next s
    | some top =>
      let src := QSrc.graph r.id
      if r.count ≤ r.next || !s.replayTurn r || s.heldQueue src || !s.cpRuns r.part top.ctl ||
          !s.doorsOpen r.part (BitVec.ofNat 64 (r.graph + 64 * (r.next + 1))) 64 then .next s
      else match s.formRead r.part (BitVec.ofNat 64 (r.graph + 64 * (r.next + 1))) 64 with
        | (none, s) => .next ({ s with replays := s.replays.filter (·.id != r.id) }.failPacket top 6)
        | (some bs, s) =>
          let w := patched (wordsOfBytes bs) r.next r.patch
          let t := newTaken s.nextId src r.next r.part top.ctl top.prio w top.mid top.chan
          let s := { s with nextId := s.nextId + 1, replays := setNth s.replays k { r with started := true, next := r.next + 1 } }
          if !(vget 0 w 0).getLsbD 0 || t.typ = 0 || 5 < t.typ then .next (s.failPacket t 9)
          else .next (s.takePacket t)

/-! ### Expert queue configuration (R97, R108, R152) -/

/-- EXPERT_QUEUE_CONFIGURATION (R97): the `k`-th taken packet sets its queue, logged at the queue's home (R171). -/
def execExpertQueueConfiguration (k : Nat) (s : State) : Out :=
  match nth s.taken k with
  | none => .next s
  | some t =>
    let code := s.checkEq t
    if t.typ ≠ 7 || !s.startable t then .next s
    else if code ≠ 0 then .next (s.failPacket t code)
    else match (s.partTiles t.part).find? (·.1 == t.num 16 4 / 64) with
      | none => .next s
      | some b =>
        if t.again then .next (s.setPacket t.id .finished)
        else if s.door b.2 t.part != .open_ then .next s
        else
          let i := { s.cpItem t.part t.ctl (s.fnOf t) (.tile b.1) (.packet t.words) with job := t.job }
          .next ((((s.log b.2 1 [] (some i) 80).configureEq t.part t.words).setPacket t.id .finished).notePerformed t)

/-! ### Recovery points and quotes (R36, R80, R98, R99) -/

/-- The spec does not say what becomes of activations that run or are blocked when a recovery point is taken: the stream begins once
every thread is free or parked (log 43, DESIGN CHOICE). Whether nothing of a partition runs or is on its way: its threads are free or parked, no chunk or interval commit is
open, and what is under way waits refused, or for a missing page (R80, R229). -/
def State.drained (s : State) (p : Nat) : Bool :=
  let sites := (s.partTiles p).map (·.2)
  sites.all (fun x =>
    let t := s.tile x
    t.works && !t.replaying && t.stage != .copying &&
      (tileHarts x).all fun h => (s.thread h).status == .free || (s.thread h).status == .parked) &&
    s.net.all fun i => i.part != p || (match i.stage with
      | .refused _ | .held _ => true
      | .waiting => !s.injectable i
      | _ => false)

/-- Segments assigned round-robin to ports (R80). -/
def turnPorts (ports : List Nat) (n : Nat) : List (Nat × Nat) :=
  (List.range n).map fun i => (i, ports.getD (i % ports.length) 0)

/-- The ports of a mask that are in service (R74, R80). -/
def State.servicePorts (s : State) (mask : Nat) : List Nat := (portsOf mask).filter fun k => (s.port k).inService

/-- RECOVERY_POINT (R80, R98): the partition stops starting work; once nothing of it runs, its state is streamed to the
safe tier: its segments leave in turn by the named ports that are in service, in ascending order. Nothing leaves while the part has no
DEVID (R77). -/
def execRecoveryPoint (k : Nat) (s : State) : Out :=
  match nth s.taken k with
  | none => .next s
  | some t =>
    let p := s.part t.part
    if t.typ ≠ 8 then .next s
    else if s.startable t then
      .next ((s.setPart t.part { p with stage := .draining }).setPacket t.id .running)
    else if t.stage == .running && p.stage == .draining && p.rp.isNone && s.devValid && s.drained t.part &&
        !(s.servicePorts (t.num 24 8)).isEmpty then
      let tier := t.num 16 2
      let point := s.capture t.part p.rpNext tier
      let same (r : RecPoint) : Bool := r.tier == tier && r.src == point.src && r.part == t.part && r.num == p.rpNext
      let rp : RpStream := { num := p.rpNext, packet := t.id, dev := tier, ports := t.num 24 8, todo := turnPorts (s.servicePorts (t.num 24 8)) point.segs }
      let s := { s with points := s.points.filter (fun r => !same r) ++ [point] }.setPart t.part
        { p with rp := some rp, rpNext := p.rpNext + 1 }
      .next (rp.todo.foldl (fun s x => s.sendSegment t.part rp x.1 x.2) s)
    else .next s

/-- A recovery point becomes current (R80, R98): its number goes to RESULT, the windows count from here, and the partition
goes on. -/
def State.pointDone (s : State) (p : Nat) (r : RpStream) : State :=
  let x := s.part p
  let fresh := x.egress.map fun w => { w with sent := 0 }
  let points : List RecPoint := s.points.map fun y =>
    if y.tier == r.dev && y.src == s.dev && y.part == p && y.num == r.num then { y with whole := true } else y
  let s := { s with points := points }.setPart p { x with
    rp := none, rpCur := r.num, rpDev := r.dev, rpPorts := r.ports, rpSrc := (s.dev, p), rpTiles := [], stage := .active, egress := fresh }
  match s.taken.find? (·.id == r.packet) with
  | none => s
  | some t =>
    match s.resultOut t (s.fnOf t) (t.word 4) (bytesOf 8 r.num) with
    | some s => (s.setPacket t.id .waiting).notePerformed t
    | none => s.failPacket t 6

/-- SEGMENT_ACKNOWLEDGEMENT (R80): the safe tier has acknowledged a segment of the recovery point being taken. -/
def execSegmentAcknowledgement (part seg : Nat) (s : State) : Out :=
  let x := s.part part
  match x.rp with
  | none => .next s
  | some r =>
    let r := { r with todo := r.todo.filter (·.1 != seg) }
    if r.todo.isEmpty then (if s.hostRoom part then .next (s.pointDone part r) else .next s) else .next (s.setPart part { x with rp := some r })

/-- The 576 bytes of a quote (R36, R99): the six entries, then the signature over the nonce and the entries, whose value
is free (log 12, PRESUMED). -/
def State.quoteBytes (s : State) (nonce : List Byte) : List Byte :=
  let entries := s.attest.toList.flatMap digestBytes
  entries ++ (Config.quoteSignature s.freeCtr (nonce ++ entries)).toList

/-- QUOTE (R36, R99). -/
def execQuote (k : Nat) (s : State) : Out :=
  match nth s.taken k with
  | none => .next s
  | some t =>
    if t.typ ≠ 9 || !s.startable t || !s.doorsOpen t.part (t.word 6) 576 || !s.hostRoom t.part then .next s
    else
      let nonce := bytesOf 32 (t.num 16 32)
      let bs := s.quoteBytes nonce
      let s := { s with freeCtr := s.freeCtr + 1 }
      match s.resultOut t (s.fnOf t) (t.word 6) bs with
      | some s => .next ((s.setPacket t.id .waiting).notePerformed t)
      | none => .next (s.failPacket t 6)

end Sys2Proof.Machine
end

