-- ==== Sys2Proof/Machine/PartOps.lean ====
section
/-!
DEFINITION. The partition operations of a packet of type 0x10 (spec/05_command.md R100) but for the switch of a
partition: their checks, grants and effects.
-/

namespace Sys2Proof.Machine

/-! ### Operands (R100) -/

/-- The OP of a partition operation. -/
def Taken.op (t : Taken) : Nat := t.num 16 2
/-- The partition it names. -/
def Taken.target (t : Taken) : Nat := t.num 20 4

/-- Runs a partition operation that starts now: `ok` are its own rules, with PART a partition in use unless `zero`; a
broken rule gives error 11. -/
def partOp (op : Nat) (zero : Bool) (ok : State → Taken → Bool) (f : State → Taken → State) (k : Nat) (s : State) : Out :=
  match nth s.taken k with
  | none => .next s
  | some t =>
    if t.typ ≠ 16 || t.op ≠ op || !s.startable t then .next s
    else if (if zero then t.target == 0 else s.hasPart t.target) && ok s t then .next (f s t)
    else .next (s.failPacket t 11)

/-- An operation with one effect, accepted as it takes it. -/
def simpleOp (op : Nat) (zero : Bool) (ok : State → Taken → Bool) (f : State → Taken → State) (k : Nat) (s : State) : Out :=
  partOp op zero ok (fun s t => (f s t).accepted t.id) k s

/-! ### Regions (R60) -/

/-- The regions of a mask. -/
def regionsOf (mask : Nat) : List Nat := (List.range 16).filter mask.testBit

/-- Whether a partition that is switched in, other than `p`, holds one of the regions. -/
def State.regionsHeld (s : State) (p : Nat) (l : List Nat) : Bool :=
  s.parts.any fun x => x.1 != p && x.2.stage != .out && x.2.regions.any l.contains

/-- Sets the clock of regions (R49, R60). -/
def State.clockRegions (s : State) (l : List Nat) (mhz : Nat) (fixed : Bool) : State :=
  l.foldl (fun s r => s.setReg r { s.reg r with mhz := mhz, fixed := fixed }) s

/-! ### Wheel slots (R61) -/

/-- The positions p_0 to p_61 of a wheel. -/
def wheelSlots : List Nat := (List.range 64).filter fun k => k % 32 != 0

/-- The bits of a list of positions. -/
def maskOf (l : List Nat) : Nat := l.foldl (fun m k => m ||| 2 ^ k) 0

/-- The first position at or after `at_`, counted cyclically over `n`, that is not held. -/
def firstFree (n : Nat) (held : List Nat) (at_ : Nat) : Option Nat :=
  ((List.range n).map fun i => (at_ + i) % n).find? fun k => !held.contains k

/-- The ideal positions placed one after the other (R61, R76). -/
def placeFrom (n : Nat) (held : List Nat) : List Nat → Option (List Nat)
  | [] => some []
  | k :: rest =>
    match firstFree n held k with
    | none => none
    | some x => (placeFrom n (x :: held) rest).map fun l => x :: l

/-- `c` of `n` positions for a new grant: the smallest offset at which none is held, else the ideal positions moved on
(R61, R76). -/
def place (n c : Nat) (held : List Nat) : Option (List Nat) :=
  let at_ (o : Nat) : List Nat := (List.range c).map fun i => (o + i * n / c) % n
  match (List.range n).find? fun o => (at_ o).all fun k => !held.contains k with
  | some o => some (at_ o)
  | none => placeFrom n held (at_ 0)

/-- The reservations that are switched in, other than `p`. -/
def State.grants (s : State) (p : Nat) : List Partition :=
  (s.parts.filter fun x => x.1 != p && x.2.stage != .out).map (·.2)

/-- The wheel slots that other reservations hold, as indices of p. -/
def State.wheelHeld (s : State) (p : Nat) : List Nat :=
  let m := (s.grants p).foldl (fun m x => m ||| x.wheel) 0
  (List.range 62).filter fun k => m.testBit (wheelSlots.getD k 0)

/-- The slots of every wheel for a reservation of `c` slots (R61): none if more than 56 would be granted. -/
def State.wheelGrant (s : State) (p c : Nat) : Option Nat :=
  let held := s.wheelHeld p
  if c = 0 then some 0
  else if 56 < held.length + c then none
  else (place 62 c held).map fun l => maskOf (l.map fun k => wheelSlots.getD k 0)

/-! ### Flit slots and virtual channels (R75, R76) -/

/-- The flit slots of a port that other reservations hold. -/
def State.flitsHeld (s : State) (p port : Nat) : List Nat :=
  let m := (s.grants p).foldl (fun m x => m ||| SMap.get 0 x.flits port) 0
  (List.range 64).filter m.testBit

/-- The pairs of virtual channels of a port that other reservations hold. -/
def State.pairsHeld (s : State) (p port : Nat) : List Nat :=
  (s.grants p).filterMap fun x => (x.vcs.find? (·.1 == port)).map (·.2)

/-- The flit slots and the pair that a reservation of `c` slots gets on a port; the pair is the lowest free one. -/
def State.portGrant (s : State) (p c port : Nat) : Option (Nat × Nat) :=
  let held := s.flitsHeld p port
  if 48 < held.length + c then none
  else match place 64 c held, (List.range 6).find? fun i => !(s.pairsHeld p port).contains i with
    | some l, some i => some (maskOf l, i)
    | _, _ => none

/-- The grants on a list of ports: flit slots and pairs. -/
def State.portGrants (s : State) (p c : Nat) : List Nat → Option (List (Nat × Nat) × List (Nat × Nat))
  | [] => some ([], [])
  | port :: rest =>
    match s.portGrant p c port, s.portGrants p c rest with
    | some (m, i), some (fs, vs) => some ((port, m) :: fs, (port, i) :: vs)
    | _, _ => none

/-- Marks the pairs of a partition in RESVC of its ports, or takes the marks off (R74). -/
def State.markPairs (s : State) (l : List (Nat × Nat)) (on : Bool) : State :=
  l.foldl (fun s x =>
    let q := s.port x.1
    let bits := 3 * 2 ^ (4 + 2 * x.2)
    let resvc := if on then q.resvc ||| bits else q.resvc &&& (0xFFFF ^^^ bits)
    s.setPort x.1 { q with resvc := resvc }) s

/-! ### CREATE (R29, R60, R61, R76, R100, R107, R123, R239) -/

/-- A route table from its entries: none if a reserved byte is not 0, a DEVID is out of range or a mask is empty. -/
def routesFrom (bs : List Byte) : Nat → Option (List (Nat × Nat))
  | 0 => some []
  | n + 1 =>
    let e := (bs.drop (16 * n)).take 16
    let dev := ofBytes (e.take 2)
    let mask := ofBytes (e.drop 8)
    match routesFrom bs n with
    | none => none
    | some l => if 4096 ≤ dev || ofBytes ((e.drop 2).take 6) ≠ 0 || mask = 0 then none else some (l ++ [(dev, mask)])

/-- Reads ROUTES (R77, R100). -/
def State.readRoutes (s : State) (t : Taken) : Option (List (Nat × Nat)) × State :=
  let n := t.num 48 2
  if n = 0 then (some [], s)
  else if !spanOk 0 (t.word 5) (16 * n) then (none, s)
  else match s.formRead 0 (t.word 5) (16 * n) with
    | (some bs, s) => (routesFrom bs n, s)
    | (none, s) => (none, s)

/-- The ranked tiles of a new partition over regions: the logical numbers bound there that no other partition switched
in holds, nor one switched out whose binding has left its regions. -/
def State.tilesIn (s : State) (regions : List Nat) : List Nat :=
  (s.binding.filter fun b => regions.contains (regionOf b.2) && !s.parts.any fun x =>
    x.2.tiles.contains b.1 && (x.2.stage != .out || !x.2.regions.contains (regionOf b.2))).map (·.1)

/-- Whether no mesh link would carry reserved-class traffic of two reservations (R62). Which links a reservation's routes
use is not stated: with another reservation switched in the answer is free (log 35, DESIGN CHOICE). -/
def State.meshAdmits (s : State) (p : Nat) (regions : List Nat) : Bool :=
  let others := ((s.grants p).filter fun x => x.mhz != 0).map fun x => x.regions
  others.isEmpty || !Config.meshShared ((s.tiles.filter fun t => t.2.cls == 3).map (·.1)) others regions

/-- The rules of CREATE that need no grant. -/
def createOk (s : State) (t : Taken) : Bool :=
  let regions := regionsOf (t.num 24 2)
  let mhz := t.num 26 2
  let flags := t.num 30 1
  let q := t.num 32 4
  t.target != 0 && !s.hasPart t.target && !regions.isEmpty && !s.regionsHeld t.target regions && flags < 8 && t.zero 31 1 && t.zero 36 4 &&
    t.zero 50 6 &&
    (if mhz = 0 then t.zero 28 2
     else [2000, 2400, 2700, 3000].contains mhz && 1 ≤ t.num 28 1 && t.num 28 1 ≤ 56 && t.num 29 1 ≤ 48) &&
    (!flags.testBit 1 || q == 0 || (q % 8 == 0 && 1024 ≤ q && q ≤ 2 ^ 24)) &&
    (t.word 7 == 0 || pform (t.word 7) == .host) && !(s.tilesIn regions).isEmpty &&
    (mhz == 0 || s.meshAdmits t.target regions)

/-- A tile as a partition finds it: what belongs to the site and to its logical number stays (R27, R200). -/
def Tile.plain (t : Tile) : Tile :=
  { Tile.init with
    cls := t.cls, role := t.role, rank := t.rank, home := t.home, homePart := t.homePart, hops := t.hops, buddy := t.buddy
    donor := t.donor, usable := if t.cls = 0 && !t.donor then 92 else 44, bbce := t.bbce, spce := t.spce
    failb := t.failb, spused := t.spused, spbuild := t.spbuild, accused := t.accused, accbuild := t.accbuild
    failed := t.failed, failc := t.failc, bodyOnly := t.bodyOnly }

/-- A core as a partition finds it: its self-test goes on (R38). -/
def Core.plain (c : Core) : Core :=
  { Core.init with
    slices := c.slices, scanIv := c.scanIv, scanFrom := c.scanFrom, scanDue := c.scanDue, scanAsked := c.scanAsked
    scanRest := c.scanRest
    coreFail := c.coreFail }

/-- A site as a partition finds it: registers, tables and queues at their reset values, sequence counters and machine CSRs
as they stand. The spec does not say what a tile holds when it changes hands (log 44, DESIGN CHOICE). -/
def State.plainSite (s : State) (site : Nat) : State :=
  let s := s.setTile site (s.tile site).plain
  let s := (tileCores site).foldl (fun s c => if s.cores.any (·.1 == c) then s.setCore c (s.core c).plain else s) s
  (tileHarts site).foldl (fun s h =>
    if s.threads.any (·.1 == h) then s.setThread h { (s.thread h).clear with priv := .U } else s) s

/-- A ranked tile of a protected partition that has no buddy is given one (R20, R21). -/
def State.needBuddy (s : State) (site : Nat) : State :=
  let t := s.tile site
  if t.prot && t.buddy.isNone then s.giveBuddy site Config.numSites else s

/-- A tile enters a partition (R14, R20, R237, R239): a protected one takes a full interval. In an unprotected partition a buddy that
start-up has given stays given (log 102, DESIGN CHOICE). -/
def State.enterTile (s : State) (prot : Bool) (site : Nat) : State :=
  let s := (s.plainSite site).dropFirn site
  let t := s.tile site
  (s.setTile site { t with prot := prot, usable := if prot then 44 else t.usable, ival := 1, fullReq := prot }).needBuddy site

/-- A floe over a rectangle of regions (R29, R31). -/
def State.newFloe (s : State) (p : Nat) (regions : List Nat) : Option Floe :=
  let cols := (List.range 4).filter fun c => regions.any (· % 4 == c)
  let rows := (List.range 4).filter fun r => regions.any (· / 4 == r)
  let span (l : List Nat) : Bool := match l.head?, l.getLast? with
    | some a, some b => b + 1 - a == l.length
    | _, _ => false
  if regions.length = cols.length * rows.length && span cols && span rows then
    some (Floe.over regions (s.formGrid p regions))
  else none

/-- The grant record (R100). -/
def grantBytes (wheel : Nat) (flits : List (Nat × Nat)) : List Byte :=
  bytesOf 8 wheel ++ (List.range 64).flatMap fun k => bytesOf 8 (SMap.get 0 flits k)

/-- A new partition over regions with its grants. -/
def State.addPart (s : State) (t : Taken) (routes : List (Nat × Nat)) (wheel : Nat) (flits vcs : List (Nat × Nat)) : State :=
  let p := t.target
  let regions := regionsOf (t.num 24 2)
  let mhz := t.num 26 2
  let flags := t.num 30 1
  let tiles := s.tilesIn regions
  let x : Partition :=
    { Partition.init with
      regions := regions, tiles := tiles, mhz := mhz, hslots := t.num 28 1, fslots := t.num 29 1
      prot := flags.testBit 0, det := flags.testBit 1, quantum := t.num 32 4, routes := routes, wheel := wheel
      flits := flits, vcs := vcs }
  let s := { s with mem := Memory.clear s.mem (kWindow p) (2 ^ 21) }
  let s := s.setPart p x
  let s := ((s.partTiles p).map (·.2)).foldl (fun s b => s.enterTile x.prot b) s
  let s := if flags.testBit 2 then s.setPart p { s.part p with floe := s.newFloe p regions } else s
  let s := s.ubnarCtl p
  let s := if mhz = 0 then s else s.beginExcursions regions
  (s.clockRegions regions (if mhz = 0 then 3000 else mhz) (mhz != 0)).markPairs vcs true

/-- CREATE (R100). -/
def execCreate (k : Nat) (s : State) : Out :=
  match nth s.taken k with
  | none => .next s
  | some t =>
    if t.typ ≠ 16 || t.op ≠ 1 || !s.startable t then .next s
    else if !createOk s t then .next (s.failPacket t 11)
    else match s.readRoutes t with
      | (none, s) => .next (s.failPacket t 11)
      | (some routes, s) =>
        let reserve := t.num 26 2 != 0
        let mask := routes.foldl (fun m x => m ||| x.2) 0
        let ports := if reserve then portsOf mask else []
        if reserve && !routes.isEmpty && t.num 29 1 = 0 then .next (s.failPacket t 11)
        else match s.wheelGrant t.target (t.num 28 1), s.portGrants t.target (t.num 29 1) ports with
          | some wheel, some (flits, vcs) =>
            let s := s.addPart t routes wheel flits vcs
            let s := if t.word 7 = 0 then s else s.hostOut 0 0 pf t.id (t.word 7) (grantBytes wheel flits)
            .next (s.accepted t.id)
          | _, _ => .next (s.failPacket t 11)

/-! ### DESTROY (R100, R152, R170) -/

/-- The packets that a function's queues have posted and that are not taken go (R100). -/
def State.forgetPosted (s : State) (fn : Nat) : State :=
  { s with queues := s.queues.map fun q =>
      if q.1 / 16 == fn then (q.1, { q.2 with notified := q.2.qread, polls := 0 }) else q }

/-- Unbinds a VF. -/
def State.unbind (s : State) (fn : Nat) : State := { s with vfs := vset s.vfs fn none }

/-- A partition's regions, slots and virtual channels are free again (R60, R61, R229 step 5). -/
def State.releaseRegions (s : State) (p : Nat) : State :=
  let x := s.part p
  ((s.endExcursions p).clockRegions x.regions 3000 false).markPairs x.vcs false

/-- The effect of DESTROY: the buddies of its tiles are free for other wards (R21, log 44, DEDUCED). -/
def State.destroyPart (s : State) (p : Nat) : State :=
  let x := s.part p
  let s := match x.swPacket.bind fun id => s.taken.find? (·.id == id) with
    | some t => s.failPacket t 11
    | none => s
  let s := s.purge p
  let s := (s.vfsOf p).foldl (fun s fn => (s.forgetPosted fn).unbind fn) s
  let s := x.foreign.foldl (fun s e => s.foreignEnd p e.1) s
  let s := if x.stage == .out then s
    else ((s.partTiles p).map (·.2)).foldl (fun s b => (s.leaveBuddy b).plainSite b) (s.releaseRegions p)
  { s with parts := SMap.del s.parts p, saves := s.saves.filter (·.part != p) }.retryBuddies

/-- DESTROY (R100). -/
def execDestroy (k : Nat) (s : State) : Out :=
  simpleOp 2 false (fun _ t => t.zero 24 40) (fun s t => s.destroyPart t.target) k s

/-! ### Functions and windows (R69, R81) -/

/-- Whether a VF may be bound to a partition or unbound from it (R69). -/
def vfOk (s : State) (t : Taken) : Bool :=
  t.num 24 1 < 16 && t.num 25 1 < 2 && t.zero 26 38 && (match vget none s.vfs (t.num 24 1) with
    | some p => p == t.target
    | none => true)

/-- Whether every queue of a function has EN at 0. -/
def State.queuesOff (s : State) (fn : Nat) : Bool := s.queues.all fun q => q.1 / 16 != fn || !q.2.en

/-- BINDVF (R69, R100): bit 0 of byte 25 at 0. -/
def execBindvf (k : Nat) (s : State) : Out :=
  match nth s.taken k with
  | none => .next s
  | some t =>
    if t.num 25 1 % 2 = 1 then .next s
    else simpleOp 3 false vfOk (fun s t => { s with vfs := vset s.vfs (t.num 24 1) (some t.target) }) k s

/-- BINDVF with bit 0 of byte 25 set: the VF is unbound (R100). -/
def execUnbindvf (k : Nat) (s : State) : Out :=
  match nth s.taken k with
  | none => .next s
  | some t =>
    if t.num 25 1 % 2 = 0 then .next s
    else simpleOp 3 false (fun s t => vfOk s t && s.queuesOff (t.num 24 1)) (fun s t => s.unbind (t.num 24 1)) k s

/-- Whether the operands of EGRESS are in range. -/
def egressOk (_ : State) (t : Taken) : Bool :=
  t.num 24 1 < 16 && t.num 25 1 < 3 && (t.num 26 2 < 4096 || t.num 26 2 == hostDest) && t.zero 28 4 && t.zero 48 16

/-- EGRESS (R81, R100): what a window has sent stays counted (R248). -/
def execEgress (k : Nat) (s : State) : Out :=
  simpleOp 4 false egressOk (fun s t =>
    let x := s.part t.target
    let old := vget { kind := 0, dest := 0, base := 0, len := 0, sent := 0 } x.egress (t.num 24 1)
    let w : Egress := { kind := t.num 25 1, dest := t.num 26 2, base := t.num 32 8, len := t.num 40 8, sent := old.sent }
    s.setPart t.target { x with egress := vset x.egress (t.num 24 1) w }) k s

/-! ### Settings of the part (R38, R44, R56, R77) -/

/-- CSTEP (R56, R100). -/
def execCstep (k : Nat) (s : State) : Out :=
  simpleOp 5 true
    (fun _ t => t.num 24 1 < 16 && t.zero 25 1 && 20 ≤ t.num 26 2 && t.num 26 2 ≤ 600 && t.zero 28 36)
    (fun s t => s.setReg (t.num 24 1) { s.reg (t.num 24 1) with limit := t.num 26 2 }) k s

/-- SELFTEST (R38, R100). -/
def execSelftest (k : Nat) (s : State) : Out :=
  simpleOp 6 true (fun _ t => 30 ≤ t.num 24 2 && t.num 24 2 ≤ 300 && t.zero 26 38)
    (fun s t => { s with selfSecs := t.num 24 2 }) k s

/-- DEVID (R77, R100). -/
def execDevid (k : Nat) (s : State) : Out :=
  simpleOp 7 true
    (fun s t => t.num 24 2 < 4096 && t.zero 26 38 && !s.parts.any fun x => x.2.stage != .out && !x.2.flits.isEmpty)
    (fun s t => { s with devid := BitVec.ofNat 12 (t.num 24 2), devValid := true }) k s

/-- A type 2 record (R41, R44). -/
def readmitRec (site : Nat) : Rec :=
  { typ := 2, cause := 0, seq := 0, site := coordOf site, lnum := 0xFFFF, spare := 0x3FFF, boots := 0, nrank := 0 }

/-- READMIT (R42, R44, R100): the record is asked for; once the flash port has dealt with it the packet completes. -/
def execReadmit (k : Nat) (s : State) : Out :=
  match nth s.taken k with
  | none => .next s
  | some t =>
    match siteOfCoord (t.num 24 2) with
    | some site =>
      if t.typ = 16 && t.op = 8 && t.stage == .running then
        if s.appends.any fun a => a.record == readmitRec site then .next s else .next (s.accepted t.id)
      else
        partOp 8 true (fun _ t => t.zero 26 38)
          (fun s t => (s.askAppend (s.appendPart site) site (readmitRec site)).setPacket t.id .running) k s
    | none => partOp 8 true (fun _ _ => false) (fun s _ => s) k s

/-! ### Host-assisted mode (R108, R109) and event rings (R106) -/

/-- MODES (R100, R108). -/
def execModes (k : Nat) (s : State) : Out :=
  simpleOp 9 false (fun _ t => t.num 24 1 < 64 && t.zero 25 39)
    (fun s t => s.setPart t.target { s.part t.target with assist := t.num 24 1 }) k s

/-- Writes the records of the power-downs that ended reservations of a partition's number, once it has a ring (R65, log 86,
DEDUCED). -/
def State.reportDown (s : State) (p : Nat) : State :=
  let mine (d : DownRec) : Bool := d.part == p
  let go := { s with flash := { s.flash with down := s.flash.down.filter fun d => !mine d } }
  (s.flash.down.filter mine).foldl (fun s d =>
    let dur := d.dur.getD 0
    s.recordExcursion p d.region 5 d.start dur (dur * d.mhz / 100)) go

/-- Places an event ring: 0 goes to WRITE and to LOST (R106). -/
def State.placeRing (s : State) (p : Nat) (base : Word) (sizelog vector : Nat) : State :=
  let b := base.toNat % 2 ^ 63
  let r : EventRing := { base := b, sizelog := sizelog, vector := vector, count := 0 }
  let s := ((s.putNum (kHost b) 8 0).putNum (kHost b + 16) 8 0).sawHost 16 b 8 |>.sawHost 16 (b + 16) 8
  if p = 0 then { s with ring0 := some r } else (s.setPart p { s.part p with ring := some r }).reportDown p

/-- EVENTS (R100, R102, R106): PART may be 0. -/
def execEvents (k : Nat) (s : State) : Out :=
  match nth s.taken k with
  | none => .next s
  | some t =>
    simpleOp 10 (t.target == 0)
      (fun _ t => pform (t.word 3) == .host && 4 ≤ t.num 32 1 && t.num 32 1 ≤ 16 && t.zero 34 30)
      (fun s t => s.placeRing t.target (t.word 3) (t.num 32 1) (t.num 33 1)) k s

/-- Removes the fault entry a held assist stands for, and sends the answer down the tree (R187). -/
def State.answerFault (s : State) (a : Assist) (present : Bool) : State :=
  let x := s.part a.part
  s.setPart a.part { x with
    faults := x.faults.filter fun e => e.token != some a.token, wakes := x.wakes ++ [(a.obj, present)] }

/-- A tile's cause of failure, for the choice the host has made. -/
def State.failCause (s : State) (site : Nat) : Nat := (s.tile site).failc

/-- Carries out a decision on a held item (R108): `yes` is DECISION 1. -/
def State.decide (s : State) (a : Assist) (yes : Bool) : State :=
  let s := { s with assists := s.assists.filter (·.token != a.token) }
  let packet := s.taken.find? (·.id == a.obj)
  match a.func, packet with
  | 0, some t =>
    if !yes then s.failPacket t 11
    else if t.typ = 7 && (s.part t.part).assisted 3 then s.holdPacket t 3 (t.num 16 4)
    else s.setPacket t.id .ready
  | 1, some t =>
    if yes then s.setPacket t.id .finished
    else match s.evaluate t with
      | (true, s) => s
      | (false, s) => s.holdPacket t 1 t.idx
  | 2, _ => s.answerFault a yes
  | 3, some t => if yes then s.setPacket t.id .ready else s.failPacket t 11
  | 4, _ =>
    if yes then s.recoverTile a.part a.arg.toNat a.obj (s.failCause a.obj)
    else s.rollTile a.part a.arg.toNat a.obj (s.failCause a.obj)
  | 5, _ =>
    if yes then
      let appends : List Append := s.appends.map fun x => if x.token == some a.token then { x with token := none } else x
      { s with appends := appends }
    else { s with appends := s.appends.filter fun x => x.token != some a.token }
  | _, _ => s

/-- The held assist a token names. -/
def State.assistOf (s : State) (token : Nat) : Option Assist := s.assists.find? (·.token == token)

/-- ASSIST (R100, R109). -/
def execAssist (k : Nat) (s : State) : Out :=
  simpleOp 13 true
    (fun s t => (s.assistOf (t.num 24 8)).isSome && t.num 32 1 < 2 && t.zero 33 31)
    (fun s t => match s.assistOf (t.num 24 8) with
      | some a => s.decide a (t.num 32 1 == 1)
      | none => s) k s

/-- What the part does of itself with a held item (R108): what hardware mode does. A barrier packet is evaluated, and the host asked
again unless it is satisfied (log 43, DEDUCED). -/
def State.decideHw (s : State) (a : Assist) : State :=
  let gone (s : State) : State := { s with assists := s.assists.filter (·.token != a.token) }
  match a.func with
  | 1 => s.decide a false
  | 2 =>
    let s := gone s
    let x := s.part a.part
    let here := x.faults.filter fun e => e.token == some a.token
    let s := s.setPart a.part { x with
      faults := x.faults.map fun e => if e.token == some a.token then { e with token := none } else e }
    here.foldl (fun s e => e.jobs.foldl (fun s f => s.faultReport a.part e.page f) s) s
  | _ => s.decide a true

/-- ASSIST_TIMEOUT (R109): no answer within 1 s. -/
def execAssistTimeout (token : Nat) (s : State) : Out :=
  match s.assistOf token with
  | none => .next s
  | some a =>
    let rec4 := bytesOf 2 4 ++ bytesOf 1 a.func ++ bytesOf 1 0 ++ bytesOf 4 a.part ++ bytesOf 8 token ++ bytesOf 8 (2 ^ 64 - 1)
    .next ((s.decideHw a).record a.part rec4)

/-! ### RESTORE (R80, R100, R247) -/

/-- The recovery point a RESTORE names. -/
def State.pointOf (s : State) (t : Taken) : Option RecPoint :=
  s.points.find? fun r => r.whole && r.tier == t.num 24 2 && r.src == t.num 26 2 && r.num == t.num 40 8 && r.part == t.num 48 4

/-- Whether a RESTORE may run (R100, R104). -/
def restoreOk (s : State) (t : Taken) : Bool :=
  let x := s.part t.target
  t.num 24 2 < 4096 && t.num 26 2 < 4096 && t.num 32 8 != 0 && t.zero 28 4 && t.zero 52 12 && x.stage == .active &&
    x.jobs.isEmpty && (match s.pointOf t with
      | some r => r.images.length == (s.partTiles t.target).length && r.jobs.all fun j => (s.jobOwner j.num).isNone
      | none => false)

/-- A partition that is between two stages: an operation that needs it active waits. -/
def State.unsettled (s : State) (p : Nat) : Bool := s.hasPart p && (s.part p).stage != .active && (s.part p).stage != .out

/-- RESTORE (R100): the segments are read back, and the packet completes with the restore. -/
def execRestore (k : Nat) (s : State) : Out :=
  match nth s.taken k with
  | none => .next s
  | some t =>
    if t.typ ≠ 16 || t.op ≠ 14 || !s.startable t || s.unsettled t.target then .next s
    else if !s.hasPart t.target || !restoreOk s t then .next (s.failPacket t 11)
    else if !s.portsUsable t.target (t.num 24 2) (t.num 32 8) then .next (s.failPacket t 12)
    else
      let x := s.part t.target
      let segs := ((s.pointOf t).map (·.segs)).getD 0
      let s := s.setPart t.target { x with
        rpDev := t.num 24 2, rpPorts := t.num 32 8, rpSrc := (t.num 26 2, t.num 48 4), rpCur := t.num 40 8
        rpTiles := (s.partTiles t.target).map (·.1), restore := some t.id, stage := .restoring, readTodo := List.range segs }
      .next ((s.setPacket t.id .running).finishRestore t.target)

end Sys2Proof.Machine
end

