-- ==== Sys2Proof/Machine/Scalar.lean ====
section
/-!
DEFINITION. Scalar, control and bit-field instructions (spec/15_scalar.md).
-/

namespace Sys2Proof.Machine

/-! ### Loads and stores (R295, R296) -/

/-- LB (R295). -/
def execLb (rd rs1 : Reg) (imm : BitVec 12) (s : State) : Out :=
  loadThen s (s.rx rs1 + imm12 imm).toNat 1 fun bs s => writeReg s rd (sext 8 (ofBytes bs))

/-- LH (R295). -/
def execLh (rd rs1 : Reg) (imm : BitVec 12) (s : State) : Out :=
  loadThen s (s.rx rs1 + imm12 imm).toNat 2 fun bs s => writeReg s rd (sext 16 (ofBytes bs))

/-- LW (R295). -/
def execLw (rd rs1 : Reg) (imm : BitVec 12) (s : State) : Out :=
  loadThen s (s.rx rs1 + imm12 imm).toNat 4 fun bs s => writeReg s rd (sext 32 (ofBytes bs))

/-- LD (R295). -/
def execLd (rd rs1 : Reg) (imm : BitVec 12) (s : State) : Out :=
  loadThen s (s.rx rs1 + imm12 imm).toNat 8 fun bs s => writeReg s rd (zext 64 (ofBytes bs))

/-- LBU (R295). -/
def execLbu (rd rs1 : Reg) (imm : BitVec 12) (s : State) : Out :=
  loadThen s (s.rx rs1 + imm12 imm).toNat 1 fun bs s => writeReg s rd (zext 8 (ofBytes bs))

/-- LHU (R295). -/
def execLhu (rd rs1 : Reg) (imm : BitVec 12) (s : State) : Out :=
  loadThen s (s.rx rs1 + imm12 imm).toNat 2 fun bs s => writeReg s rd (zext 16 (ofBytes bs))

/-- LWU (R295). -/
def execLwu (rd rs1 : Reg) (imm : BitVec 12) (s : State) : Out :=
  loadThen s (s.rx rs1 + imm12 imm).toNat 4 fun bs s => writeReg s rd (zext 32 (ofBytes bs))

/-- SB (R295). -/
def execSb (rs2 rs1 : Reg) (imm : BitVec 12) (s : State) : Out :=
  storeOut s (s.rx rs1 + imm12 imm).toNat (bytesOf 1 (s.rx rs2).toNat)

/-- SH (R295). -/
def execSh (rs2 rs1 : Reg) (imm : BitVec 12) (s : State) : Out :=
  storeOut s (s.rx rs1 + imm12 imm).toNat (bytesOf 2 (s.rx rs2).toNat)

/-- SW (R295). -/
def execSw (rs2 rs1 : Reg) (imm : BitVec 12) (s : State) : Out :=
  storeOut s (s.rx rs1 + imm12 imm).toNat (bytesOf 4 (s.rx rs2).toNat)

/-- SD (R295). -/
def execSd (rs2 rs1 : Reg) (imm : BitVec 12) (s : State) : Out :=
  storeOut s (s.rx rs1 + imm12 imm).toNat (bytesOf 8 (s.rx rs2).toNat)

/-! ### Integer computation (R297-R299) -/

/-- A truth value as a register value. -/
def boolWord (b : Bool) : Word := if b then 1 else 0
/-- The 32-bit result of a W form, sign-extended (R298). -/
def wForm (r : BitVec 32) : Word := r.signExtend 64
/-- The low 32 bits of an operand (R298). -/
def low32 (v : Word) : BitVec 32 := v.setWidth 32

/-- ADDI (R297). -/
def execAddi (rd rs1 : Reg) (imm : BitVec 12) (s : State) : Out := writeReg s rd (s.rx rs1 + imm12 imm)

/-- SLTI (R297). -/
def execSlti (rd rs1 : Reg) (imm : BitVec 12) (s : State) : Out := writeReg s rd (boolWord ((s.rx rs1).slt (imm12 imm)))

/-- SLTIU (R297). -/
def execSltiu (rd rs1 : Reg) (imm : BitVec 12) (s : State) : Out := writeReg s rd (boolWord ((s.rx rs1).ult (imm12 imm)))

/-- XORI (R297). -/
def execXori (rd rs1 : Reg) (imm : BitVec 12) (s : State) : Out := writeReg s rd (s.rx rs1 ^^^ imm12 imm)

/-- ORI (R297). -/
def execOri (rd rs1 : Reg) (imm : BitVec 12) (s : State) : Out := writeReg s rd (s.rx rs1 ||| imm12 imm)

/-- ANDI (R297). -/
def execAndi (rd rs1 : Reg) (imm : BitVec 12) (s : State) : Out := writeReg s rd (s.rx rs1 &&& imm12 imm)

/-- SLLI (R297). -/
def execSlli (rd rs1 : Reg) (sh : BitVec 6) (s : State) : Out := writeReg s rd (s.rx rs1 <<< sh.toNat)

/-- SRLI (R297). -/
def execSrli (rd rs1 : Reg) (sh : BitVec 6) (s : State) : Out := writeReg s rd (s.rx rs1 >>> sh.toNat)

/-- SRAI (R297). -/
def execSrai (rd rs1 : Reg) (sh : BitVec 6) (s : State) : Out := writeReg s rd ((s.rx rs1).sshiftRight sh.toNat)

/-- ADDIW (R298). -/
def execAddiw (rd rs1 : Reg) (imm : BitVec 12) (s : State) : Out := writeReg s rd (wForm (low32 (s.rx rs1 + imm12 imm)))

/-- SLLIW (R298). -/
def execSlliw (rd rs1 : Reg) (sh : BitVec 5) (s : State) : Out := writeReg s rd (wForm (low32 (s.rx rs1) <<< sh.toNat))

/-- SRLIW (R298). -/
def execSrliw (rd rs1 : Reg) (sh : BitVec 5) (s : State) : Out := writeReg s rd (wForm (low32 (s.rx rs1) >>> sh.toNat))

/-- SRAIW (R298). -/
def execSraiw (rd rs1 : Reg) (sh : BitVec 5) (s : State) : Out := writeReg s rd (wForm ((low32 (s.rx rs1)).sshiftRight sh.toNat))

/-- ADD (R297). -/
def execAdd (rd rs1 rs2 : Reg) (s : State) : Out := writeReg s rd (s.rx rs1 + s.rx rs2)

/-- SUB (R297). -/
def execSub (rd rs1 rs2 : Reg) (s : State) : Out := writeReg s rd (s.rx rs1 - s.rx rs2)

/-- SLL (R297). -/
def execSll (rd rs1 rs2 : Reg) (s : State) : Out := writeReg s rd (s.rx rs1 <<< ((s.rx rs2).toNat % 64))

/-- SLT (R297). -/
def execSlt (rd rs1 rs2 : Reg) (s : State) : Out := writeReg s rd (boolWord ((s.rx rs1).slt (s.rx rs2)))

/-- SLTU (R297). -/
def execSltu (rd rs1 rs2 : Reg) (s : State) : Out := writeReg s rd (boolWord ((s.rx rs1).ult (s.rx rs2)))

/-- XOR (R297). -/
def execXor (rd rs1 rs2 : Reg) (s : State) : Out := writeReg s rd (s.rx rs1 ^^^ s.rx rs2)

/-- SRL (R297). -/
def execSrl (rd rs1 rs2 : Reg) (s : State) : Out := writeReg s rd (s.rx rs1 >>> ((s.rx rs2).toNat % 64))

/-- SRA (R297). -/
def execSra (rd rs1 rs2 : Reg) (s : State) : Out := writeReg s rd ((s.rx rs1).sshiftRight ((s.rx rs2).toNat % 64))

/-- OR (R297). -/
def execOr (rd rs1 rs2 : Reg) (s : State) : Out := writeReg s rd (s.rx rs1 ||| s.rx rs2)

/-- AND (R297). -/
def execAnd (rd rs1 rs2 : Reg) (s : State) : Out := writeReg s rd (s.rx rs1 &&& s.rx rs2)

/-- Bits [127:64] of a product of integers (R299). -/
def highPart (p : Int) : Word := BitVec.ofInt 64 (p / 2 ^ 64)

/-- Signed quotient of n-bit words: all ones for divisor 0; the overflowing pair gives the dividend (R299). -/
def divS {n : Nat} (a b : BitVec n) : BitVec n := if b = 0 then BitVec.allOnes n else a.sdiv b
/-- Unsigned quotient (R299). -/
def divU {n : Nat} (a b : BitVec n) : BitVec n := if b = 0 then BitVec.allOnes n else a.udiv b
/-- Signed remainder: the dividend for divisor 0 (R299). -/
def remS {n : Nat} (a b : BitVec n) : BitVec n := if b = 0 then a else a.srem b
/-- Unsigned remainder (R299). -/
def remU {n : Nat} (a b : BitVec n) : BitVec n := if b = 0 then a else a.umod b

/-- MUL (R299). -/
def execMul (rd rs1 rs2 : Reg) (s : State) : Out := writeReg s rd (s.rx rs1 * s.rx rs2)

/-- MULH (R299). -/
def execMulh (rd rs1 rs2 : Reg) (s : State) : Out := writeReg s rd (highPart ((s.rx rs1).toInt * (s.rx rs2).toInt))

/-- MULHSU (R299). -/
def execMulhsu (rd rs1 rs2 : Reg) (s : State) : Out := writeReg s rd (highPart ((s.rx rs1).toInt * ((s.rx rs2).toNat : Int)))

/-- MULHU (R299). -/
def execMulhu (rd rs1 rs2 : Reg) (s : State) : Out := writeReg s rd (highPart (((s.rx rs1).toNat : Int) * ((s.rx rs2).toNat : Int)))

/-- DIV (R299). -/
def execDiv (rd rs1 rs2 : Reg) (s : State) : Out := writeReg s rd (divS (s.rx rs1) (s.rx rs2))

/-- DIVU (R299). -/
def execDivu (rd rs1 rs2 : Reg) (s : State) : Out := writeReg s rd (divU (s.rx rs1) (s.rx rs2))

/-- REM (R299). -/
def execRem (rd rs1 rs2 : Reg) (s : State) : Out := writeReg s rd (remS (s.rx rs1) (s.rx rs2))

/-- REMU (R299). -/
def execRemu (rd rs1 rs2 : Reg) (s : State) : Out := writeReg s rd (remU (s.rx rs1) (s.rx rs2))

/-- ADDW (R298). -/
def execAddw (rd rs1 rs2 : Reg) (s : State) : Out := writeReg s rd (wForm (low32 (s.rx rs1) + low32 (s.rx rs2)))

/-- SUBW (R298). -/
def execSubw (rd rs1 rs2 : Reg) (s : State) : Out := writeReg s rd (wForm (low32 (s.rx rs1) - low32 (s.rx rs2)))

/-- SLLW (R298). -/
def execSllw (rd rs1 rs2 : Reg) (s : State) : Out := writeReg s rd (wForm (low32 (s.rx rs1) <<< ((s.rx rs2).toNat % 32)))

/-- SRLW (R298). -/
def execSrlw (rd rs1 rs2 : Reg) (s : State) : Out := writeReg s rd (wForm (low32 (s.rx rs1) >>> ((s.rx rs2).toNat % 32)))

/-- SRAW (R298). -/
def execSraw (rd rs1 rs2 : Reg) (s : State) : Out := writeReg s rd (wForm ((low32 (s.rx rs1)).sshiftRight ((s.rx rs2).toNat % 32)))

/-- MULW (R299). -/
def execMulw (rd rs1 rs2 : Reg) (s : State) : Out := writeReg s rd (wForm (low32 (s.rx rs1) * low32 (s.rx rs2)))

/-- DIVW (R299). -/
def execDivw (rd rs1 rs2 : Reg) (s : State) : Out := writeReg s rd (wForm (divS (low32 (s.rx rs1)) (low32 (s.rx rs2))))

/-- DIVUW (R299). -/
def execDivuw (rd rs1 rs2 : Reg) (s : State) : Out := writeReg s rd (wForm (divU (low32 (s.rx rs1)) (low32 (s.rx rs2))))

/-- REMW (R299). -/
def execRemw (rd rs1 rs2 : Reg) (s : State) : Out := writeReg s rd (wForm (remS (low32 (s.rx rs1)) (low32 (s.rx rs2))))

/-- REMUW (R299). -/
def execRemuw (rd rs1 rs2 : Reg) (s : State) : Out := writeReg s rd (wForm (remU (low32 (s.rx rs1)) (low32 (s.rx rs2))))

/-! ### Upper immediates, jumps and branches (R300-R302) -/

/-- LUI (R300). -/
def execLui (rd : Reg) (imm : BitVec 20) (s : State) : Out := writeReg s rd (immU imm)

/-- AUIPC (R300). -/
def execAuipc (rd : Reg) (imm : BitVec 20) (s : State) : Out := writeReg s rd (s.me.pc + immU imm)

/-- The common part of JAL and JALR: the target check before anything is written (R267, R301). -/
def jumpTo (s : State) (rd : Reg) (t : Word) : Out :=
  if t.toNat % 4 ≠ 0 then raiseOut s 13 .jump t
  else .next ((s.wx rd (s.me.pc + 4)).retireTo t true)

/-- JAL (R301). -/
def execJal (rd : Reg) (off : BitVec 20) (s : State) : Out := jumpTo s rd (s.me.pc + immJ off)

/-- JALR (R301). -/
def execJalr (rd rs1 : Reg) (imm : BitVec 12) (s : State) : Out := jumpTo s rd ((s.rx rs1 + imm12 imm) &&& ~~~1#64)

/-- A branch (R302). -/
def branchOut (s : State) (c : Cond) (rs1 rs2 : Reg) (off : BitVec 12) : Out :=
  if c.holds (s.rx rs1) (s.rx rs2) then
    let t := s.me.pc + immB off
    if t.toNat % 4 ≠ 0 then raiseOut s 13 .jump t else .next (s.retireTo t true)
  else .next s.retire

/-- BEQ (R302). -/
def execBeq (rs1 rs2 : Reg) (off : BitVec 12) (s : State) : Out := branchOut s .eq rs1 rs2 off

/-- BNE (R302). -/
def execBne (rs1 rs2 : Reg) (off : BitVec 12) (s : State) : Out := branchOut s .ne rs1 rs2 off

/-- BLT (R302). -/
def execBlt (rs1 rs2 : Reg) (off : BitVec 12) (s : State) : Out := branchOut s .lt rs1 rs2 off

/-- BGE (R302). -/
def execBge (rs1 rs2 : Reg) (off : BitVec 12) (s : State) : Out := branchOut s .ge rs1 rs2 off

/-- BLTU (R302). -/
def execBltu (rs1 rs2 : Reg) (off : BitVec 12) (s : State) : Out := branchOut s .ltu rs1 rs2 off

/-- BGEU (R302). -/
def execBgeu (rs1 rs2 : Reg) (off : BitVec 12) (s : State) : Out := branchOut s .geu rs1 rs2 off

/-! ### ECALL, EBREAK, MRET and words that are no instruction (R276, R312, R390, R392) -/

/-- ECALL (R312): at U the report's a2 holds pc; at M a trap. -/
def execEcall (s : State) : Out := raiseOut s 21 .other s.me.pc

/-- EBREAK (R312). -/
def execEbreak (s : State) : Out := raiseOut s 22 .other s.me.pc

/-- MRET (R276, R392). -/
def execMret (s : State) : Out :=
  match s.me.priv with
  | .M => .next s.mret
  | .U => illegalOut s ((encode .mret).setWidth 64)

/-- ILLEGAL_INSTRUCTION (R268): a word that is no instruction reaches retirement. -/
def execIllegalInstruction (word : BitVec 32) (s : State) : Out := illegalOut s (word.setWidth 64)

/-! ### CSR instructions (R25, R286, R310, R311) -/

/-- A CSR instruction: illegal for a number the part lacks, for an M-level CSR at U and for a write of a read-only
one (R286); a read of cycle in normal mode is logged (R52, R241). -/
def csrOut (s : State) (i : Instr) (rd : Reg) (csr : BitVec 12) (writes : Bool) (f : Word → Word) : Out :=
  let n := csr.toNat
  match csrInfo n with
  | none => illegalOut s ((encode i).setWidth 64)
  | some c =>
    if (c.m && s.me.priv == .U) || (c.ro && writes) then illegalOut s ((encode i).setWidth 64)
    else
      let write (s : State) (old : Word) : Out := writeReg (if writes then s.writeCsr n (f old) else s) rd old
      if n = 0xC00 && !s.det (s.partOfHart s.cur) then
        let count (s : State) : State := s.setMe { s.me with nCycle := s.me.nCycle + 1 }
        match s.replayed 7 s.me.nCycle with
        | .wait => blockOn s .retry
        | .value v s => write (count s) v
        | .live =>
          if (s.tile s.site).ringFull then blockOn s .retry
          else
          let v := s.readCsr n
          write (count (s.log s.site 7 [s.midOf s.cur, BitVec.ofNat 64 s.me.nCycle, v, 0] none 32)) v
      else write s (s.readCsr n)

/-- CSRRW (R310). -/
def execCsrrw (rd : Reg) (csr : BitVec 12) (rs1 : Reg) (s : State) : Out :=
  csrOut s (.csrrw rd csr rs1) rd csr true fun _ => s.rx rs1

/-- CSRRS (R310). -/
def execCsrrs (rd : Reg) (csr : BitVec 12) (rs1 : Reg) (s : State) : Out :=
  csrOut s (.csrrs rd csr rs1) rd csr (rs1 != 0) fun old => old ||| s.rx rs1

/-- CSRRC (R310). -/
def execCsrrc (rd : Reg) (csr : BitVec 12) (rs1 : Reg) (s : State) : Out :=
  csrOut s (.csrrc rd csr rs1) rd csr (rs1 != 0) fun old => old &&& ~~~(s.rx rs1)

/-- CSRRWI (R310). -/
def execCsrrwi (rd : Reg) (csr : BitVec 12) (z : BitVec 5) (s : State) : Out :=
  csrOut s (.csrrwi rd csr z) rd csr true fun _ => z.setWidth 64

/-- CSRRSI (R310). -/
def execCsrrsi (rd : Reg) (csr : BitVec 12) (z : BitVec 5) (s : State) : Out :=
  csrOut s (.csrrsi rd csr z) rd csr (z != 0) fun old => old ||| z.setWidth 64

/-- CSRRCI (R310). -/
def execCsrrci (rd : Reg) (csr : BitVec 12) (z : BitVec 5) (s : State) : Out :=
  csrOut s (.csrrci rd csr z) rd csr (z != 0) fun old => old &&& ~~~(z.setWidth 64)

/-! ### Custom scalar instructions (R303) -/

/-- Zero bits above the highest set bit of a 64-bit number. -/
def clz64 (n : Nat) : Nat := if n = 0 then 64 else 63 - Nat.log2 n
/-- Zero bits below the lowest set bit, among `k` bits counted from bit `i`. -/
def ctzFrom (n i : Nat) : Nat → Nat
  | 0 => i
  | k + 1 => if n.testBit i then i else ctzFrom n (i + 1) k
/-- Set bits among the low `k` bits. -/
def popcount (n : Nat) : Nat → Nat
  | 0 => 0
  | k + 1 => popcount n k + (if n.testBit k then 1 else 0)

/-- MIN (R303). -/
def execMin (rd rs1 rs2 : Reg) (s : State) : Out := writeReg s rd (if (s.rx rs1).sle (s.rx rs2) then s.rx rs1 else s.rx rs2)

/-- MAX (R303). -/
def execMax (rd rs1 rs2 : Reg) (s : State) : Out := writeReg s rd (if (s.rx rs2).sle (s.rx rs1) then s.rx rs1 else s.rx rs2)

/-- MINU (R303). -/
def execMinu (rd rs1 rs2 : Reg) (s : State) : Out := writeReg s rd (if (s.rx rs1).ule (s.rx rs2) then s.rx rs1 else s.rx rs2)

/-- MAXU (R303). -/
def execMaxu (rd rs1 rs2 : Reg) (s : State) : Out := writeReg s rd (if (s.rx rs2).ule (s.rx rs1) then s.rx rs1 else s.rx rs2)

/-- CLZ (R303). -/
def execClz (rd rs1 : Reg) (s : State) : Out := writeReg s rd (BitVec.ofNat 64 (clz64 (s.rx rs1).toNat))

/-- CTZ (R303). -/
def execCtz (rd rs1 : Reg) (s : State) : Out := writeReg s rd (BitVec.ofNat 64 (ctzFrom (s.rx rs1).toNat 0 64))

/-- CPOP (R303). -/
def execCpop (rd rs1 : Reg) (s : State) : Out := writeReg s rd (BitVec.ofNat 64 (popcount (s.rx rs1).toNat 64))

/-! ### Bit fields (R304, R305) -/

/-- Width of the field that exists of `w` bits from bit `o` (R304). -/
def fieldLen (o w : Nat) : Nat := min (o + w) 64 - o

/-- BFX (R304). -/
def execBfx (rd rs1 : Reg) (off width : BitVec 6) (s : State) : Out :=
  let n := fieldLen off.toNat width.toNat
  writeReg s rd (if width = 0 then 0 else sext n ((s.rx rs1).toNat / 2 ^ off.toNat))

/-- BFXU (R304). -/
def execBfxu (rd rs1 : Reg) (off width : BitVec 6) (s : State) : Out :=
  let n := fieldLen off.toNat width.toNat
  writeReg s rd (if width = 0 then 0 else zext n ((s.rx rs1).toNat / 2 ^ off.toNat))

/-- BFI (R305). -/
def execBfi (rd rs1 : Reg) (off width : BitVec 6) (s : State) : Out :=
  let mask := BitVec.ofNat 64 (2 ^ fieldLen off.toNat width.toNat - 1) <<< off.toNat
  if width = 0 then .next s.retire
  else writeReg s rd ((s.rx rd &&& ~~~mask) ||| ((s.rx rs1 <<< off.toNat) &&& mask))

/-! ### Hardware loops (R307) -/

/-- The common part of LOOP and LOOPI with count `n`: the skip of an empty body counts as a jump (R307, R308). -/
def loopOut (s : State) (n : Word) (last : BitVec 12) : Out :=
  let pc := s.me.pc
  let e := pc + BitVec.ofNat 64 (4 * last.toNat)
  let s := s.setMe { s.me with lpstart := pc + 4, lpend := e, lpcount := n }
  if n = 0 then .next (s.retireTo (e + 4) true) else .next s.retire

/-- LOOP (R307). -/
def execLoop (rs1 : Reg) (last : BitVec 12) (s : State) : Out := loopOut s (s.rx rs1) last

/-- LOOPI (R307). -/
def execLoopi (count : BitVec 10) (last : BitVec 12) (s : State) : Out := loopOut s (count.setWidth 64) last

end Sys2Proof.Machine
end

