-- ==== Sys2Proof/Machine/Switch.lean ====
section
/-!
DEFINITION. The switch of a partition (spec/11_traps.md R229-R233): the save record, SWITCHOUT and SWITCHIN.
-/

namespace Sys2Proof.Machine

/-! ### The save record (R230) -/

/-- Bytes of a save record from one tile to the next. -/
def saveStride : Nat := 2 ^ 27
/-- What a record of a tile with `usable` MiB holds besides its check word: offsets and lengths, in ascending order. -/
def recordAreas (usable : Nat) : List (Nat × Nat) :=
  [(0, Config.scratchBytes), (0x400000, accBytes), (0x420000, 0x20000), (0x440000, 0x2000), (0x442000, plainArea),
   (0x800000, usable * 2 ^ 20)]

/-- The contents of the areas of a tile's record; those of the area that is not architected are free values (log 6, DESIGN CHOICE). -/
def State.recordParts (s : State) (site : Nat) : List (List Byte) :=
  let b := s.bondedPlace site
  [s.bytes (kScratch site) Config.scratchBytes, s.bytes (kAcc site) accBytes,
   (tileHarts site).flatMap fun h => (s.thread h).windowBytes, s.tileWindow site,
   (List.range plainArea).map fun i => Config.freeByte (s.freeCtr + i), s.bytes b.1 b.2]

/-- The check word of a record (R230). -/
def checkWord (parts : List (List Byte)) : List Byte := bytesOf 8 (crc32c parts.flatten).toNat

/-- Writes the record of the tile with the `i`-th lowest rank: without capability checks (R230). -/
def State.writeRecord (s : State) (p save i site : Nat) : State :=
  let a := save + saveStride * i
  let parts := s.recordParts site
  let s := { s with freeCtr := s.freeCtr + plainArea }
  let s := ((recordAreas (s.tile site).usable).zip parts).foldl (fun s x => s.devicePut p (cutRow (a + x.1.1) x.2)) s
  s.devicePut p (cutRow (a + 0x47FFF8) (checkWord parts))

/-- Whether an area of `n` records may be named (R230). -/
def State.saveOk (s : State) (p save n : Nat) : Bool :=
  save < 2 ^ 56 && save % 65536 == 0 && 2 ≤ segOf save && save + saveStride * n ≤ 2 ^ 56 &&
    (List.range (saveStride / 65536 * n)).all fun i =>
      match (s.translate p (save + 65536 * i)).1 with
      | .ok _ => true
      | .error _ => false

/-! ### SWITCHOUT (R229) -/

/-- A pre-emption request to every core of a partition (R122, R126, R229 step 2). -/
def State.preemptAll (s : State) (p : Nat) : State :=
  let cores := ((s.partTiles p).map (·.2)).flatMap tileCores
  cores.foldl (fun s c =>
    if s.det p then s.setCore c { s.core c with preReq := true } else s.setCore c { s.core c with preempt := true }) s

/-- Whether the pre-emption is complete and nothing of the partition is in flight (R229 steps 2 and 3). -/
def State.switchReady (s : State) (p : Nat) : Bool :=
  s.drained p && ((s.partTiles p).map (·.2)).all fun x => (tileCores x).all fun c => (s.core c).preempt

/-- Whether an item is a posted write that an HBM home holds: it stays there while its partition is switched out (R229, R233). -/
def Item.atStack (i : Item) : Bool :=
  i.atPage && (match i.dst, i.body with | .stack _, .store .. | .stack _, .line .. => true | _, _ => false)

/-- The image of a tile with every item of the partition that its NI keeps or that waits at a tile (R229 step 4). -/
def State.saveImage (s : State) (site p : Nat) : TileImage :=
  let issued : List Item := s.net.filter fun i => i.part == p && siteOf i.src == site && !i.atStack
  { s.image site with issued := issued }

/-- Where committed egress of a tile waits while its partition is switched out. -/
def awayKey (p rank : Nat) : Nat := 16384 * (p + 1) + rank

/-- The tile of a partition leaves its site: the record is written, and what it has under way goes with it, but for the writes that
HBM homes hold (R229 step 4, R233). -/
def State.leaveSite (s : State) (p save : Nat) (x : Nat × (Nat × Nat)) : State :=
  let site := x.2.2
  let s := s.writeRecord p save x.1 site
  let egress := s.egressQ.map fun e => if e.1 = site then (awayKey p x.2.1, e.2) else e
  let net := (s.net.filter fun i => !(i.part == p && siteOf i.src == site) || i.atStack).map fun i =>
    if i.part = p && siteOf i.src = site then i.move site (awaySite p x.2.1) else i
  let s := { s with egressQ := egress, net := net, instrs := SMap.del s.instrs site }.plainSite site
  s.setTile site { s.tile site with out := true }

/-- Steps 4 and 5 of R229. -/
def State.switchAway (s : State) (p id : Nat) : State :=
  let x := s.part p
  let tiles := s.partTiles p
  let images := tiles.map fun b => s.saveImage b.2 p
  let s := ((List.range tiles.length).zip tiles).foldl (fun s b => s.leaveSite p x.save b) s
  let s := s.releaseRegions p
  let save : Save := { part := p, base := x.save, images := images }
  let others : List Save := s.saves.filter fun y => y.part != p
  let s := { s with saves := others ++ [save] }
  (s.setPart p { s.part p with stage := .out, swPacket := none }).accepted id

/-- SWITCHOUT (R229): it begins, or goes on to its end once the partition is at rest. -/
def execSwitchout (k : Nat) (s : State) : Out :=
  match nth s.taken k with
  | none => .next s
  | some t =>
    let p := t.target
    let x := s.part p
    let save := t.num 24 8
    if t.typ ≠ 16 || t.op ≠ 11 then .next s
    else if t.stage == .running then
      if x.swPacket == some t.id && s.switchReady p then .next (s.switchAway p t.id) else .next s
    else if !s.startable t || s.unsettled p then .next s
    else if !s.hasPart p || x.stage == .out || !t.zero 32 32 || !s.saveOk p save (s.partTiles p).length then
      .next (s.failPacket t 11)
    else
      let s := s.setPart p { x with stage := .draining, swPacket := some t.id, save := save }
      .next ((s.preemptAll p).setPacket t.id .running)

/-! ### SWITCHIN (R233) -/

/-- Whether a partition can have its regions, slots and virtual channels again (R61, R76, R233). -/
def State.grantAgain (s : State) (p : Nat) : Bool :=
  let x := s.part p
  let wheel := (s.grants p).foldl (fun m y => m ||| y.wheel) 0
  !s.regionsHeld p x.regions && wheel &&& x.wheel == 0 && (s.wheelHeld p).length + x.hslots ≤ 56 &&
    x.flits.all (fun f => (s.flitsHeld p f.1).all (fun k => !f.2.testBit k) && (s.flitsHeld p f.1).length + x.fslots ≤ 48) &&
    x.vcs.all fun v => !(s.pairsHeld p v.1).contains v.2

/-- Reads the areas of a record: none if a byte cannot be read. -/
def State.readAreas (s : State) (p a : Nat) : List (Nat × Nat) → Option (List (List Byte)) × State
  | [] => (some [], s)
  | (o, n) :: rest =>
    match s.readAll p (pieces (a + o) n) with
    | (.error _, s) => (none, s)
    | (.ok bs, s) =>
      match s.readAreas p a rest with
      | (some l, s) => (some (bs :: l), s)
      | (none, s) => (none, s)

/-- Reads the records of an area back: none if one cannot be read or its CRC-32C does not match (R233). -/
def State.readRecords (s : State) (p save : Nat) : List (Nat × TileImage) → Option (List TileImage) × State
  | [] => (some [], s)
  | (i, g) :: rest =>
    let a := save + saveStride * i
    match s.readAreas p a (recordAreas g.tile.usable) with
    | (none, s) => (none, s)
    | (some parts, s) =>
      match s.readAll p [(a + 0x47FFF8, 8)] with
      | (.error _, s) => (none, s)
      | (.ok w, s) =>
        if w != checkWord parts then (none, s)
        else match s.readRecords p save rest with
          | (some l, s) => (some (g.fromRecord parts :: l), s)
          | (none, s) => (none, s)

/-- A core that a switch has brought back: the pre-emption request is withdrawn (R233). -/
def Core.resumed (c : Core) : Core := { c with preReq := false, preempt := false, preempted := false }

/-- A tile comes back to the site its logical number is bound to now (R233). A protected one takes a full interval; its cycle counter
goes on from where it stood (R394). -/
def State.enterSite (s : State) (p : Nat) (prot : Bool) (site : Nat) (g : TileImage) : State :=
  let s := (s.plainSite site).dropFirn site
  let t := s.tile site
  let s := s.setTile site { t with prot := prot, usable := if prot then 44 else t.usable }
  let s := s.loadImage site g
  let i := g.tile.move g.site site
  let base : Int := (s.regionAt site).cycles - (g.at_ - g.tile.cycleBase)
  let s := s.setTile site { s.tile site with
    mqueue := i.mqueue, mrun := i.mrun, notices := i.notices, fullReq := prot, cycleBase := if s.det p then 0 else base }
  let s := (tileCores site).foldl (fun s c => s.setCore c (s.core c).resumed) s
  let egress := s.egressQ.map fun e => if e.1 = awayKey p g.rank then (site, e.2) else e
  let home (i : Item) : Item := if i.part = p then i.move g.site site else i
  let waves : List Wave := s.waves.map fun w => { w with rest := w.rest.map fun r => (r.1, r.2.map home) }
  let net := s.net.map fun i => i.move (awaySite p g.rank) site
  ({ s with egressQ := egress, waves := waves, net := net }.resendIssued site g).needBuddy site

/-- Home agents take the items of these logical tiles up from the numbers of their records (R137, R230). -/
def State.forgetRanks (s : State) (ranks : List Nat) : State :=
  let ours (d : Domain) : Bool := match d with | .item _ r _ _ => ranks.contains (r / 32) | _ => false
  { s with homes := s.homes.map fun a => (a.1, { a.2 with filter := a.2.filter.filter fun f => !ours f.1 }) }

/-- The partition runs again; one that has lost a tile for good rolls back (R246). -/
def State.switchBack (s : State) (p : Nat) (images : List TileImage) : State :=
  let x := s.part p
  let s := s.setPart p { x with stage := .active, save := 0 }
  let s := (s.clockRegions x.regions (if x.mhz = 0 then 3000 else x.mhz) (x.mhz != 0)).markPairs x.vcs true
  let s := if x.mhz = 0 then s else s.beginExcursions x.regions
  let s := s.forgetRanks x.tiles
  let s := images.foldl (fun s g =>
    match (s.partTiles p).find? (·.1 == g.rank) with
    | some b => s.enterSite p x.prot b.2 g
    | none => s) s
  let s := { s with saves := s.saves.filter (·.part != p) }
  if (s.partTiles p).length < x.tiles.length then s.stopPart p else s

/-- A partition whose save is gone with an HBM stack comes back to its tiles and is restored (R246, log 76, DEDUCED). -/
def State.comeBack (s : State) (p : Nat) : State :=
  let x := s.part p
  let s := ((s.partTiles p).map (·.2)).foldl (fun s b => s.enterTile x.prot b) (s.switchBack p [])
  let s := s.ubnarCtl p
  if (s.part p).stage == .stopped then s else s.readBack p

/-- SWITCHIN (R233). -/
def execSwitchin (k : Nat) (s : State) : Out :=
  match nth s.taken k with
  | none => .next s
  | some t =>
    let p := t.target
    let x := s.part p
    let save := s.saves.find? (·.part == p)
    let images := (save.map (·.images)).getD []
    let ok := s.hasPart p && x.stage == .out && t.zero 32 32 && s.grantAgain p && s.saveOk p (t.num 24 8) images.length
    if t.typ ≠ 16 || t.op ≠ 12 || !s.startable t || x.lost then .next s
    else if !ok then .next (s.failPacket t 11)
    else if save.isNone then .next ((s.comeBack p).accepted t.id)
    else match s.readRecords p (t.num 24 8) ((List.range images.length).zip images) with
      | (none, s) => .next (s.failPacket t 11)
      | (some l, s) => .next ((s.switchBack p l).accepted t.id)

end Sys2Proof.Machine
end

