-- ==== Sys2Proof/Machine/Special.lean ====
section
/-!
DEFINITION. The special functions of R263: the exact value rounded once to nearest. 1/x and 1/sqrt(x) are computed
exactly; 2^x, log2 and tanh by enclosing the value between two bounds at growing precision until both round alike.
-/

namespace Sys2Proof.Machine

/-- A quotient as a value whose low bit is set when a remainder is left: it rounds to nearest as the exact one does. -/
def stickyDiv (a b : Nat) (exp : Int) : FVal := .fin false (a / b * 2 + ofNatBool (a % b != 0)) (exp - 1)
where
  /-- A truth value as a bit. -/
  ofNatBool (c : Bool) : Nat := if c then 1 else 0

/-- Integer square root, one bit of the root at a time from bit `k` down. -/
def isqrt (n : Nat) : Nat → Nat → Nat
  | 0, r => r
  | k + 1, r =>
    let r' := r + 2 ^ k
    isqrt n k (if r' * r' ≤ n then r' else r)

/-- 1/x (R263). -/
def rcpV : FVal → FVal
  | .nan => .nan
  | .inf neg => .fin neg 0 0
  | .fin neg num exp =>
    if num = 0 then .inf neg
    else match stickyDiv (2 ^ (Nat.log2 num + 64)) num (-exp - (Nat.log2 num + 64)) with
      | .fin _ n e => .fin neg n e
      | v => v

/-- 1/sqrt(x) (R263). -/
def rsqrtV : FVal → FVal
  | .nan => .nan
  | .inf neg => if neg then .nan else .fin false 0 0
  | .fin neg num exp =>
    if num = 0 then .inf neg
    else if neg then .nan
    else
      let (num, exp) := if exp % 2 = 0 then (num, exp) else (2 * num, exp - 1)
      let k := Nat.log2 num + 96
      let big := 2 ^ (2 * k)
      let r := isqrt (big / num) (k + 1) 0
      .fin false (2 * r + (if r * r * num = big then 0 else 1)) (-(exp / 2) - k - 1)

/-- Fixed-point product at `p` fraction bits, rounded down. -/
def fxMul (p : Nat) (a b : Int) : Int := a * b / ((2 ^ p : Nat) : Int)

/-- Sum of y^k/k! for `n` terms from term `t` = y^k/k! on, at `p` fraction bits. -/
def expSeries (p : Nat) (y : Int) : Nat → Nat → Int → Int
  | 0, _, _ => 0
  | n + 1, k, t => t + expSeries p y n (k + 1) (fxMul p t y / ((k + 1 : Nat) : Int))

/-- e^y for |y| ≤ 1 at `p` fraction bits, to within p units. -/
def expFx (p : Nat) (y : Int) : Int := expSeries p y (p / 3 + 24) 0 ((2 ^ p : Nat) : Int)

/-- Sum of z^(2k+1)/(2k+1) for `n` terms, `t` = z^(2k+1), at `p` fraction bits. -/
def atanhSeries (p : Nat) (z2 : Int) : Nat → Nat → Int → Int
  | 0, _, _ => 0
  | n + 1, k, t => t / ((2 * k + 1 : Nat) : Int) + atanhSeries p z2 n (k + 1) (fxMul p t z2)

/-- ln m for 1 ≤ m ≤ 2 at `p` fraction bits: 2 atanh((m-1)/(m+1)). -/
def lnFx (p : Nat) (m : Int) : Int :=
  let one : Int := (2 ^ p : Nat)
  let z := (m - one) * one / (m + one)
  2 * atanhSeries p (fxMul p z z) (p / 3 + 24) 0 z

/-- ln 2 at `p` fraction bits. -/
def ln2Fx (p : Nat) : Int := lnFx p ((2 ^ (p + 1) : Nat) : Int)

/-- A fixed-point number as a value. -/
def fxV (p : Nat) (n : Int) (shift : Int) : FVal := ofUnits n (shift - p) false

/-- The value num × 2^exp in fixed point, rounded down. -/
def toFx (p : Nat) (neg : Bool) (num : Nat) (exp : Int) : Int :=
  let e := exp + p
  let m : Int := if 0 ≤ e then ((num * 2 ^ e.toNat : Nat) : Int) else (num : Int)
  let m := if neg then -m else m
  if 0 ≤ e then m else m / ((2 ^ (-e).toNat : Nat) : Int)

/-- Error allowance of one evaluation at `p` fraction bits. -/
def slack (p : Nat) : Int := ((64 * p : Nat) : Int)

/-- Rounds an approximation once both its bounds round alike; `n` is how often the precision may grow. -/
def ziv (f : Fmt) (approx : Nat → Int × Int) : Nat → Nat → Nat
  | 0, p => roundF f .rne (fxV p (approx p).1 (approx p).2)
  | n + 1, p =>
    let (v, sh) := approx p
    let lo := roundF f .rne (fxV p (v - slack p) sh)
    let hi := roundF f .rne (fxV p (v + slack p) sh)
    if lo = hi then lo else ziv f approx n (2 * p)

/-- 2^x (R263). -/
def exp2F (f : Fmt) : FVal → Nat
  | .nan => f.nan.getD 0
  | .inf neg => if neg then 0 else infBits f
  | .fin neg num exp =>
    if num = 0 then roundF f .rne (.fin false 1 0)
    else if (9 : Int) < (Nat.log2 num : Int) + exp then (if neg then 0 else infBits f)
    else
      let n : Int := toFx 0 neg num exp
      if 0 ≤ exp || (num % 2 ^ (-exp).toNat = 0) then roundF f .rne (.fin false 1 n)
      else
        ziv f (fun p => (expFx p (fxMul p (toFx p neg num exp - n * ((2 ^ p : Nat) : Int)) (ln2Fx p)), n)) 4 96

/-- log2 x (R263). -/
def log2F (f : Fmt) : FVal → Nat
  | .nan => f.nan.getD 0
  | .inf neg => if neg then f.nan.getD 0 else infBits f
  | .fin neg num exp =>
    if num = 0 then signed f true (infBits f)
    else if neg then f.nan.getD 0
    else
      let e : Int := (Nat.log2 num : Int) + exp
      if num = 2 ^ Nat.log2 num then roundF f .rne (intV e)
      else
        ziv f (fun p =>
          let m : Int := toFx p false num (-(Nat.log2 num : Int))
          (lnFx p m * ((2 ^ p : Nat) : Int) / ln2Fx p + e * ((2 ^ p : Nat) : Int), 0)) 4 96

/-- tanh x (R263). -/
def tanhF (f : Fmt) : FVal → Nat
  | .nan => f.nan.getD 0
  | .inf neg => roundF f .rne (.fin neg 1 0)
  | .fin neg num exp =>
    if num = 0 then signed f neg 0
    else if (6 : Int) < (Nat.log2 num : Int) + exp then roundF f .rne (.fin neg 1 0)
    else
      let r := ziv f (fun p =>
        let one : Int := (2 ^ p : Nat)
        let y := 2 * toFx p false num exp * one / ln2Fx p
        let n := y / one
        let ex := expFx p (fxMul p (y - n * one) (ln2Fx p)) * ((2 ^ n.toNat : Nat) : Int)
        ((ex - one) * one / (ex + one), 0)) 4 96
      signed f neg r

end Sys2Proof.Machine
end

