-- ==== Sys2Proof/Machine/Vector.lean ====
section
/-!
DEFINITION. Vector and stream instructions (spec/17_vector.md). A stream instruction of several beats takes one issue turn for each beat and retires with
the last (R119, log 22).
-/

namespace Sys2Proof.Machine

/-! ### Rounding and random bits (R254, R256, R265) -/

/-- The mode of a rounding code; DYN is resolved by the caller. -/
def modeOf (c sr : Nat) : Mode :=
  match c with
  | 1 => .rtz
  | 2 => .rdn
  | 3 => .rup
  | 4 => .sr sr
  | _ => .rne

/-- A rounding field with DYN resolved through fround (R254, R258). -/
def Thread.rmCode (t : Thread) (rm : BitVec 3) : Nat := if rm = 7 then t.fround.toNat else rm.toNat

/-- The mode of an instruction that does not round stochastically: SR through DYN rounds with RNE (R254). -/
def Thread.mode (t : Thread) (rm : BitVec 3) : Mode :=
  let c := t.rmCode rm
  if c = 4 then .rne else modeOf c 0

/-- Generator output for element e of beat b of the current instruction (R265). -/
def State.draw (s : State) (b e : Nat) : Word :=
  let t := s.me
  let entry := (t.act.map (·.entry)).getD 0
  let off := (t.pc - entry).toNat / 4 % 2 ^ 24
  hash (s.tile s.site).srseed (BitVec.ofNat 64 (t.dn * 2 ^ 32 + (s.rankOf s.site).getD 0)) (s.midOf s.cur)
    (BitVec.ofNat 64 (off * 2 ^ 40 + b % 2 ^ 32 * 256 + e % 256))

/-- Counts one draw towards dn when the instruction retires (R265, R353). -/
def State.countDraw (s : State) : State := s.setMe { s.me with dn := s.me.dn + 1 }

/-! ### Streams (R337-R340) -/

/-- Element width of a 4-bit type code in bits (R280). -/
def typeBits (c : Nat) : Nat :=
  match c with
  | 0 | 3 | 8 => 32
  | 1 | 4 | 5 | 9 => 16
  | 11 => 4
  | _ => 8

/-- The bytes of a stream's current row, as (address, length) pieces: data, and for TYPE 11 the scales (R337). -/
def Stream.rowAt (x : Stream) (k : Nat) : List (Int × Nat) :=
  let data : Int × Nat := ((x.base : Int) + (k : Int) * x.stride, x.nelem * typeBits x.typ / 8)
  if x.typ = 11 then [data, (((x.scale + k * (x.nelem / 32) : Nat) : Int), x.nelem / 32)] else [data]

/-- Whether a piece of a row keeps to one segment (R340). -/
def rowOk (p : Int × Nat) : Bool := decide (0 ≤ p.1) && segOf p.1.toNat == segOf (p.1.toNat + p.2 - 1) &&
  decide (p.1.toNat + p.2 ≤ 2 ^ 56) && routeOf p.1.toNat != .denied

/-- The locations of a local row piece, or none for the protection error (R340). -/
def State.rowKey (s : State) (k : AccKind) (p : Int × Nat) : Option Nat :=
  if rowOk p then s.localAcc s.site k p.1.toNat p.2 else none

/-- Whether a row piece is local. -/
def rowLocal (p : Int × Nat) : Bool := segOf p.1.toNat == 0

/-- Takes local pieces from memory and translated ones from the response, in order: the bytes of each piece. -/
def State.rowBytes (s : State) : List (Int × Nat) → List Byte → List (List Byte)
  | [], _ => []
  | p :: t, bs =>
    if rowLocal p then
      match s.rowKey .read p with
      | some k => s.bytes k p.2 :: s.rowBytes t bs
      | none => [] :: s.rowBytes t bs
    else bs.take p.2 :: s.rowBytes t (bs.drop p.2)

/-- A thread that has read the rows of a stream instruction keeps them for its beats (R119, R340). -/
def State.keepRows (s : State) (rows : List (List Byte)) : State := s.setMe { s.me with rows := rows }

/-- Reads the rows of an instruction as one access when its first beat issues, and goes on with the bytes of each piece
(R340). While it waits for them, the thread keeps them as empty. -/
def rowsThen (s : State) (ps : List (Int × Nat)) (k : List (List Byte) → State → Out) : Out :=
  let ps' := ps.filter fun p => p.2 != 0
  let go (rows : List (List Byte)) : Out := k rows (s.keepRows rows)
  if s.me.beat ≠ 0 then k s.me.rows s
  else match ps'.find? fun p => !rowOk p || (rowLocal p && (s.rowKey .read p).isNone) with
  | some p => raiseOut s 2 .load (BitVec.ofInt 64 p.1)
  | none =>
    if ps'.any fun p => rowLocal p && (((s.rowKey .read p).map fun q => s.pendingLocal s.cur q p.2).getD false) then
      blockOn s .retry
    else
      let far := (ps'.filter fun p => !rowLocal p).flatMap fun p => pieces p.1.toNat p.2
      match s.me.resp with
      | some r => go (s.rowBytes ps r.data)
      | none =>
        if far.isEmpty then go (s.rowBytes ps []) else .next ((s.keepRows (ps.map fun _ => [])).ask (.read far) false)

/-- Performs stores in order; none of them takes place if one is refused at the issuer: its cause and address. -/
def State.storeList (s : State) : List (Nat × List Byte) → Except (Nat × Nat) State
  | [] => .ok s
  | (a, bs) :: t =>
    match s.storeAt a bs with
    | .ok s => s.storeList t
    | .error c => .error (c, a)

/-- Whether one of the stores is local and waits for an earlier store of the thread to its bytes (R206). -/
def State.listWaits (s : State) (l : List (Nat × List Byte)) : Bool := l.any fun e => s.storeWaits e.1 e.2.length

/-- Whether a field names a bound stream. -/
def Thread.bound (t : Thread) (n : BitVec 4) : Bool := (t.streamOf n).isSome

/-- A stream moves on to its next row (R339). -/
def Thread.advance (t : Thread) (n : BitVec 4) : Thread :=
  match t.streamOf n with
  | some x => t.setStream (n.toNat - 12) (some { x with row := x.row + 1 })
  | none => t

/-- The type check of R339 for a stream in an instruction of element type `et`; `nat` is the variant bit where the
instruction distinguishes natural types. -/
def Stream.typeOk (x : Stream) (et : EType) (nat : Option Bool) : Bool :=
  x.typ != 11 && x.typ % 8 == et.code.toNat && (match nat with | some b => (8 ≤ x.typ) == b | none => true)

/-- Numbers of a little-endian row of width w. -/
def rowElems (w : Nat) (bs : List Byte) : List Nat :=
  (List.range (bs.length / (w / 8))).map fun i => ofBytes ((bs.drop (i * (w / 8))).take (w / 8))

/-- The beats of a row: `c` elements each, numbered. -/
def beatsOf (n c : Nat) : List Nat := List.range (ceilDiv n c)

/-- Element k of a list of numbers. -/
def at0 (l : List Nat) (k : Nat) : Nat := (l[k]?).getD 0

/-- The stores of one beat of a write stream: its active elements in ascending order (R340). -/
def Stream.beatStores (x : Stream) (w c b : Nat) (act : Nat → Bool) (val : Nat → Nat) : List (Nat × List Byte) :=
  ((List.range c).filter fun j => decide (b * c + j < x.nelem) && act j).map fun j =>
    ((((x.base : Int) + (x.row : Int) * x.stride).toNat + (b * c + j) * (w / 8)), elemBytes w (val j))

/-! ### The element-wise instructions (R334, R339, R343-R345) -/

/-- What stands in the vs1 field. -/
inductive Src1 where
  | vec (n : BitVec 4)
  | scalar (v : Nat)
  deriving DecidableEq, Repr

/-- The field a vector source names. -/
def Src1.field : Src1 → Option (BitVec 4)
  | .vec n => some n
  | .scalar _ => none

/-- Whether a stream may stand in a source field now: a read stream with rows left (R339). -/
def Stream.readable (x : Stream) : Bool := !x.write && decide (x.row < x.nrows)
/-- Whether a stream may stand in vd now (R339). -/
def Stream.writable (x : Stream) : Bool := x.write && decide (x.row < x.nrows)

/-- The checks of R339 on the streams an instruction names in its sources and in vd. -/
def Thread.streamsOk (t : Thread) (et : EType) (nat : Option Bool) (srcs : List (BitVec 4)) (vd : Option (BitVec 4)) : Bool :=
  let ss := srcs.filter t.bound
  let all := ss ++ (vd.toList.filter t.bound)
  let xs := ss.filterMap t.streamOf
  let ds := (vd.toList.filterMap t.streamOf)
  all.Nodup && xs.all Stream.readable && ds.all Stream.writable &&
    (xs ++ ds).all (fun x => x.typeOk et nat) &&
    (match xs ++ ds with | [] => true | x :: r => r.all fun y => y.nelem == x.nelem)

/-- The stored result of a beat that the register keeps: inactive elements keep their value. -/
def foldBeat (c : Nat) (act : Nat → Bool) (f : Nat → Nat → Nat) (d : List Nat) : List Nat :=
  (List.range c).map fun j => if act j then f j (at0 d j) else at0 d j

/-- The row lengths of the streams an instruction names; `none` if it names none. -/
def Thread.rowLen (t : Thread) (fs : List (BitVec 4)) : Option Nat := (fs.filterMap t.streamOf).head?.map (·.nelem)

/-- The rows of the read streams among the sources. -/
def Thread.srcRows (t : Thread) (srcs : List (BitVec 4)) : List (Int × Nat) :=
  (srcs.filterMap t.streamOf).flatMap fun x => x.rowAt x.row

/-- The elements a source field gives: of the row just read if it names a stream, else of the register in every beat.
`rows` are the bytes of the named streams in order. -/
def Thread.srcElems (t : Thread) (w c n : Nat) : List (BitVec 4) → List (List Byte) → List (List Nat)
  | [], _ => []
  | v :: rest, rows =>
    if t.bound v then rowElems w (rows.head?.getD []) :: t.srcElems w c n rest rows.tail
    else ((List.range (ceilDiv n c)).flatMap fun _ => elems (t.rv v) w) :: t.srcElems w c n rest rows

/-- Writes the register result of an instruction, if it has one. -/
def Thread.wres (t : Thread) (vd : BitVec 4) (res : Option VReg) : Thread :=
  match res with | some v => t.wv vd v | none => t

/-- A beat of an instruction of `nb` beats that names streams (R119, R339, R340): its stores to a write stream, which stand when a
later beat is refused (R223); the last one writes the register, moves the streams `fs` on and retires. Without streams the
instruction retires at once. -/
def streamEnd (s : State) (fs : List (BitVec 4)) (vd : BitVec 4) (nb : Nat) (stores : Nat → List (Nat × List Byte))
    (res : Option VReg) (fin : State → State) : Out :=
  if fs.isEmpty then .next (fin (s.setMe (s.me.wres vd res))).retire
  else
    let b := s.me.beat
    if s.listWaits (stores b) then blockOn s .retry
    else match s.storeList (stores b) with
    | .error (c, a) => raiseOut s c .store (BitVec.ofNat 64 a)
    | .ok s =>
      if b + 1 < nb then .next (s.setMe { s.me with beat := b + 1, resp := none, status := .running })
      else
        let t := (fs.foldl Thread.advance s.me).wres vd res
        .next (fin (s.setMe { t with beat := 0, rows := [] })).retire

/-- Whether a write stream's row keeps to one segment or memory (R340). -/
def State.writeRowOk (s : State) (x : Stream) : Bool :=
  (x.rowAt x.row).all fun p => p.2 == 0 || (rowOk p && (!rowLocal p || (s.localKey s.site p.1.toNat p.2).isSome))

/-- An element-wise instruction: `f b j a x d` gives element j of beat b from the sources and the old destination;
`d0` is what a write stream's destination reads as (R339). -/
def laneOut (s : State) (et : EType) (vd vs2 : BitVec 4) (src1 : Src1) (pm : Bool) (nat : Option Bool) (d0 : Nat)
    (f : Nat → Nat → Nat → Nat → Nat → Nat) (fin : State → State) : Out :=
  let t := s.me
  let w := et.bits
  let c := et.count
  let srcs := vs2 :: src1.field.toList
  let fs := (srcs ++ [vd]).filter t.bound
  if fs.isEmpty then
    let a := elems (t.rv vs2) w
    let x := fun j => match src1 with | .vec n => elem (t.rv n) w j | .scalar v => v
    let d := foldBeat c (t.active c pm) (fun j old => f 0 j (at0 a j) (x j) old) (elems (t.rv vd) w)
    .next (fin (s.setMe (t.wv vd (pack w d)))).retire
  else if !t.streamsOk et nat srcs (some vd) then operandError s
  else
    let n := (t.rowLen fs).getD 0
    rowsThen s (t.srcRows srcs) fun rows s =>
      let t := s.me
      let es := t.srcElems w c n srcs rows
      let a := es.head?.getD []
      let x := fun k => match src1 with | .vec _ => at0 (es.tail.head?.getD []) k | .scalar v => v
      let act := fun j => !pm || (t.rm 0).getLsbD j
      match t.streamOf vd with
      | some o =>
        if !s.writeRowOk o then raiseOut s 2 .store (BitVec.ofNat 64 o.base)
        else
          streamEnd s fs vd (ceilDiv n c)
            (fun b => o.beatStores w c b act fun j => f b j (at0 a (b * c + j)) (x (b * c + j)) d0) none fin
      | none =>
        let d := (beatsOf n c).foldl (fun d b =>
          foldBeat c (fun j => decide (b * c + j < n) && act j)
            (fun j old => f b j (at0 a (b * c + j)) (x (b * c + j)) old) d) (elems (t.rv vd) w)
        streamEnd s fs vd (ceilDiv n c) (fun _ => []) (some (pack w d)) fin

/-- The vs1 operand of an integer instruction: a vector, or in a .vx form an x register (R272, R343). -/
def State.intSrc (s : State) (et : EType) (vs1 : BitVec 4) (var : BitVec 3) : Src1 :=
  if var.getLsbD 0 then .scalar ((s.rx (lowReg vs1)).toNat % 2 ^ et.bits) else .vec vs1

/-- An integer element-wise instruction (R343). -/
def intOut (s : State) (et : EType) (vd vs2 vs1 : BitVec 4) (var : BitVec 3) (pm distinct : Bool)
    (f : Nat → Nat → Nat → Nat) : Out :=
  laneOut s et vd vs2 (s.intSrc et vs1 var) pm (if distinct then some (var.getLsbD 1) else none) 0
    (fun _ _ a b _ => f et.bits a b % 2 ^ et.bits) id

/-- Clamps to the range of a w-bit type (R343). -/
def clampN (nat : Bool) (w : Nat) (v : Int) : Nat :=
  let hi : Int := if nat then ((2 ^ w - 1 : Nat) : Int) else ((2 ^ (w - 1) - 1 : Nat) : Int)
  let lo : Int := if nat then 0 else -((2 ^ (w - 1) : Nat) : Int)
  wrapN w (max lo (min hi v))

/-- An integer as natural or signed. -/
def ival (nat : Bool) (w x : Nat) : Int := if nat then (x : Int) else sval w x

/-- log2 of a lane width. -/
def laneLog (w : Nat) : Nat := Nat.log2 w

/-- VADD (R343). -/
def execVadd (et : EType) (vd vs2 vs1 : BitVec 4) (var : BitVec 3) (pm : Bool) (s : State) : Out :=
  intOut s et vd vs2 vs1 var pm false fun _ a b => a + b

/-- VSUB (R343). -/
def execVsub (et : EType) (vd vs2 vs1 : BitVec 4) (var : BitVec 3) (pm : Bool) (s : State) : Out :=
  intOut s et vd vs2 vs1 var pm false fun w a b => a + 2 ^ w - b

/-- VMUL (R343). -/
def execVmul (et : EType) (vd vs2 vs1 : BitVec 4) (var : BitVec 3) (pm : Bool) (s : State) : Out :=
  intOut s et vd vs2 vs1 var pm false fun _ a b => a * b

/-- VMULH (R343). -/
def execVmulh (et : EType) (vd vs2 vs1 : BitVec 4) (var : BitVec 3) (pm : Bool) (s : State) : Out :=
  intOut s et vd vs2 vs1 var pm true fun w a b => wrapN w (ival (var.getLsbD 1) w a * ival (var.getLsbD 1) w b / ((2 ^ w : Nat) : Int))

/-- VADDSAT (R343). -/
def execVaddsat (et : EType) (vd vs2 vs1 : BitVec 4) (var : BitVec 3) (pm : Bool) (s : State) : Out :=
  intOut s et vd vs2 vs1 var pm true fun w a b => clampN (var.getLsbD 1) w (ival (var.getLsbD 1) w a + ival (var.getLsbD 1) w b)

/-- VSUBSAT (R343). -/
def execVsubsat (et : EType) (vd vs2 vs1 : BitVec 4) (var : BitVec 3) (pm : Bool) (s : State) : Out :=
  intOut s et vd vs2 vs1 var pm true fun w a b => clampN (var.getLsbD 1) w (ival (var.getLsbD 1) w a - ival (var.getLsbD 1) w b)

/-- VMIN (R264, R343). -/
def execVmin (et : EType) (vd vs2 vs1 : BitVec 4) (var : BitVec 3) (pm : Bool) (s : State) : Out :=
  if et.isInt then intOut s et vd vs2 vs1 var pm true fun w a b => if intLt (var.getLsbD 1) w b a then b else a
  else laneOut s et vd vs2 (.vec vs1) pm none 0 (fun _ _ a b _ => minF et.fmt a b) id

/-- VMAX (R264, R343). -/
def execVmax (et : EType) (vd vs2 vs1 : BitVec 4) (var : BitVec 3) (pm : Bool) (s : State) : Out :=
  if et.isInt then intOut s et vd vs2 vs1 var pm true fun w a b => if intLt (var.getLsbD 1) w a b then b else a
  else laneOut s et vd vs2 (.vec vs1) pm none 0 (fun _ _ a b _ => maxF et.fmt a b) id

/-- VAND (R343). -/
def execVand (et : EType) (vd vs2 vs1 : BitVec 4) (var : BitVec 3) (pm : Bool) (s : State) : Out :=
  intOut s et vd vs2 vs1 var pm false fun _ a b => a &&& b

/-- VOR (R343). -/
def execVor (et : EType) (vd vs2 vs1 : BitVec 4) (var : BitVec 3) (pm : Bool) (s : State) : Out :=
  intOut s et vd vs2 vs1 var pm false fun _ a b => a ||| b

/-- VXOR (R343). -/
def execVxor (et : EType) (vd vs2 vs1 : BitVec 4) (var : BitVec 3) (pm : Bool) (s : State) : Out :=
  intOut s et vd vs2 vs1 var pm false fun _ a b => a ^^^ b

/-- VSLL (R343). -/
def execVsll (et : EType) (vd vs2 vs1 : BitVec 4) (var : BitVec 3) (pm : Bool) (s : State) : Out :=
  intOut s et vd vs2 vs1 var pm false fun w a b => a * 2 ^ (b % 2 ^ laneLog w)

/-- VSRL (R343). -/
def execVsrl (et : EType) (vd vs2 vs1 : BitVec 4) (var : BitVec 3) (pm : Bool) (s : State) : Out :=
  intOut s et vd vs2 vs1 var pm false fun w a b => a / 2 ^ (b % 2 ^ laneLog w)

/-- VSRA (R343). -/
def execVsra (et : EType) (vd vs2 vs1 : BitVec 4) (var : BitVec 3) (pm : Bool) (s : State) : Out :=
  intOut s et vd vs2 vs1 var pm false fun w a b => wrapN w (sval w a / ((2 ^ (b % 2 ^ laneLog w) : Nat) : Int))

/-- -0 of a format (R339). -/
def negZero (f : Fmt) : Nat := 2 ^ (f.eb + f.mb)

/-- A floating element-wise instruction: exact, rounded once (R344); a write stream's destination reads as -0. -/
def fltOut (s : State) (et : EType) (vd vs2 vs1 : BitVec 4) (pm : Bool) (f : Fmt → FVal → FVal → FVal → Nat) : Out :=
  let fm := et.fmt
  laneOut s et vd vs2 (.vec vs1) pm none (negZero fm)
    (fun _ _ a b d => f fm (decodeF fm a) (decodeF fm b) (decodeF fm d)) id

/-- VFADD (R344). -/
def execVfadd (et : EType) (vd vs2 vs1 : BitVec 4) (rm : BitVec 3) (pm : Bool) (s : State) : Out :=
  fltOut s et vd vs2 vs1 pm fun fm a b _ => roundF fm (s.me.mode rm) (addV (s.me.mode rm) a b)

/-- VFSUB (R344). -/
def execVfsub (et : EType) (vd vs2 vs1 : BitVec 4) (rm : BitVec 3) (pm : Bool) (s : State) : Out :=
  fltOut s et vd vs2 vs1 pm fun fm a b _ => roundF fm (s.me.mode rm) (addV (s.me.mode rm) a (negV b))

/-- VFMUL (R344). -/
def execVfmul (et : EType) (vd vs2 vs1 : BitVec 4) (rm : BitVec 3) (pm : Bool) (s : State) : Out :=
  fltOut s et vd vs2 vs1 pm fun fm a b _ => roundF fm (s.me.mode rm) (mulV a b)

/-- VFMA (R344). -/
def execVfma (et : EType) (vd vs2 vs1 : BitVec 4) (rm : BitVec 3) (pm : Bool) (s : State) : Out :=
  fltOut s et vd vs2 vs1 pm fun fm a b d => roundF fm (s.me.mode rm) (addV (s.me.mode rm) (mulV a b) d)

/-- VFNMA (R344). -/
def execVfnma (et : EType) (vd vs2 vs1 : BitVec 4) (rm : BitVec 3) (pm : Bool) (s : State) : Out :=
  fltOut s et vd vs2 vs1 pm fun fm a b d => roundF fm (s.me.mode rm) (addV (s.me.mode rm) d (negV (mulV a b)))

/-- VMINN (R264, R344). -/
def execVminn (et : EType) (vd vs2 vs1 : BitVec 4) (pm : Bool) (s : State) : Out :=
  laneOut s et vd vs2 (.vec vs1) pm none 0 (fun _ _ a b _ => minN et.fmt a b) id

/-- VMAXN (R264, R344). -/
def execVmaxn (et : EType) (vd vs2 vs1 : BitVec 4) (pm : Bool) (s : State) : Out :=
  laneOut s et vd vs2 (.vec vs1) pm none 0 (fun _ _ a b _ => maxN et.fmt a b) id

/-- A one-source instruction (R345). -/
def oneOut (s : State) (et : EType) (vd vs2 : BitVec 4) (pm : Bool) (f : Fmt → Nat → Nat) : Out :=
  laneOut s et vd vs2 (.scalar 0) pm none 0 (fun _ _ a _ _ => f et.fmt a) id

/-- VEXP2 (R263, R345). -/
def execVexp2 (et : EType) (vd vs2 : BitVec 4) (pm : Bool) (s : State) : Out :=
  oneOut s et vd vs2 pm fun fm a => exp2F fm (decodeF fm a)

/-- VLOG2 (R263, R345). -/
def execVlog2 (et : EType) (vd vs2 : BitVec 4) (pm : Bool) (s : State) : Out :=
  oneOut s et vd vs2 pm fun fm a => log2F fm (decodeF fm a)

/-- VRCP (R263, R345). -/
def execVrcp (et : EType) (vd vs2 : BitVec 4) (pm : Bool) (s : State) : Out :=
  oneOut s et vd vs2 pm fun fm a => roundF fm .rne (rcpV (decodeF fm a))

/-- VRSQRT (R263, R345). -/
def execVrsqrt (et : EType) (vd vs2 : BitVec 4) (pm : Bool) (s : State) : Out :=
  oneOut s et vd vs2 pm fun fm a => roundF fm .rne (rsqrtV (decodeF fm a))

/-- VTANH (R263, R345). -/
def execVtanh (et : EType) (vd vs2 : BitVec 4) (pm : Bool) (s : State) : Out :=
  oneOut s et vd vs2 pm fun fm a => tanhF fm (decodeF fm a)

/-- VFABS (R345). -/
def execVfabs (et : EType) (vd vs2 : BitVec 4) (pm : Bool) (s : State) : Out :=
  oneOut s et vd vs2 pm fun fm a => a % 2 ^ (fm.eb + fm.mb)

/-- VFNEG (R345). -/
def execVfneg (et : EType) (vd vs2 : BitVec 4) (pm : Bool) (s : State) : Out :=
  oneOut s et vd vs2 pm fun fm a => (a + 2 ^ (fm.eb + fm.mb)) % 2 ^ fm.width

/-! ### Loads and stores (R341, R342) -/

/-- Reads elements of `n` bytes at a list of addresses and goes on with their values: alignment is checked first,
translated elements are one returning operation (R341). -/
def gatherThen (s : State) (as : List Nat) (n : Nat) (k : List Nat → State → Out) : Out :=
  match as.find? fun a => a % n != 0 with
  | some a => raiseOut s 13 .load (BitVec.ofNat 64 a)
  | none =>
    match as.find? fun a => routeOf a == .denied || (routeOf a == .localWin && (s.localAcc s.site .read a n).isNone) with
    | some a => raiseOut s 2 .load (BitVec.ofNat 64 a)
    | none =>
      if as.any fun a => ((s.localAcc s.site .read a n).map fun q => s.pendingLocal s.cur q n).getD false then
        blockOn s .retry
      else
        let far := as.filter fun a => routeOf a == .translated
        let vals := fun (bs : List Byte) =>
          (as.foldl (fun (acc : List Nat × List Byte) a =>
            if routeOf a == .translated then (acc.1 ++ [ofBytes (acc.2.take n)], acc.2.drop n)
            else (acc.1 ++ [((s.localAcc s.site .read a n).map fun q => s.num q n).getD 0], acc.2)) ([], bs)).1
        match s.me.resp with
        | some r => k (vals r.data) s
        | none => if far.isEmpty then k (vals []) s else .next (s.ask (.read (far.map fun a => (a, n))) false)

/-- The active elements of a register-only instruction, ascending. -/
def Thread.actives (t : Thread) (c : Nat) (pm : Bool) : List Nat := (List.range c).filter (t.active c pm)

/-- Writes values to the listed elements of vd. -/
def Thread.wElems (t : Thread) (w : Nat) (vd : BitVec 4) (is : List Nat) (vals : List Nat) : Thread :=
  t.wv vd (pack w ((is.zip vals).foldl (fun d e => d.set e.1 e.2) (elems (t.rv vd) w)))

/-- A vector load from the addresses of its active elements. -/
def vloadOut (s : State) (et : EType) (vd : BitVec 4) (pm : Bool) (addr : Nat → Nat) : Out :=
  let is := s.me.actives et.count pm
  gatherThen s (is.map addr) (et.bits / 8) fun vals s => .next (s.setMe (s.me.wElems et.bits vd is vals)).retire

/-- A vector store to the addresses of its active elements, ascending. -/
def vstoreOut (s : State) (et : EType) (vs : BitVec 4) (pm : Bool) (addr : Nat → Nat) : Out :=
  let n := et.bits / 8
  let l := (s.me.actives et.count pm).map fun i => (addr i, elemBytes et.bits (elem (s.me.rv vs) et.bits i))
  match l.find? fun e => e.1 % n != 0 with
  | some e => raiseOut s 13 .store (BitVec.ofNat 64 e.1)
  | none =>
    if s.listWaits l then blockOn s .retry
    else match s.storeList l with
    | .ok s => .next s.retire
    | .error (c, a) => raiseOut s c .store (BitVec.ofNat 64 a)

/-- The 64-byte alignment of a contiguous access in a translated segment (R341). -/
def farMisaligned (a : Nat) : Bool := routeOf a == .translated && a % 64 != 0

/-- An element address modulo 2^64. -/
def elemAddr (a : Word) (d : Int) : Nat := (a + BitVec.ofInt 64 d).toNat

/-- VLD (R341). -/
def execVld (et : EType) (vd xs : BitVec 4) (pm : Bool) (s : State) : Out :=
  let a := s.rx (lowReg xs)
  if s.me.bound vd then operandError s
  else if farMisaligned a.toNat then raiseOut s 13 .load a
  else vloadOut s et vd pm fun i => elemAddr a ((i * (et.bits / 8) : Nat) : Int)

/-- VST (R341). -/
def execVst (et : EType) (vd xs : BitVec 4) (pm : Bool) (s : State) : Out :=
  let a := s.rx (lowReg xs)
  if s.me.bound vd then operandError s
  else if farMisaligned a.toNat then raiseOut s 13 .store a
  else vstoreOut s et vd pm fun i => elemAddr a ((i * (et.bits / 8) : Nat) : Int)

/-- VLDS (R341). -/
def execVlds (et : EType) (vd xs xt : BitVec 4) (pm : Bool) (s : State) : Out :=
  if s.me.bound vd then operandError s
  else vloadOut s et vd pm fun i => elemAddr (s.rx (lowReg xs)) ((i : Int) * (s.rx (lowReg xt)).toInt)

/-- VSTS (R341). -/
def execVsts (et : EType) (vd xs xt : BitVec 4) (pm : Bool) (s : State) : Out :=
  if s.me.bound vd then operandError s
  else vstoreOut s et vd pm fun i => elemAddr (s.rx (lowReg xs)) ((i : Int) * (s.rx (lowReg xt)).toInt)

/-- VGATH (R342). -/
def execVgath (et : EType) (vd xs vi : BitVec 4) (pm : Bool) (s : State) : Out :=
  if s.me.bound vd || s.me.bound vi then operandError s
  else vloadOut s et vd pm fun i =>
    elemAddr (s.rx (lowReg xs)) ((elem (s.me.rv vi) et.bits i * (et.bits / 8) : Nat) : Int)

/-- VSCAT (R342). -/
def execVscat (et : EType) (vd xs vi : BitVec 4) (pm : Bool) (s : State) : Out :=
  if s.me.bound vd || s.me.bound vi then operandError s
  else vstoreOut s et vd pm fun i =>
    elemAddr (s.rx (lowReg xs)) ((elem (s.me.rv vi) et.bits i * (et.bits / 8) : Nat) : Int)

/-! ### Binding streams (R337, R338) -/

/-- The checks of R337 on a descriptor: cause 12, cause 13, or the stream. -/
def streamDesc (w0 w1 w2 w3 : Nat) : Except Nat Stream :=
  let typ := bitsN w1 23 20
  let n := bitsN w1 13 0
  let ok := w0 < 2 ^ 56 && w3 < 2 ^ 56 && bitsN w1 63 32 != 0 && bitsN w1 31 25 == 0 && bitsN w1 19 14 == 0 &&
    decide (typ ≤ 11) &&
    (if typ = 11 then n % 32 == 0 && 32 ≤ n && n ≤ 8192 else decide (n * (typeBits typ / 8) ≤ 4096) && w3 == 0)
  let unit := if typ = 11 then 16 else typeBits typ / 8
  if !ok then .error 12
  else if w0 % unit ≠ 0 || w2 % unit ≠ 0 then .error 13
  else .ok { base := w0, nrows := bitsN w1 63 32, write := bitsN w1 24 24 == 1, typ := typ, nelem := n,
             stride := sval 64 w2, scale := w3, row := 0 }

/-- STRCFG (R338). -/
def execStrcfg (st : BitVec 2) (xs : BitVec 4) (s : State) : Out :=
  let a := s.rx (lowReg xs)
  if a.toNat % 32 ≠ 0 then raiseOut s 13 .load a
  else match s.windowKey .read a.toNat 32 with
    | .error c => raiseOut s c .load a
    | .ok k =>
      if s.pendingLocal s.cur k 32 then blockOn s .retry
      else match streamDesc (s.num k 8) (s.num (k + 8) 8) (s.num (k + 16) 8) (s.num (k + 24) 8) with
        | .error c => raiseOut s c .load a
        | .ok x => .next (s.setMe (s.me.setStream st.toNat (some x))).retire

/-- STREND (R338). -/
def execStrend (st : BitVec 2) (s : State) : Out := .next (s.setMe (s.me.setStream st.toNat none)).retire

/-! ### Compares, masks and selection (R346-R348) -/

/-- A bit of a mask replaced. -/
def setBit (m : Word) (i : Nat) (b : Bool) : Word :=
  if b then m ||| (1#64 <<< i) else m &&& ~~~(1#64 <<< i)

/-- A vector comparison (R346). -/
def cmpOut (s : State) (c : VCmp) (et : EType) (md : BitVec 2) (vs2 vs1 : BitVec 4) (var : BitVec 3) (pm : Bool) : Out :=
  let t := s.me
  let src := if et.isInt then s.intSrc et vs1 var else .vec vs1
  if t.bound vs2 || (src.field.map t.bound).getD false then operandError s
  else
    let w := et.bits
    let x := fun j => match src with | .vec n => elem (t.rv n) w j | .scalar v => v
    let test := fun j => if et.isInt then cmpInt c (var.getLsbD 1) w (elem (t.rv vs2) w j) (x j)
      else cmpFloat c et.fmt (elem (t.rv vs2) w j) (x j)
    .next (s.setMe (t.wm md ((t.actives et.count pm).foldl (fun m j => setBit m j (test j)) (t.rm md)))).retire

/-- VCMPEQ (R346). -/
def execVcmpeq (et : EType) (md : BitVec 2) (vs2 vs1 : BitVec 4) (var : BitVec 3) (pm : Bool) (s : State) : Out :=
  cmpOut s .eq et md vs2 vs1 var pm

/-- VCMPNE (R346). -/
def execVcmpne (et : EType) (md : BitVec 2) (vs2 vs1 : BitVec 4) (var : BitVec 3) (pm : Bool) (s : State) : Out :=
  cmpOut s .ne et md vs2 vs1 var pm

/-- VCMPLT (R346). -/
def execVcmplt (et : EType) (md : BitVec 2) (vs2 vs1 : BitVec 4) (var : BitVec 3) (pm : Bool) (s : State) : Out :=
  cmpOut s .lt et md vs2 vs1 var pm

/-- VCMPLE (R346). -/
def execVcmple (et : EType) (md : BitVec 2) (vs2 vs1 : BitVec 4) (var : BitVec 3) (pm : Bool) (s : State) : Out :=
  cmpOut s .le et md vs2 vs1 var pm

/-- VSEL (R347). -/
def execVsel (et : EType) (vd vs2 vs1 : BitVec 4) (s : State) : Out :=
  let t := s.me
  if t.bound vd || t.bound vs2 || t.bound vs1 then operandError s
  else
    let w := et.bits
    let is := t.actives et.count false
    .next (s.setMe (t.wElems w vd is (is.map fun i => if (t.rm 0).getLsbD i then elem (t.rv vs2) w i else elem (t.rv vs1) w i))).retire

/-- A mask result (R348). -/
def maskOut (s : State) (md : BitVec 2) (v : Word) : Out := .next (s.setMe (s.me.wm md v)).retire

/-- VMASK.AND (R348). -/
def execVmaskAnd (md ma mb : BitVec 2) (s : State) : Out := maskOut s md (s.me.rm ma &&& s.me.rm mb)
/-- VMASK.OR (R348). -/
def execVmaskOr (md ma mb : BitVec 2) (s : State) : Out := maskOut s md (s.me.rm ma ||| s.me.rm mb)
/-- VMASK.XOR (R348). -/
def execVmaskXor (md ma mb : BitVec 2) (s : State) : Out := maskOut s md (s.me.rm ma ^^^ s.me.rm mb)
/-- VMASK.ANDN (R348). -/
def execVmaskAndn (md ma mb : BitVec 2) (s : State) : Out := maskOut s md (s.me.rm ma &&& ~~~(s.me.rm mb))
/-- VMASK.NOT (R348). -/
def execVmaskNot (md ma : BitVec 2) (s : State) : Out := maskOut s md (~~~(s.me.rm ma))
/-- VMASK.FROMX (R348). -/
def execVmaskFromx (md : BitVec 2) (xs : BitVec 4) (s : State) : Out := maskOut s md (s.rx (lowReg xs))
/-- VMASK.TOX (R348). -/
def execVmaskTox (xd : BitVec 4) (ma : BitVec 2) (s : State) : Out := writeReg s (lowReg xd) (s.me.rm ma)
/-- VMASK.FIRST (R348). -/
def execVmaskFirst (md : BitVec 2) (xs : BitVec 4) (s : State) : Out :=
  maskOut s md (BitVec.ofNat 64 (2 ^ min (s.rx (lowReg xs)).toNat 64 - 1))

/-! ### Reductions (R264, R349, R350) -/

/-- One level of the pairwise tree. -/
def pairUp (f : Nat → Nat → Nat) : List Nat → List Nat
  | a :: b :: t => f a b :: pairUp f t
  | l => l

/-- The pairwise tree over a beat's lanes, `n` levels (R264). -/
def tree (f : Nat → Nat → Nat) : Nat → List Nat → List Nat
  | 0, l => l
  | n + 1, l => tree f n (pairUp f l)

/-- The beats of a reduction: per beat, each lane's element, or none where the lane is inactive. -/
def reduceThen (s : State) (et : EType) (vd vs2 : BitVec 4) (pm : Bool) (nat : Option Bool)
    (k : List (List (Option Nat)) → List (BitVec 4) → State → Out) : Out :=
  let t := s.me
  let c := et.count
  let w := et.bits
  if t.bound vd then operandError s
  else if !t.bound vs2 then
    k [(List.range c).map fun j => if t.active c pm j then some (elem (t.rv vs2) w j) else none] [] s
  else if !t.streamsOk et nat [vs2] none then operandError s
  else
    let n := (t.rowLen [vs2]).getD 0
    rowsThen s (t.srcRows [vs2]) fun rows s =>
      let a := rowElems w (rows.head?.getD [])
      k ((beatsOf n c).map fun b => (List.range c).map fun j =>
        if b * c + j < n && (!pm || (s.me.rm 0).getLsbD j) then some (at0 a (b * c + j)) else none) [vs2] s

/-- Sum of one beat (R264, R349). -/
def beatSum (et : EType) (mode : Mode) (l : List (Option Nat)) : Nat :=
  if et.isInt then (l.foldl (fun acc x => acc + x.getD 0) 0) % 2 ^ et.bits
  else
    let f := et.fmt
    ((tree (fun a b => roundF f mode (addV mode (decodeF f a) (decodeF f b))) 6
      (l.map fun x => x.getD (negZero f))).head?).getD (negZero f)

/-- Sums of beats, added in order (R264). -/
def sumBeats (et : EType) (mode : Mode) : List (List (Option Nat)) → Nat
  | [] => if et.isInt then 0 else negZero et.fmt
  | b :: t => t.foldl (fun acc x =>
      if et.isInt then (acc + beatSum et mode x) % 2 ^ et.bits
      else roundF et.fmt mode (addV mode (decodeF et.fmt acc) (decodeF et.fmt (beatSum et mode x)))) (beatSum et mode b)

/-- VREDSUM (R264, R349). -/
def execVredsum (et : EType) (vd vs2 : BitVec 4) (var : BitVec 3) (pm : Bool) (s : State) : Out :=
  reduceThen s et vd vs2 pm none fun beats fs s =>
    let v := sumBeats et (s.me.mode var) beats
    streamEnd s fs vd beats.length (fun _ => []) (some (pack et.bits ((elems (s.me.rv vd) et.bits).set 0 v))) id

/-- The largest of the active elements (R264, R349). -/
def maxOf (et : EType) (nat : Bool) (l : List Nat) : Nat :=
  match l with
  | [] => if et.isInt then (if nat then 0 else 2 ^ (et.bits - 1)) else signed et.fmt true (infBits et.fmt)
  | x :: t => t.foldl (fun a b =>
      if et.isInt then (if intLt nat et.bits a b then b else a) else maxF et.fmt a b)
      (if et.isInt || !isNaN et.fmt x then x else et.fmt.nan.getD 0)

/-- VREDMAX (R264, R349). -/
def execVredmax (et : EType) (vd vs2 : BitVec 4) (var : BitVec 3) (pm : Bool) (s : State) : Out :=
  reduceThen s et vd vs2 pm (if et.isInt then some (var.getLsbD 1) else none) fun beats fs s =>
    let v := maxOf et (var.getLsbD 1) (beats.flatten.filterMap id)
    streamEnd s fs vd beats.length (fun _ => []) (some (pack et.bits ((elems (s.me.rv vd) et.bits).set 0 v))) id

/-- Whether an element is strictly above the best so far: the first NaN wins (R264, R350). -/
def above (et : EType) (nat : Bool) (best x : Nat) : Bool :=
  if et.isInt then intLt nat et.bits best x
  else if isNaN et.fmt best then false
  else if isNaN et.fmt x then true
  else floatLt et.fmt best x

/-- The index of the maximum; all ones if no element is active (R350). -/
def argMax (et : EType) (nat : Bool) (l : List (Option Nat)) : Nat :=
  match (l.zipIdx.foldl (fun (acc : Option (Nat × Nat)) e =>
    match e.1, acc with
    | none, _ => acc
    | some x, none => some (x, e.2)
    | some x, some b => if above et nat b.1 x then some (x, e.2) else acc) none) with
  | some b => b.2
  | none => 0xFFFFFFFF

/-- VARGMAX (R264, R350). -/
def execVargmax (et : EType) (vd vs2 : BitVec 4) (var : BitVec 3) (pm : Bool) (s : State) : Out :=
  reduceThen s et vd vs2 pm (if et.isInt then some (var.getLsbD 1) else none) fun beats fs s =>
    let v := argMax et (var.getLsbD 1) beats.flatten
    streamEnd s fs vd beats.length (fun _ => []) (some (pack 32 ((elems (s.me.rv vd) 32).set 0 v))) id

/-! ### Conversions (R351, R352) -/

/-- Whether a 4-bit type code is an integer type. -/
def codeInt (c : Nat) : Bool := c ≤ 2 || (8 ≤ c && c ≤ 10)
/-- The format of a floating type code. -/
def codeFmt (c : Nat) : Fmt :=
  match c with
  | 3 => f32
  | 4 => bf16
  | 5 => f16
  | 6 => e4m3
  | 7 => e5m2
  | _ => e2m1

/-- The exact value of an element of a type code. -/
def codeVal (c x : Nat) : FVal :=
  if codeInt c then intV (ival (8 ≤ c) (typeBits c) x) else decodeF (codeFmt c) x

/-- An exact value in a destination type: rounded, then saturated for integers (R255, R351). -/
def toCode (c : Nat) (mode : Mode) (v : FVal) : Nat :=
  if codeInt c then
    let w := typeBits c
    let lo : Int := if 8 ≤ c then 0 else -((2 ^ (w - 1) : Nat) : Int)
    let hi : Int := if 8 ≤ c then ((2 ^ w - 1 : Nat) : Int) else ((2 ^ (w - 1) - 1 : Nat) : Int)
    wrapN w (toIntV mode lo hi v)
  else roundF (codeFmt c) mode v

/-- The mode of VCVT at element e of beat b (R254, R256). -/
def State.cvtMode (s : State) (rm : BitVec 3) (b e : Nat) : Mode :=
  modeOf (s.me.rmCode rm) ((s.draw b e).toNat % 2 ^ 32)

/-- A retired VCVT with SR counts towards dn (R265). -/
def cvtFin (rm : BitVec 3) (s : State) : State := if s.me.rmCode rm = 4 then s.countDraw else s

/-- VCVT between registers (R351). -/
def cvtReg (s : State) (et : EType) (src : Nat) (vd vs2 : BitVec 4) (rm : BitVec 3) (pm : Bool) : Out :=
  let t := s.me
  if src = 11 then operandError s
  else
    let ws := typeBits src
    let wd := et.bits
    let c := 512 / max ws wd
    let is := t.actives c pm
    let vals := is.map fun i => toCode et.code.toNat (s.cvtMode rm 0 i) (codeVal src (elem (t.rv vs2) ws i))
    .next (cvtFin rm (s.setMe (t.wElems wd vd is vals))).retire

/-- Exact values of a row of a stream, or of a register taken again in every beat. -/
def rowVals (t : Thread) (src : Nat) (vs2 : BitVec 4) (n c : Nat) (rows : List (List Byte)) : List FVal :=
  if t.bound vs2 then
    let data := rows.head?.getD []
    if src = 11 then
      let sc := rows.tail.head?.getD []
      (List.range n).map fun k =>
        mxVal (((sc[k / 32]?).map (·.toNat)).getD 0) ((((data[k / 2]?).map (·.toNat)).getD 0) / 16 ^ (k % 2) % 16)
    else (rowElems (typeBits src) data).map (codeVal src)
  else (List.range n).map fun k => codeVal src (elem (t.rv vs2) (typeBits src) (k % c))

/-- The stores of one block of 32 elements of an MXFP4 row: 16 data bytes and the scale byte (R257, R337, R352). -/
def Stream.mxStores (x : Stream) (blk : Nat) (mode : Nat → Mode) (vals : List FVal) : List (Nat × List Byte) :=
  let l := (vals.drop (32 * blk)).take 32
  let sc := mxScale l
  let e := l.zipIdx.map fun v => mxElem sc (mode (32 * blk + v.2)) v.1
  let row := ((x.base : Int) + (x.row : Int) * x.stride).toNat
  [(row + 16 * blk, bytesOf 16 (packNat 4 e)), (x.scale + x.row * (x.nelem / 32) + blk, bytesOf 1 sc)]

/-- VCVT with a stream operand (R339, R352). -/
def cvtStream (s : State) (et : EType) (src : Nat) (vd vs2 : BitVec 4) (rm : BitVec 3) (pm : Bool) : Out :=
  let t := s.me
  let xs := t.streamOf vs2
  let xd := t.streamOf vd
  let dst := (xd.map (·.typ)).getD et.code.toNat
  let mx := src == 11 || dst == 11
  let ok := vs2 != vd && (xs.map fun x => x.readable && x.typ == src).getD true &&
    (xd.map fun x => x.writable && x.typ % 8 == et.code.toNat).getD true &&
    (match xs, xd with | some a, some b => a.nelem == b.nelem | _, _ => !mx) && (!mx || !pm)
  if !ok then operandError s
  else
    let fs := [vs2, vd].filter t.bound
    let n := (t.rowLen fs).getD 0
    let c := if src = 11 then 512 / typeBits dst else if dst = 11 then 512 / typeBits src
      else 512 / max (typeBits src) (typeBits dst)
    rowsThen s (t.srcRows [vs2]) fun rows s =>
      let t := s.me
      let vals := rowVals t src vs2 n c rows
      let mode := fun k => s.cvtMode rm (k / c) (k % c)
      let out := fun k => toCode dst (mode k) ((vals[k]?).getD .nan)
      let act := fun j => !pm || (t.rm 0).getLsbD j
      match t.streamOf vd with
      | some o =>
        if !s.writeRowOk o then raiseOut s 2 .store (BitVec.ofNat 64 o.base)
        else if dst = 11 then
          streamEnd s fs vd (ceilDiv n c) (fun b =>
            ((List.range (n / 32)).filter fun k => (32 * k + 31) / c == b).flatMap fun k => o.mxStores k mode vals) none (cvtFin rm)
        else
          streamEnd s fs vd (ceilDiv n c)
            (fun b => o.beatStores (typeBits dst) c b act fun j => out (b * c + j)) none (cvtFin rm)
      | none =>
        let wd := et.bits
        let d := (beatsOf n c).foldl (fun d b =>
          d.zipIdx.map fun e => if e.2 < c && b * c + e.2 < n && act e.2 then out (b * c + e.2) else e.1) (elems (t.rv vd) wd)
        streamEnd s fs vd (ceilDiv n c) (fun _ => []) (some (pack wd d)) (cvtFin rm)

/-- VCVT (R351, R352). -/
def execVcvt (et : EType) (src vd vs2 : BitVec 4) (rm : BitVec 3) (pm : Bool) (s : State) : Out :=
  if s.me.bound vs2 || s.me.bound vd then cvtStream s et src.toNat vd vs2 rm pm
  else cvtReg s et src.toNat vd vs2 rm pm

/-! ### Random numbers (R353) -/

/-- Fills vd, or a write stream, with 32-bit draws: element e of beat b is `f b e`. -/
def randOut (s : State) (vd : BitVec 4) (pm : Bool) (f : Nat → Nat → Nat) : Out :=
  let t := s.me
  match t.streamOf vd with
  | none =>
    let is := t.actives 16 pm
    .next ((s.setMe (t.wElems 32 vd is (is.map (f 0)))).countDraw).retire
  | some o =>
    if !t.streamsOk .i32 none [] (some vd) then operandError s
    else if !s.writeRowOk o then raiseOut s 2 .store (BitVec.ofNat 64 o.base)
    else
      streamEnd s [vd] vd (ceilDiv o.nelem 16)
        (fun b => o.beatStores 32 16 b (fun j => !pm || (t.rm 0).getLsbD j) (f b)) none State.countDraw

/-- VRAND, hash form (R353). -/
def execVrand (vd : BitVec 4) (pm : Bool) (s : State) : Out :=
  randOut s vd pm fun b e => (s.draw b e).toNat % 2 ^ 32

/-- VRAND, lattice form (R266, R353). -/
def execVrandLat (vd xs : BitVec 4) (pm : Bool) (s : State) : Out :=
  let x := (s.rx (lowReg xs)).toNat
  let a := (s.rx (lowReg (xs + 1))).toNat
  let q := bitsN x 37 32
  if bitsN x 39 38 ≠ 0 || bitsN x 47 43 ≠ 0 || bitsN x 63 49 ≠ 0 || 32 < q || 2 ^ q ≤ a then operandError s
  else
    randOut s vd pm fun b e =>
      lattice (s.tile s.site).srseed ((x % 2 ^ 32 + 16 * b + e) % 2 ^ 32) q (bitsN x 42 40) a (bitsN x 48 48 == 1)

/-! ### Moves and permutes (R354, R355) -/

/-- VMVX into a vector element (R354). -/
def execVmvx (et : EType) (vd xs xi : BitVec 4) (s : State) : Out :=
  if s.me.bound vd then operandError s
  else
    let k := (s.rx (lowReg xi)).toNat % et.count
    .next (s.setMe (s.me.wElems et.bits vd [k] [(s.rx (lowReg xs)).toNat % 2 ^ et.bits])).retire

/-- VMVX.GET (R354). -/
def execVmvxGet (et : EType) (nat : Bool) (xd vs2 xi : BitVec 4) (s : State) : Out :=
  if s.me.bound vs2 then operandError s
  else
    let k := (s.rx (lowReg xi)).toNat % et.count
    let v := elem (s.me.rv vs2) et.bits k
    writeReg s (lowReg xd) (if nat then zext et.bits v else sext et.bits v)

/-- A permute: each active element of vd gets `f i`, or stays (R355). -/
def permOut (s : State) (et : EType) (vd : BitVec 4) (srcs : List (BitVec 4)) (pm : Bool) (f : Nat → Option Nat) : Out :=
  if (vd :: srcs).any s.me.bound then operandError s
  else
    let is := (s.me.actives et.count pm).filter fun i => (f i).isSome
    .next (s.setMe (s.me.wElems et.bits vd is (is.map fun i => (f i).getD 0))).retire

/-- VPERM (R355). -/
def execVperm (et : EType) (vd vs2 vs1 : BitVec 4) (pm : Bool) (s : State) : Out :=
  permOut s et vd [vs2, vs1] pm fun i =>
    some (elem (s.me.rv vs2) et.bits (elem (s.me.rv vs1) et.bits i % et.count))

/-- VSLIDEUP (R355). -/
def execVslideup (et : EType) (vd vs2 xs : BitVec 4) (pm : Bool) (s : State) : Out :=
  let k := (s.rx (lowReg xs)).toNat
  permOut s et vd [vs2] pm fun i => if k ≤ i then some (elem (s.me.rv vs2) et.bits (i - k)) else none

/-- VSLIDEDN (R355). -/
def execVslidedn (et : EType) (vd vs2 xs : BitVec 4) (pm : Bool) (s : State) : Out :=
  let k := (s.rx (lowReg xs)).toNat
  permOut s et vd [vs2] pm fun i => some (if i + k < et.count then elem (s.me.rv vs2) et.bits (i + k) else 0)

/-- VZIP (R355). -/
def execVzip (et : EType) (vd vs2 vs1 : BitVec 4) (pm : Bool) (s : State) : Out :=
  permOut s et vd [vs2, vs1] pm fun i =>
    some (if i % 2 = 0 then elem (s.me.rv vs2) et.bits (i / 2) else elem (s.me.rv vs1) et.bits (i / 2))

/-- VUNZIP (R355). -/
def execVunzip (et : EType) (odd : Bool) (vd vs2 vs1 : BitVec 4) (pm : Bool) (s : State) : Out :=
  let h := et.count / 2
  let o := if odd then 1 else 0
  permOut s et vd [vs2, vs1] pm fun i =>
    some (if i < h then elem (s.me.rv vs2) et.bits (2 * i + o) else elem (s.me.rv vs1) et.bits (2 * (i - h) + o))

/-- VBCAST (R355). -/
def execVbcast (et : EType) (vd xs : BitVec 4) (pm : Bool) (s : State) : Out :=
  permOut s et vd [] pm fun _ => some ((s.rx (lowReg xs)).toNat % 2 ^ et.bits)

end Sys2Proof.Machine
end

