-- ==== Sys2Proof/Machine/Dispatch.lean ====
section
/-!
DEFINITION. The one match from an instruction, or a step of the part, to its meaning.
-/

namespace Sys2Proof.Machine

/-- The meaning of every instruction and of every step of the part. -/
def exec (i : Instr) (s : State) : Host.Outcome State Fault Refusal :=
  match i with
  | .lb rd rs1 imm => Sys2Proof.Machine.execLb rd rs1 imm s
  | .lh rd rs1 imm => Sys2Proof.Machine.execLh rd rs1 imm s
  | .lw rd rs1 imm => Sys2Proof.Machine.execLw rd rs1 imm s
  | .ld rd rs1 imm => Sys2Proof.Machine.execLd rd rs1 imm s
  | .lbu rd rs1 imm => Sys2Proof.Machine.execLbu rd rs1 imm s
  | .lhu rd rs1 imm => Sys2Proof.Machine.execLhu rd rs1 imm s
  | .lwu rd rs1 imm => Sys2Proof.Machine.execLwu rd rs1 imm s
  | .sb rs2 rs1 imm => Sys2Proof.Machine.execSb rs2 rs1 imm s
  | .sh rs2 rs1 imm => Sys2Proof.Machine.execSh rs2 rs1 imm s
  | .sw rs2 rs1 imm => Sys2Proof.Machine.execSw rs2 rs1 imm s
  | .sd rs2 rs1 imm => Sys2Proof.Machine.execSd rs2 rs1 imm s
  | .addi rd rs1 imm => Sys2Proof.Machine.execAddi rd rs1 imm s
  | .slti rd rs1 imm => Sys2Proof.Machine.execSlti rd rs1 imm s
  | .sltiu rd rs1 imm => Sys2Proof.Machine.execSltiu rd rs1 imm s
  | .xori rd rs1 imm => Sys2Proof.Machine.execXori rd rs1 imm s
  | .ori rd rs1 imm => Sys2Proof.Machine.execOri rd rs1 imm s
  | .andi rd rs1 imm => Sys2Proof.Machine.execAndi rd rs1 imm s
  | .slli rd rs1 sh => Sys2Proof.Machine.execSlli rd rs1 sh s
  | .srli rd rs1 sh => Sys2Proof.Machine.execSrli rd rs1 sh s
  | .srai rd rs1 sh => Sys2Proof.Machine.execSrai rd rs1 sh s
  | .addiw rd rs1 imm => Sys2Proof.Machine.execAddiw rd rs1 imm s
  | .slliw rd rs1 sh => Sys2Proof.Machine.execSlliw rd rs1 sh s
  | .srliw rd rs1 sh => Sys2Proof.Machine.execSrliw rd rs1 sh s
  | .sraiw rd rs1 sh => Sys2Proof.Machine.execSraiw rd rs1 sh s
  | .add rd rs1 rs2 => Sys2Proof.Machine.execAdd rd rs1 rs2 s
  | .sub rd rs1 rs2 => Sys2Proof.Machine.execSub rd rs1 rs2 s
  | .sll rd rs1 rs2 => Sys2Proof.Machine.execSll rd rs1 rs2 s
  | .slt rd rs1 rs2 => Sys2Proof.Machine.execSlt rd rs1 rs2 s
  | .sltu rd rs1 rs2 => Sys2Proof.Machine.execSltu rd rs1 rs2 s
  | .xor rd rs1 rs2 => Sys2Proof.Machine.execXor rd rs1 rs2 s
  | .srl rd rs1 rs2 => Sys2Proof.Machine.execSrl rd rs1 rs2 s
  | .sra rd rs1 rs2 => Sys2Proof.Machine.execSra rd rs1 rs2 s
  | .or rd rs1 rs2 => Sys2Proof.Machine.execOr rd rs1 rs2 s
  | .and rd rs1 rs2 => Sys2Proof.Machine.execAnd rd rs1 rs2 s
  | .mul rd rs1 rs2 => Sys2Proof.Machine.execMul rd rs1 rs2 s
  | .mulh rd rs1 rs2 => Sys2Proof.Machine.execMulh rd rs1 rs2 s
  | .mulhsu rd rs1 rs2 => Sys2Proof.Machine.execMulhsu rd rs1 rs2 s
  | .mulhu rd rs1 rs2 => Sys2Proof.Machine.execMulhu rd rs1 rs2 s
  | .div rd rs1 rs2 => Sys2Proof.Machine.execDiv rd rs1 rs2 s
  | .divu rd rs1 rs2 => Sys2Proof.Machine.execDivu rd rs1 rs2 s
  | .rem rd rs1 rs2 => Sys2Proof.Machine.execRem rd rs1 rs2 s
  | .remu rd rs1 rs2 => Sys2Proof.Machine.execRemu rd rs1 rs2 s
  | .addw rd rs1 rs2 => Sys2Proof.Machine.execAddw rd rs1 rs2 s
  | .subw rd rs1 rs2 => Sys2Proof.Machine.execSubw rd rs1 rs2 s
  | .sllw rd rs1 rs2 => Sys2Proof.Machine.execSllw rd rs1 rs2 s
  | .srlw rd rs1 rs2 => Sys2Proof.Machine.execSrlw rd rs1 rs2 s
  | .sraw rd rs1 rs2 => Sys2Proof.Machine.execSraw rd rs1 rs2 s
  | .mulw rd rs1 rs2 => Sys2Proof.Machine.execMulw rd rs1 rs2 s
  | .divw rd rs1 rs2 => Sys2Proof.Machine.execDivw rd rs1 rs2 s
  | .divuw rd rs1 rs2 => Sys2Proof.Machine.execDivuw rd rs1 rs2 s
  | .remw rd rs1 rs2 => Sys2Proof.Machine.execRemw rd rs1 rs2 s
  | .remuw rd rs1 rs2 => Sys2Proof.Machine.execRemuw rd rs1 rs2 s
  | .lui rd imm => Sys2Proof.Machine.execLui rd imm s
  | .auipc rd imm => Sys2Proof.Machine.execAuipc rd imm s
  | .jal rd off => Sys2Proof.Machine.execJal rd off s
  | .jalr rd rs1 imm => Sys2Proof.Machine.execJalr rd rs1 imm s
  | .beq rs1 rs2 off => Sys2Proof.Machine.execBeq rs1 rs2 off s
  | .bne rs1 rs2 off => Sys2Proof.Machine.execBne rs1 rs2 off s
  | .blt rs1 rs2 off => Sys2Proof.Machine.execBlt rs1 rs2 off s
  | .bge rs1 rs2 off => Sys2Proof.Machine.execBge rs1 rs2 off s
  | .bltu rs1 rs2 off => Sys2Proof.Machine.execBltu rs1 rs2 off s
  | .bgeu rs1 rs2 off => Sys2Proof.Machine.execBgeu rs1 rs2 off s
  | .ecall => Sys2Proof.Machine.execEcall s
  | .ebreak => Sys2Proof.Machine.execEbreak s
  | .mret => Sys2Proof.Machine.execMret s
  | .csrrw rd csr rs1 => Sys2Proof.Machine.execCsrrw rd csr rs1 s
  | .csrrs rd csr rs1 => Sys2Proof.Machine.execCsrrs rd csr rs1 s
  | .csrrc rd csr rs1 => Sys2Proof.Machine.execCsrrc rd csr rs1 s
  | .csrrwi rd csr z => Sys2Proof.Machine.execCsrrwi rd csr z s
  | .csrrsi rd csr z => Sys2Proof.Machine.execCsrrsi rd csr z s
  | .csrrci rd csr z => Sys2Proof.Machine.execCsrrci rd csr z s
  | .min rd rs1 rs2 => Sys2Proof.Machine.execMin rd rs1 rs2 s
  | .max rd rs1 rs2 => Sys2Proof.Machine.execMax rd rs1 rs2 s
  | .minu rd rs1 rs2 => Sys2Proof.Machine.execMinu rd rs1 rs2 s
  | .maxu rd rs1 rs2 => Sys2Proof.Machine.execMaxu rd rs1 rs2 s
  | .clz rd rs1 => Sys2Proof.Machine.execClz rd rs1 s
  | .ctz rd rs1 => Sys2Proof.Machine.execCtz rd rs1 s
  | .cpop rd rs1 => Sys2Proof.Machine.execCpop rd rs1 s
  | .bfx rd rs1 off width => Sys2Proof.Machine.execBfx rd rs1 off width s
  | .bfxu rd rs1 off width => Sys2Proof.Machine.execBfxu rd rs1 off width s
  | .bfi rd rs1 off width => Sys2Proof.Machine.execBfi rd rs1 off width s
  | .loop rs1 last => Sys2Proof.Machine.execLoop rs1 last s
  | .loopi count last => Sys2Proof.Machine.execLoopi count last s
  | .send rs1 => Sys2Proof.Machine.execSend rs1 s
  | .sendG rs1 => Sys2Proof.Machine.execSendG rs1 s
  | .sendS rs1 => Sys2Proof.Machine.execSendS rs1 s
  | .sendGs rs1 => Sys2Proof.Machine.execSendGs rs1 s
  | .sendc rs1 rs2 => Sys2Proof.Machine.execSendc rs1 rs2 s
  | .commit => Sys2Proof.Machine.execCommit s
  | .abort => Sys2Proof.Machine.execAbort s
  | .spawn rd rs1 rs2 => Sys2Proof.Machine.execSpawn rd rs1 rs2 s
  | .joindec rd rs1 => Sys2Proof.Machine.execJoindec rd rs1 s
  | .launch rs1 => Sys2Proof.Machine.execLaunch rs1 s
  | .done => Sys2Proof.Machine.execDone s
  | .sync order scope => Sys2Proof.Machine.execSync order scope s
  | .bar rs1 => Sys2Proof.Machine.execBar rs1 s
  | .waitgen rd rs2 rs1 => Sys2Proof.Machine.execWaitgen rd rs2 rs1 s
  | .handover rs1 cap => Sys2Proof.Machine.execHandover rs1 cap s
  | .captest rd cap => Sys2Proof.Machine.execCaptest rd cap s
  | .captestId rd cap => Sys2Proof.Machine.execCaptestId rd cap s
  | .capdrop cap => Sys2Proof.Machine.execCapdrop cap s
  | .tlbinv rs1 rs2 => Sys2Proof.Machine.execTlbinv rs1 rs2 s
  | .chkpt rd rs1 => Sys2Proof.Machine.execChkpt rd rs1 s
  | .selfreportScan rs1 rs2 => Sys2Proof.Machine.execSelfreportScan rs1 rs2 s
  | .selfreportFail rs1 rs2 => Sys2Proof.Machine.execSelfreportFail rs1 rs2 s
  | .selfreportEvent rs1 rs2 => Sys2Proof.Machine.execSelfreportEvent rs1 rs2 s
  | .amoadd order scope dbl rd rs2 rs1 => Sys2Proof.Machine.execAmoadd order scope dbl rd rs2 rs1 s
  | .amoand order scope dbl rd rs2 rs1 => Sys2Proof.Machine.execAmoand order scope dbl rd rs2 rs1 s
  | .amoor order scope dbl rd rs2 rs1 => Sys2Proof.Machine.execAmoor order scope dbl rd rs2 rs1 s
  | .amoxor order scope dbl rd rs2 rs1 => Sys2Proof.Machine.execAmoxor order scope dbl rd rs2 rs1 s
  | .amomin order scope dbl rd rs2 rs1 => Sys2Proof.Machine.execAmomin order scope dbl rd rs2 rs1 s
  | .amomax order scope dbl rd rs2 rs1 => Sys2Proof.Machine.execAmomax order scope dbl rd rs2 rs1 s
  | .amominu order scope dbl rd rs2 rs1 => Sys2Proof.Machine.execAmominu order scope dbl rd rs2 rs1 s
  | .amomaxu order scope dbl rd rs2 rs1 => Sys2Proof.Machine.execAmomaxu order scope dbl rd rs2 rs1 s
  | .amoswap order scope dbl rd rs2 rs1 => Sys2Proof.Machine.execAmoswap order scope dbl rd rs2 rs1 s
  | .amocas order scope dbl rd rs2 rs1 => Sys2Proof.Machine.execAmocas order scope dbl rd rs2 rs1 s
  | .amofadd order scope dbl rd rs2 rs1 => Sys2Proof.Machine.execAmofadd order scope dbl rd rs2 rs1 s
  | .ldf rd rs1 => Sys2Proof.Machine.execLdf rd rs1 s
  | .ldfe rd rs1 => Sys2Proof.Machine.execLdfe rd rs1 s
  | .stf rs2 rs1 => Sys2Proof.Machine.execStf rs2 rs1 s
  | .eqpush rs2 rs1 => Sys2Proof.Machine.execEqpush rs2 rs1 s
  | .eqfire rs1 => Sys2Proof.Machine.execEqfire rs1 s
  | .eqdone rs1 rs2 => Sys2Proof.Machine.execEqdone rs1 rs2 s
  | .eqstat rd rs1 => Sys2Proof.Machine.execEqstat rd rs1 s
  | .rdblk rd rs1 => Sys2Proof.Machine.execRdblk rd rs1 s
  | .wrblk rd rs1 => Sys2Proof.Machine.execWrblk rd rs1 s
  | .wrblkDep rd rs1 => Sys2Proof.Machine.execWrblkDep rd rs1 s
  | .copy rd rs1 => Sys2Proof.Machine.execCopy rd rs1 s
  | .cpwait rd rs1 => Sys2Proof.Machine.execCpwait rd rs1 s
  | .mma store decay zero rd acc rs1 rs2 => Sys2Proof.Machine.execMma store decay zero rd acc rs1 rs2 s
  | .fmma store decay zero rd acc rs1 rs2 => Sys2Proof.Machine.execFmma store decay zero rd acc rs1 rs2 s
  | .mcmd store decay zero cap acc rs1 rs2 => Sys2Proof.Machine.execMcmd store decay zero cap acc rs1 rs2 s
  | .accrd rd acc rs1 rs2 => Sys2Proof.Machine.execAccrd rd acc rs1 rs2 s
  | .accwr rd acc rs1 rs2 => Sys2Proof.Machine.execAccwr rd acc rs1 rs2 s
  | .acczero rd acc => Sys2Proof.Machine.execAcczero rd acc s
  | .accspill zero rd acc rs1 => Sys2Proof.Machine.execAccspill zero rd acc rs1 s
  | .accfill rd acc rs1 => Sys2Proof.Machine.execAccfill rd acc rs1 s
  | .mwait rd rs1 => Sys2Proof.Machine.execMwait rd rs1 s
  | .vld et vd xs pm => Sys2Proof.Machine.execVld et vd xs pm s
  | .vst et vd xs pm => Sys2Proof.Machine.execVst et vd xs pm s
  | .vlds et vd xs xt pm => Sys2Proof.Machine.execVlds et vd xs xt pm s
  | .vsts et vd xs xt pm => Sys2Proof.Machine.execVsts et vd xs xt pm s
  | .vgath et vd xs vi pm => Sys2Proof.Machine.execVgath et vd xs vi pm s
  | .vscat et vd xs vi pm => Sys2Proof.Machine.execVscat et vd xs vi pm s
  | .strcfg st xs => Sys2Proof.Machine.execStrcfg st xs s
  | .strend st => Sys2Proof.Machine.execStrend st s
  | .vadd et vd vs2 vs1 var pm => Sys2Proof.Machine.execVadd et vd vs2 vs1 var pm s
  | .vsub et vd vs2 vs1 var pm => Sys2Proof.Machine.execVsub et vd vs2 vs1 var pm s
  | .vmul et vd vs2 vs1 var pm => Sys2Proof.Machine.execVmul et vd vs2 vs1 var pm s
  | .vmulh et vd vs2 vs1 var pm => Sys2Proof.Machine.execVmulh et vd vs2 vs1 var pm s
  | .vaddsat et vd vs2 vs1 var pm => Sys2Proof.Machine.execVaddsat et vd vs2 vs1 var pm s
  | .vsubsat et vd vs2 vs1 var pm => Sys2Proof.Machine.execVsubsat et vd vs2 vs1 var pm s
  | .vmin et vd vs2 vs1 var pm => Sys2Proof.Machine.execVmin et vd vs2 vs1 var pm s
  | .vmax et vd vs2 vs1 var pm => Sys2Proof.Machine.execVmax et vd vs2 vs1 var pm s
  | .vand et vd vs2 vs1 var pm => Sys2Proof.Machine.execVand et vd vs2 vs1 var pm s
  | .vor et vd vs2 vs1 var pm => Sys2Proof.Machine.execVor et vd vs2 vs1 var pm s
  | .vxor et vd vs2 vs1 var pm => Sys2Proof.Machine.execVxor et vd vs2 vs1 var pm s
  | .vsll et vd vs2 vs1 var pm => Sys2Proof.Machine.execVsll et vd vs2 vs1 var pm s
  | .vsrl et vd vs2 vs1 var pm => Sys2Proof.Machine.execVsrl et vd vs2 vs1 var pm s
  | .vsra et vd vs2 vs1 var pm => Sys2Proof.Machine.execVsra et vd vs2 vs1 var pm s
  | .vfadd et vd vs2 vs1 rm pm => Sys2Proof.Machine.execVfadd et vd vs2 vs1 rm pm s
  | .vfsub et vd vs2 vs1 rm pm => Sys2Proof.Machine.execVfsub et vd vs2 vs1 rm pm s
  | .vfmul et vd vs2 vs1 rm pm => Sys2Proof.Machine.execVfmul et vd vs2 vs1 rm pm s
  | .vfma et vd vs2 vs1 rm pm => Sys2Proof.Machine.execVfma et vd vs2 vs1 rm pm s
  | .vfnma et vd vs2 vs1 rm pm => Sys2Proof.Machine.execVfnma et vd vs2 vs1 rm pm s
  | .vminn et vd vs2 vs1 pm => Sys2Proof.Machine.execVminn et vd vs2 vs1 pm s
  | .vmaxn et vd vs2 vs1 pm => Sys2Proof.Machine.execVmaxn et vd vs2 vs1 pm s
  | .vexp2 et vd vs2 pm => Sys2Proof.Machine.execVexp2 et vd vs2 pm s
  | .vlog2 et vd vs2 pm => Sys2Proof.Machine.execVlog2 et vd vs2 pm s
  | .vrcp et vd vs2 pm => Sys2Proof.Machine.execVrcp et vd vs2 pm s
  | .vrsqrt et vd vs2 pm => Sys2Proof.Machine.execVrsqrt et vd vs2 pm s
  | .vtanh et vd vs2 pm => Sys2Proof.Machine.execVtanh et vd vs2 pm s
  | .vfabs et vd vs2 pm => Sys2Proof.Machine.execVfabs et vd vs2 pm s
  | .vfneg et vd vs2 pm => Sys2Proof.Machine.execVfneg et vd vs2 pm s
  | .vcmpeq et md vs2 vs1 var pm => Sys2Proof.Machine.execVcmpeq et md vs2 vs1 var pm s
  | .vcmpne et md vs2 vs1 var pm => Sys2Proof.Machine.execVcmpne et md vs2 vs1 var pm s
  | .vcmplt et md vs2 vs1 var pm => Sys2Proof.Machine.execVcmplt et md vs2 vs1 var pm s
  | .vcmple et md vs2 vs1 var pm => Sys2Proof.Machine.execVcmple et md vs2 vs1 var pm s
  | .vsel et vd vs2 vs1 => Sys2Proof.Machine.execVsel et vd vs2 vs1 s
  | .vmaskAnd md ma mb => Sys2Proof.Machine.execVmaskAnd md ma mb s
  | .vmaskOr md ma mb => Sys2Proof.Machine.execVmaskOr md ma mb s
  | .vmaskXor md ma mb => Sys2Proof.Machine.execVmaskXor md ma mb s
  | .vmaskAndn md ma mb => Sys2Proof.Machine.execVmaskAndn md ma mb s
  | .vmaskNot md ma => Sys2Proof.Machine.execVmaskNot md ma s
  | .vmaskFromx md xs => Sys2Proof.Machine.execVmaskFromx md xs s
  | .vmaskTox xd ma => Sys2Proof.Machine.execVmaskTox xd ma s
  | .vmaskFirst md xs => Sys2Proof.Machine.execVmaskFirst md xs s
  | .vredsum et vd vs2 var pm => Sys2Proof.Machine.execVredsum et vd vs2 var pm s
  | .vredmax et vd vs2 var pm => Sys2Proof.Machine.execVredmax et vd vs2 var pm s
  | .vargmax et vd vs2 var pm => Sys2Proof.Machine.execVargmax et vd vs2 var pm s
  | .vcvt et src vd vs2 rm pm => Sys2Proof.Machine.execVcvt et src vd vs2 rm pm s
  | .vrand vd pm => Sys2Proof.Machine.execVrand vd pm s
  | .vrandLat vd xs pm => Sys2Proof.Machine.execVrandLat vd xs pm s
  | .vmvx et vd xs xi => Sys2Proof.Machine.execVmvx et vd xs xi s
  | .vmvxGet et nat xd vs2 xi => Sys2Proof.Machine.execVmvxGet et nat xd vs2 xi s
  | .vperm et vd vs2 vs1 pm => Sys2Proof.Machine.execVperm et vd vs2 vs1 pm s
  | .vslideup et vd vs2 xs pm => Sys2Proof.Machine.execVslideup et vd vs2 xs pm s
  | .vslidedn et vd vs2 xs pm => Sys2Proof.Machine.execVslidedn et vd vs2 xs pm s
  | .vzip et vd vs2 vs1 pm => Sys2Proof.Machine.execVzip et vd vs2 vs1 pm s
  | .vunzip et odd vd vs2 vs1 pm => Sys2Proof.Machine.execVunzip et odd vd vs2 vs1 pm s
  | .vbcast et vd xs pm => Sys2Proof.Machine.execVbcast et vd xs pm s
  | .powerUp bad failed => Sys2Proof.Machine.execPowerUp bad failed s
  | .imageUpdateCommit update => Sys2Proof.Machine.execImageUpdateCommit update s
  | .thermalShutdown => Sys2Proof.Machine.execThermalShutdown s
  | .droopTrip region => Sys2Proof.Machine.execDroopTrip region s
  | .droopClear region => Sys2Proof.Machine.execDroopClear region s
  | .thermalTrip region => Sys2Proof.Machine.execThermalTrip region s
  | .thermalClear region => Sys2Proof.Machine.execThermalClear region s
  | .powerCapTrip region => Sys2Proof.Machine.execPowerCapTrip region s
  | .powerCapClear region => Sys2Proof.Machine.execPowerCapClear region s
  | .governorWindow region estimate drawn => Sys2Proof.Machine.execGovernorWindow region estimate drawn s
  | .launchWaveForward k => Sys2Proof.Machine.execLaunchWaveForward k s
  | .csteplimWrite region val => Sys2Proof.Machine.execCsteplimWrite region val s
  | .portStatusWrite port val => Sys2Proof.Machine.execPortStatusWrite port val s
  | .registerWrite fn off size val => Sys2Proof.Machine.execRegisterWrite fn off size val s
  | .qbaseWrite fn q val => Sys2Proof.Machine.execQbaseWrite fn q val s
  | .qcfgWrite fn q val => Sys2Proof.Machine.execQcfgWrite fn q val s
  | .qnotifyWrite fn q val => Sys2Proof.Machine.execQnotifyWrite fn q val s
  | .qstatWrite fn q val => Sys2Proof.Machine.execQstatWrite fn q val s
  | .packetTake part ctl => Sys2Proof.Machine.execPacketTake part ctl s
  | .validPoll fn q => Sys2Proof.Machine.execValidPoll fn q s
  | .packetComplete k => Sys2Proof.Machine.execPacketComplete k s
  | .launchPacket k => Sys2Proof.Machine.execLaunchPacket k s
  | .copyPacket k => Sys2Proof.Machine.execCopyPacket k s
  | .barrierAndPacket k => Sys2Proof.Machine.execBarrierAndPacket k s
  | .barrierOrPacket k => Sys2Proof.Machine.execBarrierOrPacket k s
  | .barrierEvaluation k => Sys2Proof.Machine.execBarrierEvaluation k s
  | .signalStore k => Sys2Proof.Machine.execSignalStore k s
  | .signalAdd k => Sys2Proof.Machine.execSignalAdd k s
  | .signalSubtract k => Sys2Proof.Machine.execSignalSubtract k s
  | .graphReplayPacket k => Sys2Proof.Machine.execGraphReplayPacket k s
  | .graphReplayStart k => Sys2Proof.Machine.execGraphReplayStart k s
  | .expertQueueConfiguration k => Sys2Proof.Machine.execExpertQueueConfiguration k s
  | .recoveryPoint k => Sys2Proof.Machine.execRecoveryPoint k s
  | .segmentAcknowledgement part seg => Sys2Proof.Machine.execSegmentAcknowledgement part seg s
  | .quote k => Sys2Proof.Machine.execQuote k s
  | .create k => Sys2Proof.Machine.execCreate k s
  | .destroy k => Sys2Proof.Machine.execDestroy k s
  | .bindvf k => Sys2Proof.Machine.execBindvf k s
  | .unbindvf k => Sys2Proof.Machine.execUnbindvf k s
  | .egress k => Sys2Proof.Machine.execEgress k s
  | .cstep k => Sys2Proof.Machine.execCstep k s
  | .selftest k => Sys2Proof.Machine.execSelftest k s
  | .devid k => Sys2Proof.Machine.execDevid k s
  | .readmit k => Sys2Proof.Machine.execReadmit k s
  | .modes k => Sys2Proof.Machine.execModes k s
  | .events k => Sys2Proof.Machine.execEvents k s
  | .switchout k => Sys2Proof.Machine.execSwitchout k s
  | .switchin k => Sys2Proof.Machine.execSwitchin k s
  | .assist k => Sys2Proof.Machine.execAssist k s
  | .restore k => Sys2Proof.Machine.execRestore k s
  | .assistTimeout token => Sys2Proof.Machine.execAssistTimeout token s
  | .terminationWave part job => Sys2Proof.Machine.execTerminationWave part job s
  | .slotFill site core => Sys2Proof.Machine.execSlotFill site core s
  | .stealRequest k => Sys2Proof.Machine.execStealRequest k s
  | .stealAnswer k => Sys2Proof.Machine.execStealAnswer k s
  | .stealSweepWait site core => Sys2Proof.Machine.execStealSweepWait site core s
  | .budgetOverrun hart => Sys2Proof.Machine.execBudgetOverrun hart s
  | .preemptionRequest site core => Sys2Proof.Machine.execPreemptionRequest site core s
  | .preemptionComplete site core => Sys2Proof.Machine.execPreemptionComplete site core s
  | .quantumEnd part => Sys2Proof.Machine.execQuantumEnd part s
  | .scanSlice site core pass => Sys2Proof.Machine.execScanSlice site core pass s
  | .selfTestDeadline site core => Sys2Proof.Machine.execSelfTestDeadline site core s
  | .messageArrival k => Sys2Proof.Machine.execMessageArrival k s
  | .messageAcknowledgement k => Sys2Proof.Machine.execMessageAcknowledgement k s
  | .resendBackoff k => Sys2Proof.Machine.execResendBackoff k s
  | .remoteStoreArrival k => Sys2Proof.Machine.execRemoteStoreArrival k s
  | .remoteAtomicPerform k => Sys2Proof.Machine.execRemoteAtomicPerform k s
  | .responseArrival k => Sys2Proof.Machine.execResponseArrival k s
  | .faultMessage k => Sys2Proof.Machine.execFaultMessage k s
  | .wake part page present => Sys2Proof.Machine.execWake part page present s
  | .engineChunk site ch lines => Sys2Proof.Machine.execEngineChunk site ch lines s
  | .chunkRetry site ch => Sys2Proof.Machine.execChunkRetry site ch s
  | .matrixCommandStart site => Sys2Proof.Machine.execMatrixCommandStart site s
  | .matrixChunk site => Sys2Proof.Machine.execMatrixChunk site s
  | .floeChunkCommit part => Sys2Proof.Machine.execFloeChunkCommit part s
  | .floeReform part failed => Sys2Proof.Machine.execFloeReform part failed s
  | .matrixCommandComplete site => Sys2Proof.Machine.execMatrixCommandComplete site s
  | .transferComplete site ch => Sys2Proof.Machine.execTransferComplete site ch s
  | .pushAccept k => Sys2Proof.Machine.execPushAccept k s
  | .entryAge site q => Sys2Proof.Machine.execEntryAge site q s
  | .expertFiring site => Sys2Proof.Machine.execExpertFiring site s
  | .eqfireArrival k => Sys2Proof.Machine.execEqfireArrival k s
  | .eqdoneArrival k => Sys2Proof.Machine.execEqdoneArrival k s
  | .eqstatRequest k => Sys2Proof.Machine.execEqstatRequest k s
  | .deposit k => Sys2Proof.Machine.execDeposit k s
  | .barrierArrival k => Sys2Proof.Machine.execBarrierArrival k s
  | .capabilityReturnNotice k => Sys2Proof.Machine.execCapabilityReturnNotice k s
  | .invalidationAcknowledgement hart => Sys2Proof.Machine.execInvalidationAcknowledgement hart s
  | .intervalClose site => Sys2Proof.Machine.execIntervalClose site s
  | .checkpointBoundary site => Sys2Proof.Machine.execCheckpointBoundary site s
  | .intervalCommit site => Sys2Proof.Machine.execIntervalCommit site s
  | .tileFailure site cause => Sys2Proof.Machine.execTileFailure site cause s
  | .hardwareWatchdog event => Sys2Proof.Machine.execHardwareWatchdog event s
  | .uncorrectableError kind at_ => Sys2Proof.Machine.execUncorrectableError kind at_ s
  | .firnRestore site bad => Sys2Proof.Machine.execFirnRestore site bad s
  | .replayEnd site => Sys2Proof.Machine.execReplayEnd site s
  | .retirementAppend => Sys2Proof.Machine.execRetirementAppend s
  | .partitionRollback part => Sys2Proof.Machine.execPartitionRollback part s
  | .scrub site bonded scratch => Sys2Proof.Machine.execScrub site bonded scratch s
  | .bankRebuild event => Sys2Proof.Machine.execBankRebuild event s
  | .flitReceive port crcOk ask lanes words => Sys2Proof.Machine.execFlitReceive port crcOk ask lanes words s
  | .illegalInstruction word => Sys2Proof.Machine.execIllegalInstruction word s
  | .modulePowerLoss stage => Sys2Proof.Machine.execModulePowerLoss stage s
  | .remoteLoadArrival k => Sys2Proof.Machine.execRemoteLoadArrival k s
  | .mcmdArrival k => Sys2Proof.Machine.execMcmdArrival k s
  | .spawnFrameArrival k => Sys2Proof.Machine.execSpawnFrameArrival k s
  | .segmentReadBack part seg crcOk => Sys2Proof.Machine.execSegmentReadBack part seg crcOk s
  | .hbmStackRetrain stack ok => Sys2Proof.Machine.execHbmStackRetrain stack ok s

end Sys2Proof.Machine
end

