-- ==== Sys2Proof/Machine/Sched.lean ====
section
/-!
DEFINITION. What a step does next: the turns of the agenda, an issue turn of a core, the passing of time, and the turn
that is taken when nothing else is asked for (log 4, DESIGN CHOICE).
-/

namespace Sys2Proof.Machine

/-! ### Time (R50, R52, R57, R120) -/

/-- Cycles of a region in `n` units of 10 ns: half as many while it is throttled (R57), and the time they are scaled to (R38). The
remainder is kept in halves of a cycle. -/
def Region.elapse (r : Region) (n : Nat) : Region :=
  let d := if r.causes.isEmpty then 2 else 1
  let t := r.half + n * r.mhz * d
  { r with cycles := r.cycles + t / 200, half := t % 200, scaled := r.scaled + n * d }

/-- The budget of a thread after `d` cycles of its region (R120): it counts while an activation holds its thread
unparked, in normal mode. -/
def Thread.elapse (t : Thread) (d : Nat) : Thread :=
  if t.act.isSome && t.status != .parked then { t with budget := BitVec.ofNat 27 (t.budget.toNat - d) } else t

/-- Time passes: the module reference, the region clocks and the budgets of normal mode. -/
def State.elapse (s : State) (n : Nat) : State :=
  let rs := s.regions.map fun r => r.elapse n
  let grown (site : Nat) : Nat :=
    (vget Region.init rs (regionOf site)).cycles - (vget Region.init s.regions (regionOf site)).cycles
  { s with
    refTime := s.refTime + n
    regions := rs
    threads := s.threads.map fun x =>
      (x.1, if s.det (s.partOfHart x.1) then x.2 else x.2.elapse (grown (siteOf x.1))) }

/-! ### Turns -/

/-- Notes that a thread of a deterministic partition has reached the quantum by blocking or parking (R123). One that waits
for a response has not. -/
def State.settle (s : State) (h : Nat) : State :=
  let t := s.thread h
  match t.status with
  | .blocked .response => s
  | .blocked _ | .parked => if s.det (s.partOfHart h) then s.setThread h { t with qdone := true } else s
  | _ => s

/-- The issue turns for which an instruction holds its thread after its own (R294). -/
def Instr.holdTurns : Instr → Nat
  | .mul .. | .mulh .. | .mulhsu .. | .mulhu .. | .mulw .. => 1
  | .div .. | .divu .. | .rem .. | .remu .. | .divw .. | .divuw .. | .remw .. | .remuw .. => 15
  | _ => 0

/-- The state after an instruction that holds its thread (R294). -/
def State.holdFor (s : State) (h : Nat) (i : Instr) : State :=
  if Instr.holdTurns i = 0 then s else s.setThread h { s.thread h with hold := Instr.holdTurns i }

/-- An instruction with its hold. -/
def execHeld (i : Instr) (h : Nat) (s : State) : Out :=
  match exec i s with
  | .next s => .next (s.holdFor h i)
  | .fault f => .fault f
  | .refused r => .refused r

/-- The instruction a thread runs in its turn: fetched, decoded and checked (R133, R140, R175, R268). -/
def State.runThread (s : State) (h : Nat) : Out :=
  let s := s.issueAs h
  if s.me.overdue then execBudgetOverrun h s
  else match s.fetchKey h with
    | none => raiseOut s 2 .fetch s.me.pc
    | some k =>
      match decodeBytes (s.fetchWord k) with
      | .error _ => execIllegalInstruction (BitVec.ofNat 32 (ofBytes (s.fetchWord k))) s
      | .ok (i, _) => if s.mayRun i then execHeld i h s else raiseOut s 5 .other 0

/-- Whether a thread still waits in the waiting instruction it was blocked in. -/
def State.stillWaits (s s' : State) (h : Nat) : Bool :=
  (s.thread h).status != .running && (s'.thread h).status == (s.thread h).status

/-- An issue turn of a core with its threads in order (R118): a held thread's turn passes, a waiting one that waits on is no
candidate, and the first that can issue does. Nothing if none can. -/
def State.issueFrom (s : State) : List Nat → Out
  | [] => .next s
  | h :: rest =>
    if (s.thread h).hold ≠ 0 then (s.passTurn h).issueFrom rest
    else if !s.canIssue h then s.issueFrom rest
    else match s.runThread h with
      | .next s' => if s.stillWaits s' h then (s.settle h).issueFrom rest else .next (s'.settle h)
      | .fault f => .fault f
      | .refused r => .refused r

/-- An issue turn of a core (R118). -/
def State.issue (s : State) (core : Nat) : Out := s.issueFrom (s.issueOrder core)

/-- Whether a row of the table is a step of the part by itself: an instruction, or what a thread's own word leads to, runs
from a thread only. -/
def Instr.isStep (i : Instr) : Bool :=
  match i with
  | .selfreportFail _ _ | .selfreportEvent _ _ | .illegalInstruction _ => false
  | i => !i.wf

/-- A turn of the agenda. The steps of the part are taken as they stand. -/
def State.turn (s : State) : Turn → Out
  | .event i => if Instr.isStep i then exec i s else .next s
  | .issue core => s.issue core
  | .elapse n => .next (s.elapse n)

/-! ### Turns the part takes when the agenda is empty (log 4, DESIGN CHOICE) -/

/-- A step of the part as the choice of log 4, DESIGN CHOICE sees it. -/
abbrev Choice := State → Out

/-- The step that takes an item of the net at its place further (R142, R181, R189, R209, R218). -/
def Item.arrival (i : Item) (k : Nat) : Choice :=
  match i.body with
  | .message _ => execMessageArrival k
  | .store .. | .line .. => execRemoteStoreArrival k
  | .ret op =>
    match op with
    | .eqstat _ => execEqstatRequest k
    | .amo .. | .joindec _ => execRemoteAtomicPerform k
    | _ => execRemoteLoadArrival k
  | .response .. | .spawnAns _ => execResponseArrival k
  | .ack .. => execMessageAcknowledgement k
  | .frame .. => execSpawnFrameArrival k
  | .push .. => execPushAccept k
  | .eqfire _ => execEqfireArrival k
  | .eqdone .. => execEqdoneArrival k
  | .deposit .. => execDeposit k
  | .barrier .. => execBarrierArrival k
  | .capReturn .. => execCapabilityReturnNotice k
  | .mcmd _ => execMcmdArrival k
  | .stealReq _ => execStealRequest k
  | .stealAns _ => execStealAnswer k
  | .fault .. => execFaultMessage k
  | .packet _ | .irq .. | .sig .. => fun s => .next s

/-- The steps of items under way. -/
def State.itemChoices (s : State) : List Choice :=
  ((List.range s.net.length).zip s.net).map fun x => x.2.arrival x.1

/-- The steps of the engines of a site. -/
def State.engineChoices (s : State) (site : Nat) : List Choice :=
  [execMatrixCommandComplete site, execMatrixCommandStart site, execMatrixChunk site] ++
  (List.range 4).flatMap fun c =>
    match vget none (s.tile site).xfers c with
    | some f =>
      [execTransferComplete site c, execChunkRetry site c,
       execEngineChunk site c ((List.range f.total).filter fun n => !f.done.contains n)]
    | none => []

/-- The step a taken packet makes next, by its type (R88, R94, R100). -/
def Taken.steps (t : Taken) (k : Nat) : List Choice :=
  match t.typ with
  | 1 => [execLaunchPacket k]
  | 2 => [execCopyPacket k]
  | 3 => [execBarrierAndPacket k, execBarrierEvaluation k]
  | 4 => [execBarrierOrPacket k, execBarrierEvaluation k]
  | 5 => [execSignalStore k, execSignalAdd k, execSignalSubtract k]
  | 6 => [execGraphReplayPacket k]
  | 7 => [execExpertQueueConfiguration k]
  | 8 => [execRecoveryPoint k]
  | 9 => [execQuote k]
  | _ =>
    [execCreate k, execDestroy k, execBindvf k, execUnbindvf k, execEgress k, execCstep k, execSelftest k, execDevid k,
     execReadmit k, execModes k, execEvents k, execSwitchout k, execSwitchin k, execAssist k, execRestore k]

/-- The steps of the command processors (R87, R89, R95, R101). -/
def State.packetChoices (s : State) : List Choice :=
  let queues := (0, 0) :: s.parts.flatMap fun p => (List.range 4).map fun c => (p.1, c)
  (List.range s.taken.length).map execPacketComplete ++
  (((List.range s.taken.length).zip s.taken).flatMap fun x => x.2.steps x.1) ++
  (List.range s.replays.length).map execGraphReplayStart ++
  (List.range s.waves.length).map execLaunchWaveForward ++ queues.map fun x => execPacketTake x.1 x.2

/-- The steps of a recovery (R242, R243, R247, R370). -/
def State.recoveryChoices (s : State) : List Choice :=
  let sites := s.tiles.map (·.1)
  ((s.tiles.filter fun t => t.2.failed).map fun t => execTileFailure t.1 t.2.failc) ++
  (s.parts.filterMap fun p => if p.2.floe.isSome then some (execFloeReform p.1 0x3FFF) else none) ++
  (s.parts.map fun p => execPartitionRollback p.1) ++ (sites.map fun x => execFirnRestore x 0) ++ sites.map execReplayEnd

/-- The steps of checkpoints (R237, R238). -/
def State.checkpointChoices (s : State) : List Choice :=
  let sites := s.tiles.map (·.1)
  sites.map execIntervalClose ++ sites.map execCheckpointBoundary ++ sites.map execIntervalCommit

/-- The waves of the termination detector (R131). -/
def State.waveChoices (s : State) : List Choice :=
  s.parts.flatMap fun p => p.2.jobs.map fun j => execTerminationWave p.1 j.num

/-- The steps the part may take of itself, in the order they are tried. -/
def State.choices (s : State) : List Choice :=
  let sites := s.tiles.map (·.1)
  let ps := s.parts.map (·.1)
  let cores := sites.flatMap fun x => (List.range 4).map fun k => (x, k)
  s.recoveryChoices ++ ((s.threads.filter fun x => x.2.overdue).map fun x => execBudgetOverrun x.1) ++
  s.itemChoices ++ sites.flatMap s.engineChoices ++ ps.map execFloeChunkCommit ++
  (s.threads.filterMap fun x => match x.2.status with
    | .blocked (.tlbinv ..) => some (execInvalidationAcknowledgement x.1)
    | _ => none) ++
  (s.parts.flatMap fun p => p.2.wakes.map fun w => execWake p.1 w.1 w.2) ++ s.packetChoices ++
  cores.map (fun x => execSlotFill x.1 x.2) ++ sites.map execExpertFiring ++
  cores.map (fun x => execPreemptionComplete x.1 x.2) ++ s.checkpointChoices ++ [execRetirementAppend] ++
  cores.map (fun x s => s.issue (x.1 * 4 + x.2)) ++ (List.range s.net.length).map execResendBackoff ++
  cores.map (fun x => execStealSweepWait x.1 x.2) ++ s.waveChoices ++
  cores.map (fun x => execSelfTestDeadline x.1 x.2) ++ cores.map (fun x => execScanSlice x.1 x.2 true) ++ ps.map execQuantumEnd

/-- The first choice that changes the state; if none does, nothing happens. -/
def State.tryTurns (s : State) : List Choice → Out
  | [] => .next s
  | t :: rest =>
    match t s with
    | .next s' => if s' = s then s.tryTurns rest else .next s'
    | .fault f => .fault f
    | .refused r => .refused r

/-- The turn of a step: the first of the agenda; with an empty agenda an issue turn of the core that issued last, or the
first choice that changes anything (log 4, DESIGN CHOICE). -/
def State.nextTurn (s : State) : Out :=
  match s.agenda with
  | t :: rest => { s with agenda := rest }.turn t
  | [] => if (s.candidate (coreOf s.cur)).isSome then s.issue (coreOf s.cur) else s.tryTurns s.choices

/-- What the part does of itself after a turn: waits whose condition holds are answered (R325, R326), the tiles that replay a log
go on with it (R243), the supervisors with their recoveries (R242), and newly mapped frames read empty (R194). -/
def State.settled (s : State) : State := s.emptyMapped.wakeWaiters.pumpAll.recoverNext

/-- What the part does at a step: a turn, and what follows from it. -/
def State.run (s : State) : Out :=
  match s.nextTurn with
  | .next s => .next s.settled
  | .fault f => .fault f
  | .refused r => .refused r

/-- Whether a turn can bring a part without power back (R34). -/
def Turn.powersUp : Turn → Bool
  | .event (.powerUp ..) => true
  | _ => false

/-! ### A program to run (log 7, DESIGN CHOICE) -/

/-- Thread 0 of site 0 as it stands when an activation starts at scratchpad offset 0 (R133). -/
def firstThread : Thread :=
  { Thread.init with
    status := .running
    budget := BitVec.ofNat 27 (2 ^ 20)
    act := some { origin := .frame { haddr := 0, budlog := 0, job := 0, seq := 0, sdev := 0, pusher := 0,
                                     payload := Vector.replicate 8 0 },
                  entry := 0, budlog := 0, job := 0, part := 1, kind := 6, chan := 0, ninsn := 0, mid := 0 } }

/-- Site 0 as a ranked tile whose scratchpad threads may read, write and fetch from (R19, R175). -/
def firstTile : Tile :=
  { Tile.init with rank := some 0, role := .ranked, lpt := vset (Vector.replicate 16 0) 0 0x8700000000000016 }

/-- A state whose next step fetches the given bytes at the pc of thread 0 of site 0. -/
def State.withProgram (s : State) (bs : List Byte) : State :=
  { s with
    agenda := [], cur := 0, powered := true
    threads := SMap.put s.threads 0 firstThread
    cores := SMap.put s.cores 0 Core.init
    tiles := SMap.put s.tiles 0 firstTile
    binding := [(0, 0)]
    parts := SMap.put s.parts 1 { Partition.init with regions := [0], tiles := [0] }
    mem := Memory.writeN s.mem (kScratch 0) bs }

end Sys2Proof.Machine
end

