-- ==== Sys2Proof/Machine/Step.lean ====
section
/-!
DEFINITION. One step of the machine, and a state whose next step runs a given instruction.
-/

namespace Sys2Proof.Machine

/-- One step. A part without power does nothing but come up again (R34, R58). -/
def step (s : State) : Host.Outcome State Fault Refusal :=
  if s.powered || (s.agenda.head?.map Turn.powersUp).getD false then s.run else .fault .unpowered

/-- `s` with the instruction of the table's numbering `w` where the next step fetches (log 7, DESIGN CHOICE). -/
def State.withFetchWord (s : State) (_nbits w : Nat) : State := s.withProgram (bytesOf 4 w)

end Sys2Proof.Machine
end

