-- ==== Sys2Proof/Safety.lean ====
section
/-!
DEFINITION. What claims say about runs: states a step leads to, and the invariants of the machine that hold in every
state a run reaches.
-/

namespace Sys2Proof

open Machine

/-- A step leads from one state to another. -/
def Steps (s t : State) : Prop := step s = .next t

/-- A state that a run of steps reaches from another. -/
inductive Reaches : State → State → Prop where
  | refl (s : State) : Reaches s s
  | tail {s t u : State} : Reaches s t → Steps t u → Reaches s u

/-- Memory is in its canonical form. -/
def MemWf (s : State) : Prop := Memory.wf s.mem = true

/-- Nothing but a lack of power stops the machine: no step faults while the part is powered. -/
def NeverStuck (s : State) : Prop := ∀ f, step s ≠ .fault f

/-! ### What an instruction that retires leaves (R294, R308, R311) -/

/-- The pc after an instruction that is no jump: back to the loop's start at its end, else the next word (R308). -/
def nextPc (t : Thread) : Word := if t.pc = t.lpend ∧ 1 < t.lpcount.toNat then t.lpstart else t.pc + 4

/-- The loop count after it (R308). -/
def nextCount (t : Thread) : Word := if t.pc = t.lpend ∧ 1 ≤ t.lpcount.toNat then t.lpcount - 1 else t.lpcount

/-- The budget after one retired instruction: counted in instructions in deterministic mode only, at U (R120, R123). -/
def nextBudget (s : State) : BitVec 27 :=
  if (s.part (s.partOfHart s.cur)).det = true ∧ s.me.priv = .U ∧ s.me.budget ≠ 0 then s.me.budget - 1 else s.me.budget

/-- The current thread has retired an instruction that changed only what `m` says of it, and gone on to the next word; of
everything else only the count of instructions of its site has changed. -/
structure Retired (s t : State) (m : Thread) : Prop where
  me     : t.me = { m with pc := nextPc s.me, lpcount := nextCount s.me, budget := nextBudget s,
                           retired := s.me.retired + 1, qret := s.me.qret + 1, resp := none, status := .running }
  others : ∀ h, h ≠ s.cur → t.thread h = s.thread h
  bytes  : ∀ a, Memory.read t.mem a = Memory.read s.mem a
  rest   : { t with threads := s.threads, instrs := s.instrs } = s

/-- A result in X[rd], with everything else of the thread and of the machine as it was; X[0] stays 0 (R283). -/
structure ScalarResult (s t : State) (rd : Reg) (v : Word) : Prop where
  regs    : ∀ r : Reg, t.rx r = if r = 0 then 0 else if r = rd then v else s.rx r
  retired : ∃ x, Retired s t { s.me with x := x }

/-- An instruction completes with a result in X[rd]. -/
def Gives (i : Instr) (s : State) (rd : Reg) (v : Word) : Prop := ∃ t, exec i s = .next t ∧ ScalarResult s t rd v

/-- An instruction completes with a result in V[vd]. -/
def GivesV (i : Instr) (s : State) (vd : BitVec 4) (v : VReg) : Prop :=
  ∃ t, exec i s = .next t ∧ (∀ r : BitVec 4, t.me.rv r = if r = vd then v else s.me.rv r) ∧
    ∃ w, Retired s t { s.me with v := w }

/-- An instruction completes with a result in M[md]. -/
def GivesM (i : Instr) (s : State) (md : BitVec 2) (v : Word) : Prop :=
  ∃ t, exec i s = .next t ∧ (∀ r : BitVec 2, t.me.rm r = if r = md then v else s.me.rm r) ∧
    ∃ w, Retired s t { s.me with m := w }

/-- An instruction answers a next state of which `P` holds. -/
def Ends (i : Instr) (s : State) (P : State → Prop) : Prop := ∃ t, exec i s = .next t ∧ P t

/-- The bytes of memory are as before but for `n` bytes from location `k` up, which are `bs`. -/
def Stored (s t : State) (k : Nat) (bs : List Byte) : Prop :=
  Memory.readN t.mem k bs.length = bs ∧
    ∀ a, (a < k ∨ k + bs.length ≤ a) → Memory.read t.mem a = Memory.read s.mem a

/-- The current thread's address of a base register and a 12-bit offset (R295). -/
def baseAddr (s : State) (rs1 : Reg) (imm : BitVec 12) : Nat := (s.rx rs1 + imm.signExtend 64).toNat

/-- A local access of the current thread that is granted and lies at location `k`, with nothing of the thread's own on its
way there (R173, R175, R176). -/
def LocalAt (s : State) (kind : AccKind) (a n k : Nat) : Prop :=
  a < 2 ^ 48 ∧ s.localAcc s.site kind a n = some k ∧ s.pendingLocal s.cur k n = false

/-- The pc and the loop count after a jump to `t` (R308): leaving the loop's body ends the loop. -/
def jumped (s t : State) (target : Word) : Prop :=
  t.me.pc = target ∧
    t.me.lpcount = (if s.me.lpcount ≠ 0 ∧ (target.toNat < s.me.lpstart.toNat ∨ s.me.lpend.toNat < target.toNat)
      then 0 else s.me.lpcount) ∧
    t.me.retired = s.me.retired + 1 ∧ (∀ a, Memory.read t.mem a = Memory.read s.mem a) ∧
    (∀ h, h ≠ s.cur → t.thread h = s.thread h) ∧ t.tiles = s.tiles ∧ t.cores = s.cores ∧ t.net = s.net

/-! ### What an instruction that sends or changes shared tables leaves -/

/-- The current thread has retired an instruction that changed only what `m` says of it; no other thread has changed. -/
structure Went (s t : State) (m : Thread) : Prop where
  me     : t.me = { m with pc := nextPc s.me, lpcount := nextCount s.me, budget := nextBudget s,
                           retired := s.me.retired + 1, qret := s.me.qret + 1, resp := none, status := .running }
  others : ∀ h, h ≠ s.cur → t.thread h = s.thread h

/-- Only threads, items under way and what tiles and home agents count of them have changed. -/
def Quiet (s t : State) : Prop :=
  { t with threads := s.threads, instrs := s.instrs, tiles := s.tiles, homes := s.homes, net := s.net, ordCtr := s.ordCtr } = s

/-- X[rd] has become `v` and no other x register has changed; X[0] reads 0. -/
def SetsX (s t : State) (rd : Reg) (v : Word) : Prop :=
  ∀ r : Reg, t.rx r = if r = 0 then 0 else if r = rd then v else s.rx r

/-- The current thread waits and issues the same instruction again: nothing else has changed. -/
def Waits (s t : State) (w : Wait) : Prop := t = s.setMe { s.me with status := .blocked w }

/-- Nothing has changed but the current thread, the count of instructions, full-empty bits and the log of the own tile with its bytes
at the buddy. -/
structure Noted (s t : State) : Prop where
  rest  : { t with threads := s.threads, instrs := s.instrs, tiles := s.tiles, firnMem := s.firnMem, full := s.full } = s
  own   : { t.tile s.site with log := (s.tile s.site).log, logBytes := (s.tile s.site).logBytes,
                               logHead := (s.tile s.site).logHead } = s.tile s.site
  tiles : ∀ x, x ≠ s.site → t.tile x = s.tile x

/-- Tiles are as they were but for their logs. -/
def OnlyLogs (s t : State) : Prop :=
  ∀ y, { t.tile y with log := (s.tile y).log, logBytes := (s.tile y).logBytes, logHead := (s.tile y).logHead } = s.tile y

/-- Threads are as they were but for the sequence numbers that command processors have taken. -/
def OnlySeqs (s t : State) : Prop := ∀ h, t.thread h = { s.thread h with seq := (t.thread h).seq }

/-- The current thread has sent one returning operation to the home of its address and waits for the response; its
registers and the pc stay (R218). -/
def Asked (s t : State) (op : RetOp) (release : Bool) : Prop :=
  t.me.status = .blocked .response ∧ t.me.pc = s.me.pc ∧ t.me.x = s.me.x ∧ Quiet s t ∧
    (∀ h, h ≠ s.cur → t.thread h = s.thread h) ∧
    ∃ i, t.net = s.net ++ [i] ∧ i.src = s.cur ∧ i.body = .ret op ∧ i.dst = homeOf op.addr ∧ i.release = release ∧
      i.stage = .waiting ∧ t.me.req = i.ord + 1

/-- An item is a message of the current thread to a thread rank, with the next sequence number (R135-R137, R316). -/
def IsMessage (s : State) (i : Item) (kind ninsn drank chan : Nat) (pl : Vector Word 8) (cap : Option Cap) : Prop :=
  i.src = s.cur ∧ i.dst = .core (drank / 8) ∧ i.release = true ∧ i.seq = (s.me.seq + 1).toNat ∧ i.stage = .waiting ∧
    ∃ m, i.body = .message m ∧ m.hdr.drank = drank ∧ m.hdr.chan = chan ∧ m.hdr.kind = kind ∧ m.hdr.ninsn = ninsn ∧
      m.hdr.seq = (s.me.seq + 1).toNat ∧ m.hdr.srank = s.srank s.cur ∧ m.hdr.job = s.jobOf s.cur ∧ m.payload = pl ∧
      m.cap = cap

/-- The local address a 64-byte block is read from lies at location `k` (R317). -/
def BlockAt (s : State) (a : Word) (k : Nat) : Prop := a.toNat % 64 = 0 ∧ LocalAt s .read a.toNat 64 k

/-! ### What a vector instruction leaves -/

/-- Whether element j of a register-only instruction is active: below VL, and let through by m0 where m is 1 (R334). -/
def laneOn (s : State) (pm : Bool) (j : Nat) : Bool := decide (j < s.me.vl.toNat) && (!pm || (s.me.rm 0).getLsbD j)

/-- A vector instruction completes: element j of V[vd], of width w, becomes `f j` where `on j` holds and stays elsewhere; no
other register and nothing else changes. -/
def GivesLanes (i : Instr) (s : State) (w : Nat) (vd : BitVec 4) (on : Nat → Bool) (f : Nat → Nat) : Prop :=
  ∃ t, exec i s = .next t ∧ (∀ r : BitVec 4, r ≠ vd → t.me.rv r = s.me.rv r) ∧
    (∀ j, j < 512 / w → elem (t.me.rv vd) w j = if on j then f j % 2 ^ w else elem (s.me.rv vd) w j) ∧
    ∃ v, Retired s t { s.me with v := v }

/-- A comparison completes: bit j of M[md] becomes `f j` where `on j` holds and stays elsewhere; nothing else changes. -/
def GivesBits (i : Instr) (s : State) (md : BitVec 2) (on f : Nat → Bool) : Prop :=
  ∃ t, exec i s = .next t ∧ (∀ r : BitVec 2, r ≠ md → t.me.rm r = s.me.rm r) ∧
    (∀ j, j < 64 → (t.me.rm md).getLsbD j = if on j then f j else (s.me.rm md).getLsbD j) ∧
    ∃ m, Retired s t { s.me with m := m }

/-- Whether no vector field of a list names a bound stream (R338). -/
def NoStreams (s : State) (fields : List (BitVec 4)) : Prop := ∀ n ∈ fields, s.me.bound n = false

/-- The active elements of a register-only instruction, ascending (R334). -/
def activeList (s : State) (et : EType) (pm : Bool) : List Nat := (List.range (512 / et.bits)).filter (laneOn s pm)

end Sys2Proof
end

