-- ==== Sys2Proof/Certificates/Slice0/Obligations.lean ====
section
/-!
DEFINITION. Statements for the provers. Each names the rules of spec/ it formalises; OBLIGATIONS.json says which of them
it states whole. `Gives`, `GivesV`, `GivesM`, `Ends` and `Retired` of Sys2Proof/Safety.lean say that an instruction
completes, with what result, and that nothing else has changed.
-/

open Sys2Proof Sys2Proof.Machine

/-! ### Scalar computation (spec/15_scalar.md) -/

/-- R297: register forms, in the arithmetic of natural numbers and integers; each completes and changes nothing else. -/
def Obligations.IntegerRegisterResults : Prop :=
  ∀ (s : State) (rd rs1 rs2 : Reg),
    let a := s.rx rs1
    let b := s.rx rs2
    Gives (.add rd rs1 rs2) s rd (BitVec.ofNat 64 (a.toNat + b.toNat)) ∧
    Gives (.sub rd rs1 rs2) s rd (BitVec.ofInt 64 (a.toInt - b.toInt)) ∧
    Gives (.sll rd rs1 rs2) s rd (BitVec.ofNat 64 (a.toNat * 2 ^ (b.toNat % 64))) ∧
    Gives (.slt rd rs1 rs2) s rd (if a.toInt < b.toInt then 1 else 0) ∧
    Gives (.sltu rd rs1 rs2) s rd (if a.toNat < b.toNat then 1 else 0) ∧
    Gives (.xor rd rs1 rs2) s rd (a ^^^ b) ∧
    Gives (.srl rd rs1 rs2) s rd (BitVec.ofNat 64 (a.toNat / 2 ^ (b.toNat % 64))) ∧
    Gives (.sra rd rs1 rs2) s rd (BitVec.ofInt 64 (a.toInt / 2 ^ (b.toNat % 64))) ∧
    Gives (.or rd rs1 rs2) s rd (a ||| b) ∧
    Gives (.and rd rs1 rs2) s rd (a &&& b)

/-- R297, R300: immediate forms, LUI and AUIPC. -/
def Obligations.IntegerImmediateResults : Prop :=
  ∀ (s : State) (rd rs1 : Reg) (imm : BitVec 12) (sh : BitVec 6) (u : BitVec 20),
    let a := s.rx rs1
    let b := imm.signExtend 64
    Gives (.addi rd rs1 imm) s rd (BitVec.ofInt 64 (a.toInt + imm.toInt)) ∧
    Gives (.slti rd rs1 imm) s rd (if a.toInt < imm.toInt then 1 else 0) ∧
    Gives (.sltiu rd rs1 imm) s rd (if a.toNat < b.toNat then 1 else 0) ∧
    Gives (.xori rd rs1 imm) s rd (a ^^^ b) ∧
    Gives (.ori rd rs1 imm) s rd (a ||| b) ∧
    Gives (.andi rd rs1 imm) s rd (a &&& b) ∧
    Gives (.slli rd rs1 sh) s rd (BitVec.ofNat 64 (a.toNat * 2 ^ sh.toNat)) ∧
    Gives (.srli rd rs1 sh) s rd (BitVec.ofNat 64 (a.toNat / 2 ^ sh.toNat)) ∧
    Gives (.srai rd rs1 sh) s rd (BitVec.ofInt 64 (a.toInt / 2 ^ sh.toNat)) ∧
    Gives (.lui rd u) s rd (BitVec.ofInt 64 (u.toInt * 4096)) ∧
    Gives (.auipc rd u) s rd (BitVec.ofInt 64 (s.me.pc.toInt + u.toInt * 4096))

/-- R298: the W forms compute on the low 32 bits and sign-extend. -/
def Obligations.WordFormResults : Prop :=
  ∀ (s : State) (rd rs1 rs2 : Reg) (imm : BitVec 12) (sh : BitVec 5),
    let a : BitVec 32 := (s.rx rs1).setWidth 32
    let b : BitVec 32 := (s.rx rs2).setWidth 32
    let w (r : BitVec 32) : Word := r.signExtend 64
    Gives (.addiw rd rs1 imm) s rd (w (BitVec.ofInt 32 (a.toInt + imm.toInt))) ∧
    Gives (.slliw rd rs1 sh) s rd (w (BitVec.ofNat 32 (a.toNat * 2 ^ sh.toNat))) ∧
    Gives (.srliw rd rs1 sh) s rd (w (BitVec.ofNat 32 (a.toNat / 2 ^ sh.toNat))) ∧
    Gives (.sraiw rd rs1 sh) s rd (w (BitVec.ofInt 32 (a.toInt / 2 ^ sh.toNat))) ∧
    Gives (.addw rd rs1 rs2) s rd (w (BitVec.ofNat 32 (a.toNat + b.toNat))) ∧
    Gives (.subw rd rs1 rs2) s rd (w (BitVec.ofInt 32 (a.toInt - b.toInt))) ∧
    Gives (.sllw rd rs1 rs2) s rd (w (BitVec.ofNat 32 (a.toNat * 2 ^ (b.toNat % 32)))) ∧
    Gives (.srlw rd rs1 rs2) s rd (w (BitVec.ofNat 32 (a.toNat / 2 ^ (b.toNat % 32)))) ∧
    Gives (.sraw rd rs1 rs2) s rd (w (BitVec.ofInt 32 (a.toInt / 2 ^ (b.toNat % 32)))) ∧
    Gives (.mulw rd rs1 rs2) s rd (w (BitVec.ofInt 32 (a.toInt * b.toInt)))

/-- R299: products, with the high half taken of the exact product; quotients and remainders, with the results the rule gives
for a divisor of 0 and for the pair that overflows. -/
def Obligations.MultiplyDivideResults : Prop :=
  (∀ (s : State) (rd rs1 rs2 : Reg),
     let a := s.rx rs1
     let b := s.rx rs2
     Gives (.mul rd rs1 rs2) s rd (BitVec.ofInt 64 (a.toInt * b.toInt)) ∧
     Gives (.mulh rd rs1 rs2) s rd (BitVec.ofInt 64 (a.toInt * b.toInt / 2 ^ 64)) ∧
     Gives (.mulhsu rd rs1 rs2) s rd (BitVec.ofInt 64 (a.toInt * b.toNat / 2 ^ 64)) ∧
     Gives (.mulhu rd rs1 rs2) s rd (BitVec.ofNat 64 (a.toNat * b.toNat / 2 ^ 64))) ∧
  (∀ (s : State) (rd rs1 rs2 : Reg),
     let a := s.rx rs1
     let b := s.rx rs2
     let al : BitVec 32 := a.setWidth 32
     let bl : BitVec 32 := b.setWidth 32
     let w (r : BitVec 32) : Word := r.signExtend 64
     Gives (.div rd rs1 rs2) s rd (if b = 0 then BitVec.ofInt 64 (-1) else BitVec.ofInt 64 (a.toInt.tdiv b.toInt)) ∧
     Gives (.divu rd rs1 rs2) s rd (if b = 0 then BitVec.ofInt 64 (-1) else BitVec.ofNat 64 (a.toNat / b.toNat)) ∧
     Gives (.rem rd rs1 rs2) s rd (if b = 0 then a else BitVec.ofInt 64 (a.toInt.tmod b.toInt)) ∧
     Gives (.remu rd rs1 rs2) s rd (if b = 0 then a else BitVec.ofNat 64 (a.toNat % b.toNat)) ∧
     Gives (.divw rd rs1 rs2) s rd (w (if bl = 0 then BitVec.ofInt 32 (-1) else BitVec.ofInt 32 (al.toInt.tdiv bl.toInt))) ∧
     Gives (.divuw rd rs1 rs2) s rd (w (if bl = 0 then BitVec.ofInt 32 (-1) else BitVec.ofNat 32 (al.toNat / bl.toNat))) ∧
     Gives (.remw rd rs1 rs2) s rd (w (if bl = 0 then al else BitVec.ofInt 32 (al.toInt.tmod bl.toInt))) ∧
     Gives (.remuw rd rs1 rs2) s rd (w (if bl = 0 then al else BitVec.ofNat 32 (al.toNat % bl.toNat))))

/-- R303-R305: MIN, MAX and the counts; a count of zeros is characterised by the bit it stops at. A bit field that is
extracted or inserted, bit by bit; bits beyond bit 63 do not exist. -/
def Obligations.MinMaxBitFieldResults : Prop :=
  (∀ (s : State) (rd rs1 rs2 : Reg),
     let a := s.rx rs1
     let b := s.rx rs2
     Gives (.min rd rs1 rs2) s rd (BitVec.ofInt 64 (Min.min a.toInt b.toInt)) ∧
     Gives (.max rd rs1 rs2) s rd (BitVec.ofInt 64 (Max.max a.toInt b.toInt)) ∧
     Gives (.minu rd rs1 rs2) s rd (BitVec.ofNat 64 (Min.min a.toNat b.toNat)) ∧
     Gives (.maxu rd rs1 rs2) s rd (BitVec.ofNat 64 (Max.max a.toNat b.toNat)) ∧
     (∃ n ≤ 64, Gives (.clz rd rs1) s rd (BitVec.ofNat 64 n) ∧ (∀ i < 64, 64 - n ≤ i → a.getLsbD i = false) ∧
       (n < 64 → a.getLsbD (63 - n) = true)) ∧
     (∃ n ≤ 64, Gives (.ctz rd rs1) s rd (BitVec.ofNat 64 n) ∧ (∀ i < n, a.getLsbD i = false) ∧
       (n < 64 → a.getLsbD n = true)) ∧
     Gives (.cpop rd rs1) s rd (BitVec.ofNat 64 ((List.range 64).countP fun i => a.getLsbD i))) ∧
  (∀ (s : State) (rd rs1 : Reg) (off width : BitVec 6),
     let a := s.rx rs1
     let o := off.toNat
     let n := Nat.min (o + width.toNat) 64 - o
     (∃ v, Gives (.bfxu rd rs1 off width) s rd v ∧
       ∀ i < 64, v.getLsbD i = (decide (i < n) && a.getLsbD (o + i))) ∧
     (∃ v, Gives (.bfx rd rs1 off width) s rd v ∧
       ∀ i < 64, v.getLsbD i = if i < n then a.getLsbD (o + i) else (n != 0 && a.getLsbD (o + n - 1))) ∧
     (∃ v, Gives (.bfi rd rs1 off width) s rd v ∧
       ∀ i < 64, v.getLsbD i = if o ≤ i ∧ i < o + n then a.getLsbD (i - o) else (s.rx rd).getLsbD i))

/-- R173, R218, R295, R296: a load from the local window completes with the bytes read, sign- or zero-extended. A load from a
translated address blocks the thread and sends one item to the home; when the response has come the load completes with its
data. -/
def Obligations.LoadResults : Prop :=
  (∀ (s : State) (rd rs1 : Reg) (imm : BitVec 12) (k : Nat),
     let a := baseAddr s rs1 imm
     let b (i : Nat) : Byte := Memory.read s.mem (k + i)
     s.me.resp = none →
     (LocalAt s .read a 1 k → Gives (.lb rd rs1 imm) s rd ((b 0).signExtend 64) ∧
       Gives (.lbu rd rs1 imm) s rd ((b 0).setWidth 64)) ∧
     (LocalAt s .read a 2 k → Gives (.lh rd rs1 imm) s rd ((b 1 ++ b 0 : BitVec 16).signExtend 64) ∧
       Gives (.lhu rd rs1 imm) s rd ((b 1 ++ b 0 : BitVec 16).setWidth 64)) ∧
     (LocalAt s .read a 4 k → Gives (.lw rd rs1 imm) s rd ((b 3 ++ b 2 ++ b 1 ++ b 0 : BitVec 32).signExtend 64) ∧
       Gives (.lwu rd rs1 imm) s rd ((b 3 ++ b 2 ++ b 1 ++ b 0 : BitVec 32).setWidth 64)) ∧
     (LocalAt s .read a 8 k →
       Gives (.ld rd rs1 imm) s rd (b 7 ++ b 6 ++ b 5 ++ b 4 ++ b 3 ++ b 2 ++ b 1 ++ b 0))) ∧
  (∀ (s : State) (rd rs1 : Reg) (imm : BitVec 12),
     let a := baseAddr s rs1 imm
     let asks (i : Instr) (n : Nat) : Prop := a % n = 0 → Ends i s fun t => Asked s t (.read [(a, n)]) false
     (s.me.resp = none → routeOf a = .translated →
       asks (.lb rd rs1 imm) 1 ∧ asks (.lbu rd rs1 imm) 1 ∧ asks (.lh rd rs1 imm) 2 ∧ asks (.lhu rd rs1 imm) 2 ∧
       asks (.lw rd rs1 imm) 4 ∧ asks (.lwu rd rs1 imm) 4 ∧ asks (.ld rd rs1 imm) 8) ∧
     (∀ r : Resp, s.me.resp = some r →
       Gives (.lb rd rs1 imm) s rd (sext 8 (ofBytes r.data)) ∧ Gives (.lbu rd rs1 imm) s rd (zext 8 (ofBytes r.data)) ∧
       Gives (.lh rd rs1 imm) s rd (sext 16 (ofBytes r.data)) ∧ Gives (.lhu rd rs1 imm) s rd (zext 16 (ofBytes r.data)) ∧
       Gives (.lw rd rs1 imm) s rd (sext 32 (ofBytes r.data)) ∧ Gives (.lwu rd rs1 imm) s rd (zext 32 (ofBytes r.data)) ∧
       Gives (.ld rd rs1 imm) s rd (zext 64 (ofBytes r.data))))

/-- R189, R295, R296: a store to the own scratchpad or own bonded block writes the low bytes of X[rs2], lowest first, at the
location of the address, and nothing else of memory; no register but the pc changes. A store to an aligned translated address
leaves memory as it is, takes one sequence number and sends the bytes to the home. -/
def Obligations.StoreResults : Prop :=
  (∀ (s : State) (rs2 rs1 : Reg) (imm : BitVec 12) (k : Nat),
     let a := baseAddr s rs1 imm
     let v := (s.rx rs2).toNat
     let done (n : Nat) (t : State) : Prop :=
       Stored s t k (bytesOf n v) ∧ t.me.x = s.me.x ∧ t.me.v = s.me.v ∧ t.me.m = s.me.m ∧ t.me.pc = nextPc s.me ∧
         t.tiles = s.tiles ∧ t.cores = s.cores ∧ t.net = s.net ∧ t.full = s.full ∧ t.parts = s.parts ∧
         ∀ h, h ≠ s.cur → t.thread h = s.thread h
     MemWf s → s.atHome a = false →
     (LocalAt s .write a 1 k → Ends (.sb rs2 rs1 imm) s (done 1)) ∧
     (LocalAt s .write a 2 k → Ends (.sh rs2 rs1 imm) s (done 2)) ∧
     (LocalAt s .write a 4 k → Ends (.sw rs2 rs1 imm) s (done 4)) ∧
     (LocalAt s .write a 8 k → Ends (.sd rs2 rs1 imm) s (done 8))) ∧
  (∀ (s : State) (rs2 rs1 : Reg) (imm : BitVec 12),
     let a := baseAddr s rs1 imm
     let v := (s.rx rs2).toNat
     let posted (n : Nat) (t : State) : Prop :=
       t.mem = s.mem ∧ t.full = s.full ∧ t.me.x = s.me.x ∧ t.me.pc = nextPc s.me ∧ t.me.seq = s.me.seq + 1 ∧
         ∃ i : Item, t.net = s.net ++ [i] ∧ i.src = s.cur ∧ i.dst = homeOf a ∧ i.body = .store a (bytesOf n v) false ∧
           i.seq = (s.me.seq + 1).toNat ∧ i.stage = .waiting
     routeOf a = .translated →
     Ends (.sb rs2 rs1 imm) s (posted 1) ∧
     (a % 2 = 0 → Ends (.sh rs2 rs1 imm) s (posted 2)) ∧
     (a % 4 = 0 → Ends (.sw rs2 rs1 imm) s (posted 4)) ∧
     (a % 8 = 0 → Ends (.sd rs2 rs1 imm) s (posted 8)))

/-- R173, R296, R320, R325-R328, R390: at M a misaligned translated load or store traps with cause 13, and one whose address has any
of bits [63:56] set with cause 2; an atomic, JOINDEC, WAITGEN, LDF, LDFE or STF does so at any misaligned address. The code tells
loads, atomics and waiting instructions from stores; memory, the registers and the items under way stay. -/
def Obligations.BadAddressTraps : Prop :=
  ∀ (s : State) (rd rs1 rs2 : Reg) (r4 : BitVec 4) (imm : BitVec 12) (o : Order) (c : Scope) (dbl : Bool),
    let trapped (a cause code : Nat) (t : State) : Prop :=
      t.me.pc = s.me.mtvec &&& ~~~3#64 ∧ t.me.mepc = s.me.pc &&& ~~~3#64 ∧
        t.me.mcause = BitVec.ofNat 64 (cause * 256 + code) ∧ t.me.mtval = BitVec.ofNat 64 a ∧
        t.me.x = s.me.x ∧ t.me.priv = .M ∧ t.mem = s.mem ∧ t.net = s.net
    let load (i : Instr) (a n : Nat) : Prop :=
      (routeOf a = .translated → a % n ≠ 0 → Ends i s (trapped a 13 4)) ∧ (2 ^ 56 ≤ a → Ends i s (trapped a 2 5))
    let store (i : Instr) (a n : Nat) : Prop :=
      (routeOf a = .translated → a % n ≠ 0 → Ends i s (trapped a 13 6)) ∧ (2 ^ 56 ≤ a → Ends i s (trapped a 2 7))
    let aligned (i : Instr) (a n bad : Nat) : Prop :=
      (a % n ≠ 0 → Ends i s (trapped a 13 bad)) ∧ (a % n = 0 → 2 ^ 56 ≤ a → Ends i s (trapped a 2 (bad + 1)))
    let e := baseAddr s rs1 imm
    let a := (s.rx rs1).toNat
    let w := if dbl then 8 else 4
    s.me.priv = .M → s.me.resp = none →
    (load (.lb rd rs1 imm) e 1 ∧ load (.lbu rd rs1 imm) e 1 ∧ load (.lh rd rs1 imm) e 2 ∧ load (.lhu rd rs1 imm) e 2 ∧
      load (.lw rd rs1 imm) e 4 ∧ load (.lwu rd rs1 imm) e 4 ∧ load (.ld rd rs1 imm) e 8) ∧
    (store (.sb rs2 rs1 imm) e 1 ∧ store (.sh rs2 rs1 imm) e 2 ∧ store (.sw rs2 rs1 imm) e 4 ∧ store (.sd rs2 rs1 imm) e 8) ∧
    (aligned (.amoadd o c dbl rd r4 rs1) a w 4 ∧ aligned (.amoand o c dbl rd r4 rs1) a w 4 ∧
      aligned (.amoor o c dbl rd r4 rs1) a w 4 ∧ aligned (.amoxor o c dbl rd r4 rs1) a w 4 ∧
      aligned (.amomin o c dbl rd r4 rs1) a w 4 ∧ aligned (.amomax o c dbl rd r4 rs1) a w 4 ∧
      aligned (.amominu o c dbl rd r4 rs1) a w 4 ∧ aligned (.amomaxu o c dbl rd r4 rs1) a w 4 ∧
      aligned (.amoswap o c dbl rd r4 rs1) a w 4 ∧ aligned (.amocas o c dbl rd r4 rs1) a w 4 ∧
      aligned (.amofadd o c dbl rd r4 rs1) a w 4) ∧
    aligned (.ldf rd rs1) a 8 4 ∧ aligned (.ldfe rd rs1) a 8 4 ∧ aligned (.joindec rd rs1) a 64 4 ∧
    ((s.rx rs2).toNat < 256 → aligned (.waitgen rd rs2 rs1) a 64 4) ∧ aligned (.stf rs2 rs1) a 8 6

/-! ### Control (spec/15_scalar.md R301-R312) -/

/-- R267, R301, R302, R308: jumps and branches go to a target that is a multiple of 4; a branch that is not taken goes on; a
jump or taken branch to any other target writes no register, and at M takes the trap of cause 13. -/
def Obligations.JumpBranchResults : Prop :=
  ∀ (s : State) (rd rs1 rs2 : Reg) (off : BitVec 20) (boff imm : BitVec 12),
    let link (t : State) : Prop := ∀ r : Reg, t.rx r = if r = 0 then 0 else if r = rd then s.me.pc + 4 else s.rx r
    let j := BitVec.ofInt 64 (s.me.pc.toInt + 2 * off.toInt)
    let r := BitVec.ofInt 64 ((s.rx rs1).toInt + imm.toInt) &&& ~~~1#64
    let a := s.rx rs1
    let b := s.rx rs2
    let target := BitVec.ofInt 64 (s.me.pc.toInt + 2 * boff.toInt)
    let goes (c : Bool) (t : State) : Prop := t.me.x = s.me.x ∧ if c then jumped s t target else Retired s t s.me
    let off4 (dest : Word) (t : State) : Prop :=
      t.me = { s.me with mepc := s.me.pc &&& ~~~3#64, mcause := BitVec.ofNat 64 (13 * 256), mtval := dest,
                         pc := s.me.mtvec &&& ~~~3#64, resp := none, beat := 0, rows := [], status := .running } ∧
        { t with threads := s.threads } = s
    let branch (i : Instr) (c : Bool) : Prop :=
      ((c = true → target.toNat % 4 = 0) → Ends i s (goes c)) ∧
        (c = true → target.toNat % 4 ≠ 0 → s.me.priv = .M → Ends i s (off4 target))
    (j.toNat % 4 = 0 → Ends (.jal rd off) s fun t => link t ∧ jumped s t j) ∧
    (r.toNat % 4 = 0 → Ends (.jalr rd rs1 imm) s fun t => link t ∧ jumped s t r) ∧
    (s.me.priv = .M → j.toNat % 4 ≠ 0 → Ends (.jal rd off) s (off4 j)) ∧
    (s.me.priv = .M → r.toNat % 4 ≠ 0 → Ends (.jalr rd rs1 imm) s (off4 r)) ∧
    branch (.beq rs1 rs2 boff) (a == b) ∧ branch (.bne rs1 rs2 boff) (a != b) ∧
    branch (.blt rs1 rs2 boff) (decide (a.toInt < b.toInt)) ∧ branch (.bge rs1 rs2 boff) (decide (b.toInt ≤ a.toInt)) ∧
    branch (.bltu rs1 rs2 boff) (decide (a.toNat < b.toNat)) ∧ branch (.bgeu rs1 rs2 boff) (decide (b.toNat ≤ a.toNat))

/-- R307, R308: LOOP and LOOPI set the loop registers; a count of 0 skips the body. -/
def Obligations.LoopResults : Prop :=
  ∀ (s : State) (rs1 : Reg) (count : BitVec 10) (last : BitVec 12),
    let pc := s.me.pc
    let e := pc + BitVec.ofNat 64 (4 * last.toNat)
    let started (n : Word) (t : State) : Prop :=
      t.me.lpstart = pc + 4 ∧ t.me.lpend = e ∧ t.me.x = s.me.x ∧ t.mem = s.mem ∧
        (n = 0 → t.me.pc = e + 4 ∧ t.me.lpcount = 0) ∧ (n ≠ 0 → 0 < last.toNat → t.me.pc = pc + 4 ∧ t.me.lpcount = n)
    Ends (.loop rs1 last) s (started (s.rx rs1)) ∧
    Ends (.loopi count last) s (started (count.setWidth 64))

/-- R223, R224, R268, R312, R390: ECALL, EBREAK and a word that is no instruction complete in every state: their own effect is
the machine trap at M and the end of the activation at U. At M mepc, mcause and mtval are written, the pc goes to mtvec, and
the thread stays at M. At U the thread's slot is free, a message is back in its channel with EN cleared, memory stays but for
a record on the host; where there is no activation nothing changes. -/
def Obligations.TrapAndAbortResults : Prop :=
  (∀ (s : State) (word : BitVec 32),
     let effect (cause : Nat) (a val : Word) : State :=
       match s.me.priv with
       | .M => s.setMe (s.me.trap cause .other val)
       | .U => s.abort s.cur cause a
     exec .ecall s = .next (effect 21 s.me.pc 0) ∧ exec .ebreak s = .next (effect 22 s.me.pc 0) ∧
     exec (.illegalInstruction word) s = .next (effect 1 0 (word.setWidth 64)) ∧
     (s.me.priv = .U → s.me.act = none → exec .ecall s = .next s ∧ exec .ebreak s = .next s ∧
       exec (.illegalInstruction word) s = .next s)) ∧
  (∀ (s : State) (word : BitVec 32),
     let trapped (cause code : Nat) (val : Word) (t : State) : Prop :=
       t.me = { s.me with mepc := s.me.pc &&& ~~~3#64, mcause := BitVec.ofNat 64 (cause * 256 + code), mtval := val,
                          pc := s.me.mtvec &&& ~~~3#64, resp := none, beat := 0, rows := [], status := .running } ∧
         (∀ h, h ≠ s.cur → t.thread h = s.thread h) ∧ { t with threads := s.threads } = s
     s.me.priv = .M →
     Ends .ecall s (trapped 21 11 0) ∧ Ends .ebreak s (trapped 22 3 0) ∧
     Ends (.illegalInstruction word) s (trapped 1 2 (word.setWidth 64))) ∧
  (∀ (s : State) (word : BitVec 32) (a : Activation),
     let aborted (t : State) : Prop :=
       (t.thread s.cur).act = none ∧ (t.thread s.cur).status = .free ∧ (t.thread s.cur).held = [] ∧
         (∀ k, Memory.read t.mem k = Memory.read s.mem k ∨ 2 ^ 64 ≤ k) ∧
         (∀ m, a.origin = .msg m → ((t.core (coreOf s.cur)).handler a.chan).en = false)
     s.me.priv = .U → s.me.act = some a → a.chan < 16 → MemWf s →
     Ends .ecall s aborted ∧ Ends .ebreak s aborted ∧ Ends (.illegalInstruction word) s aborted)

/-- R392, with R308 at its own retirement: MRET (0x3020_0073) at M sets the pc to mepc, stays at M and writes no register and
no CSR of its own; at U it is the illegal-instruction error of its word. -/
def Obligations.MretResults : Prop :=
  ∀ s : State,
    encode .mret = 0x30200073#32 ∧
    (s.me.priv = .M → Ends .mret s fun t =>
      t.me = { s.me with
        pc := if s.me.pc = s.me.lpend ∧ 1 < s.me.lpcount.toNat then s.me.lpstart else s.me.mepc,
        lpcount := nextCount s.me, retired := s.me.retired + 1, qret := s.me.qret + 1, resp := none, status := .running } ∧
      { t with threads := s.threads, instrs := s.instrs } = s ∧ ∀ h, h ≠ s.cur → t.thread h = s.thread h) ∧
    (s.me.priv = .U → exec .mret s = exec (.illegalInstruction 0x30200073#32) s)

/-! ### CSRs (spec/14_encoding.md, spec/15_scalar.md R310) -/

/-- R52, R286, R310: a CSR instruction on a CSR that its level may use writes the old value to X[rd] and the new one to the
CSR; CSRRS, CSRRC and their immediate forms with a zero source only read. In normal mode a read of cycle on a tile that does
not replay its log, and has room in it, gives the region's cycle count without the cycles in which the tile's partition was out
(log 87). -/
def Obligations.CsrInstructionResults : Prop :=
  (∀ (s : State) (rd rs1 : Reg) (csr : BitVec 12) (z : BitVec 5) (c : CsrInfo),
     let n := csr.toNat
     let old := s.readCsr n
     let x := s.rx rs1
     let u : Word := z.setWidth 64
     let wrote (v : Word) (t : State) : Prop := ScalarResult (s.writeCsr n v) t rd old
     csrInfo n = some c → ¬(c.m = true ∧ s.me.priv = .U) → (n = 0xC00 → s.det (s.partOfHart s.cur) = true) →
     (c.ro = false → Ends (.csrrw rd csr rs1) s (wrote x) ∧ Ends (.csrrwi rd csr z) s (wrote u) ∧
       (rs1 ≠ 0 → Ends (.csrrs rd csr rs1) s (wrote (old ||| x)) ∧ Ends (.csrrc rd csr rs1) s (wrote (old &&& ~~~x))) ∧
       (z ≠ 0 → Ends (.csrrsi rd csr z) s (wrote (old ||| u)) ∧ Ends (.csrrci rd csr z) s (wrote (old &&& ~~~u)))) ∧
     (rs1 = 0 → Gives (.csrrs rd csr rs1) s rd old ∧ Gives (.csrrc rd csr rs1) s rd old) ∧
     (z = 0 → Gives (.csrrsi rd csr z) s rd old ∧ Gives (.csrrci rd csr z) s rd old)) ∧
  (∀ (s : State) (rd : Reg),
     s.det (s.partOfHart s.cur) = false → (s.tile s.site).replaying = false → (s.tile s.site).ringFull = false →
     Ends (.csrrs rd 0xC00 0) s fun t =>
       SetsX s t rd (BitVec.ofInt 64 ((s.regionAt s.site).cycles - (s.tile s.site).cycleBase)) ∧ Noted s t ∧ t.full = s.full ∧
         ∃ x : Vector Word 32, Went s t { s.me with x := x, nCycle := s.me.nCycle + 1 })

/-- R120, R147, R258-R260, R286, R306, R335, R391, R393: what each writable CSR reads after a write of `v`. A CSR number the
part does not implement, an M-level CSR at U, and a write of a read-only CSR are the illegal-instruction error, with the word
as its value. -/
def Obligations.CsrRulesResults : Prop :=
  (∀ (s : State) (v : Word),
     let r (n : Nat) : Word := (s.writeCsr n v).readCsr n
     r 0x305 = v &&& ~~~3#64 ∧ r 0x340 = v ∧ r 0x341 = v &&& ~~~3#64 ∧ r 0x342 = v &&& 0xFFFF#64 ∧ r 0x343 = v ∧
     r 0x8C1 = v &&& 0x1FFFF#64 ∧ (v.toNat % 8 ≤ 4 → r 0x8C2 = v &&& 7#64) ∧
     (4 < v.toNat % 8 → r 0x8C2 = s.readCsr 0x8C2) ∧ r 0x8C3 = v ∧ r 0x8C4 = v &&& 0xFFFFFFFF#64 ∧
     r 0x8C5 = v &&& 0xFF#64 ∧ r 0x8C6 = v &&& ~~~3#64 ∧ r 0x8C7 = v &&& ~~~3#64 ∧ r 0x8C8 = v ∧
     (s.me.priv = .U → r 0x8C0 =
       if v.toNat % 2 ^ 27 ≤ s.me.budget.toNat then v &&& 0x7FFFFFF#64 else s.me.budget.setWidth 64) ∧
     (s.me.priv = .M → r 0x8C0 = 0)) ∧
  (∀ (s : State) (rd rs1 : Reg) (csr : BitVec 12) (z : BitVec 5),
     let bad (i : Instr) : Prop := exec i s = exec (.illegalInstruction (encode i)) s
     let c := csrInfo csr.toNat
     ((c = none ∨ ∃ x, c = some x ∧ x.m = true ∧ s.me.priv = .U) →
       bad (.csrrw rd csr rs1) ∧ bad (.csrrs rd csr rs1) ∧ bad (.csrrc rd csr rs1) ∧ bad (.csrrwi rd csr z) ∧
         bad (.csrrsi rd csr z) ∧ bad (.csrrci rd csr z)) ∧
     ((∃ x, c = some x ∧ x.ro = true) →
       bad (.csrrw rd csr rs1) ∧ bad (.csrrwi rd csr z) ∧
         (rs1 ≠ 0 → bad (.csrrs rd csr rs1) ∧ bad (.csrrc rd csr rs1)) ∧
         (z ≠ 0 → bad (.csrrsi rd csr z) ∧ bad (.csrrci rd csr z))))

/-! ### Messages and tasks (spec/16_messages.md) -/

/-- R315, R316, R317: with fewer than four sends waiting, SEND and SENDC issue one message to a thread rank and SEND.G one to
each member of the group, all with the thread's next sequence number; nothing but the thread, SENT and the items changes. -/
def Obligations.SendIssuesMessages : Prop :=
  ∀ (s : State) (rs1 rs2 : Reg) (drank chan ninsn g k : Nat) (d : List Nat),
    let sent (t : State) : Prop := Went s t { s.me with seq := s.me.seq + 1 } ∧ Quiet s t ∧ t.mem = s.mem ∧
      ∀ x, x ≠ s.site → t.tile x = s.tile x
    drank < 2 ^ 18 → chan < 16 → s.waitingSends s.cur < 4 →
    (s.rx rs1 = BitVec.ofNat 64 (drank + chan * 2 ^ 20) →
      Ends (.send rs1) s fun t => sent t ∧
        ∃ i : Item, t.net = s.net ++ [i] ∧ IsMessage s i 0 0 drank chan s.me.payload none) ∧
    (1 ≤ ninsn → ninsn ≤ 16 → s.rx rs1 = BitVec.ofNat 64 (drank + chan * 2 ^ 20 + ninsn * 2 ^ 40) →
      BlockAt s (s.rx rs2) k →
      Ends (.sendc rs1 rs2) s fun t => sent t ∧
        ∃ i : Item, t.net = s.net ++ [i] ∧ IsMessage s i 1 ninsn drank chan (s.words8 k) none) ∧
    (g < 256 → s.rx rs1 = BitVec.ofNat 64 (g + chan * 2 ^ 20) → s.ownGroup g = some d →
      Ends (.sendG rs1) s fun t => sent t ∧
        ∃ is : List Item, t.net = s.net ++ is ∧ is.length = d.length ∧
          ∀ j, ∀ h : j < is.length, IsMessage s is[j] 0 0 (d.getD j 0 * 8) chan s.me.payload none)

/-- R149, R316, R318: SEND.S and SEND.GS put a send into the hold buffer and issue nothing; ABORT empties it. COMMIT of an empty
buffer retires; with four sends waiting it waits; else it issues the oldest held send as SEND or SEND.G does, each with a sequence
number of its own, and goes on as a COMMIT of the others. -/
def Obligations.HeldSendResults : Prop :=
  ∀ (s : State) (rs1 : Reg) (drank chan g : Nat) (d : List Nat) (p : Vector Word 8) (rest : List HeldSend),
    let issued (u : State) : Prop :=
      u.me = { s.me with seq := s.me.seq + 1, held := rest } ∧ (∀ h, h ≠ s.cur → u.thread h = s.thread h) ∧
        Quiet s u ∧ u.instrs = s.instrs ∧ exec .commit s = exec .commit u
    let word := BitVec.ofNat 64 (drank + chan * 2 ^ 20)
    let held (x : HeldSend) (t : State) : Prop := Retired s t { s.me with held := s.me.held ++ [x] }
    drank < 2 ^ 18 → chan < 16 →
    (s.rx rs1 = word → s.me.held.length < 8 →
      Ends (.sendS rs1) s (held { dest := word, group := false, payload := s.me.payload })) ∧
    (g < 256 → s.rx rs1 = BitVec.ofNat 64 (g + chan * 2 ^ 20) → s.ownGroup g = some d → s.me.held.length < 8 →
      Ends (.sendGs rs1) s (held { dest := s.rx rs1, group := true, payload := s.me.payload })) ∧
    Ends .abort s (fun t => Retired s t { s.me with held := [] }) ∧
    (s.me.held = [] → Ends .commit s fun t => Retired s t s.me) ∧
    (s.me.held ≠ [] → 4 ≤ s.waitingSends s.cur → Ends .commit s fun t => Waits s t .retry) ∧
    (s.waitingSends s.cur < 4 →
      (s.me.held = { dest := word, group := false, payload := p } :: rest →
        ∃ u, issued u ∧ ∃ i : Item, u.net = s.net ++ [i] ∧ IsMessage s i 0 0 drank chan p none) ∧
      (g < 256 → s.ownGroup g = some d →
        s.me.held = { dest := BitVec.ofNat 64 (g + chan * 2 ^ 20), group := true, payload := p } :: rest →
        ∃ u, issued u ∧ ∃ is : List Item, u.net = s.net ++ is ∧ is.length = d.length ∧
          ∀ j, ∀ h : j < is.length, IsMessage s is[j] 0 0 (d.getD j 0 * 8) chan p none)) ∧
    (s.me.held = [{ dest := word, group := false, payload := p }] → s.waitingSends s.cur < 4 →
      Ends .commit s fun t => Went s t { s.me with seq := s.me.seq + 1, held := [] } ∧ Quiet s t ∧
        ∃ i : Item, t.net = s.net ++ [i] ∧ IsMessage s i 0 0 drank chan p none)

/-- R141, R145, R146, R319: SPAWN onto the own deque pushes the frame, writes its 80 bytes at its place and gives 0 while the
deque takes one more, else gives 1 and changes nothing; onto another core it sends the frame and waits for the answer. Which
place of the deque a frame takes is the model's choice (log 94). -/
def Obligations.SpawnResults : Prop :=
  ∀ (s : State) (rd rs1 rs2 : Reg) (key : Nat) (r : Resp),
    let h := s.rx rs1
    let c := s.core (coreOf s.cur)
    let f : Frame := { haddr := h, budlog := (s.me.act.map (·.budlog)).getD 0, job := s.jobOf s.cur,
                       seq := (s.me.seq + 1).toNat, sdev := s.dev, pusher := s.srank s.cur, payload := s.me.payload }
    let place := (c.frameAt (coreOf s.cur) c.frameSlot).bind fun a => s.localKey (coreOf s.cur / 4) a 80
    h.toNat % 4 = 0 → h.toNat < 2 ^ 48 →
    (s.openAccess s.cur = false → c.deque.length < min c.spawnlim.toNat c.dqCap →
      Ends (.spawn rd rs1 0) s fun t => SetsX s t rd 0 ∧ t.net = s.net ∧
        (place = none → t.mem = s.mem) ∧
        (∀ k, place = some k → MemWf s → Stored s t k { f with slot := c.frameSlot }.bytes) ∧
        t.cores = SMap.put s.cores (coreOf s.cur) { c with deque := c.deque ++ [{ f with slot := c.frameSlot }] } ∧
        ∃ x : Vector Word 32, Went s t { s.me with x := x, seq := s.me.seq + 1 }) ∧
    (s.openAccess s.cur = false → min c.spawnlim.toNat c.dqCap ≤ c.deque.length → Gives (.spawn rd rs1 0) s rd 1) ∧
    (rs2 ≠ 0 → (s.rx rs2).toNat < 2 ^ 15 → s.coreKey (s.partOfHart s.cur) (s.rx rs2).toNat = some key →
      key ≠ coreOf s.cur →
      (s.me.resp = none → Ends (.spawn rd rs1 rs2) s fun t =>
        t.me.status = .blocked .spawn ∧ t.me.x = s.me.x ∧ t.me.seq = s.me.seq ∧ Quiet s t ∧
          ∃ i : Item, t.net = s.net ++ [i] ∧ i.dst = .core (s.rx rs2).toNat ∧ i.release = true ∧ i.body = .frame f s.cur) ∧
      (s.me.resp = some r → r.value = 0 → Ends (.spawn rd rs1 rs2) s fun t => SetsX s t rd 0 ∧ Quiet s t ∧
        ∃ x : Vector Word 32, Went s t { s.me with x := x, seq := s.me.seq + 1 }) ∧
      (s.me.resp = some r → r.value ≠ 0 → Gives (.spawn rd rs1 rs2) s rd 1))

/-- R148, R320: JOINDEC on a record in the own scratchpad decrements COUNT and returns it; at 0 it returns all ones and
changes nothing; the decrement to 0 sends the continuation with the JOINDEC's sequence number. -/
def Obligations.JoindecResults : Prop :=
  ∀ (s : State) (rd rs1 : Reg) (k : Nat),
    let a := (s.rx rs1).toNat
    let word := s.num k 8
    let count := word % 2 ^ 32
    s.me.resp = none → MemWf s → a % 64 = 0 → a + 128 ≤ Config.sysArea → s.localAcc s.site .write a 8 = some k →
    s.openAccess s.cur = false → (s.tile s.site).replaying = false → (s.tile s.site).ringFull = false →
    Ends (.joindec rd rs1) s fun t =>
      SetsX s t rd (if count = 0 then BitVec.allOnes 64 else BitVec.ofNat 64 (count - 1)) ∧
      Stored s t k (bytesOf 8 (if count = 0 then word else word - 1)) ∧
      (∃ x : Vector Word 32, Went s t { s.me with x := x, seq := s.me.seq + 1, nAtomic := s.me.nAtomic + 1 }) ∧
      (count ≠ 1 → t.net = s.net) ∧
      (count = 1 → ∃ (i : Item) (m : Msg), t.net = s.net ++ [i] ∧ i.body = .message m ∧ m.hdr.kind = 0 ∧
        m.hdr.drank = bitsN word 49 32 ∧ m.hdr.chan = bitsN word 53 50 ∧ m.hdr.seq = (s.me.seq + 1).toNat ∧
        m.hdr.srank = s.srank s.cur ∧ m.payload = s.words8 (k + 64) ∧ i.dst = .core (bitsN word 49 32 / 8))

/-- R91, R134, R150, R321, R322: LAUNCH writes the 64 bytes as one packet, with VALID set and the activation's JOB, into the
device queue of its control tile, which holds 64; in deterministic mode the packet waits for the quantum end. DONE with no held
sends frees the thread's slot and the starting message's queue entry, into which the oldest spilled message moves; no other
byte of memory changes, and items under way stay. -/
def Obligations.LaunchDoneResults : Prop :=
  (∀ (s : State) (rs1 : Reg) (k : Nat),
     let p := s.partOfHart s.cur
     let key := s.devQueueOf p s.cur
     let d := SMap.get DevQueue.init s.devq key
     let pk := launchPacketOf (s.words8 k) (s.jobOf s.cur)
     let q := (s.me.seq + 1).toNat
     BlockAt s (s.rx rs1) k → s.openAccess s.cur = false →
     d.slots.length + (s.net.filter fun i => i.part == p && s.devQueueOf p i.src == key &&
       (match i.body with | .packet _ => true | _ => false)).length < 64 →
     ((vget 0 pk 0).getLsbD 0 = true ∧ bitsN (vget 0 pk 0).toNat 47 32 = s.jobOf s.cur % 2 ^ 16 ∧
       ∀ j, 1 ≤ j → vget 0 pk j = vget 0 (s.words8 k) j) ∧
     Ends (.launch rs1) s fun t =>
       Went s t { s.me with seq := s.me.seq + 1 } ∧ t.mem = s.mem ∧ t.cores = s.cores ∧ t.tiles = s.tiles ∧
       (s.det p = false → t.net = s.net ∧
         t.devq = SMap.put s.devq key (d.add pk (msgId s.dev (s.srank s.cur) q) s.cur (s.chanOf s.cur) (s.srank s.cur) q)) ∧
       (s.det p = true → t.devq = s.devq ∧ ∃ i : Item, t.net = s.net ++ [i] ∧ i.body = .packet pk ∧ i.dst = .root p ∧
         i.stage = .collected)) ∧
  (∀ (s : State) (a : Activation),
     let c := s.core (coreOf s.cur)
     let old := c.chan a.chan
     s.me.act = some a → s.me.held = [] → a.chan < 16 →
     Ends .done s fun t =>
       t.me.act = none ∧ t.me.status = .free ∧ t.me.held = [] ∧ t.me.seq = s.me.seq ∧ t.net = s.net ∧
       t.tiles = s.tiles ∧ (∀ h, h ≠ s.cur → t.thread h = s.thread h) ∧
       (∀ f, a.origin = .frame f → t.cores = s.cores ∧ t.mem = s.mem) ∧
       (∀ m, a.origin = .msg m → (t.core (coreOf s.cur)).chan a.chan = old.drop m.arr ∧
         (old.spill = [] → t.mem = s.mem) ∧
         (∀ e k, MemWf s → old.spill ≠ [] → (old.drop m.arr).queue.getLast? = some e →
           s.localKey (coreOf s.cur / 4) (c.entryAt (coreOf s.cur) a.chan e.1.slot false) 80 = some k →
           Stored s t k e.1.bytes)))

/-! ### Synchronisation and atomics -/

/-- R210, R213, R323, R324: SYNC retires at once unless its order waits for accesses of the thread that are not performed;
then it waits. BAR counts one arrival of the issuing core for its next instance of the group, which leaves as a release, and
blocks the thread; released, it retires. -/
def Obligations.SyncBarrierResults : Prop :=
  (∀ (s : State) (o : Order) (c : Scope),
     (Order.releases o = false ∨ s.openAccess s.cur = false → Ends (.sync o c) s fun t => Retired s t s.me) ∧
     (Order.releases o = true → s.openAccess s.cur = true → Ends (.sync o c) s fun t => Waits s t .retry)) ∧
  (∀ (s : State) (rs1 : Reg) (d : List Nat) (r : Resp),
     let x := (s.rx rs1).toNat
     let c := s.core (coreOf s.cur)
     let n := SMap.get 0 c.barCount x
     (x < 256 → s.ownGroup x = some d → s.me.resp = none → Ends (.bar rs1) s fun t =>
       t.me = { s.me with status := .blocked (.barrier x n) } ∧ t.mem = s.mem ∧
         t.cores = SMap.put s.cores (coreOf s.cur) { c with barCount := SMap.put c.barCount x (n + 1) } ∧
         ∃ i : Item, t.net = s.net ++ [i] ∧ i.dst = .tile ((d.head?.getD 0) / 4) ∧ i.release = true ∧
           i.body = .barrier (s.partOfHart s.cur) x n (s.logCore (coreOf s.cur))) ∧
     (s.me.resp = some r → Ends (.bar rs1) s fun t => Retired s t s.me))

/-- R194, R240, R325-R328: WAITGEN, LDF, LDFE and STF on a word of the own memory: the value, the full-empty bit, and the wait, which
stands at the home until its condition holds (`State.settled` ends it). On a tile that replays its log a waiting instruction waits
for its record there; with no room in the log it is issued again. An
atomic on the own memory stores f(old, v) and gives the old value, sign-extended; CAS stores only where the old value equals
X[rd]. -/
def Obligations.LocalSynchronisationResults : Prop :=
  (∀ (s : State) (rd rs1 rs2 : Reg) (k : Nat),
     let a := (s.rx rs1).toNat
     let word := BitVec.ofNat 64 (s.num k 8)
     let old := (s.tile s.site).replaying
     let full := (s.tile s.site).ringFull
     let gets (i : Instr) (bits : List Nat) : Prop :=
       (old = false → full = false → Ends i s fun t =>
         SetsX s t rd word ∧ Noted s t ∧ t.full = bits ∧ ∃ x : Vector Word 32, Went s t { s.me with x := x }) ∧
       (old = false → full = true → Ends i s fun t => Waits s t .retry)
     let waits (i : Instr) (op : RetOp) (home : Nat) : Prop := Ends i s fun t =>
       t.mem = s.mem ∧ t.full = s.full ∧ t.tiles = s.tiles ∧ (∀ h, h ≠ s.cur → t.thread h = s.thread h) ∧
         ∃ i : Item, t.net = s.net ++ [i] ∧ i.src = s.cur ∧ i.dst = .site home ∧ i.body = .ret op ∧ i.stage = .held 0 ∧
           t.me = { s.me with status := .blocked .response, req := i.ord + 1 }
     s.me.resp = none →
     (a % 64 = 0 → a + 128 ≤ Config.sysArea → (s.rx rs2).toNat < 256 → LocalAt s .read a 8 k →
       (s.num k 1 ≠ (s.rx rs2).toNat → gets (.waitgen rd rs2 rs1) s.full) ∧
       (s.num k 1 = (s.rx rs2).toNat ∨ old = true → waits (.waitgen rd rs2 rs1) (.waitgen k (s.rx rs2).toNat) s.site)) ∧
     (a % 8 = 0 → LocalAt s .read a 8 k →
       (s.isFull k = true → gets (.ldf rd rs1) s.full) ∧
       (s.isFull k = false ∨ old = true → waits (.ldf rd rs1) (.ldf k) (s.holder a))) ∧
     (a % 8 = 0 → LocalAt s .write a 8 k →
       (s.isFull k = true → gets (.ldfe rd rs1) (s.setEmpty k 8).full) ∧
       (s.isFull k = false ∨ old = true → waits (.ldfe rd rs1) (.ldfe k) (s.holder a)) ∧
       (MemWf s → s.atHome a = false → s.openAccess s.cur = false →
         Ends (.stf rs2 rs1) s fun t => Stored s t k (bytesOf 8 (s.rx rs2).toNat) ∧ Went s t s.me ∧
           t.full = (s.setFull k 8).full ∧ t.net = s.net ∧ t.tiles = s.tiles)) ∧
     (a % 8 = 0 → routeOf a = .translated → Ends (.stf rs2 rs1) s fun t =>
       Went s t { s.me with seq := s.me.seq + 1 } ∧ Quiet s t ∧
         ∃ i : Item, t.net = s.net ++ [i] ∧ i.dst = homeOf a ∧ i.release = true ∧
           i.body = .store a (bytesOf 8 (s.rx rs2).toNat) true)) ∧
  (∀ (s : State) (o : Order) (c : Scope) (dbl : Bool) (rd rs1 : Reg) (rs2 : BitVec 4) (k : Nat),
     let w := if dbl then 8 else 4
     let a := (s.rx rs1).toNat
     let old := s.num k w
     let v := (s.rx (rs2.setWidth 5)).toNat % 2 ^ (8 * w)
     let cmp := (s.rx rd).toNat % 2 ^ (8 * w)
     let sg (x : Nat) : Int := sval (8 * w) x
     let done (new : Nat) (t : State) : Prop :=
       SetsX s t rd (sext (8 * w) old) ∧ Stored s t k (bytesOf w new) ∧ t.full = s.full ∧ t.net = s.net ∧
         t.cores = s.cores ∧ ∃ x : Vector Word 32, Went s t { s.me with x := x, nAtomic := s.me.nAtomic + 1 }
     s.me.resp = none → MemWf s → a % w = 0 → LocalAt s .write a w k → s.openAccess s.cur = false →
     (s.tile s.site).replaying = false → (s.tile s.site).ringFull = false →
     Ends (.amoadd o c dbl rd rs2 rs1) s (done ((old + v) % 2 ^ (8 * w))) ∧
     Ends (.amoand o c dbl rd rs2 rs1) s (done (old &&& v)) ∧
     Ends (.amoor o c dbl rd rs2 rs1) s (done (old ||| v)) ∧
     Ends (.amoxor o c dbl rd rs2 rs1) s (done (old ^^^ v)) ∧
     Ends (.amomin o c dbl rd rs2 rs1) s (done (if sg v < sg old then v else old)) ∧
     Ends (.amomax o c dbl rd rs2 rs1) s (done (if sg old < sg v then v else old)) ∧
     Ends (.amominu o c dbl rd rs2 rs1) s (done (Min.min old v)) ∧
     Ends (.amomaxu o c dbl rd rs2 rs1) s (done (Max.max old v)) ∧
     Ends (.amoswap o c dbl rd rs2 rs1) s (done v) ∧
     Ends (.amocas o c dbl rd rs2 rs1) s (done (if old = cmp then v else old)) ∧
     Ends (.amofadd o c dbl rd rs2 rs1) s (done (if dbl then
       addF32 (old % 2 ^ 32) (v % 2 ^ 32) + addF32 (old / 2 ^ 32) (v / 2 ^ 32) * 2 ^ 32 else addF32 old v)))

/-- R218, R222, R320, R325-R328: on a translated address the returning instructions send one operation to the home and wait
for the response; once it has come, the instruction completes with its value. -/
def Obligations.ReturningOperationResults : Prop :=
  (∀ (s : State) (o : Order) (c : Scope) (dbl : Bool) (rd rs1 rs2 : Reg) (r4 : BitVec 4),
     let a := (s.rx rs1).toNat
     let w := if dbl then 8 else 4
     let v := (s.rx (r4.setWidth 5)).toNat % 2 ^ (8 * w)
     let cmp := (s.rx rd).toNat % 2 ^ (8 * w)
     let amo (i : Instr) (op : AmoOp) : Prop := Ends i s fun t => Asked s t (.amo op a w v cmp) (Order.releases o)
     s.me.resp = none → routeOf a = .translated →
     (a % w = 0 → amo (.amoadd o c dbl rd r4 rs1) .add ∧ amo (.amoand o c dbl rd r4 rs1) .and ∧
       amo (.amoor o c dbl rd r4 rs1) .or ∧ amo (.amoxor o c dbl rd r4 rs1) .xor ∧
       amo (.amomin o c dbl rd r4 rs1) .min ∧ amo (.amomax o c dbl rd r4 rs1) .max ∧
       amo (.amominu o c dbl rd r4 rs1) .minu ∧ amo (.amomaxu o c dbl rd r4 rs1) .maxu ∧
       amo (.amoswap o c dbl rd r4 rs1) .swap ∧ amo (.amocas o c dbl rd r4 rs1) .cas ∧
       amo (.amofadd o c dbl rd r4 rs1) .fadd) ∧
     (a % 8 = 0 → Ends (.ldf rd rs1) s (fun t => Asked s t (.ldf a) false) ∧
       Ends (.ldfe rd rs1) s (fun t => Asked s t (.ldfe a) false)) ∧
     (a % 64 = 0 → Ends (.joindec rd rs1) s fun t => Asked s t (.joindec a) true) ∧
     (a % 64 = 0 → (s.rx rs2).toNat < 256 →
       Ends (.waitgen rd rs2 rs1) s fun t => Asked s t (.waitgen a (s.rx rs2).toNat) false)) ∧
  (∀ (s : State) (o : Order) (c : Scope) (dbl : Bool) (rd rs1 rs2 : Reg) (r4 : BitVec 4) (r : Resp),
     let gets (i : Instr) : Prop := Gives i s rd r.value
     s.me.resp = some r →
     gets (.amoadd o c dbl rd r4 rs1) ∧ gets (.amoand o c dbl rd r4 rs1) ∧ gets (.amoor o c dbl rd r4 rs1) ∧
     gets (.amoxor o c dbl rd r4 rs1) ∧ gets (.amomin o c dbl rd r4 rs1) ∧ gets (.amomax o c dbl rd r4 rs1) ∧
     gets (.amominu o c dbl rd r4 rs1) ∧ gets (.amomaxu o c dbl rd r4 rs1) ∧ gets (.amoswap o c dbl rd r4 rs1) ∧
     gets (.amocas o c dbl rd r4 rs1) ∧ gets (.amofadd o c dbl rd r4 rs1) ∧ gets (.ldf rd rs1) ∧ gets (.ldfe rd rs1) ∧
     gets (.joindec rd rs1) ∧ gets (.waitgen rd rs2 rs1))

/-- R192, R329-R331: CAPTEST reports a slot; HANDOVER and CAPDROP empty it and, with no write under the capability
outstanding, send it to the destination or back to its region entry; with one outstanding the message or notice stands and the
thread waits until it is performed. An empty slot makes CAPDROP do nothing. -/
def Obligations.CapabilityResults : Prop :=
  ∀ (s : State) (rd rs1 : Reg) (n : BitVec 2) (drank chan : Nat) (c : Cap),
    let core := s.core (coreOf s.cur)
    let emptied := SMap.put s.cores (coreOf s.cur) { core with caps := vset core.caps n.toNat none }
    let word := BitVec.ofNat 64 (drank + chan * 2 ^ 20)
    let handed (t : State) : Prop := t.cores = emptied ∧ t.mem = s.mem ∧
      ∃ i : Item, t.net = s.net ++ [i] ∧ IsMessage s i 0 0 drank chan s.me.payload (some c)
    (s.slot n = none → Gives (.captest rd n) s rd 0 ∧ Gives (.captestId rd n) s rd 0) ∧
    (s.slot n = some c →
      Gives (.captest rd n) s rd (BitVec.ofNat 64 (2 ^ 63 + c.base / 2 ^ 16 % 2 ^ 40 * 2 ^ 16 + c.szlog)) ∧
      Gives (.captestId rd n) s rd (BitVec.ofNat 64 (2 ^ 63 + c.rid * 2 ^ 16 + c.gen))) ∧
    (s.me.status = .running → s.slot n = none → Ends (.capdrop n) s fun t => Retired s t s.me) ∧
    (s.me.status = .running → s.slot n = some c → s.writesUnder c = true →
      Ends (.capdrop n) s fun t => t.me = { s.me with status := .blocked (.capdrop c) } ∧ t.cores = emptied ∧ t.mem = s.mem ∧
        ∃ i : Item, t.net = s.net ++ [i] ∧ i.body = .capReturn (s.partOfHart s.cur) c) ∧
    (s.me.status = .running → s.slot n = some c → s.writesUnder c = false →
      (Ends (.capdrop n) s fun t => Went s t s.me ∧ t.cores = emptied ∧ t.mem = s.mem ∧
        ∃ i : Item, t.net = s.net ++ [i] ∧ i.body = .capReturn (s.partOfHart s.cur) c) ∧
      (drank < 2 ^ 18 → chan < 16 → s.rx rs1 = word → s.waitingSends s.cur < 4 →
        Ends (.handover rs1 n) s fun t => Went s t { s.me with seq := s.me.seq + 1 } ∧ handed t)) ∧
    (s.me.status = .running → s.slot n = some c → s.writesUnder c = true → drank < 2 ^ 18 → chan < 16 → s.rx rs1 = word →
      s.waitingSends s.cur < 4 → Ends (.handover rs1 n) s fun t =>
        t.me = { s.me with seq := s.me.seq + 1, status := .blocked (.handover c) } ∧ handed t) ∧
    (s.me.status = .blocked (.handover c) →
      (s.writesUnder c = true → Ends (.handover rs1 n) s fun t => Waits s t (.handover c)) ∧
      (s.writesUnder c = false → Ends (.handover rs1 n) s fun t => Retired s t s.me)) ∧
    (s.me.status = .blocked (.capdrop c) →
      (s.writesUnder c = true → Ends (.capdrop n) s fun t => Waits s t (.capdrop c)) ∧
      (s.writesUnder c = false → Ends (.capdrop n) s fun t => Retired s t s.me))

/-! ### Expert queues, engines and system instructions (spec/16_messages.md, spec/18_matrix.md, spec/19_system.md) -/

/-- R144, R154, R167, R379-R381: EQPUSH, EQFIRE and EQDONE take one sequence number and post one item to the queue's home tile;
with four sends or pushes waiting EQPUSH waits too. EQSTAT asks the home and completes with the status word. -/
def Obligations.ExpertQueueItems : Prop :=
  ∀ (s : State) (rd rs1 rs2 : Reg) (k : Nat) (r : Resp),
    let a := (s.rx rs1).toNat
    let x := (s.rx rs2).toNat
    let bs := Memory.readN s.mem k 32
    let posted (q : Nat) (release : Bool) (b : Body) (t : State) : Prop :=
      Went s t { s.me with seq := s.me.seq + 1 } ∧ Quiet s t ∧
        ∃ i : Item, t.net = s.net ++ [i] ∧ i.src = s.cur ∧ i.dst = .tile (q / 64) ∧ i.release = release ∧ i.body = b ∧
          i.seq = (s.me.seq + 1).toNat
    (a % 32 = 0 → LocalAt s .read a 32 k → x < 2 ^ 32 → (bs.getD 28 0).toNat ≤ 7 → bs.getD 29 0 = 0 → bs.getD 30 0 = 0 →
      bs.getD 31 0 = 0 → bs.getD 23 0 = 0 →
      (s.waitingSends s.cur < 4 → Ends (.eqpush rs2 rs1) s (posted x true (.push x bs))) ∧
      (4 ≤ s.waitingSends s.cur → Ends (.eqpush rs2 rs1) s fun t => Waits s t .retry)) ∧
    (a < 2 ^ 32 → Ends (.eqfire rs1) s (posted a false (.eqfire a))) ∧
    (a < 2 ^ 32 → x < 2 ^ 32 → Ends (.eqdone rs1 rs2) s (posted a true (.eqdone a x))) ∧
    (a < 2 ^ 32 → s.me.resp = none → Ends (.eqstat rd rs1) s fun t =>
      t.me.status = .blocked .response ∧ t.me.x = s.me.x ∧ t.me.seq = s.me.seq ∧ Quiet s t ∧
        ∃ i : Item, t.net = s.net ++ [i] ∧ i.dst = .tile (a / 64) ∧ i.body = .ret (.eqstat a)) ∧
    (s.me.resp = some r → Gives (.eqstat rd rs1) s rd r.value)

/-- R375, R376: COPY, RDBLK, WRBLK and WRBLK.DEP with a descriptor that passes the checks take the first free copy channel,
return the tile's next copy tag and change nothing of memory; with every channel busy they wait. -/
def Obligations.TransferIssueResults : Prop :=
  ∀ (s : State) (op : XferOp) (rd rs1 : Reg) (k : Nat) (sf df : AddrForm),
    let i : Instr := match op with
      | .copy => .copy rd rs1 | .rdblk => .rdblk rd rs1 | .wrblk => .wrblk rd rs1 | .deposit => .wrblkDep rd rs1
    let w := s.words8 k
    let mc := bitsN (vget 0 w 5).toNat 24 24 == 1
    let x := s.xferOf op w (if mc then s.groupTiles (s.partOfHart s.cur) (bitsN (vget 0 w 5).toNat 23 16) else [])
    let tag := ((s.tile s.site).ctag + 1) % 2 ^ 32
    let seq := if op = .copy then s.me.seq else s.me.seq + 1
    BlockAt s (s.rx rs1) k → xferBitsOk op w = true → formOf x.src = some sf → formOf x.dst = some df →
    (x.arr ≠ 0 → (formOf x.arr).isSome = true) → xferOk x sf df mc = true → xferAligned op x.src x.dst x.len = true →
    s.xferRefused x sf df = none →
    (∀ ch < 4, (∀ j < ch, (vget none (s.tile s.site).xfers j).isSome = true) → vget none (s.tile s.site).xfers ch = none →
      Ends i s fun t =>
        SetsX s t rd (BitVec.ofNat 64 tag) ∧ t.mem = s.mem ∧ t.net = s.net ∧ t.full = s.full ∧ t.cores = s.cores ∧
        (∃ v : Vector Word 32, Went s t { s.me with x := v, seq := seq, lastCmd := some { eng := op.eng, site := s.site, tag := tag } }) ∧
        (t.tile s.site).ctag = tag ∧
        vget none (t.tile s.site).xfers ch =
          some { x with tag := tag, seq := if op = .copy then 0 else (s.me.seq + 1).toNat,
                        key := if op = .copy then s.placeKey else (s.me.seq + 1).toNat } ∧
        ∀ j, j ≠ ch → vget none (t.tile s.site).xfers j = vget none (s.tile s.site).xfers j) ∧
    ((∀ j < 4, (vget none (s.tile s.site).xfers j).isSome = true) → Ends i s fun t => Waits s t .retry)

/-- R359, R363, R367, R368, R373: MMA, ACCWR, ACCZERO, ACCSPILL and ACCFILL append one entry with the next tag to the tile's
engine queue and return the tag; with 16 entries they wait. That the running entry counts among the 16 is the model's choice
(log 47). MCMD sends its command to the tile it names with one sequence number, as a release; FMMA gives the command a tag of the
issuer's tile and hands it to the floe, where it waits behind a running one; one that the floe has accepted from the same place of
the thread before takes a tag and is dropped (R245, log 47). -/
def Obligations.MatrixQueueResults : Prop :=
  (∀ (s : State) (st dc z : Bool) (rd : Reg) (acc : BitVec 3) (rs1 rs2 : Reg) (k first count : Nat),
     let tile := s.tile s.site
     let tag := (tile.mtag + 1) % 2 ^ 32
     let load := tile.mqueue.length + (if tile.mrun.isSome then 1 else 0)
     let d := matDescOf (s.words8 k)
     let a := s.rx rs1
     let koff := (s.rx rs2).toNat
     let queued (i : Instr) (eng : Nat) (c : MatCmd) : Prop :=
       (load < 16 → Ends i s fun t =>
         SetsX s t rd (BitVec.ofNat 64 tag) ∧ t.mem = s.mem ∧ t.net = s.net ∧
         t.tiles = SMap.put s.tiles s.site { tile with mtag := tag, mqueue := tile.mqueue ++ [{ c with tag := tag }] } ∧
         ∃ x : Vector Word 32, Went s t { s.me with x := x, lastCmd := some { eng := eng, site := s.site, tag := tag } }) ∧
       (16 ≤ load → Ends i s fun t => Waits s t .retry)
     (BlockAt s a k → matDescOk (s.words8 k) d st koff = true → d.xtra = 0 → d.aligned st = true →
       s.badLocal .read (d.reads d.mrow d.ncol) = none → (st = true → s.badLocal .write (d.writes d.mrow d.ncol) = none) →
       queued (.mma st dc z rd acc rs1 rs2) 1 (s.matCmd .mma acc st dc z koff d a)) ∧
     queued (.acczero rd acc) 4 (s.matCmd .acczero acc false false false 0 MatDesc.none 0) ∧
     (1 ≤ count → first + count ≤ 64 → s.rx rs2 = BitVec.ofNat 64 (first + count * 256) → a.toNat % 64 = 0 →
       routeOf a.toNat = .localWin → (s.localAcc s.site .read a.toNat (192 * count)).isSome = true →
       queued (.accwr rd acc rs1 rs2) 4 (s.matCmd (.accwr a.toNat first count) acc false false false 0 MatDesc.none 0)) ∧
     (a.toNat % 64 = 0 → routeOf a.toNat = .translated ∨ (routeOf a.toNat = .localWin ∧
         (s.localAcc s.site .write a.toNat 12288).isSome = true) →
       queued (.accspill z rd acc rs1) 4 (s.matCmd (.accspill a.toNat) acc false false z 0 MatDesc.none 0)) ∧
     (a.toNat % 64 = 0 → routeOf a.toNat = .translated ∨ (routeOf a.toNat = .localWin ∧
         (s.localAcc s.site .read a.toNat 12288).isSome = true) →
       queued (.accfill rd acc rs1) 4 (s.matCmd (.accfill a.toNat) acc false false false 0 MatDesc.none 0))) ∧
  (∀ (s : State) (st dc z : Bool) (rd : Reg) (cap : BitVec 2) (acc : BitVec 3) (rs1 rs2 : Reg) (k : Nat) (f : Floe)
     (c0 : MatCmd),
     let p := s.partOfHart s.cur
     let d := matDescOf (s.words8 k)
     let tag := ((s.tile s.site).mtag + 1) % 2 ^ 32
     BlockAt s (s.rx rs1) k → matDescOk (s.words8 k) d st (s.rx rs2).toNat = true → d.aligned st = true →
     (d.xtra < 2 ^ 13 → d.remote st = true → s.isRanked p d.xtra = true →
       Ends (.mcmd st dc z cap acc rs1 rs2) s fun t => t.mem = s.mem ∧ t.cores = s.cores ∧ t.tiles = s.tiles ∧
         (∃ c : CmdRef, Went s t { s.me with seq := s.me.seq + 1, lastCmd := some c }) ∧
         ∃ (i : Item) (c : MatCmd), t.net = s.net ++ [i] ∧ i.dst = .tile d.xtra ∧ i.release = true ∧ i.body = .mcmd c ∧ c.desc = d ∧
           c.acc = acc.toNat ∧ c.koff = (s.rx rs2).toNat ∧ c.seq = (s.me.seq + 1).toNat) ∧
     let took (t : State) : Prop :=
       SetsX s t rd (BitVec.ofNat 64 tag) ∧ t.mem = s.mem ∧ t.net = s.net ∧ t.cores = s.cores ∧
         ∃ x : Vector Word 32, Went s t { s.me with x := x, lastCmd := some { eng := 2, site := s.site, tag := tag } }
     let note := f.note (s.srank s.cur) s.placeKey
     ((s.part p).floe = some f → f.members ≠ [] → d.mrow = 64 → d.ncol = 48 →
       (f.run = some c0 → f.waiting.length < 4 → note = none → d.xtra = f.fgen →
         Ends (.fmma st dc z rd acc rs1 rs2) s fun t => took t ∧
           t.tiles = SMap.put s.tiles s.site { s.tile s.site with mtag := tag } ∧
           ∃ c : MatCmd, c.tag = tag ∧ c.desc = d ∧ c.src = s.cur ∧ c.acc = acc.toNat ∧ c.koff = (s.rx rs2).toNat ∧
             (t.part p).floe = some { f with
               waiting := f.waiting ++ [c]
               known := if (s.tile s.site).prot then
                   f.known ++ [{ srank := c.srank, key := c.key, ival := (s.tile s.site).ival, result := none }]
                 else f.known }) ∧
       (note ≠ none → Ends (.fmma st dc z rd acc rs1 rs2) s fun t => took t ∧ t.parts = s.parts ∧
         (t.tile s.site).mtag = tag)))

/-- R178, R372, R374, R378: ACCRD of an accumulator no running command owns copies the named rows to the own scratchpad and
writes 0 to X[rd]; no other byte changes. MWAIT and CPWAIT wait while the tag is open, then give its cause, or 256 for a tag
older than the 64 most recent (log 25). -/
def Obligations.EngineReadWaitResults : Prop :=
  (∀ (s : State) (rd rs1 rs2 : Reg) (acc : BitVec 3) (k first count : Nat),
     let a := (s.rx rs1).toNat
     let n := 192 * count
     MemWf s → 1 ≤ count → first + count ≤ 64 → s.rx rs2 = BitVec.ofNat 64 (first + count * 256) → a % 64 = 0 →
     a + n ≤ Config.sysArea → LocalAt s .write a n k → (s.tile s.site).owner acc.toNat = none →
     Ends (.accrd rd acc rs1 rs2) s fun t =>
       SetsX s t rd 0 ∧ Stored s t k (Memory.readN s.mem (accAt s.site acc.toNat + 192 * first) n) ∧ t.full = s.full ∧
         t.tiles = s.tiles ∧ t.net = s.net ∧ ∃ x : Vector Word 32, Went s t { s.me with x := x }) ∧
  (∀ (s : State) (rd rs1 : Reg) (r : EngResult),
     let tile := s.tile s.site
     let x := (s.rx rs1).toNat
     let age (last : Nat) : Nat := (last + 2 ^ 32 - x) % 2 ^ 32
     let waits (i : Instr) (last : Nat) (busy : Bool) (finished : List EngResult) : Prop :=
       age last < 2 ^ 31 →
       (busy = true → Ends i s fun t => Waits s t .retry) ∧
       (busy = false → 64 ≤ age last → Gives i s rd 256) ∧
       (busy = false → age last < 64 → resultOf finished x = some r → Gives i s rd (BitVec.ofNat 64 r.cause))
     x < 2 ^ 32 →
     waits (.mwait rd rs1) tile.mtag (s.matOpen s.site x) tile.mdone ∧
     waits (.cpwait rd rs1) tile.ctag (tile.copyOpen x) tile.cdone)

/-- R106, R237, R384, R386, R388, R389: TLBINV of a range in the local window completes at once; of any other it waits for
the acknowledgements, and completes once they have come; with an earlier access outstanding it waits for that first. CHKPT
gives the number of the open interval, 0 where the tile is unprotected, and asks for its close; with a destination on an
unprotected tile it sends the notice at once, on a protected one it records it for the interval's commit, and waits while 32 are
unsent. SELFREPORT by its kind: a self-test request of the core, the tile's failure (at
M), or a kind 9 record in the partition's event ring. -/
def Obligations.SystemInstructionResults : Prop :=
  (∀ (s : State) (rs1 rs2 : Reg) (r : Resp),
     let base := (s.rx rs1).toNat
     let szlog := (s.rx rs2).toNat
     base < 2 ^ 56 → 16 ≤ szlog → szlog ≤ 56 → base % 2 ^ szlog = 0 →
     (s.me.resp = none → s.openAccess s.cur = true → Ends (.tlbinv rs1 rs2) s fun t => Waits s t .retry) ∧
     (s.me.resp = none → s.openAccess s.cur = false →
       (base + 2 ^ szlog ≤ 2 ^ 48 → Ends (.tlbinv rs1 rs2) s fun t => Retired s t s.me) ∧
       (2 ^ 48 < base + 2 ^ szlog → Ends (.tlbinv rs1 rs2) s fun t => Waits s t (.tlbinv base (2 ^ szlog)))) ∧
     (s.me.resp = some r → Ends (.tlbinv rs1 rs2) s fun t => Retired s t s.me)) ∧
  (∀ (s : State) (rd rs1 : Reg) (drank chan : Nat),
     let tile := s.tile s.site
     let n : Word := if s.det (s.partOfHart s.cur) = true ∨ tile.prot = false then 0 else BitVec.ofNat 64 tile.ival
     (Ends (.chkpt rd 0) s fun t => SetsX s t rd n ∧ t.mem = s.mem ∧ t.net = s.net ∧ t.cores = s.cores ∧
       (∃ x : Vector Word 32, Went s t { s.me with x := x }) ∧ (∀ y, y ≠ s.site → t.tile y = s.tile y) ∧
       t.tile s.site = if tile.prot = true ∧ tile.stage ≠ .closing then { tile with closeReq := true } else tile) ∧
     (rs1 ≠ 0 → rs1 ≠ rd → drank < 2 ^ 18 → chan < 16 → s.rx rs1 = BitVec.ofNat 64 (drank + chan * 2 ^ 20) →
       tile.prot = false →
       Ends (.chkpt rd rs1) s fun t => SetsX s t rd 0 ∧ t.mem = s.mem ∧ t.cores = s.cores ∧
         (∃ x : Vector Word 32, Went s t { s.me with x := x, seq := s.me.seq + 1 }) ∧
         ∃ (i : Item) (m : Msg), t.net = s.net ++ [i] ∧ i.dst = .core (drank / 8) ∧ i.body = .message m ∧ m.hdr.chan = chan ∧
           m.hdr.seq = (s.me.seq + 1).toNat ∧ vget 0 m.payload 0 = 0) ∧
     (rs1 ≠ 0 → rs1 ≠ rd → drank < 2 ^ 18 → chan < 16 → s.rx rs1 = BitVec.ofNat 64 (drank + chan * 2 ^ 20) →
       tile.prot = true → 32 ≤ tile.notices.length → Ends (.chkpt rd rs1) s fun t => Waits s t .retry) ∧
     (rs1 ≠ 0 → rs1 ≠ rd → drank < 2 ^ 18 → chan < 16 → s.rx rs1 = BitVec.ofNat 64 (drank + chan * 2 ^ 20) →
       tile.prot = true → tile.notices.length < 32 →
       Ends (.chkpt rd rs1) s fun t => SetsX s t rd n ∧ t.mem = s.mem ∧ t.net = s.net ∧ t.cores = s.cores ∧
         (∃ x : Vector Word 32, Went s t { s.me with x := x, seq := s.me.seq + 1 }) ∧
         ((t.tile s.site).closeReq = if tile.stage ≠ .closing then true else tile.closeReq) ∧
         ∃ x : Notice, (t.tile s.site).notices = tile.notices ++ [x] ∧ x.interval = tile.ival ∧ x.drank = drank ∧
           x.msg.hdr.chan = chan ∧ x.msg.hdr.seq = (s.me.seq + 1).toNat)) ∧
  (∀ (s : State) (rs1 rs2 : Reg) (r : EventRing),
     let core := s.core (coreOf s.cur)
     let p := s.partOfHart s.cur
     let b := kHost r.base
     (s.rx rs1 = 0 → s.rx rs2 = 0 → Ends (.selfreportScan rs1 rs2) s fun t => Went s t s.me ∧ t.mem = s.mem ∧
       t.tiles = s.tiles ∧ t.cores =
         if core.scanAsked = true ∨ ((s.tile s.site).replaying = true ∧ (s.tile s.site).scanPassed (coreOf s.cur) = true)
         then s.cores
         else SMap.put s.cores (coreOf s.cur) { core with scanAsked := true, slices := 0, scanIv := s.scanIndex (coreOf s.cur) }) ∧
     (s.rx rs1 = 1 → s.rx rs2 = 0 → s.me.priv = .M → Ends (.selfreportFail rs1 rs2) s fun t => Went s t s.me ∧
       t.mem = s.mem ∧ t.cores = s.cores ∧ (t.tile s.site).failed = true ∧
       ((s.tile s.site).failed = false → (t.tile s.site).failc = 7)) ∧
     (s.rx rs1 = 2 → MemWf s → p ≠ 0 → (s.part p).ring = some r →
       (r.count + 2 ^ 64 - s.num (b + 8) 8) % 2 ^ 64 ≠ 2 ^ r.sizelog →
       Ends (.selfreportEvent rs1 rs2) s fun t => Went s t s.me ∧ t.tiles = s.tiles ∧ t.cores = s.cores ∧
         Memory.readN t.mem (b + 64 + 32 * (r.count % 2 ^ r.sizelog)) 32 =
           bytesOf 2 9 ++ bytesOf 1 (s.cur % 32) ++ bytesOf 1 0 ++ bytesOf 4 p ++ bytesOf 8 (s.midOf s.cur).toNat ++
             bytesOf 8 (s.rx rs2).toNat ++ bytesOf 8 ((s.part p).evSeq + 1) ∧
         t.outs = s.outs ++ [.hostWrite 16 (r.base + (64 + 32 * (r.count % 2 ^ r.sizelog))) 32, .hostWrite 16 r.base 8,
           .msix 16 r.vector]))

/-! ### Vectors (spec/17_vector.md); the operands here are registers, `StreamOperandResults` states streams -/

/-- R334, R343: the integer element-wise instructions, per active element, in integer arithmetic modulo 2^w; a .vx form takes
X[xs] for its second operand. -/
def Obligations.VectorIntegerResults : Prop :=
  ∀ (s : State) (et : EType) (vd vs2 vs1 : BitVec 4) (var : BitVec 3) (pm : Bool),
    let w := et.bits
    let nat := var.getLsbD 1
    let a (j : Nat) : Nat := elem (s.me.rv vs2) w j
    let b (j : Nat) : Nat := if var.getLsbD 0 then (s.rx (vs1.setWidth 5)).toNat % 2 ^ w else elem (s.me.rv vs1) w j
    let val (x : Nat) : Int := if nat then x else sval w x
    let lo : Int := if nat then 0 else -(2 : Int) ^ (w - 1)
    let hi : Int := if nat then (2 : Int) ^ w - 1 else (2 : Int) ^ (w - 1) - 1
    let sat (v : Int) : Nat := wrapN w (Max.max lo (Min.min hi v))
    let gives (i : Instr) (f : Nat → Nat) : Prop := GivesLanes i s w vd (laneOn s pm) f
    et.isInt = true → NoStreams s [vd, vs2] → (var.getLsbD 0 = false → NoStreams s [vs1]) →
    gives (.vadd et vd vs2 vs1 var pm) (fun j => a j + b j) ∧
    gives (.vsub et vd vs2 vs1 var pm) (fun j => wrapN w ((a j : Int) - b j)) ∧
    gives (.vmul et vd vs2 vs1 var pm) (fun j => a j * b j) ∧
    gives (.vmulh et vd vs2 vs1 var pm) (fun j => wrapN w (val (a j) * val (b j) / (2 : Int) ^ w)) ∧
    gives (.vaddsat et vd vs2 vs1 var pm) (fun j => sat (val (a j) + val (b j))) ∧
    gives (.vsubsat et vd vs2 vs1 var pm) (fun j => sat (val (a j) - val (b j))) ∧
    gives (.vmin et vd vs2 vs1 var pm) (fun j => if val (b j) < val (a j) then b j else a j) ∧
    gives (.vmax et vd vs2 vs1 var pm) (fun j => if val (a j) < val (b j) then b j else a j) ∧
    gives (.vand et vd vs2 vs1 var pm) (fun j => a j &&& b j) ∧
    gives (.vor et vd vs2 vs1 var pm) (fun j => a j ||| b j) ∧
    gives (.vxor et vd vs2 vs1 var pm) (fun j => a j ^^^ b j) ∧
    gives (.vsll et vd vs2 vs1 var pm) (fun j => a j * 2 ^ (b j % w)) ∧
    gives (.vsrl et vd vs2 vs1 var pm) (fun j => a j / 2 ^ (b j % w)) ∧
    gives (.vsra et vd vs2 vs1 var pm) (fun j => wrapN w (sval w (a j) / (2 : Int) ^ (b j % w)))

/-- R253-R258, R263, R264, R344, R345: the floating element-wise instructions, per active element: exact on the decoded
values and rounded once by the mode of the instruction; the one-source functions; sign clearing and flipping on the bits. -/
def Obligations.VectorFloatResults : Prop :=
  ∀ (s : State) (et : EType) (vd vs2 vs1 : BitVec 4) (rm : BitVec 3) (pm : Bool),
    let w := et.bits
    let m := s.me.mode rm
    let x (j : Nat) : Nat := elem (s.me.rv vs2) w j
    let y (j : Nat) : Nat := elem (s.me.rv vs1) w j
    let a (j : Nat) : FVal := decodeF et.fmt (x j)
    let b (j : Nat) : FVal := decodeF et.fmt (y j)
    let d (j : Nat) : FVal := decodeF et.fmt (elem (s.me.rv vd) w j)
    let gives (i : Instr) (f : Nat → Nat) : Prop := GivesLanes i s w vd (laneOn s pm) f
    et.isInt = false → NoStreams s [vd, vs2] →
    (NoStreams s [vs1] →
      gives (.vfadd et vd vs2 vs1 rm pm) (fun j => roundF et.fmt m (addV m (a j) (b j))) ∧
      gives (.vfsub et vd vs2 vs1 rm pm) (fun j => roundF et.fmt m (addV m (a j) (negV (b j)))) ∧
      gives (.vfmul et vd vs2 vs1 rm pm) (fun j => roundF et.fmt m (mulV (a j) (b j))) ∧
      gives (.vfma et vd vs2 vs1 rm pm) (fun j => roundF et.fmt m (addV m (mulV (a j) (b j)) (d j))) ∧
      gives (.vfnma et vd vs2 vs1 rm pm) (fun j => roundF et.fmt m (addV m (d j) (negV (mulV (a j) (b j))))) ∧
      gives (.vmin et vd vs2 vs1 0 pm) (fun j => minF et.fmt (x j) (y j)) ∧
      gives (.vmax et vd vs2 vs1 0 pm) (fun j => maxF et.fmt (x j) (y j)) ∧
      gives (.vminn et vd vs2 vs1 pm) (fun j => minN et.fmt (x j) (y j)) ∧
      gives (.vmaxn et vd vs2 vs1 pm) (fun j => maxN et.fmt (x j) (y j))) ∧
    gives (.vexp2 et vd vs2 pm) (fun j => exp2F et.fmt (a j)) ∧
    gives (.vlog2 et vd vs2 pm) (fun j => log2F et.fmt (a j)) ∧
    gives (.vrcp et vd vs2 pm) (fun j => roundF et.fmt .rne (rcpV (a j))) ∧
    gives (.vrsqrt et vd vs2 pm) (fun j => roundF et.fmt .rne (rsqrtV (a j))) ∧
    gives (.vtanh et vd vs2 pm) (fun j => tanhF et.fmt (a j)) ∧
    gives (.vfabs et vd vs2 pm) (fun j => x j % 2 ^ (w - 1)) ∧
    gives (.vfneg et vd vs2 pm) (fun j => x j + 2 ^ (w - 1))

/-- R334, R341, R342: a vector load of active elements at local addresses that are granted gives the little-endian elements
found there; of translated addresses it asks their homes in one operation and completes with the data of the response. A
vector store writes each active element, little-endian, at its local address, in ascending order, and no other byte; to
translated addresses it posts one store for each. No register changes. -/
def Obligations.VectorMemoryResults : Prop :=
  (∀ (s : State) (et : EType) (vd xs xt : BitVec 4) (pm : Bool) (k : Nat → Nat) (r : Resp),
     let n := et.bits / 8
     let base := s.rx (xs.setWidth 5)
     let act := activeList s et pm
     let contiguous (j : Nat) : Nat := (base + BitVec.ofNat 64 (j * n)).toNat
     let strided (j : Nat) : Nat := (base + BitVec.ofInt 64 ((j : Int) * (s.rx (xt.setWidth 5)).toInt)).toNat
     let indexed (j : Nat) : Nat := (base + BitVec.ofNat 64 (elem (s.me.rv xt) et.bits j * n)).toNat
     let result (i : Instr) (addr : Nat → Nat) : Prop :=
       (s.me.resp = none → (∀ j ∈ act, addr j % n = 0 ∧ LocalAt s .read (addr j) n (k j)) →
         GivesLanes i s et.bits vd (laneOn s pm) fun j => ofBytes (Memory.readN s.mem (k j) n)) ∧
       (act ≠ [] → (∀ j ∈ act, addr j % n = 0 ∧ routeOf (addr j) = .translated) →
         (s.me.resp = none →
           Ends i s fun t => Asked s t (.read (act.map fun j => (addr j, n))) false ∧ t.me.v = s.me.v) ∧
         (s.me.resp = some r →
           GivesLanes i s et.bits vd (laneOn s pm) fun j => ofBytes ((r.data.drop (act.idxOf j * n)).take n)))
     NoStreams s [vd] →
     ((routeOf base.toNat = .translated → base.toNat % 64 = 0) → result (.vld et vd xs pm) contiguous) ∧
     result (.vlds et vd xs xt pm) strided ∧
     (NoStreams s [xt] → result (.vgath et vd xs xt pm) indexed)) ∧
  (∀ (s : State) (et : EType) (vs xs xt : BitVec 4) (pm : Bool) (k : Nat → Nat),
     let n := et.bits / 8
     let base := s.rx (xs.setWidth 5)
     let act := activeList s et pm
     let bytes (j : Nat) : List Byte := bytesOf n (elem (s.me.rv vs) et.bits j)
     let contiguous (j : Nat) : Nat := (base + BitVec.ofNat 64 (j * n)).toNat
     let strided (j : Nat) : Nat := (base + BitVec.ofInt 64 ((j : Int) * (s.rx (xt.setWidth 5)).toInt)).toNat
     let indexed (j : Nat) : Nat := (base + BitVec.ofNat 64 (elem (s.me.rv xt) et.bits j * n)).toNat
     let result (i : Instr) (addr : Nat → Nat) : Prop :=
       (MemWf s → (∀ i ∈ s.net, i.src = s.cur → i.access = false) →
         (∀ j ∈ act, addr j % n = 0 ∧ s.atHome (addr j) = false ∧ LocalAt s .write (addr j) n (k j)) →
         Ends i s fun t => Went s t s.me ∧ t.net = s.net ∧ t.full = s.full ∧ t.tiles = s.tiles ∧
           (∀ j ∈ act, (∀ l ∈ act, j < l → k l + n ≤ k j ∨ k j + n ≤ k l) → Memory.readN t.mem (k j) n = bytes j) ∧
           ∀ a, (∀ j ∈ act, a < k j ∨ k j + n ≤ a) → Memory.read t.mem a = Memory.read s.mem a) ∧
       ((∀ j ∈ act, addr j % n = 0 ∧ routeOf (addr j) = .translated) →
         Ends i s fun t => t.mem = s.mem ∧ Quiet s t ∧
           Went s t { s.me with seq := s.me.seq + BitVec.ofNat 32 act.length } ∧
           ∃ is : List Item, t.net = s.net ++ is ∧ is.map (·.body) = act.map (fun j => Body.store (addr j) (bytes j) false) ∧
             is.map (·.dst) = act.map fun j => homeOf (addr j))
     NoStreams s [vs] →
     ((routeOf base.toNat = .translated → base.toNat % 64 = 0) → result (.vst et vs xs pm) contiguous) ∧
     result (.vsts et vs xs xt pm) strided ∧
     (NoStreams s [xt] → result (.vscat et vs xs xt pm) indexed))

/-- R264, R334, R346, R348: comparisons set the active bits of a mask, VMASK computes on whole masks. -/
def Obligations.VectorMaskResults : Prop :=
  ∀ (s : State) (et : EType) (md ma mb : BitVec 2) (vs2 vs1 xs : BitVec 4) (var : BitVec 3) (pm : Bool),
    let w := et.bits
    let nat := var.getLsbD 1
    let a (j : Nat) : Nat := elem (s.me.rv vs2) w j
    let y (j : Nat) : Nat := elem (s.me.rv vs1) w j
    let b (j : Nat) : Nat := if var.getLsbD 0 then (s.rx (xs.setWidth 5)).toNat % 2 ^ w else elem (s.me.rv xs) w j
    let val (x : Nat) : Int := if nat then x else sval w x
    let on (j : Nat) : Bool := decide (j < 512 / w) && laneOn s pm j
    (et.isInt = true → NoStreams s [vs2] → (var.getLsbD 0 = false → NoStreams s [xs]) →
      GivesBits (.vcmpeq et md vs2 xs var pm) s md on (fun j => a j == b j) ∧
      GivesBits (.vcmpne et md vs2 xs var pm) s md on (fun j => a j != b j) ∧
      GivesBits (.vcmplt et md vs2 xs var pm) s md on (fun j => decide (val (a j) < val (b j))) ∧
      GivesBits (.vcmple et md vs2 xs var pm) s md on (fun j => decide (val (a j) ≤ val (b j)))) ∧
    (et.isInt = false → NoStreams s [vs2, vs1] →
      GivesBits (.vcmpeq et md vs2 vs1 0 pm) s md on (fun j => cmpFloat .eq et.fmt (a j) (y j)) ∧
      GivesBits (.vcmpne et md vs2 vs1 0 pm) s md on (fun j => cmpFloat .ne et.fmt (a j) (y j)) ∧
      GivesBits (.vcmplt et md vs2 vs1 0 pm) s md on (fun j => cmpFloat .lt et.fmt (a j) (y j)) ∧
      GivesBits (.vcmple et md vs2 vs1 0 pm) s md on (fun j => cmpFloat .le et.fmt (a j) (y j))) ∧
    GivesM (.vmaskAnd md ma mb) s md (s.me.rm ma &&& s.me.rm mb) ∧
    GivesM (.vmaskOr md ma mb) s md (s.me.rm ma ||| s.me.rm mb) ∧
    GivesM (.vmaskXor md ma mb) s md (s.me.rm ma ^^^ s.me.rm mb) ∧
    GivesM (.vmaskAndn md ma mb) s md (s.me.rm ma &&& ~~~(s.me.rm mb)) ∧
    GivesM (.vmaskNot md ma) s md (~~~(s.me.rm ma)) ∧
    GivesM (.vmaskFromx md xs) s md (s.rx (xs.setWidth 5)) ∧
    GivesM (.vmaskFirst md xs) s md (BitVec.ofNat 64 (2 ^ Min.min (s.rx (xs.setWidth 5)).toNat 64 - 1)) ∧
    Gives (.vmaskTox xs ma) s (xs.setWidth 5) (s.me.rm ma)

/-- R347: VSEL, funct6 0x2C, for every element type, with m and var at 0: below VL each element is vs2's where bit i of m0 is
1 and vs1's otherwise, bits unchanged; every other element stays. A field that names a bound stream is the operand error. -/
def Obligations.VselResults : Prop :=
  ∀ (s : State) (et : EType) (vd vs2 vs1 : BitVec 4) (w : BitVec 32),
    (decodeWord w = .ok (.vsel et vd vs2 vs1) ↔ w = 0x2C#6 ++ et.code ++ vs2 ++ vs1 ++ 0#3 ++ vd ++ 0#1 ++ 0x5B#7) ∧
    (∀ c : BitVec 3, ∃ e : EType, e.code = c) ∧
    (NoStreams s [vd, vs2, vs1] → GivesLanes (.vsel et vd vs2 vs1) s et.bits vd (fun j => decide (j < s.me.vl.toNat)) fun j =>
      if (s.me.rm 0).getLsbD j then elem (s.me.rv vs2) et.bits j else elem (s.me.rv vs1) et.bits j) ∧
    (¬ NoStreams s [vd, vs2, vs1] → exec (.vsel et vd vs2 vs1) s = operandError s)

/-- R264, R349, R350: reductions into element 0. An integer sum wraps, an integer maximum is an upper bound that is reached,
the first greatest index wins; a floating sum adds in a pairwise tree. -/
def Obligations.VectorReductionResults : Prop :=
  ∀ (s : State) (et : EType) (vd vs2 : BitVec 4) (var : BitVec 3) (pm : Bool),
    let w := et.bits
    let m := s.me.mode var
    let x (j : Nat) : Nat := elem (s.me.rv vs2) w j
    let val (v : Nat) : Int := if var.getLsbD 1 then v else sval w v
    let act := activeList s et pm
    let first (j : Nat) : Bool := j == 0
    let lanes := (List.range (512 / w)).map fun j => if laneOn s pm j then x j else negZero et.fmt
    let sum (a b : Nat) : Nat := roundF et.fmt m (addV m (decodeF et.fmt a) (decodeF et.fmt b))
    NoStreams s [vd, vs2] →
    (et.isInt = true →
      GivesLanes (.vredsum et vd vs2 var pm) s w vd first (fun _ => (act.map x).sum) ∧
      (act = [] → GivesLanes (.vredmax et vd vs2 var pm) s w vd first
          (fun _ => if var.getLsbD 1 then 0 else 2 ^ (w - 1)) ∧
        GivesLanes (.vargmax et vd vs2 var pm) s 32 vd first fun _ => 0xFFFFFFFF) ∧
      (act ≠ [] → ∃ j ∈ act, (∀ l ∈ act, val (x l) ≤ val (x j)) ∧ (∀ l ∈ act, l < j → val (x l) < val (x j)) ∧
        GivesLanes (.vredmax et vd vs2 var pm) s w vd first (fun _ => x j) ∧
        GivesLanes (.vargmax et vd vs2 var pm) s 32 vd first fun _ => j)) ∧
    (et.isInt = false →
      GivesLanes (.vredsum et vd vs2 var pm) s w vd first (fun _ => (tree sum 6 lanes).head?.getD 0) ∧
      GivesLanes (.vredmax et vd vs2 var pm) s w vd first (fun _ => maxOf et false (act.map x)) ∧
      GivesLanes (.vargmax et vd vs2 var pm) s 32 vd first fun _ =>
        argMax et false ((List.range (512 / w)).map fun j => if laneOn s pm j then some (x j) else none))

/-- R251, R256, R265, R266, R334, R351, R353-R355: conversions between registers, moves of one element and permutes of raw
elements. VRAND fills the active 32-bit elements with draws, the lattice form with its points; a stochastic VCVT rounds with
them; each counts one draw of the thread. -/
def Obligations.VectorMoveRandomResults : Prop :=
  (∀ (s : State) (et : EType) (vd vs2 vs1 xs xi src : BitVec 4) (rm : BitVec 3) (nat odd pm : Bool),
     let w := et.bits
     let c := 512 / w
     let x (r : BitVec 4) : Word := s.rx (r.setWidth 5)
     let a (j : Nat) : Nat := elem (s.me.rv vs2) w j
     let b (j : Nat) : Nat := elem (s.me.rv vs1) w j
     let n := (x xs).toNat
     let i := (x xi).toNat % c
     let o := if odd then 1 else 0
     let lanes (f : Nat → Nat) (p : Instr) : Prop := GivesLanes p s w vd (laneOn s pm) f
     NoStreams s [vd, vs2, vs1] →
     GivesLanes (.vmvx et vd xs xi) s w vd (fun j => j == i) (fun _ => n) ∧
     Gives (.vmvxGet et nat xi vs2 xs) s (xi.setWidth 5)
       (if nat then BitVec.ofNat 64 (a (n % c)) else sext w (a (n % c))) ∧
     lanes (fun j => a (b j % c)) (.vperm et vd vs2 vs1 pm) ∧
     GivesLanes (.vslideup et vd vs2 xs pm) s w vd (fun j => decide (n ≤ j) && laneOn s pm j) (fun j => a (j - n)) ∧
     lanes (fun j => if j + n < c then a (j + n) else 0) (.vslidedn et vd vs2 xs pm) ∧
     lanes (fun j => if j % 2 = 0 then a (j / 2) else b ((j - 1) / 2)) (.vzip et vd vs2 vs1 pm) ∧
     lanes (fun j => if j < c / 2 then a (2 * j + o) else b (2 * (j - c / 2) + o)) (.vunzip et odd vd vs2 vs1 pm) ∧
     lanes (fun _ => n) (.vbcast et vd xs pm) ∧
     (src.toNat ≤ 10 → s.me.rmCode rm ≠ 4 →
       GivesLanes (.vcvt et src vd vs2 rm pm) s w vd
         (fun j => decide (j < 512 / Max.max (typeBits src.toNat) w) && laneOn s pm j)
         fun j => toCode et.code.toNat (modeOf (s.me.rmCode rm) 0)
           (codeVal src.toNat (elem (s.me.rv vs2) (typeBits src.toNat) j)))) ∧
  (∀ (s : State) (et : EType) (vd vs2 xs src : BitVec 4) (rm : BitVec 3) (pm : Bool) (i0 q jd a : Nat) (shift : Bool),
     let drawn (i : Instr) (w : Nat) (on : Nat → Bool) (f : Nat → Nat) : Prop := Ends i s fun t =>
       (∀ r : BitVec 4, r ≠ vd → t.me.rv r = s.me.rv r) ∧
       (∀ j, j < 512 / w → elem (t.me.rv vd) w j = if on j then f j % 2 ^ w else elem (s.me.rv vd) w j) ∧
       ∃ v : Vector VReg 16, Retired s t { s.me with v := v, dn := s.me.dn + 1 }
     NoStreams s [vd, vs2] →
     drawn (.vrand vd pm) 32 (laneOn s pm) (fun j => (s.draw 0 j).toNat) ∧
     (i0 < 2 ^ 32 → q ≤ 32 → jd < 8 → a < 2 ^ q →
       s.rx (xs.setWidth 5) = BitVec.ofNat 64 (i0 + q * 2 ^ 32 + jd * 2 ^ 40 + (if shift then 2 ^ 48 else 0)) →
       s.rx ((xs + 1).setWidth 5) = BitVec.ofNat 64 a →
       drawn (.vrandLat vd xs pm) 32 (laneOn s pm) fun j =>
         lattice (s.tile s.site).srseed ((i0 + j) % 2 ^ 32) q jd a shift) ∧
     (src.toNat ≤ 10 → s.me.rmCode rm = 4 →
       drawn (.vcvt et src vd vs2 rm pm) et.bits
         (fun j => decide (j < 512 / Max.max (typeBits src.toNat) et.bits) && laneOn s pm j)
         fun j => toCode et.code.toNat (.sr ((s.draw 0 j).toNat % 2 ^ 32))
           (codeVal src.toNat (elem (s.me.rv vs2) (typeBits src.toNat) j))))

/-- R337-R340: STRCFG binds a stream from its descriptor and STREND drops the binding; an element-wise instruction takes the
elements of a read stream's current row from memory and moves the stream to its next row; a write stream's row is stored. -/
def Obligations.StreamOperandResults : Prop :=
  ∀ (s : State) (st : BitVec 2) (xs vd vs2 vs1 : BitVec 4) (rm : BitVec 3) (k : Nat) (x : Stream),
    let a := (s.rx (xs.setWidth 5)).toNat
    let num (o : Nat) : Nat := ofBytes (Memory.readN s.mem (k + o) 8)
    let row := x.base + x.row * x.stride.toNat
    let f : Fmt := f32
    let m := s.me.mode rm
    let y (j : Nat) : FVal := decodeF f (elem (s.me.rv vs1) 32 j)
    let z (v : BitVec 4) (j : Nat) : FVal := decodeF f (elem (s.me.rv v) 32 j)
    let moved (m : Thread) : Thread :=
      { m with streams := s.me.streams.set st.toNat (some { x with row := x.row + 1 }), beat := 0, rows := [] }
    (a % 32 = 0 → LocalAt s .read a 32 k → streamDesc (num 0) (num 8) (num 16) (num 24) = .ok x →
      Ends (.strcfg st xs) s fun t => Retired s t { s.me with streams := s.me.streams.set st.toNat (some x) }) ∧
    (Ends (.strend st) s fun t => Retired s t { s.me with streams := s.me.streams.set st.toNat none }) ∧
    (s.me.resp = none → s.me.beat = 0 → s.me.streams[st.toNat] = some x → x.typ = 3 → x.row < x.nrows → 1 ≤ x.nelem → x.nelem ≤ 16 →
      0 ≤ x.stride → row + 4 * x.nelem ≤ 2 ^ 48 → NoStreams s [vs1] →
      (x.write = false → NoStreams s [vd] → LocalAt s .read row (4 * x.nelem) k → vs2.toNat = 12 + st.toNat →
        Ends (.vfadd .f32 vd vs2 vs1 rm false) s fun t =>
          (∀ r : BitVec 4, r ≠ vd → t.me.rv r = s.me.rv r) ∧
          (∀ j < 16, elem (t.me.rv vd) 32 j = if j < x.nelem then
            roundF f m (addV m (decodeF f (ofBytes (Memory.readN s.mem (k + 4 * j) 4))) (y j)) % 2 ^ 32
            else elem (s.me.rv vd) 32 j) ∧
          ∃ v : Vector VReg 16, Retired s t (moved { s.me with v := v })) ∧
      (x.write = true → NoStreams s [vs2] → MemWf s → s.atHome row = false → vd.toNat = 12 + st.toNat →
        (∀ i ∈ s.net, i.src = s.cur → i.access = false) →
        (∀ j < x.nelem, LocalAt s .write (row + 4 * j) 4 (k + 4 * j)) → (s.localKey s.site row (4 * x.nelem)).isSome = true →
        s.atHome (row + 4 * x.nelem - 1) = false →
        Ends (.vfadd .f32 vd vs2 vs1 rm false) s fun t =>
          (∀ j < x.nelem, Memory.readN t.mem (k + 4 * j) 4 = bytesOf 4 (roundF f m (addV m (z vs2 j) (y j)))) ∧
          (∀ b, (b < k ∨ k + 4 * x.nelem ≤ b) → Memory.read t.mem b = Memory.read s.mem b) ∧
          Went s t (moved s.me) ∧ t.net = s.net ∧ t.tiles = s.tiles))

/-! ### The part's own steps: power, clocks and start-up (spec/02_bringup.md, spec/03_power.md) -/

/-- R54-R57, R65: throttles and their excursions, the governor window, CSTEPLIM and the launch wave; each changes its region,
the reservation's excursion count and the items of the wave, and nothing else. The end of an excursion writes its 32-byte record to
the partition's event ring; that its number counts with no ring placed too is the model's choice (log 15). -/
def Obligations.PowerStepResults : Prop :=
  ∀ (s : State) (region : Nat) (c : Throttle) (est drawn p k : Nat) (val : Word) (w : Wave) (reg : Nat) (items : List Item)
    (rest : List (Nat × List Item)) (ring : EventRing),
    let r := s.reg region
    let tripI : Instr := match c with
      | .droop => .droopTrip region | .thermal => .thermalTrip region | .power => .powerCapTrip region
    let clearI : Instr := match c with
      | .droop => .droopClear region | .thermal => .thermalClear region | .power => .powerCapClear region
    let only (r' : Region) (t : State) : Prop :=
      { t with regions := s.regions } = s ∧ t.reg region = r' ∧ ∀ j, j ≠ region → t.reg j = s.reg j
    region < 16 →
    (r.causes = [] → Ends tripI s (only { r with
      causes := [c], first := c.code, startC := r.cycles, startT := s.refTime,
      excur := if (s.reservation region).isSome then Min.min (r.excur + 1) 0xFFFF else r.excur })) ∧
    (r.causes ≠ [] → r.causes.contains c = false → Ends tripI s (only { r with causes := r.causes ++ [c] })) ∧
    (r.causes.contains c = true → Ends tripI s fun t => t = s) ∧
    (r.causes = [c] → s.reservation region = none → Ends clearI s (only { r with causes := [] })) ∧
    (r.causes = [c] → s.reservation region = some p → (s.part p).ring = none → Ends clearI s fun t =>
      (t.reg region).causes = [] ∧ (t.part p).excSeq = (s.part p).excSeq + 1 ∧ t.mem = s.mem ∧ t.threads = s.threads) ∧
    (r.causes = [c] → s.reservation region = some p → (s.part p).ring = some ring → MemWf s →
      (ring.count + 2 ^ 64 - s.num (kHost ring.base + 8) 8) % 2 ^ 64 ≠ 2 ^ ring.sizelog →
      let at_ := kHost ring.base + (64 + 32 * (ring.count % 2 ^ ring.sizelog))
      let dur := s.refTime - r.startT
      let lost := dur * r.mhz / 100 - (r.cycles - r.startC)
      Ends clearI s fun t => (t.reg region).causes = [] ∧ t.threads = s.threads ∧
        (t.part p).excSeq = (s.part p).excSeq + 1 ∧ (t.part p).ring = some { ring with count := ring.count + 1 } ∧
        Memory.readN t.mem at_ 32 = bytesOf 2 1 ++ bytesOf 1 region ++ bytesOf 1 r.first ++ bytesOf 4 p ++
          bytesOf 8 (r.startC % 2 ^ 64) ++ bytesOf 4 (Min.min dur 0xFFFFFFFF) ++ bytesOf 4 (Min.min lost 0xFFFFFFFF) ++
          bytesOf 8 ((s.part p).excSeq + 1) ∧
        ∀ a, (a < kHost ring.base ∨ kHost ring.base + 8 ≤ a) → (a < at_ ∨ at_ + 32 ≤ a) →
          Memory.read t.mem a = Memory.read s.mem a) ∧
    (r.causes.contains c = true → r.causes.length ≠ 1 → Ends clearI s (only { r with causes := r.causes.erase c })) ∧
    Ends (.governorWindow region est drawn) s (only { r with
      holds := if r.current + r.limit < est then Min.min (r.holds + 1) 0xFFFF else r.holds, current := drawn }) ∧
    Ends (.csteplimWrite region val) s
      (only { r with holds := r.holds &&& (0xFFFF ^^^ (val.toNat / 2 ^ 32 % 2 ^ 16)) }) ∧
    (s.waves[k]? = some w → (s.taken.all fun x => x.id != w.packet || (s.part x.part).stage == .active) = true →
      w.rest = (reg, items) :: rest → Ends (.launchWaveForward k) s fun t =>
        t.net.take s.net.length = s.net ∧ (t.net.drop s.net.length).map (·.body) = items.map (·.body) ∧
          (t.net.drop s.net.length).map (·.dst) = items.map (·.dst) ∧ t.mem = s.mem ∧ t.threads = s.threads ∧
          t.waves = if rest = [] then s.waves.eraseIdx k else s.waves.set k { w with rest := rest })

/-- R33-R46, R58: start-up ends in STATE 2 or, at a failed stage, in STATE 3 with its cause; an image whose signature does not
pass the check is not run, and does not become active; a power-down keeps the flash; the flash port writes the records that
wait, one at a time, each with the next sequence number and its commit word. The model's choices are what STAGE reads at each
failure (log 55), the note that flash keeps of each excursion that a power-down begins (log 86), and that an update acts in any
STATE and an image that is refused stays staged (log 91). -/
def Obligations.BootStepResults : Prop :=
  ∀ (s : State) (bad stage : Nat) (failed : List (Nat × Nat)) (img sig : List Byte) (a : Append),
    let u := s.cold.measure
    let up := Instr.powerUp bad failed
    let stopped (cause stage : Nat) (t : State) : Prop :=
      t.boot.state = 3 ∧ t.boot.cause = cause ∧ t.boot.stage = stage ∧ t.flash.boots = s.flash.boots + 1
    let off (f : Flash) (t : State) : Prop :=
      t.powered = false ∧ t.flash = f ∧ t.threads = [] ∧ t.cores = [] ∧ t.parts = [] ∧ t.boot = Boot.init ∧
        (∀ c, c ∈ t.mem ↔ c ∈ s.mem ∧ 2 ^ 64 ≤ c.1) ∧ t.outs = s.outs ++ [.linkDown]
    (s.powered = true → s.boot.state ≠ 0 → Ends up s fun t => t = s) ∧
    (s.powered = false ∨ s.boot.state = 0 →
      (s.flash.imageOk = false → Ends up s (stopped 1 2)) ∧
      (s.flash.imageOk = true →
        (bad = 4 → Ends up s (stopped 4 3)) ∧ (bad = 2 → Ends up s (stopped 2 5)) ∧
        (bad ≠ 2 → bad ≠ 4 → u.flash.logBroken = true → Ends up s (stopped 3 5)) ∧
        (bad ≠ 2 → bad ≠ 4 → u.flash.logBroken = false → Ends up s fun t =>
          if (u.stage5 failed).supervised = true then t.boot.state = 2 ∧ t.boot.stage = 8 ∧ t.boot.ranked = t.binding.length
          else t.boot.state = 3 ∧ t.boot.cause = 5 ∧ t.boot.stage = 5))) ∧
    (s.powered = false → Ends (.imageUpdateCommit ⟨true, img, sig⟩) s fun t => t = s) ∧
    (s.powered = true →
      (pssVerify s.flash.key img sig = true → Ends (.imageUpdateCommit ⟨true, img, sig⟩) s fun t => t = { s with
        flash := { s.flash with image := img, signature := sig, staged := none, header := Config.imageCommit } }) ∧
      (pssVerify s.flash.key img sig = false → Ends (.imageUpdateCommit ⟨true, img, sig⟩) s fun t =>
        t = { s with flash := { s.flash with staged := some (img, sig) } }) ∧
      Ends (.imageUpdateCommit ⟨false, img, sig⟩) s fun t => t = { s with flash := { s.flash with staged := some (img, sig) } }) ∧
    (s.powered = true → Ends .thermalShutdown s (off { s.flash with down := s.flash.down ++ s.downNow })) ∧
    (s.powered = true → (s.appends.all fun x => x.token.isSome) = true →
      Ends (.modulePowerLoss stage) s (off { s.flash with down := s.flash.down ++ s.downNow })) ∧
    (s.appends.find? (fun x => x.token.isNone) = some a → s.flash.activeA = some true → s.flash.bankA.slots.length < 8191 →
      Ends .retirementAppend s fun t =>
        t = { s with appends := s.appends.erase a, flash := { s.flash with bankA := { s.flash.bankA with
          slots := s.flash.bankA.slots ++
            [{ bytes := { a.record with seq := s.flash.nextSeq, boots := s.flash.boots : Rec }.bytes
               commit := commitWord s.flash.nextSeq }] } } } ∧
        ∀ x ∈ s.flash.counted, x.seq < s.flash.nextSeq)

/-! ### Items at their receivers (spec/07_execution.md, spec/09_memory.md, spec/11_traps.md) -/

/-- R137, R141-R146, R324, R331: a message, an acknowledgement, a spawned frame, a barrier arrival and a returned
capability, at a receiver that takes them; the 80 bytes of a message or frame stand at its place (which place a message or
frame takes is the model's choice, log 94). A capability whose entry has been written since changes nothing. A refused item is
offered to its receiver again; refused once more it waits twice as long, at most 65,536 cycles. A site that has failed sends
nothing. -/
def Obligations.ItemArrivalResults : Prop :=
  (∀ (s : State) (k lc site free g inst h hart : Nat) (i : Item) (m : Msg) (f : Frame) (c : Cap) (t0 : Thread),
     let key := site * 4 + lc % 4
     let core := s.core key
     let ch := core.chan m.hdr.chan
     let gone (t : State) : Prop := ∀ j ∈ t.net, j ∈ s.net ∨ s.ordCtr ≤ j.ord
     let placed (place : Option Nat) (bs : List Byte) (t : State) : Prop :=
       (place = none → t.mem = s.mem) ∧ ∀ q, place = some q → MemWf s → Stored s t q bs
     let frame := core.frameAt key core.frameSlot
     s.net[k]? = some i → i.stage = .waiting →
     (i.body = .message m → i.dst = .core lc → s.injectable i = true → (s.tile (siteOf i.src)).failed = false →
       s.siteOfRank (lc / 4) = some site → s.door site i.part = .open_ → s.partOfSite site = some i.part →
       ((s.part i.part).job m.hdr.job).isSome = true → s.det i.part = false → (s.tile site).freshMsg m (lc % 4) = true →
       m.hdr.kind = 0 → m.hdr.chan < 16 → m.cap = none → ch.queue.length < 32 → ch.spill = [] →
       Ends (.messageArrival k) s fun t => gone t ∧ t.threads = s.threads ∧
         placed (s.localKey (key / 4) (core.entryAt key m.hdr.chan ch.queueSlot false) 80) m.bytes t ∧
         t.cores = SMap.put s.cores key (core.setChan m.hdr.chan
           { ch with queue := ch.queue ++ [({ m with arr := (s.tile site).arrivals, slot := ch.queueSlot }, false)] }) ∧
         ∃ j ∈ t.net, ∃ n, j.body = .ack lc m.hdr.chan n) ∧
     (i.body = .ack lc g free → siteOf i.src < Config.numSites →
       Ends (.messageAcknowledgement k) s fun t => t.mem = s.mem ∧ t.cores = s.cores ∧ t.threads = s.threads ∧
         t.net = s.net.filter (fun j => j.ord != i.ord) ∧
         (t.tile (siteOf i.src)).credit lc g = free - (s.dropItem i.ord).unacked (siteOf i.src) lc g) ∧
     (i.body = .frame f h → i.dst = .core lc → s.injectable i = true → s.det i.part = false →
       s.coreKey i.part lc = some key → key / 4 = site → s.door site i.part = .open_ →
       (s.tile site).fresh (s.itemDomain i) i.seq = true → core.takesFrame = true →
       Ends (.spawnFrameArrival k) s fun t => t.threads = s.threads ∧
         placed (frame.bind fun a => s.localKey (key / 4) a 80) f.bytes t ∧
         t.cores = SMap.put s.cores key { core with deque := core.deque ++ [{ f with slot := core.frameSlot }] } ∧
         ∃ j ∈ t.net, j.body = .spawnAns true ∧ j.dst = .hart i.src) ∧
     (i.body = .barrier i.part g inst lc → i.dst = .tile h → s.siteOfRank h = some site → s.door site i.part = .open_ →
       s.injectable i = true → (s.tile site).barriers = [] → s.group i.part g = [lc] → s.det i.part = false →
       (hart, t0) ∈ s.threads → t0.status = .blocked (.barrier g inst) → s.partOfHart hart = i.part →
       s.logCore (coreOf hart) = lc →
       Ends (.barrierArrival k) s fun t => t.mem = s.mem ∧ t.cores = s.cores ∧
         ∃ r : Resp, (hart, { t0 with status := .running, resp := some r }) ∈ t.threads) ∧
     (i.body = .capReturn g c → s.writesUnderAt (coreOf i.src) c = false →
       Ends (.capabilityReturnNotice k) s fun t => t.threads = s.threads ∧ t.cores = s.cores ∧
       t.net = s.net.filter (fun j => j.ord != i.ord) ∧
       (bitsN (s.region g c.rid).2 63 48 ≠ c.gen → t.mem = s.mem) ∧
       (bitsN (s.region g c.rid).2 63 48 = c.gen → MemWf s → (t.region g c.rid).2 % 2 ^ 32 / 4 = 0) ∧
       ∀ a, (a < kWindow g + 0x100008 + 16 * c.rid ∨ kWindow g + 0x100010 + 16 * c.rid ≤ a) → MemWf s →
         Memory.read t.mem a = Memory.read s.mem a)) ∧
  (∀ (s : State) (k b : Nat) (i : Item),
     let u := (s.setStage i.ord .waiting).offer { i with stage := .waiting } false
     s.net[k]? = some i → i.stage = .refused b → s.det i.part = false → s.behind i = false →
     ((s.tile (siteOf i.src)).failed = true → Ends (.resendBackoff k) s fun t => t = s) ∧
     ((s.tile (siteOf i.src)).failed = false → (u.net.all fun j => j.ord != i.ord) = true → Ends (.resendBackoff k) s fun t => t = u) ∧
     ((s.tile (siteOf i.src)).failed = false →
       (∃ j ∈ u.net, j.ord = i.ord ∧ (j.stage = .waiting ∨ ∃ n : Nat, j.stage = .refused n)) →
       Ends (.resendBackoff k) s fun t => t = u.setStage i.ord (.refused (Min.min (2 * b) 65536))))

/-- R181, R185-R187, R189, R193, R199, R209, R218-R221: stores and returning operations at their homes, responses at their
threads, faults at the routers and the root. Reads are admitted in every mode; a store or engine write only into an owned region with its
current capability, an atomic there or into a shared-atomic region; a refusal bears cause 3 in an owned region and 2
elsewhere. An atomic of a thread on its own tile's memory counts among its local atomics. A thread that a window write has moved
elsewhere resumes without the response (`Thread.resume`). A fault whose page has an entry on its way or at the root makes none. A
wake of a page that is present sets every item that the page holds, and whose fault has reached an entry (`State.wakes`), waiting
again, with the items of its threads that wait behind them, frees the routers' entries of the page, and leaves memory and threads as
they are. R181-R185: a translated address is looked up in its home's cache, else walked from PTROOT through the five levels; a
present leaf that its level allows and that `State.leafOk` finds in order is cached and answers, P at 0 is a missing page (cause 8), every
other entry a translation error (cause 10). A pointer outside the HBM and a level-0 entry without LEAF count as translation errors
(log 17). -/
def Obligations.HomeAccessResults : Prop :=
  (∀ (s u : State) (k a key w v c page : Nat) (bs : List Byte) (op : AmoOp) (i : Item) (wr : Bool) (r : Resp) (req h : Nat),
     let home := s.homePlace i.part a
     let answer (val : Word) (wrote : Bool) (t : State) : Prop :=
       ∃ j ∈ t.net, j.dst = .hart i.src ∧ j.body = .response 0 a wrote { value := val, data := [] } i.ord
     s.net[k]? = some i → i.stage = .waiting →
     (s.injectable i = true → s.homeDoor i.part a = .open_ → MemWf s →
       (i.body = .store a bs false → i.dst = homeOf a → s.freshAt home i = true →
         s.resolve i.part a (some .store) i.cap = (.ok key, u) → u.mem = s.mem →
         Ends (.remoteStoreArrival k) s fun t => Stored s t key bs ∧ t.threads = u.threads ∧ t.cores = u.cores) ∧
       (i.body = .ret (.amo op a w v c) → s.freshAt home i = true →
         s.resolve i.part a (some .atomic) i.cap = (.ok key, u) → u.mem = s.mem → u.poisoned key w = false →
         let old := s.num key w
         let new := if op = .cas ∧ old ≠ c then old else amoF op (8 * w) old v
         Ends (.remoteAtomicPerform k) s fun t =>
           answer (sext (8 * w) old) true t ∧ Stored s t key (bytesOf w new) ∧
             t.threads = if home = .site (siteOf i.src) then
               SMap.put u.threads i.src { u.thread i.src with nAtomic := (u.thread i.src).nAtomic + 1 } else u.threads) ∧
       (i.body = .ret (.ldf a) → s.resolve i.part a none i.cap = (.ok key, u) → u.mem = s.mem → u.full = s.full →
         u.poisoned key 8 = false → s.isFull key = true →
         Ends (.remoteLoadArrival k) s fun t =>
           answer (BitVec.ofNat 64 (s.num key 8)) false t ∧ t.mem = s.mem ∧ t.full = s.full ∧ t.threads = u.threads)) ∧
     (i.body = .response 0 a wr r req → i.dst = .hart h → h < peerSites * 32 →
       (s.tile (siteOf h)).takesResponse = true → (s.thread h).status = .blocked .response → (s.thread h).req = req + 1 →
       Ends (.responseArrival k) s fun t =>
         t.thread h = (s.thread h).resume r ∧ t.mem = s.mem ∧ t.cores = s.cores ∧
           ∀ j, j ≠ h → t.thread j = s.thread j) ∧
     (i.body = .response 8 a wr r req → i.dst = .hart h → h < peerSites * 32 →
       (s.tile (siteOf h)).takesResponse = true → (s.thread h).status = .blocked .response → (s.thread h).req = req + 1 →
       Ends (.responseArrival k) s fun t =>
         (t.thread h).status = .parked ∧ (t.thread h).haddr = BitVec.ofNat 64 (a % 2 ^ 56) ∧
           (t.thread h).pc = (s.thread h).pc ∧ (t.thread h).x = (s.thread h).x) ∧
     (i.body = .fault page h none → ((s.part i.part).faults.find? fun e => e.page == pageOf page) = none →
       let root := ((s.ctlTiles i.part).head?.map (·.2)).getD 0
       let start := entrySite (siteOf i.src)
       let up := s.climb i.part (pageOf page) ((wayTo start root).filter (· != root)) start
       (up = none → Ends (.faultMessage k) s fun t => t = s) ∧
       (up = some (false, u) → Ends (.faultMessage k) s fun t => t = u.dropItem i.ord) ∧
       (up = some (true, u) → (s.part i.part).assist = 0 →
         (s.part i.part).wakes.any (fun x => x.1 == pageOf page) = false →
         Ends (.faultMessage k) s fun t => t.threads = s.threads ∧
           (t.part i.part).faults.map (·.page) = (s.part i.part).faults.map (·.page) ++ [pageOf page]))) ∧
  (∀ (s u : State) (p va : Nat) (cap : Option (Nat × Nat)) (e : TlbEntry),
     let rid := bitsN e.leaf.toNat 63 48
     let mode := if rid = 0 then 3 else bitsN e.w1.toNat 1 0
     let owner := mode = 1 ∧ cap = some (rid, bitsN e.w1.toNat 63 48)
     let granted := HomeAns.ok (u.entryKey p e va)
     s.translate p va = (.ok e, u) →
     s.resolve p va none cap = (granted, u) ∧
     (owner → s.resolve p va (some .store) cap = (granted, u) ∧ s.resolve p va (some .atomic) cap = (granted, u)) ∧
     (mode = 2 → s.resolve p va (some .atomic) cap = (granted, u) ∧ s.resolve p va (some .store) cap = (.bad 2, u)) ∧
     (mode = 1 → ¬ owner → s.resolve p va (some .store) cap = (.bad 3, u) ∧ s.resolve p va (some .atomic) cap = (.bad 3, u)) ∧
     (mode = 0 ∨ mode = 3 → s.resolve p va (some .store) cap = (.bad 2, u) ∧ s.resolve p va (some .atomic) cap = (.bad 2, u))) ∧
  (∀ (s : State) (p page : Nat),
     let mine (i : Item) : Bool := s.wakes p page i
     let follows (i : Item) : Bool := i.atPage && s.net.any fun j => mine j && j.src == i.src && j.target == i.target && j.ord < i.ord
     (s.part p).wakes.contains (page, true) = true →
     Ends (.wake p page true) s fun t =>
       t.mem = s.mem ∧ t.threads = s.threads ∧
         (t.part p).routers = (s.part p).routers.filter (fun e => e.page != page) ∧
         t.net = s.net.map fun i => if mine i || follows i then { i with stage := .waiting } else i) ∧
  (∀ (s : State) (p va : Nat),
     let home := if segOf va = 1 then s.homeSite p va else none
     let cached := (s.tlbOf home va).find? fun e => e.part == p && e.page ≤ va && va < e.page + e.size
     let root := s.num (kWindow p + 0x40000) 8
     let slot (node lo n : Nat) : Nat := node + 8 * bitsN va (lo + n - 1) lo
     let fails (c : Nat) : Prop := s.translate p va = (.error c, s)
     let reads (node lo n e : Nat) : Prop :=
       slot node lo n + 8 ≤ Config.hbmBytes ∧ s.poisoned (slot node lo n) 8 = false ∧ s.num (slot node lo n) 8 = e
     let pointer (e next : Nat) : Prop := e % 256 = 1 ∧ next = bitsN e 47 8 * 256
     let leaf (e : Nat) : Prop := e % 8 = 1 ∧ bitsN e 7 4 = 1
     let level (node lo n : Nat) (allowed last : Bool) : Prop :=
       (Config.hbmBytes < slot node lo n + 8 → fails 10) ∧
       ∀ e, reads node lo n e →
         (e % 2 = 0 → fails 8) ∧
         (e % 2 = 1 → bitsN e 7 5 ≠ 0 ∨ bitsN e 2 1 ≠ 0 → fails 10) ∧
         (leaf e → allowed = false → fails 10) ∧
         (e % 16 = 9 → bitsN e 7 4 = 0 → fails 10) ∧
         (last = true → ∀ next, pointer e next → fails 10) ∧
         (allowed = true → leaf e →
           (s.leafOk home va e lo = false → fails 10) ∧
           (s.leafOk home va e lo = true →
             let w := s.region p (bitsN e 63 48)
             let t : TlbEntry := { part := p, page := va / 2 ^ lo * 2 ^ lo, size := 2 ^ lo, leaf := BitVec.ofNat 64 e,
                                   w0 := BitVec.ofNat 64 w.1, w1 := BitVec.ofNat 64 w.2 }
             s.translate p va = (.ok t, s.cache home va t)))
     (segOf va = 1 → bitsN va 47 45 ≠ 0 → fails 2) ∧
     (segOf va = 1 → bitsN va 47 45 = 0 → s.homeSite p va = none → fails 14) ∧
     (segOf va ≠ 1 ∨ bitsN va 47 45 = 0 ∧ (s.homeSite p va).isSome = true →
       (∀ e, cached = some e → s.translate p va = (.ok e, s)) ∧
       (cached = none → root = 0 → fails 10) ∧
       (cached = none → root ≠ 0 → level root 48 8 false false ∧ ∀ e n3, reads root 48 8 e → pointer e n3 →
         level n3 39 9 false false ∧ ∀ e n2, reads n3 39 9 e → pointer e n2 →
         level n2 30 9 true false ∧ ∀ e n1, reads n2 30 9 e → pointer e n1 →
         level n1 21 9 true false ∧ ∀ e n0, reads n1 21 9 e → pointer e n0 → level n0 16 5 true true))) ∧
  ∀ (s : State) (va e lo site : Nat),
    let frame := bitsN e 47 8 * 256
    (s.leafOk none va e lo = true ↔ frame % 2 ^ lo = 0 ∧ bitsN e 3 3 = 0 ∧ frame + 2 ^ lo ≤ Config.hbmBytes ∧
      frame / 65536 % 48 = va / 2 ^ lo * 2 ^ lo / 65536 % 48) ∧
    (s.leafOk (some site) va e lo = true ↔ frame % 2 ^ lo = 0 ∧
      frame + 2 ^ lo ≤ if bitsN e 3 3 = 0 then 0x3D0000 else (s.tile site).usable * 2 ^ 20)

/-! ### The core scheduler (spec/06_scheduler.md) -/

/-- R38, R39, R115, R117, R120, R122, R125, R131, R133, R136: filling a slot, stealing, the budget watchdog, pre-emption,
scan slices and the termination wave. A quantum that has ended, with nothing collected and no queue or boundary due, counts
one more quantum of its partition; other partitions stay. The place of a stolen frame is the model's choice (log 94), and so is how
a self-test interval is measured (log 92). -/
def Obligations.SchedulerStepResults : Prop :=
  (∀ (s : State) (site n k ch h p job : Nat) (m : Msg) (f : Frame) (rest : List Frame) (i : Item) (a : Activation) (j : Job)
     (sw : Steal),
     let key := site * 4 + n
     let core := s.core key
     let set (c : Core) (t : State) : Prop :=
       { t with cores := s.cores } = s ∧ t.core key = c ∧ ∀ x, x ≠ key → t.core x = s.core x
     let place := (core.frameAt key core.frameSlot).bind fun a => s.localKey (key / 4) a 80
     let due := s.slicesOf key < 64 ∧ (s.scanIndex key + 1) * s.scanSpan < s.scanNow key - core.scanFrom + 10 ^ 8 ∧
       core.scanRest = false
     (n < 4 → s.mayFill key = true → (s.tile site).replaying = false → s.det ((s.partOfSite site).getD 0) = false →
       s.freeSlot key = some h → core.nextChannel = some ch → (core.chan ch).head = some m → m.hdr.kind ≠ 1 →
       Ends (.slotFill site n) s fun t =>
         (t.thread h).status = .running ∧ (t.thread h).priv = .U ∧ (t.thread h).pc = (core.handler ch).haddr ∧
           (∀ r : Fin 32, (t.thread h).x[r] = if 10 ≤ r.val ∧ r.val < 18 then vget 0 m.payload (r.val - 10) else 0) ∧
           (t.thread h).hmsgid = m.mid ∧ (t.thread h).vl = 128 ∧ (t.thread h).lpcount = 0 ∧
           (t.thread h).seq = (s.thread h).seq ∧ t.mem = s.mem ∧ ∀ x, x ≠ h → t.thread x = s.thread x) ∧
     (s.net[k]? = some i → i.stage = .waiting → i.body = .stealReq h → i.dst = .core p → s.coreKey i.part p = some key →
       key / 4 = site → (s.tile site).works = true → (s.tile site).replaying = false → core.deque = f :: rest →
       core.preempt = false →
       Ends (.stealRequest k) s fun t => t.cores = SMap.put s.cores key { core with deque := rest } ∧ t.mem = s.mem ∧
         t.threads = s.threads ∧ ∃ x ∈ t.net, x.body = .stealAns (some f) ∧ x.dst = .core h) ∧
     (s.net[k]? = some i → i.stage = .waiting → i.body = .stealAns (some f) → i.dst = .core p →
       s.coreKey i.part p = some key → key / 4 = site → (s.tile site).works = true → (s.tile site).replaying = false →
       Ends (.stealAnswer k) s fun t =>
         t.cores = SMap.put s.cores key { core with deque := core.deque ++ [{ f with slot := core.frameSlot }], steal := none } ∧
           (place = none → t.mem = s.mem) ∧ (∀ q, place = some q → MemWf s → Stored s t q f.bytes) ∧ t.threads = s.threads ∧
           t.net = s.net.filter fun x => x.ord != i.ord) ∧
     (core.steal = some sw → sw.pausing = true → s.mayFill key = false →
       Ends (.stealSweepWait site n) s (set { core with steal := none })) ∧
     ((s.thread h).act = some a → (s.thread h).priv = .U → (s.thread h).status ≠ .parked → (s.thread h).budget = 0 →
       (s.tile (siteOf h)).works = true → Ends (.budgetOverrun h) s fun t =>
         (t.thread h).act = none ∧ (t.thread h).status = .free ∧ ∀ x, x ≠ h → t.thread x = s.thread x) ∧
     (s.det ((s.partOfSite site).getD 0) = false →
       Ends (.preemptionRequest site n) s (set { core with preempt := true }) ∧
       (core.preempt = true → (s.tile (key / 4)).replaying = false → (s.tile (key / 4)).awaits = false →
         (∀ x < 8, (s.thread (key * 8 + x)).status = .free ∨ (s.thread (key * 8 + x)).status = .parked) →
         Ends (.preemptionComplete site n) s (set { core with preempted := true }))) ∧
     (s.det ((s.partOfSite site).getD 0) = true →
       Ends (.preemptionRequest site n) s (set { core with preReq := true })) ∧
     (s.sliceDue key = true →
       (s.slicesOf key + 1 ≠ 64 ∨ core.scanAsked = false → Ends (.scanSlice site n true) s
         (set { core with
           slices := s.slicesOf key + 1, scanIv := s.scanIndex key, scanDue := false, scanRest := s.scanUrgent key })) ∧
       (s.slicesOf key + 1 = 64 → core.scanAsked = true → Ends (.scanSlice site n true) s fun t =>
         { t with cores := s.cores, tiles := s.tiles, firnMem := s.firnMem } = s ∧
         t.core key = { core with slices := 0, scanIv := 0, scanFrom := s.scanNow key, scanDue := false, scanAsked := false,
                                  scanRest := false } ∧
         (∀ x, x ≠ key → t.core x = s.core x) ∧ ∀ x, x ≠ site → t.tile x = s.tile x) ∧
       Ends (.scanSlice site n false) s fun t => (t.tile site).failed = true ∧ t.mem = s.mem ∧ t.threads = s.threads ∧
         ((s.tile site).failed = false → (t.tile site).failc = 2)) ∧
     ((s.tile site).works = true → due → Ends (.selfTestDeadline site n) s (set { core with scanDue := true })) ∧
     (¬ due → Ends (.selfTestDeadline site n) s fun t => t = s) ∧
     ((s.part p).job job = some j → (s.part p).stage = .active → s.launching p job = false → s.jobTaken p job = false →
       ((s.partTiles p).all fun b => s.quietTile b.2 job) = true → (s.part p).floeHolds job = false →
       s.homesQuiet job = true → (s.sums p job).1 = (s.sums p job).2 →
       (j.lastWave ≠ some (s.sums p job) → Ends (.terminationWave p job) s fun t =>
         t.mem = s.mem ∧ t.threads = s.threads ∧ t.taken = s.taken ∧
           ∃ x : Job, (t.part p).job job = some x ∧ x.lastWave = some (s.sums p job)) ∧
       (j.lastWave = some (s.sums p job) → Ends (.terminationWave p job) s fun t =>
         t.mem = s.mem ∧ t.threads = s.threads ∧ ((t.part p).job job).isNone = true))) ∧
  (∀ (s : State) (p : Nat),
     s.quantumOver p = true → s.net = [] → (∀ b ∈ s.partTiles p, s.nextQueue b.2 = none) →
     (∀ b ∈ s.partTiles p, (s.tile b.2).stage ≠ .closing) →
     Ends (.quantumEnd p) s fun t => (t.part p).quanta = (s.part p).quanta + 1 ∧ ∀ q, q ≠ p → t.part q = s.part q)

/-! ### Checkpoints, failures and recovery (spec/12_recovery.md) -/

/-- R17, R197-R200, R227, R235, R237-R248: closing an interval, the boundary, the commit, which names the interval in the
header at the buddy; a tile that stops, whose recovery waits for the one its region's supervisor is at; the choice between
tile recovery and partition rollback, the restore of a firn copy whose tags hold; corrected and uncorrectable errors, failed
memory banks; the rollback of a partition. A supervisor's own failure does not wait. The model's choices are that a watchdog of the
spine gives cause 6 (log 61), what SPUSED and a second accumulator bank do after a rebuild (log 98), and the mark that a switched-out
partition keeps of what it has lost (log 76). -/
def Obligations.RecoveryStepResults : Prop :=
  ∀ (s : State) (site cause bad at_ p l n m seg b k : Nat) (spine : Bool) (f : Firn),
    let x := s.tile site
    let pt := s.part p
    let only (y : Tile) (t : State) : Prop := t = s.setTile site y
    let u := s.stopTile site cause
    let v := u.noteLost site
    (x.stage = .open_ → s.checkpoints site = true → s.closeDue site = true →
      Ends (.intervalClose site) s (only { x with stage := .closing })) ∧
    (s.atBoundary site = true → s.det ((s.partOfSite site).getD 0) = false →
      Ends (.checkpointBoundary site) s fun t =>
        (t.tile site).ival = x.ival + 1 ∧ (t.tile site).stage = .copying ∧ t.mem = s.mem ∧ t.threads = s.threads ∧
          t.cores = s.cores ∧ ∃ (g : Firn) (r : List Firn), t.firns = g :: r ∧ g.ival = x.ival) ∧
    (x.stage = .copying → s.checkpoints site = true → x.notices = [] → s.egressQ = [] →
      Ends (.intervalCommit site) s fun t =>
        (t.tile site).stage = .open_ ∧ t.mem = s.mem ∧ t.threads = s.threads ∧ t.firns = s.firns ∧
          (x.buddy = some b → Memory.wf s.firnMem = true → 2 ≤ x.ival → x.ival ≤ 2 ^ 64 → t.headIval b = some (x.ival - 1))) ∧
    (x.role ≠ .retired → x.role ≠ .void → (s.assists.all fun a => !(a.func == 4 && a.obj == site)) = true →
      (∀ g ∈ s.failQ, g.1 ≠ site) → site < Config.numSites → x.failed = false → u.recovering (regionOf site) = true →
      x.role ≠ .supervisor → (∀ g ∈ s.failQ, regionOf g.1 = regionOf site → (s.tile g.1).role ≠ .supervisor) →
      Ends (.tileFailure site cause) s fun t => t = { u with failQ := s.failQ ++ [(site, cause)] }) ∧
    (x.role ≠ .retired → x.role ≠ .void → (s.assists.all fun a => !(a.func == 4 && a.obj == site)) = true →
      (∀ g ∈ s.failQ, regionOf g.1 ≠ regionOf site) → site < Config.numSites → x.failed = false →
      u.recovering (regionOf site) = false ∨ x.role = .supervisor → u.restoringFrom site = none →
      (x.rank = some l → u.partOfSite site = none → Ends (.tileFailure site cause) s fun t => t = (u.replaceTile l site cause).2) ∧
      (x.rank = none → Ends (.tileFailure site cause) s fun t => t = u.retirePlain site cause) ∧
      (x.rank = some l → u.partOfSite site = some p → x.stage = .open_ →
        (x.prot = false ∨ v.hasFirn l = false → Ends (.tileFailure site cause) s fun t => t = v.rollTile p l site cause) ∧
        (x.prot = true → v.hasFirn l = true → (v.part p).assist.testBit 4 = false →
          Ends (.tileFailure site cause) s fun t => t = v.recoverTile p l site cause) ∧
        (x.prot = true → v.hasFirn l = true → (v.part p).assist.testBit 4 = true →
          Ends (.tileFailure site cause) s fun t => t = v.assistFor 4 p (BitVec.ofNat 64 l) site))) ∧
    (x.failed = false → x.role ≠ .retired → x.role ≠ .void →
      Ends (.hardwareWatchdog ⟨site, spine⟩) s (only { x with failed := true, failc := if spine then 6 else 4 }) ∧
      Ends (.uncorrectableError 0 site) s (only { x with failed := true, failc := 5 }) ∧
      Ends (.uncorrectableError 4 site) s (only { x with failed := true, failc := 5, bodyOnly := true })) ∧
    (x.home = some n → Ends (.uncorrectableError 1 site) s fun t => t = s.loseHome n) ∧
    (at_ * 64 < Config.hbmBytes →
      Ends (.uncorrectableError 2 at_) s fun t => t = { s with poison := KeySet.add s.poison at_ }) ∧
    (at_ < Config.numStacks → Ends (.uncorrectableError 3 at_) s fun t => t.mem = s.mem ∧
      ∀ q ∈ s.stackUsers at_, ((s.part q).stage ≠ .out → (t.part q).stage = .stopped) ∧
        ((s.part q).stage = .out → (t.part q).stage = .out ∧ (t.part q).lost = true)) ∧
    (x.awaits = true → x.failed = false →
      (x.buddy = some b → (s.tile b).failed = false → s.firnOf (x.rank.getD 0) = some f →
        s.badTag site (x.rank.getD 0) b = none → s.det ((s.partOfSite site).getD 0) = false →
        Ends (.firnRestore site 0) s fun t => (t.tile site).awaits = false ∧ (t.tile site).replaying = true ∧ (t.tile site).replay = sinceMark x.log) ∧
      (s.hasPart ((s.partOfSite site).getD 0) = true →
        (x.buddy = none ∨ s.firnOf (x.rank.getD 0) = none ∨ bad % 8 ≠ 0 ∨
          (x.buddy = some b ∧ ((s.tile b).failed = true ∨ (s.badTag site (x.rank.getD 0) b).isSome = true))) →
        Ends (.firnRestore site bad) s fun t => (t.part ((s.partOfSite site).getD 0)).stage = .stopped)) ∧
    (x.replaying = true → x.awaits = false → x.replay = [] → s.buddyWorks site = true → s.det ((s.partOfSite site).getD 0) = false →
      Ends (.replayEnd site) s fun t => (t.tile site).replaying = false ∧ t.mem = s.mem ∧ t.threads = s.threads ∧
        t.cores = s.cores) ∧
    (agentOf site = none → Ends (.scrub site n m) s
      (only { x with bbce := Min.min (x.bbce + n) 0xFFFF, spce := Min.min (x.spce + m) 0xFFFF })) ∧
    (agentOf site = some k → Ends (.scrub site n m) s fun t => t = s.setAgent k { s.agent k with ce := (s.agent k).ce + n }) ∧
    (x.failed = false → x.role ≠ .retired → x.role ≠ .void →
      let failing : Tile := { x with failb := Min.min (x.failb + 1) 5, spbuild := x.spbuild || !x.spused }
      (x.failb < 4 → Ends (.bankRebuild ⟨site, 0⟩) s (only failing)) ∧
      (4 ≤ x.failb → Ends (.bankRebuild ⟨site, 0⟩) s (only { failing with failed := true, failc := 5 })) ∧
      (x.spbuild = true → Ends (.bankRebuild ⟨site, 1⟩) s
        (only { x with spbuild := false, spused := true, failb := x.failb - 1 })) ∧
      (x.accbuild = false → Ends (.bankRebuild ⟨site, 2⟩) s (only { x with accbuild := true })) ∧
      (x.accbuild = true → Ends (.bankRebuild ⟨site, 2⟩) s (only { x with failed := true, failc := 5, bodyOnly := true })) ∧
      (x.accbuild = true → x.accused = false → Ends (.bankRebuild ⟨site, 3⟩) s
        (only { x with accbuild := false, accused := true }))) ∧
    (pt.stage = .stopped → pt.rpCur = 0 → pt.badStacks = [] → pt.restore = none →
      Ends (.partitionRollback p) s fun t => (t.part p).stage = .active ∧ (t.part p).jobs = []) ∧
    (pt.stage = .out → pt.lost = true → Ends (.partitionRollback p) s fun t =>
      (t.part p).stage = .out ∧ (t.part p).lost = false ∧ t.saves = s.saves.filter (fun r => r.part != p)) ∧
    (pt.stage = .restoring → s.devValid = true → pt.readTodo.contains seg = true →
      (pt.readTodo.erase seg ≠ [] → Ends (.segmentReadBack p seg true) s fun t =>
        t = s.setPart p { pt with readTodo := pt.readTodo.erase seg }) ∧
      Ends (.segmentReadBack p seg false) s fun t => t = s) ∧
    Ends (.hbmStackRetrain n false) s (fun t => t = s) ∧
    ((∀ q, (s.part q).stage ≠ .restoring) → Ends (.hbmStackRetrain n true) s fun t => t.mem = s.mem ∧
      t.threads = s.threads ∧ ∀ q, s.hasPart q = true →
        (t.part q).badStacks = KeySet.drop (s.part q).badStacks n)

/-! ### The host port and the Rypol ports (spec/04_links.md, spec/05_command.md) -/

/-- R69, R72-R74, R77, R83, R84, R87: the queue registers as a write of the host leaves them, the status of a Rypol port, and
the same through BAR0. A flit that is not good asks for a replay; one in sequence is taken, and a message in it goes to its core; a
request of the other end sends the flits from the one it names on again. What the port does after 16 replays in 1 ms is
`Port.askReplay`. The model's choices are that every queue write before STATE 2 is dropped (log 66), that a refused access sets bit
20 of the function's uncorrectable error status (log 95), that the retry buffer keeps a flit until a request passes it (log 103),
and that a bulk flit changes the link sequence only (log 40). -/
def Obligations.HostPortResults : Prop :=
  (∀ (s : State) (fn q port : Nat) (val : Word),
     let r := s.queue fn q
     let v := val.toNat
     let bound := (s.partOfFn fn).isSome = true
     let page := (if fn = pf then 0x100000 else 0) + 0x1000 * q
     let only (r' : QRegs) (t : State) : Prop :=
       { t with queues := s.queues } = s ∧ t.queue fn q = r' ∧
         ∀ fn' q', q' < 16 → (fn', q') ≠ (fn, q) → t.queue fn' q' = s.queue fn' q'
     let cfg : QRegs := { r with errvec := bitsN v 31 24, prio := bitsN v 19 16 }
     let refusedAt (off : Nat) (t : State) : Prop := t = { s with
       aer := SMap.put s.aer fn (SMap.get 0 s.aer fn ||| 2 ^ 20), outs := s.outs ++ [.unsupported fn off] }
     let same (t : State) : Prop := t = s
     let portOnly (t : State) : Prop := { t with ports := s.ports } = s ∧
       t.port port = { s.port port with
         crcerr := (s.port port).crcerr &&& (0xFFFF - v / 2 ^ 48), replay := (s.port port).replay &&& (0xFFFF - v / 2 ^ 32 % 2 ^ 16) }
       ∧ ∀ k, k ≠ port → t.port k = s.port k
     (hasQueue fn q = true → bound → s.boot.state ≠ 2 → Ends (.qbaseWrite fn q val) s same ∧ Ends (.qcfgWrite fn q val) s same ∧
       Ends (.qnotifyWrite fn q val) s same ∧ Ends (.qstatWrite fn q val) s same) ∧
     (hasQueue fn q = true → bound → s.boot.state = 2 →
       (r.en = true → Ends (.qbaseWrite fn q val) s fun t => t = s) ∧
       (r.en = false → Ends (.qbaseWrite fn q val) s (only { r with base := BitVec.ofNat 64 (v / 4096 * 4096) })) ∧
       (r.en = true → Ends (.qcfgWrite fn q val) s (only { cfg with en := val.getLsbD 0 })) ∧
       (r.en = false → val.getLsbD 0 = true → 4 ≤ bitsN v 8 4 → bitsN v 8 4 ≤ 16 → Ends (.qcfgWrite fn q val) s (only { cfg with
         sizelog := bitsN v 8 4, en := true, qread := 0, notified := 0, erridx := 0, errcode := 0, stopped := false, polls := 0,
         enables := r.enables + 1 })) ∧
       (r.en = false → val.getLsbD 0 = false → Ends (.qcfgWrite fn q val) s (only { cfg with sizelog := bitsN v 8 4 })) ∧
       (let n : BitVec 32 := val.setWidth 32
         let fits := (n - r.qread).toNat ≤ 2 ^ r.sizelog ∧ (n - r.notified).toNat ≤ 2 ^ r.sizelog
         (fits → Ends (.qnotifyWrite fn q val) s (only { r with notified := n })) ∧
         (¬ fits → Ends (.qnotifyWrite fn q val) s fun t =>
           t.queue fn q = { r with stopped := true, errcode := 8, erridx := n, polls := 0 } ∧ t.cores = s.cores ∧
             t.taken = s.taken ∧ OnlySeqs s t)) ∧
       (val.getLsbD 1 = true → Ends (.qstatWrite fn q val) s (only { r with stopped := false, errcode := 0 })) ∧
       (val.getLsbD 1 = false → Ends (.qstatWrite fn q val) s fun t => t = s) ∧
       (r.en = false → Ends (.registerWrite fn page 8 val) s (only { r with base := BitVec.ofNat 64 (v / 4096 * 4096) })) ∧
       exec (.registerWrite fn (page + 0x08) 8 val) s = exec (.qcfgWrite fn q val) s ∧
       exec (.registerWrite fn (page + 0x10) 8 val) s = exec (.qnotifyWrite fn q val) s ∧
       exec (.registerWrite fn (page + 0x20) 8 val) s = exec (.qstatWrite fn q val) s) ∧
     (fn < 16 → q < 16 → s.partOfFn fn = none →
       Ends (.qbaseWrite fn q val) s (refusedAt page) ∧ Ends (.qcfgWrite fn q val) s (refusedAt (page + 0x08)) ∧
       Ends (.qnotifyWrite fn q val) s (refusedAt (page + 0x10)) ∧ Ends (.qstatWrite fn q val) s (refusedAt (page + 0x20)) ∧
       Ends (.registerWrite fn page 8 val) s (refusedAt page)) ∧
     (∀ size, fn ≤ 16 → size ≠ 8 → Ends (.registerWrite fn page size val) s (refusedAt page)) ∧
     (port < 64 → Ends (.portStatusWrite port val) s portOnly ∧
       (Ends (.registerWrite pf (0x10000 + 8 * port) 8 val) s portOnly))) ∧
  (∀ (s : State) (port from_ lanes p : Nat) (ok : Bool) (words : List Word) (before after : List Flit) (named : Flit),
     let x := s.port port
     let typ := (words.getD 0 0).toNat % 16
     let lseq := (words.getD 0 0).toNat / 2 ^ 8 % 2 ^ 16
     let flit := Instr.flitReceive port ok none lanes words
     let again := Instr.flitReceive port ok (some from_) lanes words
     let asked := { s.setPort port (x.askReplay s.refTime lanes) with outs := s.outs ++ [.replayRequest port x.lseq] }
     let resent (fs : List Flit) (t : State) : Prop :=
       t = { s.setPort port { x with retry := fs } with outs := s.outs ++ fs.map fun f => .flit port f.words }
     let h := headerOf (words.getD 1 0).toNat (words.getD 2 0).toNat
     let next := s.setPort port { x with lseq := (x.lseq + 1) % 2 ^ 16 }
     (x.state ≠ 2 → x.state ≠ 3 → Ends flit s (fun t => t = s) ∧ Ends again s fun t => t = s) ∧
     (x.state = 2 ∨ x.state = 3 →
       (x.retry = before ++ named :: after → named.seq = from_ % 2 ^ 16 → (∀ f ∈ after, f.seq ≠ from_ % 2 ^ 16) →
         Ends again s (resent (named :: after))) ∧
       ((∀ f ∈ x.retry, f.seq ≠ from_ % 2 ^ 16) → Ends again s (resent [])) ∧
       (ok = false ∨ (typ ≠ 1 ∧ typ ≠ 2) → Ends flit s fun t =>
         ((x.askReplay s.refTime lanes).state ≠ 0 → t = asked) ∧
         ((x.askReplay s.refTime lanes).state = 0 → t = asked.portDown port)) ∧
       (ok = true → typ = 1 ∨ typ = 2 → lseq ≠ x.lseq → Ends flit s fun t => t = s) ∧
       (ok = true → typ = 2 → lseq = x.lseq → Ends flit s fun t => t = next) ∧
       (ok = true → typ = 1 → lseq = x.lseq → words.getD 1 0 ≠ 0 → h.kind < 6 → s.jobOwner h.job = some p →
         (∀ j ∈ [11, 12, 21, 22], words.getD j 0 = 0) →
         Ends flit s fun t => { t with net := next.net, ordCtr := next.ordCtr } = next ∧
           ∃ (i : Item) (m : Msg), t.net = s.net ++ [i] ∧ i.body = .message m ∧ i.dst = .core (h.drank / 8) ∧ i.part = p ∧ m.hdr = h ∧
             i.stage = .waiting ∧ ∀ j, j < 8 → vget 0 m.payload j = words.getD (3 + j) 0)))

/-- R89: a packet starts only when every earlier packet of its queue has started and none of them is an open barrier packet,
one with BARRIER set only when every earlier packet of its queue has completed; on a control tile that works it may then
start, whatever other queues hold (a launch is distributed after those of higher PRIO, R101). Until then each of the steps
that start a packet changes nothing. -/
def Obligations.PacketStartOrder : Prop :=
  ∀ (s : State) (k : Nat) (x : Taken),
    let before := (s.taken.take k).filter fun y => y.src == x.src
    let free := if (x.word 0).getLsbD 1 then before = [] else
      ∀ y ∈ before, (y.stage = .waiting ∨ y.stage = .running ∨ y.stage = .finished) ∧ y.typ ≠ 3 ∧ y.typ ≠ 4
    let starts : List Instr := [.launchPacket k, .copyPacket k, .barrierAndPacket k, .barrierOrPacket k, .signalStore k,
      .signalAdd k, .signalSubtract k, .graphReplayPacket k, .expertQueueConfiguration k, .recoveryPoint k, .quote k, .create k,
      .destroy k, .bindvf k, .unbindvf k, .egress k, .cstep k, .selftest k, .devid k, .readmit k, .modes k, .events k,
      .switchout k, .switchin k, .assist k, .restore k]
    s.taken[k]? = some x → (s.taken.map (·.id)).Nodup → x.stage = .ready →
    (free → s.cpRuns x.part x.ctl = true → s.startable x = true) ∧
    (¬ free → ∀ i ∈ starts, Ends i s fun t => t = s)

/-! ### The command processor (spec/05_command.md) -/

/-- R86, R87, R93, R101-R103, R107, R150: taking the next packet of a queue, in a slot on the host: it is taken, and a barrier
packet that may start is evaluated; it is polled; or the queue stops. Nothing is taken while a home of what is read with it is being
recovered (R24). A queue of higher PRIO goes before a poll. -/
def Obligations.PacketTakeResults : Prop :=
  ∀ (s : State) (p c prio key fn q : Nat) (w : Vector Word 8) (mid : Word) (n ch : Nat)
    (rest : List (Vector Word 8 × Word × Nat × Nat)),
    let r := s.queue fn q
    let at_ := kHost r.slot.toNat
    let w8 := s.words8 at_
    let pk := { newTaken s.nextId (.vf fn q) r.qread.toNat p c r.prio w8 0 0 with era := r.enables }
    let accept (u : State) (y : Taken) (t : State) : Prop := (u.addPacket y).taken = u.taken ++ [y] ∧
      (y.typ ≠ 1 → y.typ ≠ 3 → y.typ ≠ 4 → y.typ ≠ 6 → y.typ ≠ 7 → t = u.addPacket y) ∧
      (y.typ = 3 ∨ y.typ = 4 → t =
        if (u.addPacket y).startable y = true ∧ (u.part p).assist.testBit 1 = false
        then (((u.addPacket y).setPacket y.id .running).evaluate y).2 else u.addPacket y)
    let from_ (v t : State) : Prop :=
      let back := (v.putNum at_ 8 ((vget 0 w8 0).toNat - 1)).sawHost fn (r.slot.toNat % 2 ^ 63) 8
      let u := { back.setQueue fn q { r with qread := r.qread + 1, polls := 0 } with nextId := s.nextId + 1 }
      ((vget 0 w8 0).getLsbD 0 = true → v.readableNow p w8 = false → t = v) ∧
      ((vget 0 w8 0).getLsbD 0 = true → v.readableNow p w8 = true →
        (u.checkPacket pk = 0 → accept u pk t ∧ (pk.typ = 2 ∨ pk.typ = 5 ∨ 8 ≤ pk.typ →
          Stored s t at_ (bytesOf 8 ((vget 0 w8 0).toNat - 1)))) ∧
        (u.checkPacket pk ≠ 0 → t.queue fn q = { r with
          qread := r.qread + 1, polls := 0, stopped := true, errcode := u.checkPacket pk, erridx := r.qread } ∧ OnlySeqs s t ∧
          ∀ x ∈ t.taken, x ∈ s.taken)) ∧
      ((vget 0 w8 0).getLsbD 0 = false →
        (r.polls < 999 → t = v.setQueue fn q { r with polls := r.polls + 1 }) ∧
        (999 ≤ r.polls → t.queue fn q = { r with
          qread := r.qread + 1, polls := 0, stopped := true, errcode := 7, erridx := r.qread } ∧ t.taken = s.taken))
    let turned := { s with turns := SMap.put s.turns (turnKey p c prio) key }
    MemWf s → s.cpRuns p c = true →
    (s.nextTake p c = some (prio, key, .vf fn q) → r.slot.getLsbD 63 = true → Ends (.packetTake p c) s (from_ turned)) ∧
    (s.nextTake p c = some (prio, key, .device p c) → (SMap.get DevQueue.init s.devq (p * 4 + c)).slots = (w, mid, n, ch) :: rest →
      let dev := newTaken s.nextId (.device p c) 0 p c 8 w mid ch
      let u := { turned with nextId := s.nextId + 1,
                             devq := SMap.put s.devq (p * 4 + c) { SMap.get DevQueue.init s.devq (p * 4 + c) with slots := rest } }
      (turned.readableNow p w = true → u.checkPacket dev = 0 → Ends (.packetTake p c) s (accept u dev)) ∧
      (turned.readableNow p w = false → Ends (.packetTake p c) s fun t => t = turned)) ∧
    (s.nextTake p c = none → Ends (.packetTake p c) s fun t => t = s) ∧
    (s.partOfFn fn = some p → (c = if p = 0 then 0 else s.server p q) → r.polls ≠ 0 → r.en = true → r.slot.getLsbD 63 = true →
      ((∀ x ∈ s.takeable p c, x.1 ≤ r.prio) → Ends (.validPoll fn q) s (from_ s)) ∧
      ((∃ x ∈ s.takeable p c, r.prio < x.1) → Ends (.validPoll fn q) s fun t => t = s)) ∧
    (s.partOfFn fn = some p → (c = if p = 0 then 0 else s.server p q) → r.polls ≠ 0 → r.en = false →
      Ends (.validPoll fn q) s fun t => t = s.setQueue fn q { r with polls := 0 })

/-- R81, R90-R94, R105, R108: completion, launch, copy, barrier and signal packets, with signals and data on the host. While the egress
buffer of the host port is full, what writes host memory waits. -/
def Obligations.PacketResults : Prop :=
  ∀ (s : State) (k : Nat) (x : Taken),
    let now (st : PStage) (t : State) : Prop := t.taken = s.taken.map fun y => if y.id = x.id then { y with stage := st } else y
    let val (a : Word) : Nat := s.num (kHost a.toNat) 8
    let down (a : Word) : Prop := val a = 0 ∨ 2 ^ 63 ≤ val a
    let met := if x.typ = 3 then ∀ a ∈ x.signals, down a else ∃ a ∈ x.signals, down a
    let start (i : Nat → Instr) (P : State → Prop) : Prop := s.startable x = true → Ends (i k) s P
    let lone := (s.part x.part).prot = false
    let room := s.hostRoom x.part = true
    s.taken[k]? = some x → MemWf s →
    (s.packetDone x = false ∨ ¬ room → Ends (.packetComplete k) s fun t => t = s) ∧
    (¬ room → (x.typ = 5 → Ends (.signalStore k) s (fun t => t = s) ∧ Ends (.signalAdd k) s (fun t => t = s) ∧
        Ends (.signalSubtract k) s fun t => t = s) ∧
      (x.typ = 2 → (x.word 3).getLsbD 63 = true → Ends (.copyPacket k) s fun t => t = s)) ∧
    (s.packetDone x = true → room → x.caps = [] → x.typ ≠ 1 → (∀ g, x.src ≠ .graph g) →
      (x.signal = 0 → x.irq = false → Ends (.packetComplete k) s fun t =>
        t = { s with taken := s.taken.filter fun y => y.id != x.id }) ∧
      (x.signal.getLsbD 63 = true → lone → Ends (.packetComplete k) s fun t =>
        t.taken = s.taken.filter (fun y => y.id != x.id) ∧ OnlySeqs s t ∧ t.tiles = s.tiles ∧
          Stored s t (kHost x.signal.toNat) (bytesOf 8 (val x.signal + 2 ^ 64 - 1)) ∧
          t.outs = s.outs ++ [Output.hostWrite (s.fnOf x) (x.signal.toNat % 2 ^ 63) 8] ++
            (match x.irq, s.irqFn x with
             | true, some fn => if fn < 16 ∧ vget none s.vfs fn = none then [] else [Output.msix fn x.vector]
             | _, _ => []))) ∧
    (x.typ = 1 → s.launchTurn x = false → Ends (.launchPacket k) s fun t => t = s) ∧
    (x.typ = 1 → x.num 19 1 = 0 → s.launchTurn x = true → start .launchPacket fun t => ∃ w : Wave,
      t.waves = s.waves ++ [w] ∧ w.packet = x.id ∧ now .running t ∧ t.mem = s.mem ∧ t.cores = s.cores ∧ t.net = s.net ∧
        let holds (l lc : Nat) (it : Item) : Prop := it.dst = .core lc ∧ ∃ m : Msg, it.body = .message m ∧ m.hdr.drank = lc * 8 ∧
          m.hdr.chan = x.num 18 1 ∧ m.hdr.kind = 0 ∧ m.hdr.job = x.job ∧ x.members[l]? = some lc ∧
            ∀ j, j < 8 → vget 0 m.payload j = if j < 4 then x.word (4 + j) else 0
        (∀ g ∈ w.rest, ∀ it ∈ g.2, ∃ (l lc : Nat), holds l lc it) ∧
          ∀ l lc key, x.members[l]? = some lc → s.coreKey x.part lc = some key → regionOf (key / 4) < 16 →
            ∃ g ∈ w.rest, g.1 = regionOf (key / 4) ∧ ∃ it ∈ g.2, holds l lc it) ∧
    (x.typ = 2 → x.part = 0 → x.again = false → checkCopy x = 0 → (x.word 2).getLsbD 63 = true → (x.word 3).getLsbD 63 = true →
      start .copyPacket fun t => Stored s t (kHost (x.word 3).toNat) (s.bytes (kHost (x.word 2).toNat) (x.num 32 8)) ∧
        t.threads = s.threads ∧ OnlyLogs s t ∧ t.taken.map (·.id) = s.taken.map (·.id) ∧
          ∀ y ∈ t.taken, y.id = x.id → y.stage = .waiting) ∧
    ((∀ a ∈ x.signals, a.getLsbD 63 = true) → (x.typ = 3 ∨ x.typ = 4) →
      let packet : Nat → Instr := if x.typ = 3 then .barrierAndPacket else .barrierOrPacket
      ((s.part x.part).assist.testBit 1 = false →
        (met → start packet fun t => now .finished t ∧ { t with taken := s.taken } = s) ∧
        (¬ met → start packet fun t => now .running t ∧ { t with taken := s.taken } = s)) ∧
      (let asked (t : State) : Prop := now (.held s.nextId) t ∧ t.threads = s.threads ∧ t.tiles = s.tiles ∧
         ∃ a : Assist, t.assists = s.assists ++ [a] ∧ a.token = s.nextId ∧ a.func = 1 ∧ a.part = x.part
       ((s.part x.part).assist.testBit 1 = true → start packet asked) ∧
       (x.stage = .running → s.cpRuns x.part x.ctl = true →
        ((s.part x.part).assist.testBit 1 = true → Ends (.barrierEvaluation k) s asked) ∧
        ((s.part x.part).assist.testBit 1 = false → met → Ends (.barrierEvaluation k) s fun t =>
          now .finished t ∧ { t with taken := s.taken } = s) ∧
        ((s.part x.part).assist.testBit 1 = false → ¬ met → Ends (.barrierEvaluation k) s fun t => t = s)))) ∧
    (x.typ = 5 → (x.word 2).getLsbD 63 = true → lone → room →
      let a := x.word 2
      let set (v : Nat) (t : State) : Prop := Stored s t (kHost a.toNat) (bytesOf 8 v) ∧ now .waiting t ∧ OnlySeqs s t ∧
        t.tiles = s.tiles ∧ t.net = s.net
      (x.num 32 1 = 0 → start .signalStore (set (x.word 3).toNat)) ∧
      (x.num 32 1 = 1 → start .signalAdd (set (val a + (x.word 3).toNat))) ∧
      (x.num 32 1 = 2 → start .signalSubtract (set (val a + 2 ^ 64 - (x.word 3).toNat))))

/-- R36, R80, R95-R99, R152: graph replays, the configuration of an expert queue, recovery points and quotes, of packets that are taken
for the first time. The segments of a recovery point leave by the named ports in service; each also goes as bulk flits, whose form is
the model's choice (log 40). -/
def Obligations.LongPacketResults : Prop :=
  ∀ (s u : State) (k seg c : Nat) (x : Taken) (bs : List Byte) (r : Replay) (b : Nat × Nat),
    let now (v : State) (st : PStage) (t : State) : Prop :=
      t.taken = v.taken.map fun y => if y.id = x.id then { y with stage := st } else y
    let p := s.part x.part
    (s.taken[k]? = some x → s.startable x = true →
      (x.typ = 6 → s.doorsOpen x.part (x.word 2) 4 = false → Ends (.graphReplayPacket k) s fun t => t = s) ∧
      (x.typ = 6 → s.doorsOpen x.part (x.word 2) 4 = true → s.formRead x.part (x.word 2) 4 = (some bs, u) → Ends (.graphReplayPacket k) s fun t =>
        t.replays = u.replays ++ [{ id := u.nextId, packet := x.id, part := x.part, graph := (x.word 2).toNat, patch := x.patch,
                                    started := false, next := 0, count := ofBytes bs }] ∧
          t.nextId = u.nextId + 1 ∧ now u .running t ∧ t.mem = u.mem ∧ t.threads = u.threads) ∧
      (x.typ = 7 → s.checkEq x = 0 → (s.partTiles x.part).find? (fun y => y.1 == x.num 16 4 / 64) = some b →
        s.door b.2 x.part = .open_ → x.again = false → Ends (.expertQueueConfiguration k) s fun t =>
          let q := (t.tile b.2).eq (x.num 16 4 % 64)
          q.configured = true ∧ q.part = x.part ∧ q.ringlog = x.num 20 1 ∧ q.prio = x.num 21 1 ∧
            q.enable = (x.num 22 1).testBit 0 ∧ q.mcast = (x.num 22 1).testBit 1 ∧ q.spillhbm = (x.num 22 1).testBit 2 ∧
            q.chan = x.num 23 1 ∧ q.ringoff = x.num 24 4 ∧ q.fill = x.num 28 2 ∧ q.maxbatch = x.num 30 2 ∧
            q.age = x.num 32 4 ∧ q.target = x.num 36 4 ∧ q.spillAt = x.num 48 8 ∧ q.spillLen = x.num 56 8 ∧
            q.ring = ((s.tile b.2).eq (x.num 16 4 % 64)).ring ∧ now s .finished t ∧ t.threads = s.threads ∧ t.mem = s.mem) ∧
      (x.typ = 8 → Ends (.recoveryPoint k) s fun t =>
        t.parts = SMap.put s.parts x.part { p with stage := .draining } ∧ now s .running t ∧ t.threads = s.threads ∧
          t.mem = s.mem) ∧
      (x.typ = 9 → x.part = 0 → x.again = false → (x.word 6).getLsbD 63 = true → MemWf s → Ends (.quote k) s fun t =>
        Memory.readN t.mem (kHost (x.word 6).toNat) 192 = s.attest.toList.flatMap digestBytes ∧ t.threads = s.threads ∧
          (∀ a, (a < kHost (x.word 6).toNat ∨ kHost (x.word 6).toNat + 576 ≤ a) →
            Memory.read t.mem a = Memory.read s.mem a) ∧ now s .waiting t)) ∧
    (s.taken[k]? = some x → x.typ = 8 → x.stage = .running → p.stage = .draining → p.rp = none → s.devValid = true →
      s.drained x.part = true →
      (s.servicePorts (x.num 24 8) = [] → Ends (.recoveryPoint k) s fun t => t = s) ∧
      (s.servicePorts (x.num 24 8) ≠ [] → Ends (.recoveryPoint k) s fun t =>
        (t.part x.part).rpNext = p.rpNext + 1 ∧ t.mem = s.mem ∧ t.threads = s.threads ∧ t.net = s.net ∧
        ∃ rp : RpStream, (t.part x.part).rp = some rp ∧ rp.num = p.rpNext ∧ rp.dev = x.num 16 2 ∧ rp.ports = x.num 24 8 ∧
          rp.todo = turnPorts (s.servicePorts (x.num 24 8)) (s.segments x.part) ∧ ∀ y ∈ rp.todo,
            Output.segment rp.dev y.2 rp.num y.1 (crc32c ((s.capture x.part rp.num rp.dev).segment y.1)) ∈ t.outs)) ∧
    (s.taken[k]? = some x → x.typ = 8 → s.startable x = false → s.devValid = false → Ends (.recoveryPoint k) s fun t => t = s) ∧
    (s.replays[k]? = some r → s.taken.find? (fun y => y.id == r.packet) = some x → r.next < r.count → s.replayTurn r = true →
      s.heldQueue (.graph r.id) = false → s.cpRuns r.part x.ctl = true →
      s.doorsOpen r.part (BitVec.ofNat 64 (r.graph + 64 * (r.next + 1))) 64 = true →
      s.formRead r.part (BitVec.ofNat 64 (r.graph + 64 * (r.next + 1))) 64 = (some bs, u) →
      let y := newTaken u.nextId (.graph r.id) r.next r.part x.ctl x.prio (patched (wordsOfBytes bs) r.next r.patch) x.mid x.chan
      let v := { u with nextId := u.nextId + 1, replays := u.replays.set k { r with started := true, next := r.next + 1 } }
      (y.word 0).getLsbD 0 = true → 2 ≤ y.typ → y.typ ≤ 5 → v.checkPacket y = 0 →
      Ends (.graphReplayStart k) s fun t => (v.addPacket y).taken = u.taken ++ [y] ∧ t =
        if (y.typ = 3 ∨ y.typ = 4) ∧ (v.addPacket y).startable y = true ∧ (u.part y.part).assist.testBit 1 = false
        then (((v.addPacket y).setPacket y.id .running).evaluate y).2 else v.addPacket y) ∧
    (∀ (q : Nat) (rp : RpStream), (s.part q).rp = some rp → rp.todo.filter (·.1 != seg) ≠ [] → Ends (.segmentAcknowledgement q seg) s fun t =>
      t = s.setPart q { s.part q with rp := some { rp with todo := rp.todo.filter (·.1 != seg) } }) ∧
    (∀ (q : Nat) (rp : RpStream), (s.part q).rp = some rp → rp.todo.filter (·.1 != seg) = [] → s.hostRoom q = false →
      Ends (.segmentAcknowledgement q seg) s fun t => t = s) ∧
    (∀ (q : Nat) (rp : RpStream), (s.part q).rp = some rp → rp.todo.filter (·.1 != seg) = [] →
      s.taken.find? (fun y => y.id == rp.packet) = some x → (x.word 4).getLsbD 63 = true → p.prot = false → x.again = false →
      s.ctlSite q x.ctl = some c →
      (∀ e ∈ s.egressed, e.1 = hostPort → seqLater ((s.thread (c * 32 + 31)).seq + 1).toNat e.2.2.2 = true) →
      MemWf s → q = x.part → s.hostRoom q = true → Ends (.segmentAcknowledgement q seg) s fun t =>
        (t.part q).rp = none ∧ (t.part q).rpCur = rp.num ∧ (t.part q).stage = .active ∧ OnlySeqs s t ∧
          Stored s t (kHost (x.word 4).toNat) (bytesOf 8 rp.num) ∧ now s .waiting t)

/-! ### Partition operations (spec/05_command.md R100, spec/11_traps.md R229-R233) -/

/-- R38, R56, R69, R77, R81, R100, R106, R108, R109: the operations that change one setting, the answer to a held assist, and
the refusal of an operand that breaks a rule; such a packet comes from a privileged queue. That the host is asked again, with a fresh
token, when a barrier packet is not satisfied after a timeout is the model's choice (logs 43, 79). -/
def Obligations.PartitionOperationResults : Prop :=
  ∀ (s : State) (k q tok : Nat) (x y : Taken) (a : Assist),
    let p := x.target
    let pt := s.part p
    let packets (st : PStage) (t : State) : Prop :=
      t.taken = s.taken.map fun z => if z.id = x.id then { z with stage := st } else z
    let fin (t : State) : Prop := packets .finished t ∧ t.threads = s.threads ∧ t.attest = (s.attestOp x.words).attest ∧ t.net = s.net
    let run (i : Nat → Instr) (op : Nat) (P : State → Prop) : Prop := x.op = op → Ends (i k) s P
    let refused (i : Nat → Instr) (op : Nat) : Prop := x.src = .vf pf q → x.part = 0 → run i op fun t =>
      (t.queue pf q).stopped = true ∧ (t.queue pf q).errcode = 11 ∧ t.threads = s.threads ∧ t.vfs = s.vfs ∧ t.regions = s.regions
    let used := s.hasPart p = true
    s.taken[k]? = some x → s.taken.find? (fun z => z.id == x.id) = some x → x.typ = 16 → s.startable x = true →
    (vfOk s x = true → used → x.num 25 1 = 0 → run .bindvf 3 fun t =>
      fin t ∧ t.mem = s.mem ∧ t.parts = s.parts ∧ t.vfs = vset s.vfs (x.num 24 1) (some p)) ∧
    (vfOk s x = true → used → x.num 25 1 = 1 → s.queuesOff (x.num 24 1) = true → run .unbindvf 3 fun t =>
      fin t ∧ t.mem = s.mem ∧ t.parts = s.parts ∧ t.vfs = vset s.vfs (x.num 24 1) none) ∧
    (egressOk s x = true → used → run .egress 4 fun t => fin t ∧ t.mem = s.mem ∧
      (let w := vget { kind := 0, dest := 0, base := 0, len := 0, sent := 0 } (t.part p).egress (x.num 24 1)
       w.kind = x.num 25 1 ∧ w.dest = x.num 26 2 ∧ w.base = x.num 32 8 ∧ w.len = x.num 40 8 ∧
         w.sent = (vget { kind := 0, dest := 0, base := 0, len := 0, sent := 0 } pt.egress (x.num 24 1)).sent) ∧
      ∀ r, r ≠ p → t.part r = s.part r) ∧
    (p = 0 → x.num 24 1 < 16 → x.num 25 1 = 0 → 20 ≤ x.num 26 2 → x.num 26 2 ≤ 600 → x.zero 28 36 = true → run .cstep 5 fun t =>
      fin t ∧ t.mem = s.mem ∧ t.reg (x.num 24 1) = { s.reg (x.num 24 1) with limit := x.num 26 2 } ∧
        ∀ r, r ≠ x.num 24 1 → t.reg r = s.reg r) ∧
    (p = 0 → 30 ≤ x.num 24 2 → x.num 24 2 ≤ 300 → x.zero 26 38 = true → run .selftest 6 fun t =>
      fin t ∧ t.mem = s.mem ∧ t.selfSecs = x.num 24 2) ∧
    (p = 0 → x.num 24 2 < 4096 → x.zero 26 38 = true → (∀ z ∈ s.parts, z.2.stage ≠ .out → z.2.flits = []) → run .devid 7 fun t =>
      fin t ∧ t.mem = s.mem ∧ t.devid = BitVec.ofNat 12 (x.num 24 2) ∧ t.devValid = true) ∧
    (∀ site, p = 0 → siteOfCoord (x.num 24 2) = some site → x.zero 26 38 = true → s.appendPart site = none → run .readmit 8 fun t =>
      packets .running t ∧ t.threads = s.threads ∧ t.mem = s.mem ∧
        t.appends = s.appends ++ [{ record := readmitRec site, token := none }]) ∧
    (x.num 24 1 < 64 → x.zero 25 39 = true → used → run .modes 9 fun t => fin t ∧ t.mem = s.mem ∧
      t.part p = { pt with assist := x.num 24 1 } ∧ ∀ r, r ≠ p → t.part r = s.part r) ∧
    ((x.word 3).getLsbD 63 = true → 4 ≤ x.num 32 1 → x.num 32 1 ≤ 16 → x.zero 34 30 = true → p = 0 ∨ used → MemWf s →
      (∀ d ∈ s.flash.down, d.part ≠ p) →
      run .events 10 fun t => fin t ∧
        (let ring : EventRing :=
          { base := (x.word 3).toNat % 2 ^ 63, sizelog := x.num 32 1, vector := x.num 33 1, count := 0 }
         if p = 0 then t.ring0 = some ring else (t.part p).ring = some ring) ∧
        t.num (kHost (x.word 3).toNat) 8 = 0 ∧ t.num (kHost (x.word 3).toNat + 16) 8 = 0 ∧
        ∀ b, (b < kHost (x.word 3).toNat ∨ kHost (x.word 3).toNat + 24 ≤ b) → Memory.read t.mem b = Memory.read s.mem b) ∧
    (p = 0 → s.assistOf (x.num 24 8) = some a → x.num 32 1 = 1 → x.zero 33 31 = true →
      (a.func = 1 → s.taken.find? (fun z => z.id == a.obj) = some y → y.id ≠ x.id → run .assist 13 fun t =>
        t.assists = s.assists.filter (fun z => z.token != a.token) ∧ t.mem = s.mem ∧ t.threads = s.threads ∧
          ∀ z ∈ t.taken, (z.id = y.id ∨ z.id = x.id) → z.stage = .finished) ∧
      (a.func = 2 → run .assist 13 fun t =>
        (t.part a.part).faults = (s.part a.part).faults.filter (fun e => e.token != some a.token) ∧
          (t.part a.part).wakes = (s.part a.part).wakes ++ [(a.obj, true)] ∧ fin t ∧ t.mem = s.mem) ∧
      (a.func = 5 → run .assist 13 fun t => fin t ∧ t.mem = s.mem ∧
        t.appends = s.appends.map fun z => if z.token = some a.token then { z with token := none } else z)) ∧
    (s.hasPart p = false → p ≠ 0 → x.num 25 1 = 0 → refused .destroy 2 ∧ refused .bindvf 3 ∧ refused .egress 4 ∧ refused .cstep 5 ∧
      refused .selftest 6 ∧ refused .devid 7 ∧ refused .modes 9 ∧ refused .events 10 ∧ refused .assist 13) ∧
    (s.hasPart p = true ∨ p = 0 → refused .create 1) ∧
    (s.assistOf tok = some a → (s.part a.part).ring = none → a.part ≠ 0 →
      (a.func = 1 → s.taken.find? (fun z => z.id == a.obj) = some y → y.part = a.part → (∀ v ∈ y.signals, v.getLsbD 63 = true) →
        let down (v : Word) : Prop := s.num (kHost v.toNat) 8 = 0 ∨ 2 ^ 63 ≤ s.num (kHost v.toNat) 8
        let met := if y.typ = 3 then ∀ v ∈ y.signals, down v else ∃ v ∈ y.signals, down v
        let others := s.assists.filter fun z => z.token != a.token
        Ends (.assistTimeout tok) s fun t => t.mem = s.mem ∧ t.threads = s.threads ∧
          (met → t.assists = others ∧ ∀ z ∈ t.taken, z.id = a.obj → z.stage = .finished) ∧
          (¬ met → (∀ z ∈ t.taken, z.id = a.obj → z.stage = .held s.nextId) ∧ ∃ b : Assist, t.assists = others ++ [b] ∧
            b.token = s.nextId ∧ b.func = 1 ∧ b.part = a.part ∧ b.obj = a.obj)) ∧
      (a.func = 5 → Ends (.assistTimeout tok) s fun t => t.taken = s.taken ∧ t.mem = s.mem ∧ t.threads = s.threads ∧
        t.appends = s.appends.map fun z => if z.token = some a.token then { z with token := none } else z))

/-- R44, R60, R61, R100, R229, R233: a partition is created, destroyed, switched out and in, and restored; a READMIT whose
record has been dealt with completes. What a tile holds when it changes hands is the model's choice (log 44), and so is that CREATE
sets PROT of its tiles (log 71). -/
def Obligations.PartitionLifeResults : Prop :=
  ∀ (s u : State) (k wheel site : Nat) (x : Taken) (l : List TileImage),
    let p := x.target
    let pt := s.part p
    let regions := regionsOf (x.num 24 2)
    let flags := x.num 30 1
    let mhz := x.num 26 2
    let packets (v : State) (st : PStage) (t : State) : Prop :=
      t.taken = v.taken.map fun z => if z.id = x.id then { z with stage := st } else z
    s.taken[k]? = some x → s.taken.find? (fun z => z.id == x.id) = some x → x.typ = 16 → MemWf s →
    (x.op = 1 → s.startable x = true → createOk s x = true → x.num 48 2 = 0 → flags.testBit 2 = false →
      s.wheelGrant p (x.num 28 1) = some wheel → Ends (.create k) s fun t =>
        packets s .finished t ∧ t.attest = (s.attestOp x.words).attest ∧ t.vfs = s.vfs ∧
          t.part p = { Partition.init with
            regions := regions, tiles := s.tilesIn regions, mhz := mhz, hslots := x.num 28 1, fslots := x.num 29 1,
            prot := flags.testBit 0, det := flags.testBit 1, quantum := x.num 32 4, wheel := wheel } ∧
          (∀ q, q ≠ p → t.part q = s.part q) ∧
          (∀ r ∈ regions, (t.reg r).mhz = (if mhz = 0 then 3000 else mhz) ∧ (t.reg r).fixed = (mhz != 0)) ∧
          (∀ a, kWindow p ≤ a → a < kWindow p + 2 ^ 21 → Memory.read t.mem a = 0) ∧
          (x.word 7 ≠ 0 → Memory.readN t.mem (kHost (x.word 7).toNat) 520 = grantBytes wheel []) ∧
          ∀ b ∈ s.binding, b.1 ∈ s.tilesIn regions → (t.tile b.2).prot = flags.testBit 0 ∧ (t.tile b.2).ival = 1) ∧
    (x.op = 2 → s.startable x = true → s.hasPart p = true → x.zero 24 40 = true → x.part ≠ p → pt.swPacket = none →
      (s.parts.map (·.1)).Pairwise (· < ·) → Ends (.destroy k) s fun t =>
        t.hasPart p = false ∧ (∀ q, q ≠ p → t.part q = s.part q) ∧ (∀ v, v < 16 → vget none t.vfs v ≠ some p) ∧
          ∀ z ∈ t.taken, z.part ≠ p ∧ (z.id = x.id → z.stage = .finished)) ∧
    (x.op = 11 → s.startable x = true → s.hasPart p = true → pt.stage = .active → x.zero 32 32 = true →
      s.saveOk p (x.num 24 8) (s.partTiles p).length = true → Ends (.switchout k) s fun t =>
        packets s .running t ∧ t.mem = s.mem ∧ t.threads = s.threads ∧
          t.part p = { pt with stage := .draining, swPacket := some x.id, save := x.num 24 8 } ∧
          (pt.det = false → ∀ b ∈ s.partTiles p, ∀ c, c < 4 → (t.core (b.2 * 4 + c)).preempt = true)) ∧
    (x.op = 11 → x.stage = .running → pt.swPacket = some x.id → s.switchReady p = true → Ends (.switchout k) s fun t =>
      (t.part p).stage = .out ∧ (t.part p).swPacket = none ∧
        ∃ y ∈ t.saves, y.part = p ∧ y.base = pt.save ∧ y.images.length = (s.partTiles p).length) ∧
    (x.op = 12 → s.startable x = true → s.hasPart p = true → pt.stage = .out → x.zero 32 32 = true → s.grantAgain p = true →
      pt.lost = false → (s.saves.find? fun y => y.part == p).isSome = true →
      let images := ((s.saves.find? fun y => y.part == p).map (·.images)).getD []
      s.saveOk p (x.num 24 8) images.length = true →
      s.readRecords p (x.num 24 8) ((List.range images.length).zip images) = (some l, u) →
      u.part p = pt → (u.partTiles p).length = pt.tiles.length → Ends (.switchin k) s fun t =>
        (t.part p).stage = .active ∧ (t.part p).save = 0 ∧ ∀ y ∈ t.saves, y.part ≠ p) ∧
    (x.op = 14 → s.startable x = true → s.hasPart p = true → restoreOk s x = true →
      s.portsUsable p (x.num 24 2) (x.num 32 8) = true → (∃ r : RecPoint, s.pointOf x = some r ∧ 0 < r.segs) → Ends (.restore k) s fun t =>
        packets s .running t ∧ t.mem = s.mem ∧ t.threads = s.threads ∧
          (∃ r : RecPoint, s.pointOf x = some r ∧ (t.part p).readTodo = List.range r.segs) ∧ (t.part p).stage = .restoring ∧
          (t.part p).rpCur = x.num 40 8 ∧ (t.part p).rpSrc = (x.num 26 2, x.num 48 4) ∧ (t.part p).restore = some x.id ∧
          ∀ q, q ≠ p → t.part q = s.part q) ∧
    (x.op = 8 → x.stage = .running → siteOfCoord (x.num 24 2) = some site → (∀ a ∈ s.appends, a.record ≠ readmitRec site) →
      Ends (.readmit k) s fun t => packets s .finished t ∧ t.mem = s.mem ∧ t.threads = s.threads ∧
        t.attest = (s.attestOp x.words).attest)

/-! ### Steps of the engines (spec/08_experts.md, spec/18_matrix.md) -/

/-- R169, R187, R232, R377, R378, R384: a line of a transfer, the end of a transfer, a deposit in a local record, and the
acknowledgement of an invalidation. R113, R143, R175, R177-R180, R188: the writes through the on-chip windows: the handler table and
the control block of a core, the register window of a thread, an accumulator, the scratchpad, the local protection table, the group
table, PTROOT and a region entry, and a transfer of one chunk to a window. That such a chunk is written up to the first line that is
refused is the model's choice (log 28). -/
def Obligations.CopyStepResults : Prop :=
  (∀ (s : State) (site ch n src dst k : Nat) (x : Xfer) (i : Item) (a slot key kk : Nat) (bs : List Byte) (hart base size : Nat),
    let channel (t : State) : Option Xfer := vget none (t.tile site).xfers ch
    let gates := x.park = none ∧ x.pending = false ∧ s.accessBefore x.hart x.ord = false ∧ s.depositBefore site x = false ∧
      x.done.length < x.total ∧ s.det x.part = false
    MemWf s →
    (ch < 4 → channel s = some x →
      (gates → s.chunkGate site x.part = true → x.op = .copy → x.mc = [] → n ∈ x.chunk → n ∉ x.half →
        x.src.toNat + 64 * n < 2 ^ 48 → x.dst.toNat + 64 * n < 2 ^ 48 →
        let len := Min.min 64 (x.len - 64 * n)
        0 < len → (x.dst.toNat + 64 * n) % 65536 + len ≤ 65536 →
        s.localAcc site .read (x.src.toNat + 64 * n) len = some src →
        s.localAcc site .write (x.dst.toNat + 64 * n) len = some dst →
        Ends (.engineChunk site ch [n]) s fun t => Stored s t dst (s.bytes src len) ∧ t.threads = s.threads ∧ t.cores = s.cores ∧
          channel t = some { x with done := x.done ++ [n], landed := x.landed + len } ∧
          ∀ w ∈ wordsOf dst len, KeySet.mem t.full w = true) ∧
      (gates → x.op ≠ .rdblk → (s.part x.part).stage = .out → Ends (.engineChunk site ch [n]) s fun t =>
        t.mem = s.mem ∧ t.threads = s.threads ∧ channel t = some { x with pending := true }) ∧
      (x.pending = true → Ends (.chunkRetry site ch) s fun t =>
        t.mem = s.mem ∧ t.threads = s.threads ∧ channel t = some { x with pending := false }) ∧
      (x.total ≤ x.done.length → x.park = none → x.held = [] → (s.tile site).failed = false →
        (∀ j ∈ s.net, ∀ e m l st c, j.body = .deposit e m l st c → (st, c) ≠ (site, ch)) →
        x.arr = 0 → x.denied = [] → (x.op = .copy ∨ x.send = true) → Ends (.transferComplete site ch) s fun t =>
          t.mem = s.mem ∧ t.threads = s.threads ∧ channel t = none ∧
          resultOf (t.tile site).cdone x.tag = some { tag := x.tag, cause := 0, prog := Min.min (x.landed / 64) (2 ^ 32 - 1), kstep := 0 } ∧
          (x.send = false → t.net = s.net) ∧
          (x.send = true → ∃ (j : Item) (m : Msg), t.net = s.net ++ [j] ∧ j.body = .message m ∧ j.dst = .core (x.srank / 8) ∧ m.hdr.kind = 3 ∧
            m.hdr.chan = x.chan ∧ vget 0 m.payload 0 = BitVec.ofNat 64 (x.op.eng + x.tag * 2 ^ 32) ∧ vget 0 m.payload 1 = 0 ∧
            vget 0 m.payload 2 = BitVec.ofNat 64 x.landed ∧ vget 0 m.payload 3 = x.user ∧ vget 0 m.payload 4 = 0))) ∧
    (s.net[k]? = some i → i.body = .deposit a slot bs site ch → i.stage = .waiting → i.dst = .site site → a < 2 ^ 48 →
      (s.tile (siteOf i.src)).failed = false →
      s.homeDoor i.part a = .open_ → s.deposited i (.site site) = false → s.localAcc site .write a 64 = some key →
      s.poisoned key 64 = false →
      let w := s.num key 8
      let at_ := a + 64 + slot * s.num (key + 8) 8
      slot < bitsN w 3 0 → (bitsN w 23 16).testBit slot = false → bitsN w 23 16 ||| 2 ^ slot ≠ 2 ^ bitsN w 3 0 - 1 →
      bs.length = s.num (key + 8) 8 → 0 < bs.length → at_ % 65536 + bs.length ≤ 65536 → at_ < 2 ^ 48 →
      s.localAcc site .write at_ bs.length = some kk → (kk + bs.length ≤ key ∨ key + 8 ≤ kk) →
      Ends (.deposit k) s fun t => t.threads = s.threads ∧ t.cores = s.cores ∧
        t.bytes kk bs.length = bs ∧ t.num key 8 = w ||| 2 ^ (16 + slot) ∧
        (∀ b, (b < kk ∨ kk + bs.length ≤ b) → (b < key ∨ key + 8 ≤ b) → Memory.read t.mem b = Memory.read s.mem b) ∧
        (ch < 4 → channel s = some x → channel t = some { x with landed := x.len })) ∧
    ((s.thread hart).status = .blocked (.tlbinv base size) → (s.thread hart).resp = none → s.det (s.partOfHart hart) = false →
      Ends (.invalidationAcknowledgement hart) s fun t =>
        t.thread hart = { s.thread hart with status := .running, resp := some { value := 0, data := [] } } ∧ t.mem = s.mem ∧
          (∀ h, h ≠ hart → t.thread h = s.thread h) ∧
          (∀ y, ∀ e ∈ (t.tile y).tlb, ¬ (e.part = s.partOfHart hart ∧ e.page < base + size ∧ base < e.page + e.size)) ∧
          ∀ e ∈ (t.part (s.partOfHart hart)).faults, ¬ (e.page < base + size ∧ base < e.page + 65536))) ∧
  (∀ (s : State) (site p k rid : Nat) (control : Bool) (bs : List Byte),
     let key := site * 4 + k
     let hart := site * 32 + k
     let word (i : Nat) : Nat := ofBytes ((bs.drop (8 * i)).take 8)
     let core := s.core key
     let x := s.thread hart
     let tile (o : Nat) : WinAns × State := s.winWrite (.tile site) control o bs
     let part (o : Nat) : WinAns × State := s.winWrite (.part p) control o bs
     let rule := (WinAns.rule, s)
     let refused := (WinAns.refused, s)
     let newCore : Core := { core with spbase := word 0 % 2 ^ 32, splog := bitsN (word 1) 4 0, dqlog := bitsN (word 1) 12 8,
                                       dqbase := word 2 % 2 ^ 32 }
     let old := s.region p rid
     let mode := bitsN (word 1) 1 0
     let gen := (bitsN old.2 63 48 + 1) % 2 ^ 16
     let cap : Cap := { rid := rid, gen := gen, szlog := bitsN (word 0) 5 0, base := bitsN (word 0) 55 16 * 2 ^ 16 }
     let held (v : State) (b : Nat) : Prop :=
       v.region p rid = (bitsN (word 0) 55 16 * 2 ^ 16 + bitsN (word 0) 5 0, gen * 2 ^ 48 + bitsN (word 1) 47 32 * 2 ^ 32 + b * 4 + mode)
     let fresh (v : State) (f : TlbEntry → Prop) : Prop :=
       (∀ y, ∀ e ∈ (v.tile y).tlb, e.part = p → ¬ f e) ∧ ∀ y, ∀ e ∈ (v.agent y).tlb, e.part = p → ¬ f e
     MemWf s →
     (k < 4 → bs.length = 256 → ∃ v, tile (0x3000000 + 0x200 * k) = (.done false, v) ∧ { v with cores := s.cores } = s ∧
       (∀ y, y ≠ key → v.core y = s.core y) ∧ { v.core key with handlers := core.handlers } = core ∧
       ∀ c, c < 16 → (v.core key).handler c =
         { haddr := BitVec.ofNat 64 (bitsN (word (2 * c)) 47 2 * 4), budlog := bitsN (word (2 * c + 1)) 24 20,
           single := bitsN (word (2 * c + 1)) 7 7 = 1, carry := bitsN (word (2 * c + 1)) 6 6 = 1,
           en := bitsN (word (2 * c + 1)) 5 5 = 1, prio := bitsN (word (2 * c + 1)) 2 0 }) ∧
     (k < 4 → bs.length = 64 →
       (s.controlOk site k newCore = true → tile (0x3000100 + 0x200 * k) = (.done false, s.setCore key newCore)) ∧
       (s.controlOk site k newCore = false → tile (0x3000100 + 0x200 * k) = rule)) ∧
     (k < 32 → bs.length = 0x1000 →
       (x.act.isSome = true → x.status ≠ .parked → tile (0x2000000 + 0x1000 * k) = (.done true, s)) ∧
       (x.status = .parked → x.pend = none →
         tile (0x2000000 + 0x1000 * k) = (.done false, s.setThread hart { x with pend := some bs })) ∧
       (x.act = none → x.status ≠ .parked → ∃ y : Thread, tile (0x2000000 + 0x1000 * k) = (.done false, s.setThread hart y) ∧
         { y with x := x.x, v := x.v, m := x.m, pc := x.pc, lpstart := x.lpstart, lpend := x.lpend, lpcount := x.lpcount } = x ∧
         (∀ r, r < 32 → vget 0 y.x r = if r = 0 then 0 else BitVec.ofNat 64 (word r)) ∧
         (∀ r, r < 16 → vget 0 y.v r = BitVec.ofNat 512 (ofBytes ((bs.drop (0x100 + 64 * r)).take 64))) ∧
         (∀ r, r < 4 → vget 0 y.m r = BitVec.ofNat 64 (word (160 + r))) ∧
         y.pc = BitVec.ofNat 64 (word 164 / 4 * 4) ∧ y.lpstart = BitVec.ofNat 64 (word 165 / 4 * 4) ∧
         y.lpend = BitVec.ofNat 64 (word 166 / 4 * 4) ∧ y.lpcount = BitVec.ofNat 64 (word 167))) ∧
     (k < 8 → 0 < bs.length → bs.length ≤ 0x3000 →
       (((s.tile site).owner k).isSome = true → tile (0x1000000 + 0x3000 * k) = (.done true, s)) ∧
       ((s.tile site).owner k = none → ∃ v, tile (0x1000000 + 0x3000 * k) = (.done false, v) ∧ { v with mem := s.mem } = s ∧
         Stored s v (kAcc site + 0x3000 * k) bs)) ∧
     (0 < bs.length → (rid + bs.length ≤ Config.sysArea → ∃ v, tile rid = (.done false, v) ∧
         { v with mem := s.mem, full := s.full, dirty := s.dirty, poison := s.poison } = s ∧ Stored s v (kScratch site + rid) bs) ∧
       (rid < 0x400000 → Config.sysArea < rid + bs.length → tile rid = refused)) ∧
     (bs.length = 128 → let w (i : Nat) : Nat := word i &&& protMask
       ((∀ i, i < 16 → protWordOk (w i) = true) → ∃ v, tile 0x3001000 = (.done false, v) ∧
         { v with tiles := s.tiles } = s ∧ (∀ y, y ≠ site → v.tile y = s.tile y) ∧
         { v.tile site with lpt := (s.tile site).lpt } = s.tile site ∧
         ∀ i, i < 16 → vget 0 (v.tile site).lpt i = BitVec.ofNat 64 (w i)) ∧
       ((∃ i, i < 16 ∧ protWordOk (w i) = false) → tile 0x3001000 = rule)) ∧
     (0 < bs.length → rid + bs.length ≤ 0x40000 →
       let v := { s with mem := Memory.writeN s.mem (kWindow p + rid) bs }
       (v.groupsOk p = true → part rid = (.done false, v)) ∧ (v.groupsOk p = false → part rid = rule)) ∧
     (bs.length = 8 →
       (word 0 % 2048 = 0 → word 0 < Config.hbmBytes → ∃ v, part 0x40000 = (.done false, v) ∧
         Stored s v (kWindow p + 0x40000) bs ∧ v.threads = s.threads ∧ v.cores = s.cores ∧ fresh v fun _ => True) ∧
       (word 0 % 2048 ≠ 0 ∨ Config.hbmBytes ≤ word 0 → part 0x40000 = rule)) ∧
     (rid < 65536 → bs.length ≤ 16 → 0 < bs.length →
       let o := 0x100000 + 16 * rid
       let good := 16 ≤ bitsN (word 0) 5 0 ∧ bitsN (word 0) 5 0 ≤ 40 ∧ bitsN (word 0) 55 16 * 2 ^ 16 % 2 ^ bitsN (word 0) 5 0 = 0
       (control = false → part o = refused) ∧
       (control = true → bs.length < 16 → part o = rule) ∧
       (control = true → bs.length = 16 → ¬ good → part o = rule) ∧
       (control = true → bs.length = 16 → good → ∃ v, part o = (.done false, v) ∧ v.threads = s.threads ∧
         (fresh v fun e => bitsN e.leaf.toNat 63 48 = rid) ∧
         (∀ b, (b < kWindow p + o ∨ kWindow p + o + 16 ≤ b) → Memory.read v.mem b = Memory.read s.mem b) ∧
         (∀ c u, rid ≠ 0 → mode = 1 → bitsN (word 1) 47 32 < 2 ^ 15 → s.coreKey p (bitsN (word 1) 47 32) = some c →
           s.installCap c cap = some u → v.cores = u.cores ∧ held v 1) ∧
         (rid = 0 ∨ mode ≠ 1 ∨ 2 ^ 15 ≤ bitsN (word 1) 47 32 ∨ s.coreKey p (bitsN (word 1) 47 32) = none ∨
           (∃ c, s.coreKey p (bitsN (word 1) 47 32) = some c ∧ s.installCap c cap = none) →
           v.cores = s.cores ∧ held v 0))) ∧
     (∀ o, (Window.tile site).runs 64 o bs.length = none → tile o = refused) ∧
     (∀ o, (Window.part p).runs 64 o bs.length = none → part o = refused) ∧
     ∀ a, p ≠ 0 → (bitsN a 47 47 = 1 → s.window p a = if bitsN a 46 32 = 0 then some (.part p, a % 2 ^ 32) else none) ∧
       (bitsN a 47 47 = 0 → bitsN a 46 45 ≠ 0 ∨ (∀ b ∈ s.partTiles p, b.1 ≠ bitsN a 44 32) → s.window p a = none) ∧
       (bitsN a 47 45 = 0 → s.homeSite p a = some site → s.window p a = some (.tile site, a % 2 ^ 32))) ∧
  ∀ (s v : State) (site ch src o : Nat) (x : Xfer) (w : Window),
    let bs := s.bytes src x.len
    let control := (s.ctlTiles x.part).any fun b => b.2 == site
    let channel (t : State) : Option Xfer := vget none (t.tile site).xfers ch
    let ended (t : State) (cause : Nat) : Prop :=
      (((((s.part x.part).job x.job).bind (·.errCore)).any fun c => (s.coreKey x.part c).isSome) = true → t.mem = s.mem) ∧
      t.threads = s.threads ∧ t.cores = s.cores ∧ channel t = none ∧
      (resultOf (t.tile site).cdone x.tag).map (·.cause) = some cause
    MemWf s → ch < 4 → channel s = some x → x.park = none → x.pending = false → s.accessBefore x.hart x.ord = false →
    x.done = [] → x.mc = [] → x.op = .copy → x.denied = [] → s.det x.part = false → s.chunkGate site x.part = true → 0 < x.len →
    x.len ≤ 4096 * 64 → bitsN x.dst.toNat 63 62 = 1 → x.src.toNat + x.len ≤ 2 ^ 48 →
    s.localAcc site .read x.src.toNat x.len = some src → s.window x.part x.dst.toNat = some (w, o) →
    s.windowOpen site x.part w = true →
    (s.lineRefused w control o bs = none → s.winWrite w control o bs = (.done false, v) → Ends (.engineChunk site ch []) s fun t =>
      t.mem = v.mem ∧ t.threads = v.threads ∧ t.cores = v.cores ∧
        channel t = some { x with done := List.range (ceilDiv x.len 64), landed := x.landed + x.len }) ∧
    (s.lineRefused w control o bs = none → s.winWrite w control o bs = (.rule, s) → Ends (.engineChunk site ch []) s fun t => ended t 12) ∧
    (s.lineRefused w control o bs = some 0 → Ends (.engineChunk site ch []) s fun t => ended t 2)

/-- R29, R358, R360, R363-R371, R373: a matrix command starts, runs its chunks and completes; a floe commits a chunk, which writes
every member's accumulator, and forms again, with or without a command running or waiting: each that it abandons has its result and
its reform event; an MCMD arrives. The K-steps of a chunk are those of `State.ksteps`; a chunk that reads translated rows also logs
them, which the clause on the frame leaves out (log 34). -/
def Obligations.MatrixStepResults : Prop :=
  ∀ (s u : State) (site p k' rank n : Nat) (c : MatCmd) (rest : List MatCmd) (r : MatRun) (w : List (List Nat)) (f : Floe)
    (i : Item) (bs : List Byte) (a first count : Nat),
    let tile := s.tile site
    let only (y : Tile) (t : State) : Prop := t.tile site = y ∧ t.threads = s.threads ∧ t.cores = s.cores ∧
      (∀ x, x ≠ site → t.tile x = s.tile x)
    let gate := s.chunkGate site r.cmd.part = true ∧ s.det r.cmd.part = false ∧ r.park = none
    let acc := accAt site r.cmd.acc
    let steps := r.cmd.desc.steps
    let chunk := Min.min (matChunk c.desc.atype) (c.desc.steps - f.k)
    let alive := f.members.filter fun m => !(s.tile m).failed && (s.tile m).rank.isSome
    let lost := if s.lostMember f n < 0x3FFF then s.lostMember f n else 0x3FFF
    let abandoned (t : State) (x : MatCmd) (kdone : Nat) (stored : Bool) : Prop :=
      (∃ e ∈ (t.tile (siteOf x.src)).mdone, e.tag = x.tag ∧ e.cause = 23) ∧
        ∃ (j : Item) (m : Msg) (y : Floe), j ∈ t.net ∧ s.ordCtr ≤ j.ord ∧ j.body = .message m ∧ j.dst = .core (x.srank / 8) ∧
          m.hdr.kind = 4 ∧ m.hdr.chan = x.desc.chan ∧ (t.part p).floe = some y ∧
          vget 0 m.payload 0 = BitVec.ofNat 64 x.tag ∧ vget 0 m.payload 1 = BitVec.ofNat 64 (kdone + ofBool stored * 2 ^ 32) ∧
          vget 0 m.payload 2 = BitVec.ofNat 64 lost ∧
          vget 0 m.payload 3 = BitVec.ofNat 64 (if lost = 0x3FFF then 0 else s.krest (s.lostMember f n) x) ∧
          vget 0 m.payload 4 = BitVec.ofNat 64 (y.rows.length + y.cols.length * 2 ^ 16 + y.fgen * 2 ^ 32) ∧
          vget 0 m.payload 5 = x.descAt
    MemWf s →
    (tile.mrun = none → tile.mqueue = c :: rest → s.chunkGate site c.part = true → s.accessBefore c.src c.ord = false →
      Ends (.matrixCommandStart site) s fun t => t.mem = s.mem ∧ only { tile with
        mqueue := rest, mrun := some { cmd := c, k := if c.op.isAcc then 0 else c.koff, row := 0, park := none, begun := false,
                                       ready := false, landed := 0, denied := [] } } t) ∧
    (tile.mrun = some r → gate →
      (r.cmd.op = .acczero → r.k = 0 → Ends (.matrixChunk site) s fun t =>
        only { tile with mrun := some { r with k := 1, landed := 0, wrote := 0 } } t ∧
          (∀ b, acc ≤ b → b < acc + 12288 → Memory.read t.mem b = 0) ∧
          ∀ b, (b < acc ∨ acc + 12288 ≤ b) → Memory.read t.mem b = Memory.read s.mem b) ∧
      (r.cmd.op = .accwr a first count → r.k = 0 → s.engRead site r.cmd.part a (192 * count) = (.ok bs, s) →
        Ends (.matrixChunk site) s fun t =>
          only { tile with mrun := some { r with k := 1, landed := 192 * count, wrote := 0 } } t ∧ Stored s t (acc + 192 * first) bs) ∧
      (r.cmd.op = .mma ∨ r.cmd.op = .mcmd → r.k < steps → r.till ≤ r.k →
        s.ksteps (s.geom site r.cmd) r.cmd (Min.min (matChunk r.cmd.desc.atype) (steps - r.k)) r.k
          (if r.begun then s.accRows site r.cmd.acc else r.cmd.prepare (s.accRows site r.cmd.acc)) = ((k', w, none), s) →
        r.k < k' → Ends (.matrixChunk site) s fun t =>
          let after : MatRun := { r with k := k', row := 0, begun := true, till := 0 }
          t.mem = (s.setAccRows site r.cmd.acc w).mem ∧ t.threads = s.threads ∧ t.cores = s.cores ∧
            (t.tile site).mrun = some after ∧
            ((∀ y ∈ r.cmd.stepReads (s.geom site r.cmd) r.k k', routeOf y.1 ≠ .translated) →
              only { tile with mrun := some after } t)) ∧
      (r.cmd.op = .floe → (s.part r.cmd.part).floe = some f → r.ready = false → f.park = none → f.k < steps →
        Ends (.matrixChunk site) s fun t => t.mem = s.mem ∧ only { tile with mrun := some { r with ready := true } } t) ∧
      (r.cmd.op = .mma → steps ≤ r.k → r.cmd.store = false → r.denied = [] → r.cmd.desc.send = false →
        (s.part r.cmd.part).floe = none → Ends (.matrixCommandComplete site) s fun t => t.mem = s.mem ∧ t.net = s.net ∧
          only { tile with
            mrun := none
            mdone := addResult tile.mdone { tag := r.cmd.tag, cause := 0, prog := r.k - r.cmd.koff, kstep := r.k } } t)) ∧
    ((s.part p).floe = some f → (s.part p).stage ≠ .out →
      (f.run = some c → f.park = none → f.k < c.desc.steps → f.members ≠ [] →
        (∀ m ∈ f.members, (s.tile m).failed = false ∧
          ∃ q : MatRun, (s.tile m).mrun = some q ∧ q.cmd.op = .floe ∧ q.ready = true) →
        s.floeReach f c chunk f.members (f.k + chunk, none) = ((k', none), u) → f.k < k' →
        Ends (.floeChunkCommit p) s fun t =>
          (t.part p).floe = some { f with k := k', row := 0, begun := true, park := none } ∧ t.threads = u.threads ∧
          t.mem = (f.members.foldl (fun v m => v.floeWrite f c k' m) u).mem ∧
          ∀ (v v' : State) (m : Nat) (x : List (List Nat)) (why : Option (Nat × Nat × Nat)),
            v.ksteps (v.geom m { c with op := .floe }) c (k' - f.k) f.k
              (if f.begun then v.accRows m c.acc else c.prepare (v.accRows m c.acc)) = ((k', x, why), v') →
            (v.floeWrite f c k' m).mem = (v'.setAccRows m c.acc x).mem) ∧
      (let g := s.formGrid p f.region
       (g = (f.rows, f.cols) → Ends (.floeReform p n) s fun t => t = s) ∧
       (g ≠ (f.rows, f.cols) → Ends (.floeReform p n) s fun t =>
         (∃ y : Floe, (t.part p).floe = some y ∧ y.rows = g.1 ∧ y.cols = g.2 ∧ y.region = f.region ∧ y.fgen = (f.fgen + 1) % 2 ^ 16 ∧
           y.run = none ∧ y.waiting = []) ∧ t.mem = s.mem ∧ t.threads = s.threads ∧
         (∀ m ∈ f.members, ∀ q ∈ (t.tile m).mqueue, q.op ≠ .floe) ∧
         (f.run = some c → abandoned t c f.k (c.store && !alive.isEmpty && alive.all f.stored.contains)) ∧
         ∀ x ∈ f.waiting, abandoned t x x.koff false))) ∧
    (s.net[n]? = some i → i.body = .mcmd c → i.dst = .tile rank → i.stage = .waiting → s.injectable i = true →
      s.siteOfRank rank = some site → s.door site i.part = .open_ → s.mayCommand i.part rank c.guard = (true, s) →
      tile.fresh (s.itemDomain i) i.seq = true → tile.matLoad < 16 → Ends (.mcmdArrival n) s fun t =>
        t.mem = s.mem ∧ t.threads = s.threads ∧ t.net = s.net.filter (fun j => j.ord != i.ord) ∧
          (t.tile site).mqueue = tile.mqueue ++ [{ c with part := i.part, tag := (tile.mtag + 1) % 2 ^ 32 }] ∧
          (t.tile site).mtag = (tile.mtag + 1) % 2 ^ 32)

/-- R153-R163, R167, R380, R381: a push, an EQFIRE, an EQDONE and an EQSTAT at their queue, and the firing of a queue. Two of its
clauses are the model's choice: the place of a spilled entry (log 94), and that a spill to a page that is missing leaves memory as it
is while the unit keeps the entry (log 29). -/
def Obligations.ExpertStepResults : Prop :=
  ∀ (s : State) (k site n qid fire : Nat) (i : Item) (q : ExpertQueue) (bs : List Byte) (b : Batch),
    let now := s.eqNow site q.part
    let slot := kScratch site + q.ringoff + 32 * ((q.head + q.occupied) % 2 ^ q.ringlog)
    let bytes := bs.take 24 ++ bytesOf 4 (i.srank % 2 ^ 18) ++ bs.drop 28
    let e : EqEntry := { bytes := bytes, since := now, job := i.job }
    let gone (t : State) : Prop := t.threads = s.threads ∧ t.cores = s.cores ∧ t.net = s.net.filter (fun j => j.ord != i.ord)
    let queue (t : State) : ExpertQueue := (t.tile site).eq n
    MemWf s →
    (s.net[k]? = some i → i.stage = .waiting → s.injectable i = true → s.det i.part = false →
      s.findEq i.part qid = some (site, n, q) → s.door site i.part = .open_ → (s.tile site).fresh (s.itemDomain i) i.seq = true →
      (i.body = .push qid bs → bs.length = 32 →
        (q.spill = [] → q.occupied < 2 ^ q.ringlog → Ends (.pushAccept k) s fun t => gone t ∧ Stored s t slot bytes ∧
          (queue t).ring = q.ring ++ [e] ∧ (queue t).spill = [] ∧ (queue t).batches = q.batches) ∧
        ((q.spill ≠ [] ∨ 2 ^ q.ringlog ≤ q.occupied) → (q.spill.length + 1) * 32 ≤ q.spillLen →
          let spilled (t : State) : Prop := gone t ∧ queue t = { q with spill := q.spill ++ [{ e with slot := q.spillSlot }] }
          let at_ := q.spillAt + 32 * q.spillSlot
          (∀ c u, s.translate q.part at_ = (.error c, u) → Ends (.pushAccept k) s fun t => spilled t ∧ t.mem = s.mem) ∧
          ∀ v u, s.translate q.part at_ = (.ok v, u) →
            v.grants .atomic (some (bitsN v.leaf.toNat 63 48, bitsN v.w1.toNat 63 48)) = none →
            Ends (.pushAccept k) s fun t => spilled t ∧ Stored s t (u.entryKey q.part v at_) bytes) ∧
        ((q.spill ≠ [] ∨ 2 ^ q.ringlog ≤ q.occupied) → q.spillLen < (q.spill.length + 1) * 32 → q.spflt = true →
          Ends (.pushAccept k) s fun t => t.mem = s.mem ∧ t.tiles = s.tiles ∧
            t.net = s.net.map fun j => if j.ord = i.ord then { j with stage := .refused 1024 } else j)) ∧
      (i.body = .eqfire qid → Ends (.eqfireArrival k) s fun t => gone t ∧ t.mem = s.mem ∧
        queue t = { q with force := q.force || decide (1 ≤ q.waiting) }) ∧
      (i.body = .eqdone qid fire → q.batches = [b] → b.fire = fire → b.got < b.need → q.spill = [] →
        (b.got + 1 < b.need → Ends (.eqdoneArrival k) s fun t => gone t ∧ t.mem = s.mem ∧
          queue t = { q with batches := [{ b with got := b.got + 1 }] }) ∧
        (b.got + 1 = b.need → Ends (.eqdoneArrival k) s fun t => gone t ∧ t.mem = s.mem ∧
          queue t = { q with batches := [], head := (q.head + b.count) % 2 ^ q.ringlog, spflt := false }))) ∧
    (s.net[k]? = some i → i.stage = .waiting → s.injectable i = true → i.body = .ret (.eqstat qid) →
      s.door ((s.siteOfRank (qid / 64)).getD Config.numSites) i.part = .open_ →
      Ends (.eqstatRequest k) s fun t => t.mem = s.mem ∧ t.threads = s.threads ∧ t.tiles = s.tiles ∧
        ∃ (j : Item) (v : Word), j ∈ t.net ∧ j.dst = .hart i.src ∧ j.body = .response 0 0 false { value := v, data := [] } i.ord ∧
          (s.findEq i.part qid = none → v = 0) ∧
          (s.findEq i.part qid = some (site, n, q) → s.det i.part = false → q.part = i.part → q.waiting < 2 ^ 32 →
            v.toNat % 2 ^ 32 = q.waiting ∧ v.getLsbD 38 = q.enable ∧ v.getLsbD 39 = q.eligible now ∧ v.getLsbD 40 = q.force ∧
              v.getLsbD 44 = q.spflt)) ∧
    (queue s = q →
      ((q.configured = true → q.age ≠ 0 → 1 ≤ q.waiting → q.age ≤ q.wait now → Ends (.entryAge site n) s fun t =>
        queue t = { q with top := if q.eprio now = 7 then some (q.topSince now) else none } ∧ t.mem = s.mem ∧
          t.net = s.net ∧ t.threads = s.threads) ∧
      (q.configured = false → Ends (.entryAge site n) s fun t => t = s))) ∧
    ((s.tile site).failed = false → (s.tile site).replaying = false →
      (s.part ((s.partOfSite site).getD 0)).stage = .active → s.det ((s.partOfSite site).getD 0) = false → s.det q.part = false →
      s.nextQueue site = some (n, q) → q.mcast = false → queue s = q → (s.tile site).ringFull = false →
      let count := Min.min q.maxbatch q.ring.length
      let at_ := (q.head + (q.batches.map (·.count)).sum) % 2 ^ q.ringlog
      Ends (.expertFiring site) s fun t => t.mem = s.mem ∧ t.threads = s.threads ∧ t.cores = s.cores ∧
        (queue t).ring = q.ring.drop count ∧ (queue t).spill = q.spill ∧ (queue t).fires = q.fires + 1 ∧
        (queue t).force = false ∧ (queue t).batches = q.batches ++ [
          { base := at_, count := count, fire := q.fires + 1, need := 1, got := 0, jobs := (q.ring.take count).map (·.job) }] ∧
        ∃ (j : Item) (m : Msg), t.net = s.net ++ [j] ∧ j.body = .message m ∧ j.dst = .core q.target ∧ m.hdr.kind = 2 ∧ m.hdr.chan = q.chan ∧
          m.hdr.drank = q.target * 8 ∧ m.hdr.job = q.job ∧ vget 0 m.payload 1 = BitVec.ofNat 64 at_ ∧
          vget 0 m.payload 2 = BitVec.ofNat 64 count ∧ vget 0 m.payload 3 = BitVec.ofNat 64 (q.wait now) ∧
          vget 0 m.payload 6 = BitVec.ofNat 64 (q.fires + 1) ∧ vget 0 m.payload 7 = 1)

/-- R163, with R159: the queue that a tile fires can fire and goes before every other that can: the highest EPRIO; below 7
the longer wait, then the lower index; at 7 the one that has been there longest, then the lower index. After firing, a queue
still at 7 counts as reaching it now. A tile whose log has no room does not fire yet (log 93). -/
def Obligations.FiringOrder : Prop :=
  ∀ (s : State) (site n now : Nat) (q : ExpertQueue),
    let eqs := (s.tile site).eqs
    (∀ x ∈ eqs, s.eqNow site x.2.part = now) →
    s.nextQueue site = some (n, q) →
    ((n, q) ∈ eqs ∧ s.canFire site q = true ∧
      ∀ x ∈ eqs, s.canFire site x.2 = true →
        x.2.eprio now ≤ q.eprio now ∧
        (x.2.eprio now = q.eprio now → q.eprio now ≠ 7 → x.2.wait now ≤ q.wait now ∧ (x.2.wait now = q.wait now → n ≤ x.1)) ∧
        (x.2.eprio now = 7 → q.eprio now = 7 →
          q.topSince now ≤ x.2.topSince now ∧ (q.topSince now = x.2.topSince now → n ≤ x.1))) ∧
    ((s.tile site).failed = false → (s.tile site).replaying = false → s.det ((s.partOfSite site).getD 0) = false →
      (s.part ((s.partOfSite site).getD 0)).stage = .active → (s.tile site).ringFull = false → Ends (.expertFiring site) s fun t =>
        let y := (t.tile site).eq n
        y.top = if y.eprio now = 7 then some (now : Int) else none)

/-! ### The machine as a whole -/

/-- R268-R281: every well-formed instruction's word decodes to it, with every operand at every value its encoding admits, and
a word decodes to nothing else: no two well-formed instructions share a word. -/
def Obligations.DecodeEncode : Prop :=
  (∀ i : Instr, i.wf = true → decodeWord (encode i) = .ok i) ∧
    ∀ (w : BitVec 32) (i : Instr), decodeWord w = .ok i → i.wf = true ∧ encode i = w

/-- Words written out from the encodings of R268-R281, R313, R336, R357 and R383. -/
def Obligations.DecodeWords : Prop :=
  decodeWord 0x00500093#32 = .ok (.addi 1 0 5) ∧ decodeWord 0x40B50533#32 = .ok (.sub 10 10 11) ∧
  decodeWord 0xFE112E23#32 = .ok (.sw 1 2 (-4)) ∧ decodeWord 0x00000073#32 = .ok .ecall ∧
  decodeWord 0x0002E00B#32 = .ok (.send 5) ∧ decodeWord 0xFE00600B#32 = .ok .done ∧
  decodeWord 0x000170FB#32 = .ok (.mwait 1 2) ∧ (∀ i, decodeWord 0x00000000#32 ≠ .ok i) ∧ ∀ i, decodeWord 0xFFFFFFFF#32 ≠ .ok i

/-- The memory's canonical form (its rising addresses, no entry that reads as an unlisted one does) is kept by every step, and
so is that of the firn areas of the buddies. -/
def Obligations.MemoryKept : Prop :=
  (∀ s t : State, MemWf s → Steps s t → MemWf t) ∧
    ∀ s t : State, Memory.wf s.firnMem = true → Steps s t → Memory.wf t.firnMem = true

/-- What reset leaves, as far as the spec gives it (R49, R53, R56, R74, R84, R113, R147, R190, R260, R282, R335): no region
is slowed, QCFG.SIZELOG is 4, the governor's limit 180 A, no handler enabled, SPAWNLIM 64, accdecay 1.0, VL 128, STATE 0.
That memory reads 0 and is in its canonical form, and that the part is powered, are the model's (log 1, 7). -/
def Obligations.ResetState : Prop :=
  let s := State.reset
  MemWf s ∧ (∀ a, Memory.read s.mem a = 0) ∧ s.powered = true ∧ s.boot.state = 0 ∧ s.devValid = false ∧ s.selfSecs = 300 ∧
  (∀ r, (s.reg r).causes = [] ∧ (s.reg r).limit = 180 ∧ (s.reg r).holds = 0) ∧
  (∀ fn q, (s.queue fn q).sizelog = 4 ∧ (s.queue fn q).en = false ∧ (s.queue fn q).qread = 0 ∧ (s.statWord fn q) = 0) ∧
  (∀ k, (s.port k).word = 0) ∧
  (∀ c, (s.core c).spawnlim = 64 ∧ (s.core c).caps = Vector.replicate 4 none ∧
    ∀ k, ((s.core c).handler k).en = false) ∧
  (∀ h, (s.thread h).status = .free ∧ (s.thread h).accdecay = 0x3F800000 ∧ (s.thread h).vl = 128 ∧ (s.thread h).lpcount = 0) ∧
  ∀ v, vget none s.vfs v = none

/-- R118, R133, R140, R175, R267, R268, R294: when the thread whose turn it is fetches a word that decodes to an instruction its
activation may run, the step is that instruction on it (followed by what the model's step adds: a multiply or a divide holds
its thread for further turns; a thread that blocks reaches the end of its quantum, R123; and `State.settled`: waits that have
ended are answered, tiles that replay a log go on with it, R243, and the next recovery begins, R242). A word that may not be
fetched, one that is no instruction, and one that carried code may not run, take their exception. In the turn of a thread that
is held, the next one of the core may issue. A turn of the agenda is that step of the part. -/
def Obligations.StepRunsDecoded : Prop :=
  ∀ (s : State) (h g k : Nat) (w : BitVec 32) (i : Instr) (rest : List Turn) (l r : List Nat),
    let order := s.issueOrder (coreOf s.cur)
    let idle (x : Nat) : Prop := (s.thread x).hold = 0 ∧ s.canIssue x = false
    let held : Instr → Nat
      | .mul .. | .mulh .. | .mulhsu .. | .mulhu .. | .mulw .. => 1
      | .div .. | .divu .. | .rem .. | .remu .. | .divw .. | .divuw .. | .remw .. | .remuw .. => 15
      | _ => 0
    let runs (v : State) : Prop :=
      let u := v.issueAs h
      let after (x : State) : State := (x.settle h).settled
      u.me.overdue = false →
      (u.fetchKey h = none → step s = .next (after (u.raise 2 .fetch u.me.pc u.me.pc))) ∧
      (u.fetchKey h = some k → w = BitVec.ofNat 32 (ofBytes (u.bytes k 4)) →
        (decodeWord w = .ok i → u.mayRun i = true → ∀ t, exec i u = .next t → step s = .next (after
          (if held i = 0 then t else t.setThread h { t.thread h with hold := held i }))) ∧
        (decodeWord w = .ok i → u.mayRun i = false → step s = .next (after (u.raise 5 .other 0 0))) ∧
        ((∀ j, decodeWord w ≠ .ok j) → step s = .next (after (u.raise 1 .other 0 (w.setWidth 64)))))
    s.powered = true →
    (s.agenda = [] → s.isCandidate h = true →
      (order = l ++ h :: r → (∀ x ∈ l, idle x) → runs s) ∧
      (order = g :: h :: r → (s.thread g).hold ≠ 0 → (s.passTurn g).canIssue h = true → runs (s.passTurn g))) ∧
    (s.agenda = .event i :: rest → Instr.isStep i = true → ∀ t, exec i { s with agenda := rest } = .next t →
      step s = .next t.settled)

/-- No step of a powered part stops: it neither faults nor is refused, whatever the state. -/
def Obligations.PoweredStepsGoOn : Prop :=
  ∀ s : State, s.powered = true → ∃ t, step s = .next t

/-- R282: no instruction raises a thread from U to M. -/
def Obligations.UserStaysUser : Prop :=
  ∀ (s t : State) (i : Instr), i.wf = true → s.me.priv = .U → exec i s = .next t → t.me.priv = .U
end

