-- ==== Sys2Proof/Laws/Map.lean ====
section
/-!
SUPPORT. Tables and memory: what is read after a write, and that every memory operation keeps the canonical form.
-/

namespace Sys2Proof.Machine

/-! ### Tables -/

@[simp] theorem SMap.get_put_self {α : Type} (d : α) (m : List (Nat × α)) (i : Nat) (v : α) :
    SMap.get d (SMap.put m i v) i = v := by
  induction m with
  | nil => simp [SMap.put, SMap.get]
  | cons c t ih => simp only [SMap.put]; split <;> [skip; split] <;> simp_all [SMap.get, Ne.symm]

theorem SMap.get_put_ne {α : Type} (d : α) (m : List (Nat × α)) {i j : Nat} (v : α) (h : j ≠ i) :
    SMap.get d (SMap.put m i v) j = SMap.get d m j := by
  induction m with
  | nil => simp [SMap.put, SMap.get, h.symm]
  | cons c t ih => simp only [SMap.put]; split <;> [skip; split] <;> simp_all [SMap.get, Ne.symm]

theorem SMap.get_put {α : Type} (d : α) (m : List (Nat × α)) (i j : Nat) (v : α) :
    SMap.get d (SMap.put m i v) j = if j = i then v else SMap.get d m j := by
  split
  · next h => rw [h, SMap.get_put_self]
  · next h => exact SMap.get_put_ne d m v h

/-! ### The canonical form -/

/-- Keys rise and no entry is blank. -/
theorem Memory.wf_iff (m : List Host.Cell) :
    Memory.wf m = true ↔ m.Pairwise (fun a b => a.1 < b.1) ∧ ∀ c ∈ m, c.2 ≠ Memory.blank := by
  induction m with
  | nil => simp [Memory.wf]
  | cons c t ih =>
    cases t with
    | nil => simp [Memory.wf]
    | cons c' t =>
      simp only [Memory.wf, Bool.and_eq_true, decide_eq_true_eq, bne_iff_ne, ih, List.pairwise_cons, List.mem_cons,
        forall_eq_or_imp]
      constructor
      · rintro ⟨⟨h1, h2⟩, ⟨h3, h4⟩, h5⟩
        exact ⟨⟨⟨h2, fun x hx => h2.trans (h3 x hx)⟩, h3, h4⟩, h1, h5⟩
      · rintro ⟨⟨⟨h2, _⟩, h3, h4⟩, h1, h5⟩
        exact ⟨⟨h1, h2⟩, ⟨h3, h4⟩, h5⟩

theorem Memory.wf_nil : Memory.wf [] = true := rfl

theorem Memory.wf_filter {m : List Host.Cell} (p : Host.Cell → Bool) (h : Memory.wf m = true) :
    Memory.wf (m.filter p) = true := by
  rw [Memory.wf_iff] at *
  exact ⟨h.1.filter p, fun c hc => h.2 c (List.mem_filter.1 hc).1⟩

theorem SMap.mem_put {α : Type} {m : List (Nat × α)} {i : Nat} {v : α} {c : Nat × α} (h : c ∈ SMap.put m i v) :
    c = (i, v) ∨ c ∈ m := by
  induction m with
  | nil => simpa [SMap.put] using h
  | cons x t ih =>
    simp only [SMap.put] at h
    split at h
    · simpa using h
    · split at h
      · simp only [List.mem_cons] at h ⊢; tauto
      · simp only [List.mem_cons] at h ⊢; tauto

theorem SMap.sorted_put {α : Type} {m : List (Nat × α)} (i : Nat) (v : α) (h : m.Pairwise fun a b => a.1 < b.1) :
    (SMap.put m i v).Pairwise fun a b => a.1 < b.1 := by
  induction m with
  | nil => simp [SMap.put]
  | cons x t ih =>
    obtain ⟨hx, ht⟩ := List.pairwise_cons.1 h
    simp only [SMap.put]
    split
    · next hi =>
      refine List.pairwise_cons.2 ⟨fun c hc => ?_, h⟩
      rcases List.mem_cons.1 hc with rfl | hc
      · exact hi
      · exact hi.trans (hx c hc)
    · split
      · next hi => subst hi; exact List.pairwise_cons.2 ⟨hx, ht⟩
      · refine List.pairwise_cons.2 ⟨fun c hc => ?_, ih ht⟩
        rcases SMap.mem_put hc with rfl | hc
        · simp only; omega
        · exact hx c hc

theorem SMap.mem_del {α : Type} {m : List (Nat × α)} {i : Nat} {c : Nat × α} (h : c ∈ SMap.del m i) : c ∈ m := by
  induction m with
  | nil => simp [SMap.del] at h
  | cons x t ih =>
    simp only [SMap.del] at h
    split at h
    · exact List.mem_cons_of_mem _ h
    · simp only [List.mem_cons] at h ⊢; tauto

theorem SMap.sorted_del {α : Type} {m : List (Nat × α)} (i : Nat) (h : m.Pairwise fun a b => a.1 < b.1) :
    (SMap.del m i).Pairwise fun a b => a.1 < b.1 := by
  induction m with
  | nil => simp [SMap.del]
  | cons x t ih =>
    obtain ⟨hx, ht⟩ := List.pairwise_cons.1 h
    simp only [SMap.del]
    split
    · exact ht
    · exact List.pairwise_cons.2 ⟨fun c hc => hx c (SMap.mem_del hc), ih ht⟩

theorem SMap.get_above {α : Type} (d : α) {m : List (Nat × α)} {i : Nat} (h : ∀ c ∈ m, i < c.1) : SMap.get d m i = d := by
  induction m with
  | nil => rfl
  | cons x t ih =>
    have := h x (by simp)
    simp only [SMap.get]
    rw [if_neg (by omega), ih fun c hc => h c (by simp [hc])]

theorem SMap.get_del {α : Type} (d : α) {m : List (Nat × α)} (h : m.Pairwise fun a b => a.1 < b.1) (i j : Nat) :
    SMap.get d (SMap.del m i) j = if j = i then d else SMap.get d m j := by
  induction m with
  | nil => simp [SMap.del, SMap.get]
  | cons x t ih =>
    obtain ⟨hx, ht⟩ := List.pairwise_cons.1 h
    simp only [SMap.del]
    split
    · next hi =>
      split
      · next hj => subst hj; subst hi; exact SMap.get_above d hx
      · next hj => simp only [SMap.get]; rw [if_neg (by omega)]
    · next hi =>
      simp only [SMap.get, ih ht]
      split
      · next hk => rw [if_neg (by omega)]
      · rfl

theorem Memory.wf_write {m : List Host.Cell} (a : Nat) (b : Byte) (h : Memory.wf m = true) :
    Memory.wf (Memory.write m a b) = true := by
  rw [Memory.wf_iff] at *
  unfold Memory.write
  split
  · exact ⟨SMap.sorted_del a h.1, fun c hc => h.2 c (SMap.mem_del hc)⟩
  · next hb =>
    refine ⟨SMap.sorted_put a b h.1, fun c hc => ?_⟩
    rcases SMap.mem_put hc with rfl | hc
    · exact hb
    · exact h.2 c hc

theorem Memory.wf_writeN {m : List Host.Cell} (a : Nat) (bs : List Byte) (h : Memory.wf m = true) :
    Memory.wf (Memory.writeN m a bs) = true := by
  induction bs generalizing m a with
  | nil => exact h
  | cons b bs ih => exact ih (a + 1) (Memory.wf_write a b h)

theorem Memory.wf_clear {m : List Host.Cell} (lo n : Nat) (h : Memory.wf m = true) :
    Memory.wf (Memory.clear m lo n) = true := Memory.wf_filter _ h

theorem Memory.wf_foldl {α : Type} (f : List Host.Cell → α → List Host.Cell)
    (hf : ∀ m x, Memory.wf m = true → Memory.wf (f m x) = true) (l : List α) {m : List Host.Cell}
    (h : Memory.wf m = true) : Memory.wf (l.foldl f m) = true := by
  induction l generalizing m with
  | nil => exact h
  | cons x t ih => exact ih (hf m x h)

theorem Memory.wf_paste {m : List Host.Cell} (lo n : Nat) (cs : List Host.Cell) (h : Memory.wf m = true) :
    Memory.wf (Memory.paste m lo n cs) = true := by
  refine Memory.wf_foldl _ (fun m c hm => ?_) cs (Memory.wf_clear lo n h)
  split
  · exact Memory.wf_write _ _ hm
  · exact hm

/-! ### Reading what was written -/

theorem Memory.read_write {m : List Host.Cell} (h : Memory.wf m = true) (a x : Nat) (b : Byte) :
    Memory.read (Memory.write m a b) x = if x = a then b else Memory.read m x := by
  unfold Memory.read Memory.write
  split
  · next hb => rw [SMap.get_del _ ((Memory.wf_iff m).1 h).1, hb]
  · exact SMap.get_put _ _ _ _ _

theorem Memory.read_writeN_out {m : List Host.Cell} (h : Memory.wf m = true) (a x : Nat) (bs : List Byte)
    (hx : x < a ∨ a + bs.length ≤ x) : Memory.read (Memory.writeN m a bs) x = Memory.read m x := by
  induction bs generalizing m a with
  | nil => rfl
  | cons b bs ih =>
    simp only [List.length_cons] at hx
    rw [Memory.writeN, ih (Memory.wf_write a b h) (a + 1) (by omega), Memory.read_write h, if_neg (by omega)]

theorem Memory.readN_length (m : List Host.Cell) (a n : Nat) : (Memory.readN m a n).length = n := by
  induction n generalizing a with
  | zero => rfl
  | succ n ih => simp [Memory.readN, ih]

/-- A read of the bytes just written gives them back. -/
theorem Memory.readN_writeN {m : List Host.Cell} (h : Memory.wf m = true) (a : Nat) (bs : List Byte) :
    Memory.readN (Memory.writeN m a bs) a bs.length = bs := by
  induction bs generalizing m a with
  | nil => rfl
  | cons b bs ih =>
    simp only [Memory.writeN, List.length_cons, Memory.readN]
    rw [ih (Memory.wf_write a b h), Memory.read_writeN_out (Memory.wf_write a b h) _ _ _ (by omega),
      Memory.read_write h, if_pos rfl]

/-- A read outside the bytes written gives what was there. -/
theorem Memory.readN_writeN_out {m : List Host.Cell} (h : Memory.wf m = true) (a b n : Nat) (bs : List Byte)
    (hx : a + n ≤ b ∨ b + bs.length ≤ a) : Memory.readN (Memory.writeN m b bs) a n = Memory.readN m a n := by
  induction n generalizing a with
  | zero => rfl
  | succ n ih => simp only [Memory.readN]; rw [ih (a + 1) (by omega), Memory.read_writeN_out h _ _ _ (by omega)]

/-- Two memories in canonical form that read alike are equal. -/
theorem Memory.ext_read {m n : List Host.Cell} (hm : Memory.wf m = true) (hn : Memory.wf n = true)
    (h : ∀ a, Memory.read m a = Memory.read n a) : m = n := by
  induction m generalizing n with
  | nil =>
    cases n with
    | nil => rfl
    | cons c t =>
      have := h c.1
      simp only [Memory.read, SMap.get, if_pos] at this
      exact absurd this.symm (((Memory.wf_iff _).1 hn).2 c (by simp))
  | cons c t ih =>
    have hc := ((Memory.wf_iff _).1 hm)
    have hct := List.pairwise_cons.1 hc.1
    cases n with
    | nil =>
      have := h c.1
      simp only [Memory.read, SMap.get, if_pos] at this
      exact absurd this (hc.2 c (by simp))
    | cons d u =>
      have hd := ((Memory.wf_iff _).1 hn)
      have hdu := List.pairwise_cons.1 hd.1
      have key : c.1 = d.1 := by
        rcases Nat.lt_trichotomy c.1 d.1 with hlt | heq | hgt
        · have := h c.1
          simp only [Memory.read, SMap.get, if_pos] at this
          rw [if_neg (by omega), SMap.get_above _ fun x hx => hlt.trans (hdu.1 x hx)] at this
          exact absurd this (hc.2 c (by simp))
        · exact heq
        · have := h d.1
          simp only [Memory.read, SMap.get, if_pos] at this
          rw [if_neg (by omega), SMap.get_above _ fun x hx => hgt.trans (hct.1 x hx)] at this
          exact absurd this.symm (hd.2 d (by simp))
      have val : c.2 = d.2 := by
        have := h c.1
        simpa [Memory.read, SMap.get, key] using this
      have tail : t = u := by
        refine ih ((Memory.wf_iff _).2 ⟨hct.2, fun x hx => hc.2 x (by simp [hx])⟩)
          ((Memory.wf_iff _).2 ⟨hdu.2, fun x hx => hd.2 x (by simp [hx])⟩) fun a => ?_
        by_cases ha : a = c.1
        · subst ha
          have h1 := SMap.get_above Memory.blank hct.1
          have h2 := SMap.get_above Memory.blank hdu.1
          simp only [Memory.read]
          rw [h1, key, h2]
        · have := h a
          simp only [Memory.read, SMap.get] at this ⊢
          rwa [if_neg (Ne.symm ha), if_neg (by rw [← key]; exact Ne.symm ha)] at this
      exact congrArg₂ List.cons (Prod.ext key val) tail

end Sys2Proof.Machine
end

