-- ==== Sys2Proof/Laws/State.lean ====
section
/-!
SUPPORT. Every field of the state after every update of Machine/Ops.lean, and the records that are read back after one
is set.
-/

namespace Sys2Proof.Machine

theorem State.thread_setThread (s : State) (i j : Nat) (x : Thread) : (s.setThread i x).thread j = if j = i then x else s.thread j :=
  SMap.get_put _ _ _ _ _

@[simp] theorem State.thread_setThread_self (s : State) (i : Nat) (x : Thread) : (s.setThread i x).thread i = x := SMap.get_put_self _ _ _ _

theorem State.thread_setThread_ne (s : State) {i j : Nat} (x : Thread) (h : j ≠ i) : (s.setThread i x).thread j = s.thread j :=
  SMap.get_put_ne _ _ _ h

theorem State.core_setCore (s : State) (i j : Nat) (x : Core) : (s.setCore i x).core j = if j = i then x else s.core j :=
  SMap.get_put _ _ _ _ _

@[simp] theorem State.core_setCore_self (s : State) (i : Nat) (x : Core) : (s.setCore i x).core i = x := SMap.get_put_self _ _ _ _

theorem State.core_setCore_ne (s : State) {i j : Nat} (x : Core) (h : j ≠ i) : (s.setCore i x).core j = s.core j :=
  SMap.get_put_ne _ _ _ h

theorem State.tile_setTile (s : State) (i j : Nat) (x : Tile) : (s.setTile i x).tile j = if j = i then x else s.tile j :=
  SMap.get_put _ _ _ _ _

@[simp] theorem State.tile_setTile_self (s : State) (i : Nat) (x : Tile) : (s.setTile i x).tile i = x := SMap.get_put_self _ _ _ _

theorem State.tile_setTile_ne (s : State) {i j : Nat} (x : Tile) (h : j ≠ i) : (s.setTile i x).tile j = s.tile j :=
  SMap.get_put_ne _ _ _ h

theorem State.part_setPart (s : State) (i j : Nat) (x : Partition) : (s.setPart i x).part j = if j = i then x else s.part j :=
  SMap.get_put _ _ _ _ _

@[simp] theorem State.part_setPart_self (s : State) (i : Nat) (x : Partition) : (s.setPart i x).part i = x := SMap.get_put_self _ _ _ _

theorem State.part_setPart_ne (s : State) {i j : Nat} (x : Partition) (h : j ≠ i) : (s.setPart i x).part j = s.part j :=
  SMap.get_put_ne _ _ _ h

theorem State.agent_setAgent (s : State) (i j : Nat) (x : HomeAgent) : (s.setAgent i x).agent j = if j = i then x else s.agent j :=
  SMap.get_put _ _ _ _ _

@[simp] theorem State.agent_setAgent_self (s : State) (i : Nat) (x : HomeAgent) : (s.setAgent i x).agent i = x := SMap.get_put_self _ _ _ _

theorem State.agent_setAgent_ne (s : State) {i j : Nat} (x : HomeAgent) (h : j ≠ i) : (s.setAgent i x).agent j = s.agent j :=
  SMap.get_put_ne _ _ _ h

@[simp] theorem State.setThread_agenda (s : State) (h : Nat) (t : Thread) : (s.setThread h t).agenda = s.agenda := rfl
@[simp] theorem State.setThread_cur (s : State) (h : Nat) (t : Thread) : (s.setThread h t).cur = s.cur := rfl
@[simp] theorem State.setThread_freeCtr (s : State) (h : Nat) (t : Thread) : (s.setThread h t).freeCtr = s.freeCtr := rfl
@[simp] theorem State.setThread_refTime (s : State) (h : Nat) (t : Thread) : (s.setThread h t).refTime = s.refTime := rfl
@[simp] theorem State.setThread_ordCtr (s : State) (h : Nat) (t : Thread) : (s.setThread h t).ordCtr = s.ordCtr := rfl
@[simp] theorem State.setThread_powered (s : State) (h : Nat) (t : Thread) : (s.setThread h t).powered = s.powered := rfl
@[simp] theorem State.setThread_mem (s : State) (h : Nat) (t : Thread) : (s.setThread h t).mem = s.mem := rfl
@[simp] theorem State.setThread_full (s : State) (h : Nat) (t : Thread) : (s.setThread h t).full = s.full := rfl
@[simp] theorem State.setThread_poison (s : State) (h : Nat) (t : Thread) : (s.setThread h t).poison = s.poison := rfl
@[simp] theorem State.setThread_dirty (s : State) (h : Nat) (t : Thread) : (s.setThread h t).dirty = s.dirty := rfl
@[simp] theorem State.setThread_floe0 (s : State) (h : Nat) (t : Thread) : (s.setThread h t).floe0 = s.floe0 := rfl
@[simp] theorem State.setThread_firnMem (s : State) (h : Nat) (t : Thread) : (s.setThread h t).firnMem = s.firnMem := rfl
@[simp] theorem State.setThread_tagKey (s : State) (h : Nat) (t : Thread) : (s.setThread h t).tagKey = s.tagKey := rfl
@[simp] theorem State.setThread_failQ (s : State) (h : Nat) (t : Thread) : (s.setThread h t).failQ = s.failQ := rfl
@[simp] theorem State.setThread_aer (s : State) (h : Nat) (t : Thread) : (s.setThread h t).aer = s.aer := rfl
@[simp] theorem State.setThread_mapped (s : State) (h : Nat) (t : Thread) : (s.setThread h t).mapped = s.mapped := rfl
@[simp] theorem State.setThread_instrs (s : State) (h : Nat) (t : Thread) : (s.setThread h t).instrs = s.instrs := rfl
@[simp] theorem State.setThread_cores (s : State) (h : Nat) (t : Thread) : (s.setThread h t).cores = s.cores := rfl
@[simp] theorem State.setThread_tiles (s : State) (h : Nat) (t : Thread) : (s.setThread h t).tiles = s.tiles := rfl
@[simp] theorem State.setThread_regions (s : State) (h : Nat) (t : Thread) : (s.setThread h t).regions = s.regions := rfl
@[simp] theorem State.setThread_parts (s : State) (h : Nat) (t : Thread) : (s.setThread h t).parts = s.parts := rfl
@[simp] theorem State.setThread_homes (s : State) (h : Nat) (t : Thread) : (s.setThread h t).homes = s.homes := rfl
@[simp] theorem State.setThread_binding (s : State) (h : Nat) (t : Thread) : (s.setThread h t).binding = s.binding := rfl
@[simp] theorem State.setThread_unbound (s : State) (h : Nat) (t : Thread) : (s.setThread h t).unbound = s.unbound := rfl
@[simp] theorem State.setThread_fenced (s : State) (h : Nat) (t : Thread) : (s.setThread h t).fenced = s.fenced := rfl
@[simp] theorem State.setThread_boot (s : State) (h : Nat) (t : Thread) : (s.setThread h t).boot = s.boot := rfl
@[simp] theorem State.setThread_devid (s : State) (h : Nat) (t : Thread) : (s.setThread h t).devid = s.devid := rfl
@[simp] theorem State.setThread_devValid (s : State) (h : Nat) (t : Thread) : (s.setThread h t).devValid = s.devValid := rfl
@[simp] theorem State.setThread_attest (s : State) (h : Nat) (t : Thread) : (s.setThread h t).attest = s.attest := rfl
@[simp] theorem State.setThread_flash (s : State) (h : Nat) (t : Thread) : (s.setThread h t).flash = s.flash := rfl
@[simp] theorem State.setThread_appends (s : State) (h : Nat) (t : Thread) : (s.setThread h t).appends = s.appends := rfl
@[simp] theorem State.setThread_queues (s : State) (h : Nat) (t : Thread) : (s.setThread h t).queues = s.queues := rfl
@[simp] theorem State.setThread_devq (s : State) (h : Nat) (t : Thread) : (s.setThread h t).devq = s.devq := rfl
@[simp] theorem State.setThread_taken (s : State) (h : Nat) (t : Thread) : (s.setThread h t).taken = s.taken := rfl
@[simp] theorem State.setThread_turns (s : State) (h : Nat) (t : Thread) : (s.setThread h t).turns = s.turns := rfl
@[simp] theorem State.setThread_replays (s : State) (h : Nat) (t : Thread) : (s.setThread h t).replays = s.replays := rfl
@[simp] theorem State.setThread_waves (s : State) (h : Nat) (t : Thread) : (s.setThread h t).waves = s.waves := rfl
@[simp] theorem State.setThread_nextId (s : State) (h : Nat) (t : Thread) : (s.setThread h t).nextId = s.nextId := rfl
@[simp] theorem State.setThread_vfs (s : State) (h : Nat) (t : Thread) : (s.setThread h t).vfs = s.vfs := rfl
@[simp] theorem State.setThread_selfSecs (s : State) (h : Nat) (t : Thread) : (s.setThread h t).selfSecs = s.selfSecs := rfl
@[simp] theorem State.setThread_ports (s : State) (h : Nat) (t : Thread) : (s.setThread h t).ports = s.ports := rfl
@[simp] theorem State.setThread_net (s : State) (h : Nat) (t : Thread) : (s.setThread h t).net = s.net := rfl
@[simp] theorem State.setThread_egressQ (s : State) (h : Nat) (t : Thread) : (s.setThread h t).egressQ = s.egressQ := rfl
@[simp] theorem State.setThread_egressed (s : State) (h : Nat) (t : Thread) : (s.setThread h t).egressed = s.egressed := rfl
@[simp] theorem State.setThread_assists (s : State) (h : Nat) (t : Thread) : (s.setThread h t).assists = s.assists := rfl
@[simp] theorem State.setThread_ring0 (s : State) (h : Nat) (t : Thread) : (s.setThread h t).ring0 = s.ring0 := rfl
@[simp] theorem State.setThread_ev0Seq (s : State) (h : Nat) (t : Thread) : (s.setThread h t).ev0Seq = s.ev0Seq := rfl
@[simp] theorem State.setThread_firns (s : State) (h : Nat) (t : Thread) : (s.setThread h t).firns = s.firns := rfl
@[simp] theorem State.setThread_saves (s : State) (h : Nat) (t : Thread) : (s.setThread h t).saves = s.saves := rfl
@[simp] theorem State.setThread_points (s : State) (h : Nat) (t : Thread) : (s.setThread h t).points = s.points := rfl
@[simp] theorem State.setThread_outs (s : State) (h : Nat) (t : Thread) : (s.setThread h t).outs = s.outs := rfl
@[simp] theorem State.setThread_core (s : State) (h : Nat) (t : Thread) (z : Nat) : (s.setThread h t).core z = s.core z := rfl
@[simp] theorem State.setThread_tile (s : State) (h : Nat) (t : Thread) (z : Nat) : (s.setThread h t).tile z = s.tile z := rfl
@[simp] theorem State.setThread_part (s : State) (h : Nat) (t : Thread) (z : Nat) : (s.setThread h t).part z = s.part z := rfl
@[simp] theorem State.setThread_agent (s : State) (h : Nat) (t : Thread) (z : Nat) : (s.setThread h t).agent z = s.agent z := rfl

@[simp] theorem State.setMe_agenda (s : State) (t : Thread) : (s.setMe t).agenda = s.agenda := rfl
@[simp] theorem State.setMe_cur (s : State) (t : Thread) : (s.setMe t).cur = s.cur := rfl
@[simp] theorem State.setMe_freeCtr (s : State) (t : Thread) : (s.setMe t).freeCtr = s.freeCtr := rfl
@[simp] theorem State.setMe_refTime (s : State) (t : Thread) : (s.setMe t).refTime = s.refTime := rfl
@[simp] theorem State.setMe_ordCtr (s : State) (t : Thread) : (s.setMe t).ordCtr = s.ordCtr := rfl
@[simp] theorem State.setMe_powered (s : State) (t : Thread) : (s.setMe t).powered = s.powered := rfl
@[simp] theorem State.setMe_mem (s : State) (t : Thread) : (s.setMe t).mem = s.mem := rfl
@[simp] theorem State.setMe_full (s : State) (t : Thread) : (s.setMe t).full = s.full := rfl
@[simp] theorem State.setMe_poison (s : State) (t : Thread) : (s.setMe t).poison = s.poison := rfl
@[simp] theorem State.setMe_dirty (s : State) (t : Thread) : (s.setMe t).dirty = s.dirty := rfl
@[simp] theorem State.setMe_floe0 (s : State) (t : Thread) : (s.setMe t).floe0 = s.floe0 := rfl
@[simp] theorem State.setMe_firnMem (s : State) (t : Thread) : (s.setMe t).firnMem = s.firnMem := rfl
@[simp] theorem State.setMe_tagKey (s : State) (t : Thread) : (s.setMe t).tagKey = s.tagKey := rfl
@[simp] theorem State.setMe_failQ (s : State) (t : Thread) : (s.setMe t).failQ = s.failQ := rfl
@[simp] theorem State.setMe_aer (s : State) (t : Thread) : (s.setMe t).aer = s.aer := rfl
@[simp] theorem State.setMe_mapped (s : State) (t : Thread) : (s.setMe t).mapped = s.mapped := rfl
@[simp] theorem State.setMe_instrs (s : State) (t : Thread) : (s.setMe t).instrs = s.instrs := rfl
@[simp] theorem State.setMe_cores (s : State) (t : Thread) : (s.setMe t).cores = s.cores := rfl
@[simp] theorem State.setMe_tiles (s : State) (t : Thread) : (s.setMe t).tiles = s.tiles := rfl
@[simp] theorem State.setMe_regions (s : State) (t : Thread) : (s.setMe t).regions = s.regions := rfl
@[simp] theorem State.setMe_parts (s : State) (t : Thread) : (s.setMe t).parts = s.parts := rfl
@[simp] theorem State.setMe_homes (s : State) (t : Thread) : (s.setMe t).homes = s.homes := rfl
@[simp] theorem State.setMe_binding (s : State) (t : Thread) : (s.setMe t).binding = s.binding := rfl
@[simp] theorem State.setMe_unbound (s : State) (t : Thread) : (s.setMe t).unbound = s.unbound := rfl
@[simp] theorem State.setMe_fenced (s : State) (t : Thread) : (s.setMe t).fenced = s.fenced := rfl
@[simp] theorem State.setMe_boot (s : State) (t : Thread) : (s.setMe t).boot = s.boot := rfl
@[simp] theorem State.setMe_devid (s : State) (t : Thread) : (s.setMe t).devid = s.devid := rfl
@[simp] theorem State.setMe_devValid (s : State) (t : Thread) : (s.setMe t).devValid = s.devValid := rfl
@[simp] theorem State.setMe_attest (s : State) (t : Thread) : (s.setMe t).attest = s.attest := rfl
@[simp] theorem State.setMe_flash (s : State) (t : Thread) : (s.setMe t).flash = s.flash := rfl
@[simp] theorem State.setMe_appends (s : State) (t : Thread) : (s.setMe t).appends = s.appends := rfl
@[simp] theorem State.setMe_queues (s : State) (t : Thread) : (s.setMe t).queues = s.queues := rfl
@[simp] theorem State.setMe_devq (s : State) (t : Thread) : (s.setMe t).devq = s.devq := rfl
@[simp] theorem State.setMe_taken (s : State) (t : Thread) : (s.setMe t).taken = s.taken := rfl
@[simp] theorem State.setMe_turns (s : State) (t : Thread) : (s.setMe t).turns = s.turns := rfl
@[simp] theorem State.setMe_replays (s : State) (t : Thread) : (s.setMe t).replays = s.replays := rfl
@[simp] theorem State.setMe_waves (s : State) (t : Thread) : (s.setMe t).waves = s.waves := rfl
@[simp] theorem State.setMe_nextId (s : State) (t : Thread) : (s.setMe t).nextId = s.nextId := rfl
@[simp] theorem State.setMe_vfs (s : State) (t : Thread) : (s.setMe t).vfs = s.vfs := rfl
@[simp] theorem State.setMe_selfSecs (s : State) (t : Thread) : (s.setMe t).selfSecs = s.selfSecs := rfl
@[simp] theorem State.setMe_ports (s : State) (t : Thread) : (s.setMe t).ports = s.ports := rfl
@[simp] theorem State.setMe_net (s : State) (t : Thread) : (s.setMe t).net = s.net := rfl
@[simp] theorem State.setMe_egressQ (s : State) (t : Thread) : (s.setMe t).egressQ = s.egressQ := rfl
@[simp] theorem State.setMe_egressed (s : State) (t : Thread) : (s.setMe t).egressed = s.egressed := rfl
@[simp] theorem State.setMe_assists (s : State) (t : Thread) : (s.setMe t).assists = s.assists := rfl
@[simp] theorem State.setMe_ring0 (s : State) (t : Thread) : (s.setMe t).ring0 = s.ring0 := rfl
@[simp] theorem State.setMe_ev0Seq (s : State) (t : Thread) : (s.setMe t).ev0Seq = s.ev0Seq := rfl
@[simp] theorem State.setMe_firns (s : State) (t : Thread) : (s.setMe t).firns = s.firns := rfl
@[simp] theorem State.setMe_saves (s : State) (t : Thread) : (s.setMe t).saves = s.saves := rfl
@[simp] theorem State.setMe_points (s : State) (t : Thread) : (s.setMe t).points = s.points := rfl
@[simp] theorem State.setMe_outs (s : State) (t : Thread) : (s.setMe t).outs = s.outs := rfl
@[simp] theorem State.setMe_core (s : State) (t : Thread) (z : Nat) : (s.setMe t).core z = s.core z := rfl
@[simp] theorem State.setMe_tile (s : State) (t : Thread) (z : Nat) : (s.setMe t).tile z = s.tile z := rfl
@[simp] theorem State.setMe_part (s : State) (t : Thread) (z : Nat) : (s.setMe t).part z = s.part z := rfl
@[simp] theorem State.setMe_agent (s : State) (t : Thread) (z : Nat) : (s.setMe t).agent z = s.agent z := rfl

@[simp] theorem State.setCore_agenda (s : State) (c : Nat) (x : Core) : (s.setCore c x).agenda = s.agenda := rfl
@[simp] theorem State.setCore_cur (s : State) (c : Nat) (x : Core) : (s.setCore c x).cur = s.cur := rfl
@[simp] theorem State.setCore_freeCtr (s : State) (c : Nat) (x : Core) : (s.setCore c x).freeCtr = s.freeCtr := rfl
@[simp] theorem State.setCore_refTime (s : State) (c : Nat) (x : Core) : (s.setCore c x).refTime = s.refTime := rfl
@[simp] theorem State.setCore_ordCtr (s : State) (c : Nat) (x : Core) : (s.setCore c x).ordCtr = s.ordCtr := rfl
@[simp] theorem State.setCore_powered (s : State) (c : Nat) (x : Core) : (s.setCore c x).powered = s.powered := rfl
@[simp] theorem State.setCore_mem (s : State) (c : Nat) (x : Core) : (s.setCore c x).mem = s.mem := rfl
@[simp] theorem State.setCore_full (s : State) (c : Nat) (x : Core) : (s.setCore c x).full = s.full := rfl
@[simp] theorem State.setCore_poison (s : State) (c : Nat) (x : Core) : (s.setCore c x).poison = s.poison := rfl
@[simp] theorem State.setCore_dirty (s : State) (c : Nat) (x : Core) : (s.setCore c x).dirty = s.dirty := rfl
@[simp] theorem State.setCore_floe0 (s : State) (c : Nat) (x : Core) : (s.setCore c x).floe0 = s.floe0 := rfl
@[simp] theorem State.setCore_firnMem (s : State) (c : Nat) (x : Core) : (s.setCore c x).firnMem = s.firnMem := rfl
@[simp] theorem State.setCore_tagKey (s : State) (c : Nat) (x : Core) : (s.setCore c x).tagKey = s.tagKey := rfl
@[simp] theorem State.setCore_failQ (s : State) (c : Nat) (x : Core) : (s.setCore c x).failQ = s.failQ := rfl
@[simp] theorem State.setCore_aer (s : State) (c : Nat) (x : Core) : (s.setCore c x).aer = s.aer := rfl
@[simp] theorem State.setCore_mapped (s : State) (c : Nat) (x : Core) : (s.setCore c x).mapped = s.mapped := rfl
@[simp] theorem State.setCore_instrs (s : State) (c : Nat) (x : Core) : (s.setCore c x).instrs = s.instrs := rfl
@[simp] theorem State.setCore_threads (s : State) (c : Nat) (x : Core) : (s.setCore c x).threads = s.threads := rfl
@[simp] theorem State.setCore_tiles (s : State) (c : Nat) (x : Core) : (s.setCore c x).tiles = s.tiles := rfl
@[simp] theorem State.setCore_regions (s : State) (c : Nat) (x : Core) : (s.setCore c x).regions = s.regions := rfl
@[simp] theorem State.setCore_parts (s : State) (c : Nat) (x : Core) : (s.setCore c x).parts = s.parts := rfl
@[simp] theorem State.setCore_homes (s : State) (c : Nat) (x : Core) : (s.setCore c x).homes = s.homes := rfl
@[simp] theorem State.setCore_binding (s : State) (c : Nat) (x : Core) : (s.setCore c x).binding = s.binding := rfl
@[simp] theorem State.setCore_unbound (s : State) (c : Nat) (x : Core) : (s.setCore c x).unbound = s.unbound := rfl
@[simp] theorem State.setCore_fenced (s : State) (c : Nat) (x : Core) : (s.setCore c x).fenced = s.fenced := rfl
@[simp] theorem State.setCore_boot (s : State) (c : Nat) (x : Core) : (s.setCore c x).boot = s.boot := rfl
@[simp] theorem State.setCore_devid (s : State) (c : Nat) (x : Core) : (s.setCore c x).devid = s.devid := rfl
@[simp] theorem State.setCore_devValid (s : State) (c : Nat) (x : Core) : (s.setCore c x).devValid = s.devValid := rfl
@[simp] theorem State.setCore_attest (s : State) (c : Nat) (x : Core) : (s.setCore c x).attest = s.attest := rfl
@[simp] theorem State.setCore_flash (s : State) (c : Nat) (x : Core) : (s.setCore c x).flash = s.flash := rfl
@[simp] theorem State.setCore_appends (s : State) (c : Nat) (x : Core) : (s.setCore c x).appends = s.appends := rfl
@[simp] theorem State.setCore_queues (s : State) (c : Nat) (x : Core) : (s.setCore c x).queues = s.queues := rfl
@[simp] theorem State.setCore_devq (s : State) (c : Nat) (x : Core) : (s.setCore c x).devq = s.devq := rfl
@[simp] theorem State.setCore_taken (s : State) (c : Nat) (x : Core) : (s.setCore c x).taken = s.taken := rfl
@[simp] theorem State.setCore_turns (s : State) (c : Nat) (x : Core) : (s.setCore c x).turns = s.turns := rfl
@[simp] theorem State.setCore_replays (s : State) (c : Nat) (x : Core) : (s.setCore c x).replays = s.replays := rfl
@[simp] theorem State.setCore_waves (s : State) (c : Nat) (x : Core) : (s.setCore c x).waves = s.waves := rfl
@[simp] theorem State.setCore_nextId (s : State) (c : Nat) (x : Core) : (s.setCore c x).nextId = s.nextId := rfl
@[simp] theorem State.setCore_vfs (s : State) (c : Nat) (x : Core) : (s.setCore c x).vfs = s.vfs := rfl
@[simp] theorem State.setCore_selfSecs (s : State) (c : Nat) (x : Core) : (s.setCore c x).selfSecs = s.selfSecs := rfl
@[simp] theorem State.setCore_ports (s : State) (c : Nat) (x : Core) : (s.setCore c x).ports = s.ports := rfl
@[simp] theorem State.setCore_net (s : State) (c : Nat) (x : Core) : (s.setCore c x).net = s.net := rfl
@[simp] theorem State.setCore_egressQ (s : State) (c : Nat) (x : Core) : (s.setCore c x).egressQ = s.egressQ := rfl
@[simp] theorem State.setCore_egressed (s : State) (c : Nat) (x : Core) : (s.setCore c x).egressed = s.egressed := rfl
@[simp] theorem State.setCore_assists (s : State) (c : Nat) (x : Core) : (s.setCore c x).assists = s.assists := rfl
@[simp] theorem State.setCore_ring0 (s : State) (c : Nat) (x : Core) : (s.setCore c x).ring0 = s.ring0 := rfl
@[simp] theorem State.setCore_ev0Seq (s : State) (c : Nat) (x : Core) : (s.setCore c x).ev0Seq = s.ev0Seq := rfl
@[simp] theorem State.setCore_firns (s : State) (c : Nat) (x : Core) : (s.setCore c x).firns = s.firns := rfl
@[simp] theorem State.setCore_saves (s : State) (c : Nat) (x : Core) : (s.setCore c x).saves = s.saves := rfl
@[simp] theorem State.setCore_points (s : State) (c : Nat) (x : Core) : (s.setCore c x).points = s.points := rfl
@[simp] theorem State.setCore_outs (s : State) (c : Nat) (x : Core) : (s.setCore c x).outs = s.outs := rfl
@[simp] theorem State.setCore_thread (s : State) (c : Nat) (x : Core) (z : Nat) : (s.setCore c x).thread z = s.thread z := rfl
@[simp] theorem State.setCore_tile (s : State) (c : Nat) (x : Core) (z : Nat) : (s.setCore c x).tile z = s.tile z := rfl
@[simp] theorem State.setCore_part (s : State) (c : Nat) (x : Core) (z : Nat) : (s.setCore c x).part z = s.part z := rfl
@[simp] theorem State.setCore_agent (s : State) (c : Nat) (x : Core) (z : Nat) : (s.setCore c x).agent z = s.agent z := rfl

@[simp] theorem State.setTile_agenda (s : State) (i : Nat) (x : Tile) : (s.setTile i x).agenda = s.agenda := rfl
@[simp] theorem State.setTile_cur (s : State) (i : Nat) (x : Tile) : (s.setTile i x).cur = s.cur := rfl
@[simp] theorem State.setTile_freeCtr (s : State) (i : Nat) (x : Tile) : (s.setTile i x).freeCtr = s.freeCtr := rfl
@[simp] theorem State.setTile_refTime (s : State) (i : Nat) (x : Tile) : (s.setTile i x).refTime = s.refTime := rfl
@[simp] theorem State.setTile_ordCtr (s : State) (i : Nat) (x : Tile) : (s.setTile i x).ordCtr = s.ordCtr := rfl
@[simp] theorem State.setTile_powered (s : State) (i : Nat) (x : Tile) : (s.setTile i x).powered = s.powered := rfl
@[simp] theorem State.setTile_mem (s : State) (i : Nat) (x : Tile) : (s.setTile i x).mem = s.mem := rfl
@[simp] theorem State.setTile_full (s : State) (i : Nat) (x : Tile) : (s.setTile i x).full = s.full := rfl
@[simp] theorem State.setTile_poison (s : State) (i : Nat) (x : Tile) : (s.setTile i x).poison = s.poison := rfl
@[simp] theorem State.setTile_dirty (s : State) (i : Nat) (x : Tile) : (s.setTile i x).dirty = s.dirty := rfl
@[simp] theorem State.setTile_floe0 (s : State) (i : Nat) (x : Tile) : (s.setTile i x).floe0 = s.floe0 := rfl
@[simp] theorem State.setTile_firnMem (s : State) (i : Nat) (x : Tile) : (s.setTile i x).firnMem = s.firnMem := rfl
@[simp] theorem State.setTile_tagKey (s : State) (i : Nat) (x : Tile) : (s.setTile i x).tagKey = s.tagKey := rfl
@[simp] theorem State.setTile_failQ (s : State) (i : Nat) (x : Tile) : (s.setTile i x).failQ = s.failQ := rfl
@[simp] theorem State.setTile_aer (s : State) (i : Nat) (x : Tile) : (s.setTile i x).aer = s.aer := rfl
@[simp] theorem State.setTile_mapped (s : State) (i : Nat) (x : Tile) : (s.setTile i x).mapped = s.mapped := rfl
@[simp] theorem State.setTile_instrs (s : State) (i : Nat) (x : Tile) : (s.setTile i x).instrs = s.instrs := rfl
@[simp] theorem State.setTile_threads (s : State) (i : Nat) (x : Tile) : (s.setTile i x).threads = s.threads := rfl
@[simp] theorem State.setTile_cores (s : State) (i : Nat) (x : Tile) : (s.setTile i x).cores = s.cores := rfl
@[simp] theorem State.setTile_regions (s : State) (i : Nat) (x : Tile) : (s.setTile i x).regions = s.regions := rfl
@[simp] theorem State.setTile_parts (s : State) (i : Nat) (x : Tile) : (s.setTile i x).parts = s.parts := rfl
@[simp] theorem State.setTile_homes (s : State) (i : Nat) (x : Tile) : (s.setTile i x).homes = s.homes := rfl
@[simp] theorem State.setTile_binding (s : State) (i : Nat) (x : Tile) : (s.setTile i x).binding = s.binding := rfl
@[simp] theorem State.setTile_unbound (s : State) (i : Nat) (x : Tile) : (s.setTile i x).unbound = s.unbound := rfl
@[simp] theorem State.setTile_fenced (s : State) (i : Nat) (x : Tile) : (s.setTile i x).fenced = s.fenced := rfl
@[simp] theorem State.setTile_boot (s : State) (i : Nat) (x : Tile) : (s.setTile i x).boot = s.boot := rfl
@[simp] theorem State.setTile_devid (s : State) (i : Nat) (x : Tile) : (s.setTile i x).devid = s.devid := rfl
@[simp] theorem State.setTile_devValid (s : State) (i : Nat) (x : Tile) : (s.setTile i x).devValid = s.devValid := rfl
@[simp] theorem State.setTile_attest (s : State) (i : Nat) (x : Tile) : (s.setTile i x).attest = s.attest := rfl
@[simp] theorem State.setTile_flash (s : State) (i : Nat) (x : Tile) : (s.setTile i x).flash = s.flash := rfl
@[simp] theorem State.setTile_appends (s : State) (i : Nat) (x : Tile) : (s.setTile i x).appends = s.appends := rfl
@[simp] theorem State.setTile_queues (s : State) (i : Nat) (x : Tile) : (s.setTile i x).queues = s.queues := rfl
@[simp] theorem State.setTile_devq (s : State) (i : Nat) (x : Tile) : (s.setTile i x).devq = s.devq := rfl
@[simp] theorem State.setTile_taken (s : State) (i : Nat) (x : Tile) : (s.setTile i x).taken = s.taken := rfl
@[simp] theorem State.setTile_turns (s : State) (i : Nat) (x : Tile) : (s.setTile i x).turns = s.turns := rfl
@[simp] theorem State.setTile_replays (s : State) (i : Nat) (x : Tile) : (s.setTile i x).replays = s.replays := rfl
@[simp] theorem State.setTile_waves (s : State) (i : Nat) (x : Tile) : (s.setTile i x).waves = s.waves := rfl
@[simp] theorem State.setTile_nextId (s : State) (i : Nat) (x : Tile) : (s.setTile i x).nextId = s.nextId := rfl
@[simp] theorem State.setTile_vfs (s : State) (i : Nat) (x : Tile) : (s.setTile i x).vfs = s.vfs := rfl
@[simp] theorem State.setTile_selfSecs (s : State) (i : Nat) (x : Tile) : (s.setTile i x).selfSecs = s.selfSecs := rfl
@[simp] theorem State.setTile_ports (s : State) (i : Nat) (x : Tile) : (s.setTile i x).ports = s.ports := rfl
@[simp] theorem State.setTile_net (s : State) (i : Nat) (x : Tile) : (s.setTile i x).net = s.net := rfl
@[simp] theorem State.setTile_egressQ (s : State) (i : Nat) (x : Tile) : (s.setTile i x).egressQ = s.egressQ := rfl
@[simp] theorem State.setTile_egressed (s : State) (i : Nat) (x : Tile) : (s.setTile i x).egressed = s.egressed := rfl
@[simp] theorem State.setTile_assists (s : State) (i : Nat) (x : Tile) : (s.setTile i x).assists = s.assists := rfl
@[simp] theorem State.setTile_ring0 (s : State) (i : Nat) (x : Tile) : (s.setTile i x).ring0 = s.ring0 := rfl
@[simp] theorem State.setTile_ev0Seq (s : State) (i : Nat) (x : Tile) : (s.setTile i x).ev0Seq = s.ev0Seq := rfl
@[simp] theorem State.setTile_firns (s : State) (i : Nat) (x : Tile) : (s.setTile i x).firns = s.firns := rfl
@[simp] theorem State.setTile_saves (s : State) (i : Nat) (x : Tile) : (s.setTile i x).saves = s.saves := rfl
@[simp] theorem State.setTile_points (s : State) (i : Nat) (x : Tile) : (s.setTile i x).points = s.points := rfl
@[simp] theorem State.setTile_outs (s : State) (i : Nat) (x : Tile) : (s.setTile i x).outs = s.outs := rfl
@[simp] theorem State.setTile_thread (s : State) (i : Nat) (x : Tile) (z : Nat) : (s.setTile i x).thread z = s.thread z := rfl
@[simp] theorem State.setTile_core (s : State) (i : Nat) (x : Tile) (z : Nat) : (s.setTile i x).core z = s.core z := rfl
@[simp] theorem State.setTile_part (s : State) (i : Nat) (x : Tile) (z : Nat) : (s.setTile i x).part z = s.part z := rfl
@[simp] theorem State.setTile_agent (s : State) (i : Nat) (x : Tile) (z : Nat) : (s.setTile i x).agent z = s.agent z := rfl

@[simp] theorem State.setPart_agenda (s : State) (p : Nat) (x : Partition) : (s.setPart p x).agenda = s.agenda := rfl
@[simp] theorem State.setPart_cur (s : State) (p : Nat) (x : Partition) : (s.setPart p x).cur = s.cur := rfl
@[simp] theorem State.setPart_freeCtr (s : State) (p : Nat) (x : Partition) : (s.setPart p x).freeCtr = s.freeCtr := rfl
@[simp] theorem State.setPart_refTime (s : State) (p : Nat) (x : Partition) : (s.setPart p x).refTime = s.refTime := rfl
@[simp] theorem State.setPart_ordCtr (s : State) (p : Nat) (x : Partition) : (s.setPart p x).ordCtr = s.ordCtr := rfl
@[simp] theorem State.setPart_powered (s : State) (p : Nat) (x : Partition) : (s.setPart p x).powered = s.powered := rfl
@[simp] theorem State.setPart_mem (s : State) (p : Nat) (x : Partition) : (s.setPart p x).mem = s.mem := rfl
@[simp] theorem State.setPart_full (s : State) (p : Nat) (x : Partition) : (s.setPart p x).full = s.full := rfl
@[simp] theorem State.setPart_poison (s : State) (p : Nat) (x : Partition) : (s.setPart p x).poison = s.poison := rfl
@[simp] theorem State.setPart_dirty (s : State) (p : Nat) (x : Partition) : (s.setPart p x).dirty = s.dirty := rfl
@[simp] theorem State.setPart_floe0 (s : State) (p : Nat) (x : Partition) : (s.setPart p x).floe0 = s.floe0 := rfl
@[simp] theorem State.setPart_firnMem (s : State) (p : Nat) (x : Partition) : (s.setPart p x).firnMem = s.firnMem := rfl
@[simp] theorem State.setPart_tagKey (s : State) (p : Nat) (x : Partition) : (s.setPart p x).tagKey = s.tagKey := rfl
@[simp] theorem State.setPart_failQ (s : State) (p : Nat) (x : Partition) : (s.setPart p x).failQ = s.failQ := rfl
@[simp] theorem State.setPart_aer (s : State) (p : Nat) (x : Partition) : (s.setPart p x).aer = s.aer := rfl
@[simp] theorem State.setPart_mapped (s : State) (p : Nat) (x : Partition) : (s.setPart p x).mapped = s.mapped := rfl
@[simp] theorem State.setPart_instrs (s : State) (p : Nat) (x : Partition) : (s.setPart p x).instrs = s.instrs := rfl
@[simp] theorem State.setPart_threads (s : State) (p : Nat) (x : Partition) : (s.setPart p x).threads = s.threads := rfl
@[simp] theorem State.setPart_cores (s : State) (p : Nat) (x : Partition) : (s.setPart p x).cores = s.cores := rfl
@[simp] theorem State.setPart_tiles (s : State) (p : Nat) (x : Partition) : (s.setPart p x).tiles = s.tiles := rfl
@[simp] theorem State.setPart_regions (s : State) (p : Nat) (x : Partition) : (s.setPart p x).regions = s.regions := rfl
@[simp] theorem State.setPart_homes (s : State) (p : Nat) (x : Partition) : (s.setPart p x).homes = s.homes := rfl
@[simp] theorem State.setPart_binding (s : State) (p : Nat) (x : Partition) : (s.setPart p x).binding = s.binding := rfl
@[simp] theorem State.setPart_unbound (s : State) (p : Nat) (x : Partition) : (s.setPart p x).unbound = s.unbound := rfl
@[simp] theorem State.setPart_fenced (s : State) (p : Nat) (x : Partition) : (s.setPart p x).fenced = s.fenced := rfl
@[simp] theorem State.setPart_boot (s : State) (p : Nat) (x : Partition) : (s.setPart p x).boot = s.boot := rfl
@[simp] theorem State.setPart_devid (s : State) (p : Nat) (x : Partition) : (s.setPart p x).devid = s.devid := rfl
@[simp] theorem State.setPart_devValid (s : State) (p : Nat) (x : Partition) : (s.setPart p x).devValid = s.devValid := rfl
@[simp] theorem State.setPart_attest (s : State) (p : Nat) (x : Partition) : (s.setPart p x).attest = s.attest := rfl
@[simp] theorem State.setPart_flash (s : State) (p : Nat) (x : Partition) : (s.setPart p x).flash = s.flash := rfl
@[simp] theorem State.setPart_appends (s : State) (p : Nat) (x : Partition) : (s.setPart p x).appends = s.appends := rfl
@[simp] theorem State.setPart_queues (s : State) (p : Nat) (x : Partition) : (s.setPart p x).queues = s.queues := rfl
@[simp] theorem State.setPart_devq (s : State) (p : Nat) (x : Partition) : (s.setPart p x).devq = s.devq := rfl
@[simp] theorem State.setPart_taken (s : State) (p : Nat) (x : Partition) : (s.setPart p x).taken = s.taken := rfl
@[simp] theorem State.setPart_turns (s : State) (p : Nat) (x : Partition) : (s.setPart p x).turns = s.turns := rfl
@[simp] theorem State.setPart_replays (s : State) (p : Nat) (x : Partition) : (s.setPart p x).replays = s.replays := rfl
@[simp] theorem State.setPart_waves (s : State) (p : Nat) (x : Partition) : (s.setPart p x).waves = s.waves := rfl
@[simp] theorem State.setPart_nextId (s : State) (p : Nat) (x : Partition) : (s.setPart p x).nextId = s.nextId := rfl
@[simp] theorem State.setPart_vfs (s : State) (p : Nat) (x : Partition) : (s.setPart p x).vfs = s.vfs := rfl
@[simp] theorem State.setPart_selfSecs (s : State) (p : Nat) (x : Partition) : (s.setPart p x).selfSecs = s.selfSecs := rfl
@[simp] theorem State.setPart_ports (s : State) (p : Nat) (x : Partition) : (s.setPart p x).ports = s.ports := rfl
@[simp] theorem State.setPart_net (s : State) (p : Nat) (x : Partition) : (s.setPart p x).net = s.net := rfl
@[simp] theorem State.setPart_egressQ (s : State) (p : Nat) (x : Partition) : (s.setPart p x).egressQ = s.egressQ := rfl
@[simp] theorem State.setPart_egressed (s : State) (p : Nat) (x : Partition) : (s.setPart p x).egressed = s.egressed := rfl
@[simp] theorem State.setPart_assists (s : State) (p : Nat) (x : Partition) : (s.setPart p x).assists = s.assists := rfl
@[simp] theorem State.setPart_ring0 (s : State) (p : Nat) (x : Partition) : (s.setPart p x).ring0 = s.ring0 := rfl
@[simp] theorem State.setPart_ev0Seq (s : State) (p : Nat) (x : Partition) : (s.setPart p x).ev0Seq = s.ev0Seq := rfl
@[simp] theorem State.setPart_firns (s : State) (p : Nat) (x : Partition) : (s.setPart p x).firns = s.firns := rfl
@[simp] theorem State.setPart_saves (s : State) (p : Nat) (x : Partition) : (s.setPart p x).saves = s.saves := rfl
@[simp] theorem State.setPart_points (s : State) (p : Nat) (x : Partition) : (s.setPart p x).points = s.points := rfl
@[simp] theorem State.setPart_outs (s : State) (p : Nat) (x : Partition) : (s.setPart p x).outs = s.outs := rfl
@[simp] theorem State.setPart_thread (s : State) (p : Nat) (x : Partition) (z : Nat) : (s.setPart p x).thread z = s.thread z := rfl
@[simp] theorem State.setPart_core (s : State) (p : Nat) (x : Partition) (z : Nat) : (s.setPart p x).core z = s.core z := rfl
@[simp] theorem State.setPart_tile (s : State) (p : Nat) (x : Partition) (z : Nat) : (s.setPart p x).tile z = s.tile z := rfl
@[simp] theorem State.setPart_agent (s : State) (p : Nat) (x : Partition) (z : Nat) : (s.setPart p x).agent z = s.agent z := rfl

@[simp] theorem State.setAgent_agenda (s : State) (k : Nat) (x : HomeAgent) : (s.setAgent k x).agenda = s.agenda := rfl
@[simp] theorem State.setAgent_cur (s : State) (k : Nat) (x : HomeAgent) : (s.setAgent k x).cur = s.cur := rfl
@[simp] theorem State.setAgent_freeCtr (s : State) (k : Nat) (x : HomeAgent) : (s.setAgent k x).freeCtr = s.freeCtr := rfl
@[simp] theorem State.setAgent_refTime (s : State) (k : Nat) (x : HomeAgent) : (s.setAgent k x).refTime = s.refTime := rfl
@[simp] theorem State.setAgent_ordCtr (s : State) (k : Nat) (x : HomeAgent) : (s.setAgent k x).ordCtr = s.ordCtr := rfl
@[simp] theorem State.setAgent_powered (s : State) (k : Nat) (x : HomeAgent) : (s.setAgent k x).powered = s.powered := rfl
@[simp] theorem State.setAgent_mem (s : State) (k : Nat) (x : HomeAgent) : (s.setAgent k x).mem = s.mem := rfl
@[simp] theorem State.setAgent_full (s : State) (k : Nat) (x : HomeAgent) : (s.setAgent k x).full = s.full := rfl
@[simp] theorem State.setAgent_poison (s : State) (k : Nat) (x : HomeAgent) : (s.setAgent k x).poison = s.poison := rfl
@[simp] theorem State.setAgent_dirty (s : State) (k : Nat) (x : HomeAgent) : (s.setAgent k x).dirty = s.dirty := rfl
@[simp] theorem State.setAgent_floe0 (s : State) (k : Nat) (x : HomeAgent) : (s.setAgent k x).floe0 = s.floe0 := rfl
@[simp] theorem State.setAgent_firnMem (s : State) (k : Nat) (x : HomeAgent) : (s.setAgent k x).firnMem = s.firnMem := rfl
@[simp] theorem State.setAgent_tagKey (s : State) (k : Nat) (x : HomeAgent) : (s.setAgent k x).tagKey = s.tagKey := rfl
@[simp] theorem State.setAgent_failQ (s : State) (k : Nat) (x : HomeAgent) : (s.setAgent k x).failQ = s.failQ := rfl
@[simp] theorem State.setAgent_aer (s : State) (k : Nat) (x : HomeAgent) : (s.setAgent k x).aer = s.aer := rfl
@[simp] theorem State.setAgent_mapped (s : State) (k : Nat) (x : HomeAgent) : (s.setAgent k x).mapped = s.mapped := rfl
@[simp] theorem State.setAgent_instrs (s : State) (k : Nat) (x : HomeAgent) : (s.setAgent k x).instrs = s.instrs := rfl
@[simp] theorem State.setAgent_threads (s : State) (k : Nat) (x : HomeAgent) : (s.setAgent k x).threads = s.threads := rfl
@[simp] theorem State.setAgent_cores (s : State) (k : Nat) (x : HomeAgent) : (s.setAgent k x).cores = s.cores := rfl
@[simp] theorem State.setAgent_tiles (s : State) (k : Nat) (x : HomeAgent) : (s.setAgent k x).tiles = s.tiles := rfl
@[simp] theorem State.setAgent_regions (s : State) (k : Nat) (x : HomeAgent) : (s.setAgent k x).regions = s.regions := rfl
@[simp] theorem State.setAgent_parts (s : State) (k : Nat) (x : HomeAgent) : (s.setAgent k x).parts = s.parts := rfl
@[simp] theorem State.setAgent_binding (s : State) (k : Nat) (x : HomeAgent) : (s.setAgent k x).binding = s.binding := rfl
@[simp] theorem State.setAgent_unbound (s : State) (k : Nat) (x : HomeAgent) : (s.setAgent k x).unbound = s.unbound := rfl
@[simp] theorem State.setAgent_fenced (s : State) (k : Nat) (x : HomeAgent) : (s.setAgent k x).fenced = s.fenced := rfl
@[simp] theorem State.setAgent_boot (s : State) (k : Nat) (x : HomeAgent) : (s.setAgent k x).boot = s.boot := rfl
@[simp] theorem State.setAgent_devid (s : State) (k : Nat) (x : HomeAgent) : (s.setAgent k x).devid = s.devid := rfl
@[simp] theorem State.setAgent_devValid (s : State) (k : Nat) (x : HomeAgent) : (s.setAgent k x).devValid = s.devValid := rfl
@[simp] theorem State.setAgent_attest (s : State) (k : Nat) (x : HomeAgent) : (s.setAgent k x).attest = s.attest := rfl
@[simp] theorem State.setAgent_flash (s : State) (k : Nat) (x : HomeAgent) : (s.setAgent k x).flash = s.flash := rfl
@[simp] theorem State.setAgent_appends (s : State) (k : Nat) (x : HomeAgent) : (s.setAgent k x).appends = s.appends := rfl
@[simp] theorem State.setAgent_queues (s : State) (k : Nat) (x : HomeAgent) : (s.setAgent k x).queues = s.queues := rfl
@[simp] theorem State.setAgent_devq (s : State) (k : Nat) (x : HomeAgent) : (s.setAgent k x).devq = s.devq := rfl
@[simp] theorem State.setAgent_taken (s : State) (k : Nat) (x : HomeAgent) : (s.setAgent k x).taken = s.taken := rfl
@[simp] theorem State.setAgent_turns (s : State) (k : Nat) (x : HomeAgent) : (s.setAgent k x).turns = s.turns := rfl
@[simp] theorem State.setAgent_replays (s : State) (k : Nat) (x : HomeAgent) : (s.setAgent k x).replays = s.replays := rfl
@[simp] theorem State.setAgent_waves (s : State) (k : Nat) (x : HomeAgent) : (s.setAgent k x).waves = s.waves := rfl
@[simp] theorem State.setAgent_nextId (s : State) (k : Nat) (x : HomeAgent) : (s.setAgent k x).nextId = s.nextId := rfl
@[simp] theorem State.setAgent_vfs (s : State) (k : Nat) (x : HomeAgent) : (s.setAgent k x).vfs = s.vfs := rfl
@[simp] theorem State.setAgent_selfSecs (s : State) (k : Nat) (x : HomeAgent) : (s.setAgent k x).selfSecs = s.selfSecs := rfl
@[simp] theorem State.setAgent_ports (s : State) (k : Nat) (x : HomeAgent) : (s.setAgent k x).ports = s.ports := rfl
@[simp] theorem State.setAgent_net (s : State) (k : Nat) (x : HomeAgent) : (s.setAgent k x).net = s.net := rfl
@[simp] theorem State.setAgent_egressQ (s : State) (k : Nat) (x : HomeAgent) : (s.setAgent k x).egressQ = s.egressQ := rfl
@[simp] theorem State.setAgent_egressed (s : State) (k : Nat) (x : HomeAgent) : (s.setAgent k x).egressed = s.egressed := rfl
@[simp] theorem State.setAgent_assists (s : State) (k : Nat) (x : HomeAgent) : (s.setAgent k x).assists = s.assists := rfl
@[simp] theorem State.setAgent_ring0 (s : State) (k : Nat) (x : HomeAgent) : (s.setAgent k x).ring0 = s.ring0 := rfl
@[simp] theorem State.setAgent_ev0Seq (s : State) (k : Nat) (x : HomeAgent) : (s.setAgent k x).ev0Seq = s.ev0Seq := rfl
@[simp] theorem State.setAgent_firns (s : State) (k : Nat) (x : HomeAgent) : (s.setAgent k x).firns = s.firns := rfl
@[simp] theorem State.setAgent_saves (s : State) (k : Nat) (x : HomeAgent) : (s.setAgent k x).saves = s.saves := rfl
@[simp] theorem State.setAgent_points (s : State) (k : Nat) (x : HomeAgent) : (s.setAgent k x).points = s.points := rfl
@[simp] theorem State.setAgent_outs (s : State) (k : Nat) (x : HomeAgent) : (s.setAgent k x).outs = s.outs := rfl
@[simp] theorem State.setAgent_thread (s : State) (k : Nat) (x : HomeAgent) (z : Nat) : (s.setAgent k x).thread z = s.thread z := rfl
@[simp] theorem State.setAgent_core (s : State) (k : Nat) (x : HomeAgent) (z : Nat) : (s.setAgent k x).core z = s.core z := rfl
@[simp] theorem State.setAgent_tile (s : State) (k : Nat) (x : HomeAgent) (z : Nat) : (s.setAgent k x).tile z = s.tile z := rfl
@[simp] theorem State.setAgent_part (s : State) (k : Nat) (x : HomeAgent) (z : Nat) : (s.setAgent k x).part z = s.part z := rfl

@[simp] theorem State.wx_agenda (s : State) (n : Reg) (v : Word) : (s.wx n v).agenda = s.agenda := rfl
@[simp] theorem State.wx_cur (s : State) (n : Reg) (v : Word) : (s.wx n v).cur = s.cur := rfl
@[simp] theorem State.wx_freeCtr (s : State) (n : Reg) (v : Word) : (s.wx n v).freeCtr = s.freeCtr := rfl
@[simp] theorem State.wx_refTime (s : State) (n : Reg) (v : Word) : (s.wx n v).refTime = s.refTime := rfl
@[simp] theorem State.wx_ordCtr (s : State) (n : Reg) (v : Word) : (s.wx n v).ordCtr = s.ordCtr := rfl
@[simp] theorem State.wx_powered (s : State) (n : Reg) (v : Word) : (s.wx n v).powered = s.powered := rfl
@[simp] theorem State.wx_mem (s : State) (n : Reg) (v : Word) : (s.wx n v).mem = s.mem := rfl
@[simp] theorem State.wx_full (s : State) (n : Reg) (v : Word) : (s.wx n v).full = s.full := rfl
@[simp] theorem State.wx_poison (s : State) (n : Reg) (v : Word) : (s.wx n v).poison = s.poison := rfl
@[simp] theorem State.wx_dirty (s : State) (n : Reg) (v : Word) : (s.wx n v).dirty = s.dirty := rfl
@[simp] theorem State.wx_floe0 (s : State) (n : Reg) (v : Word) : (s.wx n v).floe0 = s.floe0 := rfl
@[simp] theorem State.wx_firnMem (s : State) (n : Reg) (v : Word) : (s.wx n v).firnMem = s.firnMem := rfl
@[simp] theorem State.wx_tagKey (s : State) (n : Reg) (v : Word) : (s.wx n v).tagKey = s.tagKey := rfl
@[simp] theorem State.wx_failQ (s : State) (n : Reg) (v : Word) : (s.wx n v).failQ = s.failQ := rfl
@[simp] theorem State.wx_aer (s : State) (n : Reg) (v : Word) : (s.wx n v).aer = s.aer := rfl
@[simp] theorem State.wx_mapped (s : State) (n : Reg) (v : Word) : (s.wx n v).mapped = s.mapped := rfl
@[simp] theorem State.wx_instrs (s : State) (n : Reg) (v : Word) : (s.wx n v).instrs = s.instrs := rfl
@[simp] theorem State.wx_cores (s : State) (n : Reg) (v : Word) : (s.wx n v).cores = s.cores := rfl
@[simp] theorem State.wx_tiles (s : State) (n : Reg) (v : Word) : (s.wx n v).tiles = s.tiles := rfl
@[simp] theorem State.wx_regions (s : State) (n : Reg) (v : Word) : (s.wx n v).regions = s.regions := rfl
@[simp] theorem State.wx_parts (s : State) (n : Reg) (v : Word) : (s.wx n v).parts = s.parts := rfl
@[simp] theorem State.wx_homes (s : State) (n : Reg) (v : Word) : (s.wx n v).homes = s.homes := rfl
@[simp] theorem State.wx_binding (s : State) (n : Reg) (v : Word) : (s.wx n v).binding = s.binding := rfl
@[simp] theorem State.wx_unbound (s : State) (n : Reg) (v : Word) : (s.wx n v).unbound = s.unbound := rfl
@[simp] theorem State.wx_fenced (s : State) (n : Reg) (v : Word) : (s.wx n v).fenced = s.fenced := rfl
@[simp] theorem State.wx_boot (s : State) (n : Reg) (v : Word) : (s.wx n v).boot = s.boot := rfl
@[simp] theorem State.wx_devid (s : State) (n : Reg) (v : Word) : (s.wx n v).devid = s.devid := rfl
@[simp] theorem State.wx_devValid (s : State) (n : Reg) (v : Word) : (s.wx n v).devValid = s.devValid := rfl
@[simp] theorem State.wx_attest (s : State) (n : Reg) (v : Word) : (s.wx n v).attest = s.attest := rfl
@[simp] theorem State.wx_flash (s : State) (n : Reg) (v : Word) : (s.wx n v).flash = s.flash := rfl
@[simp] theorem State.wx_appends (s : State) (n : Reg) (v : Word) : (s.wx n v).appends = s.appends := rfl
@[simp] theorem State.wx_queues (s : State) (n : Reg) (v : Word) : (s.wx n v).queues = s.queues := rfl
@[simp] theorem State.wx_devq (s : State) (n : Reg) (v : Word) : (s.wx n v).devq = s.devq := rfl
@[simp] theorem State.wx_taken (s : State) (n : Reg) (v : Word) : (s.wx n v).taken = s.taken := rfl
@[simp] theorem State.wx_turns (s : State) (n : Reg) (v : Word) : (s.wx n v).turns = s.turns := rfl
@[simp] theorem State.wx_replays (s : State) (n : Reg) (v : Word) : (s.wx n v).replays = s.replays := rfl
@[simp] theorem State.wx_waves (s : State) (n : Reg) (v : Word) : (s.wx n v).waves = s.waves := rfl
@[simp] theorem State.wx_nextId (s : State) (n : Reg) (v : Word) : (s.wx n v).nextId = s.nextId := rfl
@[simp] theorem State.wx_vfs (s : State) (n : Reg) (v : Word) : (s.wx n v).vfs = s.vfs := rfl
@[simp] theorem State.wx_selfSecs (s : State) (n : Reg) (v : Word) : (s.wx n v).selfSecs = s.selfSecs := rfl
@[simp] theorem State.wx_ports (s : State) (n : Reg) (v : Word) : (s.wx n v).ports = s.ports := rfl
@[simp] theorem State.wx_net (s : State) (n : Reg) (v : Word) : (s.wx n v).net = s.net := rfl
@[simp] theorem State.wx_egressQ (s : State) (n : Reg) (v : Word) : (s.wx n v).egressQ = s.egressQ := rfl
@[simp] theorem State.wx_egressed (s : State) (n : Reg) (v : Word) : (s.wx n v).egressed = s.egressed := rfl
@[simp] theorem State.wx_assists (s : State) (n : Reg) (v : Word) : (s.wx n v).assists = s.assists := rfl
@[simp] theorem State.wx_ring0 (s : State) (n : Reg) (v : Word) : (s.wx n v).ring0 = s.ring0 := rfl
@[simp] theorem State.wx_ev0Seq (s : State) (n : Reg) (v : Word) : (s.wx n v).ev0Seq = s.ev0Seq := rfl
@[simp] theorem State.wx_firns (s : State) (n : Reg) (v : Word) : (s.wx n v).firns = s.firns := rfl
@[simp] theorem State.wx_saves (s : State) (n : Reg) (v : Word) : (s.wx n v).saves = s.saves := rfl
@[simp] theorem State.wx_points (s : State) (n : Reg) (v : Word) : (s.wx n v).points = s.points := rfl
@[simp] theorem State.wx_outs (s : State) (n : Reg) (v : Word) : (s.wx n v).outs = s.outs := rfl
@[simp] theorem State.wx_core (s : State) (n : Reg) (v : Word) (z : Nat) : (s.wx n v).core z = s.core z := rfl
@[simp] theorem State.wx_tile (s : State) (n : Reg) (v : Word) (z : Nat) : (s.wx n v).tile z = s.tile z := rfl
@[simp] theorem State.wx_part (s : State) (n : Reg) (v : Word) (z : Nat) : (s.wx n v).part z = s.part z := rfl
@[simp] theorem State.wx_agent (s : State) (n : Reg) (v : Word) (z : Nat) : (s.wx n v).agent z = s.agent z := rfl

@[simp] theorem State.putMem_agenda (s : State) (k : Nat) (bs : List Byte) : (s.putMem k bs).agenda = s.agenda := rfl
@[simp] theorem State.putMem_cur (s : State) (k : Nat) (bs : List Byte) : (s.putMem k bs).cur = s.cur := rfl
@[simp] theorem State.putMem_freeCtr (s : State) (k : Nat) (bs : List Byte) : (s.putMem k bs).freeCtr = s.freeCtr := rfl
@[simp] theorem State.putMem_refTime (s : State) (k : Nat) (bs : List Byte) : (s.putMem k bs).refTime = s.refTime := rfl
@[simp] theorem State.putMem_ordCtr (s : State) (k : Nat) (bs : List Byte) : (s.putMem k bs).ordCtr = s.ordCtr := rfl
@[simp] theorem State.putMem_powered (s : State) (k : Nat) (bs : List Byte) : (s.putMem k bs).powered = s.powered := rfl
@[simp] theorem State.putMem_full (s : State) (k : Nat) (bs : List Byte) : (s.putMem k bs).full = s.full := rfl
@[simp] theorem State.putMem_instrs (s : State) (k : Nat) (bs : List Byte) : (s.putMem k bs).instrs = s.instrs := rfl
@[simp] theorem State.putMem_threads (s : State) (k : Nat) (bs : List Byte) : (s.putMem k bs).threads = s.threads := rfl
@[simp] theorem State.putMem_cores (s : State) (k : Nat) (bs : List Byte) : (s.putMem k bs).cores = s.cores := rfl
@[simp] theorem State.putMem_tiles (s : State) (k : Nat) (bs : List Byte) : (s.putMem k bs).tiles = s.tiles := rfl
@[simp] theorem State.putMem_regions (s : State) (k : Nat) (bs : List Byte) : (s.putMem k bs).regions = s.regions := rfl
@[simp] theorem State.putMem_parts (s : State) (k : Nat) (bs : List Byte) : (s.putMem k bs).parts = s.parts := rfl
@[simp] theorem State.putMem_homes (s : State) (k : Nat) (bs : List Byte) : (s.putMem k bs).homes = s.homes := rfl
@[simp] theorem State.putMem_binding (s : State) (k : Nat) (bs : List Byte) : (s.putMem k bs).binding = s.binding := rfl
@[simp] theorem State.putMem_unbound (s : State) (k : Nat) (bs : List Byte) : (s.putMem k bs).unbound = s.unbound := rfl
@[simp] theorem State.putMem_fenced (s : State) (k : Nat) (bs : List Byte) : (s.putMem k bs).fenced = s.fenced := rfl
@[simp] theorem State.putMem_boot (s : State) (k : Nat) (bs : List Byte) : (s.putMem k bs).boot = s.boot := rfl
@[simp] theorem State.putMem_devid (s : State) (k : Nat) (bs : List Byte) : (s.putMem k bs).devid = s.devid := rfl
@[simp] theorem State.putMem_devValid (s : State) (k : Nat) (bs : List Byte) : (s.putMem k bs).devValid = s.devValid := rfl
@[simp] theorem State.putMem_attest (s : State) (k : Nat) (bs : List Byte) : (s.putMem k bs).attest = s.attest := rfl
@[simp] theorem State.putMem_flash (s : State) (k : Nat) (bs : List Byte) : (s.putMem k bs).flash = s.flash := rfl
@[simp] theorem State.putMem_appends (s : State) (k : Nat) (bs : List Byte) : (s.putMem k bs).appends = s.appends := rfl
@[simp] theorem State.putMem_queues (s : State) (k : Nat) (bs : List Byte) : (s.putMem k bs).queues = s.queues := rfl
@[simp] theorem State.putMem_devq (s : State) (k : Nat) (bs : List Byte) : (s.putMem k bs).devq = s.devq := rfl
@[simp] theorem State.putMem_taken (s : State) (k : Nat) (bs : List Byte) : (s.putMem k bs).taken = s.taken := rfl
@[simp] theorem State.putMem_turns (s : State) (k : Nat) (bs : List Byte) : (s.putMem k bs).turns = s.turns := rfl
@[simp] theorem State.putMem_replays (s : State) (k : Nat) (bs : List Byte) : (s.putMem k bs).replays = s.replays := rfl
@[simp] theorem State.putMem_waves (s : State) (k : Nat) (bs : List Byte) : (s.putMem k bs).waves = s.waves := rfl
@[simp] theorem State.putMem_nextId (s : State) (k : Nat) (bs : List Byte) : (s.putMem k bs).nextId = s.nextId := rfl
@[simp] theorem State.putMem_vfs (s : State) (k : Nat) (bs : List Byte) : (s.putMem k bs).vfs = s.vfs := rfl
@[simp] theorem State.putMem_selfSecs (s : State) (k : Nat) (bs : List Byte) : (s.putMem k bs).selfSecs = s.selfSecs := rfl
@[simp] theorem State.putMem_ports (s : State) (k : Nat) (bs : List Byte) : (s.putMem k bs).ports = s.ports := rfl
@[simp] theorem State.putMem_net (s : State) (k : Nat) (bs : List Byte) : (s.putMem k bs).net = s.net := rfl
@[simp] theorem State.putMem_egressQ (s : State) (k : Nat) (bs : List Byte) : (s.putMem k bs).egressQ = s.egressQ := rfl
@[simp] theorem State.putMem_egressed (s : State) (k : Nat) (bs : List Byte) : (s.putMem k bs).egressed = s.egressed := rfl
@[simp] theorem State.putMem_assists (s : State) (k : Nat) (bs : List Byte) : (s.putMem k bs).assists = s.assists := rfl
@[simp] theorem State.putMem_ring0 (s : State) (k : Nat) (bs : List Byte) : (s.putMem k bs).ring0 = s.ring0 := rfl
@[simp] theorem State.putMem_ev0Seq (s : State) (k : Nat) (bs : List Byte) : (s.putMem k bs).ev0Seq = s.ev0Seq := rfl
@[simp] theorem State.putMem_firns (s : State) (k : Nat) (bs : List Byte) : (s.putMem k bs).firns = s.firns := rfl
@[simp] theorem State.putMem_saves (s : State) (k : Nat) (bs : List Byte) : (s.putMem k bs).saves = s.saves := rfl
@[simp] theorem State.putMem_points (s : State) (k : Nat) (bs : List Byte) : (s.putMem k bs).points = s.points := rfl
@[simp] theorem State.putMem_outs (s : State) (k : Nat) (bs : List Byte) : (s.putMem k bs).outs = s.outs := rfl
@[simp] theorem State.putMem_thread (s : State) (k : Nat) (bs : List Byte) (z : Nat) : (s.putMem k bs).thread z = s.thread z := rfl
@[simp] theorem State.putMem_core (s : State) (k : Nat) (bs : List Byte) (z : Nat) : (s.putMem k bs).core z = s.core z := rfl
@[simp] theorem State.putMem_tile (s : State) (k : Nat) (bs : List Byte) (z : Nat) : (s.putMem k bs).tile z = s.tile z := rfl
@[simp] theorem State.putMem_part (s : State) (k : Nat) (bs : List Byte) (z : Nat) : (s.putMem k bs).part z = s.part z := rfl
@[simp] theorem State.putMem_agent (s : State) (k : Nat) (bs : List Byte) (z : Nat) : (s.putMem k bs).agent z = s.agent z := rfl

@[simp] theorem State.putNum_agenda (s : State) (k n v : Nat) : (s.putNum k n v).agenda = s.agenda := rfl
@[simp] theorem State.putNum_cur (s : State) (k n v : Nat) : (s.putNum k n v).cur = s.cur := rfl
@[simp] theorem State.putNum_freeCtr (s : State) (k n v : Nat) : (s.putNum k n v).freeCtr = s.freeCtr := rfl
@[simp] theorem State.putNum_refTime (s : State) (k n v : Nat) : (s.putNum k n v).refTime = s.refTime := rfl
@[simp] theorem State.putNum_ordCtr (s : State) (k n v : Nat) : (s.putNum k n v).ordCtr = s.ordCtr := rfl
@[simp] theorem State.putNum_powered (s : State) (k n v : Nat) : (s.putNum k n v).powered = s.powered := rfl
@[simp] theorem State.putNum_full (s : State) (k n v : Nat) : (s.putNum k n v).full = s.full := rfl
@[simp] theorem State.putNum_instrs (s : State) (k n v : Nat) : (s.putNum k n v).instrs = s.instrs := rfl
@[simp] theorem State.putNum_threads (s : State) (k n v : Nat) : (s.putNum k n v).threads = s.threads := rfl
@[simp] theorem State.putNum_cores (s : State) (k n v : Nat) : (s.putNum k n v).cores = s.cores := rfl
@[simp] theorem State.putNum_tiles (s : State) (k n v : Nat) : (s.putNum k n v).tiles = s.tiles := rfl
@[simp] theorem State.putNum_regions (s : State) (k n v : Nat) : (s.putNum k n v).regions = s.regions := rfl
@[simp] theorem State.putNum_parts (s : State) (k n v : Nat) : (s.putNum k n v).parts = s.parts := rfl
@[simp] theorem State.putNum_homes (s : State) (k n v : Nat) : (s.putNum k n v).homes = s.homes := rfl
@[simp] theorem State.putNum_binding (s : State) (k n v : Nat) : (s.putNum k n v).binding = s.binding := rfl
@[simp] theorem State.putNum_unbound (s : State) (k n v : Nat) : (s.putNum k n v).unbound = s.unbound := rfl
@[simp] theorem State.putNum_fenced (s : State) (k n v : Nat) : (s.putNum k n v).fenced = s.fenced := rfl
@[simp] theorem State.putNum_boot (s : State) (k n v : Nat) : (s.putNum k n v).boot = s.boot := rfl
@[simp] theorem State.putNum_devid (s : State) (k n v : Nat) : (s.putNum k n v).devid = s.devid := rfl
@[simp] theorem State.putNum_devValid (s : State) (k n v : Nat) : (s.putNum k n v).devValid = s.devValid := rfl
@[simp] theorem State.putNum_attest (s : State) (k n v : Nat) : (s.putNum k n v).attest = s.attest := rfl
@[simp] theorem State.putNum_flash (s : State) (k n v : Nat) : (s.putNum k n v).flash = s.flash := rfl
@[simp] theorem State.putNum_appends (s : State) (k n v : Nat) : (s.putNum k n v).appends = s.appends := rfl
@[simp] theorem State.putNum_queues (s : State) (k n v : Nat) : (s.putNum k n v).queues = s.queues := rfl
@[simp] theorem State.putNum_devq (s : State) (k n v : Nat) : (s.putNum k n v).devq = s.devq := rfl
@[simp] theorem State.putNum_taken (s : State) (k n v : Nat) : (s.putNum k n v).taken = s.taken := rfl
@[simp] theorem State.putNum_turns (s : State) (k n v : Nat) : (s.putNum k n v).turns = s.turns := rfl
@[simp] theorem State.putNum_replays (s : State) (k n v : Nat) : (s.putNum k n v).replays = s.replays := rfl
@[simp] theorem State.putNum_waves (s : State) (k n v : Nat) : (s.putNum k n v).waves = s.waves := rfl
@[simp] theorem State.putNum_nextId (s : State) (k n v : Nat) : (s.putNum k n v).nextId = s.nextId := rfl
@[simp] theorem State.putNum_vfs (s : State) (k n v : Nat) : (s.putNum k n v).vfs = s.vfs := rfl
@[simp] theorem State.putNum_selfSecs (s : State) (k n v : Nat) : (s.putNum k n v).selfSecs = s.selfSecs := rfl
@[simp] theorem State.putNum_ports (s : State) (k n v : Nat) : (s.putNum k n v).ports = s.ports := rfl
@[simp] theorem State.putNum_net (s : State) (k n v : Nat) : (s.putNum k n v).net = s.net := rfl
@[simp] theorem State.putNum_egressQ (s : State) (k n v : Nat) : (s.putNum k n v).egressQ = s.egressQ := rfl
@[simp] theorem State.putNum_egressed (s : State) (k n v : Nat) : (s.putNum k n v).egressed = s.egressed := rfl
@[simp] theorem State.putNum_assists (s : State) (k n v : Nat) : (s.putNum k n v).assists = s.assists := rfl
@[simp] theorem State.putNum_ring0 (s : State) (k n v : Nat) : (s.putNum k n v).ring0 = s.ring0 := rfl
@[simp] theorem State.putNum_ev0Seq (s : State) (k n v : Nat) : (s.putNum k n v).ev0Seq = s.ev0Seq := rfl
@[simp] theorem State.putNum_firns (s : State) (k n v : Nat) : (s.putNum k n v).firns = s.firns := rfl
@[simp] theorem State.putNum_saves (s : State) (k n v : Nat) : (s.putNum k n v).saves = s.saves := rfl
@[simp] theorem State.putNum_points (s : State) (k n v : Nat) : (s.putNum k n v).points = s.points := rfl
@[simp] theorem State.putNum_outs (s : State) (k n v : Nat) : (s.putNum k n v).outs = s.outs := rfl
@[simp] theorem State.putNum_thread (s : State) (k n v : Nat) (z : Nat) : (s.putNum k n v).thread z = s.thread z := rfl
@[simp] theorem State.putNum_core (s : State) (k n v : Nat) (z : Nat) : (s.putNum k n v).core z = s.core z := rfl
@[simp] theorem State.putNum_tile (s : State) (k n v : Nat) (z : Nat) : (s.putNum k n v).tile z = s.tile z := rfl
@[simp] theorem State.putNum_part (s : State) (k n v : Nat) (z : Nat) : (s.putNum k n v).part z = s.part z := rfl
@[simp] theorem State.putNum_agent (s : State) (k n v : Nat) (z : Nat) : (s.putNum k n v).agent z = s.agent z := rfl

@[simp] theorem State.setFull_agenda (s : State) (k n : Nat) : (s.setFull k n).agenda = s.agenda := rfl
@[simp] theorem State.setFull_cur (s : State) (k n : Nat) : (s.setFull k n).cur = s.cur := rfl
@[simp] theorem State.setFull_freeCtr (s : State) (k n : Nat) : (s.setFull k n).freeCtr = s.freeCtr := rfl
@[simp] theorem State.setFull_refTime (s : State) (k n : Nat) : (s.setFull k n).refTime = s.refTime := rfl
@[simp] theorem State.setFull_ordCtr (s : State) (k n : Nat) : (s.setFull k n).ordCtr = s.ordCtr := rfl
@[simp] theorem State.setFull_powered (s : State) (k n : Nat) : (s.setFull k n).powered = s.powered := rfl
@[simp] theorem State.setFull_mem (s : State) (k n : Nat) : (s.setFull k n).mem = s.mem := rfl
@[simp] theorem State.setFull_poison (s : State) (k n : Nat) : (s.setFull k n).poison = s.poison := rfl
@[simp] theorem State.setFull_dirty (s : State) (k n : Nat) : (s.setFull k n).dirty = s.dirty := rfl
@[simp] theorem State.setFull_floe0 (s : State) (k n : Nat) : (s.setFull k n).floe0 = s.floe0 := rfl
@[simp] theorem State.setFull_firnMem (s : State) (k n : Nat) : (s.setFull k n).firnMem = s.firnMem := rfl
@[simp] theorem State.setFull_tagKey (s : State) (k n : Nat) : (s.setFull k n).tagKey = s.tagKey := rfl
@[simp] theorem State.setFull_failQ (s : State) (k n : Nat) : (s.setFull k n).failQ = s.failQ := rfl
@[simp] theorem State.setFull_aer (s : State) (k n : Nat) : (s.setFull k n).aer = s.aer := rfl
@[simp] theorem State.setFull_mapped (s : State) (k n : Nat) : (s.setFull k n).mapped = s.mapped := rfl
@[simp] theorem State.setFull_instrs (s : State) (k n : Nat) : (s.setFull k n).instrs = s.instrs := rfl
@[simp] theorem State.setFull_threads (s : State) (k n : Nat) : (s.setFull k n).threads = s.threads := rfl
@[simp] theorem State.setFull_cores (s : State) (k n : Nat) : (s.setFull k n).cores = s.cores := rfl
@[simp] theorem State.setFull_tiles (s : State) (k n : Nat) : (s.setFull k n).tiles = s.tiles := rfl
@[simp] theorem State.setFull_regions (s : State) (k n : Nat) : (s.setFull k n).regions = s.regions := rfl
@[simp] theorem State.setFull_parts (s : State) (k n : Nat) : (s.setFull k n).parts = s.parts := rfl
@[simp] theorem State.setFull_homes (s : State) (k n : Nat) : (s.setFull k n).homes = s.homes := rfl
@[simp] theorem State.setFull_binding (s : State) (k n : Nat) : (s.setFull k n).binding = s.binding := rfl
@[simp] theorem State.setFull_unbound (s : State) (k n : Nat) : (s.setFull k n).unbound = s.unbound := rfl
@[simp] theorem State.setFull_fenced (s : State) (k n : Nat) : (s.setFull k n).fenced = s.fenced := rfl
@[simp] theorem State.setFull_boot (s : State) (k n : Nat) : (s.setFull k n).boot = s.boot := rfl
@[simp] theorem State.setFull_devid (s : State) (k n : Nat) : (s.setFull k n).devid = s.devid := rfl
@[simp] theorem State.setFull_devValid (s : State) (k n : Nat) : (s.setFull k n).devValid = s.devValid := rfl
@[simp] theorem State.setFull_attest (s : State) (k n : Nat) : (s.setFull k n).attest = s.attest := rfl
@[simp] theorem State.setFull_flash (s : State) (k n : Nat) : (s.setFull k n).flash = s.flash := rfl
@[simp] theorem State.setFull_appends (s : State) (k n : Nat) : (s.setFull k n).appends = s.appends := rfl
@[simp] theorem State.setFull_queues (s : State) (k n : Nat) : (s.setFull k n).queues = s.queues := rfl
@[simp] theorem State.setFull_devq (s : State) (k n : Nat) : (s.setFull k n).devq = s.devq := rfl
@[simp] theorem State.setFull_taken (s : State) (k n : Nat) : (s.setFull k n).taken = s.taken := rfl
@[simp] theorem State.setFull_turns (s : State) (k n : Nat) : (s.setFull k n).turns = s.turns := rfl
@[simp] theorem State.setFull_replays (s : State) (k n : Nat) : (s.setFull k n).replays = s.replays := rfl
@[simp] theorem State.setFull_waves (s : State) (k n : Nat) : (s.setFull k n).waves = s.waves := rfl
@[simp] theorem State.setFull_nextId (s : State) (k n : Nat) : (s.setFull k n).nextId = s.nextId := rfl
@[simp] theorem State.setFull_vfs (s : State) (k n : Nat) : (s.setFull k n).vfs = s.vfs := rfl
@[simp] theorem State.setFull_selfSecs (s : State) (k n : Nat) : (s.setFull k n).selfSecs = s.selfSecs := rfl
@[simp] theorem State.setFull_ports (s : State) (k n : Nat) : (s.setFull k n).ports = s.ports := rfl
@[simp] theorem State.setFull_net (s : State) (k n : Nat) : (s.setFull k n).net = s.net := rfl
@[simp] theorem State.setFull_egressQ (s : State) (k n : Nat) : (s.setFull k n).egressQ = s.egressQ := rfl
@[simp] theorem State.setFull_egressed (s : State) (k n : Nat) : (s.setFull k n).egressed = s.egressed := rfl
@[simp] theorem State.setFull_assists (s : State) (k n : Nat) : (s.setFull k n).assists = s.assists := rfl
@[simp] theorem State.setFull_ring0 (s : State) (k n : Nat) : (s.setFull k n).ring0 = s.ring0 := rfl
@[simp] theorem State.setFull_ev0Seq (s : State) (k n : Nat) : (s.setFull k n).ev0Seq = s.ev0Seq := rfl
@[simp] theorem State.setFull_firns (s : State) (k n : Nat) : (s.setFull k n).firns = s.firns := rfl
@[simp] theorem State.setFull_saves (s : State) (k n : Nat) : (s.setFull k n).saves = s.saves := rfl
@[simp] theorem State.setFull_points (s : State) (k n : Nat) : (s.setFull k n).points = s.points := rfl
@[simp] theorem State.setFull_outs (s : State) (k n : Nat) : (s.setFull k n).outs = s.outs := rfl
@[simp] theorem State.setFull_thread (s : State) (k n : Nat) (z : Nat) : (s.setFull k n).thread z = s.thread z := rfl
@[simp] theorem State.setFull_core (s : State) (k n : Nat) (z : Nat) : (s.setFull k n).core z = s.core z := rfl
@[simp] theorem State.setFull_tile (s : State) (k n : Nat) (z : Nat) : (s.setFull k n).tile z = s.tile z := rfl
@[simp] theorem State.setFull_part (s : State) (k n : Nat) (z : Nat) : (s.setFull k n).part z = s.part z := rfl
@[simp] theorem State.setFull_agent (s : State) (k n : Nat) (z : Nat) : (s.setFull k n).agent z = s.agent z := rfl

@[simp] theorem State.setEmpty_agenda (s : State) (k n : Nat) : (s.setEmpty k n).agenda = s.agenda := rfl
@[simp] theorem State.setEmpty_cur (s : State) (k n : Nat) : (s.setEmpty k n).cur = s.cur := rfl
@[simp] theorem State.setEmpty_freeCtr (s : State) (k n : Nat) : (s.setEmpty k n).freeCtr = s.freeCtr := rfl
@[simp] theorem State.setEmpty_refTime (s : State) (k n : Nat) : (s.setEmpty k n).refTime = s.refTime := rfl
@[simp] theorem State.setEmpty_ordCtr (s : State) (k n : Nat) : (s.setEmpty k n).ordCtr = s.ordCtr := rfl
@[simp] theorem State.setEmpty_powered (s : State) (k n : Nat) : (s.setEmpty k n).powered = s.powered := rfl
@[simp] theorem State.setEmpty_mem (s : State) (k n : Nat) : (s.setEmpty k n).mem = s.mem := rfl
@[simp] theorem State.setEmpty_poison (s : State) (k n : Nat) : (s.setEmpty k n).poison = s.poison := rfl
@[simp] theorem State.setEmpty_dirty (s : State) (k n : Nat) : (s.setEmpty k n).dirty = s.dirty := rfl
@[simp] theorem State.setEmpty_floe0 (s : State) (k n : Nat) : (s.setEmpty k n).floe0 = s.floe0 := rfl
@[simp] theorem State.setEmpty_firnMem (s : State) (k n : Nat) : (s.setEmpty k n).firnMem = s.firnMem := rfl
@[simp] theorem State.setEmpty_tagKey (s : State) (k n : Nat) : (s.setEmpty k n).tagKey = s.tagKey := rfl
@[simp] theorem State.setEmpty_failQ (s : State) (k n : Nat) : (s.setEmpty k n).failQ = s.failQ := rfl
@[simp] theorem State.setEmpty_aer (s : State) (k n : Nat) : (s.setEmpty k n).aer = s.aer := rfl
@[simp] theorem State.setEmpty_mapped (s : State) (k n : Nat) : (s.setEmpty k n).mapped = s.mapped := rfl
@[simp] theorem State.setEmpty_instrs (s : State) (k n : Nat) : (s.setEmpty k n).instrs = s.instrs := rfl
@[simp] theorem State.setEmpty_threads (s : State) (k n : Nat) : (s.setEmpty k n).threads = s.threads := rfl
@[simp] theorem State.setEmpty_cores (s : State) (k n : Nat) : (s.setEmpty k n).cores = s.cores := rfl
@[simp] theorem State.setEmpty_tiles (s : State) (k n : Nat) : (s.setEmpty k n).tiles = s.tiles := rfl
@[simp] theorem State.setEmpty_regions (s : State) (k n : Nat) : (s.setEmpty k n).regions = s.regions := rfl
@[simp] theorem State.setEmpty_parts (s : State) (k n : Nat) : (s.setEmpty k n).parts = s.parts := rfl
@[simp] theorem State.setEmpty_homes (s : State) (k n : Nat) : (s.setEmpty k n).homes = s.homes := rfl
@[simp] theorem State.setEmpty_binding (s : State) (k n : Nat) : (s.setEmpty k n).binding = s.binding := rfl
@[simp] theorem State.setEmpty_unbound (s : State) (k n : Nat) : (s.setEmpty k n).unbound = s.unbound := rfl
@[simp] theorem State.setEmpty_fenced (s : State) (k n : Nat) : (s.setEmpty k n).fenced = s.fenced := rfl
@[simp] theorem State.setEmpty_boot (s : State) (k n : Nat) : (s.setEmpty k n).boot = s.boot := rfl
@[simp] theorem State.setEmpty_devid (s : State) (k n : Nat) : (s.setEmpty k n).devid = s.devid := rfl
@[simp] theorem State.setEmpty_devValid (s : State) (k n : Nat) : (s.setEmpty k n).devValid = s.devValid := rfl
@[simp] theorem State.setEmpty_attest (s : State) (k n : Nat) : (s.setEmpty k n).attest = s.attest := rfl
@[simp] theorem State.setEmpty_flash (s : State) (k n : Nat) : (s.setEmpty k n).flash = s.flash := rfl
@[simp] theorem State.setEmpty_appends (s : State) (k n : Nat) : (s.setEmpty k n).appends = s.appends := rfl
@[simp] theorem State.setEmpty_queues (s : State) (k n : Nat) : (s.setEmpty k n).queues = s.queues := rfl
@[simp] theorem State.setEmpty_devq (s : State) (k n : Nat) : (s.setEmpty k n).devq = s.devq := rfl
@[simp] theorem State.setEmpty_taken (s : State) (k n : Nat) : (s.setEmpty k n).taken = s.taken := rfl
@[simp] theorem State.setEmpty_turns (s : State) (k n : Nat) : (s.setEmpty k n).turns = s.turns := rfl
@[simp] theorem State.setEmpty_replays (s : State) (k n : Nat) : (s.setEmpty k n).replays = s.replays := rfl
@[simp] theorem State.setEmpty_waves (s : State) (k n : Nat) : (s.setEmpty k n).waves = s.waves := rfl
@[simp] theorem State.setEmpty_nextId (s : State) (k n : Nat) : (s.setEmpty k n).nextId = s.nextId := rfl
@[simp] theorem State.setEmpty_vfs (s : State) (k n : Nat) : (s.setEmpty k n).vfs = s.vfs := rfl
@[simp] theorem State.setEmpty_selfSecs (s : State) (k n : Nat) : (s.setEmpty k n).selfSecs = s.selfSecs := rfl
@[simp] theorem State.setEmpty_ports (s : State) (k n : Nat) : (s.setEmpty k n).ports = s.ports := rfl
@[simp] theorem State.setEmpty_net (s : State) (k n : Nat) : (s.setEmpty k n).net = s.net := rfl
@[simp] theorem State.setEmpty_egressQ (s : State) (k n : Nat) : (s.setEmpty k n).egressQ = s.egressQ := rfl
@[simp] theorem State.setEmpty_egressed (s : State) (k n : Nat) : (s.setEmpty k n).egressed = s.egressed := rfl
@[simp] theorem State.setEmpty_assists (s : State) (k n : Nat) : (s.setEmpty k n).assists = s.assists := rfl
@[simp] theorem State.setEmpty_ring0 (s : State) (k n : Nat) : (s.setEmpty k n).ring0 = s.ring0 := rfl
@[simp] theorem State.setEmpty_ev0Seq (s : State) (k n : Nat) : (s.setEmpty k n).ev0Seq = s.ev0Seq := rfl
@[simp] theorem State.setEmpty_firns (s : State) (k n : Nat) : (s.setEmpty k n).firns = s.firns := rfl
@[simp] theorem State.setEmpty_saves (s : State) (k n : Nat) : (s.setEmpty k n).saves = s.saves := rfl
@[simp] theorem State.setEmpty_points (s : State) (k n : Nat) : (s.setEmpty k n).points = s.points := rfl
@[simp] theorem State.setEmpty_outs (s : State) (k n : Nat) : (s.setEmpty k n).outs = s.outs := rfl
@[simp] theorem State.setEmpty_thread (s : State) (k n : Nat) (z : Nat) : (s.setEmpty k n).thread z = s.thread z := rfl
@[simp] theorem State.setEmpty_core (s : State) (k n : Nat) (z : Nat) : (s.setEmpty k n).core z = s.core z := rfl
@[simp] theorem State.setEmpty_tile (s : State) (k n : Nat) (z : Nat) : (s.setEmpty k n).tile z = s.tile z := rfl
@[simp] theorem State.setEmpty_part (s : State) (k n : Nat) (z : Nat) : (s.setEmpty k n).part z = s.part z := rfl
@[simp] theorem State.setEmpty_agent (s : State) (k n : Nat) (z : Nat) : (s.setEmpty k n).agent z = s.agent z := rfl

@[simp] theorem State.putEngine_agenda (s : State) (k : Nat) (bs : List Byte) : (s.putEngine k bs).agenda = s.agenda := rfl
@[simp] theorem State.putEngine_cur (s : State) (k : Nat) (bs : List Byte) : (s.putEngine k bs).cur = s.cur := rfl
@[simp] theorem State.putEngine_freeCtr (s : State) (k : Nat) (bs : List Byte) : (s.putEngine k bs).freeCtr = s.freeCtr := rfl
@[simp] theorem State.putEngine_refTime (s : State) (k : Nat) (bs : List Byte) : (s.putEngine k bs).refTime = s.refTime := rfl
@[simp] theorem State.putEngine_ordCtr (s : State) (k : Nat) (bs : List Byte) : (s.putEngine k bs).ordCtr = s.ordCtr := rfl
@[simp] theorem State.putEngine_powered (s : State) (k : Nat) (bs : List Byte) : (s.putEngine k bs).powered = s.powered := rfl
@[simp] theorem State.putEngine_instrs (s : State) (k : Nat) (bs : List Byte) : (s.putEngine k bs).instrs = s.instrs := rfl
@[simp] theorem State.putEngine_threads (s : State) (k : Nat) (bs : List Byte) : (s.putEngine k bs).threads = s.threads := rfl
@[simp] theorem State.putEngine_cores (s : State) (k : Nat) (bs : List Byte) : (s.putEngine k bs).cores = s.cores := rfl
@[simp] theorem State.putEngine_tiles (s : State) (k : Nat) (bs : List Byte) : (s.putEngine k bs).tiles = s.tiles := rfl
@[simp] theorem State.putEngine_regions (s : State) (k : Nat) (bs : List Byte) : (s.putEngine k bs).regions = s.regions := rfl
@[simp] theorem State.putEngine_parts (s : State) (k : Nat) (bs : List Byte) : (s.putEngine k bs).parts = s.parts := rfl
@[simp] theorem State.putEngine_homes (s : State) (k : Nat) (bs : List Byte) : (s.putEngine k bs).homes = s.homes := rfl
@[simp] theorem State.putEngine_binding (s : State) (k : Nat) (bs : List Byte) : (s.putEngine k bs).binding = s.binding := rfl
@[simp] theorem State.putEngine_unbound (s : State) (k : Nat) (bs : List Byte) : (s.putEngine k bs).unbound = s.unbound := rfl
@[simp] theorem State.putEngine_fenced (s : State) (k : Nat) (bs : List Byte) : (s.putEngine k bs).fenced = s.fenced := rfl
@[simp] theorem State.putEngine_boot (s : State) (k : Nat) (bs : List Byte) : (s.putEngine k bs).boot = s.boot := rfl
@[simp] theorem State.putEngine_devid (s : State) (k : Nat) (bs : List Byte) : (s.putEngine k bs).devid = s.devid := rfl
@[simp] theorem State.putEngine_devValid (s : State) (k : Nat) (bs : List Byte) : (s.putEngine k bs).devValid = s.devValid := rfl
@[simp] theorem State.putEngine_attest (s : State) (k : Nat) (bs : List Byte) : (s.putEngine k bs).attest = s.attest := rfl
@[simp] theorem State.putEngine_flash (s : State) (k : Nat) (bs : List Byte) : (s.putEngine k bs).flash = s.flash := rfl
@[simp] theorem State.putEngine_appends (s : State) (k : Nat) (bs : List Byte) : (s.putEngine k bs).appends = s.appends := rfl
@[simp] theorem State.putEngine_queues (s : State) (k : Nat) (bs : List Byte) : (s.putEngine k bs).queues = s.queues := rfl
@[simp] theorem State.putEngine_devq (s : State) (k : Nat) (bs : List Byte) : (s.putEngine k bs).devq = s.devq := rfl
@[simp] theorem State.putEngine_taken (s : State) (k : Nat) (bs : List Byte) : (s.putEngine k bs).taken = s.taken := rfl
@[simp] theorem State.putEngine_turns (s : State) (k : Nat) (bs : List Byte) : (s.putEngine k bs).turns = s.turns := rfl
@[simp] theorem State.putEngine_replays (s : State) (k : Nat) (bs : List Byte) : (s.putEngine k bs).replays = s.replays := rfl
@[simp] theorem State.putEngine_waves (s : State) (k : Nat) (bs : List Byte) : (s.putEngine k bs).waves = s.waves := rfl
@[simp] theorem State.putEngine_nextId (s : State) (k : Nat) (bs : List Byte) : (s.putEngine k bs).nextId = s.nextId := rfl
@[simp] theorem State.putEngine_vfs (s : State) (k : Nat) (bs : List Byte) : (s.putEngine k bs).vfs = s.vfs := rfl
@[simp] theorem State.putEngine_selfSecs (s : State) (k : Nat) (bs : List Byte) : (s.putEngine k bs).selfSecs = s.selfSecs := rfl
@[simp] theorem State.putEngine_ports (s : State) (k : Nat) (bs : List Byte) : (s.putEngine k bs).ports = s.ports := rfl
@[simp] theorem State.putEngine_net (s : State) (k : Nat) (bs : List Byte) : (s.putEngine k bs).net = s.net := rfl
@[simp] theorem State.putEngine_egressQ (s : State) (k : Nat) (bs : List Byte) : (s.putEngine k bs).egressQ = s.egressQ := rfl
@[simp] theorem State.putEngine_egressed (s : State) (k : Nat) (bs : List Byte) : (s.putEngine k bs).egressed = s.egressed := rfl
@[simp] theorem State.putEngine_assists (s : State) (k : Nat) (bs : List Byte) : (s.putEngine k bs).assists = s.assists := rfl
@[simp] theorem State.putEngine_ring0 (s : State) (k : Nat) (bs : List Byte) : (s.putEngine k bs).ring0 = s.ring0 := rfl
@[simp] theorem State.putEngine_ev0Seq (s : State) (k : Nat) (bs : List Byte) : (s.putEngine k bs).ev0Seq = s.ev0Seq := rfl
@[simp] theorem State.putEngine_firns (s : State) (k : Nat) (bs : List Byte) : (s.putEngine k bs).firns = s.firns := rfl
@[simp] theorem State.putEngine_saves (s : State) (k : Nat) (bs : List Byte) : (s.putEngine k bs).saves = s.saves := rfl
@[simp] theorem State.putEngine_points (s : State) (k : Nat) (bs : List Byte) : (s.putEngine k bs).points = s.points := rfl
@[simp] theorem State.putEngine_outs (s : State) (k : Nat) (bs : List Byte) : (s.putEngine k bs).outs = s.outs := rfl
@[simp] theorem State.putEngine_thread (s : State) (k : Nat) (bs : List Byte) (z : Nat) : (s.putEngine k bs).thread z = s.thread z := rfl
@[simp] theorem State.putEngine_core (s : State) (k : Nat) (bs : List Byte) (z : Nat) : (s.putEngine k bs).core z = s.core z := rfl
@[simp] theorem State.putEngine_tile (s : State) (k : Nat) (bs : List Byte) (z : Nat) : (s.putEngine k bs).tile z = s.tile z := rfl
@[simp] theorem State.putEngine_part (s : State) (k : Nat) (bs : List Byte) (z : Nat) : (s.putEngine k bs).part z = s.part z := rfl
@[simp] theorem State.putEngine_agent (s : State) (k : Nat) (bs : List Byte) (z : Nat) : (s.putEngine k bs).agent z = s.agent z := rfl

/-- Counting an item changes a tile or a home agent alone. -/
theorem State.countSent_eq (s : State) (i j n : Nat) :
    ∃ h t, s.countSent i j n = { s with homes := h, tiles := t } := by
  unfold State.countSent
  split
  · exact ⟨_, s.tiles, rfl⟩
  · split
    · exact ⟨s.homes, _, rfl⟩
    · exact ⟨s.homes, s.tiles, rfl⟩

@[simp] theorem State.countSent_agenda (s : State) (i j n : Nat) : (s.countSent i j n).agenda = s.agenda := by
  obtain ⟨_, _, e⟩ := s.countSent_eq i j n; rw [e]
@[simp] theorem State.countSent_cur (s : State) (i j n : Nat) : (s.countSent i j n).cur = s.cur := by
  obtain ⟨_, _, e⟩ := s.countSent_eq i j n; rw [e]
@[simp] theorem State.countSent_freeCtr (s : State) (i j n : Nat) : (s.countSent i j n).freeCtr = s.freeCtr := by
  obtain ⟨_, _, e⟩ := s.countSent_eq i j n; rw [e]
@[simp] theorem State.countSent_refTime (s : State) (i j n : Nat) : (s.countSent i j n).refTime = s.refTime := by
  obtain ⟨_, _, e⟩ := s.countSent_eq i j n; rw [e]
@[simp] theorem State.countSent_ordCtr (s : State) (i j n : Nat) : (s.countSent i j n).ordCtr = s.ordCtr := by
  obtain ⟨_, _, e⟩ := s.countSent_eq i j n; rw [e]
@[simp] theorem State.countSent_powered (s : State) (i j n : Nat) : (s.countSent i j n).powered = s.powered := by
  obtain ⟨_, _, e⟩ := s.countSent_eq i j n; rw [e]
@[simp] theorem State.countSent_mem (s : State) (i j n : Nat) : (s.countSent i j n).mem = s.mem := by
  obtain ⟨_, _, e⟩ := s.countSent_eq i j n; rw [e]
@[simp] theorem State.countSent_full (s : State) (i j n : Nat) : (s.countSent i j n).full = s.full := by
  obtain ⟨_, _, e⟩ := s.countSent_eq i j n; rw [e]
@[simp] theorem State.countSent_poison (s : State) (i j n : Nat) : (s.countSent i j n).poison = s.poison := by
  obtain ⟨_, _, e⟩ := s.countSent_eq i j n; rw [e]
@[simp] theorem State.countSent_dirty (s : State) (i j n : Nat) : (s.countSent i j n).dirty = s.dirty := by
  obtain ⟨_, _, e⟩ := s.countSent_eq i j n; rw [e]
@[simp] theorem State.countSent_floe0 (s : State) (i j n : Nat) : (s.countSent i j n).floe0 = s.floe0 := by
  obtain ⟨_, _, e⟩ := s.countSent_eq i j n; rw [e]
@[simp] theorem State.countSent_firnMem (s : State) (i j n : Nat) : (s.countSent i j n).firnMem = s.firnMem := by
  obtain ⟨_, _, e⟩ := s.countSent_eq i j n; rw [e]
@[simp] theorem State.countSent_tagKey (s : State) (i j n : Nat) : (s.countSent i j n).tagKey = s.tagKey := by
  obtain ⟨_, _, e⟩ := s.countSent_eq i j n; rw [e]
@[simp] theorem State.countSent_failQ (s : State) (i j n : Nat) : (s.countSent i j n).failQ = s.failQ := by
  obtain ⟨_, _, e⟩ := s.countSent_eq i j n; rw [e]
@[simp] theorem State.countSent_aer (s : State) (i j n : Nat) : (s.countSent i j n).aer = s.aer := by
  obtain ⟨_, _, e⟩ := s.countSent_eq i j n; rw [e]
@[simp] theorem State.countSent_mapped (s : State) (i j n : Nat) : (s.countSent i j n).mapped = s.mapped := by
  obtain ⟨_, _, e⟩ := s.countSent_eq i j n; rw [e]
@[simp] theorem State.countSent_instrs (s : State) (i j n : Nat) : (s.countSent i j n).instrs = s.instrs := by
  obtain ⟨_, _, e⟩ := s.countSent_eq i j n; rw [e]
@[simp] theorem State.countSent_threads (s : State) (i j n : Nat) : (s.countSent i j n).threads = s.threads := by
  obtain ⟨_, _, e⟩ := s.countSent_eq i j n; rw [e]
@[simp] theorem State.countSent_cores (s : State) (i j n : Nat) : (s.countSent i j n).cores = s.cores := by
  obtain ⟨_, _, e⟩ := s.countSent_eq i j n; rw [e]
@[simp] theorem State.countSent_regions (s : State) (i j n : Nat) : (s.countSent i j n).regions = s.regions := by
  obtain ⟨_, _, e⟩ := s.countSent_eq i j n; rw [e]
@[simp] theorem State.countSent_parts (s : State) (i j n : Nat) : (s.countSent i j n).parts = s.parts := by
  obtain ⟨_, _, e⟩ := s.countSent_eq i j n; rw [e]
@[simp] theorem State.countSent_binding (s : State) (i j n : Nat) : (s.countSent i j n).binding = s.binding := by
  obtain ⟨_, _, e⟩ := s.countSent_eq i j n; rw [e]
@[simp] theorem State.countSent_unbound (s : State) (i j n : Nat) : (s.countSent i j n).unbound = s.unbound := by
  obtain ⟨_, _, e⟩ := s.countSent_eq i j n; rw [e]
@[simp] theorem State.countSent_fenced (s : State) (i j n : Nat) : (s.countSent i j n).fenced = s.fenced := by
  obtain ⟨_, _, e⟩ := s.countSent_eq i j n; rw [e]
@[simp] theorem State.countSent_boot (s : State) (i j n : Nat) : (s.countSent i j n).boot = s.boot := by
  obtain ⟨_, _, e⟩ := s.countSent_eq i j n; rw [e]
@[simp] theorem State.countSent_devid (s : State) (i j n : Nat) : (s.countSent i j n).devid = s.devid := by
  obtain ⟨_, _, e⟩ := s.countSent_eq i j n; rw [e]
@[simp] theorem State.countSent_devValid (s : State) (i j n : Nat) : (s.countSent i j n).devValid = s.devValid := by
  obtain ⟨_, _, e⟩ := s.countSent_eq i j n; rw [e]
@[simp] theorem State.countSent_attest (s : State) (i j n : Nat) : (s.countSent i j n).attest = s.attest := by
  obtain ⟨_, _, e⟩ := s.countSent_eq i j n; rw [e]
@[simp] theorem State.countSent_flash (s : State) (i j n : Nat) : (s.countSent i j n).flash = s.flash := by
  obtain ⟨_, _, e⟩ := s.countSent_eq i j n; rw [e]
@[simp] theorem State.countSent_appends (s : State) (i j n : Nat) : (s.countSent i j n).appends = s.appends := by
  obtain ⟨_, _, e⟩ := s.countSent_eq i j n; rw [e]
@[simp] theorem State.countSent_queues (s : State) (i j n : Nat) : (s.countSent i j n).queues = s.queues := by
  obtain ⟨_, _, e⟩ := s.countSent_eq i j n; rw [e]
@[simp] theorem State.countSent_devq (s : State) (i j n : Nat) : (s.countSent i j n).devq = s.devq := by
  obtain ⟨_, _, e⟩ := s.countSent_eq i j n; rw [e]
@[simp] theorem State.countSent_taken (s : State) (i j n : Nat) : (s.countSent i j n).taken = s.taken := by
  obtain ⟨_, _, e⟩ := s.countSent_eq i j n; rw [e]
@[simp] theorem State.countSent_turns (s : State) (i j n : Nat) : (s.countSent i j n).turns = s.turns := by
  obtain ⟨_, _, e⟩ := s.countSent_eq i j n; rw [e]
@[simp] theorem State.countSent_replays (s : State) (i j n : Nat) : (s.countSent i j n).replays = s.replays := by
  obtain ⟨_, _, e⟩ := s.countSent_eq i j n; rw [e]
@[simp] theorem State.countSent_waves (s : State) (i j n : Nat) : (s.countSent i j n).waves = s.waves := by
  obtain ⟨_, _, e⟩ := s.countSent_eq i j n; rw [e]
@[simp] theorem State.countSent_nextId (s : State) (i j n : Nat) : (s.countSent i j n).nextId = s.nextId := by
  obtain ⟨_, _, e⟩ := s.countSent_eq i j n; rw [e]
@[simp] theorem State.countSent_vfs (s : State) (i j n : Nat) : (s.countSent i j n).vfs = s.vfs := by
  obtain ⟨_, _, e⟩ := s.countSent_eq i j n; rw [e]
@[simp] theorem State.countSent_selfSecs (s : State) (i j n : Nat) : (s.countSent i j n).selfSecs = s.selfSecs := by
  obtain ⟨_, _, e⟩ := s.countSent_eq i j n; rw [e]
@[simp] theorem State.countSent_ports (s : State) (i j n : Nat) : (s.countSent i j n).ports = s.ports := by
  obtain ⟨_, _, e⟩ := s.countSent_eq i j n; rw [e]
@[simp] theorem State.countSent_net (s : State) (i j n : Nat) : (s.countSent i j n).net = s.net := by
  obtain ⟨_, _, e⟩ := s.countSent_eq i j n; rw [e]
@[simp] theorem State.countSent_egressQ (s : State) (i j n : Nat) : (s.countSent i j n).egressQ = s.egressQ := by
  obtain ⟨_, _, e⟩ := s.countSent_eq i j n; rw [e]
@[simp] theorem State.countSent_egressed (s : State) (i j n : Nat) : (s.countSent i j n).egressed = s.egressed := by
  obtain ⟨_, _, e⟩ := s.countSent_eq i j n; rw [e]
@[simp] theorem State.countSent_assists (s : State) (i j n : Nat) : (s.countSent i j n).assists = s.assists := by
  obtain ⟨_, _, e⟩ := s.countSent_eq i j n; rw [e]
@[simp] theorem State.countSent_ring0 (s : State) (i j n : Nat) : (s.countSent i j n).ring0 = s.ring0 := by
  obtain ⟨_, _, e⟩ := s.countSent_eq i j n; rw [e]
@[simp] theorem State.countSent_ev0Seq (s : State) (i j n : Nat) : (s.countSent i j n).ev0Seq = s.ev0Seq := by
  obtain ⟨_, _, e⟩ := s.countSent_eq i j n; rw [e]
@[simp] theorem State.countSent_firns (s : State) (i j n : Nat) : (s.countSent i j n).firns = s.firns := by
  obtain ⟨_, _, e⟩ := s.countSent_eq i j n; rw [e]
@[simp] theorem State.countSent_saves (s : State) (i j n : Nat) : (s.countSent i j n).saves = s.saves := by
  obtain ⟨_, _, e⟩ := s.countSent_eq i j n; rw [e]
@[simp] theorem State.countSent_points (s : State) (i j n : Nat) : (s.countSent i j n).points = s.points := by
  obtain ⟨_, _, e⟩ := s.countSent_eq i j n; rw [e]
@[simp] theorem State.countSent_outs (s : State) (i j n : Nat) : (s.countSent i j n).outs = s.outs := by
  obtain ⟨_, _, e⟩ := s.countSent_eq i j n; rw [e]
@[simp] theorem State.countSent_thread (s : State) (i j n : Nat) (z : Nat) : (s.countSent i j n).thread z = s.thread z := by
  obtain ⟨_, _, e⟩ := s.countSent_eq i j n; rw [e]; rfl
@[simp] theorem State.countSent_core (s : State) (i j n : Nat) (z : Nat) : (s.countSent i j n).core z = s.core z := by
  obtain ⟨_, _, e⟩ := s.countSent_eq i j n; rw [e]; rfl
@[simp] theorem State.countSent_part (s : State) (i j n : Nat) (z : Nat) : (s.countSent i j n).part z = s.part z := by
  obtain ⟨_, _, e⟩ := s.countSent_eq i j n; rw [e]; rfl

/-- Counting an item changes a tile or a home agent alone. -/
theorem State.countRecv_eq (s : State) (i j n : Nat) :
    ∃ h t, s.countRecv i j n = { s with homes := h, tiles := t } := by
  unfold State.countRecv
  split
  · exact ⟨_, s.tiles, rfl⟩
  · split
    · exact ⟨s.homes, _, rfl⟩
    · exact ⟨s.homes, s.tiles, rfl⟩

@[simp] theorem State.countRecv_agenda (s : State) (i j n : Nat) : (s.countRecv i j n).agenda = s.agenda := by
  obtain ⟨_, _, e⟩ := s.countRecv_eq i j n; rw [e]
@[simp] theorem State.countRecv_cur (s : State) (i j n : Nat) : (s.countRecv i j n).cur = s.cur := by
  obtain ⟨_, _, e⟩ := s.countRecv_eq i j n; rw [e]
@[simp] theorem State.countRecv_freeCtr (s : State) (i j n : Nat) : (s.countRecv i j n).freeCtr = s.freeCtr := by
  obtain ⟨_, _, e⟩ := s.countRecv_eq i j n; rw [e]
@[simp] theorem State.countRecv_refTime (s : State) (i j n : Nat) : (s.countRecv i j n).refTime = s.refTime := by
  obtain ⟨_, _, e⟩ := s.countRecv_eq i j n; rw [e]
@[simp] theorem State.countRecv_ordCtr (s : State) (i j n : Nat) : (s.countRecv i j n).ordCtr = s.ordCtr := by
  obtain ⟨_, _, e⟩ := s.countRecv_eq i j n; rw [e]
@[simp] theorem State.countRecv_powered (s : State) (i j n : Nat) : (s.countRecv i j n).powered = s.powered := by
  obtain ⟨_, _, e⟩ := s.countRecv_eq i j n; rw [e]
@[simp] theorem State.countRecv_mem (s : State) (i j n : Nat) : (s.countRecv i j n).mem = s.mem := by
  obtain ⟨_, _, e⟩ := s.countRecv_eq i j n; rw [e]
@[simp] theorem State.countRecv_full (s : State) (i j n : Nat) : (s.countRecv i j n).full = s.full := by
  obtain ⟨_, _, e⟩ := s.countRecv_eq i j n; rw [e]
@[simp] theorem State.countRecv_poison (s : State) (i j n : Nat) : (s.countRecv i j n).poison = s.poison := by
  obtain ⟨_, _, e⟩ := s.countRecv_eq i j n; rw [e]
@[simp] theorem State.countRecv_dirty (s : State) (i j n : Nat) : (s.countRecv i j n).dirty = s.dirty := by
  obtain ⟨_, _, e⟩ := s.countRecv_eq i j n; rw [e]
@[simp] theorem State.countRecv_floe0 (s : State) (i j n : Nat) : (s.countRecv i j n).floe0 = s.floe0 := by
  obtain ⟨_, _, e⟩ := s.countRecv_eq i j n; rw [e]
@[simp] theorem State.countRecv_firnMem (s : State) (i j n : Nat) : (s.countRecv i j n).firnMem = s.firnMem := by
  obtain ⟨_, _, e⟩ := s.countRecv_eq i j n; rw [e]
@[simp] theorem State.countRecv_tagKey (s : State) (i j n : Nat) : (s.countRecv i j n).tagKey = s.tagKey := by
  obtain ⟨_, _, e⟩ := s.countRecv_eq i j n; rw [e]
@[simp] theorem State.countRecv_failQ (s : State) (i j n : Nat) : (s.countRecv i j n).failQ = s.failQ := by
  obtain ⟨_, _, e⟩ := s.countRecv_eq i j n; rw [e]
@[simp] theorem State.countRecv_aer (s : State) (i j n : Nat) : (s.countRecv i j n).aer = s.aer := by
  obtain ⟨_, _, e⟩ := s.countRecv_eq i j n; rw [e]
@[simp] theorem State.countRecv_mapped (s : State) (i j n : Nat) : (s.countRecv i j n).mapped = s.mapped := by
  obtain ⟨_, _, e⟩ := s.countRecv_eq i j n; rw [e]
@[simp] theorem State.countRecv_instrs (s : State) (i j n : Nat) : (s.countRecv i j n).instrs = s.instrs := by
  obtain ⟨_, _, e⟩ := s.countRecv_eq i j n; rw [e]
@[simp] theorem State.countRecv_threads (s : State) (i j n : Nat) : (s.countRecv i j n).threads = s.threads := by
  obtain ⟨_, _, e⟩ := s.countRecv_eq i j n; rw [e]
@[simp] theorem State.countRecv_cores (s : State) (i j n : Nat) : (s.countRecv i j n).cores = s.cores := by
  obtain ⟨_, _, e⟩ := s.countRecv_eq i j n; rw [e]
@[simp] theorem State.countRecv_regions (s : State) (i j n : Nat) : (s.countRecv i j n).regions = s.regions := by
  obtain ⟨_, _, e⟩ := s.countRecv_eq i j n; rw [e]
@[simp] theorem State.countRecv_parts (s : State) (i j n : Nat) : (s.countRecv i j n).parts = s.parts := by
  obtain ⟨_, _, e⟩ := s.countRecv_eq i j n; rw [e]
@[simp] theorem State.countRecv_binding (s : State) (i j n : Nat) : (s.countRecv i j n).binding = s.binding := by
  obtain ⟨_, _, e⟩ := s.countRecv_eq i j n; rw [e]
@[simp] theorem State.countRecv_unbound (s : State) (i j n : Nat) : (s.countRecv i j n).unbound = s.unbound := by
  obtain ⟨_, _, e⟩ := s.countRecv_eq i j n; rw [e]
@[simp] theorem State.countRecv_fenced (s : State) (i j n : Nat) : (s.countRecv i j n).fenced = s.fenced := by
  obtain ⟨_, _, e⟩ := s.countRecv_eq i j n; rw [e]
@[simp] theorem State.countRecv_boot (s : State) (i j n : Nat) : (s.countRecv i j n).boot = s.boot := by
  obtain ⟨_, _, e⟩ := s.countRecv_eq i j n; rw [e]
@[simp] theorem State.countRecv_devid (s : State) (i j n : Nat) : (s.countRecv i j n).devid = s.devid := by
  obtain ⟨_, _, e⟩ := s.countRecv_eq i j n; rw [e]
@[simp] theorem State.countRecv_devValid (s : State) (i j n : Nat) : (s.countRecv i j n).devValid = s.devValid := by
  obtain ⟨_, _, e⟩ := s.countRecv_eq i j n; rw [e]
@[simp] theorem State.countRecv_attest (s : State) (i j n : Nat) : (s.countRecv i j n).attest = s.attest := by
  obtain ⟨_, _, e⟩ := s.countRecv_eq i j n; rw [e]
@[simp] theorem State.countRecv_flash (s : State) (i j n : Nat) : (s.countRecv i j n).flash = s.flash := by
  obtain ⟨_, _, e⟩ := s.countRecv_eq i j n; rw [e]
@[simp] theorem State.countRecv_appends (s : State) (i j n : Nat) : (s.countRecv i j n).appends = s.appends := by
  obtain ⟨_, _, e⟩ := s.countRecv_eq i j n; rw [e]
@[simp] theorem State.countRecv_queues (s : State) (i j n : Nat) : (s.countRecv i j n).queues = s.queues := by
  obtain ⟨_, _, e⟩ := s.countRecv_eq i j n; rw [e]
@[simp] theorem State.countRecv_devq (s : State) (i j n : Nat) : (s.countRecv i j n).devq = s.devq := by
  obtain ⟨_, _, e⟩ := s.countRecv_eq i j n; rw [e]
@[simp] theorem State.countRecv_taken (s : State) (i j n : Nat) : (s.countRecv i j n).taken = s.taken := by
  obtain ⟨_, _, e⟩ := s.countRecv_eq i j n; rw [e]
@[simp] theorem State.countRecv_turns (s : State) (i j n : Nat) : (s.countRecv i j n).turns = s.turns := by
  obtain ⟨_, _, e⟩ := s.countRecv_eq i j n; rw [e]
@[simp] theorem State.countRecv_replays (s : State) (i j n : Nat) : (s.countRecv i j n).replays = s.replays := by
  obtain ⟨_, _, e⟩ := s.countRecv_eq i j n; rw [e]
@[simp] theorem State.countRecv_waves (s : State) (i j n : Nat) : (s.countRecv i j n).waves = s.waves := by
  obtain ⟨_, _, e⟩ := s.countRecv_eq i j n; rw [e]
@[simp] theorem State.countRecv_nextId (s : State) (i j n : Nat) : (s.countRecv i j n).nextId = s.nextId := by
  obtain ⟨_, _, e⟩ := s.countRecv_eq i j n; rw [e]
@[simp] theorem State.countRecv_vfs (s : State) (i j n : Nat) : (s.countRecv i j n).vfs = s.vfs := by
  obtain ⟨_, _, e⟩ := s.countRecv_eq i j n; rw [e]
@[simp] theorem State.countRecv_selfSecs (s : State) (i j n : Nat) : (s.countRecv i j n).selfSecs = s.selfSecs := by
  obtain ⟨_, _, e⟩ := s.countRecv_eq i j n; rw [e]
@[simp] theorem State.countRecv_ports (s : State) (i j n : Nat) : (s.countRecv i j n).ports = s.ports := by
  obtain ⟨_, _, e⟩ := s.countRecv_eq i j n; rw [e]
@[simp] theorem State.countRecv_net (s : State) (i j n : Nat) : (s.countRecv i j n).net = s.net := by
  obtain ⟨_, _, e⟩ := s.countRecv_eq i j n; rw [e]
@[simp] theorem State.countRecv_egressQ (s : State) (i j n : Nat) : (s.countRecv i j n).egressQ = s.egressQ := by
  obtain ⟨_, _, e⟩ := s.countRecv_eq i j n; rw [e]
@[simp] theorem State.countRecv_egressed (s : State) (i j n : Nat) : (s.countRecv i j n).egressed = s.egressed := by
  obtain ⟨_, _, e⟩ := s.countRecv_eq i j n; rw [e]
@[simp] theorem State.countRecv_assists (s : State) (i j n : Nat) : (s.countRecv i j n).assists = s.assists := by
  obtain ⟨_, _, e⟩ := s.countRecv_eq i j n; rw [e]
@[simp] theorem State.countRecv_ring0 (s : State) (i j n : Nat) : (s.countRecv i j n).ring0 = s.ring0 := by
  obtain ⟨_, _, e⟩ := s.countRecv_eq i j n; rw [e]
@[simp] theorem State.countRecv_ev0Seq (s : State) (i j n : Nat) : (s.countRecv i j n).ev0Seq = s.ev0Seq := by
  obtain ⟨_, _, e⟩ := s.countRecv_eq i j n; rw [e]
@[simp] theorem State.countRecv_firns (s : State) (i j n : Nat) : (s.countRecv i j n).firns = s.firns := by
  obtain ⟨_, _, e⟩ := s.countRecv_eq i j n; rw [e]
@[simp] theorem State.countRecv_saves (s : State) (i j n : Nat) : (s.countRecv i j n).saves = s.saves := by
  obtain ⟨_, _, e⟩ := s.countRecv_eq i j n; rw [e]
@[simp] theorem State.countRecv_points (s : State) (i j n : Nat) : (s.countRecv i j n).points = s.points := by
  obtain ⟨_, _, e⟩ := s.countRecv_eq i j n; rw [e]
@[simp] theorem State.countRecv_outs (s : State) (i j n : Nat) : (s.countRecv i j n).outs = s.outs := by
  obtain ⟨_, _, e⟩ := s.countRecv_eq i j n; rw [e]
@[simp] theorem State.countRecv_thread (s : State) (i j n : Nat) (z : Nat) : (s.countRecv i j n).thread z = s.thread z := by
  obtain ⟨_, _, e⟩ := s.countRecv_eq i j n; rw [e]; rfl
@[simp] theorem State.countRecv_core (s : State) (i j n : Nat) (z : Nat) : (s.countRecv i j n).core z = s.core z := by
  obtain ⟨_, _, e⟩ := s.countRecv_eq i j n; rw [e]; rfl
@[simp] theorem State.countRecv_part (s : State) (i j n : Nat) (z : Nat) : (s.countRecv i j n).part z = s.part z := by
  obtain ⟨_, _, e⟩ := s.countRecv_eq i j n; rw [e]; rfl

@[simp] theorem State.emit_agenda (s : State) (i : Item) : (s.emit i).agenda = s.agenda := rfl
@[simp] theorem State.emit_cur (s : State) (i : Item) : (s.emit i).cur = s.cur := rfl
@[simp] theorem State.emit_freeCtr (s : State) (i : Item) : (s.emit i).freeCtr = s.freeCtr := rfl
@[simp] theorem State.emit_refTime (s : State) (i : Item) : (s.emit i).refTime = s.refTime := rfl
@[simp] theorem State.emit_powered (s : State) (i : Item) : (s.emit i).powered = s.powered := rfl
@[simp] theorem State.emit_mem (s : State) (i : Item) : (s.emit i).mem = s.mem := rfl
@[simp] theorem State.emit_full (s : State) (i : Item) : (s.emit i).full = s.full := rfl
@[simp] theorem State.emit_poison (s : State) (i : Item) : (s.emit i).poison = s.poison := rfl
@[simp] theorem State.emit_dirty (s : State) (i : Item) : (s.emit i).dirty = s.dirty := rfl
@[simp] theorem State.emit_floe0 (s : State) (i : Item) : (s.emit i).floe0 = s.floe0 := rfl
@[simp] theorem State.emit_firnMem (s : State) (i : Item) : (s.emit i).firnMem = s.firnMem := rfl
@[simp] theorem State.emit_tagKey (s : State) (i : Item) : (s.emit i).tagKey = s.tagKey := rfl
@[simp] theorem State.emit_failQ (s : State) (i : Item) : (s.emit i).failQ = s.failQ := rfl
@[simp] theorem State.emit_aer (s : State) (i : Item) : (s.emit i).aer = s.aer := rfl
@[simp] theorem State.emit_mapped (s : State) (i : Item) : (s.emit i).mapped = s.mapped := rfl
@[simp] theorem State.emit_instrs (s : State) (i : Item) : (s.emit i).instrs = s.instrs := rfl
@[simp] theorem State.emit_threads (s : State) (i : Item) : (s.emit i).threads = s.threads := rfl
@[simp] theorem State.emit_cores (s : State) (i : Item) : (s.emit i).cores = s.cores := rfl
@[simp] theorem State.emit_tiles (s : State) (i : Item) : (s.emit i).tiles = s.tiles := rfl
@[simp] theorem State.emit_regions (s : State) (i : Item) : (s.emit i).regions = s.regions := rfl
@[simp] theorem State.emit_parts (s : State) (i : Item) : (s.emit i).parts = s.parts := rfl
@[simp] theorem State.emit_homes (s : State) (i : Item) : (s.emit i).homes = s.homes := rfl
@[simp] theorem State.emit_binding (s : State) (i : Item) : (s.emit i).binding = s.binding := rfl
@[simp] theorem State.emit_unbound (s : State) (i : Item) : (s.emit i).unbound = s.unbound := rfl
@[simp] theorem State.emit_fenced (s : State) (i : Item) : (s.emit i).fenced = s.fenced := rfl
@[simp] theorem State.emit_boot (s : State) (i : Item) : (s.emit i).boot = s.boot := rfl
@[simp] theorem State.emit_devid (s : State) (i : Item) : (s.emit i).devid = s.devid := rfl
@[simp] theorem State.emit_devValid (s : State) (i : Item) : (s.emit i).devValid = s.devValid := rfl
@[simp] theorem State.emit_attest (s : State) (i : Item) : (s.emit i).attest = s.attest := rfl
@[simp] theorem State.emit_flash (s : State) (i : Item) : (s.emit i).flash = s.flash := rfl
@[simp] theorem State.emit_appends (s : State) (i : Item) : (s.emit i).appends = s.appends := rfl
@[simp] theorem State.emit_queues (s : State) (i : Item) : (s.emit i).queues = s.queues := rfl
@[simp] theorem State.emit_devq (s : State) (i : Item) : (s.emit i).devq = s.devq := rfl
@[simp] theorem State.emit_taken (s : State) (i : Item) : (s.emit i).taken = s.taken := rfl
@[simp] theorem State.emit_turns (s : State) (i : Item) : (s.emit i).turns = s.turns := rfl
@[simp] theorem State.emit_replays (s : State) (i : Item) : (s.emit i).replays = s.replays := rfl
@[simp] theorem State.emit_waves (s : State) (i : Item) : (s.emit i).waves = s.waves := rfl
@[simp] theorem State.emit_nextId (s : State) (i : Item) : (s.emit i).nextId = s.nextId := rfl
@[simp] theorem State.emit_vfs (s : State) (i : Item) : (s.emit i).vfs = s.vfs := rfl
@[simp] theorem State.emit_selfSecs (s : State) (i : Item) : (s.emit i).selfSecs = s.selfSecs := rfl
@[simp] theorem State.emit_ports (s : State) (i : Item) : (s.emit i).ports = s.ports := rfl
@[simp] theorem State.emit_egressQ (s : State) (i : Item) : (s.emit i).egressQ = s.egressQ := rfl
@[simp] theorem State.emit_egressed (s : State) (i : Item) : (s.emit i).egressed = s.egressed := rfl
@[simp] theorem State.emit_assists (s : State) (i : Item) : (s.emit i).assists = s.assists := rfl
@[simp] theorem State.emit_ring0 (s : State) (i : Item) : (s.emit i).ring0 = s.ring0 := rfl
@[simp] theorem State.emit_ev0Seq (s : State) (i : Item) : (s.emit i).ev0Seq = s.ev0Seq := rfl
@[simp] theorem State.emit_firns (s : State) (i : Item) : (s.emit i).firns = s.firns := rfl
@[simp] theorem State.emit_saves (s : State) (i : Item) : (s.emit i).saves = s.saves := rfl
@[simp] theorem State.emit_points (s : State) (i : Item) : (s.emit i).points = s.points := rfl
@[simp] theorem State.emit_outs (s : State) (i : Item) : (s.emit i).outs = s.outs := rfl
@[simp] theorem State.emit_thread (s : State) (i : Item) (z : Nat) : (s.emit i).thread z = s.thread z := rfl
@[simp] theorem State.emit_core (s : State) (i : Item) (z : Nat) : (s.emit i).core z = s.core z := rfl
@[simp] theorem State.emit_tile (s : State) (i : Item) (z : Nat) : (s.emit i).tile z = s.tile z := rfl
@[simp] theorem State.emit_part (s : State) (i : Item) (z : Nat) : (s.emit i).part z = s.part z := rfl
@[simp] theorem State.emit_agent (s : State) (i : Item) (z : Nat) : (s.emit i).agent z = s.agent z := rfl

@[simp] theorem State.retireTo_agenda (s : State) (w : Word) (j : Bool) : (s.retireTo w j).agenda = s.agenda := rfl
@[simp] theorem State.retireTo_cur (s : State) (w : Word) (j : Bool) : (s.retireTo w j).cur = s.cur := rfl
@[simp] theorem State.retireTo_freeCtr (s : State) (w : Word) (j : Bool) : (s.retireTo w j).freeCtr = s.freeCtr := rfl
@[simp] theorem State.retireTo_refTime (s : State) (w : Word) (j : Bool) : (s.retireTo w j).refTime = s.refTime := rfl
@[simp] theorem State.retireTo_ordCtr (s : State) (w : Word) (j : Bool) : (s.retireTo w j).ordCtr = s.ordCtr := rfl
@[simp] theorem State.retireTo_powered (s : State) (w : Word) (j : Bool) : (s.retireTo w j).powered = s.powered := rfl
@[simp] theorem State.retireTo_mem (s : State) (w : Word) (j : Bool) : (s.retireTo w j).mem = s.mem := rfl
@[simp] theorem State.retireTo_full (s : State) (w : Word) (j : Bool) : (s.retireTo w j).full = s.full := rfl
@[simp] theorem State.retireTo_poison (s : State) (w : Word) (j : Bool) : (s.retireTo w j).poison = s.poison := rfl
@[simp] theorem State.retireTo_dirty (s : State) (w : Word) (j : Bool) : (s.retireTo w j).dirty = s.dirty := rfl
@[simp] theorem State.retireTo_floe0 (s : State) (w : Word) (j : Bool) : (s.retireTo w j).floe0 = s.floe0 := rfl
@[simp] theorem State.retireTo_firnMem (s : State) (w : Word) (j : Bool) : (s.retireTo w j).firnMem = s.firnMem := rfl
@[simp] theorem State.retireTo_tagKey (s : State) (w : Word) (j : Bool) : (s.retireTo w j).tagKey = s.tagKey := rfl
@[simp] theorem State.retireTo_failQ (s : State) (w : Word) (j : Bool) : (s.retireTo w j).failQ = s.failQ := rfl
@[simp] theorem State.retireTo_aer (s : State) (w : Word) (j : Bool) : (s.retireTo w j).aer = s.aer := rfl
@[simp] theorem State.retireTo_mapped (s : State) (w : Word) (j : Bool) : (s.retireTo w j).mapped = s.mapped := rfl
@[simp] theorem State.retireTo_cores (s : State) (w : Word) (j : Bool) : (s.retireTo w j).cores = s.cores := rfl
@[simp] theorem State.retireTo_tiles (s : State) (w : Word) (j : Bool) : (s.retireTo w j).tiles = s.tiles := rfl
@[simp] theorem State.retireTo_regions (s : State) (w : Word) (j : Bool) : (s.retireTo w j).regions = s.regions := rfl
@[simp] theorem State.retireTo_parts (s : State) (w : Word) (j : Bool) : (s.retireTo w j).parts = s.parts := rfl
@[simp] theorem State.retireTo_homes (s : State) (w : Word) (j : Bool) : (s.retireTo w j).homes = s.homes := rfl
@[simp] theorem State.retireTo_binding (s : State) (w : Word) (j : Bool) : (s.retireTo w j).binding = s.binding := rfl
@[simp] theorem State.retireTo_unbound (s : State) (w : Word) (j : Bool) : (s.retireTo w j).unbound = s.unbound := rfl
@[simp] theorem State.retireTo_fenced (s : State) (w : Word) (j : Bool) : (s.retireTo w j).fenced = s.fenced := rfl
@[simp] theorem State.retireTo_boot (s : State) (w : Word) (j : Bool) : (s.retireTo w j).boot = s.boot := rfl
@[simp] theorem State.retireTo_devid (s : State) (w : Word) (j : Bool) : (s.retireTo w j).devid = s.devid := rfl
@[simp] theorem State.retireTo_devValid (s : State) (w : Word) (j : Bool) : (s.retireTo w j).devValid = s.devValid := rfl
@[simp] theorem State.retireTo_attest (s : State) (w : Word) (j : Bool) : (s.retireTo w j).attest = s.attest := rfl
@[simp] theorem State.retireTo_flash (s : State) (w : Word) (j : Bool) : (s.retireTo w j).flash = s.flash := rfl
@[simp] theorem State.retireTo_appends (s : State) (w : Word) (j : Bool) : (s.retireTo w j).appends = s.appends := rfl
@[simp] theorem State.retireTo_queues (s : State) (w : Word) (j : Bool) : (s.retireTo w j).queues = s.queues := rfl
@[simp] theorem State.retireTo_devq (s : State) (w : Word) (j : Bool) : (s.retireTo w j).devq = s.devq := rfl
@[simp] theorem State.retireTo_taken (s : State) (w : Word) (j : Bool) : (s.retireTo w j).taken = s.taken := rfl
@[simp] theorem State.retireTo_turns (s : State) (w : Word) (j : Bool) : (s.retireTo w j).turns = s.turns := rfl
@[simp] theorem State.retireTo_replays (s : State) (w : Word) (j : Bool) : (s.retireTo w j).replays = s.replays := rfl
@[simp] theorem State.retireTo_waves (s : State) (w : Word) (j : Bool) : (s.retireTo w j).waves = s.waves := rfl
@[simp] theorem State.retireTo_nextId (s : State) (w : Word) (j : Bool) : (s.retireTo w j).nextId = s.nextId := rfl
@[simp] theorem State.retireTo_vfs (s : State) (w : Word) (j : Bool) : (s.retireTo w j).vfs = s.vfs := rfl
@[simp] theorem State.retireTo_selfSecs (s : State) (w : Word) (j : Bool) : (s.retireTo w j).selfSecs = s.selfSecs := rfl
@[simp] theorem State.retireTo_ports (s : State) (w : Word) (j : Bool) : (s.retireTo w j).ports = s.ports := rfl
@[simp] theorem State.retireTo_net (s : State) (w : Word) (j : Bool) : (s.retireTo w j).net = s.net := rfl
@[simp] theorem State.retireTo_egressQ (s : State) (w : Word) (j : Bool) : (s.retireTo w j).egressQ = s.egressQ := rfl
@[simp] theorem State.retireTo_egressed (s : State) (w : Word) (j : Bool) : (s.retireTo w j).egressed = s.egressed := rfl
@[simp] theorem State.retireTo_assists (s : State) (w : Word) (j : Bool) : (s.retireTo w j).assists = s.assists := rfl
@[simp] theorem State.retireTo_ring0 (s : State) (w : Word) (j : Bool) : (s.retireTo w j).ring0 = s.ring0 := rfl
@[simp] theorem State.retireTo_ev0Seq (s : State) (w : Word) (j : Bool) : (s.retireTo w j).ev0Seq = s.ev0Seq := rfl
@[simp] theorem State.retireTo_firns (s : State) (w : Word) (j : Bool) : (s.retireTo w j).firns = s.firns := rfl
@[simp] theorem State.retireTo_saves (s : State) (w : Word) (j : Bool) : (s.retireTo w j).saves = s.saves := rfl
@[simp] theorem State.retireTo_points (s : State) (w : Word) (j : Bool) : (s.retireTo w j).points = s.points := rfl
@[simp] theorem State.retireTo_outs (s : State) (w : Word) (j : Bool) : (s.retireTo w j).outs = s.outs := rfl
@[simp] theorem State.retireTo_core (s : State) (w : Word) (j : Bool) (z : Nat) : (s.retireTo w j).core z = s.core z := rfl
@[simp] theorem State.retireTo_tile (s : State) (w : Word) (j : Bool) (z : Nat) : (s.retireTo w j).tile z = s.tile z := rfl
@[simp] theorem State.retireTo_part (s : State) (w : Word) (j : Bool) (z : Nat) : (s.retireTo w j).part z = s.part z := rfl
@[simp] theorem State.retireTo_agent (s : State) (w : Word) (j : Bool) (z : Nat) : (s.retireTo w j).agent z = s.agent z := rfl

@[simp] theorem State.retire_agenda (s : State) : (s.retire).agenda = s.agenda := rfl
@[simp] theorem State.retire_cur (s : State) : (s.retire).cur = s.cur := rfl
@[simp] theorem State.retire_freeCtr (s : State) : (s.retire).freeCtr = s.freeCtr := rfl
@[simp] theorem State.retire_refTime (s : State) : (s.retire).refTime = s.refTime := rfl
@[simp] theorem State.retire_ordCtr (s : State) : (s.retire).ordCtr = s.ordCtr := rfl
@[simp] theorem State.retire_powered (s : State) : (s.retire).powered = s.powered := rfl
@[simp] theorem State.retire_mem (s : State) : (s.retire).mem = s.mem := rfl
@[simp] theorem State.retire_full (s : State) : (s.retire).full = s.full := rfl
@[simp] theorem State.retire_poison (s : State) : (s.retire).poison = s.poison := rfl
@[simp] theorem State.retire_dirty (s : State) : (s.retire).dirty = s.dirty := rfl
@[simp] theorem State.retire_floe0 (s : State) : (s.retire).floe0 = s.floe0 := rfl
@[simp] theorem State.retire_firnMem (s : State) : (s.retire).firnMem = s.firnMem := rfl
@[simp] theorem State.retire_tagKey (s : State) : (s.retire).tagKey = s.tagKey := rfl
@[simp] theorem State.retire_failQ (s : State) : (s.retire).failQ = s.failQ := rfl
@[simp] theorem State.retire_aer (s : State) : (s.retire).aer = s.aer := rfl
@[simp] theorem State.retire_mapped (s : State) : (s.retire).mapped = s.mapped := rfl
@[simp] theorem State.retire_cores (s : State) : (s.retire).cores = s.cores := rfl
@[simp] theorem State.retire_tiles (s : State) : (s.retire).tiles = s.tiles := rfl
@[simp] theorem State.retire_regions (s : State) : (s.retire).regions = s.regions := rfl
@[simp] theorem State.retire_parts (s : State) : (s.retire).parts = s.parts := rfl
@[simp] theorem State.retire_homes (s : State) : (s.retire).homes = s.homes := rfl
@[simp] theorem State.retire_binding (s : State) : (s.retire).binding = s.binding := rfl
@[simp] theorem State.retire_unbound (s : State) : (s.retire).unbound = s.unbound := rfl
@[simp] theorem State.retire_fenced (s : State) : (s.retire).fenced = s.fenced := rfl
@[simp] theorem State.retire_boot (s : State) : (s.retire).boot = s.boot := rfl
@[simp] theorem State.retire_devid (s : State) : (s.retire).devid = s.devid := rfl
@[simp] theorem State.retire_devValid (s : State) : (s.retire).devValid = s.devValid := rfl
@[simp] theorem State.retire_attest (s : State) : (s.retire).attest = s.attest := rfl
@[simp] theorem State.retire_flash (s : State) : (s.retire).flash = s.flash := rfl
@[simp] theorem State.retire_appends (s : State) : (s.retire).appends = s.appends := rfl
@[simp] theorem State.retire_queues (s : State) : (s.retire).queues = s.queues := rfl
@[simp] theorem State.retire_devq (s : State) : (s.retire).devq = s.devq := rfl
@[simp] theorem State.retire_taken (s : State) : (s.retire).taken = s.taken := rfl
@[simp] theorem State.retire_turns (s : State) : (s.retire).turns = s.turns := rfl
@[simp] theorem State.retire_replays (s : State) : (s.retire).replays = s.replays := rfl
@[simp] theorem State.retire_waves (s : State) : (s.retire).waves = s.waves := rfl
@[simp] theorem State.retire_nextId (s : State) : (s.retire).nextId = s.nextId := rfl
@[simp] theorem State.retire_vfs (s : State) : (s.retire).vfs = s.vfs := rfl
@[simp] theorem State.retire_selfSecs (s : State) : (s.retire).selfSecs = s.selfSecs := rfl
@[simp] theorem State.retire_ports (s : State) : (s.retire).ports = s.ports := rfl
@[simp] theorem State.retire_net (s : State) : (s.retire).net = s.net := rfl
@[simp] theorem State.retire_egressQ (s : State) : (s.retire).egressQ = s.egressQ := rfl
@[simp] theorem State.retire_egressed (s : State) : (s.retire).egressed = s.egressed := rfl
@[simp] theorem State.retire_assists (s : State) : (s.retire).assists = s.assists := rfl
@[simp] theorem State.retire_ring0 (s : State) : (s.retire).ring0 = s.ring0 := rfl
@[simp] theorem State.retire_ev0Seq (s : State) : (s.retire).ev0Seq = s.ev0Seq := rfl
@[simp] theorem State.retire_firns (s : State) : (s.retire).firns = s.firns := rfl
@[simp] theorem State.retire_saves (s : State) : (s.retire).saves = s.saves := rfl
@[simp] theorem State.retire_points (s : State) : (s.retire).points = s.points := rfl
@[simp] theorem State.retire_outs (s : State) : (s.retire).outs = s.outs := rfl
@[simp] theorem State.retire_core (s : State) (z : Nat) : (s.retire).core z = s.core z := rfl
@[simp] theorem State.retire_tile (s : State) (z : Nat) : (s.retire).tile z = s.tile z := rfl
@[simp] theorem State.retire_part (s : State) (z : Nat) : (s.retire).part z = s.part z := rfl
@[simp] theorem State.retire_agent (s : State) (z : Nat) : (s.retire).agent z = s.agent z := rfl

end Sys2Proof.Machine
end

