-- ==== Sys2Proof/Laws/Ops.lean ====
section
/-!
SUPPORT. What the shared operations can do: registers, retirement, the log, the climb of a fault, taking an
exception, loads and stores.
-/

namespace Sys2Proof.Machine

/-! ### Vectors and registers -/

theorem vget_vset {α : Type} {n : Nat} (d : α) (v : Vector α n) (i j : Nat) (a : α) :
    vget d (vset v i a) j = if j = i ∧ i < n then a else vget d v j := by
  unfold vget vset
  by_cases hi : i < n
  · by_cases hj : j < n
    · simp only [hi, hj, dite_true, and_true, Vector.getElem_set, eq_comm (a := i)]
    · have : ¬ (j = i ∧ i < n) := by omega
      simp [hi, hj]; omega
  · simp [hi]

theorem Thread.rx_wx (t : Thread) (n r : Reg) (v : Word) :
    (t.wx n v).rx r = if r = 0 then 0 else if r = n then v else t.rx r := by
  unfold Thread.rx Thread.wx
  by_cases hr : r = 0
  · simp only [hr, if_true]
  · have key : (r.toNat = n.toNat ∧ n.toNat < 32) ↔ r = n :=
      ⟨fun h => BitVec.eq_of_toNat_eq h.1, fun h => h ▸ ⟨rfl, r.isLt⟩⟩
    by_cases hn : n = 0
    · have h : r ≠ n := fun h => hr (h.trans hn)
      rw [if_neg hr, if_pos hn, if_neg hr, if_neg h, if_neg hr]
    · rw [if_neg hr, if_neg hn, if_neg hr, vget_vset, if_neg hr]
      simp only [key]

theorem Thread.rv_wv (t : Thread) (n r : BitVec 4) (v : VReg) : (t.wv n v).rv r = if r = n then v else t.rv r := by
  unfold Thread.rv Thread.wv
  simp only [vget_vset]
  have : (r.toNat = n.toNat ∧ n.toNat < 16) ↔ r = n :=
    ⟨fun h => BitVec.eq_of_toNat_eq h.1, fun h => by subst h; exact ⟨rfl, r.isLt⟩⟩
  simp only [this]

theorem Thread.rm_wm (t : Thread) (n r : BitVec 2) (v : Word) : (t.wm n v).rm r = if r = n then v else t.rm r := by
  unfold Thread.rm Thread.wm
  simp only [vget_vset]
  have : (r.toNat = n.toNat ∧ n.toNat < 4) ↔ r = n :=
    ⟨fun h => BitVec.eq_of_toNat_eq h.1, fun h => by subst h; exact ⟨rfl, r.isLt⟩⟩
  simp only [this]

/-- A write of an x register changes `x` alone. -/
theorem Thread.wx_eq (t : Thread) (n : Reg) (v : Word) : ∃ x, t.wx n v = { t with x := x } := by
  unfold Thread.wx
  split
  · exact ⟨t.x, rfl⟩
  · exact ⟨_, rfl⟩

@[simp] theorem State.me_setMe (s : State) (t : Thread) : (s.setMe t).me = t := SMap.get_put_self _ _ _ _

theorem State.thread_setMe_ne (s : State) (t : Thread) {h : Nat} (hh : h ≠ s.cur) : (s.setMe t).thread h = s.thread h :=
  SMap.get_put_ne _ _ _ hh

@[simp] theorem State.site_setMe (s : State) (t : Thread) : (s.setMe t).site = s.site := rfl

theorem State.rx_wx (s : State) (n r : Reg) (v : Word) :
    (s.wx n v).rx r = if r = 0 then 0 else if r = n then v else s.rx r := by
  simp only [State.rx, State.wx, State.me_setMe, Thread.rx_wx]

@[simp] theorem State.putMem_mem (s : State) (k : Nat) (bs : List Byte) :
    (s.putMem k bs).mem = Memory.writeN s.mem k bs := rfl

/-! ### Retiring -/

/-- The partition of the current thread does not depend on more of it than its activation. -/
theorem State.partOfHart_setMe (s : State) (m : Thread) (ha : m.act = s.me.act) :
    (s.setMe m).partOfHart s.cur = s.partOfHart s.cur := by
  simp only [State.partOfHart]
  rw [show (s.setMe m).thread s.cur = m from State.me_setMe s m, ha]
  rfl

/-- The thread after it has retired to `w`: everything that retiring changes. -/
theorem State.retireTo_me (s : State) (w : Word) (j : Bool) :
    (s.retireTo w j).me = { s.me with
      pc := (loopTest s.me w j).1, lpcount := (loopTest s.me w j).2, retired := s.me.retired + 1
      qret := s.me.qret + 1, budget := nextBudget s, resp := none, status := .running } := by
  have h : ∀ x : Thread, State.me { s.setMe x with instrs := SMap.bump s.instrs s.site 1 } = x := fun x =>
    SMap.get_put_self _ _ _ _
  unfold State.retireTo
  rw [h]
  simp [nextBudget, State.det, and_assoc]

/-- An instruction that is no jump and changes only what `m` says of the current thread leaves what `Retired` says. -/
theorem State.retire_retired (s : State) (m : Thread) (hpc : m.pc = s.me.pc) (hs : m.lpstart = s.me.lpstart)
    (he : m.lpend = s.me.lpend) (hc : m.lpcount = s.me.lpcount) (hb : m.budget = s.me.budget)
    (hp : m.priv = s.me.priv) (ha : m.act = s.me.act) (hr : m.retired = s.me.retired) (hq : m.qret = s.me.qret) :
    Retired s ((s.setMe m).retire) m := by
  refine ⟨?_, ?_, fun _ => rfl, rfl⟩
  · rw [State.retire, State.retireTo_me, State.me_setMe]
    have hB : nextBudget (s.setMe m) = nextBudget s := by
      simp only [nextBudget, State.me_setMe, hb, hp, State.setMe_cur, State.partOfHart_setMe s m ha]
      rfl
    rw [hB, hr, hq]
    have hL : loopTest m (m.pc + 4) false = (nextPc s.me, nextCount s.me) := by
      simp only [loopTest, nextPc, nextCount, hpc, hs, he, hc, Bool.false_eq_true, if_false]
      by_cases h1 : s.me.pc = s.me.lpend
      · simp only [h1, if_true, true_and]
        by_cases h2 : 1 < s.me.lpcount.toNat
        · simp [h2, Nat.le_of_lt h2]
        · by_cases h3 : s.me.lpcount = 1
          · simp [h3]
          · have h4 : s.me.lpcount.toNat = 0 := by
              have : s.me.lpcount.toNat ≠ 1 := fun h => h3 (BitVec.eq_of_toNat_eq (by simpa using h))
              omega
            simp only [h4, h3, if_false]
            simp
      · simp [h1]
    rw [hL]
  · intro h hh
    exact (SMap.get_put_ne _ _ _ hh).trans (SMap.get_put_ne _ _ _ hh)

/-- An instruction that writes one register: its result and that nothing else changes. -/
theorem writeReg_result (s : State) (rd : Reg) (v : Word) :
    ∃ t, writeReg s rd v = .next t ∧ ScalarResult s t rd v := by
  obtain ⟨x, hx⟩ := Thread.wx_eq s.me rd v
  have hR : Retired s ((s.wx rd v).retire) { s.me with x := x } := by
    have := State.retire_retired s (s.me.wx rd v) (by rw [hx]) (by rw [hx]) (by rw [hx]) (by rw [hx]) (by rw [hx])
      (by rw [hx]) (by rw [hx]) (by rw [hx]) (by rw [hx])
    rw [hx] at this
    rw [State.wx, hx]
    exact this
  refine ⟨_, rfl, fun r => ?_, x, hR⟩
  rw [State.rx, hR.me]
  have : (s.wx rd v).me.rx r = _ := State.rx_wx s rd r v
  rw [State.wx, State.me_setMe, hx] at this
  exact this

/-- A meaning that only writes a register gives its result. -/
theorem Gives.of_writeReg {i : Instr} {s : State} {rd : Reg} {v : Word} (h : exec i s = writeReg s rd v) :
    Gives i s rd v := by
  obtain ⟨t, ht, hr⟩ := writeReg_result s rd v
  exact ⟨t, h.trans ht, hr⟩

/-! ### Taking an exception -/

/-- An error other than a budget overrun and an operand error names its address. -/
theorem errAddr_of_ne {cause : Nat} (a : Word) (h : cause ≠ 7 ∧ cause ≠ 12) : errAddr cause a = a := by simp [errAddr, h]

/-- At M an exception is a machine trap: the trap registers, the pc and nothing else (R390). -/
theorem raiseOut_machine (s : State) (cause : Nat) (at_ : Site) (a : Word) (h : s.me.priv = .M) :
    raiseOut s cause at_ a = .next (s.setMe (s.me.trap cause at_ (match at_ with | .other => 0 | _ => errAddr cause a))) := by
  cases at_ <;> simp [raiseOut, State.raise, h]

/-- At U an exception aborts the activation (R223). -/
theorem raiseOut_user (s : State) (cause : Nat) (at_ : Site) (a : Word) (h : s.me.priv = .U) :
    raiseOut s cause at_ a = .next (s.abort s.cur cause (errAddr cause a)) := by
  simp only [raiseOut, State.raise, h]

/-! ### Loads and stores -/

/-- A load goes on with the data of its response once that has come. -/
theorem loadThen_resp (s : State) (a n : Nat) (k : List Byte → State → Out) {r : Resp} (h : s.me.resp = some r) :
    loadThen s a n k = k r.data s := by
  simp [loadThen, h]

theorem routeOf_local {a : Nat} (h : a < 2 ^ 48) : routeOf a = .localWin := by
  have h2 : segOf a = 0 := by
    simp only [segOf, bitsN, Nat.shiftRight_eq_div_pow]
    rw [Nat.div_eq_of_lt h]; rfl
  have h3 : a < 72057594037927936 := h.trans (by decide)
  simp [routeOf, h2, h3]

/-- A granted local load goes on with the bytes at its location. -/
theorem loadThen_local (s : State) (a n k : Nat) (f : List Byte → State → Out) (h : s.me.resp = none)
    (hl : LocalAt s .read a n k) : loadThen s a n f = f (Memory.readN s.mem k n) s := by
  simp [loadThen, h, routeOf_local hl.1, hl.2.1, hl.2.2, State.bytes]

/-- A thread with no store to bytes of its own memory on its way has no translated one. -/
theorem State.pendingFar_of_local {s : State} {h k n : Nat} (hp : s.pendingLocal h k n = false) :
    s.pendingFar h k n = false := by
  simp only [State.pendingLocal, State.pendingFar, List.any_eq_false, Bool.and_eq_true, Bool.or_eq_true, not_and] at hp ⊢
  exact fun i hi hs hf => hp i hi hs (.inr hf)

/-- A granted local store of a tile that is no orphan writes its bytes at its location. -/
theorem storeOut_local (s : State) (a k : Nat) (bs : List Byte) (hh : s.atHome a = false)
    (hl : LocalAt s .write a bs.length k) : storeOut s a bs = .next (s.putMem k bs).retire := by
  simp [storeOut, State.storeAt, State.storeWaits, routeOf_local hl.1, hl.2.1, hl.2.2, hh, State.pendingFar_of_local hl.2.2]

/-! ### Digests and tags -/

theorem bytesOf_length (n x : Nat) : (bytesOf n x).length = n := by
  induction n generalizing x with
  | zero => rfl
  | succ n ih => simp [bytesOf, ih]

theorem sha256_length (m : List Byte) : (sha256 m).length = 32 := by
  simp [sha256, List.length_flatMap, beBytes, bytesOf_length]

/-- A tag has eight bytes (R236). -/
theorem State.tag_length (s : State) (ward ival off : Nat) (bs : List Byte) : (s.tag ward ival off bs).length = 8 := by
  simp [State.tag, hmac256, sha256_length]

/-! ### The message log (R240), what homes note (R376), and the climb of a fault (R186) -/

/-- What a tile logs and what a home notes changes no memory, thread, core, item or partition. -/
def OnlyNotes (s t : State) : Prop :=
  t.mem = s.mem ∧ t.threads = s.threads ∧ t.cores = s.cores ∧ t.net = s.net ∧ t.parts = s.parts ∧ t.cur = s.cur

theorem OnlyNotes.refl (s : State) : OnlyNotes s s := ⟨rfl, rfl, rfl, rfl, rfl, rfl⟩

theorem OnlyNotes.trans {s t u : State} (h : OnlyNotes s t) (g : OnlyNotes t u) : OnlyNotes s u := by
  obtain ⟨a, b, c, d, e, f⟩ := h
  obtain ⟨a', b', c', d', e', f'⟩ := g
  exact ⟨a'.trans a, b'.trans b, c'.trans c, d'.trans d, e'.trans e, f'.trans f⟩

theorem onlyNotes_setTile (s : State) (site : Nat) (x : Tile) : OnlyNotes s (s.setTile site x) := ⟨rfl, rfl, rfl, rfl, rfl, rfl⟩

/-- A fold of steps that only note things only notes things. -/
theorem onlyNotes_foldl {α : Type} (f : State → α → State) (hf : ∀ s a, OnlyNotes s (f s a)) (l : List α) (s : State) :
    OnlyNotes s (l.foldl f s) := by
  induction l generalizing s with
  | nil => exact OnlyNotes.refl s
  | cons a l ih => exact (hf s a).trans (ih (f s a))

theorem ringRecord_onlyNotes (s : State) (site b : Nat) (r : LogRec) : OnlyNotes s (s.ringRecord site b r) := by
  unfold State.ringRecord
  split <;> exact ⟨rfl, rfl, rfl, rfl, rfl, rfl⟩

theorem logRec_onlyNotes (s : State) (site : Nat) (r : LogRec) : OnlyNotes s (s.logRec site r) := by
  simp only [State.logRec]
  split
  · split
    · exact (ringRecord_onlyNotes s _ _ _).trans (onlyNotes_setTile _ _ _)
    · exact OnlyNotes.refl s
  · exact OnlyNotes.refl s

theorem log_onlyNotes (s : State) (site typ : Nat) (body : List Word) (m : Option Item) (size : Nat) :
    OnlyNotes s (s.log site typ body m size) := logRec_onlyNotes s site _

/-- What an engine has read at other homes is only noted (R364). -/
theorem logReads_onlyNotes (s : State) (site part : Nat) (id : Word) (l : List (Nat × Nat)) :
    OnlyNotes s (s.logReads site part id l) := by
  refine onlyNotes_foldl _ (fun s x => ?_) _ s
  dsimp only
  split
  · split
    · exact onlyNotes_setTile s _ _
    · exact OnlyNotes.refl s
  · split
    · exact OnlyNotes.refl s
    · split
      · refine OnlyNotes.trans ?_ (log_onlyNotes _ _ _ _ _ _)
        split
        · exact log_onlyNotes s _ _ _ _ _
        · exact OnlyNotes.refl s
      · exact OnlyNotes.refl s

theorem takeLine_onlyNotes (s : State) (site : Nat) (home : Dest) (d : Domain) : OnlyNotes s (s.takeLine site home d) := by
  unfold State.takeLine State.noteLine
  split
  · split <;> exact ⟨rfl, rfl, rfl, rfl, rfl, rfl⟩
  · exact OnlyNotes.refl s

/-- A climb changes nothing but the entries of its partition's routers (R186). -/
theorem climb_spec (s : State) (p page : Nat) (way : List Nat) (from_ : Nat) {top : Bool} {t : State}
    (h : s.climb p page way from_ = some (top, t)) :
    t.mem = s.mem ∧ t.threads = s.threads ∧ t.tiles = s.tiles ∧ t.net = s.net ∧
    (∃ r, t.part p = { s.part p with routers := r }) ∧ (∀ q, q ≠ p → t.part q = s.part q) := by
  induction way generalizing s from_ with
  | nil =>
    cases h
    exact ⟨rfl, rfl, rfl, rfl, ⟨_, rfl⟩, fun _ _ => rfl⟩
  | cons r rest ih =>
    simp only [State.climb] at h
    split at h
    · cases h
      exact ⟨rfl, rfl, rfl, rfl, ⟨_, SMap.get_put_self _ _ _ _⟩, fun q hq => SMap.get_put_ne _ _ _ hq⟩
    · split at h
      · cases h
      · obtain ⟨a, b, c, d, ⟨x, e⟩, f⟩ := ih _ _ h
        refine ⟨a, b, c, d, ⟨x, ?_⟩, fun q hq => (f q hq).trans (SMap.get_put_ne _ _ _ hq)⟩
        rw [e, show State.part (State.setPart s p _) p = _ from SMap.get_put_self _ _ _ _]

end Sys2Proof.Machine
end

