-- ==== Sys2Proof/Laws/PerInstr.lean ====
section
/-!
SUPPORT. Laws said once for each instruction. LowBits: the word of every instruction that has one ends in the bits 11, the mark
of a 32-bit RISC-V word, so no word of the part reads as a compressed one (R268, R274).
-/

namespace Sys2Proof.Laws.LowBits

/-- A well-formed instruction's word has bits 1:0 set (R268, R274). -/
def Statement (i : Instr) : Prop := i.wf = true → (encode i).toNat % 4 = 3

/-- The low bits of a word are those of its last field. -/
theorem append_low {n : Nat} (a : BitVec n) (op : BitVec 7) : (a ++ op).toNat % 4 = op.toNat % 4 := by
  rw [BitVec.toNat_append, show (4 : Nat) = 2 ^ 2 from rfl, Nat.or_mod_two_pow, Nat.shiftLeft_eq,
    show 2 ^ 7 = 32 * 2 ^ 2 from rfl, ← Nat.mul_assoc, Nat.mul_mod_left, Nat.zero_or]

theorem encR_low (f7 : BitVec 7) (b a : BitVec 5) (f3 : BitVec 3) (d : BitVec 5) (op : BitVec 7) :
    (encR f7 b a f3 d op).toNat % 4 = op.toNat % 4 := append_low _ _
theorem encI_low (i : BitVec 12) (a : BitVec 5) (f3 : BitVec 3) (d : BitVec 5) (op : BitVec 7) :
    (encI i a f3 d op).toNat % 4 = op.toNat % 4 := append_low _ _
theorem encS_low (i : BitVec 12) (b a : BitVec 5) (f3 : BitVec 3) (op : BitVec 7) :
    (encS i b a f3 op).toNat % 4 = op.toNat % 4 := append_low _ _
theorem encB_low (o : BitVec 12) (b a : BitVec 5) (f3 : BitVec 3) (op : BitVec 7) :
    (encB o b a f3 op).toNat % 4 = op.toNat % 4 := append_low _ _
theorem encU_low (i : BitVec 20) (d : BitVec 5) (op : BitVec 7) : (encU i d op).toNat % 4 = op.toNat % 4 := append_low _ _
theorem encJ_low (o : BitVec 20) (d : BitVec 5) (op : BitVec 7) : (encJ o d op).toNat % 4 = op.toNat % 4 := append_low _ _
theorem encA_low (f : BitVec 4) (o : BitVec 3) (dbl : Bool) (b : BitVec 4) (a : BitVec 5) (sc : BitVec 3) (d : BitVec 5) :
    (encA f o dbl b a sc d).toNat % 4 = 3 := append_low _ _
theorem encV_low (f : BitVec 6) (et : BitVec 3) (b a : BitVec 4) (var : BitVec 3) (d : BitVec 4) (pm : Bool) :
    (encV f et b a var d pm).toNat % 4 = 3 := append_low _ _

theorem lb (rd : Reg) (rs1 : Reg) (imm : BitVec 12) : Statement (.lb rd rs1 imm) := fun _ => encI_low _ _ _ _ _
theorem lh (rd : Reg) (rs1 : Reg) (imm : BitVec 12) : Statement (.lh rd rs1 imm) := fun _ => encI_low _ _ _ _ _
theorem lw (rd : Reg) (rs1 : Reg) (imm : BitVec 12) : Statement (.lw rd rs1 imm) := fun _ => encI_low _ _ _ _ _
theorem ld (rd : Reg) (rs1 : Reg) (imm : BitVec 12) : Statement (.ld rd rs1 imm) := fun _ => encI_low _ _ _ _ _
theorem lbu (rd : Reg) (rs1 : Reg) (imm : BitVec 12) : Statement (.lbu rd rs1 imm) := fun _ => encI_low _ _ _ _ _
theorem lhu (rd : Reg) (rs1 : Reg) (imm : BitVec 12) : Statement (.lhu rd rs1 imm) := fun _ => encI_low _ _ _ _ _
theorem lwu (rd : Reg) (rs1 : Reg) (imm : BitVec 12) : Statement (.lwu rd rs1 imm) := fun _ => encI_low _ _ _ _ _
theorem sb (rs2 : Reg) (rs1 : Reg) (imm : BitVec 12) : Statement (.sb rs2 rs1 imm) := fun _ => encS_low _ _ _ _ _
theorem sh (rs2 : Reg) (rs1 : Reg) (imm : BitVec 12) : Statement (.sh rs2 rs1 imm) := fun _ => encS_low _ _ _ _ _
theorem sw (rs2 : Reg) (rs1 : Reg) (imm : BitVec 12) : Statement (.sw rs2 rs1 imm) := fun _ => encS_low _ _ _ _ _
theorem sd (rs2 : Reg) (rs1 : Reg) (imm : BitVec 12) : Statement (.sd rs2 rs1 imm) := fun _ => encS_low _ _ _ _ _
theorem addi (rd : Reg) (rs1 : Reg) (imm : BitVec 12) : Statement (.addi rd rs1 imm) := fun _ => encI_low _ _ _ _ _
theorem slti (rd : Reg) (rs1 : Reg) (imm : BitVec 12) : Statement (.slti rd rs1 imm) := fun _ => encI_low _ _ _ _ _
theorem sltiu (rd : Reg) (rs1 : Reg) (imm : BitVec 12) : Statement (.sltiu rd rs1 imm) := fun _ => encI_low _ _ _ _ _
theorem xori (rd : Reg) (rs1 : Reg) (imm : BitVec 12) : Statement (.xori rd rs1 imm) := fun _ => encI_low _ _ _ _ _
theorem ori (rd : Reg) (rs1 : Reg) (imm : BitVec 12) : Statement (.ori rd rs1 imm) := fun _ => encI_low _ _ _ _ _
theorem andi (rd : Reg) (rs1 : Reg) (imm : BitVec 12) : Statement (.andi rd rs1 imm) := fun _ => encI_low _ _ _ _ _
theorem slli (rd : Reg) (rs1 : Reg) (sh : BitVec 6) : Statement (.slli rd rs1 sh) := fun _ => encI_low _ _ _ _ _
theorem srli (rd : Reg) (rs1 : Reg) (sh : BitVec 6) : Statement (.srli rd rs1 sh) := fun _ => encI_low _ _ _ _ _
theorem srai (rd : Reg) (rs1 : Reg) (sh : BitVec 6) : Statement (.srai rd rs1 sh) := fun _ => encI_low _ _ _ _ _
theorem addiw (rd : Reg) (rs1 : Reg) (imm : BitVec 12) : Statement (.addiw rd rs1 imm) := fun _ => encI_low _ _ _ _ _
theorem slliw (rd : Reg) (rs1 : Reg) (sh : BitVec 5) : Statement (.slliw rd rs1 sh) := fun _ => encI_low _ _ _ _ _
theorem srliw (rd : Reg) (rs1 : Reg) (sh : BitVec 5) : Statement (.srliw rd rs1 sh) := fun _ => encI_low _ _ _ _ _
theorem sraiw (rd : Reg) (rs1 : Reg) (sh : BitVec 5) : Statement (.sraiw rd rs1 sh) := fun _ => encI_low _ _ _ _ _
theorem add (rd : Reg) (rs1 : Reg) (rs2 : Reg) : Statement (.add rd rs1 rs2) := fun _ => encR_low _ _ _ _ _ _
theorem sub (rd : Reg) (rs1 : Reg) (rs2 : Reg) : Statement (.sub rd rs1 rs2) := fun _ => encR_low _ _ _ _ _ _
theorem sll (rd : Reg) (rs1 : Reg) (rs2 : Reg) : Statement (.sll rd rs1 rs2) := fun _ => encR_low _ _ _ _ _ _
theorem slt (rd : Reg) (rs1 : Reg) (rs2 : Reg) : Statement (.slt rd rs1 rs2) := fun _ => encR_low _ _ _ _ _ _
theorem sltu (rd : Reg) (rs1 : Reg) (rs2 : Reg) : Statement (.sltu rd rs1 rs2) := fun _ => encR_low _ _ _ _ _ _
theorem xor (rd : Reg) (rs1 : Reg) (rs2 : Reg) : Statement (.xor rd rs1 rs2) := fun _ => encR_low _ _ _ _ _ _
theorem srl (rd : Reg) (rs1 : Reg) (rs2 : Reg) : Statement (.srl rd rs1 rs2) := fun _ => encR_low _ _ _ _ _ _
theorem sra (rd : Reg) (rs1 : Reg) (rs2 : Reg) : Statement (.sra rd rs1 rs2) := fun _ => encR_low _ _ _ _ _ _
theorem or (rd : Reg) (rs1 : Reg) (rs2 : Reg) : Statement (.or rd rs1 rs2) := fun _ => encR_low _ _ _ _ _ _
theorem and (rd : Reg) (rs1 : Reg) (rs2 : Reg) : Statement (.and rd rs1 rs2) := fun _ => encR_low _ _ _ _ _ _
theorem mul (rd : Reg) (rs1 : Reg) (rs2 : Reg) : Statement (.mul rd rs1 rs2) := fun _ => encR_low _ _ _ _ _ _
theorem mulh (rd : Reg) (rs1 : Reg) (rs2 : Reg) : Statement (.mulh rd rs1 rs2) := fun _ => encR_low _ _ _ _ _ _
theorem mulhsu (rd : Reg) (rs1 : Reg) (rs2 : Reg) : Statement (.mulhsu rd rs1 rs2) := fun _ => encR_low _ _ _ _ _ _
theorem mulhu (rd : Reg) (rs1 : Reg) (rs2 : Reg) : Statement (.mulhu rd rs1 rs2) := fun _ => encR_low _ _ _ _ _ _
theorem div (rd : Reg) (rs1 : Reg) (rs2 : Reg) : Statement (.div rd rs1 rs2) := fun _ => encR_low _ _ _ _ _ _
theorem divu (rd : Reg) (rs1 : Reg) (rs2 : Reg) : Statement (.divu rd rs1 rs2) := fun _ => encR_low _ _ _ _ _ _
theorem rem (rd : Reg) (rs1 : Reg) (rs2 : Reg) : Statement (.rem rd rs1 rs2) := fun _ => encR_low _ _ _ _ _ _
theorem remu (rd : Reg) (rs1 : Reg) (rs2 : Reg) : Statement (.remu rd rs1 rs2) := fun _ => encR_low _ _ _ _ _ _
theorem addw (rd : Reg) (rs1 : Reg) (rs2 : Reg) : Statement (.addw rd rs1 rs2) := fun _ => encR_low _ _ _ _ _ _
theorem subw (rd : Reg) (rs1 : Reg) (rs2 : Reg) : Statement (.subw rd rs1 rs2) := fun _ => encR_low _ _ _ _ _ _
theorem sllw (rd : Reg) (rs1 : Reg) (rs2 : Reg) : Statement (.sllw rd rs1 rs2) := fun _ => encR_low _ _ _ _ _ _
theorem srlw (rd : Reg) (rs1 : Reg) (rs2 : Reg) : Statement (.srlw rd rs1 rs2) := fun _ => encR_low _ _ _ _ _ _
theorem sraw (rd : Reg) (rs1 : Reg) (rs2 : Reg) : Statement (.sraw rd rs1 rs2) := fun _ => encR_low _ _ _ _ _ _
theorem mulw (rd : Reg) (rs1 : Reg) (rs2 : Reg) : Statement (.mulw rd rs1 rs2) := fun _ => encR_low _ _ _ _ _ _
theorem divw (rd : Reg) (rs1 : Reg) (rs2 : Reg) : Statement (.divw rd rs1 rs2) := fun _ => encR_low _ _ _ _ _ _
theorem divuw (rd : Reg) (rs1 : Reg) (rs2 : Reg) : Statement (.divuw rd rs1 rs2) := fun _ => encR_low _ _ _ _ _ _
theorem remw (rd : Reg) (rs1 : Reg) (rs2 : Reg) : Statement (.remw rd rs1 rs2) := fun _ => encR_low _ _ _ _ _ _
theorem remuw (rd : Reg) (rs1 : Reg) (rs2 : Reg) : Statement (.remuw rd rs1 rs2) := fun _ => encR_low _ _ _ _ _ _
theorem lui (rd : Reg) (imm : BitVec 20) : Statement (.lui rd imm) := fun _ => encU_low _ _ _
theorem auipc (rd : Reg) (imm : BitVec 20) : Statement (.auipc rd imm) := fun _ => encU_low _ _ _
theorem jal (rd : Reg) (off : BitVec 20) : Statement (.jal rd off) := fun _ => encJ_low _ _ _
theorem jalr (rd : Reg) (rs1 : Reg) (imm : BitVec 12) : Statement (.jalr rd rs1 imm) := fun _ => encI_low _ _ _ _ _
theorem beq (rs1 : Reg) (rs2 : Reg) (off : BitVec 12) : Statement (.beq rs1 rs2 off) := fun _ => encB_low _ _ _ _ _
theorem bne (rs1 : Reg) (rs2 : Reg) (off : BitVec 12) : Statement (.bne rs1 rs2 off) := fun _ => encB_low _ _ _ _ _
theorem blt (rs1 : Reg) (rs2 : Reg) (off : BitVec 12) : Statement (.blt rs1 rs2 off) := fun _ => encB_low _ _ _ _ _
theorem bge (rs1 : Reg) (rs2 : Reg) (off : BitVec 12) : Statement (.bge rs1 rs2 off) := fun _ => encB_low _ _ _ _ _
theorem bltu (rs1 : Reg) (rs2 : Reg) (off : BitVec 12) : Statement (.bltu rs1 rs2 off) := fun _ => encB_low _ _ _ _ _
theorem bgeu (rs1 : Reg) (rs2 : Reg) (off : BitVec 12) : Statement (.bgeu rs1 rs2 off) := fun _ => encB_low _ _ _ _ _
theorem ecall : Statement .ecall := fun _ => encI_low _ _ _ _ _
theorem ebreak : Statement .ebreak := fun _ => encI_low _ _ _ _ _
theorem mret : Statement .mret := fun _ => encI_low _ _ _ _ _
theorem csrrw (rd : Reg) (csr : BitVec 12) (rs1 : Reg) : Statement (.csrrw rd csr rs1) := fun _ => encI_low _ _ _ _ _
theorem csrrs (rd : Reg) (csr : BitVec 12) (rs1 : Reg) : Statement (.csrrs rd csr rs1) := fun _ => encI_low _ _ _ _ _
theorem csrrc (rd : Reg) (csr : BitVec 12) (rs1 : Reg) : Statement (.csrrc rd csr rs1) := fun _ => encI_low _ _ _ _ _
theorem csrrwi (rd : Reg) (csr : BitVec 12) (z : BitVec 5) : Statement (.csrrwi rd csr z) := fun _ => encI_low _ _ _ _ _
theorem csrrsi (rd : Reg) (csr : BitVec 12) (z : BitVec 5) : Statement (.csrrsi rd csr z) := fun _ => encI_low _ _ _ _ _
theorem csrrci (rd : Reg) (csr : BitVec 12) (z : BitVec 5) : Statement (.csrrci rd csr z) := fun _ => encI_low _ _ _ _ _
theorem min (rd : Reg) (rs1 : Reg) (rs2 : Reg) : Statement (.min rd rs1 rs2) := fun _ => encR_low _ _ _ _ _ _
theorem max (rd : Reg) (rs1 : Reg) (rs2 : Reg) : Statement (.max rd rs1 rs2) := fun _ => encR_low _ _ _ _ _ _
theorem minu (rd : Reg) (rs1 : Reg) (rs2 : Reg) : Statement (.minu rd rs1 rs2) := fun _ => encR_low _ _ _ _ _ _
theorem maxu (rd : Reg) (rs1 : Reg) (rs2 : Reg) : Statement (.maxu rd rs1 rs2) := fun _ => encR_low _ _ _ _ _ _
theorem clz (rd : Reg) (rs1 : Reg) : Statement (.clz rd rs1) := fun _ => encR_low _ _ _ _ _ _
theorem ctz (rd : Reg) (rs1 : Reg) : Statement (.ctz rd rs1) := fun _ => encR_low _ _ _ _ _ _
theorem cpop (rd : Reg) (rs1 : Reg) : Statement (.cpop rd rs1) := fun _ => encR_low _ _ _ _ _ _
theorem bfx (rd : Reg) (rs1 : Reg) (off : BitVec 6) (width : BitVec 6) : Statement (.bfx rd rs1 off width) := fun _ => encI_low _ _ _ _ _
theorem bfxu (rd : Reg) (rs1 : Reg) (off : BitVec 6) (width : BitVec 6) : Statement (.bfxu rd rs1 off width) := fun _ => encI_low _ _ _ _ _
theorem bfi (rd : Reg) (rs1 : Reg) (off : BitVec 6) (width : BitVec 6) : Statement (.bfi rd rs1 off width) := fun _ => encI_low _ _ _ _ _
theorem loop (rs1 : Reg) (last : BitVec 12) : Statement (.loop rs1 last) := fun _ => encI_low _ _ _ _ _
theorem loopi (count : BitVec 10) (last : BitVec 12) : Statement (.loopi count last) := fun _ => encI_low _ _ _ _ _
theorem send (rs1 : Reg) : Statement (.send rs1) := fun _ => encR_low _ _ _ _ _ _
theorem sendG (rs1 : Reg) : Statement (.sendG rs1) := fun _ => encR_low _ _ _ _ _ _
theorem sendS (rs1 : Reg) : Statement (.sendS rs1) := fun _ => encR_low _ _ _ _ _ _
theorem sendGs (rs1 : Reg) : Statement (.sendGs rs1) := fun _ => encR_low _ _ _ _ _ _
theorem sendc (rs1 : Reg) (rs2 : Reg) : Statement (.sendc rs1 rs2) := fun _ => encR_low _ _ _ _ _ _
theorem commit : Statement .commit := fun _ => encR_low _ _ _ _ _ _
theorem abort : Statement .abort := fun _ => encR_low _ _ _ _ _ _
theorem spawn (rd : Reg) (rs1 : Reg) (rs2 : Reg) : Statement (.spawn rd rs1 rs2) := fun _ => encR_low _ _ _ _ _ _
theorem joindec (rd : Reg) (rs1 : Reg) : Statement (.joindec rd rs1) := fun _ => encR_low _ _ _ _ _ _
theorem launch (rs1 : Reg) : Statement (.launch rs1) := fun _ => encR_low _ _ _ _ _ _
theorem done : Statement .done := fun _ => encR_low _ _ _ _ _ _
theorem sync (order : Order) (scope : Scope) : Statement (.sync order scope) := fun _ => encR_low _ _ _ _ _ _
theorem bar (rs1 : Reg) : Statement (.bar rs1) := fun _ => encR_low _ _ _ _ _ _
theorem waitgen (rd : Reg) (rs2 : Reg) (rs1 : Reg) : Statement (.waitgen rd rs2 rs1) := fun _ => encR_low _ _ _ _ _ _
theorem handover (rs1 : Reg) (cap : BitVec 2) : Statement (.handover rs1 cap) := fun _ => encR_low _ _ _ _ _ _
theorem captest (rd : Reg) (cap : BitVec 2) : Statement (.captest rd cap) := fun _ => encR_low _ _ _ _ _ _
theorem captestId (rd : Reg) (cap : BitVec 2) : Statement (.captestId rd cap) := fun _ => encR_low _ _ _ _ _ _
theorem capdrop (cap : BitVec 2) : Statement (.capdrop cap) := fun _ => encR_low _ _ _ _ _ _
theorem tlbinv (rs1 : Reg) (rs2 : Reg) : Statement (.tlbinv rs1 rs2) := fun _ => encR_low _ _ _ _ _ _
theorem chkpt (rd : Reg) (rs1 : Reg) : Statement (.chkpt rd rs1) := fun _ => encR_low _ _ _ _ _ _
theorem selfreportScan (rs1 : Reg) (rs2 : Reg) : Statement (.selfreportScan rs1 rs2) := fun _ => encR_low _ _ _ _ _ _
theorem selfreportFail (rs1 : Reg) (rs2 : Reg) : Statement (.selfreportFail rs1 rs2) := fun _ => encR_low _ _ _ _ _ _
theorem selfreportEvent (rs1 : Reg) (rs2 : Reg) : Statement (.selfreportEvent rs1 rs2) := fun _ => encR_low _ _ _ _ _ _
theorem amoadd (order : Order) (scope : Scope) (dbl : Bool) (rd : Reg) (rs2 : BitVec 4) (rs1 : Reg) : Statement (.amoadd order scope dbl rd rs2 rs1) := fun _ => encA_low _ _ _ _ _ _ _
theorem amoand (order : Order) (scope : Scope) (dbl : Bool) (rd : Reg) (rs2 : BitVec 4) (rs1 : Reg) : Statement (.amoand order scope dbl rd rs2 rs1) := fun _ => encA_low _ _ _ _ _ _ _
theorem amoor (order : Order) (scope : Scope) (dbl : Bool) (rd : Reg) (rs2 : BitVec 4) (rs1 : Reg) : Statement (.amoor order scope dbl rd rs2 rs1) := fun _ => encA_low _ _ _ _ _ _ _
theorem amoxor (order : Order) (scope : Scope) (dbl : Bool) (rd : Reg) (rs2 : BitVec 4) (rs1 : Reg) : Statement (.amoxor order scope dbl rd rs2 rs1) := fun _ => encA_low _ _ _ _ _ _ _
theorem amomin (order : Order) (scope : Scope) (dbl : Bool) (rd : Reg) (rs2 : BitVec 4) (rs1 : Reg) : Statement (.amomin order scope dbl rd rs2 rs1) := fun _ => encA_low _ _ _ _ _ _ _
theorem amomax (order : Order) (scope : Scope) (dbl : Bool) (rd : Reg) (rs2 : BitVec 4) (rs1 : Reg) : Statement (.amomax order scope dbl rd rs2 rs1) := fun _ => encA_low _ _ _ _ _ _ _
theorem amominu (order : Order) (scope : Scope) (dbl : Bool) (rd : Reg) (rs2 : BitVec 4) (rs1 : Reg) : Statement (.amominu order scope dbl rd rs2 rs1) := fun _ => encA_low _ _ _ _ _ _ _
theorem amomaxu (order : Order) (scope : Scope) (dbl : Bool) (rd : Reg) (rs2 : BitVec 4) (rs1 : Reg) : Statement (.amomaxu order scope dbl rd rs2 rs1) := fun _ => encA_low _ _ _ _ _ _ _
theorem amoswap (order : Order) (scope : Scope) (dbl : Bool) (rd : Reg) (rs2 : BitVec 4) (rs1 : Reg) : Statement (.amoswap order scope dbl rd rs2 rs1) := fun _ => encA_low _ _ _ _ _ _ _
theorem amocas (order : Order) (scope : Scope) (dbl : Bool) (rd : Reg) (rs2 : BitVec 4) (rs1 : Reg) : Statement (.amocas order scope dbl rd rs2 rs1) := fun _ => encA_low _ _ _ _ _ _ _
theorem amofadd (order : Order) (scope : Scope) (dbl : Bool) (rd : Reg) (rs2 : BitVec 4) (rs1 : Reg) : Statement (.amofadd order scope dbl rd rs2 rs1) := fun _ => encA_low _ _ _ _ _ _ _
theorem ldf (rd : Reg) (rs1 : Reg) : Statement (.ldf rd rs1) := fun _ => encR_low _ _ _ _ _ _
theorem ldfe (rd : Reg) (rs1 : Reg) : Statement (.ldfe rd rs1) := fun _ => encR_low _ _ _ _ _ _
theorem stf (rs2 : Reg) (rs1 : Reg) : Statement (.stf rs2 rs1) := fun _ => encR_low _ _ _ _ _ _
theorem eqpush (rs2 : Reg) (rs1 : Reg) : Statement (.eqpush rs2 rs1) := fun _ => encR_low _ _ _ _ _ _
theorem eqfire (rs1 : Reg) : Statement (.eqfire rs1) := fun _ => encR_low _ _ _ _ _ _
theorem eqdone (rs1 : Reg) (rs2 : Reg) : Statement (.eqdone rs1 rs2) := fun _ => encR_low _ _ _ _ _ _
theorem eqstat (rd : Reg) (rs1 : Reg) : Statement (.eqstat rd rs1) := fun _ => encR_low _ _ _ _ _ _
theorem rdblk (rd : Reg) (rs1 : Reg) : Statement (.rdblk rd rs1) := fun _ => encR_low _ _ _ _ _ _
theorem wrblk (rd : Reg) (rs1 : Reg) : Statement (.wrblk rd rs1) := fun _ => encR_low _ _ _ _ _ _
theorem wrblkDep (rd : Reg) (rs1 : Reg) : Statement (.wrblkDep rd rs1) := fun _ => encR_low _ _ _ _ _ _
theorem copy (rd : Reg) (rs1 : Reg) : Statement (.copy rd rs1) := fun _ => encR_low _ _ _ _ _ _
theorem cpwait (rd : Reg) (rs1 : Reg) : Statement (.cpwait rd rs1) := fun _ => encR_low _ _ _ _ _ _
theorem mma (store : Bool) (decay : Bool) (zero : Bool) (rd : Reg) (acc : BitVec 3) (rs1 : Reg) (rs2 : Reg) : Statement (.mma store decay zero rd acc rs1 rs2) := fun _ => encR_low _ _ _ _ _ _
theorem fmma (store : Bool) (decay : Bool) (zero : Bool) (rd : Reg) (acc : BitVec 3) (rs1 : Reg) (rs2 : Reg) : Statement (.fmma store decay zero rd acc rs1 rs2) := fun _ => encR_low _ _ _ _ _ _
theorem mcmd (store : Bool) (decay : Bool) (zero : Bool) (cap : BitVec 2) (acc : BitVec 3) (rs1 : Reg) (rs2 : Reg) : Statement (.mcmd store decay zero cap acc rs1 rs2) := fun _ => encR_low _ _ _ _ _ _
theorem accrd (rd : Reg) (acc : BitVec 3) (rs1 : Reg) (rs2 : Reg) : Statement (.accrd rd acc rs1 rs2) := fun _ => encR_low _ _ _ _ _ _
theorem accwr (rd : Reg) (acc : BitVec 3) (rs1 : Reg) (rs2 : Reg) : Statement (.accwr rd acc rs1 rs2) := fun _ => encR_low _ _ _ _ _ _
theorem acczero (rd : Reg) (acc : BitVec 3) : Statement (.acczero rd acc) := fun _ => encR_low _ _ _ _ _ _
theorem accspill (zero : Bool) (rd : Reg) (acc : BitVec 3) (rs1 : Reg) : Statement (.accspill zero rd acc rs1) := fun _ => encR_low _ _ _ _ _ _
theorem accfill (rd : Reg) (acc : BitVec 3) (rs1 : Reg) : Statement (.accfill rd acc rs1) := fun _ => encR_low _ _ _ _ _ _
theorem mwait (rd : Reg) (rs1 : Reg) : Statement (.mwait rd rs1) := fun _ => encR_low _ _ _ _ _ _
theorem vld (et : EType) (vd : BitVec 4) (xs : BitVec 4) (pm : Bool) : Statement (.vld et vd xs pm) := fun _ => encV_low _ _ _ _ _ _ _
theorem vst (et : EType) (vd : BitVec 4) (xs : BitVec 4) (pm : Bool) : Statement (.vst et vd xs pm) := fun _ => encV_low _ _ _ _ _ _ _
theorem vlds (et : EType) (vd : BitVec 4) (xs : BitVec 4) (xt : BitVec 4) (pm : Bool) : Statement (.vlds et vd xs xt pm) := fun _ => encV_low _ _ _ _ _ _ _
theorem vsts (et : EType) (vd : BitVec 4) (xs : BitVec 4) (xt : BitVec 4) (pm : Bool) : Statement (.vsts et vd xs xt pm) := fun _ => encV_low _ _ _ _ _ _ _
theorem vgath (et : EType) (vd : BitVec 4) (xs : BitVec 4) (vi : BitVec 4) (pm : Bool) : Statement (.vgath et vd xs vi pm) := fun _ => encV_low _ _ _ _ _ _ _
theorem vscat (et : EType) (vd : BitVec 4) (xs : BitVec 4) (vi : BitVec 4) (pm : Bool) : Statement (.vscat et vd xs vi pm) := fun _ => encV_low _ _ _ _ _ _ _
theorem strcfg (st : BitVec 2) (xs : BitVec 4) : Statement (.strcfg st xs) := fun _ => encV_low _ _ _ _ _ _ _
theorem strend (st : BitVec 2) : Statement (.strend st) := fun _ => encV_low _ _ _ _ _ _ _
theorem vadd (et : EType) (vd : BitVec 4) (vs2 : BitVec 4) (vs1 : BitVec 4) (var : BitVec 3) (pm : Bool) : Statement (.vadd et vd vs2 vs1 var pm) := fun _ => encV_low _ _ _ _ _ _ _
theorem vsub (et : EType) (vd : BitVec 4) (vs2 : BitVec 4) (vs1 : BitVec 4) (var : BitVec 3) (pm : Bool) : Statement (.vsub et vd vs2 vs1 var pm) := fun _ => encV_low _ _ _ _ _ _ _
theorem vmul (et : EType) (vd : BitVec 4) (vs2 : BitVec 4) (vs1 : BitVec 4) (var : BitVec 3) (pm : Bool) : Statement (.vmul et vd vs2 vs1 var pm) := fun _ => encV_low _ _ _ _ _ _ _
theorem vmulh (et : EType) (vd : BitVec 4) (vs2 : BitVec 4) (vs1 : BitVec 4) (var : BitVec 3) (pm : Bool) : Statement (.vmulh et vd vs2 vs1 var pm) := fun _ => encV_low _ _ _ _ _ _ _
theorem vaddsat (et : EType) (vd : BitVec 4) (vs2 : BitVec 4) (vs1 : BitVec 4) (var : BitVec 3) (pm : Bool) : Statement (.vaddsat et vd vs2 vs1 var pm) := fun _ => encV_low _ _ _ _ _ _ _
theorem vsubsat (et : EType) (vd : BitVec 4) (vs2 : BitVec 4) (vs1 : BitVec 4) (var : BitVec 3) (pm : Bool) : Statement (.vsubsat et vd vs2 vs1 var pm) := fun _ => encV_low _ _ _ _ _ _ _
theorem vmin (et : EType) (vd : BitVec 4) (vs2 : BitVec 4) (vs1 : BitVec 4) (var : BitVec 3) (pm : Bool) : Statement (.vmin et vd vs2 vs1 var pm) := fun _ => encV_low _ _ _ _ _ _ _
theorem vmax (et : EType) (vd : BitVec 4) (vs2 : BitVec 4) (vs1 : BitVec 4) (var : BitVec 3) (pm : Bool) : Statement (.vmax et vd vs2 vs1 var pm) := fun _ => encV_low _ _ _ _ _ _ _
theorem vand (et : EType) (vd : BitVec 4) (vs2 : BitVec 4) (vs1 : BitVec 4) (var : BitVec 3) (pm : Bool) : Statement (.vand et vd vs2 vs1 var pm) := fun _ => encV_low _ _ _ _ _ _ _
theorem vor (et : EType) (vd : BitVec 4) (vs2 : BitVec 4) (vs1 : BitVec 4) (var : BitVec 3) (pm : Bool) : Statement (.vor et vd vs2 vs1 var pm) := fun _ => encV_low _ _ _ _ _ _ _
theorem vxor (et : EType) (vd : BitVec 4) (vs2 : BitVec 4) (vs1 : BitVec 4) (var : BitVec 3) (pm : Bool) : Statement (.vxor et vd vs2 vs1 var pm) := fun _ => encV_low _ _ _ _ _ _ _
theorem vsll (et : EType) (vd : BitVec 4) (vs2 : BitVec 4) (vs1 : BitVec 4) (var : BitVec 3) (pm : Bool) : Statement (.vsll et vd vs2 vs1 var pm) := fun _ => encV_low _ _ _ _ _ _ _
theorem vsrl (et : EType) (vd : BitVec 4) (vs2 : BitVec 4) (vs1 : BitVec 4) (var : BitVec 3) (pm : Bool) : Statement (.vsrl et vd vs2 vs1 var pm) := fun _ => encV_low _ _ _ _ _ _ _
theorem vsra (et : EType) (vd : BitVec 4) (vs2 : BitVec 4) (vs1 : BitVec 4) (var : BitVec 3) (pm : Bool) : Statement (.vsra et vd vs2 vs1 var pm) := fun _ => encV_low _ _ _ _ _ _ _
theorem vfadd (et : EType) (vd : BitVec 4) (vs2 : BitVec 4) (vs1 : BitVec 4) (rm : BitVec 3) (pm : Bool) : Statement (.vfadd et vd vs2 vs1 rm pm) := fun _ => encV_low _ _ _ _ _ _ _
theorem vfsub (et : EType) (vd : BitVec 4) (vs2 : BitVec 4) (vs1 : BitVec 4) (rm : BitVec 3) (pm : Bool) : Statement (.vfsub et vd vs2 vs1 rm pm) := fun _ => encV_low _ _ _ _ _ _ _
theorem vfmul (et : EType) (vd : BitVec 4) (vs2 : BitVec 4) (vs1 : BitVec 4) (rm : BitVec 3) (pm : Bool) : Statement (.vfmul et vd vs2 vs1 rm pm) := fun _ => encV_low _ _ _ _ _ _ _
theorem vfma (et : EType) (vd : BitVec 4) (vs2 : BitVec 4) (vs1 : BitVec 4) (rm : BitVec 3) (pm : Bool) : Statement (.vfma et vd vs2 vs1 rm pm) := fun _ => encV_low _ _ _ _ _ _ _
theorem vfnma (et : EType) (vd : BitVec 4) (vs2 : BitVec 4) (vs1 : BitVec 4) (rm : BitVec 3) (pm : Bool) : Statement (.vfnma et vd vs2 vs1 rm pm) := fun _ => encV_low _ _ _ _ _ _ _
theorem vminn (et : EType) (vd : BitVec 4) (vs2 : BitVec 4) (vs1 : BitVec 4) (pm : Bool) : Statement (.vminn et vd vs2 vs1 pm) := fun _ => encV_low _ _ _ _ _ _ _
theorem vmaxn (et : EType) (vd : BitVec 4) (vs2 : BitVec 4) (vs1 : BitVec 4) (pm : Bool) : Statement (.vmaxn et vd vs2 vs1 pm) := fun _ => encV_low _ _ _ _ _ _ _
theorem vexp2 (et : EType) (vd : BitVec 4) (vs2 : BitVec 4) (pm : Bool) : Statement (.vexp2 et vd vs2 pm) := fun _ => encV_low _ _ _ _ _ _ _
theorem vlog2 (et : EType) (vd : BitVec 4) (vs2 : BitVec 4) (pm : Bool) : Statement (.vlog2 et vd vs2 pm) := fun _ => encV_low _ _ _ _ _ _ _
theorem vrcp (et : EType) (vd : BitVec 4) (vs2 : BitVec 4) (pm : Bool) : Statement (.vrcp et vd vs2 pm) := fun _ => encV_low _ _ _ _ _ _ _
theorem vrsqrt (et : EType) (vd : BitVec 4) (vs2 : BitVec 4) (pm : Bool) : Statement (.vrsqrt et vd vs2 pm) := fun _ => encV_low _ _ _ _ _ _ _
theorem vtanh (et : EType) (vd : BitVec 4) (vs2 : BitVec 4) (pm : Bool) : Statement (.vtanh et vd vs2 pm) := fun _ => encV_low _ _ _ _ _ _ _
theorem vfabs (et : EType) (vd : BitVec 4) (vs2 : BitVec 4) (pm : Bool) : Statement (.vfabs et vd vs2 pm) := fun _ => encV_low _ _ _ _ _ _ _
theorem vfneg (et : EType) (vd : BitVec 4) (vs2 : BitVec 4) (pm : Bool) : Statement (.vfneg et vd vs2 pm) := fun _ => encV_low _ _ _ _ _ _ _
theorem vcmpeq (et : EType) (md : BitVec 2) (vs2 : BitVec 4) (vs1 : BitVec 4) (var : BitVec 3) (pm : Bool) : Statement (.vcmpeq et md vs2 vs1 var pm) := fun _ => encV_low _ _ _ _ _ _ _
theorem vcmpne (et : EType) (md : BitVec 2) (vs2 : BitVec 4) (vs1 : BitVec 4) (var : BitVec 3) (pm : Bool) : Statement (.vcmpne et md vs2 vs1 var pm) := fun _ => encV_low _ _ _ _ _ _ _
theorem vcmplt (et : EType) (md : BitVec 2) (vs2 : BitVec 4) (vs1 : BitVec 4) (var : BitVec 3) (pm : Bool) : Statement (.vcmplt et md vs2 vs1 var pm) := fun _ => encV_low _ _ _ _ _ _ _
theorem vcmple (et : EType) (md : BitVec 2) (vs2 : BitVec 4) (vs1 : BitVec 4) (var : BitVec 3) (pm : Bool) : Statement (.vcmple et md vs2 vs1 var pm) := fun _ => encV_low _ _ _ _ _ _ _
theorem vsel (et : EType) (vd : BitVec 4) (vs2 : BitVec 4) (vs1 : BitVec 4) : Statement (.vsel et vd vs2 vs1) := fun _ => encV_low _ _ _ _ _ _ _
theorem vmaskAnd (md : BitVec 2) (ma : BitVec 2) (mb : BitVec 2) : Statement (.vmaskAnd md ma mb) := fun _ => encV_low _ _ _ _ _ _ _
theorem vmaskOr (md : BitVec 2) (ma : BitVec 2) (mb : BitVec 2) : Statement (.vmaskOr md ma mb) := fun _ => encV_low _ _ _ _ _ _ _
theorem vmaskXor (md : BitVec 2) (ma : BitVec 2) (mb : BitVec 2) : Statement (.vmaskXor md ma mb) := fun _ => encV_low _ _ _ _ _ _ _
theorem vmaskAndn (md : BitVec 2) (ma : BitVec 2) (mb : BitVec 2) : Statement (.vmaskAndn md ma mb) := fun _ => encV_low _ _ _ _ _ _ _
theorem vmaskNot (md : BitVec 2) (ma : BitVec 2) : Statement (.vmaskNot md ma) := fun _ => encV_low _ _ _ _ _ _ _
theorem vmaskFromx (md : BitVec 2) (xs : BitVec 4) : Statement (.vmaskFromx md xs) := fun _ => encV_low _ _ _ _ _ _ _
theorem vmaskTox (xd : BitVec 4) (ma : BitVec 2) : Statement (.vmaskTox xd ma) := fun _ => encV_low _ _ _ _ _ _ _
theorem vmaskFirst (md : BitVec 2) (xs : BitVec 4) : Statement (.vmaskFirst md xs) := fun _ => encV_low _ _ _ _ _ _ _
theorem vredsum (et : EType) (vd : BitVec 4) (vs2 : BitVec 4) (var : BitVec 3) (pm : Bool) : Statement (.vredsum et vd vs2 var pm) := fun _ => encV_low _ _ _ _ _ _ _
theorem vredmax (et : EType) (vd : BitVec 4) (vs2 : BitVec 4) (var : BitVec 3) (pm : Bool) : Statement (.vredmax et vd vs2 var pm) := fun _ => encV_low _ _ _ _ _ _ _
theorem vargmax (et : EType) (vd : BitVec 4) (vs2 : BitVec 4) (var : BitVec 3) (pm : Bool) : Statement (.vargmax et vd vs2 var pm) := fun _ => encV_low _ _ _ _ _ _ _
theorem vcvt (et : EType) (src : BitVec 4) (vd : BitVec 4) (vs2 : BitVec 4) (rm : BitVec 3) (pm : Bool) : Statement (.vcvt et src vd vs2 rm pm) := fun _ => encV_low _ _ _ _ _ _ _
theorem vrand (vd : BitVec 4) (pm : Bool) : Statement (.vrand vd pm) := fun _ => encV_low _ _ _ _ _ _ _
theorem vrandLat (vd : BitVec 4) (xs : BitVec 4) (pm : Bool) : Statement (.vrandLat vd xs pm) := fun _ => encV_low _ _ _ _ _ _ _
theorem vmvx (et : EType) (vd : BitVec 4) (xs : BitVec 4) (xi : BitVec 4) : Statement (.vmvx et vd xs xi) := fun _ => encV_low _ _ _ _ _ _ _
theorem vmvxGet (et : EType) (nat : Bool) (xd : BitVec 4) (vs2 : BitVec 4) (xi : BitVec 4) : Statement (.vmvxGet et nat xd vs2 xi) := fun _ => encV_low _ _ _ _ _ _ _
theorem vperm (et : EType) (vd : BitVec 4) (vs2 : BitVec 4) (vs1 : BitVec 4) (pm : Bool) : Statement (.vperm et vd vs2 vs1 pm) := fun _ => encV_low _ _ _ _ _ _ _
theorem vslideup (et : EType) (vd : BitVec 4) (vs2 : BitVec 4) (xs : BitVec 4) (pm : Bool) : Statement (.vslideup et vd vs2 xs pm) := fun _ => encV_low _ _ _ _ _ _ _
theorem vslidedn (et : EType) (vd : BitVec 4) (vs2 : BitVec 4) (xs : BitVec 4) (pm : Bool) : Statement (.vslidedn et vd vs2 xs pm) := fun _ => encV_low _ _ _ _ _ _ _
theorem vzip (et : EType) (vd : BitVec 4) (vs2 : BitVec 4) (vs1 : BitVec 4) (pm : Bool) : Statement (.vzip et vd vs2 vs1 pm) := fun _ => encV_low _ _ _ _ _ _ _
theorem vunzip (et : EType) (odd : Bool) (vd : BitVec 4) (vs2 : BitVec 4) (vs1 : BitVec 4) (pm : Bool) : Statement (.vunzip et odd vd vs2 vs1 pm) := fun _ => encV_low _ _ _ _ _ _ _
theorem vbcast (et : EType) (vd : BitVec 4) (xs : BitVec 4) (pm : Bool) : Statement (.vbcast et vd xs pm) := fun _ => encV_low _ _ _ _ _ _ _
theorem powerUp (bad : Nat) (failed : List (Nat × Nat)) : Statement (.powerUp bad failed) := fun h => nomatch h
theorem imageUpdateCommit (update : ImageUpdate) : Statement (.imageUpdateCommit update) := fun h => nomatch h
theorem thermalShutdown : Statement .thermalShutdown := fun h => nomatch h
theorem droopTrip (region : Nat) : Statement (.droopTrip region) := fun h => nomatch h
theorem droopClear (region : Nat) : Statement (.droopClear region) := fun h => nomatch h
theorem thermalTrip (region : Nat) : Statement (.thermalTrip region) := fun h => nomatch h
theorem thermalClear (region : Nat) : Statement (.thermalClear region) := fun h => nomatch h
theorem powerCapTrip (region : Nat) : Statement (.powerCapTrip region) := fun h => nomatch h
theorem powerCapClear (region : Nat) : Statement (.powerCapClear region) := fun h => nomatch h
theorem governorWindow (region : Nat) (estimate : Nat) (drawn : Nat) : Statement (.governorWindow region estimate drawn) := fun h => nomatch h
theorem launchWaveForward (k : Nat) : Statement (.launchWaveForward k) := fun h => nomatch h
theorem csteplimWrite (region : Nat) (val : Word) : Statement (.csteplimWrite region val) := fun h => nomatch h
theorem portStatusWrite (port : Nat) (val : Word) : Statement (.portStatusWrite port val) := fun h => nomatch h
theorem registerWrite (fn : Nat) (off : Nat) (size : Nat) (val : Word) : Statement (.registerWrite fn off size val) := fun h => nomatch h
theorem qbaseWrite (fn : Nat) (q : Nat) (val : Word) : Statement (.qbaseWrite fn q val) := fun h => nomatch h
theorem qcfgWrite (fn : Nat) (q : Nat) (val : Word) : Statement (.qcfgWrite fn q val) := fun h => nomatch h
theorem qnotifyWrite (fn : Nat) (q : Nat) (val : Word) : Statement (.qnotifyWrite fn q val) := fun h => nomatch h
theorem qstatWrite (fn : Nat) (q : Nat) (val : Word) : Statement (.qstatWrite fn q val) := fun h => nomatch h
theorem packetTake (part : Nat) (ctl : Nat) : Statement (.packetTake part ctl) := fun h => nomatch h
theorem validPoll (fn : Nat) (q : Nat) : Statement (.validPoll fn q) := fun h => nomatch h
theorem packetComplete (k : Nat) : Statement (.packetComplete k) := fun h => nomatch h
theorem launchPacket (k : Nat) : Statement (.launchPacket k) := fun h => nomatch h
theorem copyPacket (k : Nat) : Statement (.copyPacket k) := fun h => nomatch h
theorem barrierAndPacket (k : Nat) : Statement (.barrierAndPacket k) := fun h => nomatch h
theorem barrierOrPacket (k : Nat) : Statement (.barrierOrPacket k) := fun h => nomatch h
theorem barrierEvaluation (k : Nat) : Statement (.barrierEvaluation k) := fun h => nomatch h
theorem signalStore (k : Nat) : Statement (.signalStore k) := fun h => nomatch h
theorem signalAdd (k : Nat) : Statement (.signalAdd k) := fun h => nomatch h
theorem signalSubtract (k : Nat) : Statement (.signalSubtract k) := fun h => nomatch h
theorem graphReplayPacket (k : Nat) : Statement (.graphReplayPacket k) := fun h => nomatch h
theorem graphReplayStart (k : Nat) : Statement (.graphReplayStart k) := fun h => nomatch h
theorem expertQueueConfiguration (k : Nat) : Statement (.expertQueueConfiguration k) := fun h => nomatch h
theorem recoveryPoint (k : Nat) : Statement (.recoveryPoint k) := fun h => nomatch h
theorem segmentAcknowledgement (part : Nat) (seg : Nat) : Statement (.segmentAcknowledgement part seg) := fun h => nomatch h
theorem quote (k : Nat) : Statement (.quote k) := fun h => nomatch h
theorem create (k : Nat) : Statement (.create k) := fun h => nomatch h
theorem destroy (k : Nat) : Statement (.destroy k) := fun h => nomatch h
theorem bindvf (k : Nat) : Statement (.bindvf k) := fun h => nomatch h
theorem unbindvf (k : Nat) : Statement (.unbindvf k) := fun h => nomatch h
theorem egress (k : Nat) : Statement (.egress k) := fun h => nomatch h
theorem cstep (k : Nat) : Statement (.cstep k) := fun h => nomatch h
theorem selftest (k : Nat) : Statement (.selftest k) := fun h => nomatch h
theorem devid (k : Nat) : Statement (.devid k) := fun h => nomatch h
theorem readmit (k : Nat) : Statement (.readmit k) := fun h => nomatch h
theorem modes (k : Nat) : Statement (.modes k) := fun h => nomatch h
theorem events (k : Nat) : Statement (.events k) := fun h => nomatch h
theorem switchout (k : Nat) : Statement (.switchout k) := fun h => nomatch h
theorem switchin (k : Nat) : Statement (.switchin k) := fun h => nomatch h
theorem assist (k : Nat) : Statement (.assist k) := fun h => nomatch h
theorem restore (k : Nat) : Statement (.restore k) := fun h => nomatch h
theorem assistTimeout (token : Nat) : Statement (.assistTimeout token) := fun h => nomatch h
theorem terminationWave (part : Nat) (job : Nat) : Statement (.terminationWave part job) := fun h => nomatch h
theorem slotFill (site : Nat) (core : Nat) : Statement (.slotFill site core) := fun h => nomatch h
theorem stealRequest (k : Nat) : Statement (.stealRequest k) := fun h => nomatch h
theorem stealAnswer (k : Nat) : Statement (.stealAnswer k) := fun h => nomatch h
theorem stealSweepWait (site : Nat) (core : Nat) : Statement (.stealSweepWait site core) := fun h => nomatch h
theorem budgetOverrun (hart : Nat) : Statement (.budgetOverrun hart) := fun h => nomatch h
theorem preemptionRequest (site : Nat) (core : Nat) : Statement (.preemptionRequest site core) := fun h => nomatch h
theorem preemptionComplete (site : Nat) (core : Nat) : Statement (.preemptionComplete site core) := fun h => nomatch h
theorem quantumEnd (part : Nat) : Statement (.quantumEnd part) := fun h => nomatch h
theorem scanSlice (site : Nat) (core : Nat) (pass : Bool) : Statement (.scanSlice site core pass) := fun h => nomatch h
theorem selfTestDeadline (site : Nat) (core : Nat) : Statement (.selfTestDeadline site core) := fun h => nomatch h
theorem messageArrival (k : Nat) : Statement (.messageArrival k) := fun h => nomatch h
theorem messageAcknowledgement (k : Nat) : Statement (.messageAcknowledgement k) := fun h => nomatch h
theorem resendBackoff (k : Nat) : Statement (.resendBackoff k) := fun h => nomatch h
theorem remoteStoreArrival (k : Nat) : Statement (.remoteStoreArrival k) := fun h => nomatch h
theorem remoteAtomicPerform (k : Nat) : Statement (.remoteAtomicPerform k) := fun h => nomatch h
theorem responseArrival (k : Nat) : Statement (.responseArrival k) := fun h => nomatch h
theorem faultMessage (k : Nat) : Statement (.faultMessage k) := fun h => nomatch h
theorem wake (part : Nat) (page : Nat) (present : Bool) : Statement (.wake part page present) := fun h => nomatch h
theorem engineChunk (site : Nat) (ch : Nat) (lines : List Nat) : Statement (.engineChunk site ch lines) := fun h => nomatch h
theorem chunkRetry (site : Nat) (ch : Nat) : Statement (.chunkRetry site ch) := fun h => nomatch h
theorem matrixCommandStart (site : Nat) : Statement (.matrixCommandStart site) := fun h => nomatch h
theorem matrixChunk (site : Nat) : Statement (.matrixChunk site) := fun h => nomatch h
theorem floeChunkCommit (part : Nat) : Statement (.floeChunkCommit part) := fun h => nomatch h
theorem floeReform (part : Nat) (failed : Nat) : Statement (.floeReform part failed) := fun h => nomatch h
theorem matrixCommandComplete (site : Nat) : Statement (.matrixCommandComplete site) := fun h => nomatch h
theorem transferComplete (site : Nat) (ch : Nat) : Statement (.transferComplete site ch) := fun h => nomatch h
theorem pushAccept (k : Nat) : Statement (.pushAccept k) := fun h => nomatch h
theorem entryAge (site : Nat) (q : Nat) : Statement (.entryAge site q) := fun h => nomatch h
theorem expertFiring (site : Nat) : Statement (.expertFiring site) := fun h => nomatch h
theorem eqfireArrival (k : Nat) : Statement (.eqfireArrival k) := fun h => nomatch h
theorem eqdoneArrival (k : Nat) : Statement (.eqdoneArrival k) := fun h => nomatch h
theorem eqstatRequest (k : Nat) : Statement (.eqstatRequest k) := fun h => nomatch h
theorem deposit (k : Nat) : Statement (.deposit k) := fun h => nomatch h
theorem barrierArrival (k : Nat) : Statement (.barrierArrival k) := fun h => nomatch h
theorem capabilityReturnNotice (k : Nat) : Statement (.capabilityReturnNotice k) := fun h => nomatch h
theorem invalidationAcknowledgement (hart : Nat) : Statement (.invalidationAcknowledgement hart) := fun h => nomatch h
theorem intervalClose (site : Nat) : Statement (.intervalClose site) := fun h => nomatch h
theorem checkpointBoundary (site : Nat) : Statement (.checkpointBoundary site) := fun h => nomatch h
theorem intervalCommit (site : Nat) : Statement (.intervalCommit site) := fun h => nomatch h
theorem tileFailure (site : Nat) (cause : Nat) : Statement (.tileFailure site cause) := fun h => nomatch h
theorem hardwareWatchdog (event : WatchdogEvent) : Statement (.hardwareWatchdog event) := fun h => nomatch h
theorem uncorrectableError (kind : Nat) (at_ : Nat) : Statement (.uncorrectableError kind at_) := fun h => nomatch h
theorem firnRestore (site : Nat) (bad : Nat) : Statement (.firnRestore site bad) := fun h => nomatch h
theorem replayEnd (site : Nat) : Statement (.replayEnd site) := fun h => nomatch h
theorem retirementAppend : Statement .retirementAppend := fun h => nomatch h
theorem partitionRollback (part : Nat) : Statement (.partitionRollback part) := fun h => nomatch h
theorem scrub (site : Nat) (bonded : Nat) (scratch : Nat) : Statement (.scrub site bonded scratch) := fun h => nomatch h
theorem bankRebuild (event : BankEvent) : Statement (.bankRebuild event) := fun h => nomatch h
theorem flitReceive (port : Nat) (crcOk : Bool) (ask : Option Nat) (lanes : Nat) (words : List Word) : Statement (.flitReceive port crcOk ask lanes words) := fun h => nomatch h
theorem illegalInstruction (word : BitVec 32) : Statement (.illegalInstruction word) := fun h => nomatch h
theorem modulePowerLoss (stage : Nat) : Statement (.modulePowerLoss stage) := fun h => nomatch h
theorem remoteLoadArrival (k : Nat) : Statement (.remoteLoadArrival k) := fun h => nomatch h
theorem mcmdArrival (k : Nat) : Statement (.mcmdArrival k) := fun h => nomatch h
theorem spawnFrameArrival (k : Nat) : Statement (.spawnFrameArrival k) := fun h => nomatch h
theorem segmentReadBack (part : Nat) (seg : Nat) (crcOk : Bool) : Statement (.segmentReadBack part seg crcOk) := fun h => nomatch h
theorem hbmStackRetrain (stack : Nat) (ok : Bool) : Statement (.hbmStackRetrain stack ok) := fun h => nomatch h

end Sys2Proof.Laws.LowBits
end

