-- ==== Sys2Proof/Tests/Slice0.lean ====
section
/-!
SUPPORT. Tests of the model's own: well-formedness and decoding against words written out bit by bit, single steps with the
results the spec writes out, and for each statement of Certificates/Slice0/Obligations.lean a state that meets its hypotheses
(theorems named witness_<statement>).
-/

namespace Sys2Proof.Tests

-- One thread at a time: the evaluations below are checked as they come.
set_option Elab.async false

open Sys2Proof Sys2Proof.Machine

/-! ### Well-formedness (R268, R313, R336, R341-R357) -/

/-- Whether every instruction of a list has no word. -/
def allIll (l : List Instr) : Bool := l.all fun i => !i.wf

/-- LOOP and LOOPI with L = 0, and a relaxed SYNC (R307, R323). -/
theorem test_wf_scalar : allIll [.loop 1 0, .loopi 1 0, .sync .relaxed .tile] = true := by decide +kernel

/-- The natural bit where it has no meaning, bit 14, a float type with a variant, and types an instruction lacks (R343, R346). -/
theorem test_wf_vector_integer : allIll [.vadd .i32 1 2 3 2 false, .vadd .f32 1 2 3 0 false, .vmulh .i8 1 2 3 4 false,
    .vmin .f32 1 2 3 1 false, .vmin .e4m3 1 2 3 0 false, .vsra .i16 1 2 3 2 false, .vcmpeq .i32 1 2 3 2 false,
    .vcmplt .bf16 1 2 3 2 false, .vmvx .f32 1 2 3, .vbcast .bf16 1 2 false, .vperm .f16 1 2 3 false] = true := by decide +kernel

/-- Rounding fields 4, 5 and 6, types without the instruction, type code 12 and a seed register past x14 (R254, R344-R354). -/
theorem test_wf_vector_float : allIll [.vfadd .f32 1 2 3 4 false, .vfma .bf16 1 2 3 5 false, .vfmul .i32 1 2 3 0 false,
    .vminn .i8 1 2 3 false, .vexp2 .f16 1 2 false, .vtanh .i32 1 2 false, .vfabs .i8 1 2 false, .vredsum .i32 1 2 2 false,
    .vredsum .f32 1 2 4 false, .vargmax .f32 1 2 2 false, .vcvt .f32 12 1 2 0 false, .vcvt .f32 3 1 2 5 false,
    .vrandLat 1 15 false] = true := by decide +kernel

/-- The part's own steps, and the kinds of SELFREPORT that share a word, have none here (R388). -/
theorem test_wf_steps : allIll [.thermalShutdown, .packetTake 0 0, .messageArrival 0, .illegalInstruction 0, .selfreportFail 1 2,
    .selfreportEvent 1 2] = true := by decide +kernel

/-! ### Decoding -/

/-- Whether each word decodes to its instruction. -/
def decodesTo (l : List (BitVec 32 × Instr)) : Bool :=
  l.all fun x => match decodeWord x.1 with | .ok i => i == x.2 | .error _ => false

/-- Whether each word is refused. -/
def refused (l : List (BitVec 32)) : Bool := l.all fun x => match decodeWord x with | .ok _ => false | .error _ => true

/-- Words the spec prints beside their statements: the listings of spec/14_encoding.md to spec/22_programs_sparse.md. -/
theorem test_words_listed : decodesTo [
    (0x00B502B3#32, .add 5 10 11), (0x00000313#32, .addi 6 0 0), (0x00533023#32, .sd 5 6 0), (0xFE00600B#32, .done),
    (0x03B6252B#32, .amoadd .acquire .tile true 10 11 12), (0x6E0903DB#32, .vfma .bf16 3 1 2 0 true), (0x0034500B#32, .loopi 8 3),
    (0x00033383#32, .ld 7 6 0), (0x2042A58B#32, .bfxu 11 5 4 8), (0x200E6E8B#32, .spawn 29 28 0),
    (0x01B6402B#32, .amoadd .relaxed .partition true 0 11 12), (0x2206600B#32, .joindec 0 12), (0x1015700B#32, .handover 10 1),
    (0x0205700B#32, .bar 10), (0x0005E52B#32, .ldf 10 11), (0x18028C5B#32, .strcfg 0 5), (0x18028D5B#32, .strcfg 1 5),
    (0x6DE6815B#32, .vfma .f32 1 12 13 0 false), (0xC188025B#32, .vredsum .f32 2 1 0 false)] = true := by decide +kernel
theorem test_words_listed_more : decodesTo [
    (0xD413475B#32, .vmvxGet .i32 false 7 2 6), (0x00734E7B#32, .accwr 28 0 6 7), (0x600E8F7B#32, .mma true true false 30 0 29 0),
    (0x000F7FFB#32, .mwait 31 30), (0x000572AB#32, .rdblk 5 10), (0x20B5602B#32, .eqpush 11 10), (0xCC0022F3#32, .csrrs 5 0xCC0 0),
    (0xD003415B#32, .vrandLat 1 6 false), (0x500D115B#32, .vsrl .i32 1 1 10 1 false), (0x100E035B#32, .vgath .i32 3 12 1 false),
    (0xA811A05B#32, .vcmplt .i32 0 2 3 2 false), (0xB00A055B#32, .vsel .i32 5 1 4), (0x0A0B050B#32, .ctz 10 22),
    (0x3F0002B7#32, .lui 5 0x3F000), (0x50030E7B#32, .mma true false true 28 0 6 0), (0x500792FB#32, .fmma true false true 5 0 15 0),
    (0xF403815B#32, .vbcast .i32 1 7 false), (0x0186825B#32, .vld .f32 2 13 false), (0x0404702B#32, .wrblkDep 0 8),
    (0x2509602B#32, .eqdone 18 16)] = true := by decide +kernel

/-- Words that are no instruction: those of the table after R289 in spec/14_encoding.md, then a field an instruction does not
use set, order 5, scope 6, a relaxed SYNC, L = 0, rounding 5, type code 12, and a compressed word (R268). -/
theorem test_words_refused : refused [0x00000000#32, 0xFFFFFFFF#32, 0x0000000F#32, 0x5800005B#32,
    0b0000000_00001_00010_110_00000_0001011#32, 0b0000_101_0_0011_00010_000_00001_0101011#32,
    0b0000_001_0_0011_00010_110_00001_0101011#32, 0b000000000000_00001_100_00000_0001011#32,
    0b011000_011_0001_0010_101_0011_0_1011011#32, 0b110011_011_0001_1100_000_0011_0_1011011#32, 0x00004501#32] = true := by
  decide +kernel

/-- The table's numbering is the decoder's (one 32-bit word); anything else is no instruction. -/
theorem test_table_word : decodeTableWord 32 0x00500093 = some (.addi 1 0 5) ∧ decodeTableWord 32 0 = none := by decide +kernel

/-! ### One word of each instruction, its fields written out from spec/14_encoding.md and the format each family gives -/

theorem test_words_loads_stores : decodesTo [
    (0b100110100101_01010_000_10101_0000011#32, .lb 21 10 2469),
    (0b100110100101_01010_001_10101_0000011#32, .lh 21 10 2469),
    (0b100110100101_01010_010_10101_0000011#32, .lw 21 10 2469),
    (0b100110100101_01010_011_10101_0000011#32, .ld 21 10 2469),
    (0b100110100101_01010_100_10101_0000011#32, .lbu 21 10 2469),
    (0b100110100101_01010_101_10101_0000011#32, .lhu 21 10 2469),
    (0b100110100101_01010_110_10101_0000011#32, .lwu 21 10 2469),
    (0b1001101_10101_01010_000_00101_0100011#32, .sb 21 10 2469),
    (0b1001101_10101_01010_001_00101_0100011#32, .sh 21 10 2469),
    (0b1001101_10101_01010_010_00101_0100011#32, .sw 21 10 2469),
    (0b1001101_10101_01010_011_00101_0100011#32, .sd 21 10 2469)] = true := by decide +kernel

theorem test_words_immediate : decodesTo [
    (0b100110100101_01010_000_10101_0010011#32, .addi 21 10 2469),
    (0b100110100101_01010_010_10101_0010011#32, .slti 21 10 2469),
    (0b100110100101_01010_011_10101_0010011#32, .sltiu 21 10 2469),
    (0b100110100101_01010_100_10101_0010011#32, .xori 21 10 2469),
    (0b100110100101_01010_110_10101_0010011#32, .ori 21 10 2469),
    (0b100110100101_01010_111_10101_0010011#32, .andi 21 10 2469),
    (0b000000_101001_01010_001_10101_0010011#32, .slli 21 10 41),
    (0b000000_101001_01010_101_10101_0010011#32, .srli 21 10 41),
    (0b010000_101001_01010_101_10101_0010011#32, .srai 21 10 41),
    (0b100110100101_01010_000_10101_0011011#32, .addiw 21 10 2469),
    (0b0000000_10011_01010_001_10101_0011011#32, .slliw 21 10 19),
    (0b0000000_10011_01010_101_10101_0011011#32, .srliw 21 10 19),
    (0b0100000_10011_01010_101_10101_0011011#32, .sraiw 21 10 19),
    (0b10100001101100101100_10101_0110111#32, .lui 21 662316),
    (0b10100001101100101100_10101_0010111#32, .auipc 21 662316)] = true := by decide +kernel

theorem test_words_register : decodesTo [
    (0b0000000_00110_01010_000_10101_0110011#32, .add 21 10 6),
    (0b0100000_00110_01010_000_10101_0110011#32, .sub 21 10 6),
    (0b0000000_00110_01010_001_10101_0110011#32, .sll 21 10 6),
    (0b0000000_00110_01010_010_10101_0110011#32, .slt 21 10 6),
    (0b0000000_00110_01010_011_10101_0110011#32, .sltu 21 10 6),
    (0b0000000_00110_01010_100_10101_0110011#32, .xor 21 10 6),
    (0b0000000_00110_01010_101_10101_0110011#32, .srl 21 10 6),
    (0b0100000_00110_01010_101_10101_0110011#32, .sra 21 10 6),
    (0b0000000_00110_01010_110_10101_0110011#32, .or 21 10 6),
    (0b0000000_00110_01010_111_10101_0110011#32, .and 21 10 6),
    (0b0000000_00110_01010_000_10101_0111011#32, .addw 21 10 6),
    (0b0100000_00110_01010_000_10101_0111011#32, .subw 21 10 6),
    (0b0000000_00110_01010_001_10101_0111011#32, .sllw 21 10 6),
    (0b0000000_00110_01010_101_10101_0111011#32, .srlw 21 10 6),
    (0b0100000_00110_01010_101_10101_0111011#32, .sraw 21 10 6)] = true := by decide +kernel

theorem test_words_multiply_divide : decodesTo [
    (0b0000001_00110_01010_000_10101_0110011#32, .mul 21 10 6),
    (0b0000001_00110_01010_001_10101_0110011#32, .mulh 21 10 6),
    (0b0000001_00110_01010_010_10101_0110011#32, .mulhsu 21 10 6),
    (0b0000001_00110_01010_011_10101_0110011#32, .mulhu 21 10 6),
    (0b0000001_00110_01010_100_10101_0110011#32, .div 21 10 6),
    (0b0000001_00110_01010_101_10101_0110011#32, .divu 21 10 6),
    (0b0000001_00110_01010_110_10101_0110011#32, .rem 21 10 6),
    (0b0000001_00110_01010_111_10101_0110011#32, .remu 21 10 6),
    (0b0000001_00110_01010_000_10101_0111011#32, .mulw 21 10 6),
    (0b0000001_00110_01010_100_10101_0111011#32, .divw 21 10 6),
    (0b0000001_00110_01010_101_10101_0111011#32, .divuw 21 10 6),
    (0b0000001_00110_01010_110_10101_0111011#32, .remw 21 10 6),
    (0b0000001_00110_01010_111_10101_0111011#32, .remuw 21 10 6)] = true := by decide +kernel

theorem test_words_control : decodesTo [
    (0b1_1110100101_0_00111000_10101_1101111#32, .jal 21 639909),
    (0b100110100101_01010_000_10101_1100111#32, .jalr 21 10 2469),
    (0b1_110100_01010_10101_000_1101_0_1100011#32, .beq 21 10 2893),
    (0b1_110100_01010_10101_001_1101_0_1100011#32, .bne 21 10 2893),
    (0b1_110100_01010_10101_100_1101_0_1100011#32, .blt 21 10 2893),
    (0b1_110100_01010_10101_101_1101_0_1100011#32, .bge 21 10 2893),
    (0b1_110100_01010_10101_110_1101_0_1100011#32, .bltu 21 10 2893),
    (0b1_110100_01010_10101_111_1101_0_1100011#32, .bgeu 21 10 2893),
    (0b00000000000000000000000001110011#32, .ecall),
    (0b00000000000100000000000001110011#32, .ebreak),
    (0b00110000001000000000000001110011#32, .mret),
    (0b001101000001_01010_001_10101_1110011#32, .csrrw 21 833 10),
    (0b001101000001_01010_010_10101_1110011#32, .csrrs 21 833 10),
    (0b001101000001_01010_011_10101_1110011#32, .csrrc 21 833 10),
    (0b001101000001_10110_101_10101_1110011#32, .csrrwi 21 833 22),
    (0b001101000001_10110_110_10101_1110011#32, .csrrsi 21 833 22),
    (0b001101000001_10110_111_10101_1110011#32, .csrrci 21 833 22),
    (0b100000110101_10101_100000000001011#32, .loop 21 2101),
    (0b100000110101_01101_101_10011_0001011#32, .loopi 621 2101)] = true := by decide +kernel

theorem test_words_bit_field : decodesTo [
    (0b0000000_00110_01010_000_10101_0001011#32, .min 21 10 6),
    (0b0000001_00110_01010_000_10101_0001011#32, .max 21 10 6),
    (0b0000010_00110_01010_000_10101_0001011#32, .minu 21 10 6),
    (0b0000011_00110_01010_000_10101_0001011#32, .maxu 21 10 6),
    (0b000010000000_01010_000_10101_0001011#32, .clz 21 10),
    (0b000010100000_01010_000_10101_0001011#32, .ctz 21 10),
    (0b000011000000_01010_000_10101_0001011#32, .cpop 21 10),
    (0b100110_011011_01010_001_10101_0001011#32, .bfx 21 10 27 38),
    (0b100110_011011_01010_010_10101_0001011#32, .bfxu 21 10 27 38),
    (0b100110_011011_01010_011_10101_0001011#32, .bfi 21 10 27 38)] = true := by decide +kernel

theorem test_words_messages : decodesTo [
    (0b000000000000_10101_110000000001011#32, .send 21),
    (0b000000100000_10101_110000000001011#32, .sendG 21),
    (0b000001000000_10101_110000000001011#32, .sendS 21),
    (0b000001100000_10101_110000000001011#32, .sendGs 21),
    (0b0000100_01010_10101_110000000001011#32, .sendc 21 10),
    (0b00010000000000000110000000001011#32, .commit),
    (0b00010010000000000110000000001011#32, .abort),
    (0b0010000_00110_01010_110_10101_0001011#32, .spawn 21 10 6),
    (0b001000100000_01010_110_10101_0001011#32, .joindec 21 10),
    (0b001100000000_10101_110000000001011#32, .launch 21),
    (0b11111110000000000110000000001011#32, .done),
    (0b000000000_011_00_100_111000000001011#32, .sync .acqRel .partition),
    (0b000000100000_10101_111000000001011#32, .bar 21),
    (0b0000010_01010_00110_111_10101_0001011#32, .waitgen 21 10 6),
    (0b0001000000_10_10101_111000000001011#32, .handover 21 2),
    (0b0001001000_10_00000111_10101_0001011#32, .captest 21 2),
    (0b0001001000_10_00001111_10101_0001011#32, .captestId 21 2),
    (0b0001010000_10_00000111000000001011#32, .capdrop 2),
    (0b0010000_01010_10101_111000000001011#32, .tlbinv 21 10),
    (0b001000100000_01010_111_10101_0001011#32, .chkpt 21 10),
    (0b0010010_01010_10101_111000000001011#32, .selfreportScan 21 10)] = true := by decide +kernel

theorem test_words_atomics : decodesTo [
    (0b0000_011_1_1001_01010_100_10101_0101011#32, .amoadd .acqRel .partition true 21 9 10),
    (0b0001_011_1_1001_01010_100_10101_0101011#32, .amoand .acqRel .partition true 21 9 10),
    (0b0010_011_1_1001_01010_100_10101_0101011#32, .amoor .acqRel .partition true 21 9 10),
    (0b0011_011_1_1001_01010_100_10101_0101011#32, .amoxor .acqRel .partition true 21 9 10),
    (0b0100_011_1_1001_01010_100_10101_0101011#32, .amomin .acqRel .partition true 21 9 10),
    (0b0101_011_1_1001_01010_100_10101_0101011#32, .amomax .acqRel .partition true 21 9 10),
    (0b0110_011_1_1001_01010_100_10101_0101011#32, .amominu .acqRel .partition true 21 9 10),
    (0b0111_011_1_1001_01010_100_10101_0101011#32, .amomaxu .acqRel .partition true 21 9 10),
    (0b1000_011_1_1001_01010_100_10101_0101011#32, .amoswap .acqRel .partition true 21 9 10),
    (0b1001_011_1_1001_01010_100_10101_0101011#32, .amocas .acqRel .partition true 21 9 10),
    (0b1010_011_1_1001_01010_100_10101_0101011#32, .amofadd .acqRel .partition true 21 9 10),
    (0b000000000000_01010_110_10101_0101011#32, .ldf 21 10),
    (0b000000100000_01010_110_10101_0101011#32, .ldfe 21 10),
    (0b0000010_10101_01010_110000000101011#32, .stf 21 10)] = true := by decide +kernel

theorem test_words_experts_copies : decodesTo [
    (0b0010000_10101_01010_110000000101011#32, .eqpush 21 10),
    (0b001000100000_10101_110000000101011#32, .eqfire 21),
    (0b0010010_01010_10101_110000000101011#32, .eqdone 21 10),
    (0b001001100000_01010_110_10101_0101011#32, .eqstat 21 10),
    (0b000000000000_01010_111_10101_0101011#32, .rdblk 21 10),
    (0b000000100000_01010_111_10101_0101011#32, .wrblk 21 10),
    (0b000001000000_01010_111_10101_0101011#32, .wrblkDep 21 10),
    (0b000100000000_01010_111_10101_0101011#32, .copy 21 10),
    (0b000100100000_01010_111_10101_0101011#32, .cpwait 21 10)] = true := by decide +kernel

theorem test_words_matrix : decodesTo [
    (0b0_1_0_1_101_00110_01010_000_10101_1111011#32, .mma true false true 21 5 10 6),
    (0b0_1_0_1_101_00110_01010_001_10101_1111011#32, .fmma true false true 21 5 10 6),
    (0b0_1_0_1_101_01010_10101_010000_10_1111011#32, .mcmd true false true 2 5 21 10),
    (0b0000_101_00110_01010_011_10101_1111011#32, .accrd 21 5 10 6),
    (0b0000_101_00110_01010_100_10101_1111011#32, .accwr 21 5 10 6),
    (0b0000_101_0000000000101_10101_1111011#32, .acczero 21 5),
    (0b000_1_101_00000_01010_110_10101_1111011#32, .accspill true 21 5 10),
    (0b1000_101_00000_01010_110_10101_1111011#32, .accfill 21 5 10),
    (0b000000000000_01010_111_10101_1111011#32, .mwait 21 10)] = true := by decide +kernel

theorem test_words_vector_memory : decodesTo [
    (0b000000_110_0000_0110_000_1001_1_1011011#32, .vld .e4m3 9 6 true),
    (0b000001_111_0000_0110_000_1001_1_1011011#32, .vst .e5m2 9 6 true),
    (0b000010_001_1100_0110_000_1001_1_1011011#32, .vlds .i16 9 6 12 true),
    (0b000011_001_1100_0110_000_1001_1_1011011#32, .vsts .i16 9 6 12 true),
    (0b000100_000_1100_0110_000_1001_1_1011011#32, .vgath .i32 9 6 12 true),
    (0b000101_001_1100_0110_000_1001_1_1011011#32, .vscat .i16 9 6 12 true),
    (0b0001100000000_1001_00011_10_01011011#32, .strcfg 2 9),
    (0b0001110000000000000011_10_01011011#32, .strend 2)] = true := by decide +kernel

theorem test_words_vector_integer : decodesTo [
    (0b001000_001_0110_1100_001_1001_1_1011011#32, .vadd .i16 9 6 12 1 true),
    (0b001001_001_0110_1100_001_1001_1_1011011#32, .vsub .i16 9 6 12 1 true),
    (0b001010_001_0110_1100_001_1001_1_1011011#32, .vmul .i16 9 6 12 1 true),
    (0b001011_001_0110_1100_010_1001_1_1011011#32, .vmulh .i16 9 6 12 2 true),
    (0b001100_001_0110_1100_011_1001_1_1011011#32, .vaddsat .i16 9 6 12 3 true),
    (0b001101_010_0110_1100_010_1001_1_1011011#32, .vsubsat .i8 9 6 12 2 true),
    (0b001110_010_0110_1100_011_1001_1_1011011#32, .vmin .i8 9 6 12 3 true),
    (0b001111_101_0110_1100_000_1001_1_1011011#32, .vmax .f16 9 6 12 0 true),
    (0b010000_001_0110_1100_001_1001_1_1011011#32, .vand .i16 9 6 12 1 true),
    (0b010001_001_0110_1100_001_1001_1_1011011#32, .vor .i16 9 6 12 1 true),
    (0b010010_001_0110_1100_001_1001_1_1011011#32, .vxor .i16 9 6 12 1 true),
    (0b010011_001_0110_1100_001_1001_1_1011011#32, .vsll .i16 9 6 12 1 true),
    (0b010100_001_0110_1100_001_1001_1_1011011#32, .vsrl .i16 9 6 12 1 true),
    (0b010101_001_0110_1100_001_1001_1_1011011#32, .vsra .i16 9 6 12 1 true)] = true := by decide +kernel

theorem test_words_vector_float : decodesTo [
    (0b011000_011_0110_1100_010_1001_1_1011011#32, .vfadd .f32 9 6 12 2 true),
    (0b011001_100_0110_1100_010_1001_1_1011011#32, .vfsub .bf16 9 6 12 2 true),
    (0b011010_101_0110_1100_111_1001_1_1011011#32, .vfmul .f16 9 6 12 7 true),
    (0b011011_011_0110_1100_010_1001_1_1011011#32, .vfma .f32 9 6 12 2 true),
    (0b011100_100_0110_1100_010_1001_1_1011011#32, .vfnma .bf16 9 6 12 2 true),
    (0b011101_101_0110_1100_000_1001_1_1011011#32, .vminn .f16 9 6 12 true),
    (0b011110_011_0110_1100_000_1001_1_1011011#32, .vmaxn .f32 9 6 12 true),
    (0b100000_100_0110_0000000_1001_1_1011011#32, .vexp2 .bf16 9 6 true),
    (0b100001_011_0110_0000000_1001_1_1011011#32, .vlog2 .f32 9 6 true),
    (0b100010_100_0110_0000000_1001_1_1011011#32, .vrcp .bf16 9 6 true),
    (0b100011_011_0110_0000000_1001_1_1011011#32, .vrsqrt .f32 9 6 true),
    (0b100100_100_0110_0000000_1001_1_1011011#32, .vtanh .bf16 9 6 true),
    (0b100101_111_0110_0000000_1001_1_1011011#32, .vfabs .e5m2 9 6 true),
    (0b100110_110_0110_0000000_1001_1_1011011#32, .vfneg .e4m3 9 6 true)] = true := by decide +kernel

theorem test_words_vector_mask : decodesTo [
    (0b101000_001_1001_0110_001_00_10_1_1011011#32, .vcmpeq .i16 2 9 6 1 true),
    (0b101001_001_1001_0110_001_00_10_1_1011011#32, .vcmpne .i16 2 9 6 1 true),
    (0b101010_010_1001_0110_010_00_10_1_1011011#32, .vcmplt .i8 2 9 6 2 true),
    (0b101011_100_1001_0110_000_00_10_1_1011011#32, .vcmple .bf16 2 9 6 0 true),
    (0b101100_111_0110_1100_000_1001_01011011#32, .vsel .e5m2 9 6 12),
    (0b10110100000_01_00_11_00000_10_01011011#32, .vmaskAnd 2 1 3),
    (0b10110100100_01_00_11_00000_10_01011011#32, .vmaskOr 2 1 3),
    (0b10110101000_01_00_11_00000_10_01011011#32, .vmaskXor 2 1 3),
    (0b10110101100_01_00_11_00000_10_01011011#32, .vmaskAndn 2 1 3),
    (0b10110110000_01_000000000_10_01011011#32, .vmaskNot 2 1),
    (0b1011011010000_1001_00000_10_01011011#32, .vmaskFromx 2 9),
    (0b10110111000_10_0000000_1001_01011011#32, .vmaskTox 9 2),
    (0b1011011110000_1001_00000_10_01011011#32, .vmaskFirst 2 9)] = true := by decide +kernel

theorem test_words_vector_moves : decodesTo [
    (0b110000_011_0110_0000_111_1001_1_1011011#32, .vredsum .f32 9 6 7 true),
    (0b110001_001_0110_0000_010_1001_1_1011011#32, .vredmax .i16 9 6 2 true),
    (0b110010_101_0110_0000_000_1001_1_1011011#32, .vargmax .f16 9 6 0 true),
    (0b110011_110_1100_1011_100_0110_1_1011011#32, .vcvt .e4m3 11 6 12 4 true),
    (0b11010000000000000000_1001_1_1011011#32, .vrand 9 true),
    (0b1101000000000_0110_100_1001_1_1011011#32, .vrandLat 9 6 true),
    (0b110101_001_1100_0110_000_1001_01011011#32, .vmvx .i16 9 6 12),
    (0b110101_010_0110_1100_1_1_0_1001_01011011#32, .vmvxGet .i8 true 9 6 12),
    (0b111000_001_0110_1100_000_1001_1_1011011#32, .vperm .i16 9 6 12 true),
    (0b111001_010_0110_1100_000_1001_1_1011011#32, .vslideup .i8 9 6 12 true),
    (0b111010_001_0110_1100_000_1001_1_1011011#32, .vslidedn .i16 9 6 12 true),
    (0b111011_001_0110_1100_000_1001_1_1011011#32, .vzip .i16 9 6 12 true),
    (0b111100_000_0110_1100_1_00_1001_1_1011011#32, .vunzip .i32 true 9 6 12 true),
    (0b111101_001_0000_0110_000_1001_1_1011011#32, .vbcast .i16 9 6 true)] = true := by decide +kernel



/-! ### Small states -/

/-- X registers with the listed values, the rest 0. -/
def xregs (l : List (Nat × Word)) : Vector Word 32 := l.foldl (fun v p => vset v p.1 p.2) (Vector.replicate 32 0)

/-- A flash whose key and image are numbers. -/
def plainFlash : Flash := { Flash.init with key := (0, 0), image := [], signature := [] }

/-- Thread 0 of site 0, at U, in partition 1, with the listed X registers. -/
def user (l : List (Nat × Word)) : State :=
  let s := State.withProgram { State.reset with flash := plainFlash } []
  s.setMe { s.me with x := xregs l }

/-- The same with something of the thread changed. -/
def userWith (l : List (Nat × Word)) (f : Thread → Thread) : State := let s := user l; s.setMe (f s.me)

/-- The same at M, with mtvec 0x100. -/
def machine (l : List (Nat × Word)) : State := userWith l fun t => { t with priv := .M, mtvec := 0x100 }

/-- Bytes put at a location. -/
def put (s : State) (k : Nat) (bs : List Byte) : State := { s with mem := Memory.writeN s.mem k bs }

/-- With the response of a returning operation. -/
def answered (l : List (Nat × Word)) : State := userWith l fun t => { t with resp := some { value := 1, data := [1, 2] } }

/-- A state in which the thread's store to segment 2 is on its way. -/
def storing (l : List (Nat × Word)) : State := (user l).post (2 ^ 49) [1] false false

/-- The partition in deterministic mode. -/
def detUser (l : List (Nat × Word)) : State := let s := user l; s.setPart 1 { s.part 1 with det := true }

/-- Group 255 of partition 1 is logical core 0 alone. -/
def grouped (l : List (Nat × Word)) : State := put (user l) (kWindow 1 + 8 * 255) [1]

/-- A capability in slot 3 of core 0. -/
def aCap : Cap := { rid := 5, gen := 7, szlog := 16, base := 2 ^ 49 }

/-- A state whose core holds it. -/
def capUser (l : List (Nat × Word)) : State :=
  let s := user l
  s.setCore 0 { s.core 0 with caps := vset (s.core 0).caps 3 (some aCap) }

/-- Whether an outcome is a next state of which a check holds. -/
def after (o : Out) (p : State → Bool) : Bool := match o with | .next t => p t | _ => false

/-- X[rd] of the next state. -/
def xOf (o : Out) (rd : Reg) : Option Word := match o with | .next t => some (t.rx rd) | _ => none

/-! ### One step from reset: fetch, decode, execute -/

/-- addi x1, x0, 5 as the first instruction (R297). -/
theorem test_first_step : xOf (step (State.reset.withFetchWord 32 0x00500093)) 1 = some 5 := by decide +kernel

/-- Without power nothing but a power-up happens (R50, R58). -/
theorem test_unpowered : (match step { State.reset with powered := false } with | .fault .unpowered => true | _ => false) = true := by
  decide +kernel

/-! ### Results the spec writes out -/

/-- The bit-field examples of R305, with rs1 = 0xA5A5 and rd = 0x1234 where the table has them. -/
theorem test_bfx : xOf (exec (.bfx 1 2 4 8) (user [(2, 0xA5)])) 1 = some 0xA := by decide +kernel
theorem test_bfx_top : xOf (exec (.bfx 1 2 60 8) (user [(2, 0xF000000000000000)])) 1 = some 0xFFFFFFFFFFFFFFFF := by
  decide +kernel
theorem test_bfxu_top : xOf (exec (.bfxu 1 2 60 8) (user [(2, 0xF000000000000000)])) 1 = some 0xF := by decide +kernel
theorem test_bfi_none : xOf (exec (.bfi 1 2 8 0) (user [(1, 0x1234), (2, 0xFF)])) 1 = some 0x1234 := by decide +kernel

/-- R299: a quotient by 0 is all ones, the overflowing pair gives the dividend and remainder 0. -/
theorem test_div_zero : xOf (exec (.div 1 2 3) (user [(2, 7)])) 1 = some 0xFFFFFFFFFFFFFFFF := by decide +kernel
theorem test_div_overflow : xOf (exec (.div 1 2 3) (user [(2, 2 ^ 63), (3, 0xFFFFFFFFFFFFFFFF)])) 1 = some (2 ^ 63) := by
  decide +kernel
theorem test_rem_overflow : xOf (exec (.rem 1 2 3) (user [(2, 2 ^ 63), (3, 0xFFFFFFFFFFFFFFFF)])) 1 = some 0 := by
  decide +kernel

/-- R283: a result in x0 is dropped. -/
theorem test_x0 : xOf (exec (.addi 0 0 5) (user [])) 0 = some 0 := by decide +kernel

/-- R298: a sum of the low halves is sign-extended. -/
theorem test_addw : xOf (exec (.addw 1 2 3) (user [(2, 0x7FFFFFFF), (3, 1)])) 1 = some 0xFFFFFFFF80000000 := by decide +kernel

/-- R304: the counts of 0 are 64, 64 and 0. -/
theorem test_clz_zero : xOf (exec (.clz 1 2) (user [])) 1 = some 64 := by decide +kernel
theorem test_ctz_top : xOf (exec (.ctz 1 2) (user [(2, 2 ^ 63)])) 1 = some 63 := by decide +kernel

/-- R301: JALR clears bit 0 of its target and links after reading its source. -/
theorem test_jalr_same : after (exec (.jalr 5 5 4) (user [(5, 0x101)])) (fun t => t.me.pc == 0x104 && t.rx 5 == 4) = true := by
  decide +kernel

/-- R308: the last instruction of a loop's body goes back while passes are left. -/
theorem test_loop_back : after (exec (.addi 1 1 1) (userWith [] fun t => { t with lpstart := 0x40, lpcount := 2 }))
    (fun t => t.me.pc == 0x40 && t.me.lpcount == 1) = true := by decide +kernel

/-- R295: a load of a byte with the sign bit set. -/
theorem test_lb : xOf (exec (.lb 1 2 0) (put (user [(2, 0x40)]) (kScratch 0 + 0x40) [0x80])) 1 = some 0xFFFFFFFFFFFFFF80 := by
  decide +kernel

/-- R293: a store is little-endian. -/
theorem test_sh : after (exec (.sh 1 2 0) (user [(1, 0xAABBCC), (2, 0x40)]))
    (fun t => t.bytes (kScratch 0 + 0x40) 3 == [0xCC, 0xBB, 0]) = true := by decide +kernel

/-- R141: the system area is denied to threads; at U the protection error aborts the activation. -/
theorem test_system_area : after (exec (.ld 1 2 0) (user [(2, 0x3CFFF9)])) (fun t => t.me.act.isNone) = true := by decide +kernel

/-- R327: AMOMIN compares signed values, and CAS compares with X[rd]. -/
theorem test_amomin : after (exec (.amomin .relaxed .tile false 1 3 2) (put (user [(3, 0xFFFFFFFF)]) (kScratch 0) [5]))
    (fun t => t.rx 1 == 5 && t.num (kScratch 0) 4 == 0xFFFFFFFF) = true := by decide +kernel
theorem test_amocas : after (exec (.amocas .relaxed .tile true 1 3 2) (put (user [(1, 4), (3, 9)]) (kScratch 0) [5]))
    (fun t => t.rx 1 == 5 && t.num (kScratch 0) 8 == 5) = true := by decide +kernel

/-- R148: a record whose COUNT is 0 gives all ones. -/
theorem test_joindec_zero : xOf (exec (.joindec 1 2) (user [])) 1 = some 0xFFFFFFFFFFFFFFFF := by decide +kernel

/-- R343: a saturating sum at the top of .i8; R349: the sum of a register wraps. -/
theorem test_vaddsat : after (exec (.vaddsat .i8 1 2 2 0 false) (userWith [] fun t => { t with v := vset t.v 2 0x7F }))
    (fun t => elem (t.me.rv 1) 8 0 == 0x7F) = true := by decide +kernel
theorem test_vredsum : after (exec (.vredsum .i8 1 2 0 false) (userWith [] fun t => { t with v := vset t.v 2 0xFF02 }))
    (fun t => elem (t.me.rv 1) 8 0 == 1) = true := by decide +kernel

/-- R253, R254: 1 + 2^-24 rounds to 1 to nearest even, upwards to the next number. -/
theorem test_vfadd_rne : after (exec (.vfadd .f32 1 2 3 0 false)
      (userWith [] fun t => { t with v := vset (vset t.v 2 0x3F800000) 3 0x33800000 }))
    (fun t => elem (t.me.rv 1) 32 0 == 0x3F800000) = true := by decide +kernel
theorem test_vfadd_rup : after (exec (.vfadd .f32 1 2 3 3 false)
      (userWith [] fun t => { t with v := vset (vset t.v 2 0x3F800000) 3 0x33800000 }))
    (fun t => elem (t.me.rv 1) 32 0 == 0x3F800001) = true := by decide +kernel

/-! ### Hypotheses of the statements are met: scalar instructions -/

theorem witness_LoadResults_local : (user [(10, 0x3CFFF8)]).me.resp = none ∧
    LocalAt (user [(10, 0x3CFFF8)]) .read (baseAddr (user [(10, 0x3CFFF8)]) 10 7) 1 (kScratch 0 + 0x3CFFFF) ∧
    LocalAt (user [(10, 0x3CFFF8)]) .read (baseAddr (user [(10, 0x3CFFF8)]) 10 6) 2 (kScratch 0 + 0x3CFFFE) ∧
    LocalAt (user [(10, 0x3CFFF8)]) .read (baseAddr (user [(10, 0x3CFFF8)]) 10 4) 4 (kScratch 0 + 0x3CFFFC) ∧
    LocalAt (user [(10, 0x3CFFF8)]) .read (baseAddr (user [(10, 0x3CFFF8)]) 10 0) 8 (kScratch 0 + 0x3CFFF8) := by
  unfold LocalAt; decide +kernel

theorem witness_LoadResults_translated : (user [(10, 2 ^ 48)]).me.resp = none ∧
    routeOf (baseAddr (user [(10, 2 ^ 48)]) 10 0) = .translated ∧ baseAddr (user [(10, 2 ^ 48)]) 10 0 % 8 = 0 := by
  decide +kernel

theorem witness_LoadResults_response : (answered []).me.resp = some { value := 1, data := [1, 2] } := by decide +kernel

theorem witness_StoreResults_local : MemWf (user []) ∧ (user []).atHome (baseAddr (user []) 0 0) = false ∧
    LocalAt (user []) .write (baseAddr (user []) 0 0) 1 (kScratch 0) ∧ LocalAt (user []) .write (baseAddr (user []) 0 0) 2 (kScratch 0) ∧
    LocalAt (user []) .write (baseAddr (user []) 0 0) 4 (kScratch 0) ∧ LocalAt (user []) .write (baseAddr (user []) 0 0) 8 (kScratch 0) := by
  unfold LocalAt MemWf; decide +kernel

theorem witness_StoreResults_translated : routeOf (baseAddr (user [(10, 0xFFFFFFFFFFFFF8)]) 10 0) = .translated ∧
    baseAddr (user [(10, 0xFFFFFFFFFFFFF8)]) 10 0 % 2 = 0 ∧ baseAddr (user [(10, 0xFFFFFFFFFFFFF8)]) 10 0 % 4 = 0 ∧
    baseAddr (user [(10, 0xFFFFFFFFFFFFF8)]) 10 0 % 8 = 0 := by decide +kernel

theorem witness_BadAddressTraps : (machine [(10, 0x1000000000001)]).me.priv = .M ∧ (machine [(10, 0x1000000000001)]).me.resp = none ∧
    routeOf (baseAddr (machine [(10, 0x1000000000001)]) 10 0) = .translated ∧
    baseAddr (machine [(10, 0x1000000000001)]) 10 0 % 8 ≠ 0 := by decide +kernel

theorem witness_BadAddressTraps_high : (machine [(10, 2 ^ 56)]).me.priv = .M ∧ (machine [(10, 2 ^ 56)]).me.resp = none ∧
    2 ^ 56 ≤ baseAddr (machine [(10, 2 ^ 56)]) 10 0 := by decide +kernel

theorem witness_JumpBranchResults : (machine []).me.priv = .M ∧
    (BitVec.ofInt 64 ((machine []).me.pc.toInt + 2 * (2#20).toInt)).toNat % 4 = 0 ∧
    (BitVec.ofInt 64 ((machine []).me.pc.toInt + 2 * (1#20).toInt)).toNat % 4 ≠ 0 ∧
    (BitVec.ofInt 64 (((machine []).rx 0).toInt + (5#12).toInt) &&& ~~~1#64).toNat % 4 = 0 ∧
    (BitVec.ofInt 64 (((machine []).rx 0).toInt + (3#12).toInt) &&& ~~~1#64).toNat % 4 ≠ 0 ∧
    ((machine []).rx 0 == (machine []).rx 0) = true ∧
    (BitVec.ofInt 64 ((machine []).me.pc.toInt + 2 * (2#12).toInt)).toNat % 4 = 0 ∧
    (BitVec.ofInt 64 ((machine []).me.pc.toInt + 2 * (1#12).toInt)).toNat % 4 ≠ 0 := by decide +kernel

theorem witness_LoopResults : (user []).rx 5 = 0 ∧ (user [(5, 1)]).rx 5 ≠ 0 ∧ 0 < (1#12).toNat := by decide +kernel

theorem witness_TrapAndAbortResults : (machine []).me.priv = .M ∧ (user []).me.priv = .U ∧ (user []).me.act = firstThread.act ∧
    firstThread.act.isSome = true ∧ (firstThread.act.map (·.chan)).getD 16 < 16 ∧ MemWf (user []) ∧
    (userWith [] fun _ => Thread.init).me.priv = .U ∧ (userWith [] fun _ => Thread.init).me.act = none := by
  unfold MemWf; decide +kernel

theorem witness_MretResults : (machine []).me.priv = .M ∧ (user []).me.priv = .U := by decide +kernel

theorem witness_CsrInstructionResults : csrInfo 0x340 = some { ro := false, m := true } ∧ (machine []).me.priv ≠ .U ∧
    csrInfo 0x8C8 = some { ro := false, m := false } ∧ csrInfo 0xF14 = some { ro := true, m := false } ∧
    csrInfo 0xC00 = some { ro := true, m := false } ∧ (detUser []).det ((detUser []).partOfHart (detUser []).cur) = true ∧
    (user []).det ((user []).partOfHart (user []).cur) = false ∧ ((user []).tile (user []).site).replaying = false := by
  decide +kernel

theorem witness_CsrRulesResults : (4#64).toNat % 8 ≤ 4 ∧ 4 < (5#64).toNat % 8 ∧ (user []).me.priv = .U ∧ (machine []).me.priv = .M ∧
    csrInfo (0x8C9#12).toNat = none ∧ csrInfo (0x305#12).toNat = some { ro := false, m := true } ∧
    csrInfo (0xCC0#12).toNat = some { ro := true, m := false } := by decide +kernel

/-! ### Messages, tasks, synchronisation -/

theorem witness_SendIssuesMessages : (262143 : Nat) < 2 ^ 18 ∧ (15 : Nat) < 16 ∧
    (user [(10, 0xF3FFFF)]).waitingSends (user [(10, 0xF3FFFF)]).cur < 4 ∧
    (user [(10, 0xF3FFFF)]).rx 10 = BitVec.ofNat 64 (262143 + 15 * 2 ^ 20) ∧
    (user [(10, 0x10000F3FFFF)]).rx 10 = BitVec.ofNat 64 (262143 + 15 * 2 ^ 20 + 1 * 2 ^ 40) ∧
    (user [(10, 0x100000F3FFFF)]).rx 10 = BitVec.ofNat 64 (262143 + 15 * 2 ^ 20 + 16 * 2 ^ 40) ∧
    BlockAt (user [(10, 0x10000F3FFFF)]) ((user [(10, 0x10000F3FFFF)]).rx 11) (kScratch 0) ∧
    (grouped [(10, 0xF000FF)]).rx 10 = BitVec.ofNat 64 (255 + 15 * 2 ^ 20) ∧
    (grouped [(10, 0xF000FF)]).ownGroup 255 = some [0] := by
  unfold BlockAt LocalAt; decide +kernel

theorem witness_HeldSendResults : (user []).me.held = [] ∧
    (userWith [] fun t => { t with held := List.replicate 7 { dest := 0, group := false, payload := t.payload } }).me.held.length < 8 ∧
    (grouped [(10, 255)]).rx 10 = BitVec.ofNat 64 (255 + 0 * 2 ^ 20) ∧ (grouped [(10, 255)]).ownGroup 255 = some [0] ∧
    (userWith [] fun t => { t with held := [{ dest := 0, group := false, payload := Vector.replicate 8 0 }] }).me.held =
      [{ dest := BitVec.ofNat 64 (0 + 0 * 2 ^ 20), group := false, payload := Vector.replicate 8 0 }] := by decide +kernel

/-- The own deque with 64 frames, whose next place lies beyond the bonded block. -/
def farFrames : State :=
  let s := user []
  let f (n : Nat) : Frame := { haddr := 0, budlog := 0, job := 0, seq := 0, sdev := 0, pusher := 0, payload := Vector.replicate 8 0, slot := n }
  s.setCore 0 { s.core 0 with spawnlim := 100, dqlog := 8, dqbase := 2 ^ 40, deque := (List.range 64).map f }

/-- A state with no room for a frame in the own deque. -/
def noFrames : State := let s := user []; s.setCore 0 { s.core 0 with spawnlim := 0 }

theorem witness_SpawnResults : ((user [(12, 1)]).rx 11).toNat % 4 = 0 ∧ ((user [(12, 1)]).rx 11).toNat < 2 ^ 48 ∧
    (user [(12, 1)]).openAccess 0 = false ∧
    ((user []).core 0).deque.length < min ((user []).core 0).spawnlim.toNat ((user []).core 0).dqCap ∧
    min (noFrames.core 0).spawnlim.toNat (noFrames.core 0).dqCap ≤ (noFrames.core 0).deque.length ∧
    ((user [(12, 1)]).rx 12).toNat < 2 ^ 15 ∧ (user [(12, 1)]).coreKey 1 1 = some 1 ∧ (user [(12, 1)]).partOfHart 0 = 1 ∧
    (user [(12, 1)]).me.resp = none ∧ (answered [(12, 1)]).me.resp = some { value := 1, data := [1, 2] } ∧ MemWf (user [(12, 1)]) ∧
    (((user []).core 0).frameAt 0 ((user []).core 0).frameSlot).bind (fun a => (user []).localKey 0 a 80) = some (kScratch 0 + 0x3F8000) ∧
    (farFrames.core 0).deque.length < min (farFrames.core 0).spawnlim.toNat (farFrames.core 0).dqCap ∧
    ((farFrames.core 0).frameAt 0 (farFrames.core 0).frameSlot).bind (fun a => farFrames.localKey 0 a 80) = none := by
  unfold MemWf; decide +kernel

/-- A record at the last place a record may have, with a COUNT. -/
def recordAt (n : Byte) : State := put (user [(10, 0x3CFF80)]) (kScratch 0 + 0x3CFF80) [n]

theorem witness_JoindecResults : (recordAt 1).me.resp = none ∧ MemWf (recordAt 1) ∧ ((recordAt 1).rx 10).toNat % 64 = 0 ∧
    ((recordAt 1).rx 10).toNat + 128 ≤ Config.sysArea ∧
    (recordAt 1).localAcc 0 .write ((recordAt 1).rx 10).toNat 8 = some (kScratch 0 + 0x3CFF80) ∧
    (recordAt 1).openAccess 0 = false ∧ ((recordAt 1).tile 0).replaying = false ∧
    (recordAt 0).num (kScratch 0 + 0x3CFF80) 8 % 2 ^ 32 = 0 ∧ (recordAt 1).num (kScratch 0 + 0x3CFF80) 8 % 2 ^ 32 = 1 ∧
    (recordAt 2).num (kScratch 0 + 0x3CFF80) 8 % 2 ^ 32 ≠ 1 := by unfold MemWf; decide +kernel

/-- A message with an arrival number at a place. -/
def msgAt (arr slot : Nat) : Msg :=
  { mkMsg (mkHeader 0 0 0 0 0 0 0 0 0) (Vector.replicate 8 0) none with arr := arr, slot := slot }

/-- Thread 0 runs message 9 of channel 0, whose queue is full and which has a spilled message. -/
def spilling : State :=
  let s := userWith [] fun t => { t with act := t.act.map fun a => { a with origin := .msg (msgAt 9 5) } }
  s.setCore 0 ((s.core 0).setChan 0
    { queue := (List.range 32).map (fun n => (msgAt (n + 4) n, n + 4 == 9)), spill := [msgAt 40 0] })

theorem witness_LaunchDoneResults : BlockAt (user []) ((user []).rx 10) (kScratch 0) ∧ (user []).openAccess 0 = false ∧
    (SMap.get DevQueue.init (user []).devq ((user []).devQueueOf 1 0)).slots.length + 0 < 64 ∧ (user []).net = [] ∧
    (user []).det 1 = false ∧ (detUser []).det 1 = true ∧ (user []).me.act = firstThread.act ∧ firstThread.act.isSome = true ∧
    (user []).me.held = [] ∧ (firstThread.act.map (·.chan)).getD 16 < 16 ∧ spilling.me.act.isSome = true ∧ spilling.me.held = [] ∧
    ((spilling.core 0).chan 0).spill ≠ [] ∧ MemWf spilling ∧
    ((((spilling.core 0).chan 0).drop 9).queue.getLast?.map fun e => e.1.slot) = some 5 ∧
    spilling.localKey 0 ((spilling.core 0).entryAt 0 0 5 false) 80 = some (kScratch 0 + 0x3D0190) := by
  unfold BlockAt LocalAt MemWf; decide +kernel

theorem witness_SyncBarrierResults : Order.releases .acquire = false ∧ (user []).openAccess 0 = false ∧
    Order.releases .seqCst = true ∧ (storing []).openAccess 0 = true ∧ ((grouped [(10, 255)]).rx 10).toNat < 256 ∧
    (grouped [(10, 255)]).ownGroup 255 = some [0] ∧ (grouped [(10, 255)]).me.resp = none ∧
    (answered []).me.resp = some { value := 1, data := [1, 2] } := by decide +kernel

/-- The word at scratchpad offset 0x3CFF80 full, with 3 in it. -/
def fullWord : State := { put (user [(10, 0x3CFF80), (11, 3)]) (kScratch 0 + 0x3CFF80) [3] with full := [(kScratch 0 + 0x3CFF80) / 8] }

theorem witness_LocalSynchronisationResults : fullWord.me.resp = none ∧ (fullWord.rx 10).toNat % 64 = 0 ∧
    (fullWord.rx 10).toNat + 128 ≤ Config.sysArea ∧ (fullWord.rx 11).toNat < 256 ∧
    LocalAt fullWord .read (fullWord.rx 10).toNat 8 (kScratch 0 + 0x3CFF80) ∧
    fullWord.num (kScratch 0 + 0x3CFF80) 1 = (fullWord.rx 11).toNat ∧ fullWord.num (kScratch 0 + 0x3CFF80) 1 ≠ (fullWord.rx 0).toNat ∧
    (fullWord.rx 10).toNat % 8 = 0 ∧ fullWord.isFull (kScratch 0 + 0x3CFF80) = true ∧ fullWord.isFull (kScratch 0) = false ∧
    LocalAt fullWord .read (fullWord.rx 0).toNat 8 (kScratch 0) ∧ LocalAt fullWord .write (fullWord.rx 0).toNat 8 (kScratch 0) ∧
    LocalAt fullWord .write (fullWord.rx 10).toNat 8 (kScratch 0 + 0x3CFF80) ∧ MemWf fullWord ∧
    fullWord.atHome (fullWord.rx 10).toNat = false ∧ fullWord.openAccess 0 = false ∧
    routeOf ((user [(10, 2 ^ 48)]).rx 10).toNat = .translated ∧ ((user [(10, 2 ^ 48)]).rx 10).toNat % 8 = 0 := by
  unfold LocalAt MemWf; decide +kernel

theorem witness_LocalSynchronisationResults_atomic : (user []).me.resp = none ∧ MemWf (user []) ∧ ((user []).rx 10).toNat % 4 = 0 ∧
    ((user []).rx 10).toNat % 8 = 0 ∧ LocalAt (user []) .write ((user []).rx 10).toNat 4 (kScratch 0) ∧
    LocalAt (user []) .write ((user []).rx 10).toNat 8 (kScratch 0) ∧ (user []).openAccess 0 = false ∧
    ((user []).tile 0).replaying = false := by unfold LocalAt MemWf; decide +kernel

theorem witness_ReturningOperationResults : (user [(10, 2 ^ 48), (11, 255)]).me.resp = none ∧
    routeOf ((user [(10, 2 ^ 48), (11, 255)]).rx 10).toNat = .translated ∧ ((user [(10, 2 ^ 48), (11, 255)]).rx 10).toNat % 4 = 0 ∧
    ((user [(10, 2 ^ 48), (11, 255)]).rx 10).toNat % 64 = 0 ∧ ((user [(10, 2 ^ 48), (11, 255)]).rx 11).toNat < 256 ∧
    (answered []).me.resp = some { value := 1, data := [1, 2] } := by decide +kernel

theorem witness_CapabilityResults : (user []).slot 3 = none ∧ (capUser [(10, 0xF3FFFF)]).slot 3 = some aCap ∧
    (user []).me.status = .running ∧ (capUser [(10, 0xF3FFFF)]).me.status = .running ∧
    (capUser [(10, 0xF3FFFF)]).writesUnder aCap = false ∧
    (capUser [(10, 0xF3FFFF)]).rx 10 = BitVec.ofNat 64 (262143 + 15 * 2 ^ 20) ∧
    (capUser [(10, 0xF3FFFF)]).waitingSends 0 < 4 ∧ ((capUser []).post (2 ^ 49) [1] false false).slot 3 = some aCap ∧
    ((capUser []).post (2 ^ 49) [1] false false).me.status = .running ∧
    ((capUser []).post (2 ^ 49) [1] false false).writesUnder aCap = true := by decide +kernel

/-! ### Engines, expert queues, system instructions -/

/-- Thread 0 with four refused pushes. -/
def pushing : State :=
  let s := user []
  (List.range 4).foldl (fun s n => s.emit { s.item 0 n true (.tile 0) (.push 0 []) with stage := .refused 1024 }) s

theorem witness_ExpertQueueItems : ((user [(11, 0xFFFFFFFF)]).rx 10).toNat % 32 = 0 ∧
    LocalAt (user [(11, 0xFFFFFFFF)]) .read ((user [(11, 0xFFFFFFFF)]).rx 10).toNat 32 (kScratch 0) ∧
    ((user [(11, 0xFFFFFFFF)]).rx 11).toNat < 2 ^ 32 ∧ ((user [(11, 0xFFFFFFFF)]).rx 10).toNat < 2 ^ 32 ∧
    ((Memory.readN (put (user []) (kScratch 0 + 28) [7]).mem (kScratch 0) 32).getD 28 0).toNat ≤ 7 ∧
    (Memory.readN (put (user []) (kScratch 0 + 28) [7]).mem (kScratch 0) 32).getD 29 0 = 0 ∧
    (Memory.readN (put (user []) (kScratch 0 + 28) [7]).mem (kScratch 0) 32).getD 23 0 = 0 ∧
    (user []).me.resp = none ∧ (answered []).me.resp = some { value := 1, data := [1, 2] } ∧ (user []).waitingSends 0 < 4 ∧
    4 ≤ pushing.waitingSends 0 ∧ LocalAt pushing .read (pushing.rx 10).toNat 32 (kScratch 0) := by unfold LocalAt; decide +kernel

/-- Thread 0 with a block of 64-bit words at scratchpad offset 0. -/
def block (l : List (Nat × Word)) (ws : List Nat) : State := put (user l) (kScratch 0) (ws.flatMap fun w => bytesOf 8 w)

/-- Descriptors of the shortest transfers (R375, R376). -/
def copyBlock : State := block [] [0x1000, 0x2000, 8, 0, 0, 0, 0, 0]
def rdBlock : State := block [] [2 ^ 48, 0x1000, 64, 0, 2 ^ 63, 0, 0, 0]
def wrBlock : State := block [] [0x1000, 2 ^ 48, 64, 0, 2 ^ 63, 0, 0, 0]
def depBlock : State := block [] [0x1000, 0x2000, 8, 0, 2 ^ 63, 7, 0, 0]

/-- The transfer a descriptor names. -/
def xferIn (s : State) (op : XferOp) : Xfer := s.xferOf op (s.words8 (kScratch 0)) []

/-- The hypotheses of `TransferIssueResults` on a descriptor at scratchpad offset 0 with the given forms. -/
def xferPasses (s : State) (op : XferOp) (sf df : AddrForm) : Bool :=
  let w := s.words8 (kScratch 0)
  let x := xferIn s op
  xferBitsOk op w && formOf x.src == some sf && formOf x.dst == some df && x.arr == 0 && xferOk x sf df false &&
    xferAligned op x.src x.dst x.len && (s.xferRefused x sf df).isNone && bitsN (vget 0 w 5).toNat 24 24 != 1

/-- With all four channels of tile 0 taken. -/
def allBusy (s : State) (x : Xfer) : State := s.setTile 0 { s.tile 0 with xfers := Vector.replicate 4 (some x) }

theorem witness_TransferIssueResults : BlockAt copyBlock (copyBlock.rx 10) (kScratch 0) ∧
    xferPasses copyBlock .copy .localWin .localWin = true ∧ xferPasses rdBlock .rdblk .translated .localWin = true ∧
    xferPasses wrBlock .wrblk .localWin .translated = true ∧ xferPasses depBlock .deposit .localWin .localWin = true ∧
    vget none (copyBlock.tile 0).xfers 0 = none ∧
    (∀ j < 4, (vget none ((allBusy copyBlock (xferIn copyBlock .copy)).tile 0).xfers j).isSome = true) ∧
    xferPasses (allBusy copyBlock (xferIn copyBlock .copy)) .copy .localWin .localWin = true := by
  unfold BlockAt LocalAt; decide +kernel

/-- A descriptor of one row, one column and one K-step in .bf16, without a store-back (R361). -/
def mmaBlock : State := block [] [0x1000, 0x2000, 0, 1 + 4 * 2 ^ 24 + 4 * 2 ^ 28 + 2 ^ 32 + 2 ^ 40, 0, 0, 0, 0]
/-- The same with a store-back in .f32. -/
def mmaStore : State := block [] [0x1000, 0x2000, 0, 1 + 4 * 2 ^ 24 + 4 * 2 ^ 28 + 2 ^ 32 + 2 ^ 40, 0x3000, 3 * 2 ^ 32, 0, 0]
/-- The same for tile rank 0 with operands in segment 2. -/
def mcmdBlock : State := block [] [2 ^ 49, 2 ^ 49 + 64, 0, 1 + 4 * 2 ^ 24 + 4 * 2 ^ 28 + 2 ^ 32 + 2 ^ 40, 0, 0, 0, 0]

/-- A command, and a queue of 16. -/
def aCmd : MatCmd := mmaBlock.matCmd .mma 0 false false false 0 (matDescOf (mmaBlock.words8 (kScratch 0))) 0
def fullQueue : State := let s := user []; s.setTile 0 { s.tile 0 with mqueue := List.replicate 16 aCmd }

/-- The hypotheses on an MMA at scratchpad offset 0. -/
def mmaPasses (s : State) (st : Bool) : Bool :=
  let d := matDescOf (s.words8 (kScratch 0))
  matDescOk (s.words8 (kScratch 0)) d st 0 && d.xtra == 0 && d.aligned st && s.badLocal .read (d.reads d.mrow d.ncol) == none &&
    (!st || s.badLocal .write (d.writes d.mrow d.ncol) == none)

theorem witness_MatrixQueueResults : BlockAt mmaBlock (mmaBlock.rx 10) (kScratch 0) ∧ mmaPasses mmaBlock false = true ∧
    mmaPasses mmaStore true = true ∧ ((user []).tile 0).mqueue.length + 0 < 16 ∧ ((user []).tile 0).mrun = none ∧
    16 ≤ (fullQueue.tile 0).mqueue.length ∧ (user [(11, 63 + 256)]).rx 11 = BitVec.ofNat 64 (63 + 1 * 256) ∧ 63 + 1 ≤ 64 ∧
    ((user []).rx 10).toNat % 64 = 0 ∧ routeOf ((user []).rx 10).toNat = .localWin ∧
    ((user []).localAcc 0 .read ((user []).rx 10).toNat (192 * 1)).isSome = true ∧
    ((user []).localAcc 0 .write ((user []).rx 10).toNat 12288).isSome = true ∧
    ((user []).localAcc 0 .read ((user []).rx 10).toNat 12288).isSome = true ∧
    routeOf ((user [(10, 2 ^ 48)]).rx 10).toNat = .translated := by unfold BlockAt LocalAt; decide +kernel

theorem witness_MatrixQueueResults_mcmd : BlockAt mcmdBlock (mcmdBlock.rx 10) (kScratch 0) ∧
    matDescOk (mcmdBlock.words8 (kScratch 0)) (matDescOf (mcmdBlock.words8 (kScratch 0))) false (mcmdBlock.rx 11).toNat = true ∧
    (matDescOf (mcmdBlock.words8 (kScratch 0))).aligned false = true ∧ (matDescOf (mcmdBlock.words8 (kScratch 0))).xtra < 2 ^ 13 ∧
    (matDescOf (mcmdBlock.words8 (kScratch 0))).remote false = true ∧
    mcmdBlock.isRanked 1 (matDescOf (mcmdBlock.words8 (kScratch 0))).xtra = true := by unfold BlockAt LocalAt; decide +kernel

/-- A floe of tile 0 with a running command and three that wait; its generation is 5. -/
def aFloe : Floe :=
  { cols := [0], rows := [0], region := [0], fgen := 5, run := some aCmd, k := 0, row := 0, begun := false, park := none, stored := [],
    landed := 0, denied := [], waiting := [aCmd, aCmd, aCmd] }

/-- A descriptor for the floe (R361, R368). -/
def fmmaBlock : State :=
  let s := block [] [0x1000, 0x2000, 0, 1 + 4 * 2 ^ 24 + 4 * 2 ^ 28 + 64 * 2 ^ 32 + 48 * 2 ^ 40 + 5 * 2 ^ 48, 0, 0, 0, 0]
  s.setPart 1 { s.part 1 with floe := some aFloe }

theorem witness_MatrixQueueResults_fmma : BlockAt fmmaBlock (fmmaBlock.rx 10) (kScratch 0) ∧
    matDescOk (fmmaBlock.words8 (kScratch 0)) (matDescOf (fmmaBlock.words8 (kScratch 0))) false (fmmaBlock.rx 11).toNat = true ∧
    (matDescOf (fmmaBlock.words8 (kScratch 0))).aligned false = true ∧ (fmmaBlock.part 1).floe = some aFloe ∧
    aFloe.run = some aCmd ∧ aFloe.waiting.length < 4 ∧ (matDescOf (fmmaBlock.words8 (kScratch 0))).mrow = 64 ∧
    (matDescOf (fmmaBlock.words8 (kScratch 0))).ncol = 48 ∧ (matDescOf (fmmaBlock.words8 (kScratch 0))).xtra = aFloe.fgen := by
  unfold BlockAt LocalAt; decide +kernel

/-- Tile 0 after 64 tags: tag 1 has ended with cause 3, and tag 64 is in the queue. -/
def tagged (x : Word) : State :=
  let s := user [(10, x)]
  s.setTile 0 { s.tile 0 with
    mtag := 64, mqueue := [{ aCmd with tag := 64 }], mdone := [{ tag := 1, cause := 3, prog := 0, kstep := 0 }] }

theorem witness_EngineReadWaitResults : MemWf (user [(10, 0x3CD000), (11, 64 * 256)]) ∧ 0 + 64 ≤ 64 ∧
    (user [(10, 0x3CD000), (11, 64 * 256)]).rx 11 = BitVec.ofNat 64 (0 + 64 * 256) ∧
    ((user [(10, 0x3CD000), (11, 64 * 256)]).rx 10).toNat % 64 = 0 ∧ 0x3CD000 + 192 * 64 ≤ Config.sysArea ∧
    LocalAt (user [(10, 0x3CD000), (11, 64 * 256)]) .write ((user [(10, 0x3CD000), (11, 64 * 256)]).rx 10).toNat (192 * 64)
      (kScratch 0 + 0x3CD000) ∧ ((user []).tile 0).owner 0 = none ∧ (tagged 64).matOpen 0 64 = true ∧
    (tagged 1).matOpen 0 1 = false ∧ ((tagged 1).tile 0).mtag + 2 ^ 32 - 1 = 2 ^ 32 + 63 ∧
    resultOf ((tagged 1).tile 0).mdone 1 = some { tag := 1, cause := 3, prog := 0, kstep := 0 } ∧ (tagged 0).matOpen 0 0 = false ∧
    ((tagged 0).tile 0).mtag + 2 ^ 32 - 0 = 2 ^ 32 + 64 := by unfold LocalAt MemWf; decide +kernel

/-- The partition has an event ring of 16 entries at host address 0x1000. -/
def ringed (l : List (Nat × Word)) : State :=
  let s := user l
  s.setPart 1 { s.part 1 with ring := some { base := 0x1000, sizelog := 4, vector := 3, count := 0 } }

theorem witness_SystemInstructionResults : ((user [(10, 2 ^ 48), (11, 16)]).rx 10).toNat < 2 ^ 56 ∧
    16 ≤ ((user [(10, 2 ^ 48), (11, 16)]).rx 11).toNat ∧ 2 ^ 48 % 2 ^ 16 = 0 ∧ (user [(11, 48)]).me.resp = none ∧
    (user [(11, 48)]).openAccess 0 = false ∧ ((user [(11, 48)]).rx 10).toNat + 2 ^ 48 ≤ 2 ^ 48 ∧
    2 ^ 48 < ((user [(10, 2 ^ 48), (11, 16)]).rx 10).toNat + 2 ^ 16 ∧ (storing [(11, 48)]).openAccess 0 = true ∧
    (storing [(11, 48)]).me.resp = none ∧ (answered [(11, 56)]).me.resp = some { value := 1, data := [1, 2] } := by decide +kernel

theorem witness_SystemInstructionResults_chkpt : (user [(10, 0xF3FFFF)]).rx 10 = BitVec.ofNat 64 (262143 + 15 * 2 ^ 20) ∧
    ((user [(10, 0xF3FFFF)]).tile 0).prot = false := by decide +kernel

/-- The tile is protected, with `n` notices unsent. -/
def noticed (n : Nat) : State :=
  let s := user [(10, 0xF3FFFF)]
  let x : Notice := { interval := 0, msg := mkMsg (mkHeader 0 0 0 0 0 0 1 0 1) (Vector.replicate 8 0) none, drank := 0, hart := 0, job := 1, part := 1 }
  s.setTile 0 { s.tile 0 with prot := true, notices := List.replicate n x }

theorem witness_SystemInstructionResults_notice : (noticed 31).rx 10 = BitVec.ofNat 64 (262143 + 15 * 2 ^ 20) ∧
    ((noticed 31).tile (noticed 31).site).prot = true ∧ ((noticed 31).tile (noticed 31).site).notices.length < 32 ∧
    32 ≤ ((noticed 32).tile (noticed 32).site).notices.length ∧ (noticed 32).rx 10 = (noticed 31).rx 10 := by decide +kernel

theorem witness_SystemInstructionResults_report : (user []).rx 10 = 0 ∧ (user []).rx 11 = 0 ∧ (machine [(10, 1)]).rx 10 = 1 ∧
    (machine [(10, 1)]).rx 11 = 0 ∧ (machine [(10, 1)]).me.priv = .M ∧ ((machine [(10, 1)]).tile 0).failed = false ∧
    (ringed [(10, 2)]).rx 10 = 2 ∧ MemWf (ringed [(10, 2)]) ∧ (ringed [(10, 2)]).partOfHart 0 ≠ 0 ∧
    ((ringed [(10, 2)]).part 1).ring = some { base := 0x1000, sizelog := 4, vector := 3, count := 0 } ∧
    (0 + 2 ^ 64 - (ringed [(10, 2)]).num (kHost 0x1000 + 8) 8) % 2 ^ 64 ≠ 2 ^ 4 := by unfold MemWf; decide +kernel

/-! ### Vectors -/

theorem witness_Vector_registers : NoStreams (user []) [0, 15, 12] ∧ EType.i8.isInt = true ∧ EType.e5m2.isInt = false ∧
    (0#3).getLsbD 0 = false ∧ activeList (user []) .i32 false ≠ [] ∧
    activeList (userWith [] fun t => { t with vl := 0 }) .i32 false = [] := by unfold NoStreams activeList laneOn; decide +kernel

/-- A bound stream: one row of 16 elements .f32 at scratchpad offset 64. -/
def aStream (w : Bool) : Stream := { base := 64, nrows := 1, write := w, typ := 3, nelem := 16, stride := 64, scale := 0, row := 0 }

/-- Stream 0 is bound. -/
def streaming (w : Bool) : State := userWith [] fun t => { t with streams := vset t.streams 0 (some (aStream w)) }

theorem witness_VselResults : NoStreams (user []) [0, 1, 2] ∧ ¬ NoStreams (streaming false) [0, 12, 2] := by
  unfold NoStreams; decide +kernel

theorem witness_VectorMemoryResults : NoStreams (user []) [1] ∧ MemWf (user []) ∧ (user []).me.resp = none ∧ (user []).net = [] ∧
    (∀ j ∈ activeList (user []) .i32 false, (((user []).rx 3) + BitVec.ofNat 64 (j * 4)).toNat % 4 = 0 ∧
      (user []).atHome (((user []).rx 3) + BitVec.ofNat 64 (j * 4)).toNat = false ∧
      LocalAt (user []) .read (((user []).rx 3) + BitVec.ofNat 64 (j * 4)).toNat 4 (kScratch 0 + 4 * j) ∧
      LocalAt (user []) .write (((user []).rx 3) + BitVec.ofNat 64 (j * 4)).toNat 4 (kScratch 0 + 4 * j)) ∧
    (∀ j ∈ activeList (user []) .i32 false,
      (((user []).rx 3) + BitVec.ofInt 64 ((j : Int) * ((user [(4, 64)]).rx 4).toInt)).toNat % 4 = 0 ∧
      LocalAt (user [(4, 64)]) .write (((user []).rx 3) + BitVec.ofInt 64 ((j : Int) * ((user [(4, 64)]).rx 4).toInt)).toNat 4
        (kScratch 0 + 64 * j)) := by unfold NoStreams LocalAt MemWf activeList laneOn; decide +kernel

theorem witness_VectorMemoryResults_translated : activeList (user [(3, 2 ^ 48)]) .i8 false ≠ [] ∧
    (user [(3, 2 ^ 48)]).me.resp = none ∧ (answered [(3, 2 ^ 48)]).me.resp = some { value := 1, data := [1, 2] } ∧
    ((user [(3, 2 ^ 48)]).rx 3).toNat % 64 = 0 ∧
    ∀ j ∈ activeList (user [(3, 2 ^ 48)]) .i8 false, routeOf (((user [(3, 2 ^ 48)]).rx 3) + BitVec.ofNat 64 (j * 1)).toNat = .translated := by
  unfold activeList laneOn; decide +kernel

theorem witness_VectorMoveRandomResults : NoStreams (user []) [1, 2, 3] ∧ (10#4).toNat ≤ 10 ∧ (user []).me.rmCode 0 ≠ 4 ∧
    (user []).me.rmCode 4 = 4 ∧
    (user [(2, 0x10720FFFFFFFF), (3, 3)]).rx ((2#4).setWidth 5) = BitVec.ofNat 64 (0xFFFFFFFF + 32 * 2 ^ 32 + 7 * 2 ^ 40 + 2 ^ 48) ∧
    (user [(2, 0x10720FFFFFFFF), (3, 3)]).rx ((2#4 + 1).setWidth 5) = BitVec.ofNat 64 3 ∧ 3 < 2 ^ 32 ∧
    (user []).rx ((2#4).setWidth 5) = BitVec.ofNat 64 (0 + 0 * 2 ^ 32 + 0 * 2 ^ 40 + 0) ∧ 0 < 2 ^ 0 := by
  unfold NoStreams; decide +kernel

/-- A descriptor of the stream. -/
def streamBlock : State := block [] [64, 2 ^ 32 + 3 * 2 ^ 20 + 16, 64, 0]

theorem witness_StreamOperandResults : (streamBlock.rx 0).toNat % 32 = 0 ∧
    LocalAt streamBlock .read (streamBlock.rx 0).toNat 32 (kScratch 0) ∧
    streamDesc (ofBytes (Memory.readN streamBlock.mem (kScratch 0 + 0) 8)) (ofBytes (Memory.readN streamBlock.mem (kScratch 0 + 8) 8))
      (ofBytes (Memory.readN streamBlock.mem (kScratch 0 + 16) 8)) (ofBytes (Memory.readN streamBlock.mem (kScratch 0 + 24) 8)) =
      .ok (aStream false) := by unfold LocalAt; decide +kernel

theorem witness_StreamOperandResults_rows : (streaming false).me.resp = none ∧ (streaming false).me.beat = 0 ∧
    (streaming true).me.resp = none ∧ (streaming true).me.beat = 0 ∧ (streaming true).net = [] ∧
    (streaming false).me.streams[0] = some (aStream false) ∧ (aStream false).row < (aStream false).nrows ∧ (0 : Int) ≤ (aStream false).stride ∧
    64 + 4 * 16 ≤ 2 ^ 48 ∧ NoStreams (streaming false) [1, 2] ∧ LocalAt (streaming false) .read 64 (4 * 16) (kScratch 0 + 64) ∧
    (streaming true).me.streams[0] = some (aStream true) ∧ NoStreams (streaming true) [1, 2] ∧ MemWf (streaming true) ∧
    (streaming true).atHome 64 = false ∧ (∀ j < 16, LocalAt (streaming true) .write (64 + 4 * j) 4 (kScratch 0 + 64 + 4 * j)) ∧
    ((streaming true).localKey 0 64 (4 * 16)).isSome = true ∧ (streaming true).atHome (64 + 4 * 16 - 1) = false := by
  unfold NoStreams LocalAt MemWf; decide +kernel

/-! ### The part's own steps -/

/-- The state a step leaves; `s` where it leaves none. -/
def run (o : State → Out) (s : State) : State := match o s with | .next t => t | _ => s

/-- Whether something is there and a check holds of it. -/
def given {α : Type} (o : Option α) (p : α → Bool) : Bool := match o with | some a => p a | none => false

/-- Region 15 throttled for some causes; a reservation holds it where asked. -/
def throttled (l : List Throttle) (held : Bool) : State :=
  let s := (user []).setReg 15 { Region.init with causes := l }
  if held then s.setPart 1 { s.part 1 with mhz := 2000, regions := [15] } else s

/-- A launch wave that still has region 3 to deliver to. -/
def waving : State := { user [] with waves := [{ packet := 9, rest := [(3, [])] }] }

theorem witness_PowerStepResults : (15 : Nat) < 16 ∧ ((throttled [] true).reg 15).causes = [] ∧
    ((throttled [.thermal] true).reg 15).causes ≠ [] ∧ ((throttled [.thermal] true).reg 15).causes.contains .droop = false ∧
    ((throttled [.droop] false).reg 15).causes = [.droop] ∧ (throttled [.droop] false).reservation 15 = none ∧
    (throttled [.droop] true).reservation 15 = some 1 ∧ ((throttled [.droop] true).part 1).ring = none ∧
    ((throttled [.droop, .power] false).reg 15).causes.contains .power = true ∧
    ((throttled [.droop, .power] false).reg 15).causes.length ≠ 1 ∧ waving.waves[0]? = some { packet := 9, rest := [(3, [])] } ∧
    (waving.taken.all fun x => x.id != 9 || (waving.part x.part).stage == .active) = true := by decide +kernel

/-- A signature of the empty image under the key whose exponent is 1: the encoded message of RFC 8017 with a salt of 32 zeros. -/
def aSignature : List Byte :=
    beBytes 48 0x6bf699d233b24c95e57c8f8ece798965821314ff341706322e9260d3c03c29756d4614c961472faaca6d58f14fe53723 ++
    beBytes 48 0xad01af1497680d822f828701fa2fddfcd19a803d31bda7b14adaac840f73a19176ec9ce9e8803127ca31f7e3c3fef037 ++
    beBytes 48 0xddb52a96aadf7a7c9378a1df44f54a3496d81e25c967ef073184e37b21c633ec973c0c48ca20700b304843680956a14f ++
    beBytes 48 0xcd63ea5f1717024df32899da9bf8e43599fab413d1ea4de121969fb84e0ebbcf571e73e50b208b0ab5304f051cbe8ab8 ++
    beBytes 48 0xa41ca57d653232d7ce960cd9615ae6d3c37e76f59d5ca5fff33497df05984c85a12fc5facf342e729b5d2fca2e1fd196 ++
    beBytes 48 0xaaf9bdbdae5dcaa3622c2294371d4076b78adff8f6ef2ecb97c53cf89e1a7595cf59e5d8dada14a0183091d20d6c95ee ++
    beBytes 48 0xd651a07ed1c044078f86b012062a8b9feec6b7514169a88461c20f69b688843970668f9a59f4ee16ed5e7839ce91d962 ++
    beBytes 48 0xd02d5bc395c6c20d3ede6c0a8e42bb5e25bcf2924e603ed8b91dc11c2a1d82ab296a72ccaf9af015d952d3da7de073bc

theorem test_pssVerify : pssVerify (2 ^ 3072, 1) [] aSignature = true := by decide +kernel

/-- A part with that image. -/
def signed (b : Bank) : State :=
  { State.reset with flash := { Flash.init with key := (2 ^ 3072, 1), image := [], signature := aSignature, bankA := b } }

/-- Its log cannot be read: bank A's header has no matching CRC. -/
def broken : State := signed { header := some { gen := 1, crc := 0, commit := 0 }, slots := [] }

/-- An append waits for bank A, which holds a header only. -/
def appending : State :=
  { signed { header := some (bankHead 1), slots := [] } with appends := [{ record := readmitRec 0, token := none }] }

/-- A part whose key is 0, under which no image passes. -/
def keyless : State := { State.reset with flash := plainFlash }

theorem witness_BootStepResults : keyless.powered = true ∧ keyless.boot.state = 0 ∧ keyless.flash.imageOk = false ∧
    { State.reset with boot := { Boot.init with state := 2 } }.boot.state ≠ 0 ∧ { State.reset with powered := false }.powered = false ∧
    broken.cold.measure.flash.logBroken = true ∧ appending.cold.measure.flash.logBroken = false ∧
    pssVerify keyless.flash.key [] [] = false ∧ (State.reset.appends.all fun x => x.token.isSome) = true ∧
    appending.appends.find? (fun x => x.token.isNone) = some { record := readmitRec 0, token := none } ∧
    appending.flash.activeA = some true ∧ appending.flash.bankA.slots.length < 8191 := by decide +kernel

/-- The images of `broken` and `appending` pass the check. -/
theorem witness_BootStepResults_signed : broken.powered = true ∧ broken.boot.state = 0 ∧ broken.flash.imageOk = true ∧
    appending.flash.imageOk = true := ⟨rfl, rfl, test_pssVerify, test_pssVerify⟩

/-- Thread 0 with job 0 held by its partition. -/
def inJob (s : State) : State := s.setPart 1 { s.part 1 with jobs := [{ num := 0, errCore := none, lastWave := none, launched := false }] }

/-- A message to thread rank 8, core 1, of the own tile on its way. -/
def sending : State := run (execSend 10) (inJob (user [(10, 8)]))

theorem witness_ItemArrivalResults_message : given sending.net[0]? (fun i =>
    i.stage == .waiting && i.dst == .core 1 && sending.injectable i && !(sending.tile (siteOf i.src)).failed &&
    sending.siteOfRank (1 / 4) == some 0 && sending.door 0 i.part == .open_ && sending.partOfSite 0 == some i.part &&
    !sending.det i.part && (match i.body with
      | .message m => ((sending.part i.part).job m.hdr.job).isSome && (sending.tile 0).freshMsg m 1 && m.hdr.kind == 0 &&
          decide (m.hdr.chan < 16) && m.cap.isNone && (((sending.core 1).chan m.hdr.chan).queue.length < 32) &&
          ((sending.core 1).chan m.hdr.chan).spill == [] &&
          (sending.localKey 0 ((sending.core 1).entryAt 1 m.hdr.chan ((sending.core 1).chan m.hdr.chan).queueSlot false) 80).isSome
      | _ => false)) = true ∧ MemWf sending := by unfold MemWf; decide +kernel

/-- The acknowledgement the message causes. -/
def acking : State := run (execMessageArrival 0) sending

theorem witness_ItemArrivalResults_ack : given acking.net[0]? (fun i =>
    i.stage == .waiting && decide (siteOf i.src < Config.numSites) && (match i.body with | .ack 1 0 _ => true | _ => false)) = true := by
  decide +kernel

/-- A frame to core 1 on its way. -/
def spawning : State := run (execSpawn 13 11 12) (user [(12, 1)])

theorem witness_ItemArrivalResults_frame : given spawning.net[0]? (fun i =>
    i.stage == .waiting && i.dst == .core 1 && spawning.injectable i && !spawning.det i.part && spawning.coreKey i.part 1 == some 1 &&
    spawning.door 0 i.part == .open_ && (spawning.tile 0).fresh (spawning.itemDomain i) i.seq && (spawning.core 1).takesFrame &&
    (match i.body with | .frame _ _ => true | _ => false)) = true ∧ MemWf spawning ∧
    (((spawning.core 1).frameAt 1 (spawning.core 1).frameSlot).bind fun a => spawning.localKey 0 a 80).isSome = true := by
  unfold MemWf; decide +kernel

/-- With a deque whose frames past the first lie in HBM, a frame there has no local place. -/
def spawningFar : State := spawning.setCore 1 (farFrames.core 0)

theorem witness_ItemArrivalResults_frame_far : given spawningFar.net[0]? (fun i =>
    spawningFar.injectable i && spawningFar.coreKey i.part 1 == some 1 && (spawningFar.core 1).takesFrame) = true ∧
    (((spawningFar.core 1).frameAt 1 (spawningFar.core 1).frameSlot).bind fun a => spawningFar.localKey 0 a 80) = none := by
  decide +kernel

/-- An arrival at a barrier of one core on its way. -/
def barring : State := run (execBar 10) (put (user [(10, 255)]) (kWindow 1 + 8 * 255) [1])

theorem witness_ItemArrivalResults_barrier : given barring.net[0]? (fun i =>
    i.stage == .waiting && i.body == .barrier i.part 255 0 0 && i.dst == .tile 0 && barring.siteOfRank 0 == some 0 && barring.injectable i &&
    barring.door 0 i.part == .open_ && (barring.tile 0).barriers == [] && barring.group i.part 255 == [0] && !barring.det i.part &&
    (barring.threads.any fun x => x.1 == 0 && x.2.status == .blocked (.barrier 255 0)) && barring.partOfHart 0 == i.part &&
    barring.logCore (coreOf 0) == 0) = true := by decide +kernel

/-- A capability on its way back. -/
def returning : State := run (execCapdrop 3) (capUser [])

theorem witness_ItemArrivalResults_capability : MemWf returning ∧ given returning.net[0]? (fun i =>
    i.body == .capReturn 1 aCap && !returning.writesUnderAt (coreOf i.src) aCap) = true ∧
    bitsN (returning.region 1 5).2 63 48 ≠ aCap.gen := by unfold MemWf; decide +kernel

/-- The same with the region's entry in memory. -/
def returned : State := put returning (kWindow 1 + 0x100008 + 16 * 5) [13, 0, 0, 0, 0, 0, 7]

theorem witness_ItemArrivalResults_capability_entry : MemWf returned ∧ given returned.net[0]? (fun i =>
    i.body == .capReturn 1 aCap && !returned.writesUnderAt (coreOf i.src) aCap) = true ∧
    bitsN (returned.region 1 5).2 63 48 = aCap.gen := by unfold MemWf; decide +kernel

/-- The message refused once; and refused where the channel's 32 entries are taken. -/
def refusedOnce (s : State) : State := { s with net := s.net.map fun i => { i with stage := .refused 65536 } }

/-- Channel 0 of core 1 full of the message. -/
def crowded : State :=
  sending.setCore 1 ((sending.core 1).setChan 0
    { queue := List.replicate 32 (mkMsg (mkHeader 0 0 8 0 0 0 0 0 0) (Vector.replicate 8 0) none, false), spill := [] })

/-- The state a second offer of item 0 leaves (R144). -/
def offered (s : State) : Option State :=
  s.net[0]?.map fun i => (s.setStage i.ord .waiting).offer { i with stage := .waiting } false

theorem witness_ItemArrivalResults_resend : given (refusedOnce sending).net[0]? (fun i =>
      i.stage == .refused 65536 && !(refusedOnce sending).det i.part && !(refusedOnce sending).behind i &&
      given (offered (refusedOnce sending)) fun u => u.net.all fun j => j.ord != i.ord) = true ∧
    given (refusedOnce crowded).net[0]? (fun i =>
      i.stage == .refused 65536 && !(refusedOnce crowded).det i.part && !(refusedOnce crowded).behind i &&
      given (offered (refusedOnce crowded)) fun u =>
        u.net.any fun j => j.ord == i.ord && (match j.stage with | .waiting | .refused _ => true | _ => false)) = true := by decide +kernel

/-! ### Homes -/

/-- A cached translation of the page 2^49 at its home, stack 32: region 5 at frame 0, with a mode and GEN 7. -/
def entry (mode : Nat) : TlbEntry :=
  { part := 1, page := 2 ^ 49, size := 65536, leaf := BitVec.ofNat 64 (5 * 2 ^ 48 + 17), w0 := BitVec.ofNat 64 (2 ^ 49 + 16),
    w1 := BitVec.ofNat 64 (7 * 2 ^ 48 + mode) }

/-- A state whose core holds the capability of that region and whose home has it cached. -/
def homed (mode : Nat) (l : List (Nat × Word)) : State :=
  let s := capUser l
  s.setAgent 32 { s.agent 32 with tlb := [entry mode] }

/-- What a resolution gives. -/
def resolved (s : State) (w : Option WKind) (cap : Option (Nat × Nat)) : HomeAns × State := s.resolve 1 (2 ^ 49) w cap

/-- A store, an AMO and an LDF on their way there. -/
def homeStore : State := run (execSd 11 10 0) (homed 1 [(10, 2 ^ 49), (11, 9)])
def homeAmo : State := run (execAmoadd .relaxed .tile true 1 11 10) (homed 2 [(10, 2 ^ 49), (11, 9)])
def homeLdf : State := let s := run (execLdf 1 10) (homed 1 [(10, 2 ^ 49)]); { s with full := [0] }

/-- The common hypotheses about item 0 at its home. -/
def atHome (s : State) (i : Item) : Bool :=
  i.stage == .waiting && s.injectable i && s.homeDoor i.part (2 ^ 49) == .open_ && Memory.wf s.mem && i.dst == homeOf (2 ^ 49)

theorem witness_HomeAccessResults_store : given homeStore.net[0]? (fun i => atHome homeStore i &&
    i.body == .store (2 ^ 49) (bytesOf 8 9) false && homeStore.freshAt (homeStore.homePlace i.part (2 ^ 49)) i &&
    (resolved homeStore (some .store) i.cap).1 == .ok 0 && (resolved homeStore (some .store) i.cap).2.mem == homeStore.mem) = true := by
  decide +kernel

theorem witness_HomeAccessResults_atomic : given homeAmo.net[0]? (fun i => atHome homeAmo i &&
    i.body == .ret (.amo .add (2 ^ 49) 8 9 0) && homeAmo.freshAt (homeAmo.homePlace i.part (2 ^ 49)) i &&
    (resolved homeAmo (some .atomic) i.cap).1 == .ok 0 && (resolved homeAmo (some .atomic) i.cap).2.mem == homeAmo.mem &&
    !(resolved homeAmo (some .atomic) i.cap).2.poisoned 0 8) = true := by decide +kernel

theorem witness_HomeAccessResults_load : given homeLdf.net[0]? (fun i => atHome homeLdf i && i.body == .ret (.ldf (2 ^ 49)) &&
    (resolved homeLdf none i.cap).1 == .ok 0 && (resolved homeLdf none i.cap).2.mem == homeLdf.mem &&
    (resolved homeLdf none i.cap).2.full == homeLdf.full && !(resolved homeLdf none i.cap).2.poisoned 0 8 &&
    homeLdf.isFull 0) = true := by decide +kernel

/-- The response, and one of cause 8. -/
def respondingAt (s : State) : Nat := (s.net.findIdx? fun i => match i.body with | .response .. => true | _ => false).getD 99
def homeAnswer : State := run (execRemoteLoadArrival 0) homeLdf
def missing : State :=
  { homeAnswer with net := homeAnswer.net.map fun i => match i.body with
      | .response _ a wr r q => { i with body := .response 8 a wr r q }
      | _ => i }

theorem witness_HomeAccessResults_response : given homeAnswer.net[respondingAt homeAnswer]? (fun i =>
      i.stage == .waiting && i.dst == .hart 0 && (homeAnswer.tile 0).takesResponse && decide (0 < peerSites * 32) &&
      (homeAnswer.thread 0).status == .blocked .response &&
      (match i.body with | .response 0 _ _ _ q => (homeAnswer.thread 0).req == q + 1 | _ => false)) = true ∧
    given missing.net[respondingAt missing]? (fun i => i.stage == .waiting && i.dst == .hart 0 && (missing.tile 0).takesResponse &&
      (missing.thread 0).status == .blocked .response &&
      (match i.body with | .response 8 _ _ _ q => (missing.thread 0).req == q + 1 | _ => false)) = true := by decide +kernel

/-- A fault message of a page. -/
def faulting : State :=
  let s := user []
  s.emit { s.item 0 0 false (.root 1) (.fault (2 ^ 49) 0 none) with counted := false }

theorem witness_HomeAccessResults_fault : given faulting.net[0]? (fun i =>
    i.stage == .waiting && i.body == .fault (2 ^ 49) 0 none && ((faulting.part i.part).faults.find? fun e => e.page == pageOf (2 ^ 49)).isNone &&
    (faulting.part i.part).assist == 0) = true := by decide +kernel

theorem witness_HomeAccessResults_admission : (homed 1 []).translate 1 (2 ^ 49) = (.ok (entry 1), homed 1 []) ∧
    bitsN (entry 1).leaf.toNat 63 48 = 5 ∧ bitsN (entry 1).w1.toNat 63 48 = 7 ∧ bitsN (entry 1).w1.toNat 1 0 = 1 ∧
    (homed 2 []).translate 1 (2 ^ 49) = (.ok (entry 2), homed 2 []) ∧ bitsN (entry 2).w1.toNat 1 0 = 2 ∧
    (homed 0 []).translate 1 (2 ^ 49) = (.ok (entry 0), homed 0 []) ∧ bitsN (entry 0).w1.toNat 1 0 = 0 ∧
    (homed 3 []).translate 1 (2 ^ 49) = (.ok (entry 3), homed 3 []) ∧ bitsN (entry 3).w1.toNat 1 0 = 3 := by decide +kernel

/-- A store held for a page, whose wake waits. -/
def waking : State :=
  let s := homeStore.setPart 1 { homeStore.part 1 with wakes := [(2 ^ 49, true)] }
  { s with net := s.net.map fun i => { i with stage := .held (2 ^ 49) } }

theorem witness_HomeAccessResults_wake : (waking.part 1).wakes.contains (2 ^ 49, true) = true ∧ (waking.part 1).stage ≠ .out ∧
    2 ^ 49 ≠ 0 ∧ waking.net.length = 1 ∧ (∀ i ∈ waking.net, i.part = 1 ∧ i.stage = .held (2 ^ 49) ∧ (waking.thread i.src).pend = none) := by
  decide +kernel

/-! ### Schedulers and recovery -/

/-- The message of `acking` in channel 0 of core 1, whose handler is enabled. -/
def filling : State :=
  acking.setCore 1 { acking.core 1 with handlers := vset (acking.core 1).handlers 0 { Handler.init with en := true, haddr := 0x80 } }

theorem witness_SchedulerStepResults_fill : filling.mayFill (0 * 4 + 1) = true ∧ (filling.tile 0).replaying = false ∧
    filling.det ((filling.partOfSite 0).getD 0) = false ∧ filling.freeSlot (0 * 4 + 1) = some 8 ∧ (filling.core 1).nextChannel = some 0 ∧
    given ((filling.core 1).chan 0).head (fun m => m.hdr.kind != 1) = true := by decide +kernel

/-- A frame in core 1's deque and a request for it from logical core 0; and the answer. -/
def framed : State := run (execSpawnFrameArrival 0) spawning
def asked : State := { framed with net := [] }.emit { framed.item 0 0 false (.core 1) (.stealReq 0) with counted := false }
def stolen : State := run (execStealRequest 0) asked

theorem witness_SchedulerStepResults_steal : given asked.net[0]? (fun i => i.stage == .waiting && i.body == .stealReq 0 &&
      i.dst == .core 1 && asked.coreKey i.part 1 == some 1 && (asked.tile 0).works && !(asked.tile 0).replaying &&
      (asked.core 1).deque.length == 1 && !(asked.core 1).preempt) = true ∧
    given stolen.net[0]? (fun i => i.stage == .waiting && (match i.body with | .stealAns (some _) => true | _ => false) && i.dst == .core 0 &&
      stolen.coreKey i.part 0 == some 0 && (stolen.tile 0).works && !(stolen.tile 0).replaying) = true ∧ MemWf stolen ∧
    (((stolen.core 0).frameAt 0 (stolen.core 0).frameSlot).bind fun a => stolen.localKey 0 a 80).isSome = true ∧
    ((farFrames.core 0).frameAt 0 (farFrames.core 0).frameSlot).bind (fun a => farFrames.localKey 0 a 80) = none := by
  unfold MemWf; decide +kernel

/-- Core 1 with something changed. -/
def core1 (f : Core → Core) : State := let s := user []; s.setCore 1 (f (s.core 1))

theorem witness_SchedulerStepResults_core : ((core1 fun c => { c with
      steal := some { victims := [], asking := false, pausing := true }, preempt := true }).core 1).steal =
      some { victims := [], asking := false, pausing := true } ∧
    (core1 fun c => { c with steal := some { victims := [], asking := false, pausing := true }, preempt := true }).mayFill 1 = false ∧
    (userWith [] fun t => { t with budget := 0 }).me.act = firstThread.act ∧ (userWith [] fun t => { t with budget := 0 }).me.priv = .U ∧
    (userWith [] fun t => { t with budget := 0 }).me.status ≠ .parked ∧ ((user []).tile (siteOf 0)).works = true ∧
    (user []).det (((user []).partOfSite 0).getD 0) = false ∧ ((core1 fun c => { c with preempt := true }).core 1).preempt = true ∧
    (∀ x < 8, ((core1 fun c => { c with preempt := true }).thread (1 * 8 + x)).status = .free) ∧
    (detUser []).det (((detUser []).partOfSite 0).getD 0) = true ∧ (core1 fun c => { c with slices := 62 }).sliceDue 1 = true ∧
    ((core1 fun c => { c with preempt := true }).tile 0).replaying = false ∧ ((user []).tile 0).failed = false := by decide +kernel

/-- Core 1 with slices passed, and the time its region has counted since power-up. -/
def scanning (n : Nat) (asked : Bool) (time : Nat) : State :=
  let s := core1 fun c => { c with slices := n, scanAsked := asked }
  s.setReg 0 { s.reg 0 with scaled := 2 * time }

theorem witness_SchedulerStepResults_scan : (scanning 62 true 0).sliceDue 1 = true ∧
    (scanning 62 true 0).slicesOf 1 + 1 ≠ 64 ∧ (scanning 63 false 0).sliceDue 1 = true ∧
    ((scanning 63 false 0).core 1).scanAsked = false ∧ (scanning 63 true 0).sliceDue 1 = true ∧
    (scanning 63 true 0).slicesOf 1 + 1 = 64 ∧ ((scanning 63 true 0).core 1).scanAsked = true ∧
    (scanning 63 false (299 * 10 ^ 8 + 1)).slicesOf 1 < 64 ∧
    ((scanning 63 false (299 * 10 ^ 8 + 1)).scanIndex 1 + 1) * (scanning 63 false 0).scanSpan <
      (scanning 63 false (299 * 10 ^ 8 + 1)).scanNow 1 - ((scanning 63 false 0).core 1).scanFrom + 10 ^ 8 ∧
    ((scanning 63 false (299 * 10 ^ 8 + 1)).core 1).scanRest = false ∧
    ((scanning 63 false (299 * 10 ^ 8 + 1)).tile 0).works = true ∧ (scanning 63 false (299 * 10 ^ 8)).scanUrgent 1 = false ∧
    (scanning 64 false (299 * 10 ^ 8 + 1)).scanUrgent 1 = false := by decide +kernel

/-- Job 5, quiet, with a last wave. -/
def quiet (w : Option (Nat × Nat)) : State :=
  let s := user []
  s.setPart 1 { s.part 1 with jobs := [{ num := 5, errCore := none, lastWave := w, launched := true }] }

theorem witness_SchedulerStepResults_wave : ((quiet none).part 1).job 5 = some { num := 5, errCore := none, lastWave := none, launched := true } ∧
    ((quiet none).part 1).stage = .active ∧ (quiet none).launching 1 5 = false ∧ (quiet none).jobTaken 1 5 = false ∧
    (((quiet none).partTiles 1).all fun b => (quiet none).quietTile b.2 5) = true ∧ ((quiet none).part 1).floeHolds 5 = false ∧
    (quiet none).homesQuiet 5 = true ∧ ((quiet none).sums 1 5).1 = ((quiet none).sums 1 5).2 ∧
    some ((quiet none).sums 1 5) = some (0, 0) ∧ (((quiet (some (0, 0))).part 1).job 5).bind (·.lastWave) = some ((quiet (some (0, 0))).sums 1 5) := by
  decide +kernel

/-- Tile 0 idle, protected, with site 1 as its buddy; with something changed. -/
def guarded (f : Tile → Tile) : State :=
  let s := userWith [] fun _ => Thread.init
  s.setTile 0 (f { s.tile 0 with prot := true, buddy := some 1, ival := 1 })

/-- A deterministic partition at the end of its quantum. -/
def atQuantum : State := let s := userWith [] fun _ => Thread.init; s.setPart 1 { s.part 1 with det := true }

theorem witness_SchedulerStepResults_quantum : atQuantum.quantumOver 1 = true ∧ atQuantum.net = [] ∧
    (∀ b ∈ atQuantum.partTiles 1, atQuantum.nextQueue b.2 = none) ∧
    ∀ b ∈ atQuantum.partTiles 1, (atQuantum.tile b.2).stage ≠ .closing := by decide +kernel

theorem witness_RecoveryStepResults_interval : ((guarded fun t => { t with closeReq := true }).tile 0).stage = .open_ ∧
    (guarded fun t => { t with closeReq := true }).checkpoints 0 = true ∧ (guarded fun t => { t with closeReq := true }).closeDue 0 = true ∧
    (guarded fun t => { t with stage := .closing }).atBoundary 0 = true ∧ (guarded id).det (((guarded id).partOfSite 0).getD 0) = false ∧
    ((guarded fun t => { t with stage := .copying }).tile 0).stage = .copying ∧
    (guarded fun t => { t with stage := .copying }).checkpoints 0 = true ∧
    ((guarded fun t => { t with stage := .copying }).tile 0).notices = [] ∧ (guarded fun t => { t with stage := .copying }).egressQ = [] ∧
    ((guarded fun t => { t with stage := .copying, ival := 2 }).tile 0).buddy = some 1 ∧
    Memory.wf (guarded fun t => { t with stage := .copying, ival := 2 }).firnMem = true ∧
    2 ≤ ((guarded fun t => { t with stage := .copying, ival := 2 }).tile 0).ival := by decide +kernel

/-! The tags of a firn copy: 12,288 blocks take too long to evaluate, so the memory that holds them is given by a proof. -/

/-- Pieces of 8 bytes joined, and the n-th of them again. -/
theorem piece {α : Type} (f : α → List Byte) (hf : ∀ x, (f x).length = 8) (l : List α) (n : Nat) :
    (l.flatMap f).drop (8 * n) = (l.drop n).flatMap f := by
  induction l generalizing n with
  | nil => simp
  | cons x l ih =>
    cases n with
    | zero => simp
    | succ n =>
      rw [List.flatMap_cons, List.drop_append, hf, show 8 * (n + 1) - 8 = 8 * n by omega,
        List.drop_of_length_le (by rw [hf]; omega), List.nil_append, ih]
      rfl

theorem flat8 {α : Type} (f : α → List Byte) (hf : ∀ x, (f x).length = 8) (l : List α) : (l.flatMap f).length = 8 * l.length := by
  induction l with
  | nil => rfl
  | cons x l ih => simp [hf, ih]; omega

/-- A firn copy of rank 0 at site 1, of interval 1, with every tag as R236 has it. -/
theorem tags_hold (s : State) : ∃ m : List Host.Cell, ({ s with firnMem := m } : State).firnIval 0 1 = some 1 ∧
    ∀ x, sinceMark (s.tile x).log = [] → ({ s with firnMem := m } : State).badTag x 0 1 = none := by
  obtain ⟨K, hK⟩ : ∃ K, kLogArea 1 = K := ⟨_, rfl⟩
  obtain ⟨S, hS⟩ : ∃ S, slotAt 1 = S := ⟨_, rfl⟩
  obtain ⟨F, hF⟩ : ∃ F, kFirn 1 = F := ⟨_, rfl⟩
  have hk : F + 48 * 2 ^ 20 = K := by rw [← hK, ← hF]; rfl
  have hs0 : 32 ≤ S := by rw [← hS]; decide
  obtain ⟨block, hb⟩ : ∃ f : Nat → List Byte, f = fun n => s.tag 0 1 (tagOffset 1 n) (Memory.readN [] (F + 4096 * n) 4096) := ⟨_, rfl⟩
  have hlen : ∀ n, (block n).length = 8 := by intro n; rw [hb]; exact State.tag_length ..
  obtain ⟨T, hT⟩ : ∃ l, l = (List.range 12288).flatMap block := ⟨_, rfl⟩
  have hTl : T.length = 98304 := by rw [hT, flat8 _ hlen, List.length_range]
  obtain ⟨m1, h1⟩ : ∃ m, m = Memory.writeN [] (K + S + 0x78000) T := ⟨_, rfl⟩
  obtain ⟨m2, h2⟩ : ∃ m, m = Memory.writeN m1 (K) (bytesOf 8 1 ++ bytesOf 8 (0x4649524E * 2 ^ 32 + 1)) := ⟨_, rfl⟩
  obtain ⟨g2, hg2⟩ : ∃ g, g = s.tag 0 1 (tagOffset 2 1) (imageAreas.flatMap fun x => Memory.readN m2 (K + S + x.1) x.2) := ⟨_, rfl⟩
  obtain ⟨m3, h3⟩ : ∃ m, m = Memory.writeN m2 (K + S + 0x77FF8) g2 := ⟨_, rfl⟩
  obtain ⟨g3, hg3⟩ : ∃ g, g = s.tag 0 1 logAreaAt (Memory.readN m3 (K) 24) := ⟨_, rfl⟩
  obtain ⟨m4, h4⟩ : ∃ m, m = Memory.writeN m3 (K + 24) g3 := ⟨_, rfl⟩
  obtain ⟨u, hu⟩ : ∃ u : State, u = { s with firnMem := m4 } := ⟨_, rfl⟩
  have htile : ∀ x, u.tile x = s.tile x := fun _ => by rw [hu]; rfl
  refine ⟨m4, ?_⟩
  rw [← hu]
  have hw1 : Memory.wf m1 = true := h1 ▸ Memory.wf_writeN _ _ Memory.wf_nil
  have hw2 : Memory.wf m2 = true := h2 ▸ Memory.wf_writeN _ _ hw1
  have hw3 : Memory.wf m3 = true := h3 ▸ Memory.wf_writeN _ _ hw2
  have hg2l : g2.length = 8 := hg2 ▸ State.tag_length ..
  have hg3l : g3.length = 8 := hg3 ▸ State.tag_length ..
  have hs : ∀ a b c d, u.tag a b c d = s.tag a b c d := fun _ _ _ _ => by rw [hu]; rfl
  have hf : ∀ k n, u.firnBytes k n = Memory.readN m4 k n := by
    intro k n; rw [hu]; rfl
  have hhl : (bytesOf 8 1 ++ bytesOf 8 (0x4649524E * 2 ^ 32 + 1)).length = 16 := by simp [bytesOf_length]
  have e4 : ∀ a n, (a + n ≤ K + 24 ∨ K + 32 ≤ a) → Memory.readN m4 a n = Memory.readN m3 a n := by
    intro a n h; rw [h4]; exact Memory.readN_writeN_out hw3 _ _ _ _ (by omega)
  have e3 : ∀ a n, (a + n ≤ K + S + 0x77FF8 ∨ K + S + 0x78000 ≤ a) →
      Memory.readN m3 a n = Memory.readN m2 a n := by
    intro a n h; rw [h3]; exact Memory.readN_writeN_out hw2 _ _ _ _ (by omega)
  have e2 : ∀ a n, (a + n ≤ K ∨ K + 16 ≤ a) → Memory.readN m2 a n = Memory.readN m1 a n := by
    intro a n h; rw [h2]; exact Memory.readN_writeN_out hw1 _ _ _ _ (by omega)
  have hhead : u.headIval 1 = some 1 := by
    have hh : u.firnBytes (K) 16 = bytesOf 8 1 ++ bytesOf 8 (0x4649524E * 2 ^ 32 + 1) := by
      rw [hf, e4 _ _ (by omega), e3 _ _ (by omega), h2, ← hhl]; exact Memory.readN_writeN hw1 _ _
    simp only [State.headIval, hK, hh]
    decide
  have hiv : u.firnIval 0 1 = some 1 := by
    have ht : u.headTagged 0 1 1 = true := by
      simp only [State.headTagged, hK, hs, hf]
      rw [e4 _ 24 (by omega), ← hg3, h4, beq_iff_eq, ← hg3l]
      exact Memory.readN_writeN hw3 _ _
    simp only [State.firnIval, hhead, Option.filter, ht, if_true]
  refine ⟨hiv, fun x hx => ?_⟩
  have harea : ∀ a n, 32 ≤ a → (a + n ≤ S + 0x77FF8 ∨ S + 0x78000 ≤ a) →
      Memory.readN m4 (K + a) n = Memory.readN m2 (K + a) n := by
    intro a n h0 h; rw [e4 _ _ (by omega), e3 _ _ (by omega)]
  have hparts : u.slotParts 1 1 = imageAreas.map fun x => Memory.readN m2 (K + S + x.1) x.2 := by
    simp only [State.slotParts, hK, hS, hf]
    refine List.map_congr_left fun y hy => ?_
    rw [Nat.add_assoc]
    refine harea _ _ (by omega) ?_
    simp only [imageAreas, accBytes, plainArea, List.mem_cons, List.not_mem_nil, or_false] at hy
    rcases hy with rfl | rfl | rfl | rfl | rfl <;> (dsimp only; omega)
  have htable : (u.slotParts 1 1).getD 4 [] = T := by
    rw [hparts]
    show Memory.readN m2 (K + S + 0x78000) (12288 * 8) = T
    rw [e2 _ _ (by omega), h1, show 12288 * 8 = T.length by rw [hTl]]
    exact Memory.readN_writeN Memory.wf_nil _ _
  have hblocks : u.badBlock 0 1 1 T = none := by
    unfold State.badBlock
    rw [hF]
    rw [List.find?_eq_none]
    intro n hn
    have hn' := List.mem_range.1 hn
    have hr : u.firnBytes (F + 4096 * n) 4096 = Memory.readN [] (F + 4096 * n) 4096 := by
      rw [hf, e4 _ _ (by omega), e3 _ _ (by omega), e2 _ _ (by omega), h1]
      exact Memory.readN_writeN_out Memory.wf_nil _ _ _ _ (by omega)
    have ht : (T.drop (8 * n)).take 8 = block n := by
      rw [hT, piece _ hlen, List.drop_eq_getElem_cons (by rw [List.length_range]; exact hn'), List.flatMap_cons,
        List.getElem_range, List.take_append_of_le_length (by rw [hlen]), List.take_of_length_le (by rw [hlen])]
    rw [hs, hr, ht, hb]
    simp
  have himage : u.firnBytes (K + S + 0x77FF8) 8 =
      u.tag 0 1 (tagOffset 2 1) (u.slotParts 1 1).flatten := by
    rw [hs, hparts, ← List.flatMap_def, ← hg2, hf, e4 _ _ (by omega), h3]
    conv => lhs; rw [← hg2l]
    exact Memory.readN_writeN hw2 _ _
  simp only [State.badTag, hK, hS, hiv, himage, htable, hblocks, htile, hx, State.badRecord, bne_self_eq_false]
  rfl

theorem firnOf_with (s : State) (m : List Host.Cell) (l x b n : Nat) (f : Firn) (h1 : s.siteOfRank l = some x)
    (h2 : (s.tile x).buddy = some b) (h3 : ({ s with firnMem := m } : State).firnIval l b = some n)
    (h4 : (s.firns.find? fun f => f.ward == l && f.ival == n) = some f) : ({ s with firnMem := m } : State).firnOf l = some f := by
  have h : (({ s with firnMem := m } : State).siteOfRank l).bind (fun x => (({ s with firnMem := m } : State).tile x).buddy) = some b := by
    show (s.siteOfRank l).bind (fun x => (s.tile x).buddy) = some b
    rw [h1]; exact h2
  unfold State.firnOf
  rw [h]
  show ((({ s with firnMem := m } : State).firnIval l b).bind fun n => s.firns.find? fun f => f.ward == l && f.ival == n) = some f
  rw [h3]; exact h4

theorem stopTile_firnMem (s : State) (m : List Host.Cell) (x c : Nat) :
    ({ s with firnMem := m } : State).stopTile x c = { s.stopTile x c with firnMem := m } := by
  show (if (s.tile x).failed then _ else _) = _
  unfold State.stopTile
  by_cases h : (s.tile x).failed = true
  · simp only [h, if_true]
  · simp only [h, if_false, Bool.false_eq_true]; rfl

/-- The state image of interval 1 of rank 0; tile 0 with that copy, with something changed. -/
def aFirn : Firn :=
  { ward := 0, ival := 1, image := { rank := 0, site := 0, tile := Tile.init, cores := [], threads := [], scratch := [], bonded := [],
                                     accs := [], fullS := [], fullB := [], issued := [], at_ := 0, taken := [], replays := [] } }
def copied (f : Tile → Tile) : State := { guarded f with firns := [aFirn] }

/-- The hypotheses of TILE_FAILURE on a site. -/
def mayFail (s : State) (site cause : Nat) : Bool :=
  let u := s.stopTile site cause
  (s.tile site).role != .retired && (s.tile site).role != .void && (s.assists.all fun a => !(a.func == 4 && a.obj == site)) &&
    s.failQ.isEmpty && decide (site < Config.numSites) && !(s.tile site).failed && !u.recovering (regionOf site) &&
    (u.restoringFrom site).isNone

/-- The same while the host decides on another tile of the region. -/
def deciding : State := { user [] with assists := [{ token := 9, func := 4, part := 1, arg := 1, obj := 1 }] }

theorem witness_RecoveryStepResults_failure : mayFail (user []) 9215 2 = true ∧ ((user []).tile 9215).rank = none ∧
    mayFail { user [] with parts := [] } 0 2 = true ∧ ({ user [] with parts := [] }.tile 0).rank = some 0 ∧
    ({ user [] with parts := [] }.stopTile 0 2).partOfSite 0 = none ∧
    mayFail (user []) 0 2 = true ∧ ((user []).tile 0).rank = some 0 ∧ ((user []).stopTile 0 2).partOfSite 0 = some 1 ∧
    ((user []).tile 0).stage = .open_ ∧ ((user []).tile 0).prot = false ∧
    ((guarded id).tile 0).prot = true ∧ mayFail (guarded id) 0 2 = true ∧ ((guarded id).stopTile 0 2).hasFirn 0 = false ∧
    (deciding.stopTile 0 2).recovering (regionOf 0) = true ∧ deciding.failQ = [] ∧ (deciding.tile 0).failed = false ∧
    (deciding.assists.all fun a => !(a.func == 4 && a.obj == 0)) = true := by decide +kernel

/-- A tile with a valid copy may fail, whether or not the partition has assists for it. -/
theorem witness_RecoveryStepResults_failure_copied : ∀ a ∈ [0, 16], ∃ m : List Host.Cell,
    let c := copied fun t => { t with ival := 2 }
    let s : State := { c.setPart 1 { c.part 1 with assist := a } with firnMem := m }
    mayFail s 0 2 = true ∧ (s.tile 0).prot = true ∧ (s.tile 0).stage = .open_ ∧ (s.stopTile 0 2).partOfSite 0 = some 1 ∧
      (s.stopTile 0 2).hasFirn 0 = true ∧ ((s.stopTile 0 2).part 1).assist.testBit 4 = decide (a = 16) := by
  intro a ha
  obtain ⟨c, hc⟩ : ∃ c : State, c = (copied fun t => { t with ival := 2 }).setPart 1
      { (copied fun t => { t with ival := 2 }).part 1 with assist := a } := ⟨_, rfl⟩
  have h : mayFail c 0 2 = true ∧ (c.tile 0).prot = true ∧ (c.tile 0).stage = .open_ ∧ (c.stopTile 0 2).partOfSite 0 = some 1 ∧
      ((c.stopTile 0 2).part 1).assist.testBit 4 = decide (a = 16) ∧ (c.stopTile 0 2).siteOfRank 0 = some 0 ∧
      ((c.stopTile 0 2).tile 0).buddy = some 1 ∧ (c.stopTile 0 2).buddyWorks 0 = true ∧
      ((c.stopTile 0 2).firns.find? fun f => f.ward == 0 && f.ival == 1) = some aFirn := by
    subst hc; revert a; decide +kernel
  obtain ⟨m, hm, -⟩ := tags_hold (c.stopTile 0 2)
  refine ⟨m, ?_⟩
  show mayFail { ((copied fun t => { t with ival := 2 }).setPart 1 _) with firnMem := m } 0 2 = true ∧ _
  rw [← hc, stopTile_firnMem]
  have hf := firnOf_with (c.stopTile 0 2) m 0 0 1 1 aFirn h.2.2.2.2.2.1 h.2.2.2.2.2.2.1 hm h.2.2.2.2.2.2.2.2
  refine ⟨?_, h.2.1, h.2.2.1, h.2.2.2.1, ?_, h.2.2.2.2.1⟩
  · unfold mayFail; rw [stopTile_firnMem]; exact h.1
  · unfold State.hasFirn
    rw [hf]
    show (true && ((c.stopTile 0 2).siteOfRank 0).any (c.stopTile 0 2).buddyWorks) = true
    rw [h.2.2.2.2.2.1]; exact h.2.2.2.2.2.2.2.1

/-- A tile that awaits its restore, with every tag right. -/
theorem witness_RecoveryStepResults_restore : ∃ m : List Host.Cell,
    let s : State := { (copied fun t => { t with ival := 2, awaits := true }) with firnMem := m }
    (s.tile 0).awaits = true ∧ (s.tile 0).failed = false ∧ (s.tile 0).buddy = some 1 ∧ (s.tile 1).failed = false ∧
      s.firnOf ((s.tile 0).rank.getD 0) = some aFirn ∧ s.badTag 0 ((s.tile 0).rank.getD 0) 1 = none ∧
      s.det ((s.partOfSite 0).getD 0) = false := by
  obtain ⟨c, hc⟩ : ∃ c : State, c = copied fun t => { t with ival := 2, awaits := true } := ⟨_, rfl⟩
  have h : (c.tile 0).awaits = true ∧ (c.tile 0).failed = false ∧ (c.tile 0).buddy = some 1 ∧ (c.tile 1).failed = false ∧
      c.siteOfRank 0 = some 0 ∧ (c.firns.find? fun f => f.ward == 0 && f.ival == 1) = some aFirn ∧ sinceMark (c.tile 0).log = [] ∧
      (c.tile 0).rank = some 0 ∧ c.det ((c.partOfSite 0).getD 0) = false := by subst hc; decide +kernel
  obtain ⟨m, hm, hb⟩ := tags_hold c
  have hr : (({ c with firnMem := m } : State).tile 0).rank.getD 0 = 0 := by
    show (c.tile 0).rank.getD 0 = 0
    rw [h.2.2.2.2.2.2.2.1]; rfl
  refine ⟨m, ?_⟩
  rw [← hc]
  refine ⟨h.1, h.2.1, h.2.2.1, h.2.2.2.1, ?_, ?_, h.2.2.2.2.2.2.2.2⟩
  · rw [hr]; exact firnOf_with c m 0 0 1 1 aFirn h.2.2.2.2.1 h.2.2.1 hm h.2.2.2.2.2.1
  · rw [hr]; exact hb 0 h.2.2.2.2.2.2.1

/-- A wrong block: its tag is not that of the table, which reads 0. -/
theorem witness_RecoveryStepResults_restore_failing : (guarded fun t => { t with awaits := true }).firnOf 0 = none ∧
    (guarded fun t => { t with awaits := true, buddy := none }).hasPart
      (((guarded fun t => { t with awaits := true, buddy := none }).partOfSite 0).getD 0) = true ∧
    ((guarded fun t => { t with awaits := true, buddy := none }).tile 0).buddy = none ∧ 5 % 8 ≠ 0 ∧
    ((guarded fun t => { t with awaits := true }).badTag 0 0 1).isSome = true ∧
    (((guarded fun t => { t with awaits := true }).setTile 1 { Tile.init with failed := true }).tile 1).failed = true ∧
    (((guarded fun t => { t with awaits := true }).setTile 1 { Tile.init with failed := true }).tile 0).buddy = some 1 := by decide +kernel

theorem witness_RecoveryStepResults_errors : ((guarded fun t => { t with home := some 7 }).tile 0).home = some 7 ∧
    ((user []).tile 0).failed = false ∧ ((user []).tile 0).role ≠ .retired ∧ ((user []).tile 0).role ≠ .void ∧
    (Config.hbmBytes / 64 - 1) * 64 < Config.hbmBytes ∧ 47 < Config.numStacks ∧
    ((guarded fun t => { t with replaying := true }).tile 0).replaying = true ∧
    ((guarded fun t => { t with replaying := true }).tile 0).replay = [] ∧ ((guarded fun t => { t with replaying := true }).tile 0).awaits = false ∧
    (guarded fun t => { t with replaying := true }).buddyWorks 0 = true ∧
    (guarded id).det (((guarded id).partOfSite 0).getD 0) = false ∧ agentOf 0 = none ∧ agentOf (Config.numSites + 48) = some 47 ∧
    ((guarded fun t => { t with failb := 3 }).tile 0).failb < 4 ∧ 4 ≤ ((guarded fun t => { t with spused := true, failb := 4 }).tile 0).failb ∧
    ((guarded fun t => { t with spbuild := true, failb := 1 }).tile 0).spbuild = true ∧ ((guarded id).tile 0).accbuild = false ∧
    ((guarded fun t => { t with accbuild := true }).tile 0).accbuild = true ∧
    ((guarded fun t => { t with accbuild := true }).tile 0).accused = false := by decide +kernel

/-- Partition 1 in a stage, with a page of 1 GiB at 2^49 on frames of every stack. -/
def mapping (st : PartStage) : State :=
  let s := put (put (put (put (user []) (kWindow 1 + 0x40000) [0, 0, 1]) 0x10010 [1, 0, 2]) 0x20000 [1, 0, 3]) 0x30000 [17]
  s.setPart 1 { s.part 1 with stage := st }

theorem witness_RecoveryStepResults_stack : 1 ∈ (mapping .active).stackUsers 47 ∧ ((mapping .active).part 1).stage ≠ .out ∧
    1 ∈ (mapping .out).stackUsers 47 ∧ ((mapping .out).part 1).stage = .out := by decide +kernel

/-- The partition stopped; and restoring with two segments to read. -/
def halted : State := let s := guarded id; s.setPart 1 { s.part 1 with stage := .stopped }
def reading : State :=
  let s := { guarded id with devValid := true }
  s.setPart 1 { s.part 1 with stage := .restoring, readTodo := [0, 1] }
def lostOne : State := let s := guarded id; s.setPart 1 { s.part 1 with stage := .out, lost := true }

theorem witness_RecoveryStepResults_rollback : (halted.part 1).stage = .stopped ∧ (halted.part 1).rpCur = 0 ∧ (halted.part 1).badStacks = [] ∧
    (halted.part 1).restore = none ∧ (lostOne.part 1).stage = .out ∧
    (lostOne.part 1).lost = true ∧ reading.devValid = true ∧ (reading.part 1).stage = .restoring ∧ (reading.part 1).readTodo.contains 0 = true ∧
    (reading.part 1).readTodo.erase 0 ≠ [] := by decide +kernel

theorem witness_RecoveryStepResults_retrain : ∀ q, (State.reset.part q).stage ≠ .restoring := by
  intro q h; cases h

/-! ### The host port -/

/-- VF 0 bound to partition 1, with its queue 15 enabled or not, in a STATE. -/
def host (en : Bool) (state : Nat) : State :=
  let s := { inJob (user []) with vfs := vset (user []).vfs 0 (some 1), boot := { Boot.init with state := state } }
  s.setQueue 0 15 { s.queue 0 15 with en := en, base := 0x8000000000100000 }

theorem witness_HostPortResults_queue : hasQueue 0 15 = true ∧ ((host true 2).partOfFn 0).isSome = true ∧ ((host true 2).queue 0 15).en = true ∧
    ((host false 2).queue 0 15).en = false ∧ ((host false 2).partOfFn 0).isSome = true ∧
    (0x41#64).getLsbD 0 = true ∧ 4 ≤ bitsN (0x41#64).toNat 8 4 ∧ bitsN (0x101#64).toNat 8 4 ≤ 16 ∧ (0x101#64).getLsbD 0 = true ∧
    (0x40#64).getLsbD 0 = false ∧ (host true 0).boot.state ≠ 2 ∧ (host true 2).boot.state = 2 ∧
    ((16#64).setWidth 32 - ((host true 2).queue 0 15).qread).toNat ≤ 2 ^ ((host true 2).queue 0 15).sizelog ∧
    ((16#64).setWidth 32 - ((host true 2).queue 0 15).notified).toNat ≤ 2 ^ ((host true 2).queue 0 15).sizelog ∧
    ¬ ((17#64).setWidth 32 - ((host true 2).queue 0 15).qread).toNat ≤ 2 ^ ((host true 2).queue 0 15).sizelog ∧
    (2#64).getLsbD 1 = true ∧ (1#64).getLsbD 1 = false ∧ (host true 2).partOfFn 15 = none ∧ pf ≤ 16 ∧
    hasQueue pf 3 = true ∧ ((host true 2).partOfFn pf).isSome = true := by decide +kernel

/-- Port 63 in a state, expecting link sequence 65,535. -/
def linked (state : Nat) : State := let s := host true 2; s.setPort 63 { s.port 63 with state := state, lseq := 65535 }

/-- The words of a message flit with link sequence 65,535: sender rank 1, kind 0, job 0. -/
def flitWords : List Word := [BitVec.ofNat 64 (1 + 65535 * 2 ^ 8), BitVec.ofNat 64 (2 ^ 34)] ++ List.replicate 21 0

theorem witness_HostPortResults_port : ((linked 1).port 63).state ≠ 2 ∧ ((linked 1).port 63).state ≠ 3 ∧ ((linked 2).port 63).state = 2 ∧
    ((linked 3).port 63).state = 3 ∧ ((linked 2).port 63).lseq = 65535 ∧ (flitWords.getD 0 0).toNat % 16 = 1 ∧
    (flitWords.getD 0 0).toNat / 2 ^ 8 % 2 ^ 16 = 65535 ∧ (2 + 65535 * 2 ^ 8) % 16 = 2 ∧ (2 + 65535 * 2 ^ 8) / 2 ^ 8 % 2 ^ 16 = 65535 ∧
    (((linked 2).port 63).askReplay 0 4).state ≠ 0 ∧
    ({ (linked 2).port 63 with times := List.replicate 15 0 }.askReplay 0 0).state = 0 ∧ flitWords.getD 1 0 ≠ 0 ∧
    (headerOf (flitWords.getD 1 0).toNat (flitWords.getD 2 0).toNat).kind < 6 ∧
    (linked 2).jobOwner (headerOf (flitWords.getD 1 0).toNat (flitWords.getD 2 0).toNat).job = some 1 ∧
    ∀ j ∈ [11, 12, 21, 22], flitWords.getD j 0 = 0 := by decide +kernel

/-! ### Packets -/

/-- A packet of a partition's control tile 0 with its words; the header's TYPE is given apart. -/
def packet (id p typ : Nat) (src : QSrc) (ws : List Nat) : Taken :=
  newTaken id src 0 p 0 0 (Vector.ofFn fun i => BitVec.ofNat 64 (ws.getD i.val 0 + if i.val = 0 then typ * 256 else 0)) 0 0

/-- The host state with packets taken. -/
def taking (l : List Taken) : State := { host true 2 with taken := l }

/-- A word of host memory's address. -/
def hw (a : Nat) : Nat := 2 ^ 63 + a

/-- A signal packet, an open barrier packet before it, and one with BARRIER set. -/
def sigPk (id : Nat) (op : Nat) : Taken := packet id 1 5 (.vf 0 15) [1, 0, hw 0x1000, 3, op]
def barPk (id : Nat) (st : PStage) : Taken := { packet id 1 3 (.vf 0 15) [1, 0, hw 0x1000] with stage := st }
def lastPk (id : Nat) : Taken := packet id 1 5 (.vf 0 15) [3, 0, hw 0x1000, 3, 0]

theorem witness_PacketStartOrder : (taking [sigPk 7 0]).taken[0]? = some (sigPk 7 0) ∧ ((taking [sigPk 7 0]).taken.map (·.id)).Nodup ∧
    (sigPk 7 0).stage = .ready ∧ (taking [sigPk 7 0]).cpRuns 1 0 = true ∧
    (((taking [sigPk 7 0]).taken.take 0).filter fun y => y.src == (sigPk 7 0).src) = [] ∧
    (taking [barPk 6 .running, sigPk 7 0]).taken[1]? = some (sigPk 7 0) ∧
    ((taking [barPk 6 .running, sigPk 7 0]).taken.map (·.id)).Nodup ∧
    (((taking [barPk 6 .running, sigPk 7 0]).taken.take 1).filter fun y => y.src == (sigPk 7 0).src) = [barPk 6 .running] ∧
    (barPk 6 .running).typ = 3 ∧ ((lastPk 8).word 0).getLsbD 1 = true ∧ (lastPk 8).stage = .ready ∧
    (((taking [sigPk 7 0, lastPk 8]).taken.take 1).filter fun y => y.src == (lastPk 8).src) ≠ [] := by decide +kernel

/-- Queue 15 of VF 0 with one slot notified, which holds a packet's words; `polls` reads have found VALID 0. -/
def slottedWith (ws : List Nat) (polls : Nat) : State :=
  let s := put (host true 2) (kHost 0x100000) (ws.flatMap fun w => bytesOf 8 w)
  s.setQueue 0 15 { s.queue 0 15 with notified := 1, polls := polls }
def slotted (hdr : Nat) (polls : Nat) : State := slottedWith [hdr, 0, hw 0x1000, 3] polls

/-- The packet in the slot. -/
def slotPk (s : State) : Taken := newTaken s.nextId (.vf 0 15) 0 1 0 0 (s.words8 (kHost 0x100000)) 0 0

/-- Whether a packet passes the checks where the slot's reading has left the queue. -/
def slotCheck (s : State) : Nat :=
  State.checkPacket { ((s.putNum (kHost 0x100000) 8 (s.num (kHost 0x100000) 8 - 1)).setQueue 0 15
    { s.queue 0 15 with qread := 1, polls := 0 }) with nextId := s.nextId + 1 } (slotPk s)

theorem witness_PacketTakeResults : MemWf (slotted 0x501 0) ∧ (slotted 0x501 0).cpRuns 1 0 = true ∧
    (slotted 0x501 0).nextTake 1 0 = some (0, queueKey 0 15, .vf 0 15) ∧ ((slotted 0x501 0).queue 0 15).slot.getLsbD 63 = true ∧
    (vget 0 ((slotted 0x501 0).words8 (kHost 0x100000)) 0).getLsbD 0 = true ∧ slotCheck (slotted 0x501 0) = 0 ∧
    (slotPk (slotted 0x501 0)).typ = 5 ∧ slotCheck (slotted 0x0A01 0) = 1 ∧
    (vget 0 ((slotted 0x500 0).words8 (kHost 0x100000)) 0).getLsbD 0 = false ∧ (998 : Nat) < 999 ∧
    (host true 2).nextTake 1 0 = none ∧ ((slotted 0x500 999).queue 0 15).polls ≠ 0 ∧ 999 ≤ ((slotted 0x500 999).queue 0 15).polls ∧
    ((slotted 0x500 998).queue 0 15).polls ≠ 0 ∧ ((slotted 0x500 998).queue 0 15).en = true ∧ (slotted 0x500 998).partOfFn 0 = some 1 ∧
    (slotted 0x500 998).server 1 15 = 0 ∧ ((slotted 0x500 998).queue 0 15).slot.getLsbD 63 = true ∧
    ((slotted 0x500 998).takeable 1 0).all (fun x => decide (x.1 ≤ ((slotted 0x500 998).queue 0 15).prio)) = true ∧
    slotCheck (slottedWith [0x301, 0, hw 0x1000] 0) = 0 ∧ (slotPk (slottedWith [0x301, 0, hw 0x1000] 0)).typ = 3 ∧
    (slottedWith [0x301, 0, hw 0x1000] 0).nextTake 1 0 = some (0, queueKey 0 15, .vf 0 15) := by unfold MemWf; decide +kernel

/-- A polled queue beside one of higher PRIO that has a packet. -/
def outranked : State :=
  let s := slotted 0x500 998
  s.setQueue 0 14 { s.queue 0 15 with prio := 3, polls := 0 }

theorem witness_PacketTakeResults_outranked : outranked.partOfFn 0 = some 1 ∧ outranked.server 1 15 = 0 ∧
    (outranked.queue 0 15).polls ≠ 0 ∧ (outranked.queue 0 15).en = true ∧ (outranked.queue 0 15).slot.getLsbD 63 = true ∧
    MemWf outranked ∧ outranked.cpRuns 1 0 = true ∧
    (outranked.takeable 1 0).any (fun x => decide ((outranked.queue 0 15).prio < x.1)) = true := by unfold MemWf; decide +kernel

/-- A device queue with a signal packet. -/
def launched : State :=
  { host true 2 with devq := [(4, { slots := [((sigPk 0 0).words, 5, 0, 9)], last := [] })] }

theorem witness_PacketTakeResults_device : launched.nextTake 1 0 = some (8, 512, .device 1 0) ∧
    (SMap.get DevQueue.init launched.devq (1 * 4 + 0)).slots = [((sigPk 0 0).words, 5, 0, 9)] ∧
    State.checkPacket launched (newTaken launched.nextId (.device 1 0) 0 1 0 8 (sigPk 0 0).words 5 9) = 0 ∧
    (newTaken launched.nextId (.device 1 0) 0 1 0 8 (sigPk 0 0).words 5 9).typ = 5 := by decide +kernel

/-- A polled queue that has been disabled. -/
def pollOff : State := let s := slotted 0x500 3; s.setQueue 0 15 { s.queue 0 15 with en := false }

theorem witness_PacketTakeResults_off : (pollOff.queue 0 15).polls ≠ 0 ∧ (pollOff.queue 0 15).en = false ∧ pollOff.partOfFn 0 = some 1 ∧
    pollOff.server 1 15 = 0 := by decide +kernel

/-- Packets of each kind, in a host memory whose word at 0x1000 is 0 or 5. -/
def lastly (pk : Taken) (st : PStage) (v : Byte) : State := put (taking [{ pk with stage := st }]) (kHost 0x1000) [v]
def signalling : Taken := packet 7 1 5 (.vf 0 15) [5, hw 0x2000, hw 0x1000, 3]
def launchPk : Taken := { packet 7 1 1 (.vf 0 15) [1, 0, 0, 0, 1, 2, 3, 4] with members := [0] }
def copyPk : Taken := packet 7 0 2 (.vf pf 0) [1, 0, hw 0x1000, hw 0x2000, 8]

theorem witness_PacketResults_complete : (lastly (sigPk 7 0) .running 0).packetDone { sigPk 7 0 with stage := .running } = false ∧
    MemWf (lastly signalling .finished 5) ∧ (lastly signalling .finished 5).packetDone { signalling with stage := .finished } = true ∧
    signalling.caps = [] ∧ signalling.typ ≠ 1 ∧ signalling.src = .vf 0 15 ∧ signalling.signal.getLsbD 63 = true ∧
    ((lastly signalling .finished 5).part 1).prot = false ∧ (sigPk 7 0).signal = 0 ∧ (sigPk 7 0).irq = false ∧
    (lastly (sigPk 7 0) .waiting 5).packetDone { sigPk 7 0 with stage := .waiting } = true := by unfold MemWf; decide +kernel

/-- The same launch behind one of higher PRIO that may start. -/
def launches : State := taking [launchPk, { launchPk with id := 8, prio := 1, src := .vf 0 14 }]

theorem witness_PacketResults_start : launchPk.typ = 1 ∧ launchPk.num 19 1 = 0 ∧ (lastly launchPk .ready 0).startable launchPk = true ∧
    (lastly launchPk .ready 0).launchTurn launchPk = true ∧ launches.taken[0]? = some launchPk ∧ launches.launchTurn launchPk = false ∧
    copyPk.typ = 2 ∧ copyPk.part = 0 ∧ checkCopy copyPk = 0 ∧ (copyPk.word 2).getLsbD 63 = true ∧ (copyPk.word 3).getLsbD 63 = true ∧
    (lastly copyPk .ready 5).startable copyPk = true ∧ ((barPk 7 .ready).signals.all fun a => a.getLsbD 63) = true ∧ (barPk 7 .ready).typ = 3 ∧
    (lastly (barPk 7 .ready) .ready 0).startable (barPk 7 .ready) = true ∧
    ((lastly (barPk 7 .ready) .ready 0).part 1).assist.testBit 1 = false ∧
    ((barPk 7 .ready).signals.all fun a => (lastly (barPk 7 .ready) .ready 0).num (kHost a.toNat) 8 == 0) = true ∧
    ((barPk 7 .ready).signals.all fun a => (lastly (barPk 7 .ready) .ready 5).num (kHost a.toNat) 8 == 0) = false ∧
    (barPk 7 .running).stage = .running ∧ (lastly (barPk 7 .ready) .running 0).cpRuns 1 0 = true ∧ (sigPk 7 0).typ = 5 ∧
    ((sigPk 7 0).word 2).getLsbD 63 = true ∧ (sigPk 7 0).num 32 1 = 0 ∧ (sigPk 7 1).num 32 1 = 1 ∧ (sigPk 7 2).num 32 1 = 2 ∧
    (lastly (sigPk 7 2) .ready 5).startable (sigPk 7 2) = true := by decide +kernel

/-- The same with barrier packets handled by the host. -/
def assisted (st : PStage) : State := let s := lastly (barPk 7 st) st 0; s.setPart 1 { s.part 1 with assist := 2 }

theorem witness_PacketResults_assist : (assisted .ready).startable (barPk 7 .ready) = true ∧
    ((assisted .ready).part 1).assist.testBit 1 = true ∧ (assisted .running).taken[0]? = some (barPk 7 .running) ∧
    (assisted .running).cpRuns 1 0 = true ∧ ((assisted .running).part 1).assist.testBit 1 = true := by decide +kernel

/-- The host state with the page 2^49 cached at its home, and packets taken. -/
def hostHomed (l : List Taken) : State := let s := taking l; s.setAgent 32 { s.agent 32 with tlb := [entry 1] }

def graphPk : Taken := packet 7 1 6 (.vf 0 15) [1, 0, 2 ^ 49]
def eqPk : Taken := packet 7 1 7 (.vf 0 15) [1, 0, 63 + 8 * 2 ^ 32, 256 * 2 ^ 48 + 1 * 2 ^ 32]
def rpPk (st : PStage) : Taken := { packet 7 1 8 (.vf 0 15) [1, 0, 0, 0, hw 0x3000] with stage := st }
def quotePk : Taken := packet 7 0 9 (.vf pf 0) [1, 0, 0, 0, 0, 0, hw 0x4000]

theorem witness_LongPacketResults_start : (hostHomed [graphPk]).taken[0]? = some graphPk ∧ (hostHomed [graphPk]).startable graphPk = true ∧
    graphPk.typ = 6 ∧ ((hostHomed [graphPk]).formRead 1 (graphPk.word 2) 4).1 = some [0, 0, 0, 0] ∧ eqPk.typ = 7 ∧
    (taking [eqPk]).checkEq eqPk = 0 ∧ (taking [eqPk]).startable eqPk = true ∧
    ((taking [eqPk]).partTiles 1).find? (fun y => y.1 == eqPk.num 16 4 / 64) = some (0, 0) ∧ (taking [eqPk]).door 0 1 = .open_ ∧
    (taking [rpPk .running]).startable (rpPk .running) = false ∧ (taking [rpPk .running]).devValid = false ∧ (rpPk .ready).typ = 8 ∧ (taking [rpPk .ready]).startable (rpPk .ready) = true ∧
    quotePk.typ = 9 ∧ quotePk.part = 0 ∧ (quotePk.word 6).getLsbD 63 = true ∧ (taking [quotePk]).startable quotePk = true ∧
    MemWf (taking [quotePk]) := by unfold MemWf; decide +kernel

/-- The partition drained for a recovery point; then streaming it, with segments that wait. -/
def drainedRp (todo : List (Nat × Nat)) : State :=
  let s := { (taking [rpPk .running]).setMe Thread.init with devValid := true }
  s.setPart 1 { s.part 1 with
    stage := .draining, rp := if todo.isEmpty then none else some { num := 1, packet := 7, dev := 0, ports := 1, todo := todo } }

theorem witness_LongPacketResults_recovery : (drainedRp []).taken[0]? = some (rpPk .running) ∧ (rpPk .running).stage = .running ∧
    ((drainedRp []).part 1).stage = .draining ∧ ((drainedRp []).part 1).rp = none ∧ (drainedRp []).drained 1 = true ∧ (drainedRp []).devValid = true ∧
    ((drainedRp [(3, 0), (4, 0)]).part 1).rp = some { num := 1, packet := 7, dev := 0, ports := 1, todo := [(3, 0), (4, 0)] } ∧
    [(3, 0), (4, 0)].filter (·.1 != 3) ≠ [] ∧
    ((drainedRp [(3, 0)]).part 1).rp = some { num := 1, packet := 7, dev := 0, ports := 1, todo := [(3, 0)] } ∧
    [(3, 0)].filter (·.1 != 3) = [] ∧ (drainedRp [(3, 0)]).taken.find? (fun y => y.id == 7) = some (rpPk .running) ∧ ((rpPk .running).word 4).getLsbD 63 = true ∧
    ((drainedRp [(3, 0)]).part 1).prot = false ∧ MemWf (drainedRp [(3, 0)]) := by unfold MemWf; decide +kernel

/-- A graph replay about to start its first packet, a signal packet. -/
def aReplay : Replay := { id := 40, packet := 7, part := 1, graph := 2 ^ 49, patch := [], started := false, next := 0, count := 1 }
def replays : State :=
  put { hostHomed [{ graphPk with stage := .running }] with replays := [aReplay] } 64 ([0x501, 0, hw 0x1000, 3].flatMap fun w => bytesOf 8 w)

/-- The packet read, and the state after reading it. -/
def childRead : Option (List Byte) × State := replays.formRead 1 (BitVec.ofNat 64 (2 ^ 49 + 64 * (0 + 1))) 64
def child : Option Taken := childRead.1.map fun bs =>
  newTaken childRead.2.nextId (.graph 40) 0 1 0 0 (patched (wordsOfBytes bs) 0 []) 0 0

theorem witness_LongPacketResults_replay : replays.replays[0]? = some aReplay ∧
    replays.taken.find? (fun y => y.id == aReplay.packet) = some { graphPk with stage := .running } ∧ aReplay.next < aReplay.count ∧
    replays.replayTurn aReplay = true ∧ replays.heldQueue (.graph 40) = false ∧ replays.cpRuns 1 0 = true ∧
    given child (fun y => (y.word 0).getLsbD 0 && decide (2 ≤ y.typ) && decide (y.typ ≤ 5) &&
      State.checkPacket { childRead.2 with
        nextId := childRead.2.nextId + 1, replays := childRead.2.replays.set 0 { aReplay with started := true, next := 1 } } y == 0) =
      true := by decide +kernel

/-! ### Partition operations -/

/-- A partition operation with its words from the second on. -/
def opPk (op target : Nat) (ws : List Nat) : Taken := packet 7 0 16 (.vf pf 0) ([1, 0, op + target * 2 ^ 32] ++ ws)

/-- The common hypotheses of a partition operation that starts. -/
def opStarts (s : State) (x : Taken) (op : Nat) : Bool :=
  s.taken[0]? == some x && s.taken.find? (fun z => z.id == x.id) == some x && x.typ == 16 && s.startable x && x.op == op

theorem witness_PartitionOperationResults_settings :
    (let x := opPk 3 1 [15]; opStarts (taking [x]) x 3 && vfOk (taking [x]) x && (taking [x]).hasPart 1 && x.num 25 1 == 0) = true ∧
    (let x := opPk 3 1 [15 + 256]; opStarts (taking [x]) x 3 && vfOk (taking [x]) x && x.num 25 1 == 1 && (taking [x]).queuesOff 15) = true ∧
    (let x := opPk 4 1 [15 + 2 * 256 + 4095 * 2 ^ 16, 64, 128]; opStarts (taking [x]) x 4 && egressOk (taking [x]) x) = true ∧
    (let x := opPk 5 0 [15 + 600 * 2 ^ 16]; opStarts (taking [x]) x 5 && x.target == 0 && decide (x.num 24 1 < 16) && x.num 25 1 == 0 &&
      x.num 26 2 == 600 && x.zero 28 36) = true ∧
    (let x := opPk 5 0 [20 * 2 ^ 16]; opStarts (taking [x]) x 5 && x.num 26 2 == 20) = true ∧
    (let x := opPk 6 0 [30]; opStarts (taking [x]) x 6 && x.num 24 2 == 30 && x.zero 26 38) = true ∧
    (let x := opPk 6 0 [300]; opStarts (taking [x]) x 6 && x.num 24 2 == 300) = true ∧
    (let x := opPk 7 0 [4095]; opStarts (taking [x]) x 7 && decide (x.num 24 2 < 4096) && x.zero 26 38 &&
      (taking [x]).parts.all fun z => z.2.stage == .out || z.2.flits.isEmpty) = true ∧
    (let x := opPk 8 0 [95]; opStarts (taking [x]) x 8 && siteOfCoord (x.num 24 2) == some 9120 && x.zero 26 38 &&
      ((taking [x]).appendPart 9120).isNone) = true ∧
    (let x := opPk 9 1 [63]; opStarts (taking [x]) x 9 && decide (x.num 24 1 < 64) && x.zero 25 39) = true := by decide +kernel

theorem witness_PartitionOperationResults_events :
    (let x := opPk 10 1 [hw 0x5000, 16]; opStarts (taking [x]) x 10 && (x.word 3).getLsbD 63 && x.num 32 1 == 16 && x.zero 34 30 &&
      (taking [x]).hasPart 1 && Memory.wf (taking [x]).mem) = true ∧
    (let x := opPk 10 0 [hw 0x5000, 4]; opStarts (taking [x]) x 10 && x.target == 0 && x.num 32 1 == 4) = true := by decide +kernel

/-- An assist that waits for an answer: its function, and what it concerns. -/
def assisting (l : List Taken) (func obj : Nat) : State :=
  { taking l with assists := [{ token := 9, func := func, part := 1, arg := 0, obj := obj }] }

theorem witness_PartitionOperationResults_assist :
    (let x := opPk 13 0 [9, 1]; let s := assisting [x, { barPk 8 .ready with stage := .held 9 }] 1 8
      opStarts s x 13 && x.target == 0 && s.assistOf (x.num 24 8) == some { token := 9, func := 1, part := 1, arg := 0, obj := 8 } &&
      x.num 32 1 == 1 && x.zero 33 31 && (s.taken.find? (fun z => z.id == 8)).isSome) = true ∧
    (let x := opPk 13 0 [9, 1]; let s := assisting [x] 2 65536
      opStarts s x 13 && (s.assistOf 9).isSome && (s.part 1).ring.isNone) = true ∧
    (let x := opPk 13 0 [9, 1]; let s := assisting [x] 5 0; opStarts s x 13 && (s.assistOf 9).isSome) = true ∧
    given ((assisting [{ barPk 8 .ready with stage := .held 9 }] 1 8).assistOf 9) (fun a => a.func == 1 && a.part == 1 &&
      given ((assisting [{ barPk 8 .ready with stage := .held 9 }] 1 8).taken.find? fun z => z.id == a.obj) fun y =>
        y.part == a.part && y.signals.all (·.getLsbD 63)) = true ∧
    (assisting [{ barPk 8 .ready with stage := .held 9 }] 1 8).num (kHost (hw 0x1000)) 8 = 0 ∧
    (put (assisting [{ barPk 8 .ready with stage := .held 9 }] 1 8) (kHost (hw 0x1000)) [5]).num (kHost (hw 0x1000)) 8 = 5 := by
  decide +kernel

theorem witness_PartitionOperationResults_refused :
    (let x := opPk 3 9 [0]; (taking [x]).hasPart x.target == false && x.target != 0 && x.num 25 1 == 0 && x.src == .vf pf 0 &&
      opStarts (taking [x]) x 3) = true ∧
    (let x := opPk 1 1 []; (taking [x]).hasPart x.target && opStarts (taking [x]) x 1) = true ∧
    (let x := opPk 1 0 []; x.target == 0 && opStarts (taking [x]) x 1) = true := by decide +kernel

/-- A free region: region 0 with tile rank 0 and no partition. -/
def freeRegion (l : List Taken) : State := { taking l with parts := [] }

theorem witness_PartitionLifeResults_create :
    (let x := opPk 1 2 [1 + 3000 * 2 ^ 16 + 1 * 2 ^ 32, 0, 0, 0, hw 0x6000];
      opStarts (freeRegion [x]) x 1 && createOk (freeRegion [x]) x && x.num 48 2 == 0 && (x.num 30 1).testBit 2 == false &&
      ((freeRegion [x]).wheelGrant x.target (x.num 28 1)).isSome && Memory.wf (freeRegion [x]).mem) = true ∧
    (let x := opPk 1 2 [1]; opStarts (freeRegion [x]) x 1 && createOk (freeRegion [x]) x) = true := by decide +kernel

theorem witness_PartitionLifeResults_destroy :
    (let x := opPk 2 1 []; opStarts (taking [x]) x 2 && (taking [x]).hasPart 1 && x.zero 24 40 && x.part != 1 &&
      ((taking [x]).part 1).swPacket.isNone) = true ∧ ((taking []).parts.map (·.1)).Pairwise (· < ·) := by decide +kernel

/-- A partition without tiles, whose save record would start at 2^49; stages of its switch. -/
def emptyPart (l : List Taken) (f : Partition → Partition) : State :=
  let s := { taking l with binding := [] }
  s.setPart 1 (f { s.part 1 with tiles := [] })

theorem witness_PartitionLifeResults_switch :
    (let x := opPk 11 1 [2 ^ 49]; let s := emptyPart [x] id
      opStarts s x 11 && s.hasPart 1 && (s.part 1).stage == .active && x.zero 32 32 && s.saveOk 1 (x.num 24 8) (s.partTiles 1).length) = true ∧
    (let x := { opPk 11 1 [2 ^ 49] with stage := .running }
     let s := (taking [x]).setMe Thread.init
     let s := s.setPart 1 { s.part 1 with stage := .draining, swPacket := some 7 }
     let s := (List.range 4).foldl (fun s c => s.setCore c { s.core c with preempt := true }) s
     x.op == 11 && x.stage == .running && (s.part 1).swPacket == some x.id && s.switchReady 1) = true ∧
    (let x := opPk 12 1 [2 ^ 49]; let s := emptyPart [x] fun p => { p with stage := .out, save := 2 ^ 49 }
      let s := { s with saves := [{ part := 1, base := 2 ^ 49, images := [] }] }
      opStarts s x 12 && s.hasPart 1 && (s.part 1).stage == .out && x.zero 32 32 && s.grantAgain 1 && !(s.part 1).lost &&
      (s.saves.find? fun y => y.part == 1).isSome && s.saveOk 1 (x.num 24 8) 0 &&
      s.readRecords 1 (x.num 24 8) [] == (some [], s) && (s.partTiles 1).length == (s.part 1).tiles.length) = true := by decide +kernel

/-- A recovery point of no tiles on safe tier 3. -/
def aPoint : RecPoint :=
  { tier := 3, src := 0, part := 1, num := 4, segs := 2, spans := [], images := [], hbm := [], full := [], jobs := [], whole := true }

theorem witness_PartitionLifeResults_restore :
    (let x := opPk 14 1 [3, 2 ^ 63, 4, 1]
     let s := { emptyPart [x] (fun p => { p with jobs := [], routes := [(3, 2 ^ 63)] }) with points := [aPoint] }
     let s := s.setPort 63 { s.port 63 with state := 2 }
     opStarts s x 14 && s.hasPart 1 && restoreOk s x && s.portsUsable 1 (x.num 24 2) (x.num 32 8) && s.pointOf x == some aPoint) = true ∧
    (let x := { opPk 8 0 [95] with stage := .running }
     x.op == 8 && x.stage == .running && siteOfCoord (x.num 24 2) == some 9120 && (taking [x]).appends == []) = true := by decide +kernel

/-! ### Engines at work -/

/-- The copy of `copyBlock` on channel 3 of tile 0, with something changed. -/
def copying (f : Xfer → Xfer) : State :=
  let x := f (xferIn copyBlock .copy)
  copyBlock.setTile 0 { copyBlock.tile 0 with xfers := vset (copyBlock.tile 0).xfers 3 (some x) }

/-- The gates of a chunk. -/
def gates (s : State) (x : Xfer) : Bool :=
  x.park.isNone && !x.pending && !s.accessBefore x.hart x.ord && decide (x.done.length < x.total) && !s.det x.part

theorem witness_CopyStepResults_chunk : MemWf (copying id) ∧ given (vget none ((copying id).tile 0).xfers 3) (fun x => gates (copying id) x &&
      (copying id).chunkGate 0 x.part && x.op == .copy && x.mc.isEmpty && decide (0 < x.lines) && !x.done.contains 0 &&
      decide (x.src.toNat + 64 * 0 < 2 ^ 48) && decide (x.dst.toNat + 64 * 0 < 2 ^ 48) && decide (0 < min 64 (x.len - 64 * 0)) &&
      decide ((x.dst.toNat + 64 * 0) % 65536 + min 64 (x.len - 64 * 0) ≤ 65536) &&
      (copying id).localAcc 0 .read (x.src.toNat + 64 * 0) (min 64 (x.len - 64 * 0)) == some (kScratch 0 + 0x1000) &&
      (copying id).localAcc 0 .write (x.dst.toNat + 64 * 0) (min 64 (x.len - 64 * 0)) == some (kScratch 0 + 0x2000)) = true := by
  unfold MemWf; decide +kernel

/-- Its partition switched out. -/
def away : State := let s := copying id; s.setPart 1 { s.part 1 with stage := .out }

/-- All lines landed, with a completion message or none. -/
def landed (send : Bool) : State := copying fun x => { x with done := [0], landed := 8, send := send }

theorem witness_CopyStepResults_ends : given (vget none (away.tile 0).xfers 3) (fun x => gates away x && x.op != .rdblk &&
      (away.part x.part).stage == .out) = true ∧
    given (vget none ((copying fun x => { x with pending := true }).tile 0).xfers 3) (·.pending) = true ∧
    given (vget none ((landed true).tile 0).xfers 3) (fun x => decide (x.total ≤ x.done.length) && x.park.isNone && x.arr == 0 &&
      x.denied.isEmpty && x.send) = true ∧
    given (vget none ((landed false).tile 0).xfers 3) (fun x => decide (x.total ≤ x.done.length) && x.op == .copy && !x.send) = true ∧
    (landed true).net = [] ∧ ((landed true).tile 0).failed = false ∧ ((landed false).tile 0).failed = false ∧
    (landed false).net = [] := by decide +kernel

/-- A record of two slots of 8 bytes at scratchpad offset 0, and a deposit for slot 1 on its way. -/
def depositing : State :=
  let s := put (user []) (kScratch 0) [2, 0, 0, 0, 0, 0, 0, 0, 8]
  s.emit { s.item 0 1 false (.site 0) (.deposit 0 1 [1, 2, 3, 4, 5, 6, 7, 8] 0 3) with counted := false }

theorem witness_CopyStepResults_deposit : MemWf depositing ∧ given depositing.net[0]? (fun i => i.stage == .waiting && i.dst == .site 0 &&
      i.body == .deposit 0 1 [1, 2, 3, 4, 5, 6, 7, 8] 0 3 && depositing.homeDoor i.part 0 == .open_ &&
      !depositing.deposited i (.site 0)) = true ∧
    depositing.localAcc 0 .write 0 64 = some (kScratch 0) ∧ depositing.poisoned (kScratch 0) 64 = false ∧ 1 < bitsN (depositing.num (kScratch 0) 8) 3 0 ∧
    (bitsN (depositing.num (kScratch 0) 8) 23 16).testBit 1 = false ∧
    bitsN (depositing.num (kScratch 0) 8) 23 16 ||| 2 ^ 1 ≠ 2 ^ bitsN (depositing.num (kScratch 0) 8) 3 0 - 1 ∧
    depositing.num (kScratch 0 + 8) 8 = 8 ∧ depositing.localAcc 0 .write (0 + 64 + 1 * 8) 8 = some (kScratch 0 + 72) := by
  unfold MemWf; decide +kernel

/-- A thread that waits for the acknowledgements of a TLBINV. -/
def flushing : State := run (execTlbinv 10 11) (user [(10, 2 ^ 48), (11, 16)])

theorem witness_CopyStepResults_tlbinv : (flushing.thread 0).status = .blocked (.tlbinv (2 ^ 48) (2 ^ 16)) ∧
    (flushing.thread 0).resp = none ∧ flushing.det (flushing.partOfHart 0) = false := by decide +kernel

/-- Tile 0 with a command queued; and with one running. -/
def queued : State := let s := mmaBlock; s.setTile 0 { s.tile 0 with mqueue := [aCmd] }
def running (op : MatOp) (f : MatRun → MatRun) : State :=
  let r : MatRun := { cmd := { aCmd with op := op }, k := 0, row := 0, park := none, begun := false, ready := false, landed := 0, denied := [] }
  mmaBlock.setTile 0 { mmaBlock.tile 0 with mrun := some (f r) }

/-- The running command's gate. -/
def gate (s : State) : Bool := given (s.tile 0).mrun fun r => s.chunkGate 0 r.cmd.part && !s.det r.cmd.part && r.park.isNone

/-- The K-steps of a command's first chunk: it gets further and changes no state. -/
def stepsOn (s : State) : Bool := given (s.tile 0).mrun fun r =>
  match s.ksteps (s.geom 0 r.cmd) r.cmd (min (matChunk r.cmd.desc.atype) (r.cmd.desc.steps - r.k)) r.k
      (if r.begun then s.accRows 0 r.cmd.acc else r.cmd.prepare (s.accRows 0 r.cmd.acc)) with
  | ((k, _, none), u) => decide (r.k < k) && u == s
  | _ => false

theorem witness_MatrixStepResults_chunks : MemWf queued ∧ (queued.tile 0).mrun = none ∧ (queued.tile 0).mqueue = [aCmd] ∧
    queued.chunkGate 0 aCmd.part = true ∧ queued.accessBefore aCmd.src aCmd.ord = false ∧ gate (running .acczero id) = true ∧
    gate (running (.accwr 0x1000 63 1) id) = true ∧
    (running (.accwr 0x1000 63 1) id).engRead 0 1 0x1000 (192 * 1) = (.ok (List.replicate 192 0), running (.accwr 0x1000 63 1) id) ∧
    gate (running .mma id) = true ∧ aCmd.desc.steps = 1 ∧ stepsOn (running .mma id) = true ∧ stepsOn (running .mcmd id) = true := by
  unfold MemWf; decide +kernel

/-- A floe of tile 0 whose command runs there. -/
def floating (ready : Bool) : State :=
  let s := running .floe fun r => { r with ready := ready }
  s.setPart 1 { s.part 1 with floe := some { aFloe with run := some { aCmd with op := .floe } } }

/-- The chunk of the floe: it gets further. -/
def floeSteps : Bool := given (floating true).parts.head? fun x => given x.2.floe fun f => given f.run fun c =>
  match (floating true).floeReach f c (min (matChunk c.desc.atype) (c.desc.steps - f.k)) f.members
      (f.k + min (matChunk c.desc.atype) (c.desc.steps - f.k), none) with
  | ((k, none), _) => decide (f.k < k)
  | _ => false

theorem witness_MatrixStepResults_floe : gate (floating false) = true ∧
    ((floating false).part 1).floe = some { aFloe with run := some { aCmd with op := .floe } } ∧ aFloe.park = none ∧ aFloe.k < aCmd.desc.steps ∧
    ((floating true).part 1).stage ≠ .out ∧ aFloe.members = [0] ∧
    given ((floating true).tile 0).mrun (fun q => q.cmd.op == .floe && q.ready) = true ∧ floeSteps = true := by decide +kernel

theorem witness_MatrixStepResults_complete : given ((running .mma fun r => { r with k := 1 }).tile 0).mrun (fun r => r.cmd.op == .mma &&
      decide (r.cmd.desc.steps ≤ r.k) && !r.cmd.store && r.denied.isEmpty && !r.cmd.desc.send) = true ∧
    gate (running .mma fun r => { r with k := 1 }) = true ∧ ((running .mma id).part 1).floe = none := by decide +kernel

/-- A floe over region 0 at rest, with its own grid and with another. -/
def atRest (own : Bool) : State :=
  let s := user []
  let g := s.formGrid 1 [0]
  s.setPart 1 { s.part 1 with
    floe := some { aFloe with rows := if own then g.1 else [], cols := if own then g.2 else [1], run := none, waiting := [] } }

theorem witness_MatrixStepResults_reform : given ((atRest true).part 1).floe (fun f => (atRest true).formGrid 1 f.region == (f.rows, f.cols) &&
      f.members.all fun m => !((atRest true).tile m).failed) = true ∧
    given ((atRest false).part 1).floe (fun f => (atRest false).formGrid 1 f.region != (f.rows, f.cols) && f.run.isNone &&
      f.waiting.isEmpty) = true := by decide +kernel

/-- The tile-homed address of rank 0's scratchpad, cached at tile 0: region 5 owned with GEN 7. -/
def tileEntry : TlbEntry :=
  { part := 1, page := 2 ^ 48, size := 65536, leaf := BitVec.ofNat 64 (5 * 2 ^ 48 + 17), w0 := BitVec.ofNat 64 (2 ^ 48 + 16),
    w1 := BitVec.ofNat 64 (7 * 2 ^ 48 + 1) }

/-- An MCMD under the capability of slot 3 on its way to tile 0. -/
def commanding : State :=
  let s := mcmdBlock.setCore 0 { mcmdBlock.core 0 with caps := vset (mcmdBlock.core 0).caps 3 (some aCap) }
  run (execMcmd false false false 3 0 10 11) (s.setTile 0 { s.tile 0 with tlb := [tileEntry] })

theorem witness_MatrixStepResults_mcmd : given commanding.net[0]? (fun i => i.dst == .tile 0 && i.stage == .waiting &&
    commanding.injectable i && commanding.siteOfRank 0 == some 0 && commanding.door 0 i.part == .open_ &&
    (commanding.tile 0).fresh (commanding.itemDomain i) i.seq && decide ((commanding.tile 0).matLoad < 16) &&
    (match i.body with | .mcmd c => commanding.mayCommand i.part 0 c.guard == (true, commanding) | _ => false)) = true := by decide +kernel

/-! ### Expert queues -/

/-- Queue 63 of tile 0: 256 entries, a time limit of 100, a target. -/
def aQueue : ExpertQueue :=
  { ExpertQueue.init with configured := true, enable := true, part := 1, fill := 2, maxbatch := 2, age := 100 }

/-- An entry that has waited since 0, and a batch that needs two answers. -/
def anEntry : EqEntry := { bytes := List.replicate 32 0, since := 0, job := 0 }
def aBatch (got : Nat) : Batch := { base := 0, count := 1, fire := 4, need := 2, got := got, jobs := [0] }

/-- The queue in some shape, and an item for it on its way. -/
def experts (f : ExpertQueue → ExpertQueue) (o : State → Out) (l : List (Nat × Word)) : State :=
  let s := user l
  run o (s.setTile 0 { s.tile 0 with eqs := [(63, f aQueue)] })

/-- The common hypotheses on item 0 for queue 63. -/
def toQueue (s : State) (p : Item → ExpertQueue → Bool) : Bool := given s.net[0]? fun i =>
  i.stage == .waiting && s.injectable i && !s.det i.part && s.door 0 i.part == .open_ && (s.tile 0).fresh (s.itemDomain i) i.seq &&
    given (s.findEq i.part 63) fun x => x.1 == 0 && x.2.1 == 63 && p i x.2.2

/-- Whether an item is a push of 32 bytes. -/
def isPush (i : Item) : Bool := match i.body with | .push 63 bs => bs.length == 32 | _ => false

/-- A push past the ring, with a spill area that no page maps; and one at 2^49, whose page is cached in a shared-atomic region. -/
def pushFar : State := experts (fun q => { q with spill := [anEntry], spillLen := 64 }) (execEqpush 11 10) [(11, 63)]
def pushMapped : State :=
  let s := experts (fun q => { q with spill := [anEntry], spillAt := 2 ^ 49, spillLen := 64 }) (execEqpush 11 10) [(11, 63)]
  s.setAgent 32 { s.agent 32 with tlb := [entry 2] }

theorem witness_ExpertStepResults_push : MemWf (experts id (execEqpush 11 10) [(11, 63)]) ∧
    toQueue (experts id (execEqpush 11 10) [(11, 63)]) (fun i q => isPush i && q.spill.isEmpty && decide (q.occupied < 2 ^ q.ringlog)) = true ∧
    toQueue pushFar (fun i q => isPush i && !q.spill.isEmpty && decide ((q.spill.length + 1) * 32 ≤ q.spillLen) &&
      match pushFar.translate q.part (q.spillAt + 32 * q.spillSlot) with | (.error _, _) => true | _ => false) = true ∧
    toQueue pushMapped (fun i q => isPush i && !q.spill.isEmpty && decide ((q.spill.length + 1) * 32 ≤ q.spillLen) &&
      match pushMapped.translate q.part (q.spillAt + 32 * q.spillSlot) with
      | (.ok v, _) => v.grants .atomic (some (bitsN v.leaf.toNat 63 48, bitsN v.w1.toNat 63 48)) == none
      | _ => false) = true ∧
    toQueue (experts (fun q => { q with spill := [anEntry], spillLen := 32, spflt := true }) (execEqpush 11 10) [(11, 63)]) (fun i q =>
      isPush i && decide (q.spillLen < (q.spill.length + 1) * 32) && q.spflt) = true := by unfold MemWf; decide +kernel

theorem witness_ExpertStepResults_items :
    toQueue (experts id (execEqfire 11) [(11, 63)]) (fun i _ => i.body == .eqfire 63) = true ∧
    toQueue (experts (fun q => { q with batches := [aBatch 0] }) (execEqdone 11 12) [(11, 63), (12, 4)]) (fun i q =>
      i.body == .eqdone 63 4 && q.batches == [aBatch 0] && q.spill.isEmpty) = true ∧
    toQueue (experts (fun q => { q with batches := [aBatch 1] }) (execEqdone 11 12) [(11, 63), (12, 4)]) (fun i q =>
      i.body == .eqdone 63 4 && q.batches == [aBatch 1]) = true ∧ (aBatch 0).got + 1 < (aBatch 0).need ∧ (aBatch 1).got + 1 = (aBatch 1).need ∧
    given (experts id (execEqstat 1 11) [(11, 63)]).net[0]? (fun i => i.stage == .waiting && i.body == .ret (.eqstat 63) &&
      (experts id (execEqstat 1 11) [(11, 63)]).injectable i &&
      (experts id (execEqstat 1 11) [(11, 63)]).door (((experts id (execEqstat 1 11) [(11, 63)]).siteOfRank 0).getD Config.numSites) i.part == .open_ &&
      given ((experts id (execEqstat 1 11) [(11, 63)]).findEq i.part 63) fun x => x.2.2.part == i.part && decide (x.2.2.waiting < 2 ^ 32)) = true ∧
    given (experts id (execEqstat 1 11) [(11, 62)]).net[0]? (fun i => i.body == .ret (.eqstat 62) &&
      ((experts id (execEqstat 1 11) [(11, 62)]).findEq i.part 62).isNone) = true := by decide +kernel

/-- The queue with two entries that have waited 100. -/
def aged : State :=
  let s := experts (fun q => { q with ring := [anEntry, anEntry] }) (fun s => .next s) []
  { s with refTime := 100, regions := s.regions.map fun r => { r with cycles := 100 } }

theorem witness_ExpertStepResults_age : given ((aged.tile 0).eqs.find? (·.1 == 63)) (fun x => x.2.configured && x.2.age == 100 &&
      decide (1 ≤ x.2.waiting) && decide (x.2.age ≤ x.2.wait (aged.eqNow 0 1))) = true ∧ ((aged.tile 0).eq 62).configured = false := by
  decide +kernel

theorem witness_ExpertStepResults_firing : (aged.tile 0).failed = false ∧ (aged.tile 0).replaying = false ∧
    (aged.part ((aged.partOfSite 0).getD 0)).stage = .active ∧ aged.det ((aged.partOfSite 0).getD 0) = false ∧ aged.det 1 = false ∧
    given (aged.nextQueue 0) (fun x => x.1 == 63 && !x.2.mcast && (aged.tile 0).eq 63 == x.2) = true := by decide +kernel

/-- Two queues that can fire, with the same priority and wait. -/
def rivals : State :=
  aged.setTile 0 { aged.tile 0 with eqs := [(62, { aQueue with ring := [anEntry, anEntry] }), (63, { aQueue with ring := [anEntry, anEntry] })] }

theorem witness_FiringOrder : (∀ x ∈ (rivals.tile 0).eqs, rivals.eqNow 0 x.2.part = 100) ∧ (rivals.nextQueue 0).map (·.1) = some 62 ∧
    (rivals.tile 0).failed = false ∧ (rivals.tile 0).replaying = false ∧ rivals.det ((rivals.partOfSite 0).getD 0) = false ∧
    (rivals.part ((rivals.partOfSite 0).getD 0)).stage = .active := by decide +kernel

/-! ### The machine -/

theorem witness_DecodeEncode : (Instr.addi 1 0 5).wf = true ∧ decodeWord 0x00500093#32 = .ok (.addi 1 0 5) := by decide +kernel

/-- A step from a state whose memory holds a program. -/
def fetching : State := State.reset.withFetchWord 32 0x00500093

theorem witness_MemoryKept : MemWf fetching ∧ Memory.wf fetching.firnMem = true ∧
    after (step fetching) (fun t => t.rx 1 == 5) = true := by unfold MemWf; decide +kernel

/-- Thread 0 is the candidate of its core and stands first in its order. -/
theorem witness_StepRunsDecoded : fetching.powered = true ∧ fetching.agenda = [] ∧ fetching.isCandidate 0 = true ∧
    (fetching.issueOrder (coreOf fetching.cur)).head? = some 0 ∧
    (fetching.issueAs 0).me.overdue = false ∧ (fetching.issueAs 0).fetchKey 0 = some (kScratch 0) ∧
    decodeWord (BitVec.ofNat 32 (ofBytes ((fetching.issueAs 0).bytes (kScratch 0) 4))) = .ok (.addi 1 0 5) ∧
    (fetching.issueAs 0).mayRun (.addi 1 0 5) = true ∧ after (exec (.addi 1 0 5) (fetching.issueAs 0)) (fun _ => true) = true ∧
    Instr.isStep .thermalShutdown = true ∧ ({ fetching with agenda := [.event .thermalShutdown] } : State).powered = true ∧
    after (exec .thermalShutdown { fetching with agenda := [] }) (fun _ => true) = true := by decide +kernel

/-- Thread 7 of the core has the turn, and thread 0 after it; thread 7 is idle, or held by a divide. -/
def turnOf7 (hold : Nat) (st : ThreadStatus) : State :=
  let s := fetching.setThread 7 { fetching.me with status := st, hold := hold, pc := 64 }
  s.setCore 0 { s.core 0 with lastIssue := 6 }

theorem witness_StepRunsDecoded_turns : (turnOf7 0 .free).isCandidate 0 = true ∧ (turnOf7 0 .free).issueOrder 0 = [7, 0, 1, 2, 3, 4, 5, 6] ∧
    ((turnOf7 0 .free).thread 7).hold = 0 ∧ (turnOf7 0 .free).canIssue 7 = false ∧ (turnOf7 15 .running).agenda = [] ∧
    (turnOf7 15 .running).isCandidate 0 = true ∧ (turnOf7 15 .running).issueOrder 0 = [7, 0, 1, 2, 3, 4, 5, 6] ∧
    ((turnOf7 15 .running).thread 7).hold ≠ 0 ∧ ((turnOf7 15 .running).passTurn 7).canIssue 0 = true := by decide +kernel

/-- Carried code of two words whose first is a JALR. -/
def carried : State :=
  let s := put fetching (kScratch 0 + carriedSlot 0) [0x67]
  s.setMe { s.me with
    pc := BitVec.ofNat 64 (carriedSlot 0), act := s.me.act.map fun a => { a with kind := 1, ninsn := 2, entry := BitVec.ofNat 64 (carriedSlot 0) } }

theorem witness_StepRunsDecoded_refused :
    (match decodeWord (BitVec.ofNat 32 (ofBytes (((State.reset.withFetchWord 32 0).issueAs 0).bytes (kScratch 0) 4))) with
      | .ok _ => false | .error _ => true) = true ∧
    carried.isCandidate 0 = true ∧ (carried.issueAs 0).me.overdue = false ∧
    (carried.issueAs 0).fetchKey 0 = some (kScratch 0 + carriedSlot 0) ∧
    decodeWord (BitVec.ofNat 32 (ofBytes ((carried.issueAs 0).bytes (kScratch 0 + carriedSlot 0) 4))) = .ok (.jalr 0 0 0) ∧
    (carried.issueAs 0).mayRun (.jalr 0 0 0) = false ∧
    ((fetching.setMe { fetching.me with pc := 0x3CFFFD }).issueAs 0).fetchKey 0 = none := by decide +kernel

theorem witness_PoweredStepsGoOn : State.reset.powered = true := rfl

theorem witness_UserStaysUser : Instr.ecall.wf = true ∧ (user []).me.priv = .U ∧ after (exec .ecall (user [])) (fun _ => true) = true := by
  decide +kernel

/-! ### Further hypotheses of the statements are met: each clause that the theorems above leave -/

theorem witness_BadAddressTraps_kinds : (machine [(10, 2 ^ 48 + 1)]).me.priv = .M ∧
    ((machine [(10, 2 ^ 48 + 1)]).rx 10).toNat % 64 ≠ 0 ∧ ((machine [(10, 2 ^ 48 + 1)]).rx 10).toNat % 8 ≠ 0 ∧
    ((machine [(10, 2 ^ 48 + 1)]).rx 10).toNat % 4 ≠ 0 ∧ baseAddr (machine [(10, 2 ^ 48 + 1)]) 10 0 % 2 ≠ 0 ∧
    routeOf (baseAddr (machine [(10, 2 ^ 48 + 1)]) 10 0) = .translated ∧ ((machine [(10, 2 ^ 56)]).rx 10).toNat % 64 = 0 ∧
    2 ^ 56 ≤ ((machine [(10, 2 ^ 56)]).rx 10).toNat ∧ ((machine [(10, 2 ^ 56)]).rx 11).toNat < 256 := by decide +kernel

/-- Tile 0 replays its log; and its log is full. -/
def replaying0 : State := let s := user []; s.setTile 0 { s.tile 0 with replaying := true }
def fullLog : State := let s := user []; s.setTile 0 { s.tile 0 with prot := true, logBytes := logRing }

/-- Thread 0 with a held send and four pushes that wait; and with a held group send. -/
def heldBusy : State := pushing.setMe { pushing.me with held := [{ dest := 0, group := false, payload := Vector.replicate 8 0 }] }
def heldGroup : State :=
  let s := grouped []
  s.setMe { s.me with held := [{ dest := BitVec.ofNat 64 (255 + 0 * 2 ^ 20), group := true, payload := Vector.replicate 8 0 }] }

theorem witness_log_states : ((user []).tile 0).ringFull = false ∧ (replaying0.tile 0).replaying = true ∧
    replaying0.me.resp = none ∧ (fullLog.tile 0).ringFull = true ∧ (fullLog.tile 0).replaying = false ∧ fullLog.me.resp = none := by
  decide +kernel

theorem witness_HeldSendResults_more : heldBusy.me.held ≠ [] ∧ 4 ≤ heldBusy.waitingSends 0 ∧ heldGroup.waitingSends 0 < 4 ∧
    heldGroup.ownGroup 255 = some [0] ∧
    heldGroup.me.held = [{ dest := BitVec.ofNat 64 (255 + 0 * 2 ^ 20), group := true, payload := Vector.replicate 8 0 }] := by decide +kernel

/-- The thread waits in HANDOVER, in CAPDROP, with or without a write outstanding. -/
def handing (w : Wait) (out : Bool) : State :=
  let s := capUser [(10, 0xF3FFFF)]
  let s := if out then s.post (2 ^ 49) [1] false false else s
  s.setMe { s.me with status := .blocked w }

theorem witness_CapabilityResults_waiting : (handing (.handover aCap) true).me.status = .blocked (.handover aCap) ∧
    (handing (.handover aCap) true).writesUnder aCap = true ∧ (handing (.handover aCap) false).writesUnder aCap = false ∧
    (handing (.capdrop aCap) true).me.status = .blocked (.capdrop aCap) ∧ (handing (.capdrop aCap) true).writesUnder aCap = true ∧
    (handing (.capdrop aCap) false).writesUnder aCap = false ∧
    ((capUser [(10, 0xF3FFFF)]).post (2 ^ 49) [1] false false).rx 10 = BitVec.ofNat 64 (262143 + 15 * 2 ^ 20) ∧
    ((capUser [(10, 0xF3FFFF)]).post (2 ^ 49) [1] false false).waitingSends 0 < 4 := by decide +kernel

/-- The floe has accepted the command of this place of the thread before. -/
def knownFmma : State :=
  fmmaBlock.setPart 1 { fmmaBlock.part 1 with
    floe := some { aFloe with known := [{ srank := fmmaBlock.srank 0, key := fmmaBlock.placeKey, ival := 0, result := none }] } }

theorem witness_MatrixQueueResults_known : aFloe.note (fmmaBlock.srank 0) fmmaBlock.placeKey = none ∧ aFloe.members ≠ [] ∧
    given (knownFmma.part 1).floe (fun f => (f.note (knownFmma.srank 0) knownFmma.placeKey).isSome) = true := by decide +kernel

theorem witness_PowerStepResults_record :
    (let s := (throttled [.droop] true)
     let s := s.setPart 1 { s.part 1 with ring := some { base := 0x1000, sizelog := 4, vector := 0, count := 0 } }
     (s.reg 15).causes == [.droop] && s.reservation 15 == some 1 && Memory.wf s.mem &&
       (0 + 2 ^ 64 - s.num (kHost 0x1000 + 8) 8) % 2 ^ 64 != 2 ^ 4) = true := by decide +kernel

theorem witness_ItemArrivalResults_resend_failed :
    (((refusedOnce sending).setTile 0 { (refusedOnce sending).tile 0 with failed := true }).tile (siteOf 0)).failed = true ∧
    ((refusedOnce sending).tile (siteOf 0)).failed = false := by decide +kernel

/-- How far the fault of `faulting` climbs. -/
def climbed (s : State) : Option (Bool × State) :=
  s.climb 1 (pageOf (2 ^ 49)) ((wayTo (entrySite 0) (((s.ctlTiles 1).head?.map (·.2)).getD 0)).filter (· != ((s.ctlTiles 1).head?.map (·.2)).getD 0))
    (entrySite 0)

/-- Two tiles, the fault on its way from the second; its router with an entry for the page; and with eight others. -/
def faultFar (l : List FaultPort) : State :=
  let s := { user [] with binding := [(0, 0), (1, 1)] }
  let s := s.setTile 1 { s.tile 0 with rank := some 1 }
  let s := s.setPart 1 { s.part 1 with routers := l, tiles := (s.part 1).tiles ++ [1] }
  s.emit { s.item 32 0 false (.root 1) (.fault (2 ^ 49) 0 none) with counted := false, part := 1 }

/-- How far that fault climbs. -/
def climbedFar (l : List FaultPort) : Option (Bool × State) := (faultFar l).climb 1 (pageOf (2 ^ 49)) ((wayTo 1 0).filter (· != 0)) 1

theorem witness_HomeAccessResults_climb : given (climbed faulting) (·.1) = true ∧
    (faulting.part 1).wakes.any (fun x => x.1 == pageOf (2 ^ 49)) = false ∧
    given (faultFar []).net[0]? (fun i => siteOf i.src == 1 && i.part == 1) = true ∧ given (climbedFar []) (·.1) = true ∧
    given (climbedFar [{ router := 1, page := pageOf (2 ^ 49), ports := [] }]) (fun x => !x.1) = true ∧
    (climbedFar ((List.range 8).map fun n => { router := 1, page := n, ports := [] })).isNone = true := by decide +kernel

theorem witness_HomeAccessResults_wake_page : ∀ i ∈ waking.net, waking.wakes 1 (2 ^ 49) i = true := by decide +kernel

/-- PTROOT and the nodes of one page of each size, for the page 2^49: 64 KiB, 2 MiB and 1 GiB, on stack 32. -/
def tables (n : Nat) : State :=
  let p (a : Nat) : List Byte := bytesOf 8 (a + 1)
  let leaf : List Byte := bytesOf 8 ((if n = 2 then 2 * 2 ^ 30 else if n = 1 then 2 ^ 21 else 32 * 2 ^ 16) + 17)
  let s := put (put (put (user []) (kWindow 1 + 0x40000) (bytesOf 8 0x10000)) 0x10010 (p 0x20000)) 0x20000 (p 0x30000)
  if n = 2 then put s 0x30000 leaf
  else if n = 1 then put (put s 0x30000 (p 0x40000)) 0x40000 leaf
  else put (put (put s 0x30000 (p 0x40000)) 0x40000 (p 0x50000)) 0x50000 leaf

/-- Whether a walk of the page ends with a translation of `size` bytes. -/
def walks (s : State) (size : Nat) : Bool :=
  match (s.translate 1 (2 ^ 49)).1 with
  | .ok e => e.size == size
  | .error _ => false

theorem witness_HomeAccessResults_walk : walks (tables 2) (2 ^ 30) = true ∧ walks (tables 1) (2 ^ 21) = true ∧ walks (tables 0) (2 ^ 16) = true ∧
    segOf (2 ^ 49) ≠ 1 ∧ ((tables 0).tlbOf none (2 ^ 49)).find? (fun e => e.part == 1 && e.page ≤ 2 ^ 49 && 2 ^ 49 < e.page + e.size) = none ∧
    (tables 0).num (kWindow 1 + 0x40000) 8 ≠ 0 ∧ (user []).num (kWindow 1 + 0x40000) 8 = 0 ∧
    segOf (2 ^ 48 + 2 ^ 47) = 1 ∧ bitsN (2 ^ 48 + 2 ^ 47) 47 45 ≠ 0 ∧ bitsN (2 ^ 48 + 5 * 2 ^ 32) 47 45 = 0 ∧
    (user []).homeSite 1 (2 ^ 48 + 5 * 2 ^ 32) = none ∧ ((user []).homeSite 1 (2 ^ 48)).isSome = true ∧
    (user []).leafOk (some 0) (2 ^ 48) 17 16 = true ∧ (user []).leafOk none (2 ^ 49) 17 16 = false := by decide +kernel

/-- A cached page. -/
theorem witness_HomeAccessResults_cached : ((homed 1 []).tlbOf none (2 ^ 49)).find? (fun e => e.part == 1 && e.page ≤ 2 ^ 49 && 2 ^ 49 < e.page + e.size) =
    some (entry 1) := by decide +kernel

theorem witness_RecoveryStepResults_queued : (({ deciding with failQ := [] }).tile 0).role ≠ .supervisor ∧
    (∀ g ∈ deciding.failQ, regionOf g.1 = regionOf 0 → (deciding.tile g.1).role ≠ .supervisor) := by decide +kernel

/-- Three flits in the retry buffer of port 63. -/
def aFlit (n : Nat) : Flit := { seq := n, dev := 0, sel := 0, part := 1, srank := 0, resp := none, vc := 2, bulk := false, slot := [] }
def keeping : State := let s := linked 2; s.setPort 63 { s.port 63 with retry := [aFlit 65534, aFlit 65535, aFlit 0] }

theorem witness_HostPortResults_retry : (keeping.port 63).retry = [aFlit 65534] ++ aFlit 65535 :: [aFlit 0] ∧ (keeping.port 63).state = 2 ∧
    (aFlit 65535).seq = 65535 % 2 ^ 16 ∧ (∀ f ∈ [aFlit 0], f.seq ≠ 65535 % 2 ^ 16) ∧ ∀ f ∈ (keeping.port 63).retry, f.seq ≠ 7 % 2 ^ 16 := by
  decide +kernel

/-- A GRAPH packet's slot, whose graph lies on the tile that is being restored. -/
def unreadable : State :=
  let s := slottedWith [0x601, 0, 2 ^ 48] 0
  { s with fenced := [0] }

theorem witness_PacketTakeResults_readable : (slotted 0x501 0).readableNow 1 ((slotted 0x501 0).words8 (kHost 0x100000)) = true ∧
    (vget 0 (unreadable.words8 (kHost 0x100000)) 0).getLsbD 0 = true ∧ unreadable.nextTake 1 0 = some (0, queueKey 0 15, .vf 0 15) ∧
    unreadable.cpRuns 1 0 = true ∧ unreadable.readableNow 1 (unreadable.words8 (kHost 0x100000)) = false := by decide +kernel

/-- Room at the host port, and none: what waits there is more than the buffer holds. -/
theorem witness_PacketResults_room : (taking [sigPk 7 0]).hostRoom 1 = true ∧ ∃ l, ({ taking [sigPk 7 0] with egressQ := l }).hostRoom 1 = false := by
  refine ⟨by simp [State.hostRoom, taking, host, inJob, user, State.setQueue, State.setPart, State.setMe, State.setThread, State.withProgram, State.reset],
    List.replicate (Config.egressRoom + 1) (0, 0, (user []).item 0 0 false .hostMem (.store 0 [] true)), ?_⟩
  simp [State.hostRoom, State.item]

theorem witness_LongPacketResults_more : (rpPk .running).again = false ∧ quotePk.again = false ∧ eqPk.again = false ∧
    (hostHomed [graphPk]).doorsOpen 1 (graphPk.word 2) 4 = true ∧
    (drainedRp []).servicePorts 0 = [] ∧ ((drainedRp []).setPort 1 { (drainedRp []).port 1 with state := 2 }).servicePorts 2 = [1] ∧
    (drainedRp [(3, 0)]).ctlSite 1 0 = some 0 ∧ (drainedRp [(3, 0)]).egressed = [] ∧
    replays.doorsOpen 1 (BitVec.ofNat 64 (2 ^ 49 + 64 * (0 + 1))) 64 = true := by decide +kernel

theorem witness_PartitionOperationResults_more : (opPk 3 9 [0]).part = 0 ∧ (taking []).flash.down = [] := by decide +kernel

theorem witness_CopyStepResults_more : given (vget none ((copying id).tile 0).xfers 3) (fun x => !(copying id).depositBefore 0 x &&
      x.chunk.contains 0 && !x.half.contains 0) = true ∧
    given (vget none ((landed true).tile 0).xfers 3) (·.held.isEmpty) = true ∧ (landed true).net = [] ∧
    given depositing.net[0]? (fun i => !(depositing.tile (siteOf i.src)).failed) = true := by decide +kernel

/-! ### Windows (R177-R180, R188) -/

/-- Zeros, and a number followed by zeros. -/
def zeros (n : Nat) : List Byte := List.replicate n 0
def lead (v n : Nat) : List Byte := bytesOf 8 v ++ zeros (n - 8)

/-- What a write of a window comes to. -/
def winAns (s : State) (w : Window) (control : Bool) (o : Nat) (bs : List Byte) : WinAns := (s.winWrite w control o bs).1

theorem witness_CopyStepResults_windows : MemWf (user []) ∧ winAns (user []) (.tile 0) false 0x3000600 (zeros 256) = .done false ∧
    winAns (user []) (.tile 0) false 0x3000700 (zeros 64) = .done false ∧ (user []).controlOk 0 3 ((user []).core 3) = true ∧
    winAns (user []) (.tile 0) false 0x3000700 (lead 1 64) = .rule ∧
    winAns (user []) (.tile 0) false 0x2000000 (zeros 0x1000) = .done true ∧ (user []).me.act.isSome = true ∧
    (userWith [] fun t => { t with status := .parked }).me.pend = none ∧ ((user []).thread 31).act = none ∧
    ((user []).thread 31).status ≠ .parked ∧
    ((running .mma id).tile 0).owner 0 ≠ none ∧ ((running .mma id).tile 0).owner 7 = none ∧
    winAns (user []) (.tile 0) false (Config.sysArea - 8) (zeros 8) = .done false ∧
    winAns (user []) (.tile 0) false (Config.sysArea - 8) (zeros 16) = .refused ∧
    protWordOk (0 &&& protMask) = true ∧ protWordOk (2 ^ 63 &&& protMask) = false ∧
    winAns (user []) (.tile 0) false 0x3001000 (lead (2 ^ 63) 128) = .rule ∧
    winAns (user []) (.tile 0) false 0x400000 (zeros 8) = .refused := by unfold MemWf; decide +kernel

theorem witness_CopyStepResults_partition : ({ user [] with mem := Memory.writeN (user []).mem (kWindow 1 + 2040) (zeros 8) }).groupsOk 1 = true ∧
    ({ user [] with mem := Memory.writeN (user []).mem (kWindow 1 + 0) (bytesOf 8 2) }).groupsOk 1 = false ∧
    (2304 * 2 ^ 30 - 2048) % 2048 = 0 ∧ 2304 * 2 ^ 30 - 2048 < Config.hbmBytes ∧
    winAns (user []) (.part 1) false 0x40000 (bytesOf 8 (2304 * 2 ^ 30)) = .rule ∧
    winAns (user []) (.part 1) false 0x1FFFF0 (lead 16 16) = .refused ∧
    winAns (user []) (.part 1) true 0x1FFFF0 (zeros 8) = .rule ∧ winAns (user []) (.part 1) true 0x1FFFF0 (lead 15 16) = .rule ∧
    winAns (user []) (.part 1) true 0x1FFFF0 (bytesOf 8 (2 ^ 49 + 16) ++ bytesOf 8 1) = .done false ∧
    (user []).coreKey 1 0 = some 0 ∧ ((user []).installCap 0 aCap).isSome = true ∧
    (let s := user []; (s.setCore 0 { s.core 0 with caps := Vector.replicate 4 (some aCap) }).installCap 0 aCap).isNone = true ∧
    (user []).coreKey 1 999 = none ∧ (user []).homeSite 1 (2 ^ 44) = none ∧ (user []).homeSite 1 0 = some 0 := by decide +kernel

/-- The copy of `copyBlock` to a window. -/
def toWindow (o v : Nat) : State :=
  put (copying fun x => { x with dst := BitVec.ofNat 64 (2 ^ 62 + o) }) (kScratch 0 + 0x1000) (bytesOf 8 v)

/-- The hypotheses on it. -/
def toWindowOk (s : State) (o : Nat) : Bool := given (vget none (s.tile 0).xfers 3) fun x =>
  gates s x && s.chunkGate 0 x.part && x.done.isEmpty && x.mc.isEmpty && x.op == .copy && x.denied.isEmpty && decide (0 < x.len) &&
    decide (x.len ≤ 4096 * 64) && bitsN x.dst.toNat 63 62 == 1 && decide (x.src.toNat + x.len ≤ 2 ^ 48) &&
    s.localAcc 0 .read x.src.toNat x.len == some (kScratch 0 + 0x1000) && s.window x.part x.dst.toNat == some (.tile 0, o) &&
    s.windowOpen 0 x.part (.tile 0)

theorem witness_CopyStepResults_to_window : toWindowOk (toWindow 0x3000000 0) 0x3000000 = true ∧
    (toWindow 0x3000000 0).lineRefused (.tile 0) true 0x3000000 (zeros 8) = none ∧
    winAns (toWindow 0x3000000 0) (.tile 0) true 0x3000000 (zeros 8) = .done false ∧
    toWindowOk (toWindow 0x3000100 1) 0x3000100 = true ∧ (toWindow 0x3000100 1).lineRefused (.tile 0) true 0x3000100 (bytesOf 8 1) = none ∧
    winAns (toWindow 0x3000100 1) (.tile 0) true 0x3000100 (bytesOf 8 1) = .rule ∧
    toWindowOk (toWindow Config.sysArea 0) Config.sysArea = true ∧
    (toWindow Config.sysArea 0).lineRefused (.tile 0) true Config.sysArea (zeros 8) = some 0 := by decide +kernel

/-! ### Matrix engine, floe, expert queues -/

/-- The floe of another grid, with a command running and two waiting. -/
def reforming : State :=
  let s := atRest false
  s.setPart 1 { s.part 1 with floe := (s.part 1).floe.map fun f => { f with run := some { aCmd with op := .floe }, waiting := [aCmd, aCmd] } }

theorem witness_MatrixStepResults_more : given ((running .mma id).tile 0).mrun (fun r => decide (r.till ≤ r.k)) = true ∧
    (∀ y ∈ aCmd.stepReads ((running .mma id).geom 0 aCmd) 0 1, routeOf y.1 ≠ .translated) ∧ ((floating true).tile 0).failed = false ∧
    given (reforming.part 1).floe (fun f => reforming.formGrid 1 f.region != (f.rows, f.cols) && f.run.isSome && f.waiting.length == 2) = true ∧
    (reforming.part 1).stage ≠ .out := by decide +kernel

theorem witness_ExpertStepResults_log : (aged.tile 0).ringFull = false ∧ (rivals.tile 0).ringFull = false := by decide +kernel


end Sys2Proof.Tests
end

section
/-!
PROOFS. The order in which the packets of one queue start (spec/05_command.md, R89): the guard `State.startable` is the
rule of R89, and every step that starts a packet keeps to the guard.
-/

namespace Sys2Proof.Machine

/-! ### The packets taken before one -/

/-- Ids name packets, so the packets before an id are those before its place. -/
theorem takeWhile_id_ne_eq_take {l : List Taken} {k : Nat} {x : Taken} (hx : l[k]? = some x)
    (hids : (l.map (·.id)).Nodup) : (l.takeWhile fun y => y.id != x.id) = l.take k := by
  obtain ⟨hk, rfl⟩ := List.getElem?_eq_some_iff.mp hx
  have hsplit : l = l.take k ++ l[k] :: l.drop (k + 1) := by simp
  have hne : ∀ y ∈ l.take k, y.id ≠ l[k].id := by
    rw [hsplit, List.map_append, List.map_cons] at hids
    exact fun y hy h => (List.disjoint_of_nodup_append hids) (List.mem_map_of_mem hy) (by simp [h])
  calc (l.takeWhile fun y => y.id != l[k].id)
      = (l.take k ++ l[k] :: l.drop (k + 1)).takeWhile fun y => y.id != l[k].id := by rw [← hsplit]
    _ = l.take k := by rw [List.takeWhile_append_of_pos (by simpa using hne)]; simp

theorem State.earlier_eq_of_nodup {s : State} {k : Nat} {x : Taken} (hx : s.taken[k]? = some x)
    (hids : (s.taken.map (·.id)).Nodup) : s.earlier x = (s.taken.take k).filter fun y => y.src == x.src := by
  unfold State.earlier
  rw [takeWhile_id_ne_eq_take hx hids]
  rfl

/-! ### The guard is the rule -/

theorem Taken.begun_iff (y : Taken) :
    y.begun = true ↔ y.stage = .waiting ∨ y.stage = .running ∨ y.stage = .finished := by
  unfold Taken.begun
  cases y.stage <;> simp

theorem Taken.isBarrier_eq_false_iff (y : Taken) : y.isBarrier = false ↔ y.typ ≠ 3 ∧ y.typ ≠ 4 := by
  simp [Taken.isBarrier]

/-- R89 lets a packet start, where `before` are the packets of its queue that were taken before it and are not yet
completed. -/
def MayFollow (x : Taken) (before : List Taken) : Prop :=
  if (x.word 0).getLsbD 1 then before = [] else
    ∀ y ∈ before, (y.stage = .waiting ∨ y.stage = .running ∨ y.stage = .finished) ∧ y.typ ≠ 3 ∧ y.typ ≠ 4

theorem State.startable_iff_mayFollow {s : State} {x : Taken} (hready : x.stage = .ready) :
    s.startable x = true ↔ s.cpRuns x.part x.ctl = true ∧ MayFollow x (s.earlier x) := by
  unfold State.startable MayFollow
  by_cases hb : (x.word 0).getLsbD 1 = true
  · simp [hready, Taken.barrier, hb]
  · simp [hready, Taken.barrier, Taken.begun_iff, Taken.isBarrier_eq_false_iff]

/-! ### A step that starts a packet keeps to the guard

Each of them looks the packet up and tests `State.startable` before it changes anything. -/

section Blocked

variable {s : State} {k : Nat} {x : Taken} (hx : s.taken[k]? = some x) (hs : s.startable x = false)
include hx hs

theorem partOp_of_not_startable (op : Nat) (zero : Bool) (ok : State → Taken → Bool) (f : State → Taken → State) :
    partOp op zero ok f k s = .next s := by
  simp [partOp, nth, hx, hs]

theorem simpleOp_of_not_startable (op : Nat) (zero : Bool) (ok : State → Taken → Bool) (f : State → Taken → State) :
    simpleOp op zero ok f k s = .next s :=
  partOp_of_not_startable hx hs ..

theorem startBarrier_of_not_startable (typ : Nat) : startBarrier s typ k = .next s := by
  simp [startBarrier, nth, hx, hs]

theorem changeSignal_of_not_startable (op : Nat) : changeSignal s op k = .next s := by
  simp [changeSignal, nth, hx, hs]

theorem execLaunchPacket_of_not_startable : execLaunchPacket k s = .next s := by
  simp [execLaunchPacket, nth, hx, hs]

theorem execCopyPacket_of_not_startable : execCopyPacket k s = .next s := by
  simp [execCopyPacket, nth, hx, hs]

theorem execGraphReplayPacket_of_not_startable : execGraphReplayPacket k s = .next s := by
  simp [execGraphReplayPacket, nth, hx, hs]

theorem execExpertQueueConfiguration_of_not_startable : execExpertQueueConfiguration k s = .next s := by
  simp [execExpertQueueConfiguration, nth, hx, hs]

theorem execQuote_of_not_startable : execQuote k s = .next s := by
  simp [execQuote, nth, hx, hs]

theorem execCreate_of_not_startable : execCreate k s = .next s := by
  simp [execCreate, nth, hx, hs]

theorem execBindvf_of_not_startable : execBindvf k s = .next s := by
  simp [execBindvf, nth, hx, simpleOp_of_not_startable hx hs]

theorem execUnbindvf_of_not_startable : execUnbindvf k s = .next s := by
  simp [execUnbindvf, nth, hx, simpleOp_of_not_startable hx hs]

theorem execEvents_of_not_startable : execEvents k s = .next s := by
  simp [execEvents, nth, hx, simpleOp_of_not_startable hx hs]

theorem execSwitchin_of_not_startable : execSwitchin k s = .next s := by
  simp [execSwitchin, nth, hx, hs]

theorem execRestore_of_not_startable : execRestore k s = .next s := by
  simp [execRestore, nth, hx, hs]

/-! READMIT, SWITCHOUT and a recovery point also go on with a packet that runs; one that is ready does not. -/

variable (hready : x.stage = .ready)
include hready

theorem execRecoveryPoint_of_not_startable : execRecoveryPoint k s = .next s := by
  simp [execRecoveryPoint, nth, hx, hs, hready]

theorem execReadmit_of_not_startable : execReadmit k s = .next s := by
  have hop := fun op zero ok f => partOp_of_not_startable hx hs op zero ok f
  unfold execReadmit
  simp only [nth, hx, hready]
  split
  · simp [hop]
  · exact hop ..

theorem execSwitchout_of_not_startable : execSwitchout k s = .next s := by
  simp [execSwitchout, nth, hx, hs, hready]

end Blocked

/-- A step that starts the `k`-th taken packet (R89). -/
def StartsPacket (k : Nat) (i : Instr) : Prop :=
  i ∈ [.launchPacket k, .copyPacket k, .barrierAndPacket k, .barrierOrPacket k, .signalStore k, .signalAdd k,
    .signalSubtract k, .graphReplayPacket k, .expertQueueConfiguration k, .recoveryPoint k, .quote k, .create k, .destroy k,
    .bindvf k, .unbindvf k, .egress k, .cstep k, .selftest k, .devid k, .readmit k, .modes k, .events k, .switchout k,
    .switchin k, .assist k, .restore k]

theorem exec_of_not_startable {s : State} {k : Nat} {x : Taken} (hx : s.taken[k]? = some x) (hready : x.stage = .ready)
    (hs : s.startable x = false) : ∀ i, StartsPacket k i → exec i s = .next s := by
  have simple := fun op zero ok f => simpleOp_of_not_startable hx hs op zero ok f
  unfold StartsPacket
  simp only [List.forall_mem_cons]
  exact ⟨execLaunchPacket_of_not_startable hx hs,
    execCopyPacket_of_not_startable hx hs,
    startBarrier_of_not_startable hx hs 3,
    startBarrier_of_not_startable hx hs 4,
    changeSignal_of_not_startable hx hs 0,
    changeSignal_of_not_startable hx hs 1,
    changeSignal_of_not_startable hx hs 2,
    execGraphReplayPacket_of_not_startable hx hs,
    execExpertQueueConfiguration_of_not_startable hx hs,
    execRecoveryPoint_of_not_startable hx hs hready,
    execQuote_of_not_startable hx hs,
    execCreate_of_not_startable hx hs,
    show execDestroy k s = .next s from simple ..,
    execBindvf_of_not_startable hx hs,
    execUnbindvf_of_not_startable hx hs,
    show execEgress k s = .next s from simple ..,
    show execCstep k s = .next s from simple ..,
    show execSelftest k s = .next s from simple ..,
    show execDevid k s = .next s from simple ..,
    execReadmit_of_not_startable hx hs hready,
    show execModes k s = .next s from simple ..,
    execEvents_of_not_startable hx hs,
    execSwitchout_of_not_startable hx hs hready,
    execSwitchin_of_not_startable hx hs,
    show execAssist k s = .next s from simple ..,
    execRestore_of_not_startable hx hs,
    List.forall_mem_nil _⟩

/-- Settles O44: for a packet that is ready, the guard of the steps that start it is the rule of R89. -/
theorem packetStartOrder : Obligations.PacketStartOrder := by
  intro s k x before free starts hx hids hready
  have hguard : s.startable x = true ↔ s.cpRuns x.part x.ctl = true ∧ free := by
    rw [State.startable_iff_mayFollow hready, State.earlier_eq_of_nodup hx hids]
    rfl
  constructor
  · exact fun hfree hruns => hguard.mpr ⟨hruns, hfree⟩
  · intro hheld i hi
    have hs : s.startable x = false := Bool.eq_false_iff.mpr fun h => hheld (hguard.mp h).2
    exact ⟨s, exec_of_not_startable hx hready hs i hi, rfl⟩

end Sys2Proof.Machine
end

section
/-!
PROOFS. Which of its queues a tile fires (spec/08_experts.md, R159, R163): the order of R163 is that of a lexicographic
rank, the unit picks the least rank, and what a firing logs and sends leaves the queues as they are.
-/

namespace Sys2Proof.Machine

/-! ### The order of R163 is linear -/

/-- The place of a queue in the order of R163, the least first: the priority, then how long the queue has been at 7 or, below
7, how long its oldest entry has waited, then its index. -/
def eqRank (now : Nat) (x : Nat × ExpertQueue) : ℕᵒᵈ ×ₗ ℤ ×ₗ ℕ :=
  toLex (OrderDual.toDual (x.2.eprio now),
    toLex (if x.2.eprio now = 7 then x.2.topSince now else -(x.2.wait now : ℤ), x.1))

theorem eqBefore_iff_rank_lt (now : Nat) (a b : Nat × ExpertQueue) :
    eqBefore now a b = true ↔ eqRank now a < eqRank now b := by
  simp only [eqBefore, eqRank, Prod.Lex.toLex_lt_toLex, OrderDual.toDual_lt_toDual, OrderDual.toDual_inj]
  by_cases hp : a.2.eprio now = b.2.eprio now
  · by_cases h7 : b.2.eprio now = 7
    · by_cases ht : a.2.topSince now = b.2.topSince now <;> simp [hp, h7, ht]
    · by_cases hw : a.2.wait now = b.2.wait now <;> simp [hp, h7, hw]
  · simp [hp]

/-- A queue is not behind another, in the words of R163. -/
def NotBehind (now : Nat) (a b : Nat × ExpertQueue) : Prop :=
  b.2.eprio now ≤ a.2.eprio now ∧
    (b.2.eprio now = a.2.eprio now → a.2.eprio now ≠ 7 →
      b.2.wait now ≤ a.2.wait now ∧ (b.2.wait now = a.2.wait now → a.1 ≤ b.1)) ∧
    (b.2.eprio now = 7 → a.2.eprio now = 7 →
      a.2.topSince now ≤ b.2.topSince now ∧ (a.2.topSince now = b.2.topSince now → a.1 ≤ b.1))

theorem notBehind_of_rank_le {now : Nat} {a b : Nat × ExpertQueue} (h : eqRank now a ≤ eqRank now b) :
    NotBehind now a b := by
  simp only [eqRank, Prod.Lex.toLex_le_toLex, OrderDual.toDual_lt_toDual, OrderDual.toDual_inj] at h
  unfold NotBehind
  rcases h with hp | ⟨hp, h⟩
  · omega
  · refine ⟨hp.ge, fun _ h7 => ?_, fun _ h7 => ?_⟩
    · simp only [← hp, h7, if_false] at h
      omega
    · simp only [← hp, h7, if_true] at h
      omega

/-! ### The unit picks the least -/

/-- Where the queues of a tile count their waits with one clock, the next queue is one of least rank among those that can
fire. -/
theorem State.nextQueue_mem_argmin {s : State} {site now : Nat} {x : Nat × ExpertQueue}
    (hnow : ∀ y ∈ (s.tile site).eqs, s.eqNow site y.2.part = now) (h : s.nextQueue site = some x) :
    x ∈ ((s.tile site).eqs.filter fun y => s.canFire site y.2).argmin (eqRank now) := by
  simp only [State.nextQueue] at h
  split at h
  · cases h
  · rw [Option.mem_def, ← h, List.argmin]
    refine List.foldl_ext _ _ _ fun best y hy => ?_
    cases best with
    | none => rfl
    | some z => simp only [List.argAux, hnow y (List.mem_of_mem_filter hy), eqBefore_iff_rank_lt]

theorem State.nextQueue_spec {s : State} {site now : Nat} {x : Nat × ExpertQueue}
    (hnow : ∀ y ∈ (s.tile site).eqs, s.eqNow site y.2.part = now) (h : s.nextQueue site = some x) :
    x ∈ (s.tile site).eqs ∧ s.canFire site x.2 = true ∧
      ∀ y ∈ (s.tile site).eqs, s.canFire site y.2 = true → NotBehind now x y := by
  have hmin := State.nextQueue_mem_argmin hnow h
  obtain ⟨hmem, hfire⟩ := List.mem_filter.mp (List.argmin_mem hmin)
  exact ⟨hmem, hfire, fun y hy hcan =>
    notBehind_of_rank_le (List.le_of_mem_argmin (List.mem_filter.mpr ⟨hy, hcan⟩) hmin)⟩

/-! ### What leaves the queues as they are -/

/-- Every tile has the queues it had. -/
def SameQueues (s t : State) : Prop := ∀ site, (t.tile site).eqs = (s.tile site).eqs

theorem SameQueues.refl (s : State) : SameQueues s s := fun _ => rfl

theorem SameQueues.trans {s t u : State} (h : SameQueues s t) (g : SameQueues t u) : SameQueues s u :=
  fun site => (g site).trans (h site)

theorem SameQueues.eq {s t : State} (h : SameQueues s t) (site n : Nat) : (t.tile site).eq n = (s.tile site).eq n := by
  unfold Tile.eq
  rw [h site]

theorem sameQueues_setTile {s : State} {site : Nat} {x : Tile} (h : x.eqs = (s.tile site).eqs) :
    SameQueues s (s.setTile site x) := by
  intro k
  rw [State.tile_setTile]
  split
  · next hk => rw [h, hk]
  · rfl

theorem sameQueues_foldl {α : Type} (f : State → α → State) (hf : ∀ s a, SameQueues s (f s a)) (l : List α) (s : State) :
    SameQueues s (l.foldl f s) := by
  induction l generalizing s with
  | nil => exact SameQueues.refl s
  | cons a l ih => exact (hf s a).trans (ih (f s a))

theorem countSent_sameQueues (s : State) (site job n : Nat) : SameQueues s (s.countSent site job n) := by
  unfold State.countSent
  split
  · exact fun _ => rfl
  · split
    · exact sameQueues_setTile rfl
    · exact SameQueues.refl s

theorem emit_sameQueues (s : State) (i : Item) : SameQueues s (s.emit i) := fun _ => rfl

theorem ringRecord_tile (s : State) (site b : Nat) (r : LogRec) (k : Nat) : (s.ringRecord site b r).tile k = s.tile k := by
  unfold State.ringRecord
  split <;> rfl

theorem logRec_sameQueues (s : State) (site : Nat) (r : LogRec) : SameQueues s (s.logRec site r) := by
  simp only [State.logRec]
  split
  · split
    · intro k
      rw [State.tile_setTile]
      split
      · next hk => rw [hk]
      · rw [ringRecord_tile]
    · exact SameQueues.refl s
  · exact SameQueues.refl s

theorem log_sameQueues (s : State) (site typ : Nat) (body : List Word) (m : Option Item) (size : Nat) :
    SameQueues s (s.log site typ body m size) := logRec_sameQueues s site _

theorem fireMessages_sameQueues (s : State) (site : Nat) (q : ExpertQueue) (qid fire : Nat) (dest : List Nat)
    (pl : Vector Word 8) : SameQueues s (s.fireMessages site q qid fire dest pl) := by
  refine sameQueues_foldl _ (fun u _ => ?_) dest s
  exact (countSent_sameQueues u site q.job 1).trans (emit_sameQueues _ _)

/-! ### The queue after its firing -/

@[simp] theorem State.eq_setEq_self (s : State) (site n : Nat) (q : ExpertQueue) : ((s.setEq site n q).tile site).eq n = q := by
  simp [State.setEq, Tile.eq]

/-- A firing sets its queue, which counts as reaching EPRIO 7 afresh; the log and the messages leave the queues as they are. -/
theorem State.fire_sameQueues (s : State) (site n : Nat) (q : ExpertQueue) :
    ∃ q' : ExpertQueue, SameQueues (s.setEq site n (q'.freshTop (s.eqNow site q.part))) (s.fire site n q) := by
  have hlog (u : State) (det : Bool) (body : List Word) :
      SameQueues u (if det then u else u.log site 6 body none 16) := by
    cases det
    · exact log_sameQueues u site 6 body none 16
    · exact SameQueues.refl u
  exact ⟨_, (hlog _ _ _).trans (fireMessages_sameQueues _ _ _ _ _ _ _)⟩

theorem State.eq_fire (s : State) (site n : Nat) (q : ExpertQueue) :
    ∃ q' : ExpertQueue, ((s.fire site n q).tile site).eq n = q'.freshTop (s.eqNow site q.part) := by
  obtain ⟨q', hsame⟩ := s.fire_sameQueues site n q
  exact ⟨q', (hsame.eq site n).trans (State.eq_setEq_self ..)⟩

theorem ExpertQueue.freshTop_top (q : ExpertQueue) (now : Nat) :
    (q.freshTop now).top = if (q.freshTop now).eprio now = 7 then some (now : Int) else none := rfl

theorem execExpertFiring_of_nextQueue {s : State} {site n : Nat} {q : ExpertQueue} (hfailed : (s.tile site).failed = false)
    (hlive : (s.tile site).replaying = false) (hdet : s.det ((s.partOfSite site).getD 0) = false)
    (hactive : (s.part ((s.partOfSite site).getD 0)).stage = .active) (hroom : (s.tile site).ringFull = false)
    (hnext : s.nextQueue site = some (n, q)) : execExpertFiring site s = .next (s.fire site n q) := by
  simp [execExpertFiring, hfailed, hlive, hdet, hactive, hroom, hnext]

/-- Settles O53: the unit picks the queue of least rank, and a firing sets the time of its queue anew. -/
theorem firingOrder : Obligations.FiringOrder := by
  intro s site n now q eqs hnow hnext
  obtain ⟨hmem, hcan, hfirst⟩ := State.nextQueue_spec hnow hnext
  refine ⟨⟨hmem, hcan, hfirst⟩, fun hfailed hlive hdet hactive hroom => ?_⟩
  obtain ⟨q', hq'⟩ := s.eq_fire site n q
  refine ⟨_, execExpertFiring_of_nextQueue hfailed hlive hdet hactive hroom hnext, ?_⟩
  dsimp only
  rw [hq', hnow (n, q) hmem]
  exact ExpertQueue.freshTop_top q' now

end Sys2Proof.Machine
end

section
/-!
PROOFS. The fields of a word of the V format (R272), what the decoder needs to answer an instruction (R268), the elements of
a vector register (R251), and with them VSEL (spec/17_vector.md, R347).
-/

namespace Sys2Proof

/-! ### The fields of a word of the V format -/

section FieldsV

variable (f6 : BitVec 6) (et : BitVec 3) (vs2 vs1 : BitVec 4) (var : BitVec 3) (vd : BitVec 4) (pm : Bool)

/-- The same bits, in the width that the fields add up to. -/
theorem fld_encV (lo n : Nat) : fld (encV f6 et vs2 vs1 var vd pm) lo n =
    BitVec.extractLsb' lo n (f6 ++ et ++ vs2 ++ vs1 ++ var ++ vd ++ flagBit pm ++ opCustom2) := rfl

@[simp] theorem fld_encV_lowBits : fld (encV f6 et vs2 vs1 var vd pm) 0 2 = 3#2 := by
  rw [fld_encV, BitVec.extractLsb'_append_eq_of_add_le (by decide)]
  rfl

@[simp] theorem fld_encV_opcode : fld (encV f6 et vs2 vs1 var vd pm) 0 7 = opCustom2 := by
  rw [fld_encV, BitVec.extractLsb'_append_eq_right]

@[simp] theorem fVd_encV : fVd (encV f6 et vs2 vs1 var vd pm) = vd := by
  simp (disch := decide) only [fVd, fld_encV, BitVec.extractLsb'_append_eq_of_le]
  exact BitVec.extractLsb'_append_eq_right

@[simp] theorem fVs1_encV : fVs1 (encV f6 et vs2 vs1 var vd pm) = vs1 := by
  simp (disch := decide) only [fVs1, fld_encV, BitVec.extractLsb'_append_eq_of_le]
  exact BitVec.extractLsb'_append_eq_right

@[simp] theorem fVs2_encV : fVs2 (encV f6 et vs2 vs1 var vd pm) = vs2 := by
  simp (disch := decide) only [fVs2, fld_encV, BitVec.extractLsb'_append_eq_of_le]
  exact BitVec.extractLsb'_append_eq_right

@[simp] theorem fld_encV_etype : fld (encV f6 et vs2 vs1 var vd pm) 23 3 = et := by
  simp (disch := decide) only [fld_encV, BitVec.extractLsb'_append_eq_of_le]
  exact BitVec.extractLsb'_append_eq_right

@[simp] theorem fld_encV_funct6 : fld (encV f6 et vs2 vs1 var vd pm) 26 6 = f6 := by
  simp (disch := decide) only [fld_encV, BitVec.extractLsb'_append_eq_of_le]
  exact BitVec.extractLsb'_eq_self

end FieldsV

@[simp] theorem EType.ofCode_code (et : EType) : EType.ofCode et.code = et := by cases et <;> rfl

/-- All eight codes name an element type (R280). -/
theorem EType.exists_code (c : BitVec 3) : ∃ et : EType, et.code = c := ⟨EType.ofCode c, by decide +revert⟩

/-! ### When the decoder answers an instruction -/

theorem decodeWord_eq_ok_iff {w : BitVec 32} {i : Instr} :
    decodeWord w = .ok i ↔ fld w 0 2 = 3#2 ∧ candidate w = some i ∧ i.wf = true ∧ encode i = w := by
  unfold decodeWord
  by_cases hlow : fld w 0 2 = 3#2
  · cases hc : candidate w with
    | none => simp [hlow]
    | some j =>
      by_cases hj : (j.wf && encode j == w) = true
      · simp only [hlow, hj, if_true, Except.ok.injEq, Option.some.injEq, true_and]
        refine ⟨?_, And.left⟩
        rintro rfl
        simpa using hj
      · simp only [hlow, hj, if_true, Option.some.injEq, true_and]
        refine ⟨nofun, ?_⟩
        rintro ⟨rfl, hwf, henc⟩
        simp [hwf, henc] at hj
  · simp [hlow]

theorem candidate_encV (f6 : BitVec 6) (et : BitVec 3) (vs2 vs1 : BitVec 4) (var : BitVec 3) (vd : BitVec 4) (pm : Bool) :
    candidate (encV f6 et vs2 vs1 var vd pm) = candCustom2 (encV f6 et vs2 vs1 var vd pm) := by
  simp [candidate, opCustom2]

theorem decodeWord_vsel_iff (et : EType) (vd vs2 vs1 : BitVec 4) (w : BitVec 32) :
    decodeWord w = .ok (.vsel et vd vs2 vs1) ↔ w = encV 0x2C#6 et.code vs2 vs1 0#3 vd false := by
  rw [decodeWord_eq_ok_iff]
  constructor
  · exact fun ⟨_, _, _, henc⟩ => henc.symm
  · rintro rfl
    refine ⟨fld_encV_lowBits .., ?_, rfl, rfl⟩
    rw [candidate_encV]
    simp [candCustom2, fEt]

namespace Machine

/-! ### The elements of a register -/

theorem packNat_lt (w : Nat) (l : List Nat) : packNat w l < 2 ^ (w * l.length) := by
  induction l with
  | nil => simp [packNat]
  | cons x l ih =>
    have hx : x % 2 ^ w < 2 ^ w := Nat.mod_lt _ (Nat.two_pow_pos w)
    calc x % 2 ^ w + 2 ^ w * packNat w l
        < 2 ^ w * (packNat w l + 1) := by rw [Nat.mul_succ]; omega
      _ ≤ 2 ^ w * 2 ^ (w * l.length) := Nat.mul_le_mul_left _ ih
      _ = 2 ^ (w * (l.length + 1)) := by rw [← Nat.pow_add, Nat.mul_succ, Nat.add_comm]

theorem packNat_elem (w : Nat) (l : List Nat) {j : Nat} (hj : j < l.length) :
    packNat w l / 2 ^ (w * j) % 2 ^ w = l[j] % 2 ^ w := by
  induction l generalizing j with
  | nil => cases hj
  | cons x l ih =>
    cases j with
    | zero => simp [packNat]
    | succ j =>
      have hdiv : packNat w (x :: l) / 2 ^ w = packNat w l := by
        rw [packNat, Nat.add_mul_div_left _ _ (Nat.two_pow_pos w),
          Nat.div_eq_of_lt (Nat.mod_lt _ (Nat.two_pow_pos w)), Nat.zero_add]
      rw [Nat.mul_succ, Nat.add_comm, Nat.pow_add, ← Nat.div_div_eq_div_mul, hdiv]
      exact ih (Nat.lt_of_succ_lt_succ hj)

/-- Elements that fit a register are packed without loss. -/
theorem toNat_pack {w : Nat} {l : List Nat} (hl : w * l.length ≤ 512) : (pack w l).toNat = packNat w l := by
  have hpow := Nat.pow_le_pow_right Nat.two_pos hl
  exact Nat.mod_eq_of_lt ((packNat_lt w l).trans_le hpow)

theorem elem_pack {w : Nat} {l : List Nat} (hl : w * l.length ≤ 512) {j : Nat} (hj : j < l.length) :
    elem (pack w l) w j = l[j] % 2 ^ w := by
  rw [elem, toNat_pack hl, packNat_elem w l hj]

@[simp] theorem elem_mod (v : VReg) (w j : Nat) : elem v w j % 2 ^ w = elem v w j := Nat.mod_mod _ _

@[simp] theorem length_elems (v : VReg) (w : Nat) : (elems v w).length = 512 / w := by simp [elems]

theorem length_foldl_set (l : List (Nat × Nat)) (d : List Nat) :
    (l.foldl (fun d e => d.set e.1 e.2) d).length = d.length := by
  induction l generalizing d with
  | nil => rfl
  | cons e l ih => simp [ih]

/-- The places `is` hold what `f` gives there, however often one stands in the list. -/
theorem getElem_foldl_set (f : Nat → Nat) (is d : List Nat) {j : Nat} (hj : j < d.length) :
    ((is.zip (is.map f)).foldl (fun d e => d.set e.1 e.2) d)[j]'(by simpa [length_foldl_set] using hj) =
      if j ∈ is then f j else d[j] := by
  induction is generalizing d with
  | nil => simp
  | cons i is ih =>
    refine (ih (d.set i (f i)) (by simpa using hj)).trans ?_
    by_cases hij : i = j
    · subst hij
      simp
    · simp [hij, Ne.symm hij]

theorem Thread.mem_actives {t : Thread} {c j : Nat} {pm : Bool} :
    j ∈ t.actives c pm ↔ j < c ∧ j < t.vl.toNat ∧ (pm = true → (t.rm 0).getLsbD j = true) := by
  cases pm <;> simp +contextual [Thread.actives, Thread.active]

/-! ### Writing elements of a register -/

/-- The elements of the register that `Thread.wElems` writes. -/
theorem Thread.elem_wElems (t : Thread) (w : Nat) (vd : BitVec 4) (is : List Nat) (f : Nat → Nat) {j : Nat} (hj : j < 512 / w) :
    elem ((t.wElems w vd is (is.map f)).rv vd) w j = if j ∈ is then f j % 2 ^ w else elem (t.rv vd) w j := by
  have hlen := (length_foldl_set (is.zip (is.map f)) (elems (t.rv vd) w)).trans (length_elems ..)
  rw [Thread.wElems, Thread.rv_wv, if_pos rfl, elem_pack (hlen ▸ Nat.mul_div_le 512 w) (hlen ▸ hj),
    getElem_foldl_set f is _ (by simpa using hj)]
  split
  · rfl
  · simp [elems]

/-- A meaning that writes elements of one register and goes on gives them, and nothing else changes. -/
theorem GivesLanes.of_wElems {i : Instr} {s : State} {w : Nat} {vd : BitVec 4} {on : Nat → Bool} {f : Nat → Nat} {is : List Nat}
    (hexec : exec i s = .next (s.setMe (s.me.wElems w vd is (is.map f))).retire)
    (hon : ∀ j, j < 512 / w → (j ∈ is ↔ on j = true)) : GivesLanes i s w vd on f := by
  have hret : Retired s (s.setMe (s.me.wElems w vd is (is.map f))).retire (s.me.wElems w vd is (is.map f)) :=
    State.retire_retired s _ rfl rfl rfl rfl rfl rfl rfl rfl rfl
  have hrv (r : BitVec 4) : (s.setMe (s.me.wElems w vd is (is.map f))).retire.me.rv r =
      (s.me.wElems w vd is (is.map f)).rv r := by rw [hret.me]; rfl
  refine ⟨_, hexec, fun r hr => ?_, fun j hj => ?_, _, hret⟩
  · rw [hrv, Thread.wElems, Thread.rv_wv, if_neg hr]
  · simp only [hrv, Thread.elem_wElems s.me w vd is f hj, hon j hj]

/-! ### VSEL -/

theorem exec_vsel (et : EType) (vd vs2 vs1 : BitVec 4) (s : State) :
    exec (.vsel et vd vs2 vs1) s = execVsel et vd vs2 vs1 s := rfl

theorem noStreams_vsel_iff (s : State) (vd vs2 vs1 : BitVec 4) :
    NoStreams s [vd, vs2, vs1] ↔ (s.me.bound vd || s.me.bound vs2 || s.me.bound vs1) = false := by
  simp [NoStreams, and_assoc]

/-- Settles O33: the word is VSEL's encoding, and its meaning writes the elements below VL unless a stream is named. -/
theorem vselResults : Obligations.VselResults := by
  intro s et vd vs2 vs1 w
  refine ⟨decodeWord_vsel_iff et vd vs2 vs1 w, EType.exists_code, fun hfree => ?_, fun hbound => ?_⟩
  · rw [noStreams_vsel_iff] at hfree
    refine GivesLanes.of_wElems (is := s.me.actives et.count false) ?_ fun j hj => ?_
    · simp [exec_vsel, execVsel, hfree]
    · rw [Thread.mem_actives, EType.count]
      simp [hj]
  · rw [noStreams_vsel_iff, Bool.not_eq_false] at hbound
    simp [exec_vsel, execVsel, hbound]

end Machine

end Sys2Proof
end

section
/-!
PROOFS. What retiring an instruction that is no jump does (R294, R308) whatever word is next, at M in particular, and with it
the return from a machine trap (spec/19_system.md, R392).
-/

namespace Sys2Proof.Machine

/-! ### Retiring to any next word -/

/-- R308 in one equation: at the end of the loop's body the count goes down while it is not 0, and the body is begun again
while more than one turn is left. -/
theorem loopTest_no_jump (t : Thread) (next : Word) :
    loopTest t next false = (if t.pc = t.lpend ∧ 1 < t.lpcount.toNat then t.lpstart else next, nextCount t) := by
  simp only [loopTest, nextCount, Bool.false_eq_true, if_false]
  by_cases hend : t.pc = t.lpend
  · simp only [hend, if_true, true_and]
    by_cases hmany : 1 < t.lpcount.toNat
    · simp [hmany, hmany.le]
    · by_cases hone : t.lpcount = 1
      · simp [hone]
      · have hzero : ¬ 1 ≤ t.lpcount.toNat := fun h =>
          hone (BitVec.eq_of_toNat_eq (Nat.le_antisymm (Nat.le_of_not_lt hmany) h))
        simp only [hmany, hone, hzero, if_false]
  · simp [hend]

/-- Only an activation at U has a budget to spend (R120, R123). -/
theorem nextBudget_machine {s : State} (hM : s.me.priv = .M) : nextBudget s = s.me.budget := by
  simp [nextBudget, hM]

theorem State.thread_retireTo_ne (s : State) (w : Word) (j : Bool) {h : Nat} (hh : h ≠ s.cur) :
    (s.retireTo w j).thread h = s.thread h :=
  SMap.get_put_ne _ _ _ hh

/-- Retiring changes threads and the counts of instructions alone. -/
theorem State.retireTo_rest (s : State) (w : Word) (j : Bool) :
    { s.retireTo w j with threads := s.threads, instrs := s.instrs } = s := rfl

/-! ### MRET -/

theorem encode_mret : encode .mret = 0x30200073#32 := by decide

theorem exec_mret_machine {s : State} (hM : s.me.priv = .M) : exec .mret s = .next (s.retireTo s.me.mepc false) := by
  rw [show exec .mret s = execMret s from rfl, execMret, hM, State.mret]

theorem exec_mret_user {s : State} (hU : s.me.priv = .U) :
    exec .mret s = exec (.illegalInstruction (encode .mret)) s := by
  rw [show exec .mret s = execMret s from rfl, execMret, hU]
  rfl

/-- Settles O12: at M it retires to mepc, and at U its meaning is the illegal-instruction error of its own word. -/
theorem mretResults : Obligations.MretResults := by
  intro s
  refine ⟨encode_mret, fun hM => ⟨_, exec_mret_machine hM, ?_, s.retireTo_rest _ _, fun _ => s.thread_retireTo_ne _ _⟩,
    fun hU => encode_mret ▸ exec_mret_user hU⟩
  rw [State.retireTo_me, loopTest_no_jump, nextBudget_machine hM]

end Sys2Proof.Machine
end

section
/-!
PROOFS. Every word of a well-formed instruction decodes to it (R268-R281): the fields of each format are read back, so the
decoder spells the instruction that was encoded.
-/

namespace Sys2Proof

/-! ### The fields of each format are read back -/

section FieldsR

variable (f7 : BitVec 7) (rs2 rs1 : BitVec 5) (f3 : BitVec 3) (rd : BitVec 5) (op : BitVec 7)

/-- The same bits, in the width that the fields add up to. -/
theorem fld_encR (lo n : Nat) : fld (encR f7 rs2 rs1 f3 rd op) lo n =
    BitVec.extractLsb' lo n (f7 ++ rs2 ++ rs1 ++ f3 ++ rd ++ op) := rfl

@[simp] theorem fld_encR_opcode : fld (encR f7 rs2 rs1 f3 rd op) 0 7 = op := by
  rw [fld_encR, BitVec.extractLsb'_append_eq_right]

@[simp] theorem fRd_encR : fRd (encR f7 rs2 rs1 f3 rd op) = rd := by
  simp (disch := decide) only [fRd, fld_encR, BitVec.extractLsb'_append_eq_of_le]
  exact BitVec.extractLsb'_append_eq_right

@[simp] theorem fF3_encR : fF3 (encR f7 rs2 rs1 f3 rd op) = f3 := by
  simp (disch := decide) only [fF3, fld_encR, BitVec.extractLsb'_append_eq_of_le]
  exact BitVec.extractLsb'_append_eq_right

@[simp] theorem fRs1_encR : fRs1 (encR f7 rs2 rs1 f3 rd op) = rs1 := by
  simp (disch := decide) only [fRs1, fld_encR, BitVec.extractLsb'_append_eq_of_le]
  exact BitVec.extractLsb'_append_eq_right

@[simp] theorem fRs2_encR : fRs2 (encR f7 rs2 rs1 f3 rd op) = rs2 := by
  simp (disch := decide) only [fRs2, fld_encR, BitVec.extractLsb'_append_eq_of_le]
  exact BitVec.extractLsb'_append_eq_right

@[simp] theorem fF7_encR : fF7 (encR f7 rs2 rs1 f3 rd op) = f7 := by
  simp (disch := decide) only [fF7, fld_encR, BitVec.extractLsb'_append_eq_of_le]
  exact BitVec.extractLsb'_eq_self

end FieldsR

section FieldsI

variable (imm : BitVec 12) (rs1 : BitVec 5) (f3 : BitVec 3) (rd : BitVec 5) (op : BitVec 7)

/-- The same bits, in the width that the fields add up to. -/
theorem fld_encI (lo n : Nat) : fld (encI imm rs1 f3 rd op) lo n =
    BitVec.extractLsb' lo n (imm ++ rs1 ++ f3 ++ rd ++ op) := rfl

@[simp] theorem fld_encI_opcode : fld (encI imm rs1 f3 rd op) 0 7 = op := by
  rw [fld_encI, BitVec.extractLsb'_append_eq_right]

@[simp] theorem fRd_encI : fRd (encI imm rs1 f3 rd op) = rd := by
  simp (disch := decide) only [fRd, fld_encI, BitVec.extractLsb'_append_eq_of_le]
  exact BitVec.extractLsb'_append_eq_right

@[simp] theorem fF3_encI : fF3 (encI imm rs1 f3 rd op) = f3 := by
  simp (disch := decide) only [fF3, fld_encI, BitVec.extractLsb'_append_eq_of_le]
  exact BitVec.extractLsb'_append_eq_right

@[simp] theorem fRs1_encI : fRs1 (encI imm rs1 f3 rd op) = rs1 := by
  simp (disch := decide) only [fRs1, fld_encI, BitVec.extractLsb'_append_eq_of_le]
  exact BitVec.extractLsb'_append_eq_right

@[simp] theorem fImmI_encI : fImmI (encI imm rs1 f3 rd op) = imm := by
  simp (disch := decide) only [fImmI, fld_encI, BitVec.extractLsb'_append_eq_of_le]
  exact BitVec.extractLsb'_eq_self

end FieldsI

section FieldsS

variable (imm : BitVec 12) (rs2 rs1 : BitVec 5) (f3 : BitVec 3) (op : BitVec 7)

/-- The same bits, in the width that the fields add up to. -/
theorem fld_encS (lo n : Nat) : fld (encS imm rs2 rs1 f3 op) lo n =
    BitVec.extractLsb' lo n (imm.extractLsb' 5 7 ++ rs2 ++ rs1 ++ f3 ++ imm.extractLsb' 0 5 ++ op) := rfl

@[simp] theorem fld_encS_opcode : fld (encS imm rs2 rs1 f3 op) 0 7 = op := by
  rw [fld_encS, BitVec.extractLsb'_append_eq_right]

@[simp] theorem fRd_encS : fRd (encS imm rs2 rs1 f3 op) = imm.extractLsb' 0 5 := by
  simp (disch := decide) only [fRd, fld_encS, BitVec.extractLsb'_append_eq_of_le]
  exact BitVec.extractLsb'_append_eq_right

@[simp] theorem fF3_encS : fF3 (encS imm rs2 rs1 f3 op) = f3 := by
  simp (disch := decide) only [fF3, fld_encS, BitVec.extractLsb'_append_eq_of_le]
  exact BitVec.extractLsb'_append_eq_right

@[simp] theorem fRs1_encS : fRs1 (encS imm rs2 rs1 f3 op) = rs1 := by
  simp (disch := decide) only [fRs1, fld_encS, BitVec.extractLsb'_append_eq_of_le]
  exact BitVec.extractLsb'_append_eq_right

@[simp] theorem fRs2_encS : fRs2 (encS imm rs2 rs1 f3 op) = rs2 := by
  simp (disch := decide) only [fRs2, fld_encS, BitVec.extractLsb'_append_eq_of_le]
  exact BitVec.extractLsb'_append_eq_right

@[simp] theorem fF7_encS : fF7 (encS imm rs2 rs1 f3 op) = imm.extractLsb' 5 7 := by
  simp (disch := decide) only [fF7, fld_encS, BitVec.extractLsb'_append_eq_of_le]
  exact BitVec.extractLsb'_eq_self

end FieldsS

section FieldsB

variable (off : BitVec 12) (rs2 rs1 : BitVec 5) (f3 : BitVec 3) (op : BitVec 7)

/-- The same bits, in the width that the fields add up to. -/
theorem fld_encB (lo n : Nat) : fld (encB off rs2 rs1 f3 op) lo n =
    BitVec.extractLsb' lo n (off.extractLsb' 11 1 ++ off.extractLsb' 4 6 ++ rs2 ++ rs1 ++ f3 ++ off.extractLsb' 0 4 ++ off.extractLsb' 10 1 ++ op) := rfl

@[simp] theorem fld_encB_opcode : fld (encB off rs2 rs1 f3 op) 0 7 = op := by
  rw [fld_encB, BitVec.extractLsb'_append_eq_right]

@[simp] theorem fld_encB_7_1 : fld (encB off rs2 rs1 f3 op) 7 1 = off.extractLsb' 10 1 := by
  simp (disch := decide) only [fld_encB, BitVec.extractLsb'_append_eq_of_le]
  exact BitVec.extractLsb'_append_eq_right

@[simp] theorem fld_encB_8_4 : fld (encB off rs2 rs1 f3 op) 8 4 = off.extractLsb' 0 4 := by
  simp (disch := decide) only [fld_encB, BitVec.extractLsb'_append_eq_of_le]
  exact BitVec.extractLsb'_append_eq_right

@[simp] theorem fF3_encB : fF3 (encB off rs2 rs1 f3 op) = f3 := by
  simp (disch := decide) only [fF3, fld_encB, BitVec.extractLsb'_append_eq_of_le]
  exact BitVec.extractLsb'_append_eq_right

@[simp] theorem fRs1_encB : fRs1 (encB off rs2 rs1 f3 op) = rs1 := by
  simp (disch := decide) only [fRs1, fld_encB, BitVec.extractLsb'_append_eq_of_le]
  exact BitVec.extractLsb'_append_eq_right

@[simp] theorem fRs2_encB : fRs2 (encB off rs2 rs1 f3 op) = rs2 := by
  simp (disch := decide) only [fRs2, fld_encB, BitVec.extractLsb'_append_eq_of_le]
  exact BitVec.extractLsb'_append_eq_right

@[simp] theorem fld_encB_25_6 : fld (encB off rs2 rs1 f3 op) 25 6 = off.extractLsb' 4 6 := by
  simp (disch := decide) only [fld_encB, BitVec.extractLsb'_append_eq_of_le]
  exact BitVec.extractLsb'_append_eq_right

@[simp] theorem fld_encB_31_1 : fld (encB off rs2 rs1 f3 op) 31 1 = off.extractLsb' 11 1 := by
  simp (disch := decide) only [fld_encB, BitVec.extractLsb'_append_eq_of_le]
  exact BitVec.extractLsb'_eq_self

end FieldsB

section FieldsU

variable (imm : BitVec 20) (rd : BitVec 5) (op : BitVec 7)

/-- The same bits, in the width that the fields add up to. -/
theorem fld_encU (lo n : Nat) : fld (encU imm rd op) lo n =
    BitVec.extractLsb' lo n (imm ++ rd ++ op) := rfl

@[simp] theorem fld_encU_opcode : fld (encU imm rd op) 0 7 = op := by
  rw [fld_encU, BitVec.extractLsb'_append_eq_right]

@[simp] theorem fRd_encU : fRd (encU imm rd op) = rd := by
  simp (disch := decide) only [fRd, fld_encU, BitVec.extractLsb'_append_eq_of_le]
  exact BitVec.extractLsb'_append_eq_right

@[simp] theorem fld_encU_12_20 : fld (encU imm rd op) 12 20 = imm := by
  simp (disch := decide) only [fld_encU, BitVec.extractLsb'_append_eq_of_le]
  exact BitVec.extractLsb'_eq_self

end FieldsU

section FieldsJ

variable (off : BitVec 20) (rd : BitVec 5) (op : BitVec 7)

/-- The same bits, in the width that the fields add up to. -/
theorem fld_encJ (lo n : Nat) : fld (encJ off rd op) lo n =
    BitVec.extractLsb' lo n (off.extractLsb' 19 1 ++ off.extractLsb' 0 10 ++ off.extractLsb' 10 1 ++ off.extractLsb' 11 8 ++ rd ++ op) := rfl

@[simp] theorem fld_encJ_opcode : fld (encJ off rd op) 0 7 = op := by
  rw [fld_encJ, BitVec.extractLsb'_append_eq_right]

@[simp] theorem fRd_encJ : fRd (encJ off rd op) = rd := by
  simp (disch := decide) only [fRd, fld_encJ, BitVec.extractLsb'_append_eq_of_le]
  exact BitVec.extractLsb'_append_eq_right

@[simp] theorem fld_encJ_12_8 : fld (encJ off rd op) 12 8 = off.extractLsb' 11 8 := by
  simp (disch := decide) only [fld_encJ, BitVec.extractLsb'_append_eq_of_le]
  exact BitVec.extractLsb'_append_eq_right

@[simp] theorem fld_encJ_20_1 : fld (encJ off rd op) 20 1 = off.extractLsb' 10 1 := by
  simp (disch := decide) only [fld_encJ, BitVec.extractLsb'_append_eq_of_le]
  exact BitVec.extractLsb'_append_eq_right

@[simp] theorem fld_encJ_21_10 : fld (encJ off rd op) 21 10 = off.extractLsb' 0 10 := by
  simp (disch := decide) only [fld_encJ, BitVec.extractLsb'_append_eq_of_le]
  exact BitVec.extractLsb'_append_eq_right

@[simp] theorem fld_encJ_31_1 : fld (encJ off rd op) 31 1 = off.extractLsb' 19 1 := by
  simp (disch := decide) only [fld_encJ, BitVec.extractLsb'_append_eq_of_le]
  exact BitVec.extractLsb'_eq_self

end FieldsJ

section FieldsA

variable (f : BitVec 4) (o : BitVec 3) (dbl : Bool) (rs2 : BitVec 4) (rs1 : BitVec 5) (sc : BitVec 3) (rd : BitVec 5)

/-- The same bits, in the width that the fields add up to. -/
theorem fld_encA (lo n : Nat) : fld (encA f o dbl rs2 rs1 sc rd) lo n =
    BitVec.extractLsb' lo n (f ++ o ++ flagBit dbl ++ rs2 ++ rs1 ++ sc ++ rd ++ opCustom1) := rfl

@[simp] theorem fld_encA_opcode : fld (encA f o dbl rs2 rs1 sc rd) 0 7 = opCustom1 := by
  rw [fld_encA, BitVec.extractLsb'_append_eq_right]

@[simp] theorem fRd_encA : fRd (encA f o dbl rs2 rs1 sc rd) = rd := by
  simp (disch := decide) only [fRd, fld_encA, BitVec.extractLsb'_append_eq_of_le]
  exact BitVec.extractLsb'_append_eq_right

@[simp] theorem fF3_encA : fF3 (encA f o dbl rs2 rs1 sc rd) = sc := by
  simp (disch := decide) only [fF3, fld_encA, BitVec.extractLsb'_append_eq_of_le]
  exact BitVec.extractLsb'_append_eq_right

@[simp] theorem fRs1_encA : fRs1 (encA f o dbl rs2 rs1 sc rd) = rs1 := by
  simp (disch := decide) only [fRs1, fld_encA, BitVec.extractLsb'_append_eq_of_le]
  exact BitVec.extractLsb'_append_eq_right

@[simp] theorem fld_encA_20_4 : fld (encA f o dbl rs2 rs1 sc rd) 20 4 = rs2 := by
  simp (disch := decide) only [fld_encA, BitVec.extractLsb'_append_eq_of_le]
  exact BitVec.extractLsb'_append_eq_right

@[simp] theorem fld_encA_24_1 : fld (encA f o dbl rs2 rs1 sc rd) 24 1 = flagBit dbl := by
  simp (disch := decide) only [fld_encA, BitVec.extractLsb'_append_eq_of_le]
  exact BitVec.extractLsb'_append_eq_right

@[simp] theorem fld_encA_25_3 : fld (encA f o dbl rs2 rs1 sc rd) 25 3 = o := by
  simp (disch := decide) only [fld_encA, BitVec.extractLsb'_append_eq_of_le]
  exact BitVec.extractLsb'_append_eq_right

@[simp] theorem fld_encA_28_4 : fld (encA f o dbl rs2 rs1 sc rd) 28 4 = f := by
  simp (disch := decide) only [fld_encA, BitVec.extractLsb'_append_eq_of_le]
  exact BitVec.extractLsb'_eq_self

end FieldsA

/-! ### Fields within fields, and fields that are put together again -/

/-- A part of a field is a field of the word. -/
theorem fld_eq_extract_fld (w : BitVec 32) {lo n a m : Nat} (ha : a ≤ lo) (hm : lo + n ≤ a + m) :
    fld w lo n = (fld w a m).extractLsb' (lo - a) n := by
  unfold fld
  refine BitVec.eq_of_getLsbD_eq fun i hi => ?_
  simp only [BitVec.getLsbD_extractLsb', hi, decide_true, Bool.true_and, show lo - a + i < m by omega,
    show a + (lo - a + i) = lo + i by omega]

/-- Neighbouring parts of a field make up one part. -/
theorem extract_append_extract {k : Nat} (x : BitVec k) {a m n : Nat} :
    x.extractLsb' (a + n) m ++ x.extractLsb' a n = x.extractLsb' a (m + n) := by
  refine BitVec.eq_of_getLsbD_eq fun i hi => ?_
  simp only [BitVec.getLsbD_append, BitVec.getLsbD_extractLsb']
  by_cases h : i < n
  · simp [h, hi]
  · simp [h, hi, show i - n < m by omega, show a + n + (i - n) = a + i by omega]

@[simp] theorem fImmS_encS (imm : BitVec 12) (rs2 rs1 : BitVec 5) (f3 : BitVec 3) (op : BitVec 7) :
    fImmS (encS imm rs2 rs1 f3 op) = imm := by
  have h7 := fF7_encS imm rs2 rs1 f3 op
  have h5 := fRd_encS imm rs2 rs1 f3 op
  unfold fF7 at h7
  unfold fRd at h5
  rw [fImmS, h7, h5]
  exact (extract_append_extract imm (a := 0) (n := 5) (m := 7)).trans BitVec.extractLsb'_eq_self

@[simp] theorem fOffB_encB (off : BitVec 12) (rs2 rs1 : BitVec 5) (f3 : BitVec 3) (op : BitVec 7) :
    fOffB (encB off rs2 rs1 f3 op) = off := by
  rw [fOffB, fld_encB_31_1, fld_encB_7_1, fld_encB_25_6, fld_encB_8_4]
  rw [extract_append_extract off (a := 10) (n := 1) (m := 1)]
  rw [extract_append_extract off (a := 4) (n := 6) (m := 2)]
  exact (extract_append_extract off (a := 0) (n := 4) (m := 8)).trans BitVec.extractLsb'_eq_self

@[simp] theorem fOffJ_encJ (off : BitVec 20) (rd : BitVec 5) (op : BitVec 7) : fOffJ (encJ off rd op) = off := by
  rw [fOffJ, fld_encJ_31_1, fld_encJ_12_8, fld_encJ_20_1, fld_encJ_21_10]
  rw [extract_append_extract off (a := 11) (n := 8) (m := 1)]
  rw [extract_append_extract off (a := 10) (n := 1) (m := 9)]
  exact (extract_append_extract off (a := 0) (n := 10) (m := 10)).trans BitVec.extractLsb'_eq_self

@[simp] theorem flagBit_beq_one (b : Bool) : (flagBit b == 1#1) = b := by cases b <;> rfl

@[simp] theorem Order.ofCode_code (o : Order) : Order.ofCode o.code = some o := by cases o <;> rfl

@[simp] theorem Scope.ofCode_code (c : Scope) : Scope.ofCode c.code = some c := by cases c <;> rfl

@[simp] theorem fVar_encV (f6 : BitVec 6) (et : BitVec 3) (vs2 vs1 : BitVec 4) (var : BitVec 3) (vd : BitVec 4) (pm : Bool) :
    fVar (encV f6 et vs2 vs1 var vd pm) = var := by
  simp (disch := decide) only [fVar, fld_encV, BitVec.extractLsb'_append_eq_of_le]
  exact BitVec.extractLsb'_append_eq_right

@[simp] theorem fEt_encV (f6 : BitVec 6) (et : EType) (vs2 vs1 : BitVec 4) (var : BitVec 3) (vd : BitVec 4) (pm : Bool) :
    fEt (encV f6 et.code vs2 vs1 var vd pm) = et := by
  rw [fEt, fld_encV_etype, EType.ofCode_code]

@[simp] theorem flag_encV_masked (f6 : BitVec 6) (et : BitVec 3) (vs2 vs1 : BitVec 4) (var : BitVec 3) (vd : BitVec 4) (pm : Bool) :
    flag (encV f6 et vs2 vs1 var vd pm) 7 = pm := by
  have h : fld (encV f6 et vs2 vs1 var vd pm) 7 1 = flagBit pm := by
    simp (disch := decide) only [fld_encV, BitVec.extractLsb'_append_eq_of_le]
    exact BitVec.extractLsb'_append_eq_right
  rw [flag, h, flagBit_beq_one]

/-! ### Fields that are narrower than their place -/

@[simp] theorem extract_cap (c : BitVec 2) : (0#3 ++ c : BitVec 5).extractLsb' 0 2 = c := BitVec.extractLsb'_append_eq_right
@[simp] theorem extract_mask (m : BitVec 2) : (0#2 ++ m : BitVec 4).extractLsb' 0 2 = m := BitVec.extractLsb'_append_eq_right
@[simp] theorem extract_stream (st : BitVec 2) : (3#2 ++ st : BitVec 4).extractLsb' 0 2 = st := BitVec.extractLsb'_append_eq_right
@[simp] theorem extract_code (c : BitVec 3) : (0#2 ++ c : BitVec 5).extractLsb' 0 3 = c := BitVec.extractLsb'_append_eq_right
@[simp] theorem extract_shift6 (a b : BitVec 6) : (a ++ b : BitVec 12).extractLsb' 0 6 = b := BitVec.extractLsb'_append_eq_right
@[simp] theorem extract_funct6 (a b : BitVec 6) : (a ++ b : BitVec 12).extractLsb' 6 6 = a := BitVec.extractLsb'_append_eq_left
@[simp] theorem extract_shift5 (a : BitVec 7) (b : BitVec 5) : (a ++ b : BitVec 12).extractLsb' 0 5 = b :=
  BitVec.extractLsb'_append_eq_right
@[simp] theorem extract_funct7 (a : BitVec 7) (b : BitVec 5) : (a ++ b : BitVec 12).extractLsb' 5 7 = a :=
  BitVec.extractLsb'_append_eq_left
@[simp] theorem extract_acc (a : BitVec 3) : (0#4 ++ a : BitVec 7).extractLsb' 0 3 = a := BitVec.extractLsb'_append_eq_right

/-! ### The candidate of an encoded instruction -/

theorem fld_20_6 (w : BitVec 32) : fld w 20 6 = (fImmI w).extractLsb' 0 6 :=
  fld_eq_extract_fld w (by decide) (by decide)

theorem fld_26_6 (w : BitVec 32) : fld w 26 6 = (fImmI w).extractLsb' 6 6 :=
  fld_eq_extract_fld w (by decide) (by decide)

theorem fF7_eq_extract_fImmI (w : BitVec 32) : fF7 w = (fImmI w).extractLsb' 5 7 :=
  fld_eq_extract_fld w (by decide) (by decide)

theorem fld_20_5_eq_extract_fImmI (w : BitVec 32) : fld w 20 5 = (fImmI w).extractLsb' 0 5 :=
  fld_eq_extract_fld w (by decide) (by decide)

theorem fld_20_3 (w : BitVec 32) : fld w 20 3 = (fRs2 w).extractLsb' 0 3 :=
  fld_eq_extract_fld w (by decide) (by decide)

theorem fld_20_2 (w : BitVec 32) : fld w 20 2 = (fRs2 w).extractLsb' 0 2 :=
  fld_eq_extract_fld w (by decide) (by decide)

theorem fld_15_3 (w : BitVec 32) : fld w 15 3 = (fRs1 w).extractLsb' 0 3 :=
  fld_eq_extract_fld w (by decide) (by decide)

theorem fld_15_1 (w : BitVec 32) : fld w 15 1 = (fRs1 w).extractLsb' 0 1 :=
  fld_eq_extract_fld w (by decide) (by decide)

theorem fld_7_2 (w : BitVec 32) : fld w 7 2 = (fRd w).extractLsb' 0 2 :=
  fld_eq_extract_fld w (by decide) (by decide)

theorem fld_25_3 (w : BitVec 32) : fld w 25 3 = (fF7 w).extractLsb' 0 3 :=
  fld_eq_extract_fld w (by decide) (by decide)

theorem flag_funct7 (w : BitVec 32) {b : Nat} (h : 25 ≤ b) (hb : b < 32) : flag w b = (fF7 w).getLsbD (b - 25) := by
  rw [flag, fld_eq_extract_fld w (a := 25) (m := 7) h (by omega), ← fF7]
  generalize fF7 w = x
  rw [BitVec.getLsbD_eq_extractLsb']

theorem fld_8_2 (w : BitVec 32) : fld w 8 2 = (fVd w).extractLsb' 0 2 :=
  fld_eq_extract_fld w (by decide) (by decide)

theorem fld_19_2 (w : BitVec 32) : fld w 19 2 = (fVs2 w).extractLsb' 0 2 :=
  fld_eq_extract_fld w (by decide) (by decide)

theorem fld_15_2 (w : BitVec 32) : fld w 15 2 = (fVs1 w).extractLsb' 0 2 :=
  fld_eq_extract_fld w (by decide) (by decide)

theorem flag_funct3 (w : BitVec 32) {b : Nat} (h : 12 ≤ b) (hb : b < 15) : flag w b = (fVar w).getLsbD (b - 12) := by
  rw [flag, fld_eq_extract_fld w (a := 12) (m := 3) h (by omega), ← fVar]
  generalize fVar w = x
  rw [BitVec.getLsbD_eq_extractLsb']


section Spelled

-- One proof after the other: run side by side they would all wait for the equations of `encode`, each on a stack of its own.
set_option Elab.async false

/-- The word of an instruction spells it: its candidate is the instruction. -/
def Spelled (i : Instr) : Prop := candidate (encode i) = some i

theorem spelled_load (rd rs1 : Reg) (imm : BitVec 12) : ∀ i ∈ [Instr.lb rd rs1 imm, .lh rd rs1 imm, .lw rd rs1 imm, .ld rd rs1 imm,
    .lbu rd rs1 imm, .lhu rd rs1 imm, .lwu rd rs1 imm], Spelled i := by
  intro i hi
  fin_cases hi <;> simp [Spelled, encode, candidate, opLoad, candLoad]

theorem spelled_store (rs2 rs1 : Reg) (imm : BitVec 12) : ∀ i ∈ [Instr.sb rs2 rs1 imm, .sh rs2 rs1 imm, .sw rs2 rs1 imm,
    .sd rs2 rs1 imm], Spelled i := by
  intro i hi
  fin_cases hi <;> simp [Spelled, encode, candidate, opStore, candStore]

theorem spelled_branch (rs1 rs2 : Reg) (off : BitVec 12) : ∀ i ∈ [Instr.beq rs1 rs2 off, .bne rs1 rs2 off, .blt rs1 rs2 off,
    .bge rs1 rs2 off, .bltu rs1 rs2 off, .bgeu rs1 rs2 off], Spelled i := by
  intro i hi
  fin_cases hi <;> simp [Spelled, encode, candidate, opBranch, candBranch]

theorem spelled_jump (rd rs1 : Reg) (imm : BitVec 12) (off : BitVec 20) : ∀ i ∈ [Instr.jal rd off, .jalr rd rs1 imm, .lui rd off,
    .auipc rd off], Spelled i := by
  intro i hi
  fin_cases hi <;> simp [Spelled, encode, candidate, opJal, opJalr, candJalr, opLui, opAuipc]

theorem spelled_imm (rd rs1 : Reg) (imm : BitVec 12) : ∀ i ∈ [Instr.addi rd rs1 imm, .slti rd rs1 imm, .sltiu rd rs1 imm,
    .xori rd rs1 imm, .ori rd rs1 imm, .andi rd rs1 imm, .addiw rd rs1 imm], Spelled i := by
  intro i hi
  fin_cases hi <;> simp [Spelled, encode, candidate, opImm, candImm, opImm32, candImm32]

theorem spelled_shift (rd rs1 : Reg) (sh : BitVec 6) : ∀ i ∈ [Instr.slli rd rs1 sh, .srli rd rs1 sh, .srai rd rs1 sh],
    Spelled i := by
  intro i hi
  fin_cases hi <;> simp [Spelled, encode, candidate, opImm, candImm, fld_20_6, fld_26_6, -BitVec.extractLsb'_toNat]

theorem spelled_shiftWord (rd rs1 : Reg) (sh : BitVec 5) : ∀ i ∈ [Instr.slliw rd rs1 sh, .srliw rd rs1 sh, .sraiw rd rs1 sh],
    Spelled i := by
  intro i hi
  fin_cases hi <;> simp [Spelled, encode, candidate, opImm32, candImm32, fF7_eq_extract_fImmI, fld_20_5_eq_extract_fImmI,
    -BitVec.extractLsb'_toNat]

theorem spelled_reg (rd rs1 rs2 : Reg) : ∀ i ∈ [Instr.add rd rs1 rs2, .sub rd rs1 rs2, .sll rd rs1 rs2, .slt rd rs1 rs2,
    .sltu rd rs1 rs2, .xor rd rs1 rs2, .srl rd rs1 rs2, .sra rd rs1 rs2, .or rd rs1 rs2, .and rd rs1 rs2, .mul rd rs1 rs2,
    .mulh rd rs1 rs2, .mulhsu rd rs1 rs2, .mulhu rd rs1 rs2, .div rd rs1 rs2, .divu rd rs1 rs2, .rem rd rs1 rs2,
    .remu rd rs1 rs2], Spelled i := by
  intro i hi
  fin_cases hi <;> simp [Spelled, encode, candidate, opReg, candReg]

theorem spelled_regWord (rd rs1 rs2 : Reg) : ∀ i ∈ [Instr.addw rd rs1 rs2, .subw rd rs1 rs2, .sllw rd rs1 rs2, .srlw rd rs1 rs2,
    .sraw rd rs1 rs2, .mulw rd rs1 rs2, .divw rd rs1 rs2, .divuw rd rs1 rs2, .remw rd rs1 rs2, .remuw rd rs1 rs2],
    Spelled i := by
  intro i hi
  fin_cases hi <;> simp [Spelled, encode, candidate, opReg32, candReg32]

theorem spelled_system (rd rs1 : Reg) (csr : BitVec 12) : ∀ i ∈ [Instr.ecall, .ebreak, .mret, .csrrw rd csr rs1, .csrrs rd csr rs1,
    .csrrc rd csr rs1, .csrrwi rd csr rs1, .csrrsi rd csr rs1, .csrrci rd csr rs1], Spelled i := by
  intro i hi
  fin_cases hi <;> simp [Spelled, encode, candidate, opSystem, candSystem]

theorem spelled_count (rd rs1 rs2 : Reg) : ∀ i ∈ [Instr.min rd rs1 rs2, .max rd rs1 rs2, .minu rd rs1 rs2, .maxu rd rs1 rs2,
    .clz rd rs1, .ctz rd rs1, .cpop rd rs1], Spelled i := by
  intro i hi
  fin_cases hi <;> simp [Spelled, encode, candidate, opCustom0, candCustom0]

theorem spelled_bitField (rd rs1 : Reg) (off width : BitVec 6) : ∀ i ∈ [Instr.bfx rd rs1 off width, .bfxu rd rs1 off width,
    .bfi rd rs1 off width], Spelled i := by
  intro i hi
  fin_cases hi <;> simp [Spelled, encode, candidate, opCustom0, candCustom0, fld_20_6, fld_26_6]

theorem spelled_loop (rs1 : Reg) (count : BitVec 10) (last : BitVec 12) : ∀ i ∈ [Instr.loop rs1 last, .loopi count last],
    Spelled i := by
  have h : (count.extractLsb' 5 5 ++ count.extractLsb' 0 5 : BitVec 10) = count :=
    (extract_append_extract count (a := 0) (n := 5) (m := 5)).trans BitVec.extractLsb'_eq_self
  intro i hi
  fin_cases hi <;> simp [Spelled, encode, candidate, opCustom0, candCustom0, h]

theorem spelled_message (rd rs1 rs2 : Reg) : ∀ i ∈ [Instr.send rs1, .sendG rs1, .sendS rs1, .sendGs rs1, .sendc rs1 rs2, .commit, .abort,
    .spawn rd rs1 rs2, .joindec rd rs1, .launch rs1, .done, .bar rs1, .waitgen rd rs2 rs1, .tlbinv rs1 rs2, .chkpt rd rs1,
    .selfreportScan rs1 rs2], Spelled i := by
  intro i hi
  fin_cases hi <;> simp [Spelled, encode, candidate, opCustom0, candCustom0]

theorem spelled_sync (o : Order) (c : Scope) : Spelled (.sync o c) := by
  simp [Spelled, encode, candidate, opCustom0, candCustom0, fld_20_3, fld_15_3]

theorem spelled_capability (rd rs1 : Reg) (cap : BitVec 2) : ∀ i ∈ [Instr.handover rs1 cap, .captest rd cap, .captestId rd cap,
    .capdrop cap], Spelled i := by
  intro i hi
  fin_cases hi <;> simp [Spelled, encode, candidate, opCustom0, candCustom0, fld_20_2, fld_15_1]

theorem candidate_encA (f : BitVec 4) (o : BitVec 3) (dbl : Bool) (rs2 : BitVec 4) (rs1 : BitVec 5) (c : Scope) (rd : BitVec 5) :
    candidate (encA f o dbl rs2 rs1 c.code rd) = candAmo (encA f o dbl rs2 rs1 c.code rd) := by
  cases c <;> simp [candidate, opCustom1, candCustom1, Scope.code]

theorem spelled_amo (o : Order) (c : Scope) (dbl : Bool) (rd rs1 : Reg) (rs2 : BitVec 4) : ∀ i ∈ [Instr.amoadd o c dbl rd rs2 rs1,
    .amoand o c dbl rd rs2 rs1, .amoor o c dbl rd rs2 rs1, .amoxor o c dbl rd rs2 rs1, .amomin o c dbl rd rs2 rs1,
    .amomax o c dbl rd rs2 rs1, .amominu o c dbl rd rs2 rs1, .amomaxu o c dbl rd rs2 rs1, .amoswap o c dbl rd rs2 rs1,
    .amocas o c dbl rd rs2 rs1, .amofadd o c dbl rd rs2 rs1], Spelled i := by
  intro i hi
  fin_cases hi <;> simp [Spelled, encode, candidate_encA, candAmo]

theorem spelled_queue (rd rs1 rs2 : Reg) : ∀ i ∈ [Instr.ldf rd rs1, .ldfe rd rs1, .stf rs2 rs1, .eqpush rs2 rs1, .eqfire rs1,
    .eqdone rs1 rs2, .eqstat rd rs1, .rdblk rd rs1, .wrblk rd rs1, .wrblkDep rd rs1, .copy rd rs1, .cpwait rd rs1],
    Spelled i := by
  intro i hi
  fin_cases hi <;> simp [Spelled, encode, candidate, opCustom1, candCustom1]

/-- The flags and the accumulator that funct7 of a matrix instruction holds. -/
theorem matrix_funct7 (a b c d : Bool) (acc : BitVec 3) :
    let x : BitVec 7 := flagBit a ++ flagBit b ++ flagBit c ++ flagBit d ++ acc
    x.getLsbD 6 = a ∧ x.getLsbD 5 = b ∧ x.getLsbD 4 = c ∧ x.getLsbD 3 = d ∧ x.extractLsb' 0 3 = acc := by decide +revert

theorem spelled_matrix (st dc z : Bool) (rd : Reg) (cap : BitVec 2) (acc : BitVec 3) (rs1 rs2 : Reg) :
    ∀ i ∈ [Instr.mma st dc z rd acc rs1 rs2, .fmma st dc z rd acc rs1 rs2, .mcmd st dc z cap acc rs1 rs2], Spelled i := by
  obtain ⟨-, h5, h4, h3, hacc⟩ := matrix_funct7 false st dc z acc
  intro i hi
  fin_cases hi <;> simp (disch := decide) only [Spelled, encode, candidate, opCustom3, fld_encR_opcode] <;>
    simp (disch := decide) [candCustom3, fld_25_3, fld_7_2, flag_funct7] <;> exact ⟨h5, h4, h3, hacc⟩

theorem spelled_accumulator (rd : Reg) (acc : BitVec 3) (rs1 rs2 : Reg) : ∀ i ∈ [Instr.accrd rd acc rs1 rs2,
    .accwr rd acc rs1 rs2, .acczero rd acc, .mwait rd rs1], Spelled i := by
  intro i hi
  fin_cases hi <;> simp [Spelled, encode, candidate, opCustom3, candCustom3, fld_25_3]

theorem spelled_accspill (z : Bool) (rd : Reg) (acc : BitVec 3) (rs1 : Reg) : Spelled (.accspill z rd acc rs1) := by
  obtain ⟨h6, -, -, h3, hacc⟩ := matrix_funct7 false false false z acc
  have hfield : (0#3 ++ flagBit z ++ acc : BitVec 7) = flagBit false ++ flagBit false ++ flagBit false ++ flagBit z ++ acc := rfl
  simp [Spelled, encode, candidate, opCustom3, candCustom3, fld_25_3, flag_funct7, hfield, h6, h3, hacc,
    -BitVec.getLsbD_eq_getElem]

theorem spelled_accfill (rd : Reg) (acc : BitVec 3) (rs1 : Reg) : Spelled (.accfill rd acc rs1) := by
  obtain ⟨h6, -, -, -, hacc⟩ := matrix_funct7 true false false false acc
  have hfield : (8#4 ++ acc : BitVec 7) = flagBit true ++ flagBit false ++ flagBit false ++ flagBit false ++ acc := rfl
  simp [Spelled, encode, candidate, opCustom3, candCustom3, fld_25_3, flag_funct7, hfield, h6, hacc]

/-! The vector space: every row of funct6 alone, then the rows that share one. -/

theorem spelled_vectorMemory (et : EType) (vd xs xt : BitVec 4) (pm : Bool) : ∀ i ∈ [Instr.vld et vd xs pm, .vst et vd xs pm,
    .vlds et vd xs xt pm, .vsts et vd xs xt pm, .vgath et vd xs xt pm, .vscat et vd xs xt pm], Spelled i := by
  intro i hi
  fin_cases hi <;> simp [Spelled, encode, candidate_encV, candCustom2]

theorem spelled_vectorInt (et : EType) (vd vs2 vs1 : BitVec 4) (var : BitVec 3) (pm : Bool) : ∀ i ∈ [Instr.vadd et vd vs2 vs1 var pm,
    .vsub et vd vs2 vs1 var pm, .vmul et vd vs2 vs1 var pm, .vmulh et vd vs2 vs1 var pm, .vaddsat et vd vs2 vs1 var pm,
    .vsubsat et vd vs2 vs1 var pm, .vmin et vd vs2 vs1 var pm, .vmax et vd vs2 vs1 var pm, .vand et vd vs2 vs1 var pm,
    .vor et vd vs2 vs1 var pm, .vxor et vd vs2 vs1 var pm, .vsll et vd vs2 vs1 var pm, .vsrl et vd vs2 vs1 var pm,
    .vsra et vd vs2 vs1 var pm], Spelled i := by
  intro i hi
  fin_cases hi <;> simp [Spelled, encode, candidate_encV, candCustom2]

theorem spelled_vectorFloat (et : EType) (vd vs2 vs1 : BitVec 4) (rm : BitVec 3) (pm : Bool) : ∀ i ∈ [Instr.vfadd et vd vs2 vs1 rm pm,
    .vfsub et vd vs2 vs1 rm pm, .vfmul et vd vs2 vs1 rm pm, .vfma et vd vs2 vs1 rm pm, .vfnma et vd vs2 vs1 rm pm,
    .vminn et vd vs2 vs1 pm, .vmaxn et vd vs2 vs1 pm, .vexp2 et vd vs2 pm, .vlog2 et vd vs2 pm, .vrcp et vd vs2 pm,
    .vrsqrt et vd vs2 pm, .vtanh et vd vs2 pm, .vfabs et vd vs2 pm, .vfneg et vd vs2 pm, .vcvt et vs1 vd vs2 rm pm],
    Spelled i := by
  intro i hi
  fin_cases hi <;> simp [Spelled, encode, candidate_encV, candCustom2]

theorem spelled_vectorMove (et : EType) (vd vs2 vs1 : BitVec 4) (var : BitVec 3) (pm : Bool) : ∀ i ∈ [Instr.vsel et vd vs2 vs1,
    .vredsum et vd vs2 var pm, .vredmax et vd vs2 var pm, .vargmax et vd vs2 var pm, .vperm et vd vs2 vs1 pm,
    .vslideup et vd vs2 vs1 pm, .vslidedn et vd vs2 vs1 pm, .vzip et vd vs2 vs1 pm, .vbcast et vd vs1 pm], Spelled i := by
  intro i hi
  fin_cases hi <;> simp [Spelled, encode, candidate_encV, candCustom2]

theorem spelled_vectorCompare (et : EType) (md : BitVec 2) (vs2 vs1 : BitVec 4) (var : BitVec 3) (pm : Bool) :
    ∀ i ∈ [Instr.vcmpeq et md vs2 vs1 var pm, .vcmpne et md vs2 vs1 var pm, .vcmplt et md vs2 vs1 var pm,
      .vcmple et md vs2 vs1 var pm], Spelled i := by
  intro i hi
  fin_cases hi <;> simp [Spelled, encode, candidate_encV, candCustom2, fld_8_2]

theorem spelled_vectorMask (md ma mb : BitVec 2) (xs : BitVec 4) : ∀ i ∈ [Instr.vmaskAnd md ma mb, .vmaskOr md ma mb,
    .vmaskXor md ma mb, .vmaskAndn md ma mb, .vmaskNot md ma, .vmaskFromx md xs, .vmaskTox xs ma, .vmaskFirst md xs],
    Spelled i := by
  intro i hi
  fin_cases hi <;> simp [Spelled, encode, candidate_encV, candCustom2, fld_8_2, fld_15_2, fld_19_2]

theorem spelled_stream (st : BitVec 2) (xs : BitVec 4) : ∀ i ∈ [Instr.strcfg st xs, .strend st], Spelled i := by
  intro i hi
  fin_cases hi <;> simp [Spelled, encode, candidate_encV, candCustom2, fld_8_2]

/-- The variant bits that tell the rows of one funct6 apart (R353-R355). -/
theorem variant_bits (b : Bool) :
    (1#1 ++ flagBit b ++ 0#1 : BitVec 3)[2] = true ∧ (1#1 ++ flagBit b ++ 0#1 : BitVec 3)[1] = b ∧
      (flagBit b ++ 0#2 : BitVec 3)[2] = b := by decide +revert

theorem spelled_vectorVariant (et : EType) (vd vs2 vs1 : BitVec 4) (b pm : Bool) : ∀ i ∈ [Instr.vrand vd pm, .vrandLat vd vs1 pm,
    .vmvx et vd vs1 vs2, .vmvxGet et b vd vs2 vs1, .vunzip et b vd vs2 vs1 pm], Spelled i := by
  obtain ⟨h2, h1, hodd⟩ := variant_bits b
  intro i hi
  fin_cases hi <;> simp (disch := decide) [Spelled, encode, candidate_encV, candCustom2, flag_funct3, h2, h1, hodd]

end Spelled

/-! ### Every word -/

theorem spelled_of_wf {i : Instr} (hwf : i.wf = true) : Spelled i := by
  cases i
  case lb rd rs1 imm | lh rd rs1 imm | lw rd rs1 imm | ld rd rs1 imm | lbu rd rs1 imm | lhu rd rs1 imm | lwu rd rs1 imm =>
    exact spelled_load rd rs1 imm _ (by simp)
  case sb rs2 rs1 imm | sh rs2 rs1 imm | sw rs2 rs1 imm | sd rs2 rs1 imm => exact spelled_store rs2 rs1 imm _ (by simp)
  case beq rs1 rs2 off | bne rs1 rs2 off | blt rs1 rs2 off | bge rs1 rs2 off | bltu rs1 rs2 off | bgeu rs1 rs2 off =>
    exact spelled_branch rs1 rs2 off _ (by simp)
  case jal rd off | lui rd off | auipc rd off => exact spelled_jump rd 0 0 off _ (by simp)
  case jalr rd rs1 imm => exact spelled_jump rd rs1 imm 0 _ (by simp)
  case addi rd rs1 imm | slti rd rs1 imm | sltiu rd rs1 imm | xori rd rs1 imm | ori rd rs1 imm | andi rd rs1 imm |
      addiw rd rs1 imm => exact spelled_imm rd rs1 imm _ (by simp)
  case slli rd rs1 sh | srli rd rs1 sh | srai rd rs1 sh => exact spelled_shift rd rs1 sh _ (by simp)
  case slliw rd rs1 sh | srliw rd rs1 sh | sraiw rd rs1 sh => exact spelled_shiftWord rd rs1 sh _ (by simp)
  case add rd rs1 rs2 | sub rd rs1 rs2 | sll rd rs1 rs2 | slt rd rs1 rs2 | sltu rd rs1 rs2 | xor rd rs1 rs2 | srl rd rs1 rs2 |
      sra rd rs1 rs2 | or rd rs1 rs2 | and rd rs1 rs2 | mul rd rs1 rs2 | mulh rd rs1 rs2 | mulhsu rd rs1 rs2 |
      mulhu rd rs1 rs2 | div rd rs1 rs2 | divu rd rs1 rs2 | rem rd rs1 rs2 | remu rd rs1 rs2 =>
    exact spelled_reg rd rs1 rs2 _ (by simp)
  case addw rd rs1 rs2 | subw rd rs1 rs2 | sllw rd rs1 rs2 | srlw rd rs1 rs2 | sraw rd rs1 rs2 | mulw rd rs1 rs2 |
      divw rd rs1 rs2 | divuw rd rs1 rs2 | remw rd rs1 rs2 | remuw rd rs1 rs2 =>
    exact spelled_regWord rd rs1 rs2 _ (by simp)
  case ecall | ebreak | mret => exact spelled_system 0 0 0 _ (by simp)
  case csrrw rd csr rs1 | csrrs rd csr rs1 | csrrc rd csr rs1 | csrrwi rd csr rs1 | csrrsi rd csr rs1 | csrrci rd csr rs1 =>
    exact spelled_system rd rs1 csr _ (by simp)
  case min rd rs1 rs2 | max rd rs1 rs2 | minu rd rs1 rs2 | maxu rd rs1 rs2 => exact spelled_count rd rs1 rs2 _ (by simp)
  case clz rd rs1 | ctz rd rs1 | cpop rd rs1 => exact spelled_count rd rs1 0 _ (by simp)
  case bfx rd rs1 off width | bfxu rd rs1 off width | bfi rd rs1 off width => exact spelled_bitField rd rs1 off width _ (by simp)
  case loop rs1 last => exact spelled_loop rs1 0 last _ (by simp)
  case loopi count last => exact spelled_loop 0 count last _ (by simp)
  case send rs1 | sendG rs1 | sendS rs1 | sendGs rs1 | launch rs1 | bar rs1 => exact spelled_message 0 rs1 0 _ (by simp)
  case sendc rs1 rs2 | tlbinv rs1 rs2 | selfreportScan rs1 rs2 => exact spelled_message 0 rs1 rs2 _ (by simp)
  case commit | abort | done => exact spelled_message 0 0 0 _ (by simp)
  case spawn rd rs1 rs2 | waitgen rd rs2 rs1 => exact spelled_message rd rs1 rs2 _ (by simp)
  case joindec rd rs1 | chkpt rd rs1 => exact spelled_message rd rs1 0 _ (by simp)
  case sync o c => exact spelled_sync o c
  case handover rs1 cap => exact spelled_capability 0 rs1 cap _ (by simp)
  case captest rd cap | captestId rd cap => exact spelled_capability rd 0 cap _ (by simp)
  case capdrop cap => exact spelled_capability 0 0 cap _ (by simp)
  case amoadd o c dbl rd rs2 rs1 | amoand o c dbl rd rs2 rs1 | amoor o c dbl rd rs2 rs1 | amoxor o c dbl rd rs2 rs1 |
      amomin o c dbl rd rs2 rs1 | amomax o c dbl rd rs2 rs1 | amominu o c dbl rd rs2 rs1 | amomaxu o c dbl rd rs2 rs1 |
      amoswap o c dbl rd rs2 rs1 | amocas o c dbl rd rs2 rs1 | amofadd o c dbl rd rs2 rs1 =>
    exact spelled_amo o c dbl rd rs1 rs2 _ (by simp)
  case ldf rd rs1 | ldfe rd rs1 | eqstat rd rs1 | rdblk rd rs1 | wrblk rd rs1 | wrblkDep rd rs1 | copy rd rs1 | cpwait rd rs1 =>
    exact spelled_queue rd rs1 0 _ (by simp)
  case stf rs2 rs1 | eqpush rs2 rs1 | eqdone rs1 rs2 => exact spelled_queue 0 rs1 rs2 _ (by simp)
  case eqfire rs1 => exact spelled_queue 0 rs1 0 _ (by simp)
  case mma st dc z rd acc rs1 rs2 | fmma st dc z rd acc rs1 rs2 => exact spelled_matrix st dc z rd 0 acc rs1 rs2 _ (by simp)
  case mcmd st dc z cap acc rs1 rs2 => exact spelled_matrix st dc z 0 cap acc rs1 rs2 _ (by simp)
  case accrd rd acc rs1 rs2 | accwr rd acc rs1 rs2 => exact spelled_accumulator rd acc rs1 rs2 _ (by simp)
  case acczero rd acc => exact spelled_accumulator rd acc 0 0 _ (by simp)
  case mwait rd rs1 => exact spelled_accumulator rd 0 rs1 0 _ (by simp)
  case accspill z rd acc rs1 => exact spelled_accspill z rd acc rs1
  case accfill rd acc rs1 => exact spelled_accfill rd acc rs1
  case vld et vd xs pm | vst et vd xs pm => exact spelled_vectorMemory et vd xs 0 pm _ (by simp)
  case vlds et vd xs xt pm | vsts et vd xs xt pm | vgath et vd xs xt pm | vscat et vd xs xt pm =>
    exact spelled_vectorMemory et vd xs xt pm _ (by simp)
  case strcfg st xs => exact spelled_stream st xs _ (by simp)
  case strend st => exact spelled_stream st 0 _ (by simp)
  case vadd et vd vs2 vs1 var pm | vsub et vd vs2 vs1 var pm | vmul et vd vs2 vs1 var pm | vmulh et vd vs2 vs1 var pm |
      vaddsat et vd vs2 vs1 var pm | vsubsat et vd vs2 vs1 var pm | vmin et vd vs2 vs1 var pm | vmax et vd vs2 vs1 var pm |
      vand et vd vs2 vs1 var pm | vor et vd vs2 vs1 var pm | vxor et vd vs2 vs1 var pm | vsll et vd vs2 vs1 var pm |
      vsrl et vd vs2 vs1 var pm | vsra et vd vs2 vs1 var pm =>
    exact spelled_vectorInt et vd vs2 vs1 var pm _ (by simp)
  case vfadd et vd vs2 vs1 rm pm | vfsub et vd vs2 vs1 rm pm | vfmul et vd vs2 vs1 rm pm | vfma et vd vs2 vs1 rm pm |
      vfnma et vd vs2 vs1 rm pm | vcvt et vs1 vd vs2 rm pm =>
    exact spelled_vectorFloat et vd vs2 vs1 rm pm _ (by simp)
  case vminn et vd vs2 vs1 pm | vmaxn et vd vs2 vs1 pm => exact spelled_vectorFloat et vd vs2 vs1 0 pm _ (by simp)
  case vexp2 et vd vs2 pm | vlog2 et vd vs2 pm | vrcp et vd vs2 pm | vrsqrt et vd vs2 pm | vtanh et vd vs2 pm |
      vfabs et vd vs2 pm | vfneg et vd vs2 pm => exact spelled_vectorFloat et vd vs2 0 0 pm _ (by simp)
  case vcmpeq et md vs2 vs1 var pm | vcmpne et md vs2 vs1 var pm | vcmplt et md vs2 vs1 var pm | vcmple et md vs2 vs1 var pm =>
    exact spelled_vectorCompare et md vs2 vs1 var pm _ (by simp)
  case vsel et vd vs2 vs1 => exact spelled_vectorMove et vd vs2 vs1 0 false _ (by simp)
  case vredsum et vd vs2 var pm | vredmax et vd vs2 var pm | vargmax et vd vs2 var pm =>
    exact spelled_vectorMove et vd vs2 0 var pm _ (by simp)
  case vperm et vd vs2 vs1 pm | vslideup et vd vs2 vs1 pm | vslidedn et vd vs2 vs1 pm | vzip et vd vs2 vs1 pm =>
    exact spelled_vectorMove et vd vs2 vs1 0 pm _ (by simp)
  case vbcast et vd vs1 pm => exact spelled_vectorMove et vd 0 vs1 0 pm _ (by simp)
  case vmaskAnd md ma mb | vmaskOr md ma mb | vmaskXor md ma mb | vmaskAndn md ma mb => exact spelled_vectorMask md ma mb 0 _ (by simp)
  case vmaskNot md ma => exact spelled_vectorMask md ma 0 0 _ (by simp)
  case vmaskFromx md xs | vmaskFirst md xs => exact spelled_vectorMask md 0 0 xs _ (by simp)
  case vmaskTox xs ma => exact spelled_vectorMask 0 ma 0 xs _ (by simp)
  case vrand vd pm => exact spelled_vectorVariant .i32 vd 0 0 false pm _ (by simp)
  case vrandLat vd vs1 pm => exact spelled_vectorVariant .i32 vd 0 vs1 false pm _ (by simp)
  case vmvx et vd vs1 vs2 => exact spelled_vectorVariant et vd vs2 vs1 false false _ (by simp)
  case vmvxGet et b vd vs2 vs1 => exact spelled_vectorVariant et vd vs2 vs1 b false _ (by simp)
  case vunzip et b vd vs2 vs1 pm => exact spelled_vectorVariant et vd vs2 vs1 b pm _ (by simp)
  all_goals exact absurd hwf Bool.false_ne_true

/-- Every major opcode that has instructions ends in 0b11 (R268, R274). -/
theorem lowBits_of_candidate {w : BitVec 32} {i : Instr} (h : candidate w = some i) : fld w 0 2 = 3#2 := by
  have hlow : fld w 0 2 = (fld w 0 7).extractLsb' 0 2 := fld_eq_extract_fld w (by decide) (by decide)
  have hop : (fld w 0 7).toNat % 4 = 3 := by
    unfold candidate at h
    split at h
    case h_17 => cases h
    all_goals
      next hk => rw [hk]
  rw [hlow]
  exact BitVec.eq_of_toNat_eq (by simpa using hop)

/-- Settles O54: the fields of every format are read back, so a word spells the instruction it was made from; the decoder's own check
gives the converse. -/
theorem decodeEncode : Obligations.DecodeEncode := by
  refine ⟨fun i hwf => ?_, fun w i h => ?_⟩
  · exact decodeWord_eq_ok_iff.mpr ⟨lowBits_of_candidate (spelled_of_wf hwf), spelled_of_wf hwf, hwf, rfl⟩
  · obtain ⟨-, -, hwf, henc⟩ := decodeWord_eq_ok_iff.mp h
    exact ⟨hwf, henc⟩

end Sys2Proof
end

section
/-!
PROOFS. Scalar computation (spec/15_scalar.md R297-R305): the results of the register, immediate and W forms, of products and
quotients, of MIN, MAX and the counts, and of the bit fields.
-/

namespace Sys2Proof.Machine

/-! ### Writing the current thread twice, and retiring without a change -/

theorem SMap.put_put {α : Type} (l : List (Nat × α)) (i : Nat) (a b : α) : SMap.put (SMap.put l i a) i b = SMap.put l i b := by
  induction l with
  | nil => simp [SMap.put]
  | cons c t ih =>
    obtain ⟨k, w⟩ := c
    by_cases h1 : i < k
    · simp [SMap.put, h1]
    · by_cases h2 : i = k
      · simp [SMap.put, h2]
      · simp [SMap.put, h1, h2, ih]

theorem State.setMe_setMe (s : State) (m m' : Thread) : (s.setMe m).setMe m' = s.setMe m' := by
  simp only [State.setMe, State.setThread, SMap.put_put]

/-- Writing the current thread as it is does not change how it retires. -/
theorem State.retireTo_setMe_me (s : State) (w : Word) (j : Bool) : (s.setMe s.me).retireTo w j = s.retireTo w j := by
  unfold State.retireTo
  simp only [State.me_setMe, State.setMe_setMe, State.setMe_cur, State.partOfHart_setMe s s.me rfl]
  rfl

theorem State.retire_retired_self (s : State) : Retired s s.retire s.me := by
  have h := State.retire_retired s s.me rfl rfl rfl rfl rfl rfl rfl rfl rfl
  rwa [State.retire, State.me_setMe, State.retireTo_setMe_me] at h

/-! ### Word arithmetic in natural numbers and integers -/

/-- A meaning that writes a value to a register gives every value equal to it. -/
theorem Gives.of_eq {i : Instr} {s : State} {rd : Reg} {v u : Word} (h : exec i s = writeReg s rd u) (e : u = v) :
    Gives i s rd v := e ▸ Gives.of_writeReg h

section
variable {n : Nat} (a b : BitVec n) (k : Nat)

theorem add_eq_ofNat : a + b = BitVec.ofNat n (a.toNat + b.toNat) := by
  rw [BitVec.ofNat_add, BitVec.ofNat_toNat, BitVec.ofNat_toNat, BitVec.setWidth_eq, BitVec.setWidth_eq]

theorem add_eq_ofInt : a + b = BitVec.ofInt n (a.toInt + b.toInt) := by
  rw [BitVec.ofInt_add, BitVec.ofInt_toInt, BitVec.ofInt_toInt]

theorem sub_eq_ofInt : a - b = BitVec.ofInt n (a.toInt - b.toInt) := by
  apply BitVec.eq_of_toInt_eq
  rw [BitVec.toInt_sub, BitVec.toInt_ofInt]

theorem mul_eq_ofInt : a * b = BitVec.ofInt n (a.toInt * b.toInt) := by
  rw [BitVec.ofInt_mul, BitVec.ofInt_toInt, BitVec.ofInt_toInt]

theorem shiftLeft_eq_ofNat : a <<< k = BitVec.ofNat n (a.toNat * 2 ^ k) := by
  apply BitVec.eq_of_toNat_eq
  rw [BitVec.toNat_shiftLeft, BitVec.toNat_ofNat, Nat.shiftLeft_eq]

theorem ushiftRight_eq_ofNat : a >>> k = BitVec.ofNat n (a.toNat / 2 ^ k) := by
  apply BitVec.eq_of_toNat_eq
  rw [BitVec.toNat_ushiftRight, BitVec.toNat_ofNat, Nat.shiftRight_eq_div_pow,
    Nat.mod_eq_of_lt (lt_of_le_of_lt (Nat.div_le_self _ _) a.isLt)]

theorem sshiftRight_eq_ofInt : a.sshiftRight k = BitVec.ofInt n (a.toInt / 2 ^ k) := by
  rw [← BitVec.ofInt_toInt (x := a.sshiftRight k), BitVec.toInt_sshiftRight, Int.shiftRight_eq_div_pow]
  norm_cast

end

theorem boolWord_slt (a b : Word) : boolWord (a.slt b) = if a.toInt < b.toInt then 1 else 0 := by
  simp [boolWord, BitVec.slt]

theorem boolWord_ult (a b : Word) : boolWord (a.ult b) = if a.toNat < b.toNat then 1 else 0 := by
  simp [boolWord, BitVec.ult]

theorem imm12_toInt (imm : BitVec 12) : (imm12 imm).toInt = imm.toInt := BitVec.toInt_signExtend_of_le (by decide)

theorem low32_add (a b : Word) : low32 (a + b) = low32 a + low32 b := BitVec.setWidth_add _ _ (by decide)

theorem immU_eq (u : BitVec 20) : immU u = BitVec.ofInt 64 (u.toInt * 4096) := by
  rw [← BitVec.ofInt_toInt (x := immU u), immU, BitVec.toInt_signExtend_of_le (by decide), BitVec.toInt_append_zero]
  congr 1
  omega

theorem highPart_nat (p : Nat) : highPart (p : Int) = BitVec.ofNat 64 (p / 2 ^ 64) := by
  rw [highPart, ← BitVec.ofInt_natCast]
  norm_cast

/-- The immediate of ADDIW as a 32-bit value. -/
theorem low32_imm12 (imm : BitVec 12) : (low32 (imm12 imm)).toInt = imm.toInt := by
  have h : low32 (imm12 imm) = imm.signExtend 32 := by
    refine BitVec.eq_of_getLsbD_eq fun i hi => ?_
    rw [low32, imm12, BitVec.getLsbD_setWidth, BitVec.getLsbD_signExtend, BitVec.getLsbD_signExtend]
    simp [hi, Nat.lt_trans hi (by decide : 32 < 64)]
  rw [h, BitVec.toInt_signExtend_of_le (by decide)]

/-- A W form takes the low five bits of its shift amount. -/
theorem low32_mod (b : Word) : b.toNat % 32 = (low32 b).toNat % 32 := by
  rw [low32, BitVec.toNat_setWidth]
  omega

/-! ### Quotients and remainders (R299) -/

section
variable {n : Nat} (a b : BitVec n)

theorem allOnes_eq_ofInt : BitVec.allOnes n = BitVec.ofInt n (-1) := by
  rw [← BitVec.neg_one_eq_allOnes, BitVec.ofInt_neg]
  exact congrArg _ (BitVec.ofInt_natCast n 1).symm

theorem divS_eq : divS a b = if b = 0 then BitVec.ofInt n (-1) else BitVec.ofInt n (a.toInt.tdiv b.toInt) := by
  rw [divS, allOnes_eq_ofInt]
  congr 1
  apply BitVec.eq_of_toInt_eq
  rw [BitVec.toInt_sdiv, BitVec.toInt_ofInt]

theorem divU_eq : divU a b = if b = 0 then BitVec.ofInt n (-1) else BitVec.ofNat n (a.toNat / b.toNat) := by
  rw [divU, allOnes_eq_ofInt]
  congr 1
  apply BitVec.eq_of_toNat_eq
  rw [BitVec.udiv_eq, BitVec.toNat_udiv, BitVec.toNat_ofNat, Nat.mod_eq_of_lt (lt_of_le_of_lt (Nat.div_le_self _ _) a.isLt)]

theorem remS_eq : remS a b = if b = 0 then a else BitVec.ofInt n (a.toInt.tmod b.toInt) := by
  rw [remS, ← BitVec.toInt_srem, BitVec.ofInt_toInt]

theorem remU_eq : remU a b = if b = 0 then a else BitVec.ofNat n (a.toNat % b.toNat) := by
  rw [remU, BitVec.umod_eq, ← BitVec.toNat_umod, BitVec.ofNat_toNat, BitVec.setWidth_eq]

end

/-! ### MIN, MAX and the counts (R303) -/

section
variable (a b : Word)

theorem min_signed : (if a.sle b then a else b) = BitVec.ofInt 64 (min a.toInt b.toInt) := by
  by_cases h : a.toInt ≤ b.toInt <;> simp [BitVec.sle, h, Int.min_def]

theorem max_signed : (if b.sle a then a else b) = BitVec.ofInt 64 (max a.toInt b.toInt) := by
  by_cases h : b.toInt ≤ a.toInt
  · simp [BitVec.sle, h]
  · simp [BitVec.sle, h, max_eq_right (le_of_not_ge h)]

theorem min_unsigned : (if a.ule b then a else b) = BitVec.ofNat 64 (min a.toNat b.toNat) := by
  by_cases h : a.toNat ≤ b.toNat <;> simp [BitVec.ule, h, Nat.min_def]

theorem max_unsigned : (if b.ule a then a else b) = BitVec.ofNat 64 (max a.toNat b.toNat) := by
  by_cases h : b.toNat ≤ a.toNat
  · simp [BitVec.ule, h]
  · simp [BitVec.ule, h, max_eq_right (le_of_not_ge h)]

end

/-- CLZ stops below the highest set bit. -/
theorem clz64_spec (a : Word) : clz64 a.toNat ≤ 64 ∧ (∀ i < 64, 64 - clz64 a.toNat ≤ i → a.getLsbD i = false) ∧
    (clz64 a.toNat < 64 → a.getLsbD (63 - clz64 a.toNat) = true) := by
  unfold clz64
  by_cases h : a.toNat = 0
  · have ha : a = 0#64 := BitVec.eq_of_toNat_eq h
    simp [ha]
  · have hl : a.toNat.log2 < 64 := (Nat.log2_lt h).mpr a.isLt
    rw [if_neg h]
    refine ⟨by omega, fun i _ hi => ?_, fun _ => ?_⟩
    · rw [← BitVec.testBit_toNat]
      exact Nat.testBit_lt_two_pow (lt_of_lt_of_le Nat.lt_log2_self (Nat.pow_le_pow_right (by decide) (by omega)))
    · rw [← BitVec.testBit_toNat, show 63 - (63 - a.toNat.log2) = a.toNat.log2 by omega]
      exact Nat.testBit_log2 h

/-- CTZ stops at the lowest set bit among the `k` from bit `i` up. -/
theorem ctzFrom_spec (n : Nat) (k i : Nat) : i ≤ ctzFrom n i k ∧ ctzFrom n i k ≤ i + k ∧
    (∀ j, i ≤ j → j < ctzFrom n i k → n.testBit j = false) ∧ (ctzFrom n i k < i + k → n.testBit (ctzFrom n i k) = true) := by
  induction k generalizing i with
  | zero => exact ⟨le_rfl, le_rfl, fun j h1 h2 => absurd h2 (by simp only [ctzFrom]; omega), fun h => absurd h (by simp [ctzFrom])⟩
  | succ k ih =>
    unfold ctzFrom
    by_cases h : n.testBit i
    · rw [if_pos h]
      exact ⟨le_rfl, by omega, fun j h1 h2 => absurd h2 (by omega), fun _ => h⟩
    · obtain ⟨h1, h2, h3, h4⟩ := ih (i + 1)
      rw [if_neg h]
      refine ⟨by omega, by omega, fun j hj hlt => ?_, fun hlt => h4 (by omega)⟩
      rcases Nat.eq_or_lt_of_le hj with rfl | hj
      · simpa using h
      · exact h3 j hj hlt

theorem popcount_eq_countP (a : Word) (k : Nat) : popcount a.toNat k = (List.range k).countP fun i => a.getLsbD i := by
  induction k with
  | zero => rfl
  | succ k ih => simp [popcount, ih, List.range_succ, List.countP_singleton, BitVec.testBit_toNat]

/-! ### Bit fields (R304, R305) -/

/-- Bit `i` of a number taken from bit `o` of a word up. -/
theorem testBit_field (a : Word) (o i : Nat) : (a.toNat / 2 ^ o).testBit i = a.getLsbD (o + i) := by
  rw [Nat.testBit_div_two_pow, BitVec.testBit_toNat, Nat.add_comm]

theorem getLsbD_zext (x n i : Nat) (hi : i < 64) : (zext n x).getLsbD i = (decide (i < n) && x.testBit i) := by
  rw [zext, BitVec.getLsbD_ofNat, Nat.testBit_mod_two_pow]
  simp [hi]

theorem getLsbD_sext (x n i : Nat) (hi : i < 64) :
    (sext n x).getLsbD i = if i < n then x.testBit i else (n != 0 && x.testBit (n - 1)) := by
  rw [sext, BitVec.getLsbD_signExtend, BitVec.msb_eq_getLsbD_last, BitVec.getLsbD_ofNat, BitVec.getLsbD_ofNat]
  by_cases h : i < n
  · simp only [hi, h, decide_true, Bool.true_and, if_true]
  · by_cases h0 : n = 0
    · simp [h0]
    · simp [hi, h, h0, Nat.pos_of_ne_zero h0]

/-- The mask of the `n` bits from bit `o` up. -/
theorem getLsbD_fieldMask (o n i : Nat) (hi : i < 64) :
    (BitVec.ofNat 64 (2 ^ n - 1) <<< o).getLsbD i = decide (o ≤ i ∧ i < o + n) := by
  rw [BitVec.getLsbD_shiftLeft, BitVec.getLsbD_ofNat, Nat.testBit_two_pow_sub_one]
  by_cases h : o ≤ i
  · have h2 : i - o < n ↔ i < o + n := by omega
    have h3 : i - o < 64 := by omega
    simp only [hi, Nat.not_lt.mpr h, h, h2, h3, decide_true, decide_false, Bool.true_and, Bool.not_false, true_and]
  · simp [h, Nat.lt_of_not_le h]

/-- An empty field has no bits. -/
theorem fieldLen_zero (o : Nat) : fieldLen o 0 = 0 := by simp [fieldLen]

/-- BFI replaces the bits of its field. -/
theorem getLsbD_bfi (old a : Word) (o n i : Nat) (hi : i < 64) :
    let mask := BitVec.ofNat 64 (2 ^ n - 1) <<< o
    ((old &&& ~~~mask) ||| ((a <<< o) &&& mask)).getLsbD i = if o ≤ i ∧ i < o + n then a.getLsbD (i - o) else old.getLsbD i := by
  intro mask
  rw [BitVec.getLsbD_or, BitVec.getLsbD_and, BitVec.getLsbD_and, BitVec.getLsbD_not, getLsbD_fieldMask o n i hi,
    BitVec.getLsbD_shiftLeft]
  by_cases h : o ≤ i ∧ i < o + n
  · simp [h, hi, Nat.not_lt.mpr h.1]
  · simp [h, hi]

/-- An instruction that only retires gives the register its own value. -/
theorem Gives.of_retire {i : Instr} {s : State} {rd : Reg} (h : exec i s = .next s.retire) : Gives i s rd (s.rx rd) := by
  have hR := s.retire_retired_self
  refine ⟨_, h, fun r => ?_, s.me.x, hR⟩
  rw [State.rx, hR.me]
  change s.me.rx r = if r = 0 then 0 else if r = rd then s.me.rx rd else s.me.rx r
  by_cases h0 : r = 0
  · simp [h0, Thread.rx]
  · rw [if_neg h0]
    by_cases h1 : r = rd
    · rw [if_pos h1, h1]
    · rw [if_neg h1]


/-- Settles O1: each result by the word's arithmetic in natural numbers or integers. -/
theorem integerRegisterResults : Obligations.IntegerRegisterResults := fun _ _ _ _ =>
  ⟨Gives.of_eq rfl (add_eq_ofNat _ _), Gives.of_eq rfl (sub_eq_ofInt _ _), Gives.of_eq rfl (shiftLeft_eq_ofNat _ _),
    Gives.of_eq rfl (boolWord_slt _ _), Gives.of_eq rfl (boolWord_ult _ _), Gives.of_writeReg rfl, Gives.of_eq rfl (ushiftRight_eq_ofNat _ _),
    Gives.of_eq rfl (sshiftRight_eq_ofInt _ _), Gives.of_writeReg rfl, Gives.of_writeReg rfl⟩

/-- Settles O2: as the register forms, with the immediate's value. -/
theorem integerImmediateResults : Obligations.IntegerImmediateResults := fun s rd rs1 imm sh u =>
  ⟨Gives.of_eq rfl (by rw [add_eq_ofInt, imm12_toInt]), Gives.of_eq rfl (by rw [boolWord_slt, imm12_toInt]),
    Gives.of_eq rfl (boolWord_ult _ _), Gives.of_writeReg rfl, Gives.of_writeReg rfl, Gives.of_writeReg rfl,
    Gives.of_eq rfl (shiftLeft_eq_ofNat _ _), Gives.of_eq rfl (ushiftRight_eq_ofNat _ _), Gives.of_eq rfl (sshiftRight_eq_ofInt _ _),
    Gives.of_eq rfl (immU_eq u), Gives.of_eq rfl (by rw [immU_eq, BitVec.ofInt_add, BitVec.ofInt_toInt])⟩

/-- Settles O3: the same arithmetic on the low halves. -/
theorem wordFormResults : Obligations.WordFormResults := fun s rd rs1 rs2 imm sh =>
  ⟨Gives.of_eq rfl (congrArg wForm (by rw [low32_add, add_eq_ofInt, low32_imm12]; rfl)),
    Gives.of_eq rfl (congrArg wForm (shiftLeft_eq_ofNat _ _)),
    Gives.of_eq rfl (congrArg wForm (ushiftRight_eq_ofNat _ _)), Gives.of_eq rfl (congrArg wForm (sshiftRight_eq_ofInt _ _)),
    Gives.of_eq rfl (congrArg wForm (add_eq_ofNat _ _)), Gives.of_eq rfl (congrArg wForm (sub_eq_ofInt _ _)),
    Gives.of_eq rfl (congrArg wForm (by rw [shiftLeft_eq_ofNat, low32_mod]; rfl)),
    Gives.of_eq rfl (congrArg wForm (by rw [ushiftRight_eq_ofNat, low32_mod]; rfl)),
    Gives.of_eq rfl (congrArg wForm (by rw [sshiftRight_eq_ofInt, low32_mod]; rfl)),
    Gives.of_eq rfl (congrArg wForm (mul_eq_ofInt _ _))⟩

/-- Settles O4: products by the exact product, quotients and remainders by `divS_eq` and its kin. -/
theorem multiplyDivideResults : Obligations.MultiplyDivideResults :=
  ⟨fun s rd rs1 rs2 => ⟨Gives.of_eq rfl (mul_eq_ofInt _ _), Gives.of_writeReg rfl, Gives.of_writeReg rfl,
      Gives.of_eq rfl (by rw [← Nat.cast_mul, highPart_nat])⟩,
    fun s rd rs1 rs2 => ⟨Gives.of_eq rfl (divS_eq _ _), Gives.of_eq rfl (divU_eq _ _), Gives.of_eq rfl (remS_eq _ _), Gives.of_eq rfl (remU_eq _ _),
      Gives.of_eq rfl (congrArg wForm (divS_eq _ _)), Gives.of_eq rfl (congrArg wForm (divU_eq _ _)),
      Gives.of_eq rfl (congrArg wForm (remS_eq _ _)), Gives.of_eq rfl (congrArg wForm (remU_eq _ _))⟩⟩

/-- Settles O5: the counts by the bit they stop at, the fields bit by bit. -/
theorem minMaxBitFieldResults : Obligations.MinMaxBitFieldResults := by
  refine ⟨fun s rd rs1 rs2 => ⟨Gives.of_eq rfl (min_signed _ _), Gives.of_eq rfl (max_signed _ _), Gives.of_eq rfl (min_unsigned _ _),
    Gives.of_eq rfl (max_unsigned _ _), ?_, ?_, Gives.of_eq rfl (by rw [popcount_eq_countP])⟩, fun s rd rs1 off width => ?_⟩
  · obtain ⟨h1, h2, h3⟩ := clz64_spec (s.rx rs1)
    exact ⟨_, h1, Gives.of_writeReg rfl, h2, h3⟩
  · obtain ⟨-, h1, h2, h3⟩ := ctzFrom_spec (s.rx rs1).toNat 64 0
    exact ⟨_, by omega, Gives.of_writeReg rfl, fun i hi => BitVec.testBit_toNat _ ▸ h2 i (Nat.zero_le i) hi, fun h => BitVec.testBit_toNat _ ▸ h3 (by omega)⟩
  · refine ⟨⟨_, Gives.of_writeReg rfl, fun i hi => ?_⟩, ⟨_, Gives.of_writeReg rfl, fun i hi => ?_⟩, ?_⟩
    · by_cases h : width = 0
      · subst h; simp
      · rw [if_neg h, getLsbD_zext _ _ _ hi, testBit_field]; rfl
    · by_cases h : width = 0
      · subst h; simp
      · rw [if_neg h, getLsbD_sext _ _ _ hi, testBit_field, testBit_field, fieldLen]
        by_cases h0 : min (off.toNat + width.toNat) 64 - off.toNat = 0
        · simp [h0]
        · rw [Nat.add_sub_assoc (Nat.pos_of_ne_zero h0)]
    · by_cases h : width = 0
      · subst h
        exact ⟨s.rx rd, Gives.of_retire (by rw [show exec (.bfi rd rs1 off 0) s = execBfi rd rs1 off 0 s from rfl, execBfi, if_pos rfl]),
          fun i hi => (if_neg (by simp)).symm⟩
      · exact ⟨_, Gives.of_writeReg (by rw [show exec (.bfi rd rs1 off width) s = execBfi rd rs1 off width s from rfl, execBfi, if_neg h]; rfl), fun i hi => getLsbD_bfi _ _ _ _ i hi⟩

end Sys2Proof.Machine
end

section
/-!
PROOFS. Control and CSRs (spec/15_scalar.md R301-R312, spec/14_encoding.md R286): jumps and branches, hardware loops, traps and
aborts, and the CSR instructions.
-/

namespace Sys2Proof.Machine

/-! ### Retiring after a change of state -/

theorem State.rx_retireTo (s : State) (w : Word) (j : Bool) (r : Reg) : (s.retireTo w j).rx r = s.rx r := by
  rw [State.rx, State.retireTo_me]
  rfl

theorem loopTest_jump (t : Thread) (next : Word) :
    loopTest t next true =
      (next, if t.lpcount ≠ 0 ∧ (next.toNat < t.lpstart.toNat ∨ t.lpend.toNat < next.toNat) then 0 else t.lpcount) := by
  have hb : (t.lpcount != 0 && (decide (next.toNat < t.lpstart.toNat) || decide (t.lpend.toNat < next.toNat))) = true ↔
      t.lpcount ≠ 0 ∧ (next.toNat < t.lpstart.toNat ∨ t.lpend.toNat < next.toNat) := by simp
  simp only [loopTest, if_true, hb]
  split <;> rfl

/-- A state whose threads and partition are those of `s` decides as `s` does whether retiring takes from the budget. -/
theorem nextBudget_setMe {s u : State} {m : Thread} (hcur : u.cur = s.cur)
    (hdet : u.det (u.partOfHart u.cur) = s.det (s.partOfHart s.cur)) (hme : u.me = s.me) (ha : m.act = s.me.act)
    (hp : m.priv = s.me.priv) (hb : m.budget = s.me.budget) : nextBudget (u.setMe m) = nextBudget s := by
  have h : (u.setMe m).det ((u.setMe m).partOfHart u.cur) = s.det (s.partOfHart s.cur) := by
    rw [State.partOfHart_setMe u m (by rw [ha, hme])]
    exact hdet
  simp only [State.det, hcur] at h
  simp only [nextBudget, State.me_setMe, hb, hp, State.setMe_cur, hcur, h]

/-- Retiring after a change that leaves threads as they were: the thread goes on, no other has changed. -/
theorem Went.of_retire {s u : State} {m : Thread} (hcur : u.cur = s.cur) (hthreads : u.threads = s.threads)
    (hdet : u.det (u.partOfHart u.cur) = s.det (s.partOfHart s.cur)) (hpc : m.pc = s.me.pc)
    (hs : m.lpstart = s.me.lpstart) (he : m.lpend = s.me.lpend) (hc : m.lpcount = s.me.lpcount)
    (hb : m.budget = s.me.budget) (hp : m.priv = s.me.priv) (ha : m.act = s.me.act) (hr : m.retired = s.me.retired)
    (hq : m.qret = s.me.qret) : Went s (u.setMe m).retire m := by
  have hthread : ∀ h, u.thread h = s.thread h := fun h => by rw [State.thread, State.thread, hthreads]
  have hme : u.me = s.me := by rw [State.me, State.me, hcur, hthread]
  refine ⟨?_, fun h hh => ?_⟩
  · rw [State.retire, State.retireTo_me, State.me_setMe, loopTest_no_jump, nextBudget_setMe hcur hdet hme ha hp hb, hr, hq]
    simp only [nextPc, nextCount, hpc, hs, he, hc]
  · rw [State.retire, State.thread_retireTo_ne _ _ _ (by simpa [hcur] using hh),
      State.thread_setMe_ne _ _ (by simpa [hcur] using hh), hthread]

/-! ### Jumps and branches (R301, R302) -/

/-- A jump that leaves the loop's registers alone goes to its target. -/
theorem jumped_of_setMe (s : State) (m : Thread) (t : Word) (hs : m.lpstart = s.me.lpstart) (he : m.lpend = s.me.lpend)
    (hc : m.lpcount = s.me.lpcount) (hr : m.retired = s.me.retired) : jumped s ((s.setMe m).retireTo t true) t := by
  refine ⟨?_, ?_, ?_, fun _ => rfl, fun h hh => ?_, rfl, rfl, rfl⟩
  · rw [State.retireTo_me, loopTest_jump]
  · rw [State.retireTo_me, loopTest_jump, State.me_setMe, hs, he, hc]
  · rw [State.retireTo_me, State.me_setMe, hr]
  · exact (State.thread_retireTo_ne (s.setMe m) t true hh).trans (State.thread_setMe_ne _ _ hh)

theorem jumped_retireTo (s : State) (t : Word) : jumped s (s.retireTo t true) t := by
  have h := jumped_of_setMe s s.me t rfl rfl rfl rfl
  rwa [State.retireTo_setMe_me] at h

theorem x_retireTo (s : State) (w : Word) (j : Bool) : (s.retireTo w j).me.x = s.me.x := by rw [State.retireTo_me]

/-- JAL and JALR to an aligned target: the link is written and the thread goes there. -/
theorem jumpTo_aligned (s : State) (rd : Reg) {t : Word} (h : t.toNat % 4 = 0) :
    ∃ u, jumpTo s rd t = .next u ∧
      (∀ r : Reg, u.rx r = if r = 0 then 0 else if r = rd then s.me.pc + 4 else s.rx r) ∧ jumped s u t := by
  refine ⟨(s.wx rd (s.me.pc + 4)).retireTo t true, by simp [jumpTo, h], fun r => ?_, ?_⟩
  · rw [State.rx_retireTo, State.rx_wx]
  · obtain ⟨x, hx⟩ := Thread.wx_eq s.me rd (s.me.pc + 4)
    rw [State.wx, hx]
    exact jumped_of_setMe s _ t rfl rfl rfl rfl

/-- At M an exception of a jump or an instruction without an address writes the trap registers and the pc alone. -/
theorem Ends.raise_machine {i : Instr} {s : State} {cause : Nat} {at_ : Site} {addr val : Word} (hM : s.me.priv = .M)
    (h : exec i s = .next (s.raise cause at_ addr val)) :
    Ends i s fun t => t.me = s.me.trap cause at_ val ∧ (∀ h, h ≠ s.cur → t.thread h = s.thread h) ∧
      { t with threads := s.threads } = s := by
  refine ⟨s.setMe (s.me.trap cause at_ val), ?_, State.me_setMe _ _, fun _ hh => State.thread_setMe_ne _ _ hh, rfl⟩
  rw [h, State.raise, hM]

theorem jumpTo_misaligned (s : State) (rd : Reg) {t : Word} (h : t.toNat % 4 ≠ 0) :
    jumpTo s rd t = .next (s.raise 13 .jump t t) := by
  simp [jumpTo, h, raiseOut, errAddr]

theorem branchOut_holds {s : State} {c : Cond} {rs1 rs2 : Reg} (off : BitVec 12) (hc : c.holds (s.rx rs1) (s.rx rs2) = true) :
    branchOut s c rs1 rs2 off =
      if (s.me.pc + immB off).toNat % 4 ≠ 0 then .next (s.raise 13 .jump (s.me.pc + immB off) (s.me.pc + immB off))
      else .next (s.retireTo (s.me.pc + immB off) true) := by
  simp [branchOut, hc, raiseOut, errAddr]

theorem branchOut_not_holds {s : State} {c : Cond} {rs1 rs2 : Reg} (off : BitVec 12)
    (hc : c.holds (s.rx rs1) (s.rx rs2) = false) : branchOut s c rs1 rs2 off = .next s.retire := by
  simp [branchOut, hc]

theorem immB_eq (off : BitVec 12) : (immB off).toInt = 2 * off.toInt := by
  rw [immB, BitVec.toInt_signExtend_of_le (by decide), BitVec.toInt_append_zero]
  rfl

theorem immJ_eq (off : BitVec 20) : (immJ off).toInt = 2 * off.toInt := by
  rw [immJ, BitVec.toInt_signExtend_of_le (by decide), BitVec.toInt_append_zero]
  rfl

/-- What O9 says of a branch, of the common part of the six. -/
theorem branchOut_spec {i : Instr} {s : State} {c : Cond} {rs1 rs2 : Reg} {off : BitVec 12}
    (h : exec i s = branchOut s c rs1 rs2 off) (b : Bool) (hb : c.holds (s.rx rs1) (s.rx rs2) = b) :
    let target := BitVec.ofInt 64 (s.me.pc.toInt + 2 * off.toInt)
    ((b = true → target.toNat % 4 = 0) →
      Ends i s fun t => t.me.x = s.me.x ∧ if b then jumped s t target else Retired s t s.me) ∧
    (b = true → target.toNat % 4 ≠ 0 → s.me.priv = .M → Ends i s fun t =>
      t.me = { s.me with mepc := s.me.pc &&& ~~~3#64, mcause := BitVec.ofNat 64 (13 * 256), mtval := target,
                         pc := s.me.mtvec &&& ~~~3#64, resp := none, beat := 0, rows := [], status := .running } ∧
        { t with threads := s.threads } = s) := by
  intro target
  have htarget : s.me.pc + immB off = target := by rw [add_eq_ofInt, immB_eq]
  cases b with
  | false =>
    rw [branchOut_not_holds off hb] at h
    exact ⟨fun _ => ⟨_, h, x_retireTo _ _ _, State.retire_retired_self s⟩, fun hf => absurd hf (by decide)⟩
  | true =>
    rw [branchOut_holds off hb, htarget] at h
    refine ⟨fun hal => ?_, fun _ hmis hM => ?_⟩
    · rw [if_neg (by simp [hal rfl])] at h
      exact ⟨_, h, x_retireTo _ _ _, jumped_retireTo s target⟩
    · rw [if_pos hmis] at h
      obtain ⟨t, ht, hme, -, hrest⟩ := Ends.raise_machine hM h
      exact ⟨t, ht, hme, hrest⟩

/-- A misaligned JAL or JALR at M. -/
theorem jump_misaligned_spec {i : Instr} {s : State} {rd : Reg} {target : Word} (h : exec i s = jumpTo s rd target)
    (hM : s.me.priv = .M) (hmis : target.toNat % 4 ≠ 0) : Ends i s fun t =>
      t.me = { s.me with mepc := s.me.pc &&& ~~~3#64, mcause := BitVec.ofNat 64 (13 * 256), mtval := target,
                         pc := s.me.mtvec &&& ~~~3#64, resp := none, beat := 0, rows := [], status := .running } ∧
        { t with threads := s.threads } = s := by
  rw [jumpTo_misaligned s rd hmis] at h
  obtain ⟨t, ht, hme, -, hrest⟩ := Ends.raise_machine hM h
  exact ⟨t, ht, hme, hrest⟩

theorem Cond.ge_holds (a b : Word) : Cond.ge.holds a b = decide (b.toInt ≤ a.toInt) := by
  simp [Cond.holds, BitVec.slt, ← decide_not]

theorem Cond.geu_holds (a b : Word) : Cond.geu.holds a b = decide (b.toNat ≤ a.toNat) := by
  simp [Cond.holds, BitVec.ult, ← decide_not]

/-- Settles O9: JAL and JALR by `jumpTo`, the six branches by `branchOut_spec`. -/
theorem jumpBranchResults : Obligations.JumpBranchResults := by
  intro s rd rs1 rs2 off boff imm
  dsimp only
  have hjal : exec (.jal rd off) s = jumpTo s rd (BitVec.ofInt 64 (s.me.pc.toInt + 2 * off.toInt)) := by
    rw [← immJ_eq, ← add_eq_ofInt]; rfl
  have hjalr : exec (.jalr rd rs1 imm) s = jumpTo s rd (BitVec.ofInt 64 ((s.rx rs1).toInt + imm.toInt) &&& ~~~1#64) := by
    rw [← imm12_toInt, ← add_eq_ofInt]; rfl
  refine ⟨fun h => ?_, fun h => ?_, jump_misaligned_spec hjal, jump_misaligned_spec hjalr,
    branchOut_spec rfl _ rfl, branchOut_spec rfl _ rfl, branchOut_spec rfl _ rfl, branchOut_spec rfl _ (Cond.ge_holds _ _),
    branchOut_spec rfl _ rfl, branchOut_spec rfl _ (Cond.geu_holds _ _)⟩
  · obtain ⟨u, hu, hrest⟩ := jumpTo_aligned s rd h
    exact ⟨u, hjal.trans hu, hrest⟩
  · obtain ⟨u, hu, hrest⟩ := jumpTo_aligned s rd h
    exact ⟨u, hjalr.trans hu, hrest⟩

/-! ### Hardware loops (R307, R308) -/

/-- A loop that starts: its registers are set; a count of 0 goes past the body. -/
theorem loopOut_spec (s : State) (n : Word) (last : BitVec 12) :
    ∃ t, loopOut s n last = .next t ∧ t.me.lpstart = s.me.pc + 4 ∧
      t.me.lpend = s.me.pc + BitVec.ofNat 64 (4 * last.toNat) ∧ t.me.x = s.me.x ∧ t.mem = s.mem ∧
      (n = 0 → t.me.pc = s.me.pc + BitVec.ofNat 64 (4 * last.toNat) + 4 ∧ t.me.lpcount = 0) ∧
      (n ≠ 0 → 0 < last.toNat → t.me.pc = s.me.pc + 4 ∧ t.me.lpcount = n) := by
  by_cases hn : n = 0
  · refine ⟨_, if_pos hn, ?_⟩
    simp [State.retireTo_me, loopTest_jump, hn]
  · refine ⟨_, if_neg hn, ?_⟩
    have hne : 0 < last.toNat → s.me.pc ≠ s.me.pc + BitVec.ofNat 64 (4 * last.toNat) := by
      have := last.isLt
      intro h0 he
      bv_omega
    simp only [State.retire, State.retireTo_me, loopTest_no_jump, State.me_setMe, nextCount]
    exact ⟨trivial, trivial, trivial, rfl, fun h => absurd h hn, fun _ h0 => by simp [hne h0]⟩

/-- Settles O10, by `loopOut_spec`. -/
theorem loopResults : Obligations.LoopResults :=
  fun s rs1 count last => ⟨loopOut_spec s (s.rx rs1) last, loopOut_spec s (count.setWidth 64) last⟩

end Sys2Proof.Machine
end

section
/-!
PROOFS. CSRs (spec/14_encoding.md R285, R286, spec/15_scalar.md R310): what a write leaves to be read, what a CSR instruction does,
and the accesses that are illegal.
-/

namespace Sys2Proof.Machine

/-! ### Fields of a word -/

/-- The low `k` bits of a word, as a mask takes them. -/
theorem setWidth_setWidth_eq_and (v : Word) (k : Nat) (hk : k ≤ 64) :
    (v.setWidth k).setWidth 64 = v &&& BitVec.ofNat 64 (2 ^ k - 1) := by
  apply BitVec.eq_of_toNat_eq
  have h : 2 ^ k - 1 < 2 ^ 64 := lt_of_lt_of_le (Nat.sub_lt (Nat.two_pow_pos k) Nat.one_pos) (Nat.pow_le_pow_right (by decide) hk)
  have h2 : v.toNat % 2 ^ k < 2 ^ 64 := lt_of_le_of_lt (Nat.mod_le _ _) v.isLt
  rw [BitVec.toNat_and, BitVec.toNat_ofNat, Nat.mod_eq_of_lt h, Nat.and_two_pow_sub_one_eq_mod, BitVec.toNat_setWidth,
    BitVec.toNat_setWidth, Nat.mod_eq_of_lt h2]

/-! ### What a CSR reads after a write (R286, R306, R335, R391, R393) -/

/-- A CSR of the thread reads what the thread's own write left. -/
theorem State.me_writeCsr (s : State) (n : Nat) (v : Word) (h1 : n ≠ 0x8C1) (h3 : n ≠ 0x8C3) :
    (s.writeCsr n v).me = s.me.writeCsr n v := by
  have h : s.writeCsr n v = s.setMe (s.me.writeCsr n v) := by
    unfold State.writeCsr
    split
    · exact absurd rfl h1
    · exact absurd rfl h3
    · rfl
  rw [h, State.me_setMe]

theorem readCsr_spawnlim (s : State) (v : Word) : (s.writeCsr 0x8C1 v).readCsr 0x8C1 = v &&& 0x1FFFF#64 := by
  refine Eq.trans ?_ (setWidth_setWidth_eq_and v 17 (by decide))
  simp [State.writeCsr, State.readCsr, State.core, State.setCore]

theorem readCsr_srseed (s : State) (v : Word) : (s.writeCsr 0x8C3 v).readCsr 0x8C3 = v := by
  simp [State.writeCsr, State.readCsr, State.tile, State.setTile, State.site]

theorem readCsr_accdecay (s : State) (v : Word) : (s.writeCsr 0x8C4 v).readCsr 0x8C4 = v &&& 0xFFFFFFFF#64 := by
  rw [State.readCsr, State.me_writeCsr s _ v (by decide) (by decide)]
  exact setWidth_setWidth_eq_and v 32 (by decide)

theorem readCsr_vl (s : State) (v : Word) : (s.writeCsr 0x8C5 v).readCsr 0x8C5 = v &&& 0xFF#64 := by
  rw [State.readCsr, State.me_writeCsr s _ v (by decide) (by decide)]
  exact setWidth_setWidth_eq_and v 8 (by decide)

/-- A rounding mode above 4 is not written (R258). -/
theorem readCsr_fround (s : State) (v : Word) : (s.writeCsr 0x8C2 v).readCsr 0x8C2 =
    if v.toNat % 8 ≤ 4 then v &&& 7#64 else s.readCsr 0x8C2 := by
  rw [State.readCsr, State.me_writeCsr s _ v (by decide) (by decide)]
  have hn : (v.setWidth 3 : BitVec 3).toNat = v.toNat % 8 := BitVec.toNat_setWidth _ _
  by_cases h : v.toNat % 8 ≤ 4
  · simp only [Thread.writeCsr, hn, h, if_true]
    exact setWidth_setWidth_eq_and v 3 (by decide)
  · simp only [Thread.writeCsr, hn, h, if_false]
    rfl

/-- A write cannot raise the budget (R120). -/
theorem readCsr_budget_user (s : State) (v : Word) (hU : s.me.priv = .U) : (s.writeCsr 0x8C0 v).readCsr 0x8C0 =
    if v.toNat % 2 ^ 27 ≤ s.me.budget.toNat then v &&& 0x7FFFFFF#64 else s.me.budget.setWidth 64 := by
  rw [State.readCsr, State.me_writeCsr s _ v (by decide) (by decide)]
  have hn : (v.setWidth 27 : BitVec 27).toNat = v.toNat % 2 ^ 27 := BitVec.toNat_setWidth _ _
  by_cases h : v.toNat % 2 ^ 27 ≤ s.me.budget.toNat
  · rw [if_pos h]
    simp only [Thread.writeCsr, hn, hU, Nat.not_lt.mpr h]
    exact setWidth_setWidth_eq_and v 27 (by decide)
  · rw [if_neg h]
    have hlt : (s.me.priv = .M || decide (s.me.budget.toNat < (v.setWidth 27 : BitVec 27).toNat)) = true := by
      rw [hn, decide_eq_true (Nat.lt_of_not_le h), Bool.or_true]
    have hkept : s.me.writeCsr 0x8C0 v = s.me := if_pos hlt
    simp [hkept, hU]

theorem readCsr_budget_machine (s : State) (v : Word) (hM : s.me.priv = .M) : (s.writeCsr 0x8C0 v).readCsr 0x8C0 = 0 := by
  rw [State.readCsr, State.me_writeCsr s _ v (by decide) (by decide)]
  simp [Thread.writeCsr, hM]

/-- A CSR of the thread that is written whole, or in the bits its field has. -/
theorem readCsr_writeCsr_thread (s : State) (n : Nat) (v : Word)
    (hn : n ∈ [0x305, 0x340, 0x341, 0x342, 0x343, 0x8C6, 0x8C7, 0x8C8]) :
    (s.writeCsr n v).readCsr n =
      if n ∈ [0x305, 0x341, 0x8C6, 0x8C7] then v &&& ~~~3#64 else if n = 0x342 then v &&& 0xFFFF#64 else v := by
  fin_cases hn <;> rw [State.readCsr, State.me_writeCsr s _ v (by decide) (by decide)] <;> rfl

/-! ### The CSR instructions (R286, R310) -/

section
variable {s : State} {i : Instr} {rd : Reg} {csr : BitVec 12} {w : Bool} {f : Word → Word}

/-- An access that the map and the level allow: the old value goes to the register, the new one to the CSR. -/
theorem csrOut_allowed {c : CsrInfo} (hc : csrInfo csr.toNat = some c) (hm : ¬(c.m = true ∧ s.me.priv = .U))
    (hro : c.ro = true → w = false) (hdet : csr.toNat = 0xC00 → s.det (s.partOfHart s.cur) = true) :
    csrOut s i rd csr w f =
      writeReg (if w then s.writeCsr csr.toNat (f (s.readCsr csr.toNat)) else s) rd (s.readCsr csr.toNat) := by
  have h1 : ((c.m && s.me.priv == .U) || (c.ro && w)) = false := by
    cases hr : c.ro <;> simp_all
  have h2 : (decide (csr.toNat = 0xC00) && !s.det (s.partOfHart s.cur)) = false := by
    by_cases h : csr.toNat = 0xC00 <;> simp [h, hdet]
  simp only [csrOut, hc, h1, h2, Bool.false_eq_true, if_false]

/-- A number the part lacks, or one of the machine level at U. -/
theorem csrOut_not_there (h : csrInfo csr.toNat = none ∨ ∃ x, csrInfo csr.toNat = some x ∧ x.m = true ∧ s.me.priv = .U) :
    csrOut s i rd csr w f = exec (.illegalInstruction (encode i)) s := by
  obtain h | ⟨x, h, hm, hU⟩ := h
  · simp only [csrOut, h]; rfl
  · simp only [csrOut, h, hm, hU, beq_self_eq_true, Bool.true_and, Bool.true_or, if_true]; rfl

/-- A write of a read-only CSR. -/
theorem csrOut_read_only (h : ∃ x, csrInfo csr.toNat = some x ∧ x.ro = true) (hw : w = true) :
    csrOut s i rd csr w f = exec (.illegalInstruction (encode i)) s := by
  obtain ⟨x, h, hro⟩ := h
  simp only [csrOut, h, hro, hw, Bool.true_and, Bool.or_true, if_true]; rfl

end

/-- Settles O14: the values by the lemmas on each field, the illegal accesses by the guard of `csrOut`. -/
theorem csrRulesResults : Obligations.CsrRulesResults := by
  refine ⟨fun s v => ?_, fun s rd rs1 csr z => ⟨fun h => ?_, fun h => ?_⟩⟩
  · have ht := readCsr_writeCsr_thread s
    refine ⟨ht _ v (by simp), ht _ v (by simp), ht _ v (by simp), ht _ v (by simp), ht _ v (by simp), readCsr_spawnlim s v,
      fun h => ?_, fun h => ?_, readCsr_srseed s v, readCsr_accdecay s v, readCsr_vl s v, ht _ v (by simp), ht _ v (by simp),
      ht _ v (by simp), readCsr_budget_user s v, readCsr_budget_machine s v⟩
    · exact (readCsr_fround s v).trans (if_pos h)
    · exact (readCsr_fround s v).trans (if_neg (Nat.not_le.mpr h))
  · exact ⟨csrOut_not_there h, csrOut_not_there h, csrOut_not_there h, csrOut_not_there h, csrOut_not_there h,
      csrOut_not_there h⟩
  · exact ⟨csrOut_read_only h rfl, csrOut_read_only h rfl,
      fun hr => ⟨csrOut_read_only h (by simpa using hr), csrOut_read_only h (by simpa using hr)⟩,
      fun hz => ⟨csrOut_read_only h (by simpa using hz), csrOut_read_only h (by simpa using hz)⟩⟩

/-! ### A read of cycle (R52, R241, R311) -/

theorem ringRecord_frame (s : State) (site b : Nat) (r : LogRec) :
    { s.ringRecord site b r with firnMem := s.firnMem } = s := by
  unfold State.ringRecord
  split <;> rfl

/-- The log changes a tile's own log and the buddy's bytes alone. -/
theorem logRec_frame (s : State) (site : Nat) (r : LogRec) :
    { s.logRec site r with tiles := s.tiles, firnMem := s.firnMem } = s := by
  simp only [State.logRec]
  split
  · split
    · exact (congrArg (fun u : State => { u with tiles := s.tiles }) (ringRecord_frame s site _ _) :)
    · rfl
  · rfl

theorem logRec_tile_self (s : State) (site : Nat) (r : LogRec) :
    { (s.logRec site r).tile site with
      log := (s.tile site).log, logBytes := (s.tile site).logBytes, logHead := (s.tile site).logHead } = s.tile site := by
  simp only [State.logRec]
  split
  · split
    · rw [show ∀ (u : State) (x : Tile), (u.setTile site x).tile site = x from fun u x => SMap.get_put_self _ _ _ _]
    · rfl
  · rfl

theorem logRec_tile_ne (s : State) {site y : Nat} (r : LogRec) (h : y ≠ site) : (s.logRec site r).tile y = s.tile y := by
  simp only [State.logRec]
  split
  · split
    · exact (SMap.get_put_ne _ _ _ h).trans (congrArg (fun u : State => u.tile y) (ringRecord_frame s site _ _) :)
    · rfl
  · rfl

/-- A log record leaves which partition a tile runs. -/
theorem partOfHart_logRec (s : State) (site h : Nat) (r : LogRec) : (s.logRec site r).partOfHart h = s.partOfHart h := by
  have hf := logRec_frame s site r
  have ht : (s.logRec site r).threads = s.threads := (congrArg State.threads hf :)
  have hp : (s.logRec site r).parts = s.parts := (congrArg State.parts hf :)
  have hrank : ∀ y, ((s.logRec site r).tile y).rank = (s.tile y).rank := fun y => by
    by_cases h : y = site
    · subst h; exact (congrArg Tile.rank (logRec_tile_self s y r) :)
    · rw [logRec_tile_ne s r h]
  simp only [State.partOfHart, State.partOfSite, State.thread, ht, hp, hrank]

theorem wrapN_eq_ofInt (z : Int) : BitVec.ofNat 64 (wrapN 64 z) = BitVec.ofInt 64 z := by
  apply BitVec.eq_of_toNat_eq
  have h := Int.emod_lt_of_pos z (show (0 : Int) < ((2 ^ 64 : Nat) : Int) by norm_num)
  rw [BitVec.toNat_ofNat, BitVec.toNat_ofInt, wrapN, Nat.mod_eq_of_lt (by omega)]

theorem csrOut_cycle {s : State} (rd : Reg) (hdet : s.det (s.partOfHart s.cur) = false)
    (hreplay : (s.tile s.site).replaying = false) (hroom : (s.tile s.site).ringFull = false) :
    exec (.csrrs rd 0xC00 0) s =
      let u := s.log s.site 7 [s.midOf s.cur, BitVec.ofNat 64 s.me.nCycle, s.readCsr 0xC00, 0] none 32
      writeReg (u.setMe { u.me with nCycle := u.me.nCycle + 1 }) rd (s.readCsr 0xC00) := by
  have hinfo : csrInfo (0xC00#12).toNat = some { ro := true, m := false } := by decide
  have hlive : s.replayed 7 s.me.nCycle = .live := by simp [State.replayed, hreplay]
  have hcycle : (decide ((0xC00#12).toNat = 0xC00) && !s.det (s.partOfHart s.cur)) = true := by simp [hdet]
  show execCsrrs rd 0xC00#12 0 s = _
  simp only [execCsrrs, csrOut, hinfo, hcycle, hlive, hroom]
  rfl

/-- Retiring to the next word changes threads and the counts of instructions alone. -/
theorem State.retire_rest (s : State) : { s.retire with threads := s.threads, instrs := s.instrs } = s := rfl

/-- Writing a register to a thread and retiring it, after a change that leaves threads as they were. -/
theorem went_writeReg {s u : State} {m : Thread} (rd : Reg) (v : Word) (hcur : u.cur = s.cur) (hthreads : u.threads = s.threads)
    (hdet : u.det (u.partOfHart u.cur) = s.det (s.partOfHart s.cur)) (hx : m.x = s.me.x) (hpc : m.pc = s.me.pc)
    (hs : m.lpstart = s.me.lpstart) (he : m.lpend = s.me.lpend) (hc : m.lpcount = s.me.lpcount)
    (hb : m.budget = s.me.budget) (hp : m.priv = s.me.priv) (ha : m.act = s.me.act) (hr : m.retired = s.me.retired)
    (hq : m.qret = s.me.qret) :
    ∃ t, writeReg (u.setMe m) rd v = .next t ∧ SetsX s t rd v ∧ (∃ x, Went s t { m with x := x }) ∧
      { t with threads := u.threads, instrs := u.instrs } = u := by
  obtain ⟨x, hwx⟩ := Thread.wx_eq m rd v
  have heq : (u.setMe m).wx rd v = u.setMe { m with x := x } := by
    rw [State.wx, State.me_setMe, State.setMe_setMe, hwx]
  have hwent : Went s (u.setMe { m with x := x }).retire { m with x := x } :=
    Went.of_retire hcur hthreads hdet hpc hs he hc hb hp ha hr hq
  refine ⟨((u.setMe m).wx rd v).retire, rfl, fun r => ?_, ⟨x, by rw [heq]; exact hwent⟩, ?_⟩
  swap
  · rw [heq]
    exact (congrArg (fun z : State => { z with threads := u.threads, instrs := u.instrs })
      (u.setMe { m with x := x }).retire_rest :)
  have hmx : ∀ r, m.rx r = s.rx r := fun r => by rw [State.rx, Thread.rx, Thread.rx, hx]
  rw [State.retire, State.rx_retireTo, State.rx_wx, State.rx, State.me_setMe, hmx]

/-- Settles O13: an allowed access is `csrOut_allowed`; a read of cycle in normal mode logs what it gives. -/
theorem csrInstructionResults : Obligations.CsrInstructionResults := by
  refine ⟨fun s rd rs1 csr z c hc hm hdet => ⟨fun hro => ?_, fun h => ?_, fun h => ?_⟩, fun s rd hdet hreplay hroom => ?_⟩
  · have hw : ∀ {i : Instr} {w : Bool} {f : Word → Word}, exec i s = csrOut s i rd csr w f → w = true →
        Ends i s fun t => ScalarResult (s.writeCsr csr.toNat (f (s.readCsr csr.toNat))) t rd (s.readCsr csr.toNat) := by
      intro i w f hi hwt
      rw [csrOut_allowed hc hm (by simp [hro]) hdet, hwt, if_pos rfl] at hi
      obtain ⟨t, ht, hres⟩ := writeReg_result (s.writeCsr csr.toNat (f (s.readCsr csr.toNat))) rd (s.readCsr csr.toNat)
      exact ⟨t, hi.trans ht, hres⟩
    exact ⟨hw (f := fun _ => s.rx rs1) rfl rfl, hw (f := fun _ => z.setWidth 64) rfl rfl,
      fun hr => ⟨hw (f := fun old => old ||| s.rx rs1) rfl (by simpa using hr),
        hw (f := fun old => old &&& ~~~(s.rx rs1)) rfl (by simpa using hr)⟩,
      fun hz => ⟨hw (f := fun old => old ||| z.setWidth 64) rfl (by simpa using hz),
        hw (f := fun old => old &&& ~~~(z.setWidth 64)) rfl (by simpa using hz)⟩⟩
  · subst h
    exact ⟨Gives.of_writeReg (csrOut_allowed hc hm (fun _ => rfl) hdet), Gives.of_writeReg (csrOut_allowed hc hm (fun _ => rfl) hdet)⟩
  · subst h
    exact ⟨Gives.of_writeReg (csrOut_allowed hc hm (fun _ => rfl) hdet), Gives.of_writeReg (csrOut_allowed hc hm (fun _ => rfl) hdet)⟩
  · have hval : s.readCsr 0xC00 = BitVec.ofInt 64 ((s.regionAt s.site).cycles - (s.tile s.site).cycleBase) := by
      rw [← wrapN_eq_ofInt]
      simp [State.readCsr, State.cycleCsr, hdet]
    let r : LogRec := { typ := 7, qn := 0, body := [s.midOf s.cur, BitVec.ofNat 64 s.me.nCycle, s.readCsr 0xC00, 0],
                        item := none, size := 32 }
    have hf := logRec_frame s s.site r
    have hcur : (s.logRec s.site r).cur = s.cur := (congrArg State.cur hf :)
    have hthreads : (s.logRec s.site r).threads = s.threads := (congrArg State.threads hf :)
    have hme : (s.logRec s.site r).me = s.me := by rw [State.me, State.me, State.thread, State.thread, hcur, hthreads]
    have hd : (s.logRec s.site r).det ((s.logRec s.site r).partOfHart (s.logRec s.site r).cur) = s.det (s.partOfHart s.cur) := by
      rw [hcur, partOfHart_logRec]
      exact (congrArg (fun u : State => u.det (s.partOfHart s.cur)) hf :)
    obtain ⟨t, ht, hset, ⟨x, hwent⟩, hrest⟩ := went_writeReg (m := { s.me with nCycle := s.me.nCycle + 1 }) rd
      (s.readCsr 0xC00) hcur hthreads hd rfl rfl rfl rfl rfl rfl rfl rfl rfl rfl
    have htiles : ∀ y, t.tile y = (s.logRec s.site r).tile y := fun y => (congrArg (fun u : State => u.tile y) hrest :)
    refine ⟨t, ?_, hval ▸ hset, ⟨?_, ?_, fun y hy => ?_⟩, ?_, x, hwent⟩
    · rw [csrOut_cycle rd hdet hreplay hroom, ← ht]
      exact congrArg (fun m : Thread => writeReg ((s.logRec s.site r).setMe { m with nCycle := m.nCycle + 1 }) rd
        (s.readCsr 0xC00)) hme
    · exact (congrArg (fun u : State => { u with threads := s.threads, instrs := s.instrs, tiles := s.tiles,
                                                 firnMem := s.firnMem, full := s.full }) hrest).trans
          (congrArg (fun u : State => { u with threads := s.threads, instrs := s.instrs, full := s.full }) hf :)
    · rw [htiles]; exact logRec_tile_self s s.site r
    · rw [htiles]; exact logRec_tile_ne s r hy
    · exact (congrArg State.full hrest).trans (congrArg State.full hf :)

end Sys2Proof.Machine
end

section
/-!
PROOFS. Event records, error reports and the end of an activation (spec/11_traps.md R223, R224, R390, spec/15_scalar.md R312).
-/

namespace Sys2Proof.Machine

/-! ### Memory below the host's -/

/-- Memory stays in its canonical form, and every byte below the host's memory stays as it is. -/
def HostOnly (m m' : List Host.Cell) : Prop :=
  Memory.wf m = true → Memory.wf m' = true ∧ ∀ k, k < 2 ^ 64 → Memory.read m' k = Memory.read m k

theorem HostOnly.refl (m : List Host.Cell) : HostOnly m m := fun hw => ⟨hw, fun _ _ => rfl⟩

theorem HostOnly.trans {m m' m'' : List Host.Cell} (h : HostOnly m m') (g : HostOnly m' m'') : HostOnly m m'' := fun hw =>
  ⟨(g (h hw).1).1, fun k hk => ((g (h hw).1).2 k hk).trans ((h hw).2 k hk)⟩

theorem HostOnly.writeN (m : List Host.Cell) {k : Nat} (bs : List Byte) (hk : 2 ^ 64 ≤ k) : HostOnly m (Memory.writeN m k bs) :=
  fun hw => ⟨Memory.wf_writeN k bs hw, fun _ ha => Memory.read_writeN_out hw _ _ _ (.inl (lt_of_lt_of_le ha hk))⟩

theorem le_kHost (a : Nat) : 2 ^ 64 ≤ kHost a := Nat.le_add_right _ _

/-! ### What records and reports change -/

theorem countSent_frame (s : State) (site job n : Nat) :
    ∃ tiles homes, s.countSent site job n = { s with tiles := tiles, homes := homes } := by
  unfold State.countSent
  split
  · exact ⟨_, _, rfl⟩
  · split
    · exact ⟨_, _, rfl⟩
    · exact ⟨s.tiles, s.homes, rfl⟩

theorem countRecv_frame (s : State) (site job n : Nat) :
    ∃ tiles homes, s.countRecv site job n = { s with tiles := tiles, homes := homes } := by
  unfold State.countRecv
  split
  · exact ⟨_, _, rfl⟩
  · split
    · exact ⟨_, _, rfl⟩
    · exact ⟨s.tiles, s.homes, rfl⟩

/-- An event record goes to the host's memory. -/
theorem ringWrite_frame (s : State) (r : EventRing) (b : List Byte) :
    ∃ r' mem dirty poison outs, HostOnly s.mem mem ∧
      s.ringWrite r b = (r', { s with mem := mem, dirty := dirty, poison := poison, outs := outs }) := by
  unfold State.ringWrite
  extract_lets base
  have hb : 2 ^ 64 ≤ base := le_kHost r.base
  clear_value base
  split
  · exact ⟨_, _, _, _, _, HostOnly.writeN _ _ (by omega), rfl⟩
  · exact ⟨_, _, _, _, _, (HostOnly.writeN s.mem b (k := base + (64 + 32 * (r.count % 2 ^ r.sizelog))) (by omega)).trans
      (HostOnly.writeN _ (bytesOf 8 (r.count + 1)) hb), rfl⟩

theorem record_frame (s : State) (p : Nat) (b : List Byte) :
    ∃ mem dirty poison outs ring0 ev0Seq parts, HostOnly s.mem mem ∧ s.record p b =
      { s with mem := mem, dirty := dirty, poison := poison, outs := outs, ring0 := ring0, ev0Seq := ev0Seq, parts := parts } := by
  choose r' mem dirty poison outs hmem h using ringWrite_frame s
  unfold State.record
  rw [funext₂ h]
  split
  · cases s.ring0 with
    | some r => exact ⟨_, _, _, _, _, _, _, hmem _ _, rfl⟩
    | none => exact ⟨_, _, _, _, _, _, _, HostOnly.refl _, rfl⟩
  · cases (s.part p).ring with
    | some r => exact ⟨_, _, _, _, _, _, _, hmem _ _, rfl⟩
    | none => exact ⟨_, _, _, _, _, _, _, HostOnly.refl _, rfl⟩

/-- An error report is a message on its way or an event record, and a count. -/
theorem report_frame (s : State) (site : Nat) (r : Report) :
    ∃ mem dirty poison outs ring0 ev0Seq parts tiles homes net ordCtr, HostOnly s.mem mem ∧ s.report site r =
      { s with mem := mem, dirty := dirty, poison := poison, outs := outs, ring0 := ring0, ev0Seq := ev0Seq, parts := parts,
               tiles := tiles, homes := homes, net := net, ordCtr := ordCtr } := by
  obtain ⟨tiles, homes, hsent⟩ := countSent_frame s site r.job 1
  unfold State.report
  rw [hsent]
  extract_lets u core
  clear_value core
  cases core with
  | some c => exact ⟨_, _, _, _, _, _, _, _, _, _, _, HostOnly.refl _, rfl⟩
  | none =>
    obtain ⟨_, _, _, _, _, _, _, hmem, hrec⟩ := record_frame u r.part (bytesOf 2 5 ++ bytesOf 2 r.cause ++ bytesOf 4 r.part ++
      bytesOf 8 r.mid.toNat ++ bytesOf 2 r.job ++ bytesOf 6 0)
    obtain ⟨_, _, hrecv⟩ := countRecv_frame (u.record5 r.part r.cause r.job r.mid) site r.job 1
    rw [hrecv, State.record5, hrec]
    exact ⟨_, _, _, _, _, _, _, _, _, _, _, hmem, rfl⟩

/-! ### The end of an activation (R223, R224) -/

theorem abort_none {s : State} {h : Nat} (cause : Nat) (a : Word) (hact : (s.thread h).act = none) : s.abort h cause a = s := by
  simp only [State.abort, hact]

/-- A spawn whose answer is outstanding uses its number up. -/
def State.spentSpawn (s : State) (h : Nat) : State :=
  if (s.thread h).status == .blocked .spawn then s.setThread h { s.thread h with seq := (s.thread h).seq + 1 } else s

/-- What an abort leaves before the report: the slot free, the message's channel closed to it. -/
def State.closedFor (s : State) (h : Nat) (act : Activation) : State :=
  let u := (s.spentSpawn h).freeThread h
  let c := u.core (coreOf h)
  match act.origin with
  | .msg m => u.setCore (coreOf h) { (c.setChan act.chan ((c.chan act.chan).unmark m.arr)) with
      handlers := vset c.handlers act.chan { c.handler act.chan with en := false } }
  | .frame _ => u

/-- An abort is that, without the items that the activation no longer waits for, and a report. -/
theorem abort_some {s : State} {h : Nat} {act : Activation} (cause : Nat) (a : Word) (hact : (s.thread h).act = some act) :
    ∃ net site r, s.abort h cause a = { s.closedFor h act with net := net }.report site r := by
  unfold State.abort
  extract_lets t
  rw [show t.act = some act from hact]
  exact ⟨_, _, _, rfl⟩

theorem spentSpawn_mem (s : State) (h : Nat) : (s.spentSpawn h).mem = s.mem := by
  unfold State.spentSpawn
  split <;> rfl

theorem closedFor_mem (s : State) (h : Nat) (act : Activation) : (s.closedFor h act).mem = s.mem := by
  rw [← spentSpawn_mem s h, State.closedFor]
  generalize s.spentSpawn h = u
  cases act.origin <;> rfl

theorem closedFor_thread (s : State) (h : Nat) (act : Activation) :
    ((s.closedFor h act).thread h).act = none ∧ ((s.closedFor h act).thread h).status = .free ∧
      ((s.closedFor h act).thread h).held = [] := by
  have hfree : ∀ u : State, (u.freeThread h).thread h = (u.thread h).release u.freeCtr := fun u => SMap.get_put_self _ _ _ _
  have hthread : (s.closedFor h act).thread h = ((s.spentSpawn h).freeThread h).thread h := by
    rw [State.closedFor]
    generalize s.spentSpawn h = u
    cases act.origin <;> rfl
  rw [hthread, hfree]
  exact ⟨rfl, rfl, rfl⟩

theorem handler_vset (c : Core) {k : Nat} (hk : k < 16) (x : Handler) :
    Core.handler { c with handlers := vset c.handlers k x } k = x := by
  rw [Core.handler, vget_vset, if_pos ⟨rfl, hk⟩]

theorem closedFor_handler (s : State) (h : Nat) (act : Activation) {m : Msg} (hm : act.origin = .msg m) (hk : act.chan < 16) :
    (((s.closedFor h act).core (coreOf h)).handler act.chan).en = false := by
  have hc : ∀ (u : State) (x : Core), (u.setCore (coreOf h) x).core (coreOf h) = x := fun u x => SMap.get_put_self _ _ _ _
  simp only [State.closedFor, hm, hc]
  exact congrArg Handler.en (handler_vset _ hk _)

theorem abort_spec {s : State} {h : Nat} {act : Activation} (cause : Nat) (a : Word) (hact : (s.thread h).act = some act)
    (hw : MemWf s) :
    let t := s.abort h cause a
    (t.thread h).act = none ∧ (t.thread h).status = .free ∧ (t.thread h).held = [] ∧
      (∀ k, Memory.read t.mem k = Memory.read s.mem k ∨ 2 ^ 64 ≤ k) ∧
      (∀ m, act.origin = .msg m → act.chan < 16 → ((t.core (coreOf h)).handler act.chan).en = false) := by
  obtain ⟨net, site, r, ht⟩ := abort_some cause a hact
  obtain ⟨_, _, _, _, _, _, _, _, _, _, _, hhost, hframe⟩ := report_frame { s.closedFor h act with net := net } site r
  have hhost := hhost (show Memory.wf (s.closedFor h act).mem = true from closedFor_mem s h act ▸ hw)
  obtain ⟨ha, hs, hh⟩ := closedFor_thread s h act
  have hthread : (s.abort h cause a).thread h = (s.closedFor h act).thread h := by
    rw [ht, hframe]; rfl
  have hcore : (s.abort h cause a).core (coreOf h) = (s.closedFor h act).core (coreOf h) := by
    rw [ht, hframe]; rfl
  refine ⟨hthread ▸ ha, hthread ▸ hs, hthread ▸ hh, fun k => ?_, fun m hm hk => hcore ▸ closedFor_handler s h act hm hk⟩
  rw [ht, hframe, ← closedFor_mem s h act]
  rcases Nat.lt_or_ge k (2 ^ 64) with hk | hk
  · exact .inl (hhost.2 k hk)
  · exact .inr hk

/-! ### ECALL, EBREAK and a word that is no instruction (R268, R312) -/

theorem exec_ecall (s : State) : exec .ecall s = .next (s.raise 21 .other s.me.pc 0) := rfl

theorem exec_ebreak (s : State) : exec .ebreak s = .next (s.raise 22 .other s.me.pc 0) := rfl

theorem exec_illegalInstruction (s : State) (w : BitVec 32) :
    exec (.illegalInstruction w) s = .next (s.raise 1 .other 0 (w.setWidth 64)) := rfl

theorem raise_eq (s : State) (cause : Nat) (at_ : Site) (a val : Word) : s.raise cause at_ a val =
    match s.me.priv with
    | .M => s.setMe (s.me.trap cause at_ val)
    | .U => s.abort s.cur cause a := by
  unfold State.raise
  cases s.me.priv <;> rfl

theorem raise_no_activation {s : State} (cause : Nat) (at_ : Site) (a val : Word) (hU : s.me.priv = .U)
    (hact : s.me.act = none) : s.raise cause at_ a val = s := by
  rw [raise_eq, hU]
  exact abort_none cause a hact

/-- Settles O11: at M the exception is the trap of `Thread.trap`, at U the abort of `abort_spec`. -/
theorem trapAndAbortResults : Obligations.TrapAndAbortResults := by
  refine ⟨fun s w => ⟨?_, ?_, ?_, fun hU hact => ⟨?_, ?_, ?_⟩⟩, ?_, ?_⟩
  · exact congrArg Host.Outcome.next (raise_eq s _ _ _ _)
  · exact congrArg Host.Outcome.next (raise_eq s _ _ _ _)
  · exact congrArg Host.Outcome.next (raise_eq s _ _ _ _)
  · rw [exec_ecall, raise_no_activation _ _ _ _ hU hact]
  · rw [exec_ebreak, raise_no_activation _ _ _ _ hU hact]
  · rw [exec_illegalInstruction, raise_no_activation _ _ _ _ hU hact]
  · intro s w trapped hM
    exact ⟨Ends.raise_machine hM (exec_ecall s), Ends.raise_machine hM (exec_ebreak s),
      Ends.raise_machine hM (exec_illegalInstruction s w)⟩
  · intro s w a aborted hU hact hk hw
    have hends : ∀ {i : Instr} {cause : Nat} {addr val : Word}, exec i s = .next (s.raise cause .other addr val) →
        Ends i s aborted := by
      intro i cause addr val hi
      obtain ⟨h1, h2, h3, h4, h5⟩ := abort_spec cause addr hact hw
      refine ⟨s.abort s.cur cause addr, ?_, h1, h2, h3, h4, fun m hm => h5 m hm hk⟩
      rw [hi, raise_eq, hU]
    exact ⟨hends (exec_ecall s), hends (exec_ebreak s), hends (exec_illegalInstruction s w)⟩

end Sys2Proof.Machine
end

section
/-!
PROOFS. Words written out, reset, and the step of a core's issue turn (spec/14_encoding.md, spec/06_scheduler.md R118,
spec/07_execution.md R133).
-/

namespace Sys2Proof.Machine

/-- Settles O55: each word by evaluation of the decoder. -/
theorem decodeWords : Obligations.DecodeWords := by
  refine ⟨by decide, by decide, by decide, by decide, by decide, by decide, by decide, fun i h => ?_, fun i h => ?_⟩
  · have hnone : (decodeWord 0x00000000#32).toOption = none := by decide
    rw [h] at hnone
    exact absurd hnone (by simp [Except.toOption])
  · have hnone : (decodeWord 0xFFFFFFFF#32).toOption = none := by decide
    rw [h] at hnone
    exact absurd hnone (by simp [Except.toOption])

/-! ### Reset -/

/-- An element of a constant vector, or the same default, is that constant. -/
theorem vget_replicate {α : Type} (n : Nat) (d : α) (i : Nat) : vget d (Vector.replicate n d) i = d := by
  unfold vget
  split <;> simp

/-- Settles O57: every record of the reset state is the initial one. -/
theorem resetState : Obligations.ResetState := by
  have hreg : ∀ r, State.reset.reg r = Region.init := fun r => vget_replicate 16 Region.init r
  refine ⟨rfl, fun _ => rfl, rfl, rfl, rfl, rfl, fun r => ?_, fun fn q => ⟨rfl, rfl, rfl, ?_⟩, fun k => ?_,
    fun c => ⟨rfl, rfl, fun k => ?_⟩, fun h => ⟨rfl, rfl, rfl, rfl⟩, fun v => vget_replicate 16 none v⟩
  · rw [hreg]
    exact ⟨rfl, rfl, rfl⟩
  · have hqueue : State.reset.queue fn q = QRegs.init := rfl
    have htaken : State.reset.taken = [] := rfl
    simp only [State.statWord, hqueue, htaken, List.any_nil]
    decide
  · have hport : State.reset.port k = Port.init := vget_replicate 64 Port.init k
    rw [hport]
    rfl
  · have hhandler : (State.reset.core c).handler k = Handler.init := vget_replicate 16 Handler.init k
    rw [hhandler]
    rfl

/-! ### An issue turn of a core (R118) -/

theorem mem_append_cons_self {α : Type} (l : List α) (h : α) (r : List α) : h ∈ l ++ h :: r :=
  List.mem_append_right l (List.mem_cons_self)

/-- Threads that hold no multi-turn instruction and cannot issue are passed over. -/
theorem issueFrom_skip (s : State) (l : List Nat) (r : List Nat) (hl : ∀ x ∈ l, (s.thread x).hold = 0 ∧ s.canIssue x = false) :
    s.issueFrom (l ++ r) = s.issueFrom r := by
  induction l with
  | nil => rfl
  | cons x l ih =>
    obtain ⟨hhold, hissue⟩ := hl x List.mem_cons_self
    rw [List.cons_append, State.issueFrom, if_neg (by simp [hhold]), if_pos (by simp [hissue])]
    exact ih fun y hy => hl y (List.mem_cons_of_mem x hy)

/-- The turn of a thread that runs and can issue is what its instruction does. -/
theorem issueFrom_runs {s t : State} {h : Nat} (r : List Nat) (hhold : (s.thread h).hold = 0) (hissue : s.canIssue h = true)
    (hstatus : (s.thread h).status = .running) (ht : s.runThread h = .next t) : s.issueFrom (h :: r) = .next (t.settle h) := by
  rw [State.issueFrom, if_neg (by simp [hhold]), if_neg (by simp [hissue]), ht]
  simp [State.stillWaits, hstatus]

theorem issueFrom_held {s : State} {g : Nat} (r : List Nat) (hhold : (s.thread g).hold ≠ 0) :
    s.issueFrom (g :: r) = (s.passTurn g).issueFrom r := by
  rw [State.issueFrom, if_pos hhold]

/-- A step of a powered part with an empty agenda whose core has a candidate is an issue turn of that core. -/
theorem step_of_issue {s t : State} {h : Nat} (hpower : s.powered = true) (hagenda : s.agenda = [])
    (hcand : s.isCandidate h = true) (hmem : h ∈ s.issueOrder (coreOf s.cur))
    (ht : s.issueFrom (s.issueOrder (coreOf s.cur)) = .next t) : step s = .next t.settled := by
  have hsome : (s.candidate (coreOf s.cur)).isSome = true := by
    rw [State.candidate, List.find?_isSome]
    exact ⟨h, hmem, hcand⟩
  rw [step, hpower, Bool.true_or, if_pos rfl, State.run, State.nextTurn, hagenda]
  simp only [hsome, if_true, State.issue, ht]

/-- A step with a turn of the agenda is that turn. -/
theorem step_of_event {s t : State} {i : Instr} {rest : List Turn} (hpower : s.powered = true)
    (hagenda : s.agenda = .event i :: rest) (hi : Instr.isStep i = true) (ht : exec i { s with agenda := rest } = .next t) :
    step s = .next t.settled := by
  rw [step, hpower, Bool.true_or, if_pos rfl, State.run, State.nextTurn, hagenda]
  simp only [State.turn, hi, if_true, ht]

/-! ### What a thread runs in its turn (R133, R140, R175, R268) -/

/-- Four bytes, put together as the decoder does, are their little-endian number. -/
theorem append_eq_ofBytes (a b c d : Byte) : (d ++ c ++ b ++ a : BitVec 32) = BitVec.ofNat 32 (ofBytes [a, b, c, d]) := by
  apply BitVec.eq_of_toNat_eq
  have ha := a.isLt; have hb := b.isLt; have hc := c.isLt; have hd := d.isLt
  simp only [BitVec.toNat_append, BitVec.toNat_ofNat, ofBytes, Nat.shiftLeft_eq]
  rw [← Nat.shiftLeft_eq, ← Nat.shiftLeft_eq, ← Nat.shiftLeft_eq, ← Nat.shiftLeft_add_eq_or_of_lt hc, ← Nat.shiftLeft_add_eq_or_of_lt hb,
    ← Nat.shiftLeft_add_eq_or_of_lt ha]
  simp only [Nat.shiftLeft_eq]
  omega

section
variable {s : State} {k : Nat} {w : BitVec 32} (hw : w = BitVec.ofNat 32 (ofBytes (s.bytes k 4)))
include hw

/-- The decoder reads the bytes at a location as the word they are. -/
theorem decodeBytes_ok {i : Instr} (h : decodeWord w = .ok i) : decodeBytes (s.fetchWord k) = .ok (i, []) := by
  subst hw
  have hb : s.bytes k 4 = [Memory.read s.mem k, Memory.read s.mem (k + 1), Memory.read s.mem (k + 1 + 1),
    Memory.read s.mem (k + 1 + 1 + 1)] := rfl
  rw [hb, ← append_eq_ofBytes] at h
  rw [State.fetchWord, hb, decodeBytes, h]

theorem decodeBytes_error {e : Reject} (h : decodeWord w = .error e) : decodeBytes (s.fetchWord k) = .error e := by
  subst hw
  have hb : s.bytes k 4 = [Memory.read s.mem k, Memory.read s.mem (k + 1), Memory.read s.mem (k + 1 + 1),
    Memory.read s.mem (k + 1 + 1 + 1)] := rfl
  rw [hb, ← append_eq_ofBytes] at h
  rw [State.fetchWord, hb, decodeBytes, h]

end

section
variable {v : State} {h : Nat} (hdue : (v.issueAs h).me.overdue = false)
include hdue

theorem runThread_no_fetch (hk : (v.issueAs h).fetchKey h = none) :
    v.runThread h = .next ((v.issueAs h).raise 2 .fetch (v.issueAs h).me.pc (v.issueAs h).me.pc) := by
  rw [State.runThread]
  simp only [hdue, hk]
  rfl

variable {k : Nat} (hk : (v.issueAs h).fetchKey h = some k)
include hk

theorem runThread_decoded {i : Instr} (hdec : decodeBytes ((v.issueAs h).fetchWord k) = .ok (i, []))
    (hmay : (v.issueAs h).mayRun i = true) : v.runThread h = execHeld i h (v.issueAs h) := by
  rw [State.runThread]
  simp only [hdue, hk, hdec, hmay]
  rfl

theorem runThread_barred {i : Instr} (hdec : decodeBytes ((v.issueAs h).fetchWord k) = .ok (i, []))
    (hmay : (v.issueAs h).mayRun i = false) : v.runThread h = .next ((v.issueAs h).raise 5 .other 0 0) := by
  rw [State.runThread]
  simp only [hdue, hk, hdec, hmay]
  rfl

theorem runThread_illegal {e : Reject} (hdec : decodeBytes ((v.issueAs h).fetchWord k) = .error e) :
    v.runThread h = .next ((v.issueAs h).raise 1 .other 0
      ((BitVec.ofNat 32 (ofBytes ((v.issueAs h).fetchWord k))).setWidth 64)) := by
  rw [State.runThread]
  simp only [hdue, hk, hdec]
  rfl

end

theorem execHeld_next {i : Instr} {h : Nat} {u t : State} (ht : exec i u = .next t) :
    execHeld i h u = .next (if Instr.holdTurns i = 0 then t else t.setThread h { t.thread h with hold := Instr.holdTurns i }) := by
  rw [execHeld, ht]
  rfl

/-- What O58 says of the turn of a thread `h` that is next in a core's order, where `turn` says that the step is that turn. -/
theorem turn_of_thread {s v : State} {h : Nat} (turn : ∀ t, v.runThread h = .next t → step s = .next (t.settle h).settled)
    {k : Nat} {w : BitVec 32} {i : Instr} :
    let u := v.issueAs h
    let after (x : State) : State := (x.settle h).settled
    u.me.overdue = false →
    (u.fetchKey h = none → step s = .next (after (u.raise 2 .fetch u.me.pc u.me.pc))) ∧
    (u.fetchKey h = some k → w = BitVec.ofNat 32 (ofBytes (u.bytes k 4)) →
      (decodeWord w = .ok i → u.mayRun i = true → ∀ t, exec i u = .next t → step s = .next (after
        (if Instr.holdTurns i = 0 then t else t.setThread h { t.thread h with hold := Instr.holdTurns i }))) ∧
      (decodeWord w = .ok i → u.mayRun i = false → step s = .next (after (u.raise 5 .other 0 0))) ∧
      ((∀ j, decodeWord w ≠ .ok j) → step s = .next (after (u.raise 1 .other 0 (w.setWidth 64))))) := by
  intro u after hdue
  refine ⟨fun hk => turn _ (runThread_no_fetch hdue hk), fun hk hw => ⟨fun hdec hmay t ht => ?_, fun hdec hmay => ?_, fun hno => ?_⟩⟩
  · exact turn _ ((runThread_decoded hdue hk (decodeBytes_ok hw hdec) hmay).trans (execHeld_next ht))
  · exact turn _ (runThread_barred hdue hk (decodeBytes_ok hw hdec) hmay)
  · cases hdec : decodeWord w with
    | ok j => exact absurd hdec (hno j)
    | error e =>
      have hrun := runThread_illegal hdue hk (decodeBytes_error hw hdec)
      rw [show BitVec.ofNat 32 (ofBytes ((v.issueAs h).fetchWord k)) = w from hw.symm] at hrun
      exact turn _ hrun

theorem thread_passTurn_ne (s : State) {g h : Nat} (hne : h ≠ g) : (s.passTurn g).thread h = s.thread h :=
  SMap.get_put_ne _ _ _ hne

theorem issueOrder_nodup (s : State) (core : Nat) : (s.issueOrder core).Nodup := by
  refine List.Nodup.map_on (fun a ha b hb hab => ?_) List.nodup_range
  rw [List.mem_range] at ha hb
  omega

/-- Settles O58: a core's turn passes over the threads that do not issue and runs the next one that does. -/
theorem stepRunsDecoded : Obligations.StepRunsDecoded := by
  intro s h g k w i rest l r order idle held runs hpower
  have hheld : held = Instr.holdTurns := by
    funext i
    cases i <;> rfl
  refine ⟨fun hagenda hcand => ?_, fun hagenda hi t ht => step_of_event hpower hagenda hi ht⟩
  obtain ⟨⟨hissue, hrun⟩, hhold⟩ : (s.canIssue h = true ∧ (s.thread h).status = .running) ∧ (s.thread h).hold = 0 := by
    simpa [State.isCandidate] using hcand
  refine ⟨fun horder hidle => ?_, fun horder hg hissue' => ?_⟩
  · have horder' : s.issueOrder (coreOf s.cur) = l ++ h :: r := horder
    have turn : ∀ t, s.runThread h = .next t → step s = .next (t.settle h).settled := fun t ht => by
      refine step_of_issue hpower hagenda hcand (by rw [horder']; exact mem_append_cons_self l h r) ?_
      rw [horder', issueFrom_skip s l _ hidle]
      exact issueFrom_runs r hhold hissue hrun ht
    simp only [runs, hheld]
    exact turn_of_thread turn
  · have horder' : s.issueOrder (coreOf s.cur) = g :: h :: r := horder
    have hne : h ≠ g := by
      have hnodup := issueOrder_nodup s (coreOf s.cur)
      rw [horder'] at hnodup
      rintro rfl
      simp at hnodup
    have turn : ∀ t, (s.passTurn g).runThread h = .next t → step s = .next (t.settle h).settled := fun t ht => by
      refine step_of_issue hpower hagenda hcand (by rw [horder']; exact List.mem_cons_of_mem g List.mem_cons_self) ?_
      rw [horder', issueFrom_held _ hg]
      exact issueFrom_runs r (by rw [thread_passTurn_ne s hne]; exact hhold) hissue' (by rw [thread_passTurn_ne s hne]; exact hrun) ht
    simp only [runs, hheld]
    exact turn_of_thread turn

end Sys2Proof.Machine
end

section
/-!
PROOFS. Loads and stores (spec/15_scalar.md R295, R296, spec/09_memory.md R173, R189): local accesses, items for the home, and the
errors of a bad address at M.
-/

namespace Sys2Proof.Machine

/-! ### Numbers of a few bytes -/

/-- A number of one more byte, as the bit pattern with the further byte below. -/
theorem ofBytes_cons {m : Nat} {l : List Byte} {x : BitVec m} (b : Byte) (hx : ofBytes l = x.toNat) :
    ofBytes (b :: l) = (x ++ b).toNat := by
  rw [ofBytes, hx, BitVec.toNat_append, ← Nat.shiftLeft_add_eq_or_of_lt b.isLt, Nat.shiftLeft_eq]
  ring

section
variable (b0 b1 b2 b3 b4 b5 b6 b7 : Byte)

theorem ofBytes_one : ofBytes [b0] = b0.toNat := by simp [ofBytes]

theorem ofBytes_two : ofBytes [b0, b1] = (b1 ++ b0 : BitVec 16).toNat := ofBytes_cons b0 (ofBytes_one b1)

theorem ofBytes_four : ofBytes [b0, b1, b2, b3] = (b3 ++ b2 ++ b1 ++ b0 : BitVec 32).toNat :=
  ofBytes_cons b0 (ofBytes_cons b1 (ofBytes_two b2 b3))

theorem ofBytes_eight : ofBytes [b0, b1, b2, b3, b4, b5, b6, b7] =
    (b7 ++ b6 ++ b5 ++ b4 ++ b3 ++ b2 ++ b1 ++ b0 : BitVec 64).toNat :=
  ofBytes_cons b0 (ofBytes_cons b1 (ofBytes_cons b2 (ofBytes_cons b3 (ofBytes_four b4 b5 b6 b7))))

end

/-! ### What the loads and stores are -/

section
variable (s : State) (rd rs1 rs2 : Reg) (imm : BitVec 12)

theorem exec_lb : exec (.lb rd rs1 imm) s =
    loadThen s (baseAddr s rs1 imm) 1 fun bs s => writeReg s rd (sext 8 (ofBytes bs)) := rfl

theorem exec_lh : exec (.lh rd rs1 imm) s =
    loadThen s (baseAddr s rs1 imm) 2 fun bs s => writeReg s rd (sext 16 (ofBytes bs)) := rfl

theorem exec_lw : exec (.lw rd rs1 imm) s =
    loadThen s (baseAddr s rs1 imm) 4 fun bs s => writeReg s rd (sext 32 (ofBytes bs)) := rfl

theorem exec_ld : exec (.ld rd rs1 imm) s =
    loadThen s (baseAddr s rs1 imm) 8 fun bs s => writeReg s rd (zext 64 (ofBytes bs)) := rfl

theorem exec_lbu : exec (.lbu rd rs1 imm) s =
    loadThen s (baseAddr s rs1 imm) 1 fun bs s => writeReg s rd (zext 8 (ofBytes bs)) := rfl

theorem exec_lhu : exec (.lhu rd rs1 imm) s =
    loadThen s (baseAddr s rs1 imm) 2 fun bs s => writeReg s rd (zext 16 (ofBytes bs)) := rfl

theorem exec_lwu : exec (.lwu rd rs1 imm) s =
    loadThen s (baseAddr s rs1 imm) 4 fun bs s => writeReg s rd (zext 32 (ofBytes bs)) := rfl

theorem exec_sb : exec (.sb rs2 rs1 imm) s = storeOut s (baseAddr s rs1 imm) (bytesOf 1 (s.rx rs2).toNat) := rfl

theorem exec_sh : exec (.sh rs2 rs1 imm) s = storeOut s (baseAddr s rs1 imm) (bytesOf 2 (s.rx rs2).toNat) := rfl

theorem exec_sw : exec (.sw rs2 rs1 imm) s = storeOut s (baseAddr s rs1 imm) (bytesOf 4 (s.rx rs2).toNat) := rfl

theorem exec_sd : exec (.sd rs2 rs1 imm) s = storeOut s (baseAddr s rs1 imm) (bytesOf 8 (s.rx rs2).toNat) := rfl

end

section
variable (s : State) (o : Order) (c : Scope) (dbl : Bool) (rd rs1 : Reg) (r4 : BitVec 4)

theorem exec_amoadd : exec (.amoadd o c dbl rd r4 rs1) s = amoOut s .add o dbl rd r4 rs1 := rfl
theorem exec_amoand : exec (.amoand o c dbl rd r4 rs1) s = amoOut s .and o dbl rd r4 rs1 := rfl
theorem exec_amoor : exec (.amoor o c dbl rd r4 rs1) s = amoOut s .or o dbl rd r4 rs1 := rfl
theorem exec_amoxor : exec (.amoxor o c dbl rd r4 rs1) s = amoOut s .xor o dbl rd r4 rs1 := rfl
theorem exec_amomin : exec (.amomin o c dbl rd r4 rs1) s = amoOut s .min o dbl rd r4 rs1 := rfl
theorem exec_amomax : exec (.amomax o c dbl rd r4 rs1) s = amoOut s .max o dbl rd r4 rs1 := rfl
theorem exec_amominu : exec (.amominu o c dbl rd r4 rs1) s = amoOut s .minu o dbl rd r4 rs1 := rfl
theorem exec_amomaxu : exec (.amomaxu o c dbl rd r4 rs1) s = amoOut s .maxu o dbl rd r4 rs1 := rfl
theorem exec_amoswap : exec (.amoswap o c dbl rd r4 rs1) s = amoOut s .swap o dbl rd r4 rs1 := rfl
theorem exec_amocas : exec (.amocas o c dbl rd r4 rs1) s = amoOut s .cas o dbl rd r4 rs1 := rfl
theorem exec_amofadd : exec (.amofadd o c dbl rd r4 rs1) s = amoOut s .fadd o dbl rd r4 rs1 := rfl
theorem exec_ldf : exec (.ldf rd rs1) s = ldfOut s rd rs1 .ldf .read := rfl
theorem exec_ldfe : exec (.ldfe rd rs1) s = ldfOut s rd rs1 .ldfe .write := rfl

end

/-! ### Errors of an address at M (R296, R390) -/

/-- What an error of an access leaves at M: the trap registers name it, and memory, registers and items stay. -/
def AccessTrap (s : State) (a cause code : Nat) (t : State) : Prop :=
  t.me.pc = s.me.mtvec &&& ~~~3#64 ∧ t.me.mepc = s.me.pc &&& ~~~3#64 ∧ t.me.mcause = BitVec.ofNat 64 (cause * 256 + code) ∧
    t.me.mtval = BitVec.ofNat 64 a ∧ t.me.x = s.me.x ∧ t.me.priv = .M ∧ t.mem = s.mem ∧ t.net = s.net

theorem raiseOut_accessTrap {i : Instr} {s : State} {cause : Nat} {at_ : Site} {a : Nat} (hM : s.me.priv = .M)
    (hcause : cause ≠ 7 ∧ cause ≠ 12) (hat : at_ = .load ∨ at_ = .store)
    (h : exec i s = raiseOut s cause at_ (BitVec.ofNat 64 a)) : Ends i s (AccessTrap s a cause (mcauseCode cause at_)) := by
  refine ⟨s.setMe (s.me.trap cause at_ (BitVec.ofNat 64 a)), ?_, ?_⟩
  · rw [h, raiseOut_machine s cause at_ _ hM, errAddr_of_ne _ hcause]
    obtain rfl | rfl := hat <;> rfl
  · rw [AccessTrap, State.me_setMe]
    exact ⟨rfl, rfl, rfl, rfl, rfl, hM, rfl, rfl⟩

theorem routeOf_denied {a : Nat} (h : 2 ^ 56 ≤ a) : routeOf a = .denied := by
  have : a / 2 ^ 56 ≠ 0 := Nat.ne_of_gt (Nat.div_pos h (by decide))
  rw [routeOf, if_pos this]

section
variable {s : State} {a n : Nat}

theorem loadThen_misaligned (f : List Byte → State → Out) (hr : s.me.resp = none) (ht : routeOf a = .translated) (hn : a % n ≠ 0) :
    loadThen s a n f = raiseOut s 13 .load (BitVec.ofNat 64 a) := by
  simp [loadThen, hr, ht, hn]

theorem loadThen_denied (f : List Byte → State → Out) (hr : s.me.resp = none) (ha : 2 ^ 56 ≤ a) :
    loadThen s a n f = raiseOut s 2 .load (BitVec.ofNat 64 a) := by
  simp [loadThen, hr, routeOf_denied ha]

theorem loadThen_translated (f : List Byte → State → Out) (hr : s.me.resp = none) (ht : routeOf a = .translated)
    (hn : a % n = 0) : loadThen s a n f = .next (s.ask (.read [(a, n)]) false) := by
  simp [loadThen, hr, ht, hn]

/-- A store to a translated address does not wait at its issuer. -/
theorem storeWaits_of_route (hl : routeOf a ≠ .localWin) : s.storeWaits a n = false := by
  have h : (routeOf a == Route.localWin) = false := by simpa using hl
  rw [State.storeWaits, h, Bool.false_and]

variable {bs : List Byte}

theorem storeOut_misaligned (ht : routeOf a = .translated) (hn : a % bs.length ≠ 0) :
    storeOut s a bs = raiseOut s 13 .store (BitVec.ofNat 64 a) := by
  rw [storeOut, storeWaits_of_route (by simp [ht])]
  simp [State.storeAt, ht, hn]

theorem storeOut_denied (ha : 2 ^ 56 ≤ a) : storeOut s a bs = raiseOut s 2 .store (BitVec.ofNat 64 a) := by
  have ht := routeOf_denied ha
  rw [storeOut, storeWaits_of_route (by simp [ht])]
  simp [State.storeAt, ht]

theorem storeOut_translated (ht : routeOf a = .translated) (hn : a % bs.length = 0) :
    storeOut s a bs = .next (s.post a bs false false).retire := by
  rw [storeOut, storeWaits_of_route (by simp [ht])]
  simp [State.storeAt, ht, hn]

end

section
variable {s : State} (hM : s.me.priv = .M)
include hM

/-- A load at M whose address is bad. -/
theorem load_traps {i : Instr} {a n : Nat} (hr : s.me.resp = none) {f : List Byte → State → Out} (h : exec i s = loadThen s a n f) :
    (routeOf a = .translated → a % n ≠ 0 → Ends i s (AccessTrap s a 13 4)) ∧ (2 ^ 56 ≤ a → Ends i s (AccessTrap s a 2 5)) :=
  ⟨fun ht hn => raiseOut_accessTrap hM (by decide) (.inl rfl) (h.trans (loadThen_misaligned f hr ht hn)),
    fun ha => raiseOut_accessTrap hM (by decide) (.inl rfl) (h.trans (loadThen_denied f hr ha))⟩

theorem store_traps {i : Instr} {a n v : Nat} (h : exec i s = storeOut s a (bytesOf n v)) :
    (routeOf a = .translated → a % n ≠ 0 → Ends i s (AccessTrap s a 13 6)) ∧ (2 ^ 56 ≤ a → Ends i s (AccessTrap s a 2 7)) :=
  ⟨fun ht hn => raiseOut_accessTrap hM (by decide) (.inr rfl) (h.trans (storeOut_misaligned ht (by rwa [bytesOf_length]))),
    fun ha => raiseOut_accessTrap hM (by decide) (.inr rfl) (h.trans (storeOut_denied ha))⟩

/-- An instruction that tests the alignment first and then the route. -/
theorem aligned_traps {i : Instr} {a : Word} {n : Nat} {at_ : Site} (hat : at_ = .load ∨ at_ = .store)
    (hmis : a.toNat % n ≠ 0 → exec i s = raiseOut s 13 at_ a)
    (hden : a.toNat % n = 0 → routeOf a.toNat = .denied → exec i s = raiseOut s 2 at_ a) :
    (a.toNat % n ≠ 0 → Ends i s (AccessTrap s a.toNat 13 (mcauseCode 13 at_))) ∧
      (a.toNat % n = 0 → 2 ^ 56 ≤ a.toNat → Ends i s (AccessTrap s a.toNat 2 (mcauseCode 2 at_))) := by
  have ha : BitVec.ofNat 64 a.toNat = a := by simp
  exact ⟨fun h => raiseOut_accessTrap hM (by decide) hat ((hmis h).trans (by rw [ha])),
    fun hn h => raiseOut_accessTrap hM (by decide) hat ((hden hn (routeOf_denied h)).trans (by rw [ha]))⟩

variable (hr : s.me.resp = none)
include hr

theorem amo_traps {i : Instr} {op : AmoOp} {o : Order} {dbl : Bool} {rd rs1 : Reg} {r4 : BitVec 4}
    (h : exec i s = amoOut s op o dbl rd r4 rs1) :
    ((s.rx rs1).toNat % (if dbl then 8 else 4) ≠ 0 → Ends i s (AccessTrap s (s.rx rs1).toNat 13 4)) ∧
      ((s.rx rs1).toNat % (if dbl then 8 else 4) = 0 → 2 ^ 56 ≤ (s.rx rs1).toNat → Ends i s (AccessTrap s (s.rx rs1).toNat 2 5)) :=
  aligned_traps hM (.inl rfl) (fun hn => by rw [h, amoOut, hr]; simp only [if_pos hn])
    (fun hn hd => by rw [h, amoOut, hr]; simp only [hn, hd, ne_eq, not_true_eq_false, if_false])

theorem ldf_traps {i : Instr} {op : Nat → RetOp} {k : AccKind} {rd rs1 : Reg} (h : exec i s = ldfOut s rd rs1 op k) :
    ((s.rx rs1).toNat % 8 ≠ 0 → Ends i s (AccessTrap s (s.rx rs1).toNat 13 4)) ∧
      ((s.rx rs1).toNat % 8 = 0 → 2 ^ 56 ≤ (s.rx rs1).toNat → Ends i s (AccessTrap s (s.rx rs1).toNat 2 5)) :=
  aligned_traps hM (.inl rfl) (fun hn => by rw [h, ldfOut, hr]; simp only [if_pos hn])
    (fun hn hd => by rw [h, ldfOut, hr]; simp only [hn, hd, ne_eq, not_true_eq_false, if_false])

theorem joindec_traps (rd rs1 : Reg) :
    ((s.rx rs1).toNat % 64 ≠ 0 → Ends (.joindec rd rs1) s (AccessTrap s (s.rx rs1).toNat 13 4)) ∧
      ((s.rx rs1).toNat % 64 = 0 → 2 ^ 56 ≤ (s.rx rs1).toNat → Ends (.joindec rd rs1) s (AccessTrap s (s.rx rs1).toNat 2 5)) := by
  have h : exec (.joindec rd rs1) s = execJoindec rd rs1 s := rfl
  exact aligned_traps hM (.inl rfl) (fun hn => by rw [h, execJoindec, hr]; simp only [if_pos hn])
    (fun hn hd => by rw [h, execJoindec, hr]; simp only [hn, hd, ne_eq, not_true_eq_false, if_false])

theorem waitgen_traps (rd rs2 rs1 : Reg) (hg : (s.rx rs2).toNat < 256) :
    ((s.rx rs1).toNat % 64 ≠ 0 → Ends (.waitgen rd rs2 rs1) s (AccessTrap s (s.rx rs1).toNat 13 4)) ∧
      ((s.rx rs1).toNat % 64 = 0 → 2 ^ 56 ≤ (s.rx rs1).toNat →
        Ends (.waitgen rd rs2 rs1) s (AccessTrap s (s.rx rs1).toNat 2 5)) := by
  have h : exec (.waitgen rd rs2 rs1) s = execWaitgen rd rs2 rs1 s := rfl
  exact aligned_traps hM (.inl rfl) (fun hn => by rw [h, execWaitgen, hr]; simp only [if_pos hn])
    (fun hn hd => by
      rw [h, execWaitgen, hr]
      simp only [hn, hd, ne_eq, not_true_eq_false, if_false, Nat.not_le.mpr hg])

omit hr in
theorem stf_traps (rs2 rs1 : Reg) :
    ((s.rx rs1).toNat % 8 ≠ 0 → Ends (.stf rs2 rs1) s (AccessTrap s (s.rx rs1).toNat 13 6)) ∧
      ((s.rx rs1).toNat % 8 = 0 → 2 ^ 56 ≤ (s.rx rs1).toNat → Ends (.stf rs2 rs1) s (AccessTrap s (s.rx rs1).toNat 2 7)) := by
  have h : exec (.stf rs2 rs1) s = execStf rs2 rs1 s := rfl
  exact aligned_traps hM (.inr rfl) (fun hn => by rw [h, execStf]; simp only [if_pos hn])
    (fun hn hd => by rw [h, execStf]; simp only [hn, hd, ne_eq, not_true_eq_false, if_false])

end

/-- Settles O8: each instruction raises the error before it does anything else. -/
theorem badAddressTraps : Obligations.BadAddressTraps := by
  intro s rd rs1 rs2 r4 imm o c dbl
  dsimp only
  intro hM hr
  exact ⟨⟨load_traps hM hr (exec_lb ..), load_traps hM hr (exec_lbu ..), load_traps hM hr (exec_lh ..),
      load_traps hM hr (exec_lhu ..), load_traps hM hr (exec_lw ..), load_traps hM hr (exec_lwu ..), load_traps hM hr (exec_ld ..)⟩,
    ⟨store_traps hM (exec_sb ..), store_traps hM (exec_sh ..), store_traps hM (exec_sw ..), store_traps hM (exec_sd ..)⟩,
    ⟨amo_traps hM hr (exec_amoadd ..), amo_traps hM hr (exec_amoand ..),
      amo_traps hM hr (exec_amoor ..), amo_traps hM hr (exec_amoxor ..), amo_traps hM hr (exec_amomin ..),
      amo_traps hM hr (exec_amomax ..), amo_traps hM hr (exec_amominu ..), amo_traps hM hr (exec_amomaxu ..),
      amo_traps hM hr (exec_amoswap ..), amo_traps hM hr (exec_amocas ..), amo_traps hM hr (exec_amofadd ..)⟩,
    ldf_traps hM hr (exec_ldf ..), ldf_traps hM hr (exec_ldfe ..), joindec_traps hM hr rd rs1, waitgen_traps hM hr rd rs2 rs1, stf_traps hM rs2 rs1⟩

/-! ### Operations for the home -/

/-- The current thread with its next sequence number taken. -/
def State.seqTaken (s : State) : State := s.setMe { s.me with seq := s.me.seq + 1 }

theorem takeSeq_cur (s : State) : s.takeSeq s.cur = ((s.me.seq + 1).toNat, s.seqTaken) := rfl

theorem seqTaken_me (s : State) : s.seqTaken.me = { s.me with seq := s.me.seq + 1 } := State.me_setMe _ _

theorem seqTaken_thread_ne (s : State) {h : Nat} (hh : h ≠ s.cur) : s.seqTaken.thread h = s.thread h :=
  State.thread_setMe_ne _ _ hh

/-- A returning operation that writes nothing is one item, and the thread waits. -/
theorem ask_read {op : RetOp} (h : op.wkind.isSome = false) (s : State) (release : Bool) :
    s.ask op release = (s.emit { s.item s.cur 0 release (homeOf op.addr) (.ret op) with cap := none, counted := false }).setMe
      { s.me with status := .blocked .response, req := s.ordCtr + 1 } := by
  simp only [State.ask, h]
  rfl

/-- One that writes also takes a sequence number and is counted. -/
theorem ask_write {op : RetOp} (h : op.wkind.isSome = true) (s : State) (release : Bool) :
    ∃ tiles homes i, s.ask op release =
        ({ s.seqTaken with tiles := tiles, homes := homes, net := s.net ++ [i], ordCtr := s.ordCtr + 1 }).setMe
          { s.me with seq := s.me.seq + 1, status := .blocked .response, req := s.ordCtr + 1 } ∧
      i.src = s.cur ∧ i.body = .ret op ∧ i.dst = homeOf op.addr ∧ i.release = release ∧ i.stage = .waiting ∧ i.ord = s.ordCtr := by
  obtain ⟨tiles, homes, hc⟩ := countSent_frame s.seqTaken s.site (s.seqTaken.jobOf s.cur) 1
  refine ⟨tiles, homes, { s.seqTaken.item s.cur (s.me.seq + 1).toNat release (homeOf op.addr) (.ret op) with
    cap := attach (s.seqTaken.core (coreOf s.cur)).slots op.addr, counted := true, ord := s.ordCtr }, ?_, rfl, rfl, rfl, rfl, rfl, rfl⟩
  have hme : ∀ net ord, State.me { s.seqTaken with tiles := tiles, homes := homes, net := net, ordCtr := ord } =
      { s.me with seq := s.me.seq + 1 } := fun net ord => seqTaken_me s
  unfold State.ask
  simp only [h, if_true, takeSeq_cur]
  rw [show s.seqTaken.countSent s.seqTaken.site (s.seqTaken.item s.seqTaken.cur (s.me.seq + 1).toNat release (homeOf op.addr)
    (.ret op)).job 1 = _ from hc]
  simp only [State.emit]
  rw [hme]
  rfl

/-- Sending a returning operation leaves what `Asked` says. -/
theorem asked_ask (s : State) (op : RetOp) (release : Bool) : Asked s (s.ask op release) op release := by
  cases h : op.wkind.isSome with
  | false =>
    rw [ask_read h]
    refine ⟨?_, ?_, ?_, rfl, fun x hx => State.thread_setMe_ne _ _ hx,
      { s.item s.cur 0 release (homeOf op.addr) (.ret op) with cap := none, counted := false, ord := s.ordCtr }, rfl, rfl, rfl, rfl,
      rfl, rfl, ?_⟩ <;> rw [State.me_setMe]
  | true =>
    obtain ⟨tiles, homes, i, hask, hsrc, hbody, hdst, hrel, hstage, hord⟩ := ask_write h s release
    rw [hask]
    refine ⟨?_, ?_, ?_, rfl, fun x hx => ?_, i, rfl, hsrc, hbody, hdst, hrel, hstage, ?_⟩
    · rw [State.me_setMe]
    · rw [State.me_setMe]
    · rw [State.me_setMe]
    · exact (SMap.get_put_ne _ _ _ hx).trans (seqTaken_thread_ne s hx)
    · rw [State.me_setMe, hord]

theorem Ends.of_ask {i : Instr} {s : State} {op : RetOp} {release : Bool} (h : exec i s = .next (s.ask op release)) :
    Ends i s fun t => Asked s t op release := ⟨_, h, asked_ask s op release⟩

/-- A posted store takes a sequence number and is one item for the home. -/
theorem post_eq (s : State) (a : Nat) (bs : List Byte) (fe release : Bool) :
    ∃ tiles homes i, s.post a bs fe release =
        { s.seqTaken with tiles := tiles, homes := homes, net := s.net ++ [i], ordCtr := s.ordCtr + 1 } ∧
      i.src = s.cur ∧ i.dst = homeOf a ∧ i.body = .store a bs fe ∧ i.seq = (s.me.seq + 1).toNat ∧ i.release = release ∧
      i.stage = .waiting := by
  obtain ⟨tiles, homes, hc⟩ := countSent_frame s.seqTaken s.site (s.seqTaken.jobOf s.cur) 1
  refine ⟨tiles, homes, { s.seqTaken.item s.cur (s.me.seq + 1).toNat release (homeOf a) (.store a bs fe) with
    cap := attach (s.seqTaken.core (coreOf s.cur)).slots a, ord := s.ordCtr }, ?_, rfl, rfl, rfl, rfl, rfl, rfl⟩
  unfold State.post
  simp only [takeSeq_cur]
  rw [show s.seqTaken.countSent s.seqTaken.site (s.seqTaken.item s.seqTaken.cur (s.me.seq + 1).toNat release (homeOf a)
    (.store a bs fe)).job 1 = _ from hc]
  simp only [State.emit]
  rfl

/-! ### Loads (O6) -/

section
variable {s : State} {i : Instr} {a n k : Nat} {rd : Reg} {g : Nat → Word}
  (h : exec i s = loadThen s a n fun bs s => writeReg s rd (g (ofBytes bs)))
include h

theorem load_local {v : Word} (hr : s.me.resp = none) (hl : LocalAt s .read a n k) (hv : g (ofBytes (Memory.readN s.mem k n)) = v) :
    Gives i s rd v := by
  rw [loadThen_local s a n k _ hr hl] at h
  exact Gives.of_eq h hv

theorem load_asks (hr : s.me.resp = none) (ht : routeOf a = .translated) (hn : a % n = 0) :
    Ends i s fun t => Asked s t (.read [(a, n)]) false :=
  Ends.of_ask (h.trans (loadThen_translated _ hr ht hn))

theorem load_response {r : Resp} (hr : s.me.resp = some r) : Gives i s rd (g (ofBytes r.data)) := by
  rw [loadThen_resp s a n _ hr] at h
  exact Gives.of_writeReg h

end

section
variable {n : Nat} (x : BitVec n) {y : Nat} (hy : y = x.toNat)
include hy

/-- The extensions of R293 are those of the bit pattern. -/
theorem sext_of_toNat : sext n y = x.signExtend 64 := by rw [sext, hy, BitVec.ofNat_toNat, BitVec.setWidth_eq]

theorem zext_of_toNat : zext n y = x.setWidth 64 := by
  rw [zext, hy, Nat.mod_eq_of_lt x.isLt, BitVec.ofNat_toNat]

end

/-- Settles O6: a local load by the bytes at its location, a translated one by `asked_ask` and its response. -/
theorem loadResults : Obligations.LoadResults := by
  refine ⟨fun s rd rs1 imm k => ?_, fun s rd rs1 imm => ?_⟩
  · dsimp only
    intro hr
    exact ⟨fun hl => ⟨load_local (exec_lb ..) hr hl (sext_of_toNat _ (ofBytes_one _)),
        load_local (exec_lbu ..) hr hl (zext_of_toNat _ (ofBytes_one _))⟩,
      fun hl => ⟨load_local (exec_lh ..) hr hl (sext_of_toNat _ (ofBytes_two _ _)),
        load_local (exec_lhu ..) hr hl (zext_of_toNat _ (ofBytes_two _ _))⟩,
      fun hl => ⟨load_local (exec_lw ..) hr hl (sext_of_toNat _ (ofBytes_four _ _ _ _)),
        load_local (exec_lwu ..) hr hl (zext_of_toNat _ (ofBytes_four _ _ _ _))⟩,
      fun hl => load_local (exec_ld ..) hr hl ((zext_of_toNat _ (ofBytes_eight _ _ _ _ _ _ _ _)).trans (BitVec.setWidth_eq _))⟩
  · dsimp only
    refine ⟨fun hr ht => ⟨load_asks (exec_lb ..) hr ht, load_asks (exec_lbu ..) hr ht, load_asks (exec_lh ..) hr ht,
      load_asks (exec_lhu ..) hr ht, load_asks (exec_lw ..) hr ht, load_asks (exec_lwu ..) hr ht, load_asks (exec_ld ..) hr ht⟩,
      fun r hr => ⟨load_response (exec_lb ..) hr, load_response (exec_lbu ..) hr, load_response (exec_lh ..) hr,
        load_response (exec_lhu ..) hr, load_response (exec_lw ..) hr, load_response (exec_lwu ..) hr,
        load_response (exec_ld ..) hr⟩⟩

/-! ### Stores (O7) -/

/-- What retiring leaves of a state that differs from `s` in no loop register and not in the pc. -/
theorem retire_me_pc {s u : State} (hpc : u.me.pc = s.me.pc) (hs : u.me.lpstart = s.me.lpstart) (he : u.me.lpend = s.me.lpend)
    (hc : u.me.lpcount = s.me.lpcount) : u.retire.me.pc = nextPc s.me := by
  rw [State.retire, State.retireTo_me, loopTest_no_jump]
  simp only [nextPc, hpc, hs, he, hc]

theorem store_local {s : State} {i : Instr} {a n v k : Nat} (h : exec i s = storeOut s a (bytesOf n v)) (hw : MemWf s)
    (hh : s.atHome a = false) (hl : LocalAt s .write a n k) :
    Ends i s fun t => Stored s t k (bytesOf n v) ∧ t.me.x = s.me.x ∧ t.me.v = s.me.v ∧ t.me.m = s.me.m ∧ t.me.pc = nextPc s.me ∧
      t.tiles = s.tiles ∧ t.cores = s.cores ∧ t.net = s.net ∧ t.full = s.full ∧ t.parts = s.parts ∧
      ∀ h, h ≠ s.cur → t.thread h = s.thread h := by
  have hme : (s.putMem k (bytesOf n v)).retire.me.x = s.me.x ∧ (s.putMem k (bytesOf n v)).retire.me.v = s.me.v ∧
      (s.putMem k (bytesOf n v)).retire.me.m = s.me.m := by
    rw [State.retire, State.retireTo_me]
    exact ⟨rfl, rfl, rfl⟩
  obtain ⟨hx, hv, hm⟩ := hme
  refine ⟨(s.putMem k (bytesOf n v)).retire, ?_, ⟨Memory.readN_writeN hw k _, fun b hb => Memory.read_writeN_out hw _ _ _ hb⟩, hx, hv, hm,
    retire_me_pc rfl rfl rfl rfl, rfl, rfl, rfl, rfl, rfl, fun _ hh => State.thread_retireTo_ne (s.putMem k (bytesOf n v)) _ _ hh⟩
  rw [h]
  exact storeOut_local s a k _ hh (by rwa [bytesOf_length])

theorem store_posts {s : State} {i : Instr} {a n v : Nat} (h : exec i s = storeOut s a (bytesOf n v)) (ht : routeOf a = .translated)
    (hn : a % n = 0) :
    Ends i s fun t => t.mem = s.mem ∧ t.full = s.full ∧ t.me.x = s.me.x ∧ t.me.pc = nextPc s.me ∧ t.me.seq = s.me.seq + 1 ∧
      ∃ i : Item, t.net = s.net ++ [i] ∧ i.src = s.cur ∧ i.dst = homeOf a ∧ i.body = .store a (bytesOf n v) false ∧
        i.seq = (s.me.seq + 1).toNat ∧ i.stage = .waiting := by
  obtain ⟨tiles, homes, j, hpost, hsrc, hdst, hbody, hseq, -, hstage⟩ := post_eq s a (bytesOf n v) false false
  have hme : (s.post a (bytesOf n v) false false).me = { s.me with seq := s.me.seq + 1 } := by
    rw [hpost]
    exact seqTaken_me s
  refine ⟨(s.post a (bytesOf n v) false false).retire, h.trans (storeOut_translated ht (by rwa [bytesOf_length])), ?_, ?_, ?_, ?_, ?_,
    j, ?_, hsrc, hdst, hbody, hseq, hstage⟩
  · exact (congrArg State.mem hpost :)
  · exact (congrArg State.full hpost :)
  · rw [State.retire, State.retireTo_me, hme]
  · exact retire_me_pc (by rw [hme]) (by rw [hme]) (by rw [hme]) (by rw [hme])
  · rw [State.retire, State.retireTo_me, hme]
  · exact (congrArg State.net hpost :)

/-- Settles O7, by `store_local` and `store_posts`. -/
theorem storeResults : Obligations.StoreResults := by
  refine ⟨fun s rs2 rs1 imm k => ?_, fun s rs2 rs1 imm => ?_⟩
  · dsimp only
    intro hw hh
    exact ⟨store_local (exec_sb ..) hw hh, store_local (exec_sh ..) hw hh, store_local (exec_sw ..) hw hh,
      store_local (exec_sd ..) hw hh⟩
  · dsimp only
    intro ht
    exact ⟨store_posts (exec_sb ..) ht (Nat.mod_one _), store_posts (exec_sh ..) ht, store_posts (exec_sw ..) ht,
      store_posts (exec_sd ..) ht⟩

end Sys2Proof.Machine
end

section
/-!
PROOFS. Messages (spec/16_messages.md R315-R318): what a send puts on its way, the hold buffer, and capabilities (R329-R331).
-/

namespace Sys2Proof.Machine

/-! ### Counting and sending -/

/-- Every listed value and the one put at a key pass a test as before, if what is put passes it as what was there. -/
theorem SMap.any_put {α : Type} (d : α) (m : List (Nat × α)) (i : Nat) (v : α) (f : α → Bool) (hd : f d = false)
    (hv : f v = f (SMap.get d m i)) : (SMap.put m i v).any (fun x => f x.2) = m.any fun x => f x.2 := by
  have hlisted : ∀ m : List (Nat × α), f (SMap.get d m i) = true → (m.any fun x => f x.2) = true := by
    intro m
    induction m with
    | nil => simp [SMap.get, hd]
    | cons c t ih =>
      intro h
      by_cases hc : c.1 = i
      · simp_all [SMap.get]
      · simp_all [SMap.get]
  induction m with
  | nil => simpa [SMap.put, SMap.get, hd] using hv
  | cons c t ih =>
    rw [SMap.put]
    split
    · rw [List.any_cons, hv]
      cases h : f (SMap.get d (c :: t) i) with
      | false => rfl
      | true => exact (hlisted _ h).symm
    · split
      · next hc => simp [hv, SMap.get, hc]
      · next hc => rw [List.any_cons, List.any_cons, ih (by rw [hv, SMap.get, if_neg (Ne.symm hc)])]

/-- A state that differs from another in items under way, in the counts of its tiles and in the counts of the home agents. -/
structure OnlySent (s u : State) (site : Nat) : Prop where
  rest   : ∃ tiles homes net ordCtr, u = { s with tiles := tiles, homes := homes, net := net, ordCtr := ordCtr }
  other  : ∀ y, y ≠ site → u.tile y = s.tile y
  tile   : ∀ y, ∃ sent, u.tile y = { s.tile y with sent := sent }
  listed : ∀ f : Tile → Bool, (∀ t sent, f { t with sent := sent } = f t) → f Tile.init = false →
    (u.tiles.any fun x => f x.2) = s.tiles.any fun x => f x.2

namespace OnlySent

theorem refl (s : State) (site : Nat) : OnlySent s s site :=
  ⟨⟨_, _, _, _, rfl⟩, fun _ _ => rfl, fun y => ⟨(s.tile y).sent, rfl⟩, fun _ _ _ => rfl⟩

/-- An item joins those under way. -/
theorem emit (s : State) (site : Nat) (i : Item) : OnlySent s (s.emit i) site :=
  ⟨⟨_, _, _, _, rfl⟩, fun _ _ => rfl, fun y => ⟨(s.tile y).sent, rfl⟩, fun _ _ _ => rfl⟩

/-- Counting an item changes the counters of its site alone. -/
theorem countSent (s : State) (site job n : Nat) : OnlySent s (s.countSent site job n) site := by
  unfold State.countSent
  split
  · exact ⟨⟨s.tiles, _, s.net, s.ordCtr, rfl⟩, fun _ _ => rfl, fun y => ⟨(s.tile y).sent, rfl⟩, fun _ _ _ => rfl⟩
  · split
    · refine ⟨⟨_, s.homes, s.net, s.ordCtr, rfl⟩, fun y hy => SMap.get_put_ne _ _ _ hy, fun y => ?_,
        fun f hf hd => SMap.any_put Tile.init _ _ _ f hd (hf _ _)⟩
      by_cases hy : y = site
      · subst hy
        exact ⟨_, SMap.get_put_self _ _ _ _⟩
      · exact ⟨(s.tile y).sent, SMap.get_put_ne _ _ _ hy⟩
    · exact refl s site

variable {s t u : State} {site : Nat}

theorem trans (h : OnlySent s t site) (g : OnlySent t u site) : OnlySent s u site := by
  obtain ⟨⟨_, _, _, _, ht⟩, hother, htile, hlisted⟩ := h
  obtain ⟨⟨_, _, _, _, hu⟩, gother, gtile, glisted⟩ := g
  refine ⟨⟨_, _, _, _, by rw [hu, ht]⟩, fun y hy => (gother y hy).trans (hother y hy), fun y => ?_,
    fun f hf hd => (glisted f hf hd).trans (hlisted f hf hd)⟩
  obtain ⟨_, hy⟩ := htile y
  obtain ⟨_, gy⟩ := gtile y
  exact ⟨_, by rw [gy, hy]⟩

variable (h : OnlySent s u site)
include h

theorem quiet : Quiet s u := by
  obtain ⟨_, _, _, _, h⟩ := h.rest
  rw [h]
  rfl

theorem threads : u.threads = s.threads := by obtain ⟨_, _, _, _, h⟩ := h.rest; rw [h]
theorem cur : u.cur = s.cur := by obtain ⟨_, _, _, _, h⟩ := h.rest; rw [h]
theorem mem : u.mem = s.mem := by obtain ⟨_, _, _, _, h⟩ := h.rest; rw [h]
theorem cores : u.cores = s.cores := by obtain ⟨_, _, _, _, h⟩ := h.rest; rw [h]
theorem parts : u.parts = s.parts := by obtain ⟨_, _, _, _, h⟩ := h.rest; rw [h]
theorem instrs : u.instrs = s.instrs := by obtain ⟨_, _, _, _, h⟩ := h.rest; rw [h]
theorem full : u.full = s.full := by obtain ⟨_, _, _, _, h⟩ := h.rest; rw [h]
theorem devid : u.devid = s.devid := by obtain ⟨_, _, _, _, h⟩ := h.rest; rw [h]
theorem devValid : u.devValid = s.devValid := by obtain ⟨_, _, _, _, h⟩ := h.rest; rw [h]

theorem thread (x : Nat) : u.thread x = s.thread x := by rw [State.thread, State.thread, h.threads]

theorem me : u.me = s.me := by rw [State.me, State.me, h.thread, h.cur]

theorem rank (y : Nat) : (u.tile y).rank = (s.tile y).rank := by
  obtain ⟨_, hy⟩ := h.tile y
  rw [hy]

theorem partOfHart (x : Nat) : u.partOfHart x = s.partOfHart x := by
  simp only [State.partOfHart, State.partOfSite, h.thread, h.rank, h.parts]

theorem det (p : Nat) : u.det p = s.det p := by rw [State.det, State.det, State.part, State.part, h.parts]

theorem srank (x : Nat) : u.srank x = s.srank x := by simp only [State.srank, State.rankOfHart, State.rankOf, h.rank]

theorem dev : u.dev = s.dev := by simp only [State.dev, h.devValid, h.devid]

theorem jobOf (x : Nat) : u.jobOf x = s.jobOf x := by rw [State.jobOf, State.jobOf, h.thread]

/-- Retiring after it is retiring of the thread alone. -/
theorem went {m : Thread} (hpc : m.pc = s.me.pc) (hs : m.lpstart = s.me.lpstart) (he : m.lpend = s.me.lpend)
    (hc : m.lpcount = s.me.lpcount) (hb : m.budget = s.me.budget) (hp : m.priv = s.me.priv) (ha : m.act = s.me.act)
    (hr : m.retired = s.me.retired) (hq : m.qret = s.me.qret) : Went s (u.setMe m).retire m :=
  Went.of_retire h.cur h.threads (by rw [h.partOfHart, h.det, h.cur]) hpc hs he hc hb hp ha hr hq

end OnlySent

/-- The message of a send (R135, R316). -/
def State.messageTo (s : State) (h : Nat) (d : DestWord) (kind : Nat) (pl : Vector Word 8) (cap : Option Cap) (q r : Nat) : Msg :=
  mkMsg (mkHeader s.dev (s.srank h) r d.chan kind d.ninsn (s.jobOf h) d.ddev q) pl cap

theorem OnlySent.messageTo {s u : State} {site : Nat} (h : OnlySent s u site) (x : Nat) (d : DestWord) (kind : Nat) (pl : Vector Word 8)
    (cap : Option Cap) (q r : Nat) : u.messageTo x d kind pl cap q r = s.messageTo x d kind pl cap q r := by
  simp only [State.messageTo, h.dev, h.srank, h.jobOf]

/-- An item that carries a message of a thread to a core of this device. -/
structure Carries (s : State) (h : Nat) (m : Msg) (i : Item) : Prop where
  src     : i.src = h
  dst     : i.dst = .core (m.hdr.drank / 8)
  release : i.release = true
  seq     : i.seq = m.hdr.seq
  stage   : i.stage = .waiting
  body    : i.body = .message m
  cap     : i.cap = none

/-- A message sent is one item. -/
theorem sendTo_spec (s : State) (h : Nat) {m : Msg} (hdev : m.hdr.ddev = s.dev) :
    OnlySent s (s.sendTo h m true) (siteOf h) ∧ ∃ i, (s.sendTo h m true).net = s.net ++ [i] ∧ Carries s h m i := by
  have hcount := OnlySent.countSent s (siteOf h) (s.jobOf h) 1
  have hnet : (s.countSent (siteOf h) (s.jobOf h) 1).net = s.net := by
    obtain ⟨_, _, hc⟩ := countSent_frame s (siteOf h) (s.jobOf h) 1
    rw [hc]
  have hlocal : (s.devValid && m.hdr.ddev != s.dev) = false := by simp [hdev]
  have heq : s.sendTo h m true = (s.countSent (siteOf h) (s.jobOf h) 1).emit
      { s.item h m.hdr.seq true (.core (m.hdr.drank / 8)) (.message m) with job := m.hdr.job } := by
    simp only [State.sendTo, hlocal]
    rfl
  rw [heq]
  exact ⟨hcount.trans (OnlySent.emit _ _ _), _, congrArg (· ++ [_]) hnet, rfl, rfl, rfl, rfl, rfl, rfl, rfl⟩

/-- Messages sent to each rank of a list are the items of the list, in its order. -/
theorem foldl_sendTo_spec (s : State) (h : Nat) {d : DestWord} (hdev : d.ddev = s.dev) (kind : Nat) (pl : Vector Word 8)
    (cap : Option Cap) (q : Nat) (ranks : List Nat) {u : State} (hu : OnlySent s u (siteOf h)) :
    let t := ranks.foldl (fun s r => s.sendTo h (mkMsg (mkHeader s.dev (s.srank h) r d.chan kind d.ninsn (s.jobOf h) d.ddev q) pl cap) true) u
    OnlySent s t (siteOf h) ∧ ∃ is, t.net = u.net ++ is ∧
      List.Forall₂ (fun r i => Carries s h (s.messageTo h d kind pl cap q r) i) ranks is := by
  induction ranks generalizing u with
  | nil => exact ⟨hu, [], by simp, .nil⟩
  | cons r ranks ih =>
    obtain ⟨hsent, i, hnet, hi⟩ := sendTo_spec u h (m := u.messageTo h d kind pl cap q r) (by rw [hu.dev]; exact hdev)
    obtain ⟨h1, is, h2, h3⟩ := ih (hu.trans hsent)
    rw [hu.messageTo] at hi hnet hsent h1 h2
    refine ⟨?_, i :: is, ?_, .cons ⟨hi.src, hi.dst, hi.release, hi.seq, hi.stage, hi.body, hi.cap⟩ h3⟩
    · rw [List.foldl_cons]
      have := hu.messageTo h d kind pl cap q r
      rw [State.messageTo] at this
      rw [this]
      exact h1
    · rw [List.foldl_cons]
      have := hu.messageTo h d kind pl cap q r
      rw [State.messageTo] at this
      rw [this, h2, hnet, List.append_assoc]
      rfl

theorem Carries.isMessage {s : State} {i : Item} {d : DestWord} {kind : Nat} {pl : Vector Word 8} {cap : Option Cap} {r : Nat}
    (h : Carries s s.cur (s.messageTo s.cur d kind pl cap (s.me.seq + 1).toNat r) i) :
    IsMessage s i kind d.ninsn r d.chan pl cap := by
  obtain ⟨hsrc, hdst, hrel, hseq, hstage, hbody, -⟩ := h
  have hq : (s.me.seq + 1).toNat % 2 ^ 32 = (s.me.seq + 1).toNat := Nat.mod_eq_of_lt (s.me.seq + 1).isLt
  exact ⟨hsrc, hdst, hrel, hseq.trans hq, hstage, _, hbody, rfl, rfl, rfl, rfl, hq, rfl, rfl, rfl, rfl⟩

/-- Taking a sequence number leaves what the thread's messages say. -/
theorem seqTaken_messageTo (s : State) (d : DestWord) (kind : Nat) (pl : Vector Word 8) (cap : Option Cap) (q r : Nat) :
    s.seqTaken.messageTo s.cur d kind pl cap q r = s.messageTo s.cur d kind pl cap q r := by
  have hjob : s.seqTaken.jobOf s.cur = s.jobOf s.cur := by
    rw [State.jobOf, State.jobOf, show s.seqTaken.thread s.cur = _ from seqTaken_me s]
    rfl
  simp only [State.messageTo, hjob]
  rfl

/-- A send of the current thread takes one sequence number and puts one item on its way for each rank (R137, R316). -/
theorem sendAll_spec (s : State) {d : DestWord} (hdev : d.ddev = s.dev) (kind : Nat) (pl : Vector Word 8) (cap : Option Cap)
    (ranks : List Nat) :
    OnlySent s.seqTaken (s.sendAll s.cur d kind pl cap ranks) s.site ∧
      ∃ is, (s.sendAll s.cur d kind pl cap ranks).net = s.net ++ is ∧
        List.Forall₂ (fun r i => Carries s s.cur (s.messageTo s.cur d kind pl cap (s.me.seq + 1).toNat r) i) ranks is := by
  obtain ⟨hsent, is, hnet, his⟩ := foldl_sendTo_spec s.seqTaken s.cur (d := d) hdev kind pl cap (s.me.seq + 1).toNat ranks
    (OnlySent.refl s.seqTaken s.site)
  simp only [seqTaken_messageTo] at his
  exact ⟨hsent, is, hnet, his.imp fun _ _ h => ⟨h.src, h.dst, h.release, h.seq, h.stage, h.body, h.cap⟩⟩

/-- The state after a send retires as the thread with its sequence number taken. -/
theorem went_of_onlySent {s u : State} (h : OnlySent s.seqTaken u s.site) : Went s u.retire { s.me with seq := s.me.seq + 1 } := by
  have hme : u.me = { s.me with seq := s.me.seq + 1 } := h.me.trans (seqTaken_me s)
  have hwent := h.went (m := u.me) (by rw [h.me]) (by rw [h.me]) (by rw [h.me]) (by rw [h.me]) (by rw [h.me]) (by rw [h.me])
    (by rw [h.me]) (by rw [h.me]) (by rw [h.me])
  rw [State.retire, State.me_setMe, State.retireTo_setMe_me] at hwent
  have hnext : nextPc s.seqTaken.me = nextPc s.me ∧ nextCount s.seqTaken.me = nextCount s.me := by
    rw [seqTaken_me]
    exact ⟨rfl, rfl⟩
  have hbudget : nextBudget s.seqTaken = nextBudget s :=
    nextBudget_setMe (s := s) (u := s) (m := { s.me with seq := s.me.seq + 1 }) rfl rfl rfl rfl rfl rfl
  refine ⟨?_, fun x hx => (hwent.others x hx).trans (seqTaken_thread_ne s hx)⟩
  rw [State.retire, hwent.me, hme, hnext.1, hnext.2, hbudget, seqTaken_me]

theorem Quiet.retire {s u : State} (h : Quiet s u) : Quiet s u.retire := h

theorem Quiet.of_setMe {s u : State} {m : Thread} (h : Quiet (s.setMe m) u) : Quiet s u :=
  (congrArg (fun z : State => { z with threads := s.threads }) h :)

theorem quiet_of_onlySent {s u : State} (h : OnlySent s.seqTaken u s.site) : Quiet s u := by
  obtain ⟨_, _, _, _, h⟩ := h.rest
  rw [h]
  rfl

/-! ### Destination words (R315) -/

/-- The fields of a destination word that names no other device. -/
theorem destWord_bits {lo chan ninsn : Nat} (hlo : lo < 2 ^ 18) (hchan : chan < 16) (hn : ninsn < 32) :
    let x := (BitVec.ofNat 64 (lo + chan * 2 ^ 20 + ninsn * 2 ^ 40) : Word).toNat
    bitsN x 44 40 = ninsn ∧ bitsN x 36 36 = 0 ∧ bitsN x 35 24 = 0 ∧ bitsN x 63 45 = 0 ∧ bitsN x 39 37 = 0 ∧ bitsN x 19 18 = 0 ∧
      bitsN x 23 20 = chan ∧ bitsN x 17 0 = lo ∧ bitsN x 7 0 = lo % 256 ∧ bitsN x 17 8 = lo / 256 := by
  intro x
  have hx : x = lo + chan * 2 ^ 20 + ninsn * 2 ^ 40 := by
    show (BitVec.ofNat 64 (lo + chan * 2 ^ 20 + ninsn * 2 ^ 40)).toNat = _
    rw [BitVec.toNat_ofNat]
    exact Nat.mod_eq_of_lt (by omega)
  rw [hx]
  simp only [bitsN, Nat.shiftRight_eq_div_pow]
  refine ⟨?_, ?_, ?_, ?_, ?_, ?_, ?_, ?_, ?_, ?_⟩ <;> omega

/-- The bits of a destination word that names no other device, with what its low bits say. -/
structure PlainWord (w : Word) (lo chan ninsn : Nat) : Prop where
  ninsn : bitsN w.toNat 44 40 = ninsn
  fab   : bitsN w.toNat 36 36 = 0
  ddev  : bitsN w.toNat 35 24 = 0
  top   : bitsN w.toNat 63 45 = 0
  mid   : bitsN w.toNat 39 37 = 0
  low   : bitsN w.toNat 19 18 = 0
  chan  : bitsN w.toNat 23 20 = chan
  drank : bitsN w.toNat 17 0 = lo
  group : bitsN w.toNat 7 0 = lo % 256
  above : bitsN w.toNat 17 8 = lo / 256

theorem plainWord {lo chan ninsn : Nat} (hlo : lo < 2 ^ 18) (hchan : chan < 16) (hn : ninsn < 32) :
    PlainWord (BitVec.ofNat 64 (lo + chan * 2 ^ 20 + ninsn * 2 ^ 40)) lo chan ninsn := by
  obtain ⟨h1, h2, h3, h4, h5, h6, h7, h8, h9, h10⟩ := destWord_bits hlo hchan hn
  exact ⟨h1, h2, h3, h4, h5, h6, h7, h8, h9, h10⟩

theorem plainWord_zero {lo chan : Nat} (hlo : lo < 2 ^ 18) (hchan : chan < 16) :
    PlainWord (BitVec.ofNat 64 (lo + chan * 2 ^ 20)) lo chan 0 := by
  have h := plainWord hlo hchan (show 0 < 32 by decide)
  rwa [Nat.zero_mul, Nat.add_zero] at h

section
variable (s : State) {w : Word} {lo chan ninsn : Nat} (h : PlainWord w lo chan ninsn)
include h

theorem PlainWord.destWord_thread {f : DestForm} (hf : f = .send ∨ f = .handover) (hn : ninsn = 0) :
    s.destWord f w = some { ninsn := 0, ddev := s.dev, chan := chan, drank := lo, group := lo % 256 } := by
  subst hn
  obtain rfl | rfl := hf <;>
    simp [State.destWord, h.ninsn, h.fab, h.ddev, h.top, h.mid, h.low, h.chan, h.drank, h.group]

theorem PlainWord.destWord_group (hg : lo < 256) (hn : ninsn = 0) :
    s.destWord .group w = some { ninsn := 0, ddev := s.dev, chan := chan, drank := lo, group := lo } := by
  subst hn
  simp [State.destWord, h.ninsn, h.fab, h.ddev, h.top, h.mid, h.low, h.chan, h.drank, h.group, h.above, Nat.mod_eq_of_lt hg,
    Nat.div_eq_of_lt hg]

theorem PlainWord.destWord_carried (h1 : 1 ≤ ninsn) (h16 : ninsn ≤ 16) :
    s.destWord .carried w = some { ninsn := ninsn, ddev := s.dev, chan := chan, drank := lo, group := lo % 256 } := by
  simp [State.destWord, h.ninsn, h.fab, h.ddev, h.top, h.mid, h.low, h.chan, h.drank, h.group, h1, h16]

end

/-! ### What a send leaves -/

/-- What retiring leaves of a thread whose registers of control stand as before (R308, R311). -/
def Thread.Steady (m n : Thread) : Prop :=
  m.pc = n.pc ∧ m.lpstart = n.lpstart ∧ m.lpend = n.lpend ∧ m.lpcount = n.lpcount ∧ m.budget = n.budget ∧ m.priv = n.priv ∧
    m.act = n.act ∧ m.retired = n.retired ∧ m.qret = n.qret

/-- Retiring a thread whose registers of control stand as before. -/
theorem Went.of_me {s u : State} {m : Thread} (hcur : u.cur = s.cur) (hme : u.me = m)
    (hother : ∀ h, h ≠ s.cur → u.thread h = s.thread h)
    (hdet : u.det (u.partOfHart u.cur) = s.det (s.partOfHart s.cur)) (hm : m.Steady s.me) : Went s u.retire m := by
  obtain ⟨hpc, hs, he, hc, hb, hp, -, hr, hq⟩ := hm
  refine ⟨?_, fun h hh => ?_⟩
  · have hbudget : nextBudget u = nextBudget s := by
      simp only [State.det] at hdet
      simp only [nextBudget, hme, hb, hp, hdet]
    rw [State.retire, State.retireTo_me, loopTest_no_jump, hbudget, hme, hr, hq]
    simp only [nextPc, nextCount, hpc, hs, he, hc]
  · rw [State.retire, State.thread_retireTo_ne _ _ _ (by rwa [hcur]), hother h hh]

/-- What a send that has gone out leaves of everything but the items. -/
def Sent (s t : State) : Prop :=
  Went s t { s.me with seq := s.me.seq + 1 } ∧ Quiet s t ∧ t.mem = s.mem ∧ ∀ x, x ≠ s.site → t.tile x = s.tile x

theorem sent_of_onlySent {s u : State} (h : OnlySent s.seqTaken u s.site) : Sent s u.retire :=
  ⟨went_of_onlySent h, Quiet.retire (quiet_of_onlySent h), h.mem, h.other⟩

/-- The items that carry a message to each rank of a list. -/
def Messages (s : State) (is : List Item) (kind ninsn : Nat) (ranks : List Nat) (chan : Nat) (pl : Vector Word 8)
    (cap : Option Cap) : Prop :=
  is.length = ranks.length ∧ ∀ j, ∀ h : j < is.length, IsMessage s is[j] kind ninsn (ranks.getD j 0) chan pl cap

theorem messages_of_carries {s : State} {is : List Item} {d : DestWord} {kind : Nat} {ranks : List Nat} {pl : Vector Word 8}
    {cap : Option Cap}
    (h : List.Forall₂ (fun r i => Carries s s.cur (s.messageTo s.cur d kind pl cap (s.me.seq + 1).toNat r) i) ranks is) :
    Messages s is kind d.ninsn ranks d.chan pl cap := by
  obtain ⟨hlen, hget⟩ := List.forall₂_iff_get.mp h
  refine ⟨hlen.symm, fun j hj => ?_⟩
  rw [List.getD_eq_getElem _ _ (hlen ▸ hj)]
  exact (hget j (hlen ▸ hj) hj).isMessage

/-- The messages of a list of one rank are one item. -/
theorem Messages.one {s : State} {is : List Item} {kind ninsn r chan : Nat} {pl : Vector Word 8} {cap : Option Cap}
    (h : Messages s is kind ninsn [r] chan pl cap) : ∃ i, is = [i] ∧ IsMessage s i kind ninsn r chan pl cap := by
  obtain ⟨hlen, hget⟩ := h
  obtain ⟨i, rfl⟩ := List.length_eq_one_iff.mp hlen
  exact ⟨i, rfl, hget 0 Nat.zero_lt_one⟩

/-! ### SEND, SEND.G and SENDC (O15) -/

/-- SEND and SEND.G issue a message to each of their ranks. -/
theorem sendNow_sends {s : State} {group : Bool} {rs1 : Reg} {d : DestWord}
    (hd : s.destWord (if group then .group else .send) (s.rx rs1) = some d) (hok : s.destOk group d = true)
    (hw : s.waitingSends s.cur < 4) (hdev : d.ddev = s.dev) :
    ∃ t, sendNow s group rs1 = .next t ∧ Sent s t ∧
      ∃ is, t.net = s.net ++ is ∧ Messages s is 0 d.ninsn (s.destRanks s.cur group d) d.chan s.me.payload none := by
  obtain ⟨hsent, is, hnet, his⟩ := sendAll_spec s hdev 0 s.me.payload none (s.destRanks s.cur group d)
  refine ⟨_, ?_, sent_of_onlySent hsent, is, hnet, messages_of_carries his⟩
  simp only [sendNow, hd, hok, Bool.not_true, Bool.false_eq_true, if_false, Nat.not_le.mpr hw]

theorem group_of_ownGroup {s : State} {g : Nat} {d : List Nat} (h : s.ownGroup g = some d) :
    s.group (s.partOfHart s.cur) g = d := by
  simp only [State.ownGroup, Option.ite_none_right_eq_some, Option.some.injEq] at h
  exact h.2

theorem blockThen_at {s : State} {a : Word} {k : Nat} (h : BlockAt s a k) (f : Vector Word 8 → Out) :
    blockThen s a f = f (s.words8 k) := by
  obtain ⟨halign, hlow, hacc, hpend⟩ := h
  simp [blockThen, State.blockKey, halign, routeOf_local hlow, hacc, hpend]

theorem getD_map_mul (l : List Nat) (j : Nat) : (l.map (· * 8)).getD j 0 = l.getD j 0 * 8 := by
  simpa using List.getD_map (f := (· * 8)) (l := l) (d := 0) (n := j)

/-- Settles O15: the destination word is in order, so the messages go out with the next sequence number. -/
theorem sendIssuesMessages : Obligations.SendIssuesMessages := by
  intro s rs1 rs2 drank chan ninsn g k d
  dsimp only
  intro hdrank hchan hwait
  refine ⟨fun hword => ?_, fun h1 h16 hword hblock => ?_, fun hg hword hgroup => ?_⟩
  · have hp : PlainWord (s.rx rs1) drank chan 0 := by rw [hword]; exact plainWord_zero hdrank hchan
    obtain ⟨t, hexec, hsent, is, hnet, his⟩ := sendNow_sends (group := false) (hp.destWord_thread s (.inl rfl) rfl) rfl hwait rfl
    obtain ⟨i, rfl, hi⟩ := his.one
    exact ⟨t, hexec, hsent, i, hnet, hi⟩
  · have hp : PlainWord (s.rx rs1) drank chan ninsn := by
      rw [hword]
      exact plainWord hdrank hchan (Nat.lt_of_le_of_lt h16 (by decide))
    obtain ⟨hsent, is, hnet, his⟩ := sendAll_spec s (d := ⟨ninsn, s.dev, chan, drank, drank % 256⟩) rfl 1 (s.words8 k) none [drank]
    obtain ⟨i, rfl, hi⟩ := (messages_of_carries his).one
    refine ⟨_, ?_, sent_of_onlySent hsent, i, hnet, hi⟩
    show execSendc rs1 rs2 s = _
    simp only [execSendc, hp.destWord_carried s h1 h16, blockThen_at hblock, if_neg (Nat.not_le.mpr hwait)]
  · have hp : PlainWord (s.rx rs1) g chan 0 := by rw [hword]; exact plainWord_zero (hg.trans (by decide)) hchan
    obtain ⟨t, hexec, hsent, is, hnet, hlen, hget⟩ := sendNow_sends (group := true) (hp.destWord_group s hg rfl)
      (by simp [State.destOk, hgroup]) hwait rfl
    have hranks : s.destRanks s.cur true ⟨0, s.dev, chan, g, g⟩ = d.map (· * 8) := by
      rw [State.destRanks, if_pos rfl, group_of_ownGroup hgroup]
    refine ⟨t, hexec, hsent, is, hnet, ?_, fun j hj => ?_⟩
    · rw [hlen, hranks, List.length_map]
    · have := hget j hj
      rwa [hranks, getD_map_mul] at this

/-! ### The hold buffer (O16) -/

/-- What a message says does not depend on the rest of the thread. -/
theorem IsMessage.of_setMe {s : State} {m : Thread} {i : Item} {kind ninsn r chan : Nat} {pl : Vector Word 8} {cap : Option Cap}
    (h : IsMessage (s.setMe m) i kind ninsn r chan pl cap) (hseq : m.seq = s.me.seq) (hact : m.act = s.me.act) :
    IsMessage s i kind ninsn r chan pl cap := by
  have hjob : (s.setMe m).jobOf s.cur = s.jobOf s.cur := by
    rw [State.jobOf, State.jobOf, show (s.setMe m).thread s.cur = m from State.me_setMe s m, hact]
    rfl
  obtain ⟨hsrc, hdst, hrel, hq, hstage, msg, hbody, hdrank, hchan, hkind, hn, hmseq, hsr, hmjob, hpl, hcap⟩ := h
  rw [State.me_setMe, hseq] at hq hmseq
  exact ⟨hsrc, hdst, hrel, hq, hstage, msg, hbody, hdrank, hchan, hkind, hn, hmseq, hsr, hmjob.trans hjob, hpl, hcap⟩

/-- What the issue of the oldest held send leaves: the thread goes on with a COMMIT of the others. -/
def Issued (s : State) (rest : List HeldSend) (u : State) : Prop :=
  u.me = { s.me with seq := s.me.seq + 1, held := rest } ∧ (∀ h, h ≠ s.cur → u.thread h = s.thread h) ∧
    Quiet s u ∧ u.instrs = s.instrs ∧ exec .commit s = exec .commit u

theorem exec_commit_of_releaseHeld {s u : State} (h : s.releaseHeld s.cur s.me.held.length = u.releaseHeld u.cur u.me.held.length) :
    exec .commit s = exec .commit u := by
  show execCommit s = execCommit u
  rw [execCommit, execCommit, h]

theorem exec_commit_empty {s : State} (h : s.me.held = []) : exec .commit s = .next s.retire := by
  show execCommit s = _
  simp [execCommit, h, State.releaseHeld]

theorem releaseHeld_cons {s : State} {x : HeldSend} {rest : List HeldSend} {d : DestWord} (hheld : s.me.held = x :: rest)
    (hw : s.waitingSends s.cur < 4) (hd : s.destWord (if x.group then .group else .send) x.dest = some d) (n : Nat) :
    s.releaseHeld s.cur (n + 1) = ((s.setMe { s.me with held := rest }).sendAll s.cur d 0 x.payload none
      (s.destRanks s.cur x.group d)).releaseHeld s.cur n := by
  have hthread : (s.thread s.cur).held = x :: rest := hheld
  rw [State.releaseHeld]
  simp only [hthread, Nat.not_le.mpr hw, if_false, hd]
  rfl

/-- COMMIT issues the oldest held send (R149, R318). -/
theorem commit_issues {s : State} {x : HeldSend} {rest : List HeldSend} {d : DestWord} (hheld : s.me.held = x :: rest)
    (hw : s.waitingSends s.cur < 4) (hd : s.destWord (if x.group then .group else .send) x.dest = some d) (hdev : d.ddev = s.dev) :
    ∃ u, Issued s rest u ∧ Went s u.retire { s.me with seq := s.me.seq + 1, held := rest } ∧
      ∃ is, u.net = s.net ++ is ∧ Messages s is 0 d.ninsn (s.destRanks s.cur x.group d) d.chan x.payload none := by
  obtain ⟨hsent, is, hnet, his⟩ := sendAll_spec (s.setMe { s.me with held := rest }) (d := d) hdev 0 x.payload none
    (s.destRanks s.cur x.group d)
  have hme := hsent.me.trans (seqTaken_me _)
  rw [State.me_setMe] at hme
  have hother : ∀ h, h ≠ s.cur → State.thread _ h = s.thread h := fun h hh =>
    (hsent.thread h).trans ((seqTaken_thread_ne (s.setMe { s.me with held := rest }) hh).trans (State.thread_setMe_ne _ _ hh))
  obtain ⟨hlen, hget⟩ := messages_of_carries his
  refine ⟨_, ⟨hme, hother, Quiet.of_setMe (quiet_of_onlySent hsent), hsent.instrs, ?_⟩, ?_, is, hnet, hlen, fun j hj =>
    IsMessage.of_setMe (hget j hj) rfl rfl⟩
  · refine exec_commit_of_releaseHeld ?_
    rw [hme, hheld, List.length_cons, releaseHeld_cons hheld hw hd, hsent.cur]
    rfl
  · have hm : Thread.Steady { s.me with seq := s.me.seq + 1, held := rest } s.me := ⟨rfl, rfl, rfl, rfl, rfl, rfl, rfl, rfl, rfl⟩
    refine Went.of_me hsent.cur hme hother ?_ hm
    rw [hsent.det, hsent.cur, hsent.partOfHart]
    have hp : (s.setMe { s.me with held := rest }).seqTaken.partOfHart s.cur = s.partOfHart s.cur :=
      (State.partOfHart_setMe _ _ (by rfl)).trans (State.partOfHart_setMe _ _ (by rfl))
    exact congrArg (fun p => s.det p) hp

/-- A send goes into the hold buffer. -/
theorem sendHeld_eq {s : State} {group : Bool} {rs1 : Reg} {d : DestWord}
    (hd : s.destWord (if group then .group else .send) (s.rx rs1) = some d) (hok : s.destOk group d = true)
    (hh : s.me.held.length < 8) :
    sendHeld s group rs1 = .next (s.setMe { s.me with
      held := s.me.held ++ [{ dest := s.rx rs1, group := group, payload := s.me.payload }] }).retire := by
  simp only [sendHeld, hd, hok, Bool.not_true, Bool.false_eq_true, if_false, Nat.not_le.mpr hh]

/-- Settles O16: what is held stays in the thread; COMMIT goes on as `commit_issues` says. -/
theorem heldSendResults : Obligations.HeldSendResults := by
  intro s rs1 drank chan g d p rest
  dsimp only
  intro hdrank hchan
  have hthread : ∀ {w : Word}, w = BitVec.ofNat 64 (drank + chan * 2 ^ 20) →
      s.destWord .send w = some ⟨0, s.dev, chan, drank, drank % 256⟩ := fun hw =>
    PlainWord.destWord_thread s (by rw [hw]; exact plainWord_zero hdrank hchan) (.inl rfl) rfl
  have hgroup : ∀ {w : Word}, g < 256 → w = BitVec.ofNat 64 (g + chan * 2 ^ 20) →
      s.destWord .group w = some ⟨0, s.dev, chan, g, g⟩ := fun hg hw =>
    PlainWord.destWord_group s (by rw [hw]; exact plainWord_zero (hg.trans (by decide)) hchan) hg rfl
  refine ⟨fun hword hh => ?_, fun hg hword hown hh => ?_, ?_, fun hh => ?_, fun hh hw => ?_, fun hw => ⟨fun hh => ?_, fun hg hown hh => ?_⟩,
    fun hh hw => ?_⟩
  · refine ⟨_, sendHeld_eq (group := false) (hthread hword) rfl hh, ?_⟩
    rw [hword]
    exact State.retire_retired s _ rfl rfl rfl rfl rfl rfl rfl rfl rfl
  · exact ⟨_, sendHeld_eq (group := true) (hgroup hg hword) (by simp [State.destOk, hown]) hh,
      State.retire_retired s _ rfl rfl rfl rfl rfl rfl rfl rfl rfl⟩
  · exact ⟨_, rfl, State.retire_retired s _ rfl rfl rfl rfl rfl rfl rfl rfl rfl⟩
  · exact ⟨_, exec_commit_empty hh, s.retire_retired_self⟩
  · obtain ⟨x, rest, hx⟩ := List.exists_cons_of_ne_nil hh
    have hx' : (s.thread s.cur).held = x :: rest := hx
    refine ⟨_, ?_, rfl⟩
    show execCommit s = blockOn s .retry
    simp [execCommit, hx, State.releaseHeld, hx', hw]
  · obtain ⟨u, hu, -, is, hnet, his⟩ := commit_issues hh hw (hthread rfl) rfl
    obtain ⟨i, rfl, hi⟩ := his.one
    exact ⟨u, hu, i, hnet, hi⟩
  · obtain ⟨u, hu, -, is, hnet, hlen, his⟩ := commit_issues hh hw (hgroup hg rfl) rfl
    have hranks : s.destRanks s.cur true ⟨0, s.dev, chan, g, g⟩ = d.map (· * 8) := by
      rw [State.destRanks, if_pos rfl, group_of_ownGroup hown]
    refine ⟨u, hu, is, hnet, ?_, fun j hj => ?_⟩
    · rw [hlen, hranks, List.length_map]
    · have := his j hj
      rwa [hranks, getD_map_mul] at this
  · obtain ⟨u, ⟨hme, -, hquiet, -, hexec⟩, hwent, is, hnet, his⟩ := commit_issues hh hw (hthread rfl) rfl
    obtain ⟨i, rfl, hi⟩ := his.one
    exact ⟨_, hexec.trans (exec_commit_empty (by rw [hme])), hwent, hquiet, i, hnet, hi⟩

/-! ### SYNC and BAR (O20) -/

/-- Settles O20. -/
theorem syncBarrierResults : Obligations.SyncBarrierResults := by
  refine ⟨fun s o c => ⟨fun h => ?_, fun ho ha => ?_⟩, fun s rs1 d r => ?_⟩
  · have hwait : (Order.releases o && s.openAccess s.cur) = false := by obtain h | h := h <;> simp [h]
    refine ⟨_, ?_, s.retire_retired_self⟩
    show execSync o c s = _
    rw [execSync, if_neg (by simp [hwait])]
  · refine ⟨_, ?_, rfl⟩
    show execSync o c s = _
    rw [execSync, if_pos (by simp [ho, ha])]
    rfl
  · dsimp only
    refine ⟨fun hx hg hr => ?_, fun hr => ⟨_, ?_, s.retire_retired_self⟩⟩
    · have hexec : exec (.bar rs1) s = execBar rs1 s := rfl
      simp only [execBar, hr, Nat.not_le.mpr hx, if_false, hg] at hexec
      exact ⟨_, hexec, State.me_setMe _ _, rfl, rfl, _, rfl, rfl, rfl, rfl⟩
    · show execBar rs1 s = _
      simp only [execBar, hr]

/-! ### Returning operations on translated addresses (O22) -/

section
variable {s : State} (hr : s.me.resp = none) {i : Instr} {rd rs1 : Reg} (ht : routeOf (s.rx rs1).toNat = .translated)
include hr ht

theorem amo_asks {op : AmoOp} {o : Order} {dbl : Bool} {r4 : BitVec 4} (h : exec i s = amoOut s op o dbl rd r4 rs1)
    (ha : (s.rx rs1).toNat % (if dbl then 8 else 4) = 0) :
    Ends i s fun t => Asked s t (.amo op (s.rx rs1).toNat (if dbl then 8 else 4)
      ((s.rx (r4.setWidth 5)).toNat % 2 ^ (8 * (if dbl then 8 else 4))) ((s.rx rd).toNat % 2 ^ (8 * (if dbl then 8 else 4))))
      (Order.releases o) := by
  simp only [amoOut, hr, ha, ne_eq, not_true_eq_false, if_false, ht] at h
  exact Ends.of_ask h

theorem ldf_asks {op : Nat → RetOp} {k : AccKind} (h : exec i s = ldfOut s rd rs1 op k) (ha : (s.rx rs1).toNat % 8 = 0) :
    Ends i s fun t => Asked s t (op (s.rx rs1).toNat) false := by
  simp only [ldfOut, hr, ha, ne_eq, not_true_eq_false, if_false, ht] at h
  exact Ends.of_ask h

theorem joindec_asks (ha : (s.rx rs1).toNat % 64 = 0) :
    Ends (.joindec rd rs1) s fun t => Asked s t (.joindec (s.rx rs1).toNat) true := by
  have h : exec (.joindec rd rs1) s = execJoindec rd rs1 s := rfl
  simp only [execJoindec, hr, ha, ne_eq, not_true_eq_false, if_false, ht] at h
  exact Ends.of_ask h

theorem waitgen_asks {rs2 : Reg} (ha : (s.rx rs1).toNat % 64 = 0) (hg : (s.rx rs2).toNat < 256) :
    Ends (.waitgen rd rs2 rs1) s fun t => Asked s t (.waitgen (s.rx rs1).toNat (s.rx rs2).toNat) false := by
  have h : exec (.waitgen rd rs2 rs1) s = execWaitgen rd rs2 rs1 s := rfl
  simp only [execWaitgen, hr, ha, ne_eq, not_true_eq_false, if_false, ht, Nat.not_le.mpr hg] at h
  exact Ends.of_ask h

end

section
variable {s : State} {i : Instr} {r : Resp} (hr : s.me.resp = some r) {rd rs1 : Reg}
include hr

theorem amo_response {op : AmoOp} {o : Order} {dbl : Bool} {r4 : BitVec 4} (h : exec i s = amoOut s op o dbl rd r4 rs1) :
    Gives i s rd r.value := by
  simp only [amoOut, hr] at h
  exact Gives.of_writeReg h

theorem ldf_response {op : Nat → RetOp} {k : AccKind} (h : exec i s = ldfOut s rd rs1 op k) : Gives i s rd r.value := by
  simp only [ldfOut, hr] at h
  exact Gives.of_writeReg h

theorem joindec_response : Gives (.joindec rd rs1) s rd r.value := by
  have h : exec (.joindec rd rs1) s = execJoindec rd rs1 s := rfl
  simp only [execJoindec, hr] at h
  exact Gives.of_writeReg h

theorem waitgen_response {rs2 : Reg} : Gives (.waitgen rd rs2 rs1) s rd r.value := by
  have h : exec (.waitgen rd rs2 rs1) s = execWaitgen rd rs2 rs1 s := rfl
  simp only [execWaitgen, hr] at h
  exact Gives.of_writeReg h

end

/-- Settles O22: each asks the home, then gives what the response says. -/
theorem returningOperationResults : Obligations.ReturningOperationResults := by
  refine ⟨fun s o c dbl rd rs1 rs2 r4 => ?_, fun s o c dbl rd rs1 rs2 r4 r => ?_⟩
  · dsimp only
    intro hr ht
    exact ⟨fun ha => ⟨amo_asks hr ht (exec_amoadd ..) ha, amo_asks hr ht (exec_amoand ..) ha, amo_asks hr ht (exec_amoor ..) ha,
        amo_asks hr ht (exec_amoxor ..) ha, amo_asks hr ht (exec_amomin ..) ha, amo_asks hr ht (exec_amomax ..) ha,
        amo_asks hr ht (exec_amominu ..) ha, amo_asks hr ht (exec_amomaxu ..) ha, amo_asks hr ht (exec_amoswap ..) ha,
        amo_asks hr ht (exec_amocas ..) ha, amo_asks hr ht (exec_amofadd ..) ha⟩,
      fun ha => ⟨ldf_asks hr ht (exec_ldf ..) ha, ldf_asks hr ht (exec_ldfe ..) ha⟩, fun ha => joindec_asks hr ht ha,
      fun ha hg => waitgen_asks hr ht ha hg⟩
  · dsimp only
    intro hr
    exact ⟨amo_response hr (exec_amoadd ..), amo_response hr (exec_amoand ..), amo_response hr (exec_amoor ..),
      amo_response hr (exec_amoxor ..), amo_response hr (exec_amomin ..), amo_response hr (exec_amomax ..),
      amo_response hr (exec_amominu ..), amo_response hr (exec_amomaxu ..), amo_response hr (exec_amoswap ..),
      amo_response hr (exec_amocas ..), amo_response hr (exec_amofadd ..), ldf_response hr (exec_ldf ..),
      ldf_response hr (exec_ldfe ..), joindec_response hr, waitgen_response hr⟩

/-! ### Capabilities (O23) -/

/-- Items without a capability that are no matrix commands leave what is written under a capability. -/
theorem writesUnderAt_of_onlySent {s u : State} {site : Nat} (h : OnlySent s u site) {is : List Item} (hnet : u.net = s.net ++ is)
    (hcap : ∀ i ∈ is, i.cap = none) (hbody : ∀ i ∈ is, ∀ c, i.body ≠ .mcmd c) (core : Nat) (k : Cap) :
    u.writesUnderAt core k = s.writesUnderAt core k := by
  have hxfers : (u.tile (core / 4)).xfers = (s.tile (core / 4)).xfers := by
    obtain ⟨_, ht⟩ := h.tile (core / 4)
    rw [ht]
  have hpart : ∀ p, u.part p = s.part p := fun p => by rw [State.part, State.part, h.parts]
  have hnew : ∀ f : Item → Bool, (is.any fun i => coreOf i.src == core && i.cap == some (k.rid, k.gen) && f i) = false := by
    intro f
    rw [List.any_eq_false]
    intro i hi
    simp [hcap i hi]
  have hlisted := h.listed (fun t => (t.mqueue ++ (t.mrun.map (·.cmd)).toList).any fun c =>
    coreOf c.src == core && c.writesUnder (s.part (s.partOfHart (core * 8))).floe k) (fun _ _ => rfl) rfl
  rw [State.writesUnderAt, State.writesUnderAt, State.engineUnder, State.engineUnder, State.matCmds, State.matCmds]
  simp only [List.any_append] at hlisted
  simp only [h.partOfHart, hpart, hxfers, hnet, List.any_append, List.filterMap_append, List.any_flatMap, hnew, Bool.or_false, hlisted]
  rw [List.filterMap_eq_nil_iff (l := is) |>.mpr]
  · rw [List.any_nil, Bool.or_false]
  · intro i hi
    split
    · next c hc => exact absurd hc (hbody i hi c)
    · rfl

theorem seqTaken_partOfHart (s : State) (h : Nat) : s.seqTaken.partOfHart h = s.partOfHart h := by
  have hact : (s.seqTaken.thread h).act = (s.thread h).act := by
    by_cases hh : h = s.cur
    · rw [hh, show s.seqTaken.thread s.cur = _ from seqTaken_me s]
      rfl
    · rw [seqTaken_thread_ne s hh]
  simp only [State.partOfHart, hact]
  rfl

theorem seqTaken_writesUnderAt (s : State) (core : Nat) (k : Cap) : s.seqTaken.writesUnderAt core k = s.writesUnderAt core k := by
  simp only [State.writesUnderAt, State.engineUnder, seqTaken_partOfHart]
  rfl

/-- The items of messages leave what is written under a capability. -/
theorem writesUnder_sendAll {s u : State} (h : OnlySent s.seqTaken u s.site) {is : List Item} (hnet : u.net = s.net ++ is)
    {kind ninsn chan : Nat} {ranks : List Nat} {pl : Vector Word 8} {cap : Option Cap} (his : Messages s is kind ninsn ranks chan pl cap)
    (hcap : ∀ i ∈ is, i.cap = none) (k : Cap) : u.writesUnder k = s.writesUnder k := by
  rw [State.writesUnder, h.cur, writesUnderAt_of_onlySent h hnet hcap (fun i hi c hc => ?_) _ k, seqTaken_writesUnderAt]
  · rfl
  · obtain ⟨hlen, hget⟩ := his
    obtain ⟨j, hj, rfl⟩ := List.mem_iff_getElem.mp hi
    obtain ⟨-, -, -, -, -, m, hbody, -⟩ := hget j hj
    rw [hbody] at hc
    cases hc

theorem exec_handover (rs1 : Reg) (n : BitVec 2) (s : State) : exec (.handover rs1 n) s = execHandover rs1 n s := rfl
theorem exec_capdrop (n : BitVec 2) (s : State) : exec (.capdrop n) s = execCapdrop n s := rfl

/-- CAPDROP of a capability empties the slot and sends the notice. -/
theorem capdrop_sends {s : State} {n : BitVec 2} {c : Cap} (hrun : s.me.status = .running) (hslot : s.slot n = some c) :
    ∃ u i, exec (.capdrop n) s = capdropWait u c ∧ u.writesUnder c = s.writesUnder c ∧ u.me = s.me ∧ u.cur = s.cur ∧
      u = { s.clearSlot n with net := s.net ++ [i], ordCtr := s.ordCtr + 1 } ∧ i.body = .capReturn (s.partOfHart s.cur) c := by
  refine ⟨(s.clearSlot n).emit { (s.clearSlot n).item s.cur 0 false (.root (s.partOfHart s.cur))
    (.capReturn (s.partOfHart s.cur) c) with counted := false }, _, ?_, ?_, rfl, rfl, rfl, rfl⟩
  · rw [exec_capdrop, execCapdrop, hrun]
    simp only [hslot]
    rfl
  · exact writesUnderAt_of_onlySent (OnlySent.emit (s.clearSlot n) 0 _) rfl (by simp; rfl) (by simp [State.item]) (coreOf s.cur) c

/-- HANDOVER of a capability empties the slot and sends it. -/
theorem handover_sends {s : State} {rs1 : Reg} {n : BitVec 2} {c : Cap} {drank chan : Nat} (hrun : s.me.status = .running)
    (hslot : s.slot n = some c) (hdrank : drank < 2 ^ 18) (hchan : chan < 16) (hword : s.rx rs1 = BitVec.ofNat 64 (drank + chan * 2 ^ 20))
    (hw : s.waitingSends s.cur < 4) :
    ∃ u i, exec (.handover rs1 n) s = handoverWait u c ∧ u.writesUnder c = s.writesUnder c ∧ OnlySent (s.clearSlot n).seqTaken u s.site ∧
      u.net = s.net ++ [i] ∧ IsMessage s i 0 0 drank chan s.me.payload (some c) := by
  have hp : PlainWord (s.rx rs1) drank chan 0 := by rw [hword]; exact plainWord_zero hdrank hchan
  obtain ⟨hsent, is, hnet, his⟩ := sendAll_spec (s.clearSlot n) (d := ⟨0, s.dev, chan, drank, drank % 256⟩) rfl 0 s.me.payload (some c) [drank]
  have hmsgs := messages_of_carries his
  have hcap : ∀ i ∈ is, i.cap = none := by
    obtain ⟨_, _, hi, htail, rfl⟩ := List.forall₂_cons_left_iff.mp his
    cases htail
    simpa using hi.cap
  have hwrites := writesUnder_sendAll hsent hnet hmsgs hcap c
  obtain ⟨i, rfl, hi⟩ := hmsgs.one
  refine ⟨_, i, ?_, hwrites, hsent, hnet, hi⟩
  rw [exec_handover, execHandover, hrun]
  simp only [hp.destWord_thread s (.inr rfl) rfl, hslot, Nat.not_le.mpr hw, if_false]
  rfl

/-- Settles O23: a slot is told, or emptied and sent; while a write under the capability is outstanding the thread waits. -/
theorem capabilityResults : Obligations.CapabilityResults := by
  intro s rd rs1 n drank chan c
  dsimp only
  refine ⟨fun hs => ⟨?_, ?_⟩, fun hs => ⟨?_, ?_⟩, fun hrun hs => ?_, fun hrun hs hw => ?_, fun hrun hs hw => ⟨?_, fun hd hc hx hws => ?_⟩,
    fun hrun hs hw hd hc hx hws => ?_, fun hst => ⟨fun hw => ?_, fun hw => ?_⟩, fun hst => ⟨fun hw => ?_, fun hw => ?_⟩⟩
  · exact Gives.of_eq rfl (by rw [hs])
  · exact Gives.of_eq rfl (by rw [hs])
  · exact Gives.of_eq rfl (by simp only [hs, bitsN, Nat.shiftRight_eq_div_pow])
  · exact Gives.of_eq rfl (by rw [hs])
  · refine ⟨_, ?_, s.retire_retired_self⟩
    rw [exec_capdrop, execCapdrop, hrun]
    simp only [hs]
  · obtain ⟨u, i, hexec, hwrites, hme, hcur, hu, hi⟩ := capdrop_sends hrun hs
    rw [capdropWait, hwrites, hw, if_pos rfl] at hexec
    exact ⟨_, hexec, by rw [State.me_setMe, hme], by rw [hu]; rfl, by rw [hu]; rfl, i, by rw [hu]; rfl, hi⟩
  · obtain ⟨u, i, hexec, hwrites, hme, hcur, hu, hi⟩ := capdrop_sends hrun hs
    rw [capdropWait, hwrites, hw, if_neg Bool.false_ne_true] at hexec
    exact ⟨_, hexec, Went.of_me hcur hme (by rw [hu]; exact fun _ _ => rfl) (by rw [hu]; rfl) ⟨rfl, rfl, rfl, rfl, rfl, rfl, rfl, rfl, rfl⟩,
      by rw [hu]; rfl, by rw [hu]; rfl, i, by rw [hu]; rfl, hi⟩
  · obtain ⟨u, i, hexec, hwrites, hu, hnet, hi⟩ := handover_sends hrun hs hd hc hx hws
    rw [handoverWait, hwrites, hw, if_neg Bool.false_ne_true] at hexec
    have hwent := went_of_onlySent (s := s.clearSlot n) hu
    exact ⟨_, hexec, ⟨hwent.me, hwent.others⟩, hu.cores, hu.mem, i, hnet, hi⟩
  · obtain ⟨u, i, hexec, hwrites, hu, hnet, hi⟩ := handover_sends hrun hs hd hc hx hws
    rw [handoverWait, hwrites, hw, if_pos rfl] at hexec
    exact ⟨_, hexec, by rw [State.me_setMe, hu.me, seqTaken_me]; rfl, hu.cores, hu.mem, i, hnet, hi⟩
  · refine ⟨_, ?_, rfl⟩
    rw [exec_handover, execHandover, hst]
    simp only [handoverWait, hw, if_true]
    rfl
  · refine ⟨_, ?_, s.retire_retired_self⟩
    rw [exec_handover, execHandover, hst]
    simp only [handoverWait, hw, Bool.false_eq_true, if_false]
  · refine ⟨_, ?_, rfl⟩
    rw [exec_capdrop, execCapdrop, hst]
    simp only [capdropWait, hw, if_true]
    rfl
  · refine ⟨_, ?_, s.retire_retired_self⟩
    rw [exec_capdrop, execCapdrop, hst]
    simp only [capdropWait, hw, Bool.false_eq_true, if_false]

/-! ### Expert queues at their issuer (O24) -/

/-- What an item with the next sequence number that a thread posts to a tile leaves. -/
def PostedTo (s : State) (q : Nat) (release : Bool) (b : Body) (t : State) : Prop :=
  Went s t { s.me with seq := s.me.seq + 1 } ∧ Quiet s t ∧
    ∃ i : Item, t.net = s.net ++ [i] ∧ i.src = s.cur ∧ i.dst = .tile (q / 64) ∧ i.release = release ∧ i.body = b ∧
      i.seq = (s.me.seq + 1).toNat

theorem eqPost_posts (s : State) (q : Nat) (release : Bool) (b : Body) : ∃ t, eqPost s q release b = .next t ∧ PostedTo s q release b t := by
  have h := OnlySent.emit s.seqTaken s.site
    { s.seqTaken.item s.cur (s.me.seq + 1).toNat release (.tile (q / 64)) b with counted := false }
  exact ⟨_, rfl, went_of_onlySent h, Quiet.retire (quiet_of_onlySent h), _, rfl, rfl, rfl, rfl, rfl, rfl⟩

theorem windowKey_local {s : State} {kind : AccKind} {a n k : Nat} (h : LocalAt s kind a n k) : s.windowKey kind a n = .ok k := by
  obtain ⟨hlow, hacc, -⟩ := h
  simp [State.windowKey, State.blockKey, routeOf_local hlow, hacc]

/-- The checks of a push pass (R154). -/
theorem eqpush_checked {s : State} {rs1 rs2 : Reg} {k : Nat} (ha : (s.rx rs1).toNat % 32 = 0) (hl : LocalAt s .read (s.rx rs1).toNat 32 k)
    (hx : (s.rx rs2).toNat < 2 ^ 32) (hok : entryOk (Memory.readN s.mem k 32) = true) :
    exec (.eqpush rs2 rs1) s = if 4 ≤ s.waitingSends s.cur then blockOn s .retry else
      .next ((s.seqTaken.countSent s.site (s.seqTaken.jobOf s.cur) 1).emit (s.seqTaken.item s.cur (s.me.seq + 1).toNat true
        (.tile ((s.rx rs2).toNat / 64)) (.push (s.rx rs2).toNat (Memory.readN s.mem k 32)))).retire := by
  show execEqpush rs2 rs1 s = _
  have hbad : (decide (2 ^ 32 ≤ (s.rx rs2).toNat) || !entryOk (s.bytes k 32)) = false := by
    rw [State.bytes, hok, decide_eq_false (Nat.not_le.mpr hx)]
    rfl
  simp only [execEqpush, ha, ne_eq, not_true_eq_false, if_false, windowKey_local hl, hl.2.2, Bool.false_eq_true, hbad]
  rfl

/-- Settles O24. -/
theorem expertQueueItems : Obligations.ExpertQueueItems := by
  intro s rd rs1 rs2 k r
  dsimp only
  refine ⟨fun ha hl hx h28 h29 h30 h31 h23 => ?_, fun ha => ?_, fun ha hx => ?_, fun ha hr => ?_, fun hr => ?_⟩
  · have hok : entryOk (Memory.readN s.mem k 32) = true := by
      simp only [entryOk, h29, h30, h31, h23, decide_eq_true h28]
      rfl
    have hexec := eqpush_checked ha hl hx hok
    refine ⟨fun hw => ?_, fun hw => ⟨_, hexec.trans (if_pos hw), rfl⟩⟩
    have h := (OnlySent.countSent s.seqTaken s.site (s.seqTaken.jobOf s.cur) 1).trans (OnlySent.emit _ s.site
      (s.seqTaken.item s.cur (s.me.seq + 1).toNat true (.tile ((s.rx rs2).toNat / 64)) (.push (s.rx rs2).toNat (Memory.readN s.mem k 32))))
    obtain ⟨_, _, hcount⟩ := countSent_frame s.seqTaken s.site (s.seqTaken.jobOf s.cur) 1
    exact ⟨_, hexec.trans (if_neg (Nat.not_le.mpr hw)), went_of_onlySent h, Quiet.retire (quiet_of_onlySent h),
      { s.seqTaken.item s.cur (s.me.seq + 1).toNat true (.tile ((s.rx rs2).toNat / 64))
          (.push (s.rx rs2).toNat (Memory.readN s.mem k 32)) with ord := _ },
      (congrArg (fun z : State => z.net ++ [_]) hcount :), rfl, rfl, rfl, rfl, rfl⟩
  · obtain ⟨t, ht, hpost⟩ := eqPost_posts s (s.rx rs1).toNat false (.eqfire (s.rx rs1).toNat)
    refine ⟨t, ?_, hpost⟩
    rw [← ht]
    show execEqfire rs1 s = _
    simp only [execEqfire, Nat.not_le.mpr ha, if_false]
  · obtain ⟨t, ht, hpost⟩ := eqPost_posts s (s.rx rs1).toNat true (.eqdone (s.rx rs1).toNat (s.rx rs2).toNat)
    refine ⟨t, ?_, hpost⟩
    rw [← ht]
    show execEqdone rs1 rs2 s = _
    simp only [execEqdone, Nat.not_le.mpr ha, Nat.not_le.mpr hx, decide_false, Bool.or_self, Bool.false_eq_true, if_false]
  · have hexec : exec (.eqstat rd rs1) s = execEqstat rd rs1 s := rfl
    simp only [execEqstat, hr, Nat.not_le.mpr ha, if_false] at hexec
    refine ⟨_, hexec, ?_, ?_, ?_, rfl, _, rfl, rfl, rfl⟩ <;> rw [State.me_setMe] <;> rfl
  · have hexec : exec (.eqstat rd rs1) s = execEqstat rd rs1 s := rfl
    simp only [execEqstat, hr] at hexec
    exact Gives.of_writeReg hexec

end Sys2Proof.Machine
end

section
/-!
PROOFS. Tasks and local synchronisation (spec/16_messages.md R319-R322, R325-R328): SPAWN, JOINDEC, LAUNCH, DONE, the waits and the
atomics on the own memory.
-/

namespace Sys2Proof.Machine

/-! ### States whose current thread alone has changed -/

/-- A state in which, of the threads, only the current one has changed, into `m`, and which runs in the same mode. -/
structure Threaded (s u : State) (m : Thread) : Prop where
  cur    : u.cur = s.cur
  me     : u.me = m
  others : ∀ h, h ≠ s.cur → u.thread h = s.thread h
  det    : u.det (u.partOfHart u.cur) = s.det (s.partOfHart s.cur)

/-- A state with the threads of another that runs its partitions in the same mode. -/
structure Beside (s u : State) : Prop where
  cur     : u.cur = s.cur
  threads : u.threads = s.threads
  part    : ∀ x, u.partOfHart x = s.partOfHart x
  det     : ∀ p, u.det p = s.det p

namespace Beside

theorem refl (s : State) : Beside s s := ⟨rfl, rfl, fun _ => rfl, fun _ => rfl⟩

theorem trans {s t u : State} (h : Beside s t) (g : Beside t u) : Beside s u :=
  ⟨g.cur.trans h.cur, g.threads.trans h.threads, fun x => (g.part x).trans (h.part x), fun p => (g.det p).trans (h.det p)⟩

/-- The same threads, tiles of the same ranks and the same partitions. -/
theorem of_ranks {s u : State} (hcur : u.cur = s.cur) (hthreads : u.threads = s.threads) (hparts : u.parts = s.parts)
    (hrank : ∀ y, (u.tile y).rank = (s.tile y).rank) : Beside s u :=
  ⟨hcur, hthreads, fun x => by simp only [State.partOfHart, State.partOfSite, State.thread, hthreads, hparts, hrank],
    fun p => by rw [State.det, State.det, State.part, State.part, hparts]⟩

theorem logRec (s : State) (site : Nat) (r : LogRec) : Beside s (s.logRec site r) := by
  have hf := logRec_frame s site r
  refine ⟨(congrArg State.cur hf :), (congrArg State.threads hf :), fun x => partOfHart_logRec s site x r, fun p => ?_⟩
  exact (congrArg (fun u : State => u.det p) hf :)

theorem countRecv (s : State) (site job n : Nat) : Beside s (s.countRecv site job n) := by
  unfold State.countRecv
  split
  · exact ⟨rfl, rfl, fun _ => rfl, fun _ => rfl⟩
  · split
    · refine of_ranks rfl rfl rfl fun y => ?_
      show (SMap.get Tile.init (SMap.put _ _ _) y).rank = _
      rw [SMap.get_put]
      split
      · next h => rw [h]
      · rfl
    · exact refl s

end Beside

theorem OnlySent.beside {s u : State} {site : Nat} (h : OnlySent s u site) : Beside s u :=
  ⟨h.cur, h.threads, h.partOfHart, h.det⟩

namespace Threaded

theorem refl (s : State) : Threaded s s s.me := ⟨rfl, rfl, fun _ _ => rfl, rfl⟩

variable {s u w : State} {m : Thread}

theorem beside (h : Threaded s u m) (b : Beside u w) : Threaded s w m := by
  refine ⟨b.cur.trans h.cur, ?_, fun x hx => ?_, ?_⟩
  · rw [State.me, State.thread, b.threads, b.cur]
    exact h.me
  · rw [State.thread, b.threads]
    exact h.others x hx
  · rw [b.det, b.part, b.cur]
    exact h.det

theorem setMe (h : Threaded s u m) {n : Thread} (ha : n.act = m.act) : Threaded s (u.setMe n) n := by
  refine ⟨h.cur, State.me_setMe u n, fun x hx => ?_, ?_⟩
  · exact (State.thread_setMe_ne u n (by rwa [h.cur])).trans (h.others x hx)
  · have hp : (u.setMe n).partOfHart (u.setMe n).cur = u.partOfHart u.cur := u.partOfHart_setMe n (by rw [ha, h.me])
    rw [hp]
    exact h.det

theorem went (h : Threaded s u m) (hm : m.Steady s.me) : Went s u.retire m := Went.of_me h.cur h.me h.others h.det hm

/-- Writing a register and retiring. -/
theorem writes (h : Threaded s u m) (hm : m.Steady s.me) (hx : m.x = s.me.x) (rd : Reg) (v : Word) :
    ∃ t, writeReg u rd v = .next t ∧ SetsX s t rd v ∧ (∃ x, Went s t { m with x := x }) ∧
      { t with threads := u.threads, instrs := u.instrs } = u := by
  obtain ⟨x, hwx⟩ := Thread.wx_eq m rd v
  have heq : u.wx rd v = u.setMe { m with x := x } := by rw [State.wx, h.me, hwx]
  refine ⟨(u.wx rd v).retire, rfl, fun r => ?_, ⟨x, ?_⟩, ?_⟩
  · have hmx : u.rx r = s.rx r := by rw [State.rx, State.rx, Thread.rx, Thread.rx, h.me, hx]
    rw [State.retire, State.rx_retireTo, State.rx_wx]
    simp only [hmx]
  · rw [heq]
    exact (h.setMe (n := { m with x := x }) rfl).went hm
  · rw [heq]
    rfl

end Threaded

theorem threaded_seqTaken (s : State) : Threaded s s.seqTaken { s.me with seq := s.me.seq + 1 } := (Threaded.refl s).setMe rfl

/-- Steadiness of a thread that differs from another in none of its registers of control. -/
theorem Thread.steady_refl (m : Thread) : m.Steady m := ⟨rfl, rfl, rfl, rfl, rfl, rfl, rfl, rfl, rfl⟩

theorem stored_write {s t : State} (hw : MemWf s) {k : Nat} {bs : List Byte} (hmem : t.mem = Memory.writeN s.mem k bs) :
    Stored s t k bs := by
  rw [Stored, hmem]
  exact ⟨Memory.readN_writeN hw k _, fun b hb => Memory.read_writeN_out hw _ _ _ hb⟩

/-! ### SPAWN (O17) -/

/-- The place of the next frame of the current core's deque, in its tile's own memory. -/
def State.framePlace (s : State) : Option Nat :=
  ((s.core (coreOf s.cur)).frameAt (coreOf s.cur) (s.core (coreOf s.cur)).frameSlot).bind fun a =>
    s.localKey (coreOf s.cur / 4) a 80

/-- A frame joins the own deque as its newest. -/
def State.withFrame (s : State) (f : Frame) : State :=
  s.setCore (coreOf s.cur) { s.core (coreOf s.cur) with
    deque := (s.core (coreOf s.cur)).deque ++ [{ f with slot := (s.core (coreOf s.cur)).frameSlot }] }

theorem pushFrame_own (s : State) (f : Frame) : s.pushFrame (coreOf s.cur) f =
    match s.framePlace with
    | some k => (s.withFrame f).putMem k { f with slot := (s.core (coreOf s.cur)).frameSlot }.bytes
    | none => s.withFrame f := rfl

/-- What pushing a frame onto the own deque changes: its bytes stand at its place. -/
theorem pushFrame_frame (s : State) (f : Frame) :
    ∃ mem dirty poison, s.pushFrame (coreOf s.cur) f = { s.withFrame f with mem := mem, dirty := dirty, poison := poison } ∧
      (s.framePlace = none → mem = s.mem) ∧
      ∀ k, s.framePlace = some k → mem = Memory.writeN s.mem k { f with slot := (s.core (coreOf s.cur)).frameSlot }.bytes := by
  rw [pushFrame_own]
  cases s.framePlace with
  | none => exact ⟨_, _, _, rfl, fun _ => rfl, nofun⟩
  | some k => exact ⟨_, _, _, rfl, nofun, fun k' hk' => by cases hk'; rfl⟩

theorem exec_spawn (rd rs1 rs2 : Reg) (s : State) : exec (.spawn rd rs1 rs2) s = execSpawn rd rs1 rs2 s := rfl

section
variable {s : State} {rd rs1 : Reg} (h4 : (s.rx rs1).toNat % 4 = 0) (h48 : (s.rx rs1).toNat < 2 ^ 48)
include h4 h48

/-- A handler address that is in order. -/
theorem exec_spawn_checked (rs2 : Reg) : exec (.spawn rd rs1 rs2) s =
    if rs2 = 0 then spawnOwn s rd (s.rx rs1)
    else if 2 ^ 15 ≤ (s.rx rs2).toNat then operandError s
    else match s.coreKey (s.partOfHart s.cur) (s.rx rs2).toNat with
      | none => operandError s
      | some key => if key = coreOf s.cur then spawnOwn s rd (s.rx rs1) else spawnFar s rd (s.rx rs1) (s.rx rs2).toNat := by
  have htop : bitsN (s.rx rs1).toNat 63 48 = 0 := by
    rw [bitsN, Nat.shiftRight_eq_div_pow, Nat.div_eq_of_lt h48]
    rfl
  rw [exec_spawn, execSpawn]
  simp only [h4, htop, ne_eq, not_true_eq_false, if_false] <;> rfl

/-- SPAWN onto the own deque while it takes one more. -/
theorem spawn_pushes (ha : s.openAccess s.cur = false)
    (hroom : (s.core (coreOf s.cur)).deque.length < min (s.core (coreOf s.cur)).spawnlim.toNat (s.core (coreOf s.cur)).dqCap) :
    let f := s.frameOf (s.rx rs1) (s.me.seq + 1).toNat
    Ends (.spawn rd rs1 0) s fun t => SetsX s t rd 0 ∧ t.net = s.net ∧ (s.framePlace = none → t.mem = s.mem) ∧
      (∀ k, s.framePlace = some k → MemWf s → Stored s t k { f with slot := (s.core (coreOf s.cur)).frameSlot }.bytes) ∧
      t.cores = SMap.put s.cores (coreOf s.cur) { s.core (coreOf s.cur) with
        deque := (s.core (coreOf s.cur)).deque ++ [{ f with slot := (s.core (coreOf s.cur)).frameSlot }] } ∧
      ∃ x : Vector Word 32, Went s t { s.me with x := x, seq := s.me.seq + 1 } := by
  intro f
  obtain ⟨mem, dirty, poison, hpush, hnone, hsome⟩ := pushFrame_frame s.seqTaken f
  have hsent := OnlySent.countSent (s.seqTaken.pushFrame (coreOf s.cur) f) s.site (s.jobOf s.cur) 1
  obtain ⟨tiles, homes, hcount⟩ := countSent_frame (s.seqTaken.pushFrame (coreOf s.cur) f) s.site (s.jobOf s.cur) 1
  obtain ⟨tiles', homes', hrecv⟩ :=
    countRecv_frame ((s.seqTaken.pushFrame (coreOf s.cur) f).countSent s.site (s.jobOf s.cur) 1) s.site (s.jobOf s.cur) 1
  have hbeside : Beside s.seqTaken (s.seqTaken.pushFrame (coreOf s.cur) f) := by
    rw [show s.seqTaken.pushFrame (coreOf s.cur) f = _ from hpush]
    exact ⟨rfl, rfl, fun _ => rfl, fun _ => rfl⟩
  have hthreaded := (threaded_seqTaken s).beside
    ((hbeside.trans hsent.beside).trans (Beside.countRecv _ s.site (s.jobOf s.cur) 1))
  obtain ⟨t, hwrite, hset, ⟨x, hwent⟩, hrest⟩ := hthreaded.writes (Thread.steady_refl s.me) rfl rd 0
  rw [hrecv, hcount, show s.seqTaken.pushFrame (coreOf s.cur) f = _ from hpush] at hrest
  have hmem : t.mem = mem := (congrArg State.mem hrest :)
  refine ⟨t, ?_, hset, (congrArg State.net hrest :), fun hk => hmem.trans (hnone hk), fun k hk hw => ?_,
    (congrArg State.cores hrest :), x, hwent⟩
  · have htakes : (s.core (coreOf s.cur)).takesFrame = true := decide_eq_true hroom
    rw [exec_spawn_checked h4 h48, if_pos rfl, spawnOwn, ha, ← hwrite]
    simp only [htakes, if_true, Bool.false_eq_true, if_false]
    rfl
  · exact stored_write hw (hmem.trans (hsome k hk))

theorem spawn_full (ha : s.openAccess s.cur = false)
    (hroom : min (s.core (coreOf s.cur)).spawnlim.toNat (s.core (coreOf s.cur)).dqCap ≤ (s.core (coreOf s.cur)).deque.length) :
    Gives (.spawn rd rs1 0) s rd 1 := by
  have htakes : (s.core (coreOf s.cur)).takesFrame = false := decide_eq_false (Nat.not_lt.mpr hroom)
  refine Gives.of_writeReg ?_
  rw [exec_spawn_checked h4 h48, if_pos rfl, spawnOwn, ha]
  simp only [htakes, Bool.false_eq_true, if_false]

/-- SPAWN onto another core. -/
theorem exec_spawn_far {rs2 : Reg} {key : Nat} (h0 : rs2 ≠ 0) (h15 : (s.rx rs2).toNat < 2 ^ 15)
    (hkey : s.coreKey (s.partOfHart s.cur) (s.rx rs2).toNat = some key) (hne : key ≠ coreOf s.cur) :
    exec (.spawn rd rs1 rs2) s = spawnFar s rd (s.rx rs1) (s.rx rs2).toNat := by
  rw [exec_spawn_checked h4 h48, if_neg h0, if_neg (Nat.not_le.mpr h15), hkey]
  exact if_neg hne

end

theorem spawnFar_asks {s : State} (hr : s.me.resp = none) (rd : Reg) (h : Word) (lc : Nat) :
    ∃ t, spawnFar s rd h lc = .next t ∧ t.me.status = .blocked .spawn ∧ t.me.x = s.me.x ∧ t.me.seq = s.me.seq ∧ Quiet s t ∧
      ∃ i : Item, t.net = s.net ++ [i] ∧ i.dst = .core lc ∧ i.release = true ∧ i.body = .frame (s.frameOf h (s.me.seq + 1).toNat) s.cur := by
  obtain ⟨tiles, homes, hcount⟩ := countSent_frame s s.site (s.jobOf s.cur) 1
  refine ⟨_, by rw [spawnFar, hr], ?_, ?_, ?_, ?_,
    { s.item s.cur (s.me.seq + 1).toNat true (.core lc) (.frame (s.frameOf h (s.me.seq + 1).toNat) s.cur) with ord := _ },
    (congrArg (fun z : State => z.net ++ [_]) hcount :), rfl, rfl, rfl⟩
  · rw [State.me_setMe]
  · rw [State.me_setMe]
  · rw [State.me_setMe]
  · exact (congrArg (fun z : State => { z with threads := s.threads, instrs := s.instrs, tiles := s.tiles, homes := s.homes,
                                                net := s.net, ordCtr := s.ordCtr }) hcount :)

theorem quiet_of_rest {s t u : State} (hu : Quiet s u) (h : { t with threads := u.threads, instrs := u.instrs } = u) : Quiet s t := by
  rw [← h] at hu
  exact hu

theorem quiet_seqTaken (s : State) : Quiet s s.seqTaken := rfl

/-- Settles O17. -/
theorem spawnResults : Obligations.SpawnResults := by
  intro s rd rs1 rs2 key r
  dsimp only
  intro h4 h48
  refine ⟨spawn_pushes h4 h48, spawn_full h4 h48, fun h0 h15 hkey hne => ⟨fun hr => ?_, fun hr hv => ?_, fun hr hv => ?_⟩⟩
  · obtain ⟨t, ht, hrest⟩ := spawnFar_asks hr rd (s.rx rs1) (s.rx rs2).toNat
    exact ⟨t, (exec_spawn_far h4 h48 h0 h15 hkey hne).trans ht, hrest⟩
  · obtain ⟨t, hwrite, hset, ⟨x, hwent⟩, hrest⟩ := (threaded_seqTaken s).writes (Thread.steady_refl s.me) rfl rd 0
    refine ⟨t, ?_, hset, quiet_of_rest (quiet_seqTaken s) hrest, x, hwent⟩
    rw [exec_spawn_far h4 h48 h0 h15 hkey hne, spawnFar, hr, ← hwrite]
    exact if_pos hv
  · refine Gives.of_writeReg ?_
    rw [exec_spawn_far h4 h48 h0 h15 hkey hne, spawnFar, hr]
    exact if_neg hv

/-! ### Read-modify-writes on the own memory -/

theorem ofBytes_lt (l : List Byte) : ofBytes l < 256 ^ l.length := by
  induction l with
  | nil => simp [ofBytes]
  | cons b l ih =>
    have hb : b.toNat < 256 := b.isLt
    rw [ofBytes, List.length_cons, pow_succ]
    omega

/-- The bytes of the number that bytes spell are those bytes. -/
theorem bytesOf_ofBytes (l : List Byte) : bytesOf l.length (ofBytes l) = l := by
  induction l with
  | nil => rfl
  | cons b l ih =>
    have hb : b.toNat < 256 := b.isLt
    rw [List.length_cons, bytesOf, ofBytes, show (b.toNat + 256 * ofBytes l) / 256 = ofBytes l by omega, ih]
    congr 1
    apply BitVec.eq_of_toNat_eq
    rw [BitVec.toNat_ofNat]
    omega

/-- A range that keeps its bytes is as if its number had been stored. -/
theorem stored_num {s t : State} (hmem : t.mem = s.mem) (k n : Nat) : Stored s t k (bytesOf n (s.num k n)) := by
  have h := bytesOf_ofBytes (Memory.readN s.mem k n)
  rw [Memory.readN_length] at h
  rw [State.num, State.bytes, h, Stored, Memory.readN_length, hmem]
  exact ⟨rfl, fun _ _ => rfl⟩

/-- An atomic that is performed now logs its value, counts and gives it (R241). -/
theorem localAtomic_live {s u : State} {m : Thread} {f : State → Word × State} {v : Word} (rd : Reg)
    (hreplay : (s.tile s.site).replaying = false) (hfull : (s.tile s.site).ringFull = false) (hf : f s = (v, u))
    (hu : Threaded s u m) (hm : m.Steady s.me) (hx : m.x = s.me.x) :
    ∃ t, localAtomic s rd f = .next t ∧ SetsX s t rd v ∧ (∃ x, Went s t { m with x := x, nAtomic := m.nAtomic + 1 }) ∧
      t.mem = u.mem ∧ t.net = u.net ∧ t.full = u.full ∧ t.cores = u.cores := by
  have hlive : s.replayed 8 s.me.nAtomic = .live := by simp [State.replayed, hreplay]
  obtain ⟨r, hr⟩ : ∃ r, u.log u.site 8 [u.midOf u.cur, BitVec.ofNat 64 u.me.nAtomic, v, 0] none 32 = u.logRec u.site r := ⟨_, rfl⟩
  have hlogged := hu.beside (Beside.logRec u u.site r)
  have hframe := logRec_frame u u.site r
  obtain ⟨t, hwrite, hset, ⟨x, hwent⟩, hrest⟩ :=
    (hlogged.setMe (n := { m with nAtomic := m.nAtomic + 1 }) rfl).writes hm hx rd v
  refine ⟨t, ?_, hset, ⟨x, hwent⟩, (congrArg State.mem hrest).trans (congrArg State.mem hframe :),
    (congrArg State.net hrest).trans (congrArg State.net hframe :), (congrArg State.full hrest).trans (congrArg State.full hframe :),
    (congrArg State.cores hrest).trans (congrArg State.cores hframe :)⟩
  rw [← hwrite, localAtomic]
  simp only [hlive, hfull, Bool.false_eq_true, if_false, hf, hr, hlogged.me]

/-! ### JOINDEC (O18) -/

theorem join_zero {s : State} {k : Nat} (w : Sender) (h : s.num k 8 % 2 ^ 32 = 0) : s.join k w = (BitVec.allOnes 64, s) := by
  simp only [State.join, h, if_true]

theorem join_more {s : State} {k : Nat} (w : Sender) (h0 : s.num k 8 % 2 ^ 32 ≠ 0) (h1 : s.num k 8 % 2 ^ 32 ≠ 1) :
    s.join k w = (BitVec.ofNat 64 (s.num k 8 % 2 ^ 32 - 1), s.putNum k 8 (s.num k 8 - 1)) := by
  simp only [State.join, h0, h1, if_false]

theorem join_last {s : State} {k : Nat} (w : Sender) (h : s.num k 8 % 2 ^ 32 = 1) :
    s.join k w = (0, (s.putNum k 8 (s.num k 8 - 1)).homeMsg w 0 (bitsN (s.num k 8) 49 32) (bitsN (s.num k 8) 53 50)
      (s.words8 (k + 64))) := by
  simp only [State.join, h, if_true, one_ne_zero, if_false]

/-- A message a home sends is one item, counted once. -/
theorem homeMsg_sends (s : State) (w : Sender) (kind drank chan : Nat) (pl : Vector Word 8) :
    OnlySent s (s.homeMsg w kind drank chan pl) (homeSiteNo w.home) ∧ ∃ (i : Item) (m : Msg),
      (s.homeMsg w kind drank chan pl).net = s.net ++ [i] ∧ i.body = .message m ∧ i.dst = .core (drank / 8) ∧
        m.hdr = mkHeader s.dev w.rank drank chan kind 0 w.job s.dev w.seq ∧ m.payload = pl := by
  obtain ⟨_, _, hcount⟩ := countSent_frame s (homeSiteNo w.home) w.job 1
  refine ⟨(OnlySent.countSent s (homeSiteNo w.home) w.job 1).trans (OnlySent.emit _ _ _),
    { s.item w.hart w.seq false (.core (drank / 8)) (.message { mkMsg (mkHeader s.dev w.rank drank chan kind 0 w.job s.dev w.seq) pl none
        with dom := .home (s.homeId w.home) s.dev w.rank }) with
      srank := w.rank, job := w.job, part := w.part, mid := w.mid, src := homeSiteNo w.home * 32, ord := _ }, _,
    (congrArg (fun z : State => z.net ++ [_]) hcount :), rfl, rfl, rfl, rfl⟩

theorem routeOf_record {a : Nat} (h : a + 128 ≤ Config.sysArea) : routeOf a = .localWin :=
  routeOf_local (by simp only [Config.sysArea] at h; omega)

/-- A JOINDEC of the current thread on a record of the own memory. -/
def State.joinOwn (k : Nat) (s : State) : Word × State := s.seqTaken.join k (s.seqTaken.meSender (s.me.seq + 1).toNat)

/-- Settles O18, by the three cases of `State.join`. -/
theorem joindecResults : Obligations.JoindecResults := by
  intro s rd rs1 k
  dsimp only
  intro hr hw ha hrec hacc hopen hreplay hfull
  have hexec : exec (.joindec rd rs1) s =
      localAtomic s rd (State.joinOwn k) := by
    show execJoindec rd rs1 s = _
    have hplace : recordPlace (s.rx rs1).toNat = true := decide_eq_true hrec
    simp only [execJoindec, hr, ha, ne_eq, not_true_eq_false, if_false, routeOf_record hrec, hplace, Bool.not_true,
      Bool.false_eq_true, hacc, hopen]
    rfl
  rw [Ends]
  simp only [hexec]
  have hnum : s.seqTaken.num k 8 = s.num k 8 := rfl
  have hput : Beside s.seqTaken (s.seqTaken.putNum k 8 (s.num k 8 - 1)) := ⟨rfl, rfl, fun _ => rfl, fun _ => rfl⟩
  by_cases h0 : s.num k 8 % 2 ^ 32 = 0
  · obtain ⟨t, ht, hset, hwent, hmem, hnet, -, -⟩ := localAtomic_live (f := State.joinOwn k) rd hreplay hfull
      (join_zero (s := s.seqTaken) _ h0) (threaded_seqTaken s) (Thread.steady_refl s.me) rfl
    simp only [h0, if_true]
    exact ⟨t, ht, hset, stored_num hmem k 8, hwent, fun _ => hnet, fun h => absurd h (by decide)⟩
  by_cases h1 : s.num k 8 % 2 ^ 32 = 1
  · obtain ⟨hsent, i, m, hi, hbody, hdst, hhdr, hpl⟩ := homeMsg_sends (s.seqTaken.putNum k 8 (s.num k 8 - 1))
      (s.seqTaken.meSender (s.me.seq + 1).toNat) 0 (bitsN (s.num k 8) 49 32) (bitsN (s.num k 8) 53 50) (s.words8 (k + 64))
    obtain ⟨t, ht, hset, hwent, hmem, hnet, -, -⟩ := localAtomic_live (f := State.joinOwn k) rd hreplay hfull
      (join_last (s := s.seqTaken) _ h1) ((threaded_seqTaken s).beside (hput.trans hsent.beside)) (Thread.steady_refl s.me) rfl
    simp only [h1, one_ne_zero, if_false]
    have hq : (s.me.seq + 1).toNat % 2 ^ 32 = (s.me.seq + 1).toNat := Nat.mod_eq_of_lt (s.me.seq + 1).isLt
    exact ⟨t, ht, hset, stored_write hw (hmem.trans hsent.mem), hwent, fun h => absurd rfl h, fun _ =>
      ⟨i, m, hnet.trans hi, hbody, by rw [hhdr]; rfl, by rw [hhdr]; rfl, by rw [hhdr]; rfl, by rw [hhdr]; exact hq,
        by rw [hhdr]; rfl, hpl, hdst⟩⟩
  · obtain ⟨t, ht, hset, hwent, hmem, hnet, -, -⟩ := localAtomic_live (f := State.joinOwn k) rd hreplay hfull
      (join_more (s := s.seqTaken) _ h0 h1) ((threaded_seqTaken s).beside hput) (Thread.steady_refl s.me) rfl
    simp only [h0, if_false]
    exact ⟨t, ht, hset, stored_write hw hmem, hwent, fun _ => hnet, fun h => absurd h h1⟩

/-! ### Waits, LDF, LDFE, STF and atomics on the own memory (O21) -/

theorem waitgen_local {s : State} {rd rs1 rs2 : Reg} {k : Nat} (hr : s.me.resp = none) (ha : (s.rx rs1).toNat % 64 = 0)
    (hrec : (s.rx rs1).toNat + 128 ≤ Config.sysArea) (hg : (s.rx rs2).toNat < 256) (hl : LocalAt s .read (s.rx rs1).toNat 8 k) :
    exec (.waitgen rd rs2 rs1) s = localWait s rd (.waitgen k (s.rx rs2).toNat) k s.site := by
  show execWaitgen rd rs2 rs1 s = _
  have hplace : recordPlace (s.rx rs1).toNat = true := decide_eq_true hrec
  simp only [execWaitgen, hr, ha, ne_eq, not_true_eq_false, if_false, Nat.not_le.mpr hg, routeOf_record hrec, hplace, Bool.not_true,
    Bool.false_eq_true, hl.2.1, hl.2.2]

theorem ldfOut_local {s : State} {rd rs1 : Reg} {op : Nat → RetOp} {kind : AccKind} {k : Nat} (hr : s.me.resp = none)
    (ha : (s.rx rs1).toNat % 8 = 0) (hl : LocalAt s kind (s.rx rs1).toNat 8 k) :
    ldfOut s rd rs1 op kind = localWait s rd (op k) k (s.holder (s.rx rs1).toNat) := by
  simp only [ldfOut, hr, ha, ne_eq, not_true_eq_false, if_false, routeOf_local hl.1, hl.2.1, hl.2.2, Bool.false_eq_true]

theorem logAnswer_eq (s : State) (i : Item) (v : Word) : ∃ r, s.logAnswer i v = s.logRec (siteOf i.src) r := ⟨_, rfl⟩

section
variable {s : State} {i : Instr} {rd : Reg} {op : RetOp} {k home : Nat} (h : exec i s = localWait s rd op k home)
include h

/-- A wait whose condition holds now gives its value. -/
theorem localWait_gets {bits : List Nat} (hreplay : (s.tile s.site).replaying = false) (hfull : (s.tile s.site).ringFull = false)
    (hp : s.performAt op k (s.meSender 0) = (some (BitVec.ofNat 64 (s.num k 8)), { s with full := bits })) :
    Ends i s fun t => SetsX s t rd (BitVec.ofNat 64 (s.num k 8)) ∧ Noted s t ∧ t.full = bits ∧
      ∃ x : Vector Word 32, Went s t { s.me with x := x } := by
  obtain ⟨r, hr⟩ := logAnswer_eq { s with full := bits } (s.item s.cur 0 false (.site home) (.ret op)) (BitVec.ofNat 64 (s.num k 8))
  have hb : Beside s { s with full := bits } := ⟨rfl, rfl, fun _ => rfl, fun _ => rfl⟩
  have hframe := logRec_frame { s with full := bits } s.site r
  obtain ⟨t, hwrite, hset, hwent, hrest⟩ := ((Threaded.refl s).beside (hb.trans (Beside.logRec _ s.site r))).writes
    (Thread.steady_refl s.me) rfl rd (BitVec.ofNat 64 (s.num k 8))
  have htile : ∀ y, t.tile y = ({ s with full := bits }.logRec s.site r).tile y := fun y => (congrArg (fun u : State => u.tile y) hrest :)
  refine ⟨t, ?_, hset, ⟨?_, ?_, fun y hy => ?_⟩, (congrArg State.full hrest).trans (congrArg State.full hframe :), hwent⟩
  · rw [h, localWait, ← hwrite]
    simp only [hreplay, hfull, Bool.false_eq_true, if_false, hp, hr]
    rfl
  · exact (congrArg (fun u : State => { u with threads := s.threads, instrs := s.instrs, tiles := s.tiles,
                                               firnMem := s.firnMem, full := s.full }) hrest).trans
      (congrArg (fun u : State => { u with threads := s.threads, instrs := s.instrs, full := s.full }) hframe :)
  · rw [htile]
    exact logRec_tile_self { s with full := bits } s.site r
  · rw [htile]
    exact logRec_tile_ne { s with full := bits } r hy

/-- One whose record finds no room is issued again. -/
theorem localWait_again {v : Word} {u : State} (hreplay : (s.tile s.site).replaying = false) (hfull : (s.tile s.site).ringFull = true)
    (hp : s.performAt op k (s.meSender 0) = (some v, u)) : Ends i s fun t => Waits s t .retry := by
  refine ⟨_, ?_, rfl⟩
  rw [h, localWait]
  simp only [hreplay, hfull, Bool.false_eq_true, if_false, if_true, hp]
  rfl

/-- A wait whose condition does not hold, or that is replayed, stands at its home. -/
theorem localWait_waits (hw : (s.tile s.site).replaying = true ∨ s.performAt op k (s.meSender 0) = (none, s)) :
    Ends i s fun t => t.mem = s.mem ∧ t.full = s.full ∧ t.tiles = s.tiles ∧ (∀ h, h ≠ s.cur → t.thread h = s.thread h) ∧
      ∃ i : Item, t.net = s.net ++ [i] ∧ i.src = s.cur ∧ i.dst = .site home ∧ i.body = .ret op ∧ i.stage = .held 0 ∧
        t.me = { s.me with status := .blocked .response, req := i.ord + 1 } := by
  have hexec : exec i s = .next ((s.emit { s.item s.cur 0 false (.site home) (.ret op) with counted := false, stage := .held 0 }).setMe
      { s.me with status := .blocked .response, req := s.ordCtr + 1 }) := by
    rw [h, localWait]
    cases hreplay : (s.tile s.site).replaying with
    | true => rfl
    | false =>
      obtain hw | hw := hw
      · exact absurd hw (by simp [hreplay])
      · simp only [hw]
        rfl
  exact ⟨_, hexec, rfl, rfl, rfl, fun x hx => State.thread_setMe_ne _ _ hx, _, rfl, rfl, rfl, rfl, rfl, State.me_setMe _ _⟩

end

theorem exec_stf (rs2 rs1 : Reg) (s : State) : exec (.stf rs2 rs1) s = execStf rs2 rs1 s := rfl

theorem stf_local {s : State} {rs1 rs2 : Reg} {k : Nat} (ha : (s.rx rs1).toNat % 8 = 0) (hl : LocalAt s .write (s.rx rs1).toNat 8 k)
    (hw : MemWf s) (hh : s.atHome (s.rx rs1).toNat = false) (ho : s.openAccess s.cur = false) :
    Ends (.stf rs2 rs1) s fun t => Stored s t k (bytesOf 8 (s.rx rs2).toNat) ∧ Went s t s.me ∧
      t.full = (s.setFull k 8).full ∧ t.net = s.net ∧ t.tiles = s.tiles := by
  have hb : Beside s (s.putEngine k (bytesOf 8 (s.rx rs2).toNat)) := ⟨rfl, rfl, fun _ => rfl, fun _ => rfl⟩
  refine ⟨(s.putEngine k (bytesOf 8 (s.rx rs2).toNat)).retire, ?_, stored_write hw rfl,
    ((Threaded.refl s).beside hb).went (Thread.steady_refl s.me), ?_, rfl, rfl⟩
  · rw [exec_stf, execStf]
    simp only [ha, ne_eq, not_true_eq_false, if_false, routeOf_local hl.1, hl.2.1, hh, ho, Bool.or_self, Bool.false_eq_true]
  · show (s.setFull k (bytesOf 8 (s.rx rs2).toNat).length).full = _
    rw [bytesOf_length]

theorem stf_posts {s : State} {rs1 rs2 : Reg} (ha : (s.rx rs1).toNat % 8 = 0) (ht : routeOf (s.rx rs1).toNat = .translated) :
    Ends (.stf rs2 rs1) s fun t => Went s t { s.me with seq := s.me.seq + 1 } ∧ Quiet s t ∧
      ∃ i : Item, t.net = s.net ++ [i] ∧ i.dst = homeOf (s.rx rs1).toNat ∧ i.release = true ∧
        i.body = .store (s.rx rs1).toNat (bytesOf 8 (s.rx rs2).toNat) true := by
  have hsent : OnlySent s.seqTaken (s.post (s.rx rs1).toNat (bytesOf 8 (s.rx rs2).toNat) true true) s.site :=
    (OnlySent.countSent s.seqTaken s.site (s.seqTaken.jobOf s.cur) 1).trans (OnlySent.emit _ _ _)
  obtain ⟨tiles, homes, i, hpost, -, hdst, hbody, -, hrel, -⟩ := post_eq s (s.rx rs1).toNat (bytesOf 8 (s.rx rs2).toNat) true true
  refine ⟨(s.post (s.rx rs1).toNat (bytesOf 8 (s.rx rs2).toNat) true true).retire, ?_, went_of_onlySent hsent,
    Quiet.retire (quiet_of_onlySent hsent), i, (congrArg State.net hpost :), hdst, hrel, hbody⟩
  rw [exec_stf, execStf]
  simp only [ha, ne_eq, not_true_eq_false, if_false, ht]

/-- An atomic of the current thread on the own memory. -/
def State.amoOwn (op : AmoOp) (k w v c : Nat) (s : State) : Word × State :=
  let (old, u) := s.amo op k w v c
  (sext (8 * w) old, u)

/-- What an atomic at a location leaves: the old value is given, and the new one stands there. -/
theorem amo_performs {s : State} {op : AmoOp} {k w v c : Nat} (hw : MemWf s) :
    ∃ u, s.amo op k w v c = (s.num k w, u) ∧ (Beside s u ∧ u.full = s.full ∧ u.net = s.net ∧ u.cores = s.cores) ∧
      ∀ t : State, t.mem = u.mem → Stored s t k
        (bytesOf w (if op = .cas ∧ s.num k w ≠ c then s.num k w else amoF op (8 * w) (s.num k w) v)) := by
  by_cases h : op = .cas ∧ s.num k w ≠ c
  · refine ⟨s, by simp [State.amo, h], ⟨Beside.refl s, rfl, rfl, rfl⟩, fun t ht => ?_⟩
    rw [if_pos h]
    exact stored_num ht k w
  · refine ⟨s.putNum k w (amoF op (8 * w) (s.num k w) v), ?_, ⟨⟨rfl, rfl, fun _ => rfl, fun _ => rfl⟩, rfl, rfl, rfl⟩, fun t ht => ?_⟩
    · rw [State.amo]
      exact if_neg (by simpa using h)
    · rw [if_neg h]
      exact stored_write hw ht

section
variable {s : State} {o : Order} {dbl : Bool} {rd rs1 : Reg} {r4 : BitVec 4} {k : Nat} (hr : s.me.resp = none) (hw : MemWf s)
  (ha : (s.rx rs1).toNat % (if dbl then 8 else 4) = 0) (hl : LocalAt s .write (s.rx rs1).toNat (if dbl then 8 else 4) k)
  (ho : s.openAccess s.cur = false) (hreplay : (s.tile s.site).replaying = false) (hfull : (s.tile s.site).ringFull = false)
include hr hw ha hl ho hreplay hfull

/-- An atomic on the own memory stores its function of the old value, which it gives. -/
theorem amo_local {i : Instr} {op : AmoOp} {new : Nat} (h : exec i s = amoOut s op o dbl rd r4 rs1)
    (hnew : let w := if dbl then 8 else 4
      let old := s.num k w
      let v := (s.rx (r4.setWidth 5)).toNat % 2 ^ (8 * w)
      new = if op = .cas ∧ old ≠ (s.rx rd).toNat % 2 ^ (8 * w) then old else amoF op (8 * w) old v) :
    Ends i s fun t => SetsX s t rd (sext (8 * (if dbl then 8 else 4)) (s.num k (if dbl then 8 else 4))) ∧
      Stored s t k (bytesOf (if dbl then 8 else 4) new) ∧ t.full = s.full ∧ t.net = s.net ∧ t.cores = s.cores ∧
      ∃ x : Vector Word 32, Went s t { s.me with x := x, nAtomic := s.me.nAtomic + 1 } := by
  generalize hwd : (if dbl then 8 else 4) = w at *
  simp only at hnew
  obtain ⟨u, hamo, hu, hst⟩ := amo_performs (w := w) (op := op) (k := k) (v := (s.rx (r4.setWidth 5)).toNat % 2 ^ (8 * w))
    (c := (s.rx rd).toNat % 2 ^ (8 * w)) hw
  have hexec : exec i s = localAtomic s rd (State.amoOwn op k w ((s.rx (r4.setWidth 5)).toNat % 2 ^ (8 * w))
      ((s.rx rd).toNat % 2 ^ (8 * w))) := by
    rw [h, amoOut]
    simp only [hr, hwd, ha, ne_eq, not_true_eq_false, if_false, routeOf_local hl.1, hl.2.1, hl.2.2, ho, Bool.and_false, Bool.or_self,
      Bool.false_eq_true]
    rfl
  have hf : State.amoOwn op k w ((s.rx (r4.setWidth 5)).toNat % 2 ^ (8 * w)) ((s.rx rd).toNat % 2 ^ (8 * w)) s =
      (sext (8 * w) (s.num k w), u) := by rw [State.amoOwn, hamo]
  obtain ⟨t, ht, hset, hwent, hmem, hnet, hfu, hco⟩ := localAtomic_live rd hreplay hfull hf ((Threaded.refl s).beside hu.1)
    (Thread.steady_refl s.me) rfl
  exact ⟨t, hexec.trans ht, hset, hnew ▸ hst t hmem, hfu.trans hu.2.1, hnet.trans hu.2.2.1, hco.trans hu.2.2.2, hwent⟩

end

/-- Settles O21: a wait by its condition, an atomic by `amo_local`. -/
theorem localSynchronisationResults : Obligations.LocalSynchronisationResults := by
  refine ⟨fun s rd rs1 rs2 k => ?_, fun s o c dbl rd rs1 rs2 k => ?_⟩
  · dsimp only
    intro hr
    refine ⟨fun ha hrec hg hl => ?_, fun ha hl => ?_, fun ha hl => ?_, fun ha ht => stf_posts ha ht⟩
    · have h := waitgen_local (rd := rd) hr ha hrec hg hl
      refine ⟨fun hne => ?_, fun hw => localWait_waits h ?_⟩
      · have hp : ∀ w, s.performAt (.waitgen k (s.rx rs2).toNat) k w = (some (BitVec.ofNat 64 (s.num k 8)), s) := fun w => if_neg hne
        exact ⟨fun hreplay hfull => localWait_gets h hreplay hfull (hp _), fun hreplay hfull => localWait_again h hreplay hfull (hp _)⟩
      · exact hw.symm.imp_right fun heq => if_pos heq
    · have h : exec (.ldf rd rs1) s = localWait s rd (.ldf k) k (s.holder (s.rx rs1).toNat) := ldfOut_local hr ha hl
      refine ⟨fun hfull => ?_, fun hw => localWait_waits h ?_⟩
      · have hp : ∀ w, s.performAt (.ldf k) k w = (some (BitVec.ofNat 64 (s.num k 8)), s) := fun w => if_pos hfull
        exact ⟨fun hreplay hfull => localWait_gets h hreplay hfull (hp _), fun hreplay hfull => localWait_again h hreplay hfull (hp _)⟩
      · exact hw.symm.imp_right fun heq => if_neg (by simp [heq])
    · have h : exec (.ldfe rd rs1) s = localWait s rd (.ldfe k) k (s.holder (s.rx rs1).toNat) := ldfOut_local hr ha hl
      refine ⟨fun hfull => ?_, fun hw => localWait_waits h ?_, fun hw hh ho => stf_local ha hl hw hh ho⟩
      · have hp : ∀ w, s.performAt (.ldfe k) k w = (some (BitVec.ofNat 64 (s.num k 8)), s.setEmpty k 8) := fun w => if_pos hfull
        exact ⟨fun hreplay hfull => localWait_gets h hreplay hfull (hp _), fun hreplay hfull => localWait_again h hreplay hfull (hp _)⟩
      · exact hw.symm.imp_right fun heq => if_neg (by simp [heq])
  · dsimp only
    intro hr hw ha hl ho hreplay hfull
    refine ⟨amo_local hr hw ha hl ho hreplay hfull (exec_amoadd ..) (by simp [amoF]),
      amo_local hr hw ha hl ho hreplay hfull (exec_amoand ..) (by simp [amoF]),
      amo_local hr hw ha hl ho hreplay hfull (exec_amoor ..) (by simp [amoF]),
      amo_local hr hw ha hl ho hreplay hfull (exec_amoxor ..) (by simp [amoF]),
      amo_local hr hw ha hl ho hreplay hfull (exec_amomin ..) (by simp [amoF]),
      amo_local hr hw ha hl ho hreplay hfull (exec_amomax ..) (by simp [amoF]),
      amo_local hr hw ha hl ho hreplay hfull (exec_amominu ..) (by simp [amoF]),
      amo_local hr hw ha hl ho hreplay hfull (exec_amomaxu ..) (by simp [amoF]),
      amo_local hr hw ha hl ho hreplay hfull (exec_amoswap ..) (by simp [amoF]),
      amo_local hr hw ha hl ho hreplay hfull (exec_amocas ..) ?_,
      amo_local hr hw ha hl ho hreplay hfull (exec_amofadd ..) ?_⟩
    · simp only [amoF, true_and, ne_eq, ite_not]
    · cases dbl <;> simp [amoF]

/-! ### LAUNCH (O19) -/

theorem bitsN_eq_extract (w : Word) (lo n : Nat) (hn : 0 < n) : bitsN w.toNat (lo + n - 1) lo = (w.extractLsb' lo n).toNat := by
  rw [bitsN, BitVec.extractLsb'_toNat, show lo + n - 1 + 1 - lo = n by omega]

/-- A word of a packet with VALID set and a JOB in its field, which the mask has cleared. -/
theorem launch_word (x m : Word) {job : Nat} (hvalid : m.getLsbD 0 = true) (hjob : m.extractLsb' 32 16 = BitVec.ofNat 16 job) :
    ((x &&& ~~~0xFFFF00000001#64) ||| m).getLsbD 0 = true ∧ bitsN ((x &&& ~~~0xFFFF00000001#64) ||| m).toNat 47 32 = job % 2 ^ 16 := by
  constructor
  · rw [BitVec.getLsbD_or, hvalid, Bool.or_true]
  · have hzero : (~~~0xFFFF00000001#64 : BitVec 64).extractLsb' 32 16 = 0 := by decide
    have := bitsN_eq_extract ((x &&& ~~~0xFFFF00000001#64) ||| m) 32 16 (by decide)
    rw [this, BitVec.extractLsb'_or, BitVec.extractLsb'_and, hzero, hjob]
    simp

theorem getLsbD_ofNat_odd {n : Nat} (h : n % 2 = 1) : (BitVec.ofNat 64 n).getLsbD 0 = true := by
  simp [BitVec.getLsbD_ofNat, Nat.testBit_zero, h]

theorem extract_ofNat_of_div {n job : Nat} (h : n / 2 ^ 32 = job % 2 ^ 16) :
    (BitVec.ofNat 64 n).extractLsb' 32 16 = BitVec.ofNat 16 job := by
  apply BitVec.eq_of_toNat_eq
  rw [BitVec.extractLsb'_toNat, BitVec.toNat_ofNat, BitVec.toNat_ofNat, Nat.shiftRight_eq_div_pow]
  omega

/-- The packet a LAUNCH writes (R91, R321). -/
theorem launchPacketOf_spec (w : Vector Word 8) (job : Nat) :
    (vget 0 (launchPacketOf w job) 0).getLsbD 0 = true ∧ bitsN (vget 0 (launchPacketOf w job) 0).toNat 47 32 = job % 2 ^ 16 ∧
      ∀ j, 1 ≤ j → vget 0 (launchPacketOf w job) j = vget 0 w j := by
  have hmark := launch_word (job := job) (vget 0 w 0) (BitVec.ofNat 64 (1 + job % 2 ^ 16 * 2 ^ 32)) (getLsbD_ofNat_odd (by omega))
    (extract_ofNat_of_div (by omega))
  rw [launchPacketOf, vget_vset, if_pos ⟨rfl, by decide⟩]
  refine ⟨hmark.1, hmark.2, fun j hj => ?_⟩
  rw [vget_vset, if_neg (by omega)]

theorem launch_writes {s : State} {rs1 : Reg} {k : Nat} (hblock : BlockAt s (s.rx rs1) k) (ho : s.openAccess s.cur = false)
    (hroom : (SMap.get DevQueue.init s.devq (s.devQueueOf (s.partOfHart s.cur) s.cur)).slots.length +
      (s.net.filter fun i => i.part == s.partOfHart s.cur && s.devQueueOf (s.partOfHart s.cur) i.src == s.devQueueOf (s.partOfHart s.cur) s.cur &&
        (match i.body with | .packet _ => true | _ => false)).length < 64) :
    exec (.launch rs1) s =
      let p := s.partOfHart s.cur
      let key := s.devQueueOf p s.cur
      let d := SMap.get DevQueue.init s.devq key
      let pk := launchPacketOf (s.words8 k) (s.jobOf s.cur)
      let q := (s.me.seq + 1).toNat
      if s.det p then .next (s.seqTaken.emit
        { s.seqTaken.item s.cur q false (.root p) (.packet pk) with stage := .collected, counted := false }).retire
      else .next ({ s.seqTaken with
        devq := SMap.put s.devq key (d.add pk (msgId s.dev (s.srank s.cur) q) s.cur (s.chanOf s.cur) (s.srank s.cur) q) }).retire := by
  show execLaunch rs1 s = _
  rw [execLaunch, blockThen_at hblock]
  simp only [ho, Bool.false_or]
  rw [if_neg (by exact fun h => absurd hroom (Nat.not_lt.mpr (of_decide_eq_true h)))]
  have hchan : s.seqTaken.chanOf s.cur = s.chanOf s.cur := by
    rw [State.chanOf, State.chanOf, show s.seqTaken.thread s.cur = _ from seqTaken_me s]
    rfl
  simp only [takeSeq_cur, show s.seqTaken.cur = s.cur from rfl, hchan]
  rfl

/-! ### DONE (O19) -/

/-- The end of the activation of a thread that a frame started. -/
theorem finish_frame {s : State} {h : Nat} {a : Activation} {f : Frame} (ha : (s.thread h).act = some a) (hf : a.origin = .frame f) :
    s.finish h = s.freeThread h := by
  simp only [State.finish, ha, hf]

/-- A core whose channel has lost the entry of a message that ran. -/
def State.channelDropped (s : State) (h ch arr : Nat) : State :=
  s.setCore (coreOf h) ((s.core (coreOf h)).setChan ch (((s.core (coreOf h)).chan ch).drop arr))

theorem finish_msg {s : State} {h : Nat} {a : Activation} {m : Msg} (ha : (s.thread h).act = some a) (hm : a.origin = .msg m) :
    s.finish h = if ((s.core (coreOf h)).chan a.chan).spill.isEmpty then (s.freeThread h).channelDropped h a.chan m.arr
      else ((s.freeThread h).channelDropped h a.chan m.arr).putNewest (coreOf h) a.chan := by
  simp only [State.finish, ha, hm]
  rfl

theorem chan_setChan (c : Core) {k : Nat} (x : Channel) (hk : k < 16) : (c.setChan k x).chan k = x := by
  rw [Core.chan, Core.setChan, vget_vset, if_pos ⟨rfl, hk⟩]

/-- Where an entry of a queue stands does not depend on the core's other tables. -/
theorem entryAt_queue (c d : Core) (core ch slot : Nat) : c.entryAt core ch slot false = d.entryAt core ch slot false := rfl

/-- Writing the newest entry of a queue at its place changes memory alone. -/
theorem putNewest_frame (s : State) (core ch : Nat) :
    ∃ mem dirty poison, s.putNewest core ch = { s with mem := mem, dirty := dirty, poison := poison } ∧
      ∀ e k (c : Core), ((s.core core).chan ch).queue.getLast? = some e →
        s.localKey (core / 4) (c.entryAt core ch e.1.slot false) 80 = some k → mem = Memory.writeN s.mem k e.1.bytes := by
  rw [State.putNewest]
  cases he : ((s.core core).chan ch).queue.getLast? with
  | none => exact ⟨_, _, _, rfl, fun _ _ _ h => absurd h.symm (Option.some_ne_none _)⟩
  | some e =>
    simp only [State.putEntry, State.unitKey]
    cases hk : s.localKey (core / 4) ((s.core core).entryAt core ch e.1.slot false) 80 with
    | none =>
      refine ⟨_, _, _, rfl, fun e' k c h hk' => ?_⟩
      obtain rfl := Option.some.inj h
      rw [entryAt_queue c (s.core core)] at hk'
      exact absurd (hk.symm.trans hk') (by simp)
    | some k =>
      refine ⟨_, _, _, rfl, fun e' k' c h hk' => ?_⟩
      obtain rfl := Option.some.inj h
      rw [entryAt_queue c (s.core core)] at hk'
      obtain rfl := Option.some.inj (hk.symm.trans hk')
      rfl

theorem exec_done {s : State} (h : s.me.held = []) : exec .done s = .next (s.retire.finish s.cur) := by
  show execDone s = _
  simp [execDone, h, State.releaseHeld]

/-- The thread and the others after a slot has been freed. -/
theorem freeThread_me {s u : State} (hcur : u.cur = s.cur) (hseq : u.me.seq = s.me.seq) :
    (u.freeThread s.cur).me.act = none ∧ (u.freeThread s.cur).me.status = .free ∧ (u.freeThread s.cur).me.held = [] ∧
      (u.freeThread s.cur).me.seq = s.me.seq := by
  have hme : (u.freeThread s.cur).me = u.me.release u.freeCtr := by
    show SMap.get _ (SMap.put _ _ _) u.cur = _
    rw [← hcur, SMap.get_put_self]
    rfl
  rw [hme]
  exact ⟨rfl, rfl, rfl, hseq⟩

/-- Settles O19. -/
theorem launchDoneResults : Obligations.LaunchDoneResults := by
  refine ⟨fun s rs1 k => ?_, fun s a => ?_⟩
  · dsimp only
    intro hblock ho hroom
    refine ⟨launchPacketOf_spec _ _, ?_⟩
    have hexec := launch_writes hblock ho hroom
    have hthreaded := threaded_seqTaken s
    cases hdet : s.det (s.partOfHart s.cur) with
    | true =>
      simp only [hdet, if_true] at hexec
      exact ⟨_, hexec, (hthreaded.beside (OnlySent.emit _ 0 _).beside).went (Thread.steady_refl s.me), rfl, rfl, rfl, nofun,
        fun _ => ⟨rfl, _, rfl, rfl, rfl, rfl⟩⟩
    | false =>
      simp only [hdet, Bool.false_eq_true, if_false] at hexec
      have hqueue : ∀ q, Beside s.seqTaken { s.seqTaken with devq := q } := fun q => ⟨rfl, rfl, fun _ => rfl, fun _ => rfl⟩
      exact ⟨_, hexec, (hthreaded.beside (hqueue _)).went (Thread.steady_refl s.me), rfl, rfl, rfl, fun _ => ⟨rfl, rfl⟩, nofun⟩
  · dsimp only
    intro ha hheld hch
    have hact : (s.retire.thread s.cur).act = some a := by
      have : s.retire.me.act = some a := by rw [State.retire, State.retireTo_me]; exact ha
      exact this
    have hseq : s.retire.me.seq = s.me.seq := by rw [State.retire, State.retireTo_me]
    obtain ⟨hnone, hfree, hempty, hkept⟩ := freeThread_me (s := s) (u := s.retire) rfl hseq
    have hothers : ∀ h, h ≠ s.cur → (s.retire.freeThread s.cur).thread h = s.thread h := fun h hh =>
      (SMap.get_put_ne _ _ _ hh).trans (State.thread_retireTo_ne s _ _ hh)
    rw [Ends, exec_done hheld]
    cases horigin : a.origin with
    | frame f =>
      refine ⟨_, rfl, ?_⟩
      rw [finish_frame hact horigin]
      exact ⟨hnone, hfree, hempty, hkept, rfl, rfl, hothers, fun _ _ => ⟨rfl, rfl⟩, nofun⟩
    | msg m =>
      have hchan : (((s.retire.freeThread s.cur).channelDropped s.cur a.chan m.arr).core (coreOf s.cur)).chan a.chan =
          ((s.core (coreOf s.cur)).chan a.chan).drop m.arr := by
        show Core.chan (SMap.get _ (SMap.put _ _ _) _) _ = _
        rw [SMap.get_put_self]
        exact chan_setChan _ _ hch
      obtain ⟨mem, dirty, poison, hput, hmem⟩ :=
        putNewest_frame ((s.retire.freeThread s.cur).channelDropped s.cur a.chan m.arr) (coreOf s.cur) a.chan
      refine ⟨_, rfl, ?_⟩
      rw [finish_msg hact horigin]
      split
      · next hspill =>
        have hspill : ((s.core (coreOf s.cur)).chan a.chan).spill = [] := List.isEmpty_iff.mp hspill
        exact ⟨hnone, hfree, hempty, hkept, rfl, rfl, hothers, nofun, fun _ h => by
          obtain rfl := Origin.msg.inj h
          exact ⟨hchan, fun _ => rfl, fun _ _ _ h => absurd hspill h⟩⟩
      · next hspill =>
        have hspill : ((s.core (coreOf s.cur)).chan a.chan).spill ≠ [] := fun h => hspill (List.isEmpty_iff.mpr h)
        rw [hput]
        exact ⟨hnone, hfree, hempty, hkept, rfl, rfl, hothers, nofun, fun _ h => by
          obtain rfl := Origin.msg.inj h
          refine ⟨hchan, fun h => absurd h hspill, fun e k hw _ he hk => ?_⟩
          rw [hchan] at hmem
          exact stored_write hw (hmem e k _ he hk)⟩

end Sys2Proof.Machine
end

section
/-!
PROOFS. The engines at their issuer and the system instructions (spec/18_matrix.md R358-R378, spec/19_system.md R384-R389).
-/

namespace Sys2Proof.Machine

/-! ### Setting a table of the current tile or partition -/

/-- A tile that keeps its rank. -/
theorem Beside.setTile (s : State) {site : Nat} {t : Tile} (h : t.rank = (s.tile site).rank) : Beside s (s.setTile site t) := by
  refine Beside.of_ranks rfl rfl rfl fun y => ?_
  show (SMap.get Tile.init (SMap.put _ _ _) y).rank = _
  rw [SMap.get_put]
  split
  · next hy => rw [hy, h]
  · rfl

theorem tile_setTile_self (s : State) (site : Nat) (t : Tile) : (s.setTile site t).tile site = t := SMap.get_put_self _ _ _ _

theorem tile_setTile_ne (s : State) {site y : Nat} (t : Tile) (h : y ≠ site) : (s.setTile site t).tile y = s.tile y :=
  SMap.get_put_ne _ _ _ h

/-- The key of the first listed value that passes a test stays where that key gets a value that passes as the one that was there. -/
theorem SMap.find_put {α : Type} (d : α) (f : α → Bool) (m : List (Nat × α)) (i : Nat) (v : α) (hv : f v = f (SMap.get d m i))
    (hi : i = ((m.find? fun x => f x.2).map (·.1)).getD 0) : (((SMap.put m i v).find? fun x => f x.2).map (·.1)).getD 0 = i := by
  induction m with
  | nil =>
    rw [SMap.put, List.find?_cons]
    cases f v
    · exact hi.symm
    · rfl
  | cons c t ih =>
    rw [List.find?_cons] at hi
    rw [SMap.put]
    split
    · rw [List.find?_cons, List.find?_cons]
      cases f v
      · exact hi.symm
      · rfl
    · split
      · next hk =>
        rw [SMap.get, if_pos hk.symm] at hv
        rw [List.find?_cons]
        simp only [hv]
        cases hf : f c.2 with
        | true => rfl
        | false =>
          simp only [hf] at hi
          exact hi.symm
      · next hk =>
        rw [SMap.get, if_neg (Ne.symm hk)] at hv
        rw [List.find?_cons]
        cases hf : f c.2 with
        | true =>
          simp only [hf] at hi
          exact absurd hi hk
        | false =>
          simp only [hf] at hi
          exact ih hv hi

/-- A thread's partition stays when it gets other settings: its tiles, regions and stage place it. -/
theorem partOfHart_setPart {s : State} {x p : Nat} {v : Partition} (hp : p = s.partOfHart x) (ht : v.tiles = (s.part p).tiles)
    (hr : v.regions = (s.part p).regions) (hs : v.stage = (s.part p).stage) : (s.setPart p v).partOfHart x = s.partOfHart x := by
  have hthread : (s.setPart p v).thread x = s.thread x := rfl
  rw [State.partOfHart] at hp ⊢
  rw [State.partOfHart, hthread]
  cases hact : (s.thread x).act with
  | some a => rfl
  | none =>
    simp only [hact, State.partOfSite] at hp ⊢
    cases hrank : (s.tile (siteOf x)).rank with
    | some l =>
      simp only [hrank] at hp
      simp only [show (s.setPart p v).tile (siteOf x) = s.tile (siteOf x) from rfl, hrank]
      rw [← hp]
      exact SMap.find_put Partition.init (fun q => q.tiles.contains l && q.stage != .out) s.parts p v
        (by rw [ht, hs]; rfl) hp
    | none =>
      simp only [hrank] at hp
      simp only [show (s.setPart p v).tile (siteOf x) = s.tile (siteOf x) from rfl, hrank]
      rw [← hp]
      exact SMap.find_put Partition.init (fun q => q.regions.contains (regionOf (siteOf x)) && q.stage != .out) s.parts p v
        (by rw [hr, hs]; rfl) hp

theorem part_setPart_self (s : State) (p : Nat) (v : Partition) : (s.setPart p v).part p = v := SMap.get_put_self _ _ _ _

theorem part_setPart_ne (s : State) {p q : Nat} (v : Partition) (h : q ≠ p) : (s.setPart p v).part q = s.part q :=
  SMap.get_put_ne _ _ _ h

/-- The current thread's partition gets other settings, but for its mode. -/
theorem Threaded.setPart {s u : State} {m : Thread} (h : Threaded s u m) {p : Nat} {v : Partition} (hp : p = u.partOfHart u.cur)
    (ht : v.tiles = (u.part p).tiles) (hr : v.regions = (u.part p).regions) (hs : v.stage = (u.part p).stage)
    (hd : v.det = (u.part p).det) : Threaded s (u.setPart p v) m := by
  refine ⟨h.cur, h.me, h.others, ?_⟩
  have hpart : (u.setPart p v).partOfHart (u.setPart p v).cur = p := (partOfHart_setPart hp ht hr hs).trans hp.symm
  rw [hpart, State.det, part_setPart_self, hd, ← h.det, ← hp]
  rfl

/-! ### The engine's queue (O26) -/

/-- An entry that the queue takes: it gets the next tag, which the instruction gives (R359). -/
theorem acceptOut_accepts {s : State} {i : Instr} {rd : Reg} {eng : Nat} {c : MatCmd} (h : exec i s = acceptOut s rd eng c)
    (hroom : (s.tile s.site).matLoad < 16) :
    let tile := s.tile s.site
    let tag := (tile.mtag + 1) % 2 ^ 32
    Ends i s fun t => SetsX s t rd (BitVec.ofNat 64 tag) ∧ t.mem = s.mem ∧ t.net = s.net ∧
      t.tiles = SMap.put s.tiles s.site { tile with mtag := tag, mqueue := tile.mqueue ++ [{ c with tag := tag }] } ∧
      ∃ x : Vector Word 32, Went s t { s.me with x := x, lastCmd := some { eng := eng, site := s.site, tag := tag } } := by
  intro tile tag
  have hb : Beside s (s.setTile s.site { tile with mtag := tag, mqueue := tile.mqueue ++ [{ c with tag := tag }] }) :=
    Beside.setTile s rfl
  obtain ⟨t, hwrite, hset, hwent, hrest⟩ := (((Threaded.refl s).beside hb).setMe
    (n := { s.me with lastCmd := some { eng := eng, site := s.site, tag := tag } }) rfl).writes (Thread.steady_refl s.me) rfl rd
    (BitVec.ofNat 64 tag)
  refine ⟨t, ?_, hset, (congrArg State.mem hrest :), (congrArg State.net hrest :), (congrArg State.tiles hrest :), hwent⟩
  rw [h, acceptOut, if_neg (Nat.not_le.mpr hroom), ← hwrite]
  rfl

theorem acceptOut_full {s : State} {i : Instr} {rd : Reg} {eng : Nat} {c : MatCmd} (h : exec i s = acceptOut s rd eng c)
    (hfull : 16 ≤ (s.tile s.site).matLoad) : Ends i s fun t => Waits s t .retry := by
  refine ⟨_, ?_, rfl⟩
  rw [h, acceptOut, if_pos hfull]
  rfl

theorem rowsOperand_of {first count x : Nat} (h1 : 1 ≤ count) (h64 : first + count ≤ 64) (hx : x = first + count * 256) :
    rowsOperand x = some (first, count) := by
  have hbits : bitsN x 5 0 = first ∧ bitsN x 14 8 = count ∧ bitsN x 7 6 = 0 ∧ bitsN x 63 15 = 0 := by
    simp only [bitsN, Nat.shiftRight_eq_div_pow, hx]
    refine ⟨?_, ?_, ?_, ?_⟩ <;> omega
  obtain ⟨hfirst, hcount, h7, h63⟩ := hbits
  simp [rowsOperand, hfirst, hcount, h7, h63, h1, h64, show count ≤ 64 by omega]

/-- The rows operand of a register (R372). -/
theorem rowsOperand_register {w : Word} {first count : Nat} (h1 : 1 ≤ count) (h64 : first + count ≤ 64)
    (hw : w = BitVec.ofNat 64 (first + count * 256)) : rowsOperand w.toNat = some (first, count) :=
  rowsOperand_of h1 h64 (by rw [hw, BitVec.toNat_ofNat]; exact Nat.mod_eq_of_lt (by omega))

/-- An address operand that is in order. -/
theorem accAddress_local {s : State} {a : Word} {kind : AccKind} {n : Nat} (far : Bool) (next : Out) (ha : a.toNat % 64 = 0)
    (ht : routeOf a.toNat = .localWin) (hacc : (s.localAcc s.site kind a.toNat n).isSome = true) :
    accAddress s a kind n far next = next := by
  rw [Option.isSome_iff_exists] at hacc
  obtain ⟨k, hk⟩ := hacc
  simp only [accAddress, ha, ne_eq, not_true_eq_false, if_false, ht, hk, Option.isNone_some, Bool.false_eq_true]

theorem accAddress_far {s : State} {a : Word} {kind : AccKind} {n : Nat} (next : Out) (ha : a.toNat % 64 = 0)
    (ht : routeOf a.toNat = .translated ∨ (routeOf a.toNat = .localWin ∧ (s.localAcc s.site kind a.toNat n).isSome = true)) :
    accAddress s a kind n true next = next := by
  obtain ht | ⟨ht, hacc⟩ := ht
  · simp only [accAddress, ha, ne_eq, not_true_eq_false, if_false, ht, if_true]
  · exact accAddress_local true next ha ht hacc

/-- A descriptor that passes the checks (R362). -/
theorem matIssue_checked {s : State} {store : Bool} {rs1 rs2 : Reg} {k : Nat} {xtra : MatDesc → Bool} (f : MatDesc → Out)
    (hblock : BlockAt s (s.rx rs1) k) (hok : matDescOk (s.words8 k) (matDescOf (s.words8 k)) store (s.rx rs2).toNat = true)
    (hx : xtra (matDescOf (s.words8 k)) = true) (hal : (matDescOf (s.words8 k)).aligned store = true) :
    matIssue s store rs1 rs2 xtra f = f (matDescOf (s.words8 k)) := by
  rw [matIssue, blockThen_at hblock]
  simp only [hok, hx, hal, Bool.not_true, Bool.or_self, Bool.false_eq_true, if_false]

theorem seqTaken_rx (s : State) (r : Reg) : s.seqTaken.rx r = s.rx r := by
  rw [State.rx, State.rx, seqTaken_me]
  rfl

theorem Threaded.noteCmd {s u : State} {m : Thread} (h : Threaded s u m) (eng site tag : Nat) :
    Threaded s (u.noteCmd eng site tag) { m with lastCmd := some { eng := eng, site := site, tag := tag } } := by
  rw [State.noteCmd, h.me]
  exact h.setMe rfl

theorem exec_fmma (st dc z : Bool) (rd : Reg) (acc : BitVec 3) (rs1 rs2 : Reg) (s : State) :
    exec (.fmma st dc z rd acc rs1 rs2) s = execFmma st dc z rd acc rs1 rs2 s := rfl

/-- MCMD hands its command to the tile it names. -/
theorem mcmd_sends {s : State} {st dc z : Bool} {cap : BitVec 2} {acc : BitVec 3} {rs1 rs2 : Reg} {k : Nat}
    (hblock : BlockAt s (s.rx rs1) k) (hok : matDescOk (s.words8 k) (matDescOf (s.words8 k)) st (s.rx rs2).toNat = true)
    (hal : (matDescOf (s.words8 k)).aligned st = true) (hx : (matDescOf (s.words8 k)).xtra < 2 ^ 13)
    (hremote : (matDescOf (s.words8 k)).remote st = true) (hrank : s.isRanked (s.partOfHart s.cur) (matDescOf (s.words8 k)).xtra = true) :
    Ends (.mcmd st dc z cap acc rs1 rs2) s fun t => t.mem = s.mem ∧ t.cores = s.cores ∧ t.tiles = s.tiles ∧
      (∃ c : CmdRef, Went s t { s.me with seq := s.me.seq + 1, lastCmd := some c }) ∧
      ∃ (i : Item) (c : MatCmd), t.net = s.net ++ [i] ∧ i.dst = .tile (matDescOf (s.words8 k)).xtra ∧ i.release = true ∧
        i.body = .mcmd c ∧ c.desc = matDescOf (s.words8 k) ∧ c.acc = acc.toNat ∧ c.koff = (s.rx rs2).toNat ∧
        c.seq = (s.me.seq + 1).toNat := by
  have hgate : ((matDescOf (s.words8 k)).xtra / 2 ^ 13 == 0 && (matDescOf (s.words8 k)).remote st &&
      s.isRanked (s.partOfHart s.cur) (matDescOf (s.words8 k)).xtra) = true := by
    rw [Nat.div_eq_of_lt hx, hremote, hrank]
    rfl
  have hexec : exec (.mcmd st dc z cap acc rs1 rs2) s = execMcmd st dc z cap acc rs1 rs2 s := rfl
  rw [execMcmd, matIssue_checked _ hblock hok hgate hal] at hexec
  obtain ⟨c, target, hexec, hdesc, hacc, hkoff, hseq⟩ : ∃ c target, exec (.mcmd st dc z cap acc rs1 rs2) s =
      .next ((s.seqTaken.emit { s.seqTaken.item s.cur (s.me.seq + 1).toNat true (.tile (matDescOf (s.words8 k)).xtra) (.mcmd c) with
        counted := false }).noteCmd 3 target (s.me.seq + 1).toNat).retire ∧
      c.desc = matDescOf (s.words8 k) ∧ c.acc = acc.toNat ∧ c.koff = (s.seqTaken.rx rs2).toNat ∧ c.seq = (s.me.seq + 1).toNat :=
    ⟨_, _, hexec, rfl, rfl, rfl, rfl⟩
  rw [seqTaken_rx] at hkoff
  have hthreaded := (threaded_seqTaken s).beside (OnlySent.emit s.seqTaken 0 { s.seqTaken.item s.cur (s.me.seq + 1).toNat true
    (.tile (matDescOf (s.words8 k)).xtra) (.mcmd c) with counted := false }).beside
  exact ⟨_, hexec, rfl, rfl, rfl, ⟨_, (hthreaded.noteCmd 3 target (s.me.seq + 1).toNat).went (Thread.steady_refl s.me)⟩, _, c, rfl, rfl, rfl,
    rfl, hdesc, hacc, hkoff, hseq⟩

/-- A floe that runs a command starts no other. -/
theorem floeNext_running {s : State} {p : Nat} {f : Floe} {c : MatCmd} (hf : (s.part p).floe = some f) (hr : f.run = some c) :
    s.floeNext p = s := by
  simp only [State.floeNext, hf, hr]

/-- The command of an FMMA under the next tag of its tile. -/
def State.floeCmd (s : State) (acc : BitVec 3) (st dc z : Bool) (rs1 rs2 : Reg) (d : MatDesc) : MatCmd :=
  { s.matCmd .floe acc st dc z (s.rx rs2).toNat d (s.rx rs1) with tag := ((s.tile s.site).mtag + 1) % 2 ^ 32 }

/-- FMMA of a command that the floe has not accepted before goes behind a running one. -/
theorem fmma_queues {s : State} {st dc z : Bool} {rd : Reg} {acc : BitVec 3} {rs1 rs2 : Reg} {k : Nat} {f : Floe} {c0 : MatCmd}
    (hblock : BlockAt s (s.rx rs1) k) (hok : matDescOk (s.words8 k) (matDescOf (s.words8 k)) st (s.rx rs2).toNat = true)
    (hal : (matDescOf (s.words8 k)).aligned st = true) (hf : (s.part (s.partOfHart s.cur)).floe = some f) (hm : f.members ≠ [])
    (hrow : (matDescOf (s.words8 k)).mrow = 64) (hcol : (matDescOf (s.words8 k)).ncol = 48) (hrun : f.run = some c0)
    (hroom : f.waiting.length < 4) (hnote : f.note (s.srank s.cur) s.placeKey = none) (hgen : (matDescOf (s.words8 k)).xtra = f.fgen) :
    let tag := ((s.tile s.site).mtag + 1) % 2 ^ 32
    let c := s.floeCmd acc st dc z rs1 rs2 (matDescOf (s.words8 k))
    let u := ((s.setTile s.site { s.tile s.site with mtag := tag }).setPart (s.partOfHart s.cur)
      { s.part (s.partOfHart s.cur) with floe := some { f with
          waiting := f.waiting ++ [c]
          known := if (s.tile s.site).prot then f.known ++ [{ srank := c.srank, key := c.key, ival := (s.tile s.site).ival, result := none }]
            else f.known } }).noteCmd 2 s.site tag
    exec (.fmma st dc z rd acc rs1 rs2) s = writeReg u rd (BitVec.ofNat 64 tag) := by
  intro tag c u
  have hxtra : (fun d : MatDesc => match (s.part (s.partOfHart s.cur)).floe with
      | some f => d.mrow == 64 && d.ncol == 48 && (Option.isSome (none : Option FloeNote) || d.xtra == f.fgen) && !f.members.isEmpty
      | none => false) (matDescOf (s.words8 k)) = true := by
    simp [hf, hrow, hcol, hgen, hm]
  have hnext : u.floeNext (s.partOfHart s.cur) = u := floeNext_running (congrArg Partition.floe (part_setPart_self _ _ _) :) hrun
  rw [exec_fmma, execFmma]
  simp only [hf, Option.bind_some, hnote] at hxtra ⊢
  rw [matIssue_checked _ hblock hok hxtra hal]
  simp only [Nat.not_le.mpr hroom, if_false]
  exact congrArg (fun v => writeReg v rd (BitVec.ofNat 64 tag)) hnext

/-- The result of an earlier round changes only what a tile knows of results. -/
theorem giveResult_eq (s : State) (site : Nat) (r : Option EngResult) (tag : Nat) :
    ∃ mdone tiles, s.giveResult site r tag = { s with tiles := tiles } ∧
      (∀ y, y ≠ site → (s.giveResult site r tag).tile y = s.tile y) ∧
      (s.giveResult site r tag).tile site = { s.tile site with mdone := mdone } := by
  cases r with
  | none => exact ⟨_, _, rfl, fun _ _ => rfl, rfl⟩
  | some r => exact ⟨_, _, rfl, fun _ hy => tile_setTile_ne s _ hy, tile_setTile_self s site _⟩

/-- FMMA of a command that the floe has accepted before takes a tag and is dropped. -/
theorem fmma_again {s : State} {st dc z : Bool} {rd : Reg} {acc : BitVec 3} {rs1 rs2 : Reg} {k : Nat} {f : Floe} {n : FloeNote}
    (hblock : BlockAt s (s.rx rs1) k) (hok : matDescOk (s.words8 k) (matDescOf (s.words8 k)) st (s.rx rs2).toNat = true)
    (hal : (matDescOf (s.words8 k)).aligned st = true) (hf : (s.part (s.partOfHart s.cur)).floe = some f) (hm : f.members ≠ [])
    (hrow : (matDescOf (s.words8 k)).mrow = 64) (hcol : (matDescOf (s.words8 k)).ncol = 48)
    (hnote : f.note (s.srank s.cur) s.placeKey = some n) :
    let tag := ((s.tile s.site).mtag + 1) % 2 ^ 32
    exec (.fmma st dc z rd acc rs1 rs2) s =
      writeReg (((s.setTile s.site { s.tile s.site with mtag := tag }).giveResult s.site n.result tag).noteCmd 2 s.site tag) rd
        (BitVec.ofNat 64 tag) := by
  intro tag
  have hxtra : (fun d : MatDesc => match (s.part (s.partOfHart s.cur)).floe with
      | some f => d.mrow == 64 && d.ncol == 48 && (Option.isSome (some n) || d.xtra == f.fgen) && !f.members.isEmpty
      | none => false) (matDescOf (s.words8 k)) = true := by
    simp [hf, hrow, hcol, hm]
  rw [exec_fmma, execFmma]
  simp only [hf, Option.bind_some, hnote] at hxtra ⊢
  rw [matIssue_checked _ hblock hok hxtra hal]
  rfl

/-- Settles O26. -/
theorem matrixQueueResults : Obligations.MatrixQueueResults := by
  refine ⟨fun s st dc z rd acc rs1 rs2 k first count => ?_, fun s st dc z rd cap acc rs1 rs2 k f c0 => ?_⟩
  · dsimp only
    have hqueued : ∀ {i : Instr} {eng : Nat} {c : MatCmd}, exec i s = acceptOut s rd eng c → _ ∧ _ := fun h =>
      ⟨acceptOut_accepts h, acceptOut_full h⟩
    refine ⟨fun hblock hok hx hal hread hwrite => hqueued ?_, hqueued rfl, fun h1 h64 hr ha ht hacc => hqueued ?_,
      fun ha ht => hqueued ?_, fun ha ht => hqueued ?_⟩
    · show execMma st dc z rd acc rs1 rs2 s = _
      have hstore : (if st then s.badLocal .write ((matDescOf (s.words8 k)).writes (matDescOf (s.words8 k)).mrow
          (matDescOf (s.words8 k)).ncol) else none) = none := by
        split
        · next h => exact hwrite h
        · rfl
      rw [execMma, matIssue_checked _ hblock hok (by rw [hx]; rfl) hal]
      simp only [hread, hstore]
    · show execAccwr rd acc rs1 rs2 s = _
      simp only [execAccwr, rowsOperand_register h1 h64 hr]
      exact accAddress_local _ _ ha ht hacc
    · exact accAddress_far _ ha ht
    · exact accAddress_far _ ha ht
  · dsimp only
    intro hblock hok hal
    refine ⟨fun hx hremote hrank => mcmd_sends hblock hok hal hx hremote hrank, fun hf hm hrow hcol =>
      ⟨fun hrun hroom hnote hgen => ?_, fun hnote => ?_⟩⟩
    · have hexec := fmma_queues (dc := dc) (z := z) (rd := rd) (acc := acc) hblock hok hal hf hm hrow hcol hrun hroom hnote hgen
      have htile : Beside s (s.setTile s.site { s.tile s.site with mtag := ((s.tile s.site).mtag + 1) % 2 ^ 32 }) := Beside.setTile s rfl
      have hfloe : ∀ fl, Threaded s ((s.setTile s.site { s.tile s.site with mtag := ((s.tile s.site).mtag + 1) % 2 ^ 32 }).setPart
          (s.partOfHart s.cur) { s.part (s.partOfHart s.cur) with floe := fl }) s.me := fun fl =>
        ((Threaded.refl s).beside htile).setPart (htile.part s.cur).symm rfl rfl rfl rfl
      have hthreaded := (hfloe (some { f with
        waiting := f.waiting ++ [s.floeCmd acc st dc z rs1 rs2 (matDescOf (s.words8 k))]
        known := if (s.tile s.site).prot then f.known ++ [{ srank := s.srank s.cur, key := s.placeKey, ival := (s.tile s.site).ival, result := none }]
          else f.known })).noteCmd 2 s.site (((s.tile s.site).mtag + 1) % 2 ^ 32)
      obtain ⟨t, hwrite, hset, hwent, hrest⟩ := hthreaded.writes (Thread.steady_refl s.me) rfl rd
        (BitVec.ofNat 64 (((s.tile s.site).mtag + 1) % 2 ^ 32))
      have hpart : t.part (s.partOfHart s.cur) = _ :=
        (congrArg (fun u : State => u.part (s.partOfHart s.cur)) hrest).trans (part_setPart_self _ _ _)
      exact ⟨t, hexec.trans hwrite, ⟨hset, (congrArg State.mem hrest :), (congrArg State.net hrest :), (congrArg State.cores hrest :), hwent⟩,
        (congrArg State.tiles hrest :), s.floeCmd acc st dc z rs1 rs2 (matDescOf (s.words8 k)), rfl, rfl, rfl, rfl, rfl,
        congrArg Partition.floe hpart⟩
    · obtain ⟨n, hn⟩ := Option.ne_none_iff_exists'.mp hnote
      have hexec := fmma_again (dc := dc) (z := z) (rd := rd) (acc := acc) hblock hok hal hf hm hrow hcol hn
      obtain ⟨mdone, tiles, hgive, hne, hself⟩ := giveResult_eq
        (s.setTile s.site { s.tile s.site with mtag := ((s.tile s.site).mtag + 1) % 2 ^ 32 }) s.site n.result
        (((s.tile s.site).mtag + 1) % 2 ^ 32)
      have hb := (Beside.setTile s (site := s.site) (t := { s.tile s.site with mtag := ((s.tile s.site).mtag + 1) % 2 ^ 32 }) rfl).trans
        (Beside.of_ranks (u := State.giveResult _ s.site n.result (((s.tile s.site).mtag + 1) % 2 ^ 32)) (by rw [hgive]) (by rw [hgive])
          (by rw [hgive]) fun y => by
            by_cases hy : y = s.site
            · rw [hy, hself]
            · rw [hne y hy])
      obtain ⟨t, hwrite, hset, hwent, hrest⟩ := (((Threaded.refl s).beside hb).noteCmd 2 s.site (((s.tile s.site).mtag + 1) % 2 ^ 32)).writes
        (Thread.steady_refl s.me) rfl rd (BitVec.ofNat 64 (((s.tile s.site).mtag + 1) % 2 ^ 32))
      have htile : t.tile s.site = _ := (congrArg (fun u : State => u.tile s.site) hrest).trans hself
      rw [hgive] at hrest
      refine ⟨t, hexec.trans hwrite, ⟨hset, (congrArg State.mem hrest :), (congrArg State.net hrest :), (congrArg State.cores hrest :), hwent⟩,
        (congrArg State.parts hrest :), ?_⟩
      rw [htile, tile_setTile_self]

/-! ### Transfers (O25) -/

section
variable {s : State} {op : XferOp} {rd rs1 : Reg} {k : Nat} {sf df : AddrForm}

/-- The transfer of a descriptor, with the tiles its group names. -/
def State.xferAt (s : State) (op : XferOp) (w : Vector Word 8) : Xfer :=
  s.xferOf op w (if bitsN (vget 0 w 5).toNat 24 24 == 1 then s.groupTiles (s.partOfHart s.cur) (bitsN (vget 0 w 5).toNat 23 16) else [])

/-- The transfer goes on a free channel, and the instruction gives its tag. -/
def State.issueXfer (s : State) (op : XferOp) (rd : Reg) (x : Xfer) (ch : Nat) : Out :=
  let (tag, s) := s.startXfer x ch
  writeReg (s.noteCmd op.eng s.site tag) rd (BitVec.ofNat 64 tag)

/-- What the transfer that starts is numbered with (R129, R137): the block forms take a sequence number and count in SENT. -/
def State.xferNumbered (s : State) (op : XferOp) (x : Xfer) : State × Xfer :=
  if op = .copy then (s, { x with seq := 0, key := s.placeKey })
  else (s.seqTaken.countSent s.seqTaken.site x.job 1, { x with seq := (s.me.seq + 1).toNat, key := (s.me.seq + 1).toNat })

section checked
variable (hblock : BlockAt s (s.rx rs1) k) (hbits : xferBitsOk op (s.words8 k) = true)
  (hsf : formOf (s.xferAt op (s.words8 k)).src = some sf) (hdf : formOf (s.xferAt op (s.words8 k)).dst = some df)
  (harr : (s.xferAt op (s.words8 k)).arr ≠ 0 → (formOf (s.xferAt op (s.words8 k)).arr).isSome = true)
  (hok : xferOk (s.xferAt op (s.words8 k)) sf df (bitsN (vget 0 (s.words8 k) 5).toNat 24 24 == 1) = true)
  (hal : xferAligned op (s.xferAt op (s.words8 k)).src (s.xferAt op (s.words8 k)).dst (s.xferAt op (s.words8 k)).len = true)
  (href : s.xferRefused (s.xferAt op (s.words8 k)) sf df = none)
include hblock hbits hsf hdf harr hok hal href

/-- A descriptor that passes the checks takes a channel. -/
theorem xferIssue_free {ch : Nat} (hfree : ((List.range 4).find? fun i => (vget none (s.tile s.site).xfers i).isNone) = some ch) :
    xferIssue s op rd rs1 = (s.xferNumbered op (s.xferAt op (s.words8 k))).1.issueXfer op rd (s.xferNumbered op (s.xferAt op (s.words8 k))).2 ch := by
  rw [xferIssue, blockThen_at hblock]
  simp only [State.xferAt] at hsf hdf harr hok hal href ⊢
  simp only [hbits, hsf, hdf, hok, hal, href, hfree, Bool.not_true, Bool.false_eq_true, if_false]
  refine (if_neg (by simpa [← Option.ne_none_iff_isSome] using harr)).trans ?_
  cases op <;> simp only [State.issueXfer, State.xferNumbered, takeSeq_cur, if_true, reduceCtorEq, if_false]

/-- With every channel busy it waits. -/
theorem xferIssue_busy (hbusy : ((List.range 4).find? fun i => (vget none (s.tile s.site).xfers i).isNone) = none) :
    xferIssue s op rd rs1 = blockOn s .retry := by
  rw [xferIssue, blockThen_at hblock]
  simp only [State.xferAt] at hsf hdf harr hok hal href
  simp only [hbits, hsf, hdf, hok, hal, href, hbusy, Bool.not_true, Bool.false_eq_true, if_false]
  exact if_neg (by simpa [← Option.ne_none_iff_isSome] using harr)

end checked

/-- The state a transfer is issued in: its thread's sequence number may have gone on, its channels are as they were. -/
theorem xferNumbered_spec (s : State) (op : XferOp) (x : Xfer) :
    let u := (s.xferNumbered op x).1
    Threaded s u { s.me with seq := if op = .copy then s.me.seq else s.me.seq + 1 } ∧
      u.mem = s.mem ∧ u.net = s.net ∧ u.full = s.full ∧ u.cores = s.cores ∧
      (u.tile s.site).ctag = (s.tile s.site).ctag ∧ (u.tile s.site).xfers = (s.tile s.site).xfers := by
  rw [State.xferNumbered]
  split
  · exact ⟨Threaded.refl s, rfl, rfl, rfl, rfl, rfl, rfl⟩
  · have hsent := OnlySent.countSent s.seqTaken s.seqTaken.site x.job 1
    obtain ⟨_, _, hc⟩ := countSent_frame s.seqTaken s.seqTaken.site x.job 1
    obtain ⟨_, ht⟩ := hsent.tile s.site
    exact ⟨(threaded_seqTaken s).beside hsent.beside, by rw [hc]; rfl, by rw [hc]; rfl, by rw [hc]; rfl, by rw [hc]; rfl,
      by rw [ht]; rfl, by rw [ht]; rfl⟩

/-- A transfer on a free channel. -/
theorem issueXfer_spec {u : State} {m : Thread} {ch : Nat} {i : Instr} {x : Xfer} (h : Threaded s u m) (hm : m.Steady s.me)
    (hx : m.x = s.me.x) (hch : ch < 4) (hexec : exec i s = u.issueXfer op rd x ch) :
    let tag := ((u.tile s.site).ctag + 1) % 2 ^ 32
    Ends i s fun t => SetsX s t rd (BitVec.ofNat 64 tag) ∧ t.mem = u.mem ∧ t.net = u.net ∧ t.full = u.full ∧ t.cores = u.cores ∧
      (∃ v : Vector Word 32, Went s t { m with x := v, lastCmd := some { eng := op.eng, site := s.site, tag := tag } }) ∧
      (t.tile s.site).ctag = tag ∧ vget none (t.tile s.site).xfers ch = some { x with tag := tag } ∧
      ∀ j, j ≠ ch → vget none (t.tile s.site).xfers j = vget none (u.tile s.site).xfers j := by
  have hsite : u.site = s.site := by rw [State.site, h.cur]; rfl
  have hstart : u.startXfer x ch = (((u.tile s.site).ctag + 1) % 2 ^ 32, u.setTile s.site { u.tile s.site with
      ctag := ((u.tile s.site).ctag + 1) % 2 ^ 32,
      xfers := vset (u.tile s.site).xfers ch (some { x with tag := ((u.tile s.site).ctag + 1) % 2 ^ 32 }) }) := by
    rw [State.startXfer, hsite]
  rw [State.issueXfer, hstart] at hexec
  generalize ((u.tile s.site).ctag + 1) % 2 ^ 32 = tag at hexec ⊢
  obtain ⟨t, hwrite, hset, hwent, hrest⟩ := ((h.beside (Beside.setTile u (site := s.site) (t := { u.tile s.site with
    ctag := tag, xfers := vset (u.tile s.site).xfers ch (some { x with tag := tag }) }) rfl)).noteCmd op.eng s.site tag).writes hm hx rd
    (BitVec.ofNat 64 tag)
  have htile : t.tile s.site = _ := (congrArg (fun w : State => w.tile s.site) hrest).trans (tile_setTile_self _ _ _)
  refine ⟨t, ?_, hset, (congrArg State.mem hrest :), (congrArg State.net hrest :), (congrArg State.full hrest :),
    (congrArg State.cores hrest :), hwent, by rw [htile], ?_, fun j hj => ?_⟩
  · rw [hexec, ← hwrite, ← hsite]
    rfl
  · rw [htile, vget_vset, if_pos ⟨rfl, hch⟩]
  · rw [htile, vget_vset, if_neg fun h => hj h.1]

theorem xferNumbered_xfer (s : State) (op : XferOp) (x : Xfer) : (s.xferNumbered op x).2 =
    { x with
      seq := if op = .copy then 0 else (s.me.seq + 1).toNat
      key := if op = .copy then s.placeKey else (s.me.seq + 1).toNat } := by
  rw [State.xferNumbered]
  split <;> rfl

/-- Settles O25. -/
theorem transferIssueResults : Obligations.TransferIssueResults := by
  intro s op rd rs1 k sf df
  extract_lets i w mc x tag seq
  have hx : x = s.xferAt op (s.words8 k) := rfl
  clear_value x
  subst hx
  intro hblock hbits hsf hdf harr hok hal href
  have hexec : exec i s = xferIssue s op rd rs1 := by cases op <;> rfl
  refine ⟨fun ch hch hearlier hfree => ?_, fun hbusy => ⟨_, hexec.trans (xferIssue_busy hblock hbits hsf hdf harr hok hal href ?_), rfl⟩⟩
  · have hfind : ((List.range 4).find? fun i => (vget none (s.tile s.site).xfers i).isNone) = some ch := by
      rw [List.find?_range_eq_some]
      exact ⟨by rw [hfree]; rfl, List.mem_range.mpr hch, fun j hj => by simp [hearlier j hj]⟩
    obtain ⟨hthreaded, hmem, hnet, hfull, hcores, hctag, hxfers⟩ := xferNumbered_spec s op (s.xferAt op (s.words8 k))
    obtain ⟨t, ht, hset, htmem, htnet, htfull, htcores, hwent, htag, hthis, hothers⟩ := issueXfer_spec hthreaded
      ⟨rfl, rfl, rfl, rfl, rfl, rfl, rfl, rfl, rfl⟩ rfl hch
      (hexec.trans (xferIssue_free hblock hbits hsf hdf harr hok hal href hfind))
    rw [hctag] at hset hwent htag hthis
    refine ⟨t, ht, hset, htmem.trans hmem, htnet.trans hnet, htfull.trans hfull, htcores.trans hcores, hwent, htag, ?_,
      fun j hj => by rw [hothers j hj, hxfers]⟩
    rw [hthis, xferNumbered_xfer]
  · rw [List.find?_range_eq_none]
    exact fun j hj => by simp [hbusy j hj]

end

/-! ### ACCRD, MWAIT and CPWAIT (O27) -/

theorem readN_add (m : List Host.Cell) (k a b : Nat) : Memory.readN m k (a + b) = Memory.readN m k a ++ Memory.readN m (k + a) b := by
  induction a generalizing k with
  | zero => rw [Nat.zero_add]; rfl
  | succ a ih => rw [Nat.succ_add, Memory.readN, Memory.readN, ih, List.cons_append, Nat.add_assoc, Nat.add_comm 1 a]

/-- Bytes read a piece of `w` at a time. -/
theorem readN_pieces (m : List Host.Cell) (k w n : Nat) :
    ((List.range n).flatMap fun i => Memory.readN m (k + w * i) w) = Memory.readN m k (w * n) := by
  induction n with
  | zero => rfl
  | succ n ih => rw [List.range_succ, List.flatMap_append, ih, Nat.mul_succ, readN_add, List.flatMap_singleton]

theorem bytesOf_num (s : State) (k n : Nat) : bytesOf n (s.num k n) = Memory.readN s.mem k n := by
  have h := bytesOf_ofBytes (Memory.readN s.mem k n)
  rwa [Memory.readN_length] at h

/-- The bytes of some rows of an accumulator. -/
theorem accRows_bytes (s : State) (site acc : Nat) {first count : Nat} (h : first + count ≤ 64) :
    ((((s.accRows site acc).drop first).take count).flatten).flatMap (bytesOf 4) =
      Memory.readN s.mem (accAt site acc + 192 * first) (192 * count) := by
  have hrows : ((List.range 64).drop first).take count = (List.range count).map (first + ·) := by
    rw [List.take_drop]
    refine List.ext_getElem (by simp; omega) fun j h1 h2 => ?_
    simp
  rw [State.accRows, ← List.map_drop, ← List.map_take, hrows, ← readN_pieces, List.map_map, ← List.flatMap_def, List.flatMap_assoc]
  refine congrArg (List.flatMap · _) (funext fun i => ?_)
  rw [Function.comp_apply, List.flatMap_map, ← readN_pieces s.mem _ 4 48]
  refine congrArg (List.flatMap · _) (funext fun j => ?_)
  rw [bytesOf_num]
  congr 1
  omega

/-- ACCRD of an accumulator that no running command owns (R372). -/
theorem accrd_idle {s : State} {rd rs1 rs2 : Reg} {acc : BitVec 3} {k first count : Nat} (h1 : 1 ≤ count) (h64 : first + count ≤ 64)
    (h2 : s.rx rs2 = BitVec.ofNat 64 (first + count * 256)) (ha : (s.rx rs1).toNat % 64 = 0)
    (hend : (s.rx rs1).toNat + 192 * count ≤ Config.sysArea) (hl : LocalAt s .write (s.rx rs1).toNat (192 * count) k)
    (hidle : (s.tile s.site).owner acc.toNat = none) :
    exec (.accrd rd acc rs1 rs2) s =
      writeReg (s.putMem k (Memory.readN s.mem (accAt s.site acc.toNat + 192 * first) (192 * count))) rd 0 := by
  obtain ⟨hlow, hacc, hpend⟩ := hl
  have hkey : s.blockKey .write (s.rx rs1).toNat (192 * count) = .ok k := by
    simp only [State.blockKey, routeOf_local hlow, hacc]
  show execAccrd rd acc rs1 rs2 s = _
  simp only [execAccrd, ha, ne_eq, not_true_eq_false, if_false, rowsOperand_register h1 h64 h2, hkey, Nat.not_lt.mpr hend, hpend,
    Bool.false_eq_true, hidle, accRows_bytes s s.site acc.toNat h64]

/-- A wait for a tag of an engine: it waits while the tag is open, then gives its cause (R374, R378). -/
theorem waitTag_spec {s : State} {i : Instr} {rd rs1 : Reg} {last : Nat} {open_ : Nat → Bool} {finished : List EngResult} (r : EngResult)
    (h : exec i s = waitTag s rd rs1 last open_ finished) (hx : (s.rx rs1).toNat < 2 ^ 32) :
    (last + 2 ^ 32 - (s.rx rs1).toNat) % 2 ^ 32 < 2 ^ 31 →
    (open_ (s.rx rs1).toNat = true → Ends i s fun t => Waits s t .retry) ∧
    (open_ (s.rx rs1).toNat = false → 64 ≤ (last + 2 ^ 32 - (s.rx rs1).toNat) % 2 ^ 32 → Gives i s rd 256) ∧
    (open_ (s.rx rs1).toNat = false → (last + 2 ^ 32 - (s.rx rs1).toNat) % 2 ^ 32 < 64 →
      resultOf finished (s.rx rs1).toNat = some r → Gives i s rd (BitVec.ofNat 64 r.cause)) := by
  intro hage
  have hgate : (decide (2 ^ 32 ≤ (s.rx rs1).toNat) || decide (2 ^ 31 ≤ (last + 2 ^ 32 - (s.rx rs1).toNat) % 2 ^ 32)) = false := by
    rw [decide_eq_false (Nat.not_le.mpr hx), decide_eq_false (Nat.not_le.mpr hage)]
    rfl
  simp only [waitTag, hgate, Bool.false_eq_true, if_false] at h
  refine ⟨fun hopen => ⟨_, ?_, rfl⟩, fun hopen hold => Gives.of_writeReg ?_, fun hopen hnew hr => Gives.of_writeReg ?_⟩
  · rw [h, if_pos hopen]
    rfl
  · rw [h, hopen, if_neg Bool.false_ne_true, if_pos hold]
  · rw [h, hopen, if_neg Bool.false_ne_true, if_neg (Nat.not_le.mpr hnew), hr]
    rfl

/-- Settles O27. -/
theorem engineReadWaitResults : Obligations.EngineReadWaitResults := by
  refine ⟨fun s rd rs1 rs2 acc k first count => ?_, fun s rd rs1 r => ?_⟩
  · intro a n hmem h1 h64 h2 ha hend hl hidle
    have hthreaded : Threaded s (s.putMem k (Memory.readN s.mem (accAt s.site acc.toNat + 192 * first) (192 * count))) s.me :=
      (Threaded.refl s).beside ⟨rfl, rfl, fun _ => rfl, fun _ => rfl⟩
    obtain ⟨t, hwrite, hset, hwent, hrest⟩ := hthreaded.writes (Thread.steady_refl s.me) rfl rd 0
    exact ⟨t, (accrd_idle h1 h64 h2 ha hend hl hidle).trans hwrite, hset, stored_write hmem (congrArg State.mem hrest :),
      (congrArg State.full hrest :), (congrArg State.tiles hrest :), (congrArg State.net hrest :), hwent⟩
  · intro tile x age waits hx
    exact ⟨waitTag_spec r rfl hx, waitTag_spec r rfl hx⟩

/-! ### TLBINV and CHKPT (O28) -/

theorem retired_retire (s : State) : Retired s s.retire s.me := State.retire_retired_self s

section
variable {s : State} {rs1 rs2 : Reg} (hbase : (s.rx rs1).toNat < 2 ^ 56) (hlo : 16 ≤ (s.rx rs2).toNat) (hhi : (s.rx rs2).toNat ≤ 56)
  (hal : (s.rx rs1).toNat % 2 ^ (s.rx rs2).toNat = 0)
include hbase hlo hhi hal

/-- TLBINV of a range that is in order. -/
theorem exec_tlbinv (hr : s.me.resp = none) : exec (.tlbinv rs1 rs2) s =
    if s.openAccess s.cur then blockOn s .retry
    else if (s.rx rs1).toNat + 2 ^ (s.rx rs2).toNat ≤ 2 ^ 48 then .next s.retire
    else blockOn s (.tlbinv (s.rx rs1).toNat (2 ^ (s.rx rs2).toNat)) := by
  have hlow : (s.rx rs1).toNat % 2 ^ 16 = 0 :=
    Nat.mod_eq_zero_of_dvd ((Nat.pow_dvd_pow 2 hlo).trans (Nat.dvd_of_mod_eq_zero hal))
  show execTlbinv rs1 rs2 s = _
  have hgate : (decide ((s.rx rs1).toNat / 2 ^ 56 ≠ 0) || decide ((s.rx rs1).toNat % 2 ^ 16 ≠ 0) || decide ((s.rx rs2).toNat < 16) ||
      decide (56 < (s.rx rs2).toNat) || decide ((s.rx rs1).toNat % 2 ^ (s.rx rs2).toNat ≠ 0)) = false := by
    rw [Nat.div_eq_of_lt hbase, hlow, hal, decide_eq_false (Nat.not_lt.mpr hlo), decide_eq_false (Nat.not_lt.mpr hhi)]
    rfl
  simp only [execTlbinv, hr, hgate, Bool.false_eq_true, if_false]

end

/-- The number CHKPT gives (R386). -/
def State.intervalNo (s : State) : Word :=
  if s.det (s.partOfHart s.cur) then 0 else BitVec.ofNat 64 (if (s.tile s.site).prot then (s.tile s.site).ival else 0)

/-- CHKPT asks for the close of the open interval. -/
def State.askClose (s : State) : State :=
  if (s.tile s.site).prot && (s.tile s.site).stage != .closing then s.setTile s.site { s.tile s.site with closeReq := true } else s

theorem intervalNo_eq (s : State) : s.intervalNo =
    if s.det (s.partOfHart s.cur) = true ∨ (s.tile s.site).prot = false then 0 else BitVec.ofNat 64 (s.tile s.site).ival := by
  rw [State.intervalNo]
  cases s.det (s.partOfHart s.cur) <;> cases (s.tile s.site).prot <;> simp

/-- What asking for the close changes: the own tile's request. -/
theorem askClose_frame (s : State) : Beside s s.askClose ∧ { s.askClose with tiles := s.tiles } = s ∧
    (∀ y, y ≠ s.site → s.askClose.tile y = s.tile y) ∧
    s.askClose.tile s.site = if (s.tile s.site).prot = true ∧ (s.tile s.site).stage ≠ .closing then
      { s.tile s.site with closeReq := true } else s.tile s.site := by
  have hiff : ((s.tile s.site).prot && (s.tile s.site).stage != .closing) = true ↔
      (s.tile s.site).prot = true ∧ (s.tile s.site).stage ≠ .closing := by simp
  rw [State.askClose]
  split
  · next h =>
    rw [if_pos (hiff.mp h)]
    exact ⟨Beside.setTile s rfl, rfl, fun y hy => tile_setTile_ne s _ hy, tile_setTile_self _ _ _⟩
  · next h =>
    rw [if_neg (mt hiff.mpr h)]
    exact ⟨Beside.refl s, rfl, fun _ _ => rfl, rfl⟩

theorem exec_chkpt (rd : Reg) (s : State) : exec (.chkpt rd 0) s = .next (s.wx rd s.intervalNo).askClose.retire := rfl

/-- A register written before the rest of an instruction. -/
theorem threaded_wx (s : State) (rd : Reg) (v : Word) : ∃ x, Threaded s (s.wx rd v) { s.me with x := x } ∧
    ∀ t : State, t.me.x = x → SetsX s t rd v := by
  obtain ⟨x, hx⟩ := Thread.wx_eq s.me rd v
  have heq : s.wx rd v = s.setMe { s.me with x := x } := by rw [State.wx, hx]
  refine ⟨x, by rw [heq]; exact (Threaded.refl s).setMe rfl, fun t ht r => ?_⟩
  rw [← State.rx_wx, heq, State.rx, State.rx, State.me_setMe, Thread.rx, Thread.rx, ht]

/-- CHKPT without a destination. -/
theorem chkpt_plain (s : State) (rd : Reg) : Ends (.chkpt rd 0) s fun t => SetsX s t rd s.intervalNo ∧ t.mem = s.mem ∧ t.net = s.net ∧
    t.cores = s.cores ∧ (∃ x : Vector Word 32, Went s t { s.me with x := x }) ∧ (∀ y, y ≠ s.site → t.tile y = s.tile y) ∧
    t.tile s.site = if (s.tile s.site).prot = true ∧ (s.tile s.site).stage ≠ .closing then { s.tile s.site with closeReq := true }
      else s.tile s.site := by
  obtain ⟨x, hthreaded, hset⟩ := threaded_wx s rd s.intervalNo
  obtain ⟨hb, hrest, hne, hself⟩ := askClose_frame (s.wx rd s.intervalNo)
  have hwent := (hthreaded.beside hb).went (Thread.steady_refl s.me)
  exact ⟨_, exec_chkpt rd s, hset _ (congrArg Thread.x hwent.me), (congrArg State.mem hrest :), (congrArg State.net hrest :),
    (congrArg State.cores hrest :), ⟨x, hwent⟩, hne, hself⟩

/-- The state a notice is made in: the register is written, and the next sequence number taken (R386). -/
def State.noticed (s : State) (rd : Reg) : State := (s.wx rd s.intervalNo).seqTaken

/-- The notice of a CHKPT. -/
def State.noticeFor (s : State) (rd : Reg) (d : DestWord) : Notice :=
  let u := s.wx rd s.intervalNo
  let q := (u.me.seq + 1).toNat
  { interval := if (s.tile s.site).prot then (s.tile s.site).ival else 0,
    msg := mkMsg (mkHeader u.seqTaken.dev (u.seqTaken.srank s.cur) d.drank d.chan 0 0 (u.seqTaken.jobOf s.cur) u.seqTaken.dev q)
      (vset u.me.payload 0 (u.rx rd)) none,
    drank := d.drank, hart := s.cur, job := u.seqTaken.jobOf s.cur, part := s.partOfHart s.cur }

/-- Where the notice is made: the thread has its register and sequence number, the tile is as it was but for SENT. -/
theorem noticed_spec (s : State) (rd : Reg) (n : Notice) :
    ∃ x, (∀ t : State, t.me.x = x → SetsX s t rd s.intervalNo) ∧
      Threaded s ((s.noticed rd).countSent s.site n.job 1) { s.me with x := x, seq := s.me.seq + 1 } ∧
      OnlySent (s.noticed rd) ((s.noticed rd).countSent s.site n.job 1) s.site := by
  obtain ⟨x, hthreaded, hset⟩ := threaded_wx s rd s.intervalNo
  have hsent := OnlySent.countSent (s.noticed rd) s.site n.job 1
  refine ⟨x, hset, Threaded.beside ?_ hsent.beside, hsent⟩
  rw [State.noticed, State.seqTaken, hthreaded.me]
  exact hthreaded.setMe rfl

/-- A notice goes as one message. -/
theorem sendNotice_emits (s : State) (n : Notice) :
    ∃ i : Item, s.sendNotice n = s.emit i ∧ i.dst = .core (n.drank / 8) ∧ i.body = .message n.msg := ⟨_, rfl, rfl, rfl⟩

/-- What a notice says (R386). -/
theorem noticeFor_msg (s : State) (rd : Reg) (d : DestWord) (h : s.intervalNo = 0) :
    vget 0 (s.noticeFor rd d).msg.payload 0 = 0 := by
  have hv : (s.noticeFor rd d).msg.payload = vset (s.wx rd s.intervalNo).me.payload 0 ((s.wx rd s.intervalNo).rx rd) := rfl
  rw [hv, vget_vset, if_pos ⟨rfl, by decide⟩, State.rx_wx, h]
  split
  · rfl
  · rw [if_pos rfl]

theorem noticeFor_seq (s : State) (rd : Reg) (d : DestWord) : (s.noticeFor rd d).msg.hdr.seq = (s.me.seq + 1).toNat := by
  obtain ⟨x, hthreaded, -⟩ := threaded_wx s rd s.intervalNo
  have hseq : (s.noticeFor rd d).msg.hdr.seq = ((s.wx rd s.intervalNo).me.seq + 1).toNat % 2 ^ 32 := rfl
  rw [hseq, hthreaded.me]
  exact Nat.mod_eq_of_lt (s.me.seq + 1).isLt

section
variable {s : State} {rd rs1 : Reg} {d : DestWord} (h0 : rs1 ≠ 0) (hne : rs1 ≠ rd) (hd : s.destWord .handover (s.rx rs1) = some d)
include h0 hne hd

/-- CHKPT with a destination. -/
theorem exec_chkpt_notice : exec (.chkpt rd rs1) s =
    if (s.tile s.site).prot && decide (32 ≤ (s.tile s.site).notices.length) then blockOn s .retry
    else
      let u := (s.noticed rd).countSent s.site (s.noticeFor rd d).job 1
      if (s.tile s.site).prot then
        .next (u.setTile u.site { u.tile u.site with notices := (u.tile u.site).notices ++ [s.noticeFor rd d] }).askClose.retire
      else .next (u.sendNotice (s.noticeFor rd d)).retire := by
  have hrx : (s.wx rd s.intervalNo).rx rs1 = s.rx rs1 := by rw [State.rx_wx, if_neg h0, if_neg hne]
  have hd' : (s.wx rd s.intervalNo).destWord .handover ((s.wx rd s.intervalNo).rx rs1) = some d := by rw [hrx]; exact hd
  show execChkpt rd rs1 s = _
  rw [State.intervalNo] at hd'
  simp only [execChkpt, if_neg h0, hd']
  exact if_congr Iff.rfl rfl (if_congr Iff.rfl rfl rfl)

/-- On an unprotected tile the notice goes at once. -/
theorem chkpt_sends (hprot : (s.tile s.site).prot = false) : Ends (.chkpt rd rs1) s fun t => SetsX s t rd 0 ∧ t.mem = s.mem ∧
    t.cores = s.cores ∧ (∃ x : Vector Word 32, Went s t { s.me with x := x, seq := s.me.seq + 1 }) ∧
    ∃ (i : Item) (m : Msg), t.net = s.net ++ [i] ∧ i.dst = .core (d.drank / 8) ∧ i.body = .message m ∧ m.hdr.chan = d.chan ∧
      m.hdr.seq = (s.me.seq + 1).toNat ∧ vget 0 m.payload 0 = 0 := by
  have hn : s.intervalNo = 0 := by rw [intervalNo_eq, if_pos (.inr hprot)]
  obtain ⟨x, hset, hthreaded, hsent⟩ := noticed_spec s rd (s.noticeFor rd d)
  have hexec := exec_chkpt_notice h0 hne hd
  rw [hprot] at hexec
  simp only [Bool.false_and, Bool.false_eq_true, if_false] at hexec
  obtain ⟨i, hi, hdst, hbody⟩ := sendNotice_emits ((s.noticed rd).countSent s.site (s.noticeFor rd d).job 1) (s.noticeFor rd d)
  rw [hi] at hexec
  have hemit := OnlySent.emit ((s.noticed rd).countSent s.site (s.noticeFor rd d).job 1) s.site i
  have hwent := (hthreaded.beside hemit.beside).went (Thread.steady_refl s.me)
  obtain ⟨_, _, hc⟩ := countSent_frame (s.noticed rd) s.site (s.noticeFor rd d).job 1
  refine ⟨_, hexec, ?_, ?_, ?_, ⟨x, hwent⟩, { i with ord := State.ordCtr (State.countSent (s.noticed rd) s.site (s.noticeFor rd d).job 1) }, (s.noticeFor rd d).msg, ?_, hdst, hbody, rfl, noticeFor_seq s rd d, noticeFor_msg s rd d hn⟩
  · rw [← hn]
    exact hset _ (congrArg Thread.x hwent.me)
  · exact (congrArg State.mem hc :)
  · exact (congrArg State.cores hc :)
  · exact congrArg (· ++ [_]) (congrArg State.net hc :)

/-- On a protected tile with 32 notices unsent it waits. -/
theorem chkpt_full (hprot : (s.tile s.site).prot = true) (hfull : 32 ≤ (s.tile s.site).notices.length) :
    Ends (.chkpt rd rs1) s fun t => Waits s t .retry := by
  refine ⟨_, ?_, rfl⟩
  rw [exec_chkpt_notice h0 hne hd, hprot, decide_eq_true hfull]
  rfl

/-- On a protected tile the notice is recorded for the interval's commit. -/
theorem chkpt_notes (hprot : (s.tile s.site).prot = true) (hroom : (s.tile s.site).notices.length < 32) :
    Ends (.chkpt rd rs1) s fun t => SetsX s t rd s.intervalNo ∧ t.mem = s.mem ∧ t.net = s.net ∧ t.cores = s.cores ∧
      (∃ x : Vector Word 32, Went s t { s.me with x := x, seq := s.me.seq + 1 }) ∧
      ((t.tile s.site).closeReq = if (s.tile s.site).stage ≠ .closing then true else (s.tile s.site).closeReq) ∧
      ∃ x : Notice, (t.tile s.site).notices = (s.tile s.site).notices ++ [x] ∧ x.interval = (s.tile s.site).ival ∧ x.drank = d.drank ∧
        x.msg.hdr.chan = d.chan ∧ x.msg.hdr.seq = (s.me.seq + 1).toNat := by
  obtain ⟨x, hset, hthreaded, hsent⟩ := noticed_spec s rd (s.noticeFor rd d)
  have hexec := exec_chkpt_notice h0 hne hd
  rw [hprot, decide_eq_false (Nat.not_le.mpr hroom)] at hexec
  simp only [Bool.and_false, Bool.false_eq_true, if_false, if_true] at hexec
  obtain ⟨_, _, hc⟩ := countSent_frame (s.noticed rd) s.site (s.noticeFor rd d).job 1
  obtain ⟨sent, htile⟩ := hsent.tile s.site
  rw [show (s.noticed rd).tile s.site = s.tile s.site from rfl] at htile
  have hsite : State.site ((s.noticed rd).countSent s.site (s.noticeFor rd d).job 1) = s.site := by
    rw [State.site, hthreaded.cur]
    rfl
  rw [hsite, htile] at hexec
  generalize hw : ((s.noticed rd).countSent s.site (s.noticeFor rd d).job 1) = w at *
  have hb := Beside.setTile w (site := s.site) (t := { s.tile s.site with sent := sent, notices := (s.tile s.site).notices ++ [s.noticeFor rd d] })
    (by rw [htile])
  obtain ⟨hclose, hrest, -, hself⟩ := askClose_frame (w.setTile s.site { s.tile s.site with
    sent := sent, notices := (s.tile s.site).notices ++ [s.noticeFor rd d] })
  have hwent := ((hthreaded.beside hb).beside hclose).went (Thread.steady_refl s.me)
  rw [show State.site (w.setTile s.site _) = s.site from hsite, tile_setTile_self] at hself
  refine ⟨_, hexec, hset _ (congrArg Thread.x hwent.me), ?_, ?_, ?_, ⟨x, hwent⟩, ?_, s.noticeFor rd d, ?_, if_pos hprot, rfl, rfl,
    noticeFor_seq s rd d⟩
  · exact (congrArg State.mem hrest :).trans (congrArg State.mem hc :)
  · exact (congrArg State.net hrest :).trans (congrArg State.net hc :)
  · exact (congrArg State.cores hrest :).trans (congrArg State.cores hc :)
  · refine (congrArg Tile.closeReq hself).trans ?_
    simp only [hprot, true_and]
    split <;> rfl
  · refine (congrArg Tile.notices hself).trans ?_
    split <;> rfl

end

/-! ### SELFREPORT (O28) -/

theorem site_of_core (s : State) : coreOf s.cur / 4 = s.site := by
  rw [coreOf, State.site, siteOf, Nat.div_div_eq_div_mul]

/-- What a self-test request changes (R388). -/
theorem askScan_own (s : State) : Beside s (s.askScan (coreOf s.cur)) ∧ { s.askScan (coreOf s.cur) with cores := s.cores } = s ∧
    (s.askScan (coreOf s.cur)).cores =
      if (s.core (coreOf s.cur)).scanAsked = true ∨ ((s.tile s.site).replaying = true ∧ (s.tile s.site).scanPassed (coreOf s.cur) = true)
      then s.cores
      else SMap.put s.cores (coreOf s.cur) { s.core (coreOf s.cur) with
        scanAsked := true, slices := 0, scanIv := s.scanIndex (coreOf s.cur) } := by
  have hiff : ((s.core (coreOf s.cur)).scanAsked || ((s.tile s.site).replaying && (s.tile s.site).scanPassed (coreOf s.cur))) = true ↔
      (s.core (coreOf s.cur)).scanAsked = true ∨ ((s.tile s.site).replaying = true ∧ (s.tile s.site).scanPassed (coreOf s.cur) = true) := by
    rw [Bool.or_eq_true, Bool.and_eq_true]
  rw [State.askScan, site_of_core]
  dsimp only
  split
  · next h => exact ⟨Beside.refl s, rfl, (if_pos (hiff.mp h)).symm⟩
  · next h => exact ⟨⟨rfl, rfl, fun _ => rfl, fun _ => rfl⟩, rfl, (if_neg (mt hiff.mpr h)).symm⟩

/-- What a tile that stops leaves. -/
theorem stopTile_frame (s : State) (site cause : Nat) : { s.stopTile site cause with tiles := s.tiles } = s ∧
    ((s.stopTile site cause).tile site).failed = true ∧
    ((s.tile site).failed = false → ((s.stopTile site cause).tile site).failc = cause) := by
  rw [State.stopTile]
  dsimp only
  split
  · next h => exact ⟨rfl, h, fun hf => absurd (h.symm.trans hf) (by decide)⟩
  · refine ⟨rfl, ?_, fun _ => ?_⟩ <;> rw [tile_setTile_self]

/-- A ring that has room takes the record and counts it; the host sees three writes (R82). -/
theorem ringWrite_room {s : State} {r : EventRing} (b : List Byte)
    (h : (r.count + 2 ^ 64 - s.num (kHost r.base + 8) 8) % 2 ^ 64 ≠ 2 ^ r.sizelog) :
    let at_ := 64 + 32 * (r.count % 2 ^ r.sizelog)
    ∃ mem dirty poison outs,
      s.ringWrite r b = ({ r with count := r.count + 1 }, { s with mem := mem, dirty := dirty, poison := poison, outs := outs }) ∧
      mem = Memory.writeN (Memory.writeN s.mem (kHost r.base + at_) b) (kHost r.base) (bytesOf 8 (r.count + 1)) ∧
      outs = s.outs ++ [.hostWrite 16 (r.base + at_) 32, .hostWrite 16 r.base 8, .msix 16 r.vector] := by
  unfold State.ringWrite
  generalize kHost r.base = base at h ⊢
  dsimp only
  rw [if_neg h]
  refine ⟨_, _, _, _, rfl, rfl, ?_⟩
  show s.outs ++ [_] ++ [_] ++ [_] = _
  simp only [List.append_assoc, List.cons_append, List.nil_append]

/-- The 24 bytes of a kind 9 record (R389). -/
def State.bytes9 (s : State) (code : Word) : List Byte :=
  bytesOf 2 9 ++ bytesOf 1 (s.cur % 32) ++ bytesOf 1 0 ++ bytesOf 4 (s.partOfHart s.cur) ++ bytesOf 8 (s.midOf s.cur).toNat ++
    bytesOf 8 code.toNat

/-- A record of the current thread's partition, whose ring has room. -/
theorem record_ring {s : State} {r : EventRing} (b : List Byte) (hp : s.partOfHart s.cur ≠ 0)
    (hring : (s.part (s.partOfHart s.cur)).ring = some r)
    (h : (r.count + 2 ^ 64 - s.num (kHost r.base + 8) 8) % 2 ^ 64 ≠ 2 ^ r.sizelog) :
    let q := (s.part (s.partOfHart s.cur)).evSeq + 1
    let at_ := 64 + 32 * (r.count % 2 ^ r.sizelog)
    ∃ u, s.record (s.partOfHart s.cur) b = u ∧ Threaded s u s.me ∧ u.tiles = s.tiles ∧ u.cores = s.cores ∧
      u.mem = Memory.writeN (Memory.writeN s.mem (kHost r.base + at_) (b ++ bytesOf 8 q)) (kHost r.base) (bytesOf 8 (r.count + 1)) ∧
      u.outs = s.outs ++ [.hostWrite 16 (r.base + at_) 32, .hostWrite 16 r.base 8, .msix 16 r.vector] := by
  intro q at_
  obtain ⟨mem₁, dirty₁, poison₁, outs₁, hroom, hmem, houts⟩ := ringWrite_room (b ++ bytesOf 8 q) h
  choose r' mem dirty poison outs _ hwrite using ringWrite_frame s
  have heq := (hwrite r (b ++ bytesOf 8 q)).symm.trans hroom
  unfold State.record
  rw [funext₂ hwrite, if_neg hp, hring]
  refine ⟨_, rfl, ?_, rfl, rfl, (congrArg (fun x : EventRing × State => x.2.mem) heq).trans hmem,
    (congrArg (fun x : EventRing × State => x.2.outs) heq).trans houts⟩
  exact Threaded.setPart (u := { s with mem := mem r _, dirty := dirty r _, poison := poison r _, outs := outs r _ })
    ((Threaded.refl s).beside ⟨rfl, rfl, fun _ => rfl, fun _ => rfl⟩) rfl rfl rfl rfl rfl

/-- SELFREPORT of an event whose ring has room. -/
theorem selfreport_event {s : State} {rs1 rs2 : Reg} {r : EventRing} (hk : s.rx rs1 = 2) (hw : MemWf s) (hp : s.partOfHart s.cur ≠ 0)
    (hring : (s.part (s.partOfHart s.cur)).ring = some r)
    (h : (r.count + 2 ^ 64 - s.num (kHost r.base + 8) 8) % 2 ^ 64 ≠ 2 ^ r.sizelog) :
    let at_ := 64 + 32 * (r.count % 2 ^ r.sizelog)
    Ends (.selfreportEvent rs1 rs2) s fun t => Went s t s.me ∧ t.tiles = s.tiles ∧ t.cores = s.cores ∧
      Memory.readN t.mem (kHost r.base + at_) 32 =
        s.bytes9 (s.rx rs2) ++ bytesOf 8 ((s.part (s.partOfHart s.cur)).evSeq + 1) ∧
      t.outs = s.outs ++ [.hostWrite 16 (r.base + at_) 32, .hostWrite 16 r.base 8, .msix 16 r.vector] := by
  intro at_
  obtain ⟨u, hu, hthreaded, htiles, hcores, hmem, houts⟩ := record_ring (s.bytes9 (s.rx rs2)) hp hring h
  have hexec : exec (.selfreportEvent rs1 rs2) s = .next u.retire := by
    show selfreport s rs1 rs2 = _
    simp only [selfreport, hk]
    rw [← hu]
    rfl
  refine ⟨_, hexec, hthreaded.went (Thread.steady_refl s.me), htiles, hcores, ?_, houts⟩
  have hlen : (s.bytes9 (s.rx rs2) ++ bytesOf 8 ((s.part (s.partOfHart s.cur)).evSeq + 1)).length = 32 := by
    simp [State.bytes9, bytesOf_length]
  have hout := Memory.readN_writeN_out (Memory.wf_writeN (kHost r.base + at_) (s.bytes9 (s.rx rs2) ++ bytesOf 8 ((s.part (s.partOfHart s.cur)).evSeq + 1)) hw)
    (kHost r.base + at_) (kHost r.base) 32 (bytesOf 8 (r.count + 1)) (by rw [bytesOf_length]; omega)
  have hin := Memory.readN_writeN hw (kHost r.base + at_) (s.bytes9 (s.rx rs2) ++ bytesOf 8 ((s.part (s.partOfHart s.cur)).evSeq + 1))
  rw [hlen] at hin
  exact (congrArg (Memory.readN · (kHost r.base + at_) 32) hmem).trans (hout.trans hin)

/-- Settles O28. -/
theorem systemInstructionResults : Obligations.SystemInstructionResults := by
  refine ⟨fun s rs1 rs2 r => ?_, fun s rd rs1 drank chan => ?_, fun s rs1 rs2 r => ?_⟩
  · intro base szlog hbase hlo hhi hal
    refine ⟨fun hr ho => ⟨_, ?_, rfl⟩, fun hr ho => ⟨fun hlocal => ⟨_, ?_, retired_retire s⟩, fun hfar => ⟨_, ?_, rfl⟩⟩,
      fun hr => ⟨s.retire, ?_, retired_retire s⟩⟩
    · rw [exec_tlbinv hbase hlo hhi hal hr, if_pos ho]
      rfl
    · rw [exec_tlbinv hbase hlo hhi hal hr, ho, if_neg Bool.false_ne_true, if_pos hlocal]
    · rw [exec_tlbinv hbase hlo hhi hal hr, ho, if_neg Bool.false_ne_true, if_neg (Nat.not_le.mpr hfar)]
      rfl
    · show execTlbinv rs1 rs2 s = _
      rw [execTlbinv, hr]
  · intro tile n
    have hn : n = s.intervalNo := (intervalNo_eq s).symm
    clear_value n
    subst hn
    have hd (hdrank : drank < 2 ^ 18) (hchan : chan < 16) (hx : s.rx rs1 = BitVec.ofNat 64 (drank + chan * 2 ^ 20)) :
        s.destWord .handover (s.rx rs1) = some ⟨0, s.dev, chan, drank, drank % 256⟩ :=
      PlainWord.destWord_thread s (by rw [hx]; exact plainWord_zero hdrank hchan) (.inr rfl) rfl
    exact ⟨chkpt_plain s rd, fun h0 hne hdrank hchan hx => chkpt_sends h0 hne (hd hdrank hchan hx),
      fun h0 hne hdrank hchan hx => chkpt_full h0 hne (hd hdrank hchan hx),
      fun h0 hne hdrank hchan hx => chkpt_notes h0 hne (hd hdrank hchan hx)⟩
  · intro core p b
    refine ⟨fun h1 h2 => ?_, fun h1 h2 hpriv => ?_, fun h1 hw hp hring h => ?_⟩
    · obtain ⟨hb, hrest, hcores⟩ := askScan_own s
      refine ⟨(s.askScan (coreOf s.cur)).retire, ?_, ((Threaded.refl s).beside hb).went (Thread.steady_refl s.me), (congrArg State.mem hrest :),
        (congrArg State.tiles hrest :), hcores⟩
      show selfreport s rs1 rs2 = _
      simp only [selfreport, h1, h2]
      rfl
    · obtain ⟨hrest, hfailed, hcause⟩ := stopTile_frame s.retire s.site 7
      have hwent := (Threaded.refl s).went (Thread.steady_refl s.me)
      refine ⟨s.retire.stopTile s.site 7, ?_, ⟨?_, fun h hh => ?_⟩, (congrArg State.mem hrest :), (congrArg State.cores hrest :), hfailed, hcause⟩
      · show selfreport s rs1 rs2 = _
        simp only [selfreport, h1, h2, hpriv]
        rfl
      · exact (congrArg State.me hrest :).trans hwent.me
      · exact (congrArg (fun u : State => u.thread h) hrest :).trans (hwent.others h hh)
    · obtain ⟨t, ht, hwent, htiles, hcores, hmem, houts⟩ := selfreport_event (rs2 := rs2) h1 hw hp hring h
      rw [← Nat.add_assoc] at hmem
      exact ⟨t, ht, hwent, htiles, hcores, hmem, houts⟩

end Sys2Proof.Machine
end

section
/-!
PROOFS. Vector instructions on registers: element-wise, comparisons, masks, reductions, conversions, moves and permutes
(spec/17_vector.md R334, R343-R355).
-/

namespace Sys2Proof.Machine

/-! ### What a register that is built element by element holds -/

theorem bound_false {s : State} {fields : List (BitVec 4)} (h : NoStreams s fields) {n : BitVec 4} (hn : n ∈ fields) :
    s.me.bound n = false := h n hn

theorem count_eq (et : EType) : et.count = 512 / et.bits := rfl

/-- A lane below the element count is active where the obligations say so (R334). -/
theorem active_eq (s : State) (c : Nat) (pm : Bool) {j : Nat} (hj : j < c) : s.me.active c pm j = laneOn s pm j := by
  simp only [Thread.active, laneOn, Nat.lt_min, hj, and_true]

theorem getElem_elems (v : VReg) (w : Nat) {j : Nat} (hj : j < 512 / w) : at0 (elems v w) j = elem v w j := by
  simp [at0, elems, hj]

/-- A meaning that writes one register, whose elements are those of a list, and goes on. -/
theorem GivesLanes.of_pack {i : Instr} {s : State} {w : Nat} {vd : BitVec 4} {on : Nat → Bool} {f g : Nat → Nat}
    (hexec : exec i s = .next (s.setMe (s.me.wv vd (pack w ((List.range (512 / w)).map g)))).retire)
    (hg : ∀ j, j < 512 / w → g j % 2 ^ w = if on j then f j % 2 ^ w else elem (s.me.rv vd) w j) : GivesLanes i s w vd on f := by
  have hret : Retired s (s.setMe (s.me.wv vd (pack w ((List.range (512 / w)).map g)))).retire
      (s.me.wv vd (pack w ((List.range (512 / w)).map g))) :=
    State.retire_retired s _ rfl rfl rfl rfl rfl rfl rfl rfl rfl
  have hrv (r : BitVec 4) : (s.setMe (s.me.wv vd (pack w ((List.range (512 / w)).map g)))).retire.me.rv r =
      (s.me.wv vd (pack w ((List.range (512 / w)).map g))).rv r := by rw [hret.me]; rfl
  refine ⟨_, hexec, fun r hr => ?_, fun j hj => ?_, _, hret⟩
  · rw [hrv, Thread.rv_wv, if_neg hr]
  · rw [hrv, Thread.rv_wv, if_pos rfl, elem_pack (by simpa using Nat.mul_div_le 512 w) (by simpa using hj), ← hg j hj]
    simp

/-! ### Element-wise instructions (O29, O30) -/

/-- The second operand of a lane. -/
def Src1.value (s : State) (w : Nat) : Src1 → Nat → Nat
  | .vec n, j => elem (s.me.rv n) w j
  | .scalar v, _ => v

/-- An element-wise instruction on registers. -/
theorem laneOut_gives {i : Instr} {s : State} {et : EType} {vd vs2 : BitVec 4} {src1 : Src1} {pm : Bool} {nat : Option Bool} {d0 : Nat}
    {f : Nat → Nat → Nat → Nat → Nat → Nat} {g : Nat → Nat} (hexec : exec i s = laneOut s et vd vs2 src1 pm nat d0 f id)
    (hfree : NoStreams s [vd, vs2]) (hsrc : ∀ n, src1 = .vec n → NoStreams s [n])
    (hf : ∀ j, f 0 j (elem (s.me.rv vs2) et.bits j) (src1.value s et.bits j) (elem (s.me.rv vd) et.bits j) % 2 ^ et.bits =
      g j % 2 ^ et.bits) : GivesLanes i s et.bits vd (laneOn s pm) g := by
  have hnone : ((vs2 :: src1.field.toList) ++ [vd]).filter s.me.bound = [] := by
    rw [List.filter_eq_nil_iff]
    intro n hn
    rw [Bool.not_eq_true]
    cases src1 with
    | vec m =>
      simp only [Src1.field, Option.toList_some, List.cons_append, List.nil_append, List.mem_cons, List.not_mem_nil, or_false] at hn
      obtain rfl | rfl | rfl := hn
      · exact hfree _ (by simp)
      · exact hsrc _ rfl _ (by simp)
      · exact hfree _ (by simp)
    | scalar v =>
      simp only [Src1.field, Option.toList_none, List.cons_append, List.nil_append, List.mem_cons, List.not_mem_nil, or_false] at hn
      obtain rfl | rfl := hn <;> exact hfree _ (by simp)
  refine GivesLanes.of_pack (g := fun j => if s.me.active et.count pm j then
    f 0 j (at0 (elems (s.me.rv vs2) et.bits) j) (src1.value s et.bits j) (at0 (elems (s.me.rv vd) et.bits) j)
    else at0 (elems (s.me.rv vd) et.bits) j) ?_ fun j hj => ?_
  · rw [hexec, laneOut]
    simp only [hnone, List.isEmpty_nil, if_true]
    cases src1 <;> rfl
  · rw [active_eq s et.count pm hj, getElem_elems _ _ hj, getElem_elems _ _ hj]
    split
    · exact hf j
    · exact elem_mod _ _ _

section
variable {s : State} {et : EType} {vd vs2 vs1 : BitVec 4} {var : BitVec 3} {pm : Bool}

/-- The second operand of an integer instruction. -/
def State.intValue (s : State) (et : EType) (vs1 : BitVec 4) (var : BitVec 3) (j : Nat) : Nat :=
  if var.getLsbD 0 then (s.rx (vs1.setWidth 5)).toNat % 2 ^ et.bits else elem (s.me.rv vs1) et.bits j

theorem intSrc_value (s : State) (et : EType) (vs1 : BitVec 4) (var : BitVec 3) (j : Nat) :
    (s.intSrc et vs1 var).value s et.bits j = s.intValue et vs1 var j := by
  rw [State.intSrc, State.intValue]
  split <;> rfl

theorem intValue_lt (s : State) (et : EType) (vs1 : BitVec 4) (var : BitVec 3) (j : Nat) : s.intValue et vs1 var j < 2 ^ et.bits := by
  rw [State.intValue]
  split <;> exact Nat.mod_lt _ (Nat.two_pow_pos _)

theorem intSrc_vec (h : var.getLsbD 0 = false → NoStreams s [vs1]) (n : BitVec 4) (hn : s.intSrc et vs1 var = .vec n) :
    NoStreams s [n] := by
  rw [State.intSrc] at hn
  split at hn
  · cases hn
  · next hv =>
    cases hn
    exact h (by simpa using hv)

/-- An integer element-wise instruction on registers. -/
theorem intOut_gives {i : Instr} {distinct : Bool} {f : Nat → Nat → Nat → Nat} {g : Nat → Nat}
    (hexec : exec i s = intOut s et vd vs2 vs1 var pm distinct f) (hfree : NoStreams s [vd, vs2])
    (hsrc : var.getLsbD 0 = false → NoStreams s [vs1])
    (hf : ∀ j, f et.bits (elem (s.me.rv vs2) et.bits j) (s.intValue et vs1 var j) % 2 ^ et.bits = g j % 2 ^ et.bits) :
    GivesLanes i s et.bits vd (laneOn s pm) g := by
  refine laneOut_gives hexec hfree (intSrc_vec hsrc) fun j => ?_
  rw [intSrc_value, Nat.mod_mod, hf j]

end

theorem wrapN_sub (w : Nat) {a b : Nat} (hb : b < 2 ^ w) : (a + 2 ^ w - b) % 2 ^ w = wrapN w ((a : Int) - b) % 2 ^ w := by
  have hcast : (((a + 2 ^ w - b) % 2 ^ w : Nat) : Int) = ((a : Int) - b) % ((2 ^ w : Nat) : Int) := by
    rw [Int.natCast_mod, Nat.cast_sub (by omega), Nat.cast_add, add_sub_right_comm, Int.add_emod_right]
  rw [wrapN, ← hcast, Int.toNat_natCast, Nat.mod_mod]

theorem intLt_iff (nat : Bool) (w a b : Nat) : intLt nat w a b = decide (ival nat w a < ival nat w b) := by
  cases nat
  · rfl
  · simp [intLt, ival]

theorem bits_log (et : EType) : 2 ^ laneLog et.bits = et.bits := by cases et <;> decide

/-- The clamp of R343 in integers. -/
theorem clampN_eq (nat : Bool) (w : Nat) (v : Int) : clampN nat w v =
    wrapN w (max (if nat then 0 else -(2 : Int) ^ (w - 1)) (min (if nat then (2 : Int) ^ w - 1 else (2 : Int) ^ (w - 1) - 1) v)) := by
  have hone (n : Nat) : ((2 ^ n - 1 : Nat) : Int) = (2 : Int) ^ n - 1 := by
    rw [Nat.cast_sub (Nat.two_pow_pos n)]
    push_cast
    rfl
  rw [clampN]
  simp only [hone]
  push_cast
  rfl

/-- Settles O29, an equation of numbers for each instruction. -/
theorem vectorIntegerResults : Obligations.VectorIntegerResults := by
  intro s et vd vs2 vs1 var pm w nat a b val lo hi sat gives hint hfree hsrc
  have hb (j : Nat) : b j = s.intValue et vs1 var j := rfl
  have hval (x : Nat) : val x = ival nat w x := rfl
  have hpow (n : Nat) : ((2 ^ n : Nat) : Int) = (2 : Int) ^ n := by push_cast; rfl
  have hgives {i : Instr} {o : Out} {distinct : Bool} {f : Nat → Nat → Nat → Nat} {g : Nat → Nat}
      (hexec : exec i s = o) (ho : o = intOut s et vd vs2 vs1 var pm distinct f)
      (hf : ∀ j, f w (a j) (b j) % 2 ^ w = g j % 2 ^ w) : gives i g :=
    intOut_gives (hexec.trans ho) hfree hsrc hf
  have hmin : exec (.vmin et vd vs2 vs1 var pm) s =
      intOut s et vd vs2 vs1 var pm true fun w a b => if intLt (var.getLsbD 1) w b a then b else a := by
    show execVmin et vd vs2 vs1 var pm s = _
    rw [execVmin, if_pos hint]
  have hmax : exec (.vmax et vd vs2 vs1 var pm) s =
      intOut s et vd vs2 vs1 var pm true fun w a b => if intLt (var.getLsbD 1) w a b then b else a := by
    show execVmax et vd vs2 vs1 var pm s = _
    rw [execVmax, if_pos hint]
  refine ⟨hgives (o := execVadd et vd vs2 vs1 var pm s) rfl rfl ?_,
    hgives (o := execVsub et vd vs2 vs1 var pm s) rfl rfl ?_,
    hgives (o := execVmul et vd vs2 vs1 var pm s) rfl rfl ?_,
    hgives (o := execVmulh et vd vs2 vs1 var pm s) rfl rfl ?_,
    hgives (o := execVaddsat et vd vs2 vs1 var pm s) rfl rfl ?_,
    hgives (o := execVsubsat et vd vs2 vs1 var pm s) rfl rfl ?_,
    hgives hmin rfl ?_,
    hgives hmax rfl ?_,
    hgives (o := execVand et vd vs2 vs1 var pm s) rfl rfl ?_,
    hgives (o := execVor et vd vs2 vs1 var pm s) rfl rfl ?_,
    hgives (o := execVxor et vd vs2 vs1 var pm s) rfl rfl ?_,
    hgives (o := execVsll et vd vs2 vs1 var pm s) rfl rfl ?_,
    hgives (o := execVsrl et vd vs2 vs1 var pm s) rfl rfl ?_,
    hgives (o := execVsra et vd vs2 vs1 var pm s) rfl rfl ?_⟩ <;> intro j
  · rfl
  · exact wrapN_sub w (intValue_lt s et vs1 var j)
  · rfl
  · rw [hpow]
    rfl
  · rw [clampN_eq]
    rfl
  · rw [clampN_eq]
    rfl
  · rw [intLt_iff, hval, hval]
    simp only [decide_eq_true_eq]
    rfl
  · rw [intLt_iff, hval, hval]
    simp only [decide_eq_true_eq]
    rfl
  · rfl
  · rfl
  · rfl
  · rw [show 2 ^ laneLog w = w from bits_log et]
  · rw [show 2 ^ laneLog w = w from bits_log et]
  · rw [show 2 ^ laneLog w = w from bits_log et, hpow]

/-- The sign bit of a floating type is its highest. -/
theorem fmt_sign {et : EType} (h : et.isInt = false) : et.fmt.eb + et.fmt.mb = et.bits - 1 ∧ et.fmt.width = et.bits := by
  revert h
  cases et <;> decide

/-- Settles O30. -/
theorem vectorFloatResults : Obligations.VectorFloatResults := by
  intro s et vd vs2 vs1 rm pm w m x y a b d gives hfloat hfree
  obtain ⟨hsign, hwidth⟩ := fmt_sign hfloat
  have hone {i : Instr} {o : Out} {f : Fmt → Nat → Nat} {g : Nat → Nat} (hexec : exec i s = o) (ho : o = oneOut s et vd vs2 pm f)
      (hf : ∀ j, f et.fmt (x j) % 2 ^ w = g j % 2 ^ w) : gives i g :=
    laneOut_gives (hexec.trans ho) hfree nofun hf
  refine ⟨fun hsrc => ?_, hone (o := execVexp2 et vd vs2 pm s) rfl rfl ?_, hone (o := execVlog2 et vd vs2 pm s) rfl rfl ?_,
    hone (o := execVrcp et vd vs2 pm s) rfl rfl ?_, hone (o := execVrsqrt et vd vs2 pm s) rfl rfl ?_,
    hone (o := execVtanh et vd vs2 pm s) rfl rfl ?_, hone (o := execVfabs et vd vs2 pm s) rfl rfl ?_,
    hone (o := execVfneg et vd vs2 pm s) rfl rfl ?_⟩
  · have hgives {i : Instr} {o : Out} {d0 : Nat} {f : Nat → Nat → Nat → Nat → Nat → Nat} {g : Nat → Nat} (hexec : exec i s = o)
        (ho : o = laneOut s et vd vs2 (.vec vs1) pm none d0 f id)
        (hf : ∀ j, f 0 j (x j) (y j) (elem (s.me.rv vd) w j) % 2 ^ w = g j % 2 ^ w) : gives i g :=
      laneOut_gives (hexec.trans ho) hfree (fun _ h => by cases h; exact hsrc) hf
    have hflt {i : Instr} {o : Out} {f : Fmt → FVal → FVal → FVal → Nat} {g : Nat → Nat} (hexec : exec i s = o)
        (ho : o = fltOut s et vd vs2 vs1 pm f) (hf : ∀ j, f et.fmt (a j) (b j) (d j) % 2 ^ w = g j % 2 ^ w) : gives i g :=
      hgives (hexec.trans ho) (show fltOut s et vd vs2 vs1 pm f = laneOut s et vd vs2 (.vec vs1) pm none (negZero et.fmt)
        (fun _ _ a b d => f et.fmt (decodeF et.fmt a) (decodeF et.fmt b) (decodeF et.fmt d)) id from rfl) hf
    have hmin : exec (.vmin et vd vs2 vs1 0 pm) s = laneOut s et vd vs2 (.vec vs1) pm none 0 (fun _ _ a b _ => minF et.fmt a b) id := by
      show execVmin et vd vs2 vs1 0 pm s = _
      rw [execVmin, hfloat]
      rfl
    have hmax : exec (.vmax et vd vs2 vs1 0 pm) s = laneOut s et vd vs2 (.vec vs1) pm none 0 (fun _ _ a b _ => maxF et.fmt a b) id := by
      show execVmax et vd vs2 vs1 0 pm s = _
      rw [execVmax, hfloat]
      rfl
    refine ⟨hflt (o := execVfadd et vd vs2 vs1 rm pm s) rfl rfl ?_, hflt (o := execVfsub et vd vs2 vs1 rm pm s) rfl rfl ?_,
      hflt (o := execVfmul et vd vs2 vs1 rm pm s) rfl rfl ?_, hflt (o := execVfma et vd vs2 vs1 rm pm s) rfl rfl ?_,
      hflt (o := execVfnma et vd vs2 vs1 rm pm s) rfl rfl ?_, hgives hmin rfl ?_, hgives hmax rfl ?_,
      hgives (o := execVminn et vd vs2 vs1 pm s) rfl rfl ?_, hgives (o := execVmaxn et vd vs2 vs1 pm s) rfl rfl ?_⟩ <;>
      exact fun j => rfl
  · exact fun j => rfl
  · exact fun j => rfl
  · exact fun j => rfl
  · exact fun j => rfl
  · exact fun j => rfl
  · intro j
    rw [hsign]
  · intro j
    rw [hsign, hwidth, Nat.mod_mod]

/-! ### Comparisons and masks (O32) -/

theorem retired_setMe_wm (s : State) (md : BitVec 2) (v : Word) : Retired s (s.setMe (s.me.wm md v)).retire (s.me.wm md v) :=
  State.retire_retired s _ rfl rfl rfl rfl rfl rfl rfl rfl rfl

theorem rm_retired {s t : State} {md : BitVec 2} {v : Word} (h : Retired s t (s.me.wm md v)) (r : BitVec 2) :
    t.me.rm r = if r = md then v else s.me.rm r := by
  rw [← Thread.rm_wm, h.me]
  rfl

/-- A mask instruction. -/
theorem maskOut_gives {i : Instr} {s : State} {md : BitVec 2} {v : Word} (h : exec i s = maskOut s md v) : GivesM i s md v :=
  ⟨_, h, rm_retired (retired_setMe_wm s md v), _, retired_setMe_wm s md v⟩

theorem getLsbD_setBit (m : Word) {i j : Nat} (hi : i < 64) (b : Bool) :
    (setBit m i b).getLsbD j = if j = i then b else m.getLsbD j := by
  by_cases hj : j = i
  · subst hj
    cases b <;> simp [setBit, hi]
  · by_cases hlt : j < 64
    · cases b <;> simp [setBit, hj, hlt] <;> omega
    · simp [hj, BitVec.getLsbD_of_ge _ j (Nat.not_lt.mp hlt)]

/-- Bits set one after the other. -/
theorem getLsbD_foldl_setBit (test : Nat → Bool) (is : List Nat) (m : Word) (h : ∀ i ∈ is, i < 64) (j : Nat) :
    (is.foldl (fun m i => setBit m i (test i)) m).getLsbD j = if j ∈ is then test j else m.getLsbD j := by
  induction is generalizing m with
  | nil => simp
  | cons i is ih =>
    rw [List.foldl_cons, ih _ fun k hk => h k (List.mem_cons_of_mem _ hk), getLsbD_setBit m (h i List.mem_cons_self)]
    by_cases hmem : j ∈ is
    · simp [hmem]
    · by_cases hij : j = i <;> simp [hmem, hij]

theorem count_le (et : EType) : et.count ≤ 64 := by cases et <;> decide

/-- A comparison of registers. -/
theorem cmpOut_gives {i : Instr} {s : State} {c : VCmp} {et : EType} {md : BitVec 2} {vs2 vs1 : BitVec 4} {var : BitVec 3} {pm : Bool}
    {test : Nat → Bool} (hexec : exec i s = cmpOut s c et md vs2 vs1 var pm) (hfree : NoStreams s [vs2])
    (hsrc : ∀ n, (if et.isInt then s.intSrc et vs1 var else .vec vs1) = .vec n → NoStreams s [n])
    (htest : ∀ j, (if et.isInt then cmpInt c (var.getLsbD 1) et.bits (elem (s.me.rv vs2) et.bits j)
        ((if et.isInt then s.intSrc et vs1 var else .vec vs1).value s et.bits j)
      else cmpFloat c et.fmt (elem (s.me.rv vs2) et.bits j)
        ((if et.isInt then s.intSrc et vs1 var else .vec vs1).value s et.bits j)) = test j) :
    GivesBits i s md (fun j => decide (j < 512 / et.bits) && laneOn s pm j) test := by
  have hbound : s.me.bound vs2 = false := hfree _ (by simp)
  rw [cmpOut] at hexec
  generalize (if et.isInt then s.intSrc et vs1 var else Src1.vec vs1) = src at hexec hsrc htest
  have hsrcbound : (src.field.map s.me.bound).getD false = false := by
    cases src with
    | vec n => exact hsrc n rfl _ (by simp)
    | scalar v => rfl
  simp only [hbound, hsrcbound, Bool.or_self, Bool.false_eq_true, if_false] at hexec
  have htests : (s.me.actives et.count pm).foldl (fun m j => setBit m j
      (if et.isInt = true then cmpInt c (var.getLsbD 1) et.bits (elem (s.me.rv vs2) et.bits j)
        (match src with | .vec n => elem (s.me.rv n) et.bits j | .scalar v => v)
      else cmpFloat c et.fmt (elem (s.me.rv vs2) et.bits j)
        (match src with | .vec n => elem (s.me.rv n) et.bits j | .scalar v => v))) (s.me.rm md) =
      (s.me.actives et.count pm).foldl (fun m j => setBit m j (test j)) (s.me.rm md) := by
    congr 1
    funext m j
    rw [← htest j]
    cases src <;> rfl
  have hexec' : exec i s = .next (s.setMe (s.me.wm md
      ((s.me.actives et.count pm).foldl (fun m j => setBit m j (test j)) (s.me.rm md)))).retire := by
    rw [hexec, ← htests]
    cases src <;> rfl
  refine ⟨_, hexec', fun r hr => ?_, fun j hj => ?_, _, retired_setMe_wm s md _⟩
  · rw [rm_retired (retired_setMe_wm s md _), if_neg hr]
  · rw [rm_retired (retired_setMe_wm s md _), if_pos rfl, getLsbD_foldl_setBit]
    · have hmem : j ∈ s.me.actives et.count pm ↔ (decide (j < 512 / et.bits) && laneOn s pm j) = true := by
        rw [Thread.mem_actives, count_eq]
        cases pm <;> simp [laneOn]
      simp only [hmem]
    · intro k hk
      exact (Thread.mem_actives.mp hk).1.trans_le (count_le et)

theorem sval_inj {w a b : Nat} (ha : a < 2 ^ w) (hb : b < 2 ^ w) (h : sval w a = sval w b) : a = b := by
  simp only [sval, Nat.mod_eq_of_lt ha, Nat.mod_eq_of_lt hb] at h
  generalize 2 ^ (w - 1) = half at h
  generalize 2 ^ w = full at ha hb h
  split at h <;> split at h <;> omega

theorem ival_inj {nat : Bool} {w a b : Nat} (ha : a < 2 ^ w) (hb : b < 2 ^ w) (h : ival nat w a = ival nat w b) : a = b := by
  cases nat
  · exact sval_inj ha hb h
  · exact Int.ofNat_inj.mp h

theorem elem_lt (v : VReg) (w j : Nat) : elem v w j < 2 ^ w := Nat.mod_lt _ (Nat.two_pow_pos w)

theorem cmpInt_le {nat : Bool} {w a b : Nat} (ha : a < 2 ^ w) (hb : b < 2 ^ w) :
    cmpInt .le nat w a b = decide (ival nat w a ≤ ival nat w b) := by
  rw [cmpInt, intLt_iff, Bool.eq_iff_iff, Bool.or_eq_true, decide_eq_true_eq, decide_eq_true_eq, beq_iff_eq, le_iff_lt_or_eq]
  exact or_congr_right ⟨fun h => by rw [h], ival_inj ha hb⟩

/-- Settles O32. -/
theorem vectorMaskResults : Obligations.VectorMaskResults := by
  intro s et md ma mb vs2 vs1 xs var pm w nat a y b val on
  refine ⟨fun hint hfree hsrc => ?_, fun hfloat hfree => ?_, maskOut_gives rfl, maskOut_gives rfl, maskOut_gives rfl, maskOut_gives rfl,
    maskOut_gives rfl, maskOut_gives rfl, maskOut_gives rfl, Gives.of_writeReg rfl⟩
  · have hb (j : Nat) : b j = s.intValue et xs var j := rfl
    have hgives {i : Instr} {o : Out} {c : VCmp} {test : Nat → Bool} (hexec : exec i s = o) (ho : o = cmpOut s c et md vs2 xs var pm)
        (htest : ∀ j, cmpInt c nat w (a j) (b j) = test j) : GivesBits i s md on test := by
      refine cmpOut_gives (hexec.trans ho) hfree ?_ fun j => ?_
      · rw [hint]
        exact intSrc_vec hsrc
      · simp only [hint, if_true, intSrc_value]
        exact htest j
    refine ⟨hgives (o := execVcmpeq et md vs2 xs var pm s) rfl rfl fun j => rfl,
      hgives (o := execVcmpne et md vs2 xs var pm s) rfl rfl fun j => rfl,
      hgives (o := execVcmplt et md vs2 xs var pm s) rfl rfl fun j => intLt_iff _ _ _ _,
      hgives (o := execVcmple et md vs2 xs var pm s) rfl rfl fun j => cmpInt_le (elem_lt _ _ _) (intValue_lt s et xs var j)⟩
  · have hgives {i : Instr} {o : Out} {c : VCmp} (hexec : exec i s = o) (ho : o = cmpOut s c et md vs2 vs1 0 pm) :
        GivesBits i s md on fun j => cmpFloat c et.fmt (a j) (y j) := by
      refine cmpOut_gives (hexec.trans ho) (fun n hn => hfree n (by simp_all)) ?_ fun j => ?_
      · rw [hfloat]
        intro n hn
        cases hn
        exact fun k hk => hfree k (by simp_all)
      · rw [hfloat]
        rfl
    exact ⟨hgives (o := execVcmpeq et md vs2 vs1 0 pm s) rfl rfl, hgives (o := execVcmpne et md vs2 vs1 0 pm s) rfl rfl,
      hgives (o := execVcmplt et md vs2 vs1 0 pm s) rfl rfl, hgives (o := execVcmple et md vs2 vs1 0 pm s) rfl rfl⟩

/-! ### Reductions (O34) -/

/-- The lanes of a register that a reduction takes (R334). -/
def State.lanes (s : State) (et : EType) (vs2 : BitVec 4) (pm : Bool) : List (Option Nat) :=
  (List.range (512 / et.bits)).map fun j => if laneOn s pm j then some (elem (s.me.rv vs2) et.bits j) else none

/-- A reduction of a register goes on with one beat. -/
theorem reduceThen_register {s : State} {et : EType} {vd vs2 : BitVec 4} {pm : Bool} {nat : Option Bool}
    (k : List (List (Option Nat)) → List (BitVec 4) → State → Out) (hfree : NoStreams s [vd, vs2]) :
    reduceThen s et vd vs2 pm nat k = k [s.lanes et vs2 pm] [] s := by
  have hvd : s.me.bound vd = false := hfree _ (by simp)
  have hvs2 : s.me.bound vs2 = false := hfree _ (by simp)
  have hlanes : ((List.range et.count).map fun j => if s.me.active et.count pm j then some (elem (s.me.rv vs2) et.bits j) else none) =
      s.lanes et vs2 pm := by
    refine List.map_congr_left fun j hj => ?_
    rw [active_eq s et.count pm (List.mem_range.mp hj)]
  rw [reduceThen]
  simp only [hvd, hvs2, Bool.false_eq_true, if_false, Bool.not_false, if_true, hlanes]

theorem set_elems (v : VReg) (w x : Nat) : (elems v w).set 0 x = (List.range (512 / w)).map fun j => if j = 0 then x else elem v w j := by
  refine List.ext_getElem (by simp) fun j h1 h2 => ?_
  rw [List.getElem_set]
  simp only [elems, List.getElem_map, List.getElem_range, eq_comm (a := 0)]

/-- An instruction that writes element 0 of a register. -/
theorem reduction_gives {i : Instr} {s : State} {w n : Nat} {vd : BitVec 4} {v : Nat}
    (hexec : exec i s = streamEnd s [] vd n (fun _ => []) (some (pack w ((elems (s.me.rv vd) w).set 0 v))) id) :
    GivesLanes i s w vd (fun j => j == 0) fun _ => v := by
  refine GivesLanes.of_pack (g := fun j => if j = 0 then v else elem (s.me.rv vd) w j) ?_ fun j hj => ?_
  · rw [hexec, set_elems]
    rfl
  · by_cases h0 : j = 0 <;> simp [h0]

section
variable {s : State} {et : EType} {vd vs2 : BitVec 4} {var : BitVec 3} {pm : Bool} (hfree : NoStreams s [vd, vs2])
include hfree

theorem vredsum_gives : GivesLanes (.vredsum et vd vs2 var pm) s et.bits vd (fun j => j == 0)
    fun _ => beatSum et (s.me.mode var) (s.lanes et vs2 pm) := by
  refine reduction_gives (n := 1) ?_
  show execVredsum et vd vs2 var pm s = _
  rw [execVredsum, reduceThen_register _ hfree]
  rfl

theorem vredmax_gives : GivesLanes (.vredmax et vd vs2 var pm) s et.bits vd (fun j => j == 0)
    fun _ => maxOf et (var.getLsbD 1) ((s.lanes et vs2 pm).filterMap id) := by
  refine reduction_gives (n := 1) ?_
  show execVredmax et vd vs2 var pm s = _
  rw [execVredmax, reduceThen_register _ hfree]
  simp only [List.flatten_cons, List.flatten_nil, List.append_nil]
  rfl

theorem vargmax_gives : GivesLanes (.vargmax et vd vs2 var pm) s 32 vd (fun j => j == 0)
    fun _ => argMax et (var.getLsbD 1) (s.lanes et vs2 pm) := by
  refine reduction_gives (n := 1) ?_
  show execVargmax et vd vs2 var pm s = _
  rw [execVargmax, reduceThen_register _ hfree]
  simp only [List.flatten_cons, List.flatten_nil, List.append_nil]
  rfl

end

/-- The elements a reduction takes are those of the active lanes. -/
theorem filterMap_lanes (s : State) (et : EType) (vs2 : BitVec 4) (pm : Bool) :
    (s.lanes et vs2 pm).filterMap id = (activeList s et pm).map (elem (s.me.rv vs2) et.bits) := by
  rw [State.lanes, activeList, List.filterMap_map, ← List.filterMap_eq_map, List.filterMap_filter]
  refine List.filterMap_congr fun j _ => ?_
  simp only [Function.comp_apply, id]

/-- A wrapping sum of the active lanes. -/
theorem beatSum_int {et : EType} (h : et.isInt = true) (mode : Mode) (l : List (Option Nat)) :
    beatSum et mode l = (l.filterMap id).sum % 2 ^ et.bits := by
  have hsum (a : Nat) : l.foldl (fun acc x => acc + x.getD 0) a = a + (l.filterMap id).sum := by
    induction l generalizing a with
    | nil => rfl
    | cons x l ih =>
      rw [List.foldl_cons, ih]
      cases x <;> simp [Nat.add_assoc]
  rw [beatSum, if_pos h, hsum, Nat.zero_add]

/-- Of two places the later one if its key is greater. -/
def better (key : Nat → Int) (b l : Nat) : Nat := if key b < key l then l else b

/-- Taking the better place, place by place, finds the first of the greatest. -/
theorem foldl_better_first (key : Nat → Int) (a : Nat) (l : List Nat) (hasc : (a :: l).Pairwise (· < ·)) :
    l.foldl (better key) a ∈ a :: l ∧ (∀ b ∈ a :: l, key b ≤ key (l.foldl (better key) a)) ∧
      ∀ b ∈ a :: l, b < l.foldl (better key) a → key b < key (l.foldl (better key) a) := by
  induction l using List.reverseRecOn with
  | nil => simp
  | append_singleton l c ih =>
    rw [← List.cons_append, List.pairwise_append] at hasc
    obtain ⟨hprefix, -, hlast⟩ := hasc
    obtain ⟨hmem, hmax, hfirst⟩ := ih hprefix
    rw [List.foldl_append, List.foldl_cons, List.foldl_nil, ← List.cons_append]
    generalize hj : l.foldl (better key) a = j at hmem hmax hfirst ⊢
    have hsplit (P : Nat → Prop) (h1 : ∀ b ∈ a :: l, P b) (h2 : P c) : ∀ b ∈ (a :: l) ++ [c], P b := by
      intro b hb
      obtain hb | hb := List.mem_append.mp hb
      · exact h1 b hb
      · rwa [List.mem_singleton.mp hb]
    rw [better]
    split
    · next hlt =>
      exact ⟨by simp, hsplit _ (fun b hb => (hmax b hb).trans hlt.le) le_rfl,
        hsplit _ (fun b hb _ => (hmax b hb).trans_lt hlt) fun h => absurd h (lt_irrefl c)⟩
    · next hge =>
      exact ⟨List.mem_append_left _ hmem, hsplit _ hmax (not_lt.mp hge),
        hsplit _ hfirst fun h => absurd (h.trans (hlast j hmem c (by simp))) (lt_irrefl c)⟩

/-- The greatest integer of some elements. -/
theorem maxOf_int {et : EType} (h : et.isInt = true) (nat : Bool) (x : Nat → Nat) (a : Nat) (l : List Nat) :
    maxOf et nat ((a :: l).map x) = x (l.foldl (better fun j => ival nat et.bits (x j)) a) := by
  simp only [maxOf, List.map_cons, h, if_true, Bool.true_or]
  induction l generalizing a with
  | nil => rfl
  | cons b l ih =>
    have hstep : (if intLt nat et.bits (x a) (x b) = true then x b else x a) = x (better (fun j => ival nat et.bits (x j)) a b) := by
      rw [intLt_iff, better]
      simp only [decide_eq_true_eq]
      split <;> rfl
    rw [List.map_cons, List.foldl_cons, List.foldl_cons, hstep]
    exact ih _

/-- One place more of the search for the greatest (R350). -/
def argStep (et : EType) (nat : Bool) (acc : Option (Nat × Nat)) (x : Option Nat) (j : Nat) : Option (Nat × Nat) :=
  match x, acc with
  | none, _ => acc
  | some x, none => some (x, j)
  | some x, some b => if above et nat b.1 x then some (x, j) else acc

theorem argMax_eq (et : EType) (nat : Bool) (l : List (Option Nat)) : argMax et nat l =
    match l.zipIdx.foldl (fun acc e => argStep et nat acc e.1 e.2) none with
    | some b => b.2
    | none => 0xFFFFFFFF := rfl

/-- The search passes over lanes that are not active. -/
theorem argMax_lanes (s : State) (et : EType) (nat : Bool) (vs2 : BitVec 4) (pm : Bool) : argMax et nat (s.lanes et vs2 pm) =
    match (activeList s et pm).foldl (fun acc j => argStep et nat acc (some (elem (s.me.rv vs2) et.bits j)) j) none with
    | some b => b.2
    | none => 0xFFFFFFFF := by
  have hzip : (s.lanes et vs2 pm).zipIdx = (List.range (512 / et.bits)).map fun j =>
      (if laneOn s pm j then some (elem (s.me.rv vs2) et.bits j) else none, j) := by
    refine List.ext_getElem (by simp [State.lanes]) fun j h1 h2 => ?_
    simp [State.lanes]
  have hskip : (s.lanes et vs2 pm).zipIdx.foldl (fun acc e => argStep et nat acc e.1 e.2) none =
      (activeList s et pm).foldl (fun acc j => argStep et nat acc (some (elem (s.me.rv vs2) et.bits j)) j) none := by
    rw [hzip, activeList, List.foldl_filter, List.foldl_map]
    congr 1
    funext acc j
    split
    · rfl
    · rfl
  rw [argMax_eq, hskip]

/-- The search of integers finds the first greatest. -/
theorem foldl_argStep_int {et : EType} (h : et.isInt = true) (nat : Bool) (x : Nat → Nat) (a : Nat) (l : List Nat) :
    l.foldl (fun acc j => argStep et nat acc (some (x j)) j) (some (x a, a)) =
      some (x (l.foldl (better fun j => ival nat et.bits (x j)) a), l.foldl (better fun j => ival nat et.bits (x j)) a) := by
  induction l generalizing a with
  | nil => rfl
  | cons b l ih =>
    have hstep : argStep et nat (some (x a, a)) (some (x b)) b =
        some (x (better (fun j => ival nat et.bits (x j)) a b), better (fun j => ival nat et.bits (x j)) a b) := by
      simp only [argStep, above, h, if_true, intLt_iff, better, decide_eq_true_eq]
      split <;> rfl
    rw [List.foldl_cons, List.foldl_cons, hstep]
    exact ih _

theorem activeList_ascending (s : State) (et : EType) (pm : Bool) : (activeList s et pm).Pairwise (· < ·) :=
  (List.pairwise_lt_range (n := _)).filter _

/-- Reductions of integers where a lane is active. -/
theorem reductions_int {s : State} {et : EType} {vd vs2 : BitVec 4} {var : BitVec 3} {pm : Bool} (hint : et.isInt = true)
    (hfree : NoStreams s [vd, vs2]) (hact : activeList s et pm ≠ []) :
    ∃ j ∈ activeList s et pm,
      (∀ l ∈ activeList s et pm, ival (var.getLsbD 1) et.bits (elem (s.me.rv vs2) et.bits l) ≤
        ival (var.getLsbD 1) et.bits (elem (s.me.rv vs2) et.bits j)) ∧
      (∀ l ∈ activeList s et pm, l < j → ival (var.getLsbD 1) et.bits (elem (s.me.rv vs2) et.bits l) <
        ival (var.getLsbD 1) et.bits (elem (s.me.rv vs2) et.bits j)) ∧
      GivesLanes (.vredmax et vd vs2 var pm) s et.bits vd (fun j => j == 0) (fun _ => elem (s.me.rv vs2) et.bits j) ∧
      GivesLanes (.vargmax et vd vs2 var pm) s 32 vd (fun j => j == 0) fun _ => j := by
  have hmax := vredmax_gives (et := et) (var := var) (pm := pm) hfree
  have harg := vargmax_gives (et := et) (var := var) (pm := pm) hfree
  rw [filterMap_lanes] at hmax
  rw [argMax_lanes] at harg
  have hasc := activeList_ascending s et pm
  generalize activeList s et pm = act at *
  cases act with
  | nil => exact absurd rfl hact
  | cons a l =>
    rw [maxOf_int hint] at hmax
    rw [List.foldl_cons, show argStep et (var.getLsbD 1) none (some (elem (s.me.rv vs2) et.bits a)) a =
      some (elem (s.me.rv vs2) et.bits a, a) from rfl, foldl_argStep_int hint _ (elem (s.me.rv vs2) et.bits)] at harg
    obtain ⟨hmem, hge, hfirst⟩ := foldl_better_first (fun j => ival (var.getLsbD 1) et.bits (elem (s.me.rv vs2) et.bits j)) a l hasc
    exact ⟨_, hmem, hge, hfirst, hmax, harg⟩

/-- A tree over some lanes has a root. -/
theorem tree_ne_nil (f : Nat → Nat → Nat) (n : Nat) {l : List Nat} (h : l ≠ []) : tree f n l ≠ [] := by
  induction n generalizing l with
  | zero => exact h
  | succ n ih =>
    refine ih ?_
    match l, h with
    | [a], _ => simp [pairUp]
    | a :: b :: t, _ => simp [pairUp]

/-- The variant bit says nothing of floating elements. -/
theorem maxOf_float {et : EType} (h : et.isInt = false) (nat : Bool) (l : List Nat) : maxOf et nat l = maxOf et false l := by
  cases l <;> simp [maxOf, h]

theorem argMax_float {et : EType} (h : et.isInt = false) (nat : Bool) (l : List (Option Nat)) : argMax et nat l = argMax et false l := by
  have habove : above et nat = above et false := by
    funext best x
    simp [above, h]
  rw [argMax, argMax, habove]

/-- Settles O34. -/
theorem vectorReductionResults : Obligations.VectorReductionResults := by
  intro s et vd vs2 var pm w m x val act first lanes sum hfree
  have hsum := vredsum_gives (et := et) (var := var) (pm := pm) hfree
  have hmax := vredmax_gives (et := et) (var := var) (pm := pm) hfree
  have harg := vargmax_gives (et := et) (var := var) (pm := pm) hfree
  rw [filterMap_lanes] at hmax
  refine ⟨fun hint => ⟨?_, fun hnone => ?_, reductions_int hint hfree⟩, fun hfloat => ⟨?_, ?_, ?_⟩⟩
  · rw [beatSum_int hint, filterMap_lanes] at hsum
    simpa only [GivesLanes, Nat.mod_mod] using hsum
  · rw [show activeList s et pm = [] from hnone, List.map_nil] at hmax
    rw [argMax_lanes, show activeList s et pm = [] from hnone] at harg
    simp only [maxOf, hint, if_true] at hmax
    exact ⟨hmax, harg⟩
  · have hlanes : (s.lanes et vs2 pm).map (fun o => o.getD (negZero et.fmt)) = lanes := by
      rw [State.lanes, List.map_map]
      refine List.map_congr_left fun j _ => ?_
      simp only [Function.comp_apply]
      split <;> rfl
    have hroot : (tree sum 6 lanes).head?.getD (negZero et.fmt) = (tree sum 6 lanes).head?.getD 0 := by
      have hne : lanes ≠ [] := by
        have hpos : 0 < 512 / et.bits := by cases et <;> decide
        exact List.ne_nil_of_length_pos (by simpa [lanes, w] using hpos)
      obtain ⟨a, t, hat⟩ := List.exists_cons_of_ne_nil (tree_ne_nil sum 6 hne)
      rw [hat]
      rfl
    simp only [beatSum, hfloat, Bool.false_eq_true, if_false, hlanes] at hsum
    rw [← hroot]
    exact hsum
  · rw [maxOf_float hfloat] at hmax
    exact hmax
  · rw [argMax_float hfloat] at harg
    exact harg

/-! ### Conversions, moves, permutes and draws (O35) -/

theorem noStreams_cons {s : State} {n : BitVec 4} {l : List (BitVec 4)} : NoStreams s (n :: l) ↔ s.me.bound n = false ∧ NoStreams s l :=
  List.forall_mem_cons

/-- A permute of registers. -/
theorem permOut_gives {i : Instr} {s : State} {et : EType} {vd : BitVec 4} {srcs : List (BitVec 4)} {pm : Bool} {f : Nat → Option Nat}
    {on : Nat → Bool} {g : Nat → Nat} (hexec : exec i s = permOut s et vd srcs pm f) (hfree : NoStreams s (vd :: srcs))
    (hon : ∀ j, j < 512 / et.bits → on j = ((f j).isSome && laneOn s pm j))
    (hg : ∀ j v, f j = some v → v % 2 ^ et.bits = g j % 2 ^ et.bits) : GivesLanes i s et.bits vd on g := by
  have hnone : ((vd :: srcs).any s.me.bound) = false := by
    rw [List.any_eq_false]
    exact fun n hn => by rw [hfree n hn]; exact Bool.false_ne_true
  have hgives : GivesLanes i s et.bits vd on fun j => (f j).getD 0 := by
    refine GivesLanes.of_wElems (is := (s.me.actives et.count pm).filter fun j => (f j).isSome) ?_ fun j hj => ?_
    · rw [hexec, permOut, hnone]
      rfl
    · rw [List.mem_filter, Thread.mem_actives, hon j hj, count_eq, Bool.and_eq_true]
      cases pm <;> simp [laneOn, hj, and_comm]
  obtain ⟨t, ht, hrv, helem, hret⟩ := hgives
  refine ⟨t, ht, hrv, fun j hj => ?_, hret⟩
  rw [helem j hj]
  split
  · next hj' =>
    rw [hon j hj, Bool.and_eq_true, Option.isSome_iff_exists] at hj'
    obtain ⟨⟨v, hv⟩, -⟩ := hj'
    dsimp only
    rw [hv]
    exact hg j v hv
  · rfl

/-- A permute that gives every active lane an element. -/
theorem permOut_lanes {i : Instr} {s : State} {et : EType} {vd : BitVec 4} {srcs : List (BitVec 4)} {pm : Bool} {f g : Nat → Nat}
    (hexec : exec i s = permOut s et vd srcs pm fun j => some (f j)) (hfree : NoStreams s (vd :: srcs))
    (hg : ∀ j, f j % 2 ^ et.bits = g j % 2 ^ et.bits) : GivesLanes i s et.bits vd (laneOn s pm) g :=
  permOut_gives hexec hfree (fun j _ => by simp) fun j v hv => by
    cases hv
    exact hg j

/-- The registers and the draw count of a thread after an instruction that draws. -/
theorem retired_countDraw (s : State) (w : Nat) (vd : BitVec 4) (is : List Nat) (f : Nat → Nat) :
    Retired s ((s.setMe (s.me.wElems w vd is (is.map f))).countDraw).retire
      { s.me.wElems w vd is (is.map f) with dn := s.me.dn + 1 } := by
  have hcount : (s.setMe (s.me.wElems w vd is (is.map f))).countDraw = s.setMe { s.me.wElems w vd is (is.map f) with dn := s.me.dn + 1 } := by
    rw [State.countDraw, State.me_setMe]
    exact State.setMe_setMe s _ _
  rw [hcount]
  exact State.retire_retired s _ rfl rfl rfl rfl rfl rfl rfl rfl rfl

/-- An instruction that draws for elements of a register. -/
theorem drawn_of {i : Instr} {s : State} {w : Nat} {vd : BitVec 4} {on : Nat → Bool} {f g : Nat → Nat} {is : List Nat}
    (hexec : exec i s = .next ((s.setMe (s.me.wElems w vd is (is.map f))).countDraw).retire)
    (hon : ∀ j, j < 512 / w → (j ∈ is ↔ on j = true)) (hg : ∀ j, f j % 2 ^ w = g j % 2 ^ w) : Ends i s fun t =>
      (∀ r : BitVec 4, r ≠ vd → t.me.rv r = s.me.rv r) ∧
      (∀ j, j < 512 / w → elem (t.me.rv vd) w j = if on j then g j % 2 ^ w else elem (s.me.rv vd) w j) ∧
      ∃ v : Vector VReg 16, Retired s t { s.me with v := v, dn := s.me.dn + 1 } := by
  have hret := retired_countDraw s w vd is f
  have hrv (r : BitVec 4) : ((s.setMe (s.me.wElems w vd is (is.map f))).countDraw).retire.me.rv r =
      (s.me.wElems w vd is (is.map f)).rv r := by rw [hret.me]; rfl
  refine ⟨_, hexec, fun r hr => ?_, fun j hj => ?_, _, hret⟩
  · rw [hrv, Thread.wElems, Thread.rv_wv, if_neg hr]
  · rw [hrv, Thread.elem_wElems s.me w vd is f hj, hg]
    simp only [hon j hj]

theorem mem_actives_iff {s : State} {c j : Nat} {pm : Bool} : j ∈ s.me.actives c pm ↔ (decide (j < c) && laneOn s pm j) = true := by
  rw [Thread.mem_actives]
  cases pm <;> simp [laneOn]

theorem mem_actives_all {s : State} {c j : Nat} {pm : Bool} (hj : j < c) : j ∈ s.me.actives c pm ↔ laneOn s pm j = true := by
  rw [mem_actives_iff, decide_eq_true hj, Bool.true_and]

/-- A draw into a register. -/
theorem randOut_draws {i : Instr} {s : State} {vd : BitVec 4} {pm : Bool} {f : Nat → Nat → Nat} {g : Nat → Nat}
    (hexec : exec i s = randOut s vd pm f) (hvd : s.me.bound vd = false) (hg : ∀ j, f 0 j % 2 ^ 32 = g j % 2 ^ 32) :
    Ends i s fun t => (∀ r : BitVec 4, r ≠ vd → t.me.rv r = s.me.rv r) ∧
      (∀ j, j < 512 / 32 → elem (t.me.rv vd) 32 j = if laneOn s pm j then g j % 2 ^ 32 else elem (s.me.rv vd) 32 j) ∧
      ∃ v : Vector VReg 16, Retired s t { s.me with v := v, dn := s.me.dn + 1 } := by
  have hnone : s.me.streamOf vd = none := by simpa [Thread.bound] using hvd
  refine drawn_of (is := s.me.actives 16 pm) (f := f 0) ?_ (fun j hj => mem_actives_all hj) hg
  rw [hexec, randOut, hnone]

/-- A conversion between registers (R351). -/
theorem exec_vcvt_registers {s : State} {et : EType} {src vd vs2 : BitVec 4} {rm : BitVec 3} {pm : Bool}
    (hfree : NoStreams s [vd, vs2]) (hsrc : src.toNat ≤ 10) : exec (.vcvt et src vd vs2 rm pm) s =
      .next (cvtFin rm (s.setMe (s.me.wElems et.bits vd (s.me.actives (512 / max (typeBits src.toNat) et.bits) pm)
        ((s.me.actives (512 / max (typeBits src.toNat) et.bits) pm).map fun j => toCode et.code.toNat (s.cvtMode rm 0 j)
          (codeVal src.toNat (elem (s.me.rv vs2) (typeBits src.toNat) j)))))).retire := by
  have hvd : s.me.bound vd = false := hfree _ (by simp)
  have hvs2 : s.me.bound vs2 = false := hfree _ (by simp)
  show execVcvt et src vd vs2 rm pm s = _
  rw [execVcvt, hvd, hvs2, if_neg (by decide), cvtReg, if_neg (by omega)]

theorem modeOf_plain {c : Nat} (h : c ≠ 4) (sr : Nat) : modeOf c sr = modeOf c 0 := by
  unfold modeOf
  split
  case h_4 => exact absurd rfl h
  all_goals rfl

/-- The fields of the lattice operand (R353). -/
theorem lattice_bits {x i0 q jd : Nat} {shift : Bool} (hi : i0 < 2 ^ 32) (hq : q ≤ 32) (hj : jd < 8)
    (hx : x = i0 + q * 2 ^ 32 + jd * 2 ^ 40 + (if shift then 2 ^ 48 else 0)) :
    x % 2 ^ 32 = i0 ∧ bitsN x 37 32 = q ∧ bitsN x 39 38 = 0 ∧ bitsN x 42 40 = jd ∧ bitsN x 47 43 = 0 ∧
      (bitsN x 48 48 == 1) = shift ∧ bitsN x 63 49 = 0 := by
  subst hx
  simp only [bitsN, Nat.shiftRight_eq_div_pow]
  cases shift
  · simp only [Bool.false_eq_true, if_false]
    refine ⟨by omega, by omega, by omega, by omega, by omega, ?_, by omega⟩
    rw [beq_eq_false_iff_ne]
    omega
  · simp only [if_true]
    refine ⟨by omega, by omega, by omega, by omega, by omega, ?_, by omega⟩
    rw [beq_iff_eq]
    omega

/-- VRAND's lattice form with an operand that is in order (R353). -/
theorem execVrandLat_of_fields {s : State} {vd xs : BitVec 4} {pm : Bool} {i0 q jd a : Nat} {shift : Bool} (hi : i0 < 2 ^ 32)
    (hq : q ≤ 32) (hj : jd < 8) (ha : a < 2 ^ q)
    (hx : s.rx (xs.setWidth 5) = BitVec.ofNat 64 (i0 + q * 2 ^ 32 + jd * 2 ^ 40 + (if shift then 2 ^ 48 else 0)))
    (hx1 : s.rx ((xs + 1).setWidth 5) = BitVec.ofNat 64 a) : exec (.vrandLat vd xs pm) s =
      randOut s vd pm fun b e => lattice (s.tile s.site).srseed ((i0 + 16 * b + e) % 2 ^ 32) q jd a shift := by
  have hpow : 2 ^ q ≤ 2 ^ 32 := Nat.pow_le_pow_right Nat.two_pos hq
  have hxn : (s.rx (lowReg xs)).toNat = i0 + q * 2 ^ 32 + jd * 2 ^ 40 + (if shift then 2 ^ 48 else 0) := by
    rw [lowReg, hx, BitVec.toNat_ofNat]
    exact Nat.mod_eq_of_lt (by cases shift <;> simp <;> omega)
  have han : (s.rx (lowReg (xs + 1))).toNat = a := by
    rw [lowReg, hx1, BitVec.toNat_ofNat]
    exact Nat.mod_eq_of_lt (by omega)
  obtain ⟨hlow, hq', h39, hj', h47, hshift, h63⟩ := lattice_bits hi hq hj hxn
  show execVrandLat vd xs pm s = _
  simp only [execVrandLat, han, hlow, hq', h39, hj', h47, hshift, h63]
  rw [if_neg]
  simp only [ne_eq, not_true_eq_false, decide_false, Bool.or_self, Nat.not_lt.mpr hq, Nat.not_le.mpr ha,
    Bool.false_eq_true, not_false_eq_true]

/-- The moves, permutes and conversions that draw nothing. -/
theorem vectorMoves (s : State) (et : EType) (vd vs2 vs1 xs xi : BitVec 4) (nat odd pm : Bool)
    (hfree : NoStreams s [vd, vs2, vs1]) :
    let w := et.bits
    let c := 512 / w
    let a (j : Nat) : Nat := elem (s.me.rv vs2) w j
    let b (j : Nat) : Nat := elem (s.me.rv vs1) w j
    let n := (s.rx (xs.setWidth 5)).toNat
    let o := if odd then 1 else 0
    let lanes (f : Nat → Nat) (p : Instr) : Prop := GivesLanes p s w vd (laneOn s pm) f
    GivesLanes (.vmvx et vd xs xi) s w vd (fun j => j == (s.rx (xi.setWidth 5)).toNat % c) (fun _ => n) ∧
    Gives (.vmvxGet et nat xi vs2 xs) s (xi.setWidth 5) (if nat then BitVec.ofNat 64 (a (n % c)) else sext w (a (n % c))) ∧
    lanes (fun j => a (b j % c)) (.vperm et vd vs2 vs1 pm) ∧
    GivesLanes (.vslideup et vd vs2 xs pm) s w vd (fun j => decide (n ≤ j) && laneOn s pm j) (fun j => a (j - n)) ∧
    lanes (fun j => if j + n < c then a (j + n) else 0) (.vslidedn et vd vs2 xs pm) ∧
    lanes (fun j => if j % 2 = 0 then a (j / 2) else b ((j - 1) / 2)) (.vzip et vd vs2 vs1 pm) ∧
    lanes (fun j => if j < c / 2 then a (2 * j + o) else b (2 * (j - c / 2) + o)) (.vunzip et odd vd vs2 vs1 pm) ∧
    lanes (fun _ => n) (.vbcast et vd xs pm) := by
  intro w c a b n o lanes
  obtain ⟨hvd, hvs2, hvs1, -⟩ : s.me.bound vd = false ∧ s.me.bound vs2 = false ∧ s.me.bound vs1 = false ∧ NoStreams s [] := by
    simpa only [noStreams_cons] using hfree
  have hnil : NoStreams s [] := fun _ h => absurd h List.not_mem_nil
  have hone : NoStreams s [vd] := noStreams_cons.mpr ⟨hvd, hnil⟩
  have htwo : NoStreams s [vd, vs2] := noStreams_cons.mpr ⟨hvd, noStreams_cons.mpr ⟨hvs2, hnil⟩⟩
  refine ⟨?_, ?_, permOut_lanes (rfl : _ = execVperm et vd vs2 vs1 pm s) hfree fun _ => rfl, ?_,
    permOut_lanes (rfl : _ = execVslidedn et vd vs2 xs pm s) htwo fun _ => rfl,
    permOut_lanes (rfl : _ = execVzip et vd vs2 vs1 pm s) hfree fun j => ?_,
    permOut_lanes (rfl : _ = execVunzip et odd vd vs2 vs1 pm s) hfree fun _ => rfl,
    permOut_lanes (rfl : _ = execVbcast et vd xs pm s) hone fun _ => Nat.mod_mod _ _⟩
  · have hgives : GivesLanes (.vmvx et vd xs xi) s w vd (fun j => j == (s.rx (xi.setWidth 5)).toNat % c) (fun _ => n % 2 ^ w) := by
      refine GivesLanes.of_wElems (is := [(s.rx (xi.setWidth 5)).toNat % c]) ?_ fun j _ => ?_
      · show execVmvx et vd xs xi s = _
        rw [execVmvx, hvd]
        rfl
      · rw [List.mem_singleton, beq_iff_eq]
    simpa only [GivesLanes, Nat.mod_mod] using hgives
  · refine Gives.of_writeReg ?_
    show execVmvxGet et nat xi vs2 xs s = _
    have hzext : zext w (a (n % c)) = BitVec.ofNat 64 (a (n % c)) := congrArg (BitVec.ofNat 64) (elem_mod _ _ _)
    rw [execVmvxGet, hvs2, if_neg Bool.false_ne_true, ← hzext]
    rfl
  · refine permOut_gives (rfl : _ = execVslideup et vd vs2 xs pm s) htwo (fun j _ => ?_) fun j v hv => ?_
    · by_cases hn : n ≤ j
      · rw [show lowReg xs = xs.setWidth 5 from rfl, if_pos hn, decide_eq_true hn]
        rfl
      · rw [show lowReg xs = xs.setWidth 5 from rfl, if_neg hn, decide_eq_false hn]
        rfl
    · by_cases hn : n ≤ j
      · rw [show lowReg xs = xs.setWidth 5 from rfl, if_pos hn] at hv
        cases hv
        rfl
      · rw [show lowReg xs = xs.setWidth 5 from rfl, if_neg hn] at hv
        cases hv
  · by_cases h2 : j % 2 = 0
    · rw [if_pos h2, if_pos h2]
    · rw [if_neg h2, if_neg h2, show (j - 1) / 2 = j / 2 by omega]

/-- Settles O35. -/
theorem vectorMoveRandomResults : Obligations.VectorMoveRandomResults := by
  refine ⟨fun s et vd vs2 vs1 xs xi src rm nat odd pm => ?_, fun s et vd vs2 xs src rm pm i0 q jd a shift => ?_⟩
  · intro w c x a b n i o lanes hfree
    have htwo : NoStreams s [vd, vs2] := fun k hk => hfree k (List.mem_append_left [vs1] hk)
    obtain ⟨h1, h2, h3, h4, h5, h6, h7, h8⟩ := vectorMoves s et vd vs2 vs1 xs xi nat odd pm hfree
    refine ⟨h1, h2, h3, h4, h5, h6, h7, h8, fun hsrc hrm => GivesLanes.of_wElems (is := s.me.actives _ pm)
      ((exec_vcvt_registers htwo hsrc).trans ?_) fun j _ => mem_actives_iff⟩
    have hfin (v : State) (hv : v.me.rmCode rm = s.me.rmCode rm) : cvtFin rm v = v := by rw [cvtFin, hv, if_neg hrm]
    simp only [State.cvtMode, modeOf_plain hrm]
    rw [hfin _ (by rw [State.me_setMe]; rfl)]
  · intro drawn hfree
    have hvd : s.me.bound vd = false := hfree _ (by simp)
    refine ⟨randOut_draws (rfl : _ = execVrand vd pm s) hvd fun j => Nat.mod_mod _ _, fun hi hq hj ha hx hx1 => ?_, fun hsrc hrm => ?_⟩
    · refine randOut_draws (execVrandLat_of_fields hi hq hj ha hx hx1) hvd fun j => ?_
      rw [Nat.mul_zero, Nat.add_zero]
    · refine drawn_of (is := s.me.actives _ pm) ((exec_vcvt_registers hfree hsrc).trans ?_) (fun j _ => mem_actives_iff) fun j => rfl
      have hfin (v : State) (hv : v.me.rmCode rm = s.me.rmCode rm) : cvtFin rm v = v.countDraw := by rw [cvtFin, hv, if_pos hrm]
      simp only [State.cvtMode, hrm]
      rw [hfin _ (by rw [State.me_setMe]; rfl)]
      rfl

end Sys2Proof.Machine
end

section
/-!
PROOFS. Vector loads and stores, and streams (spec/17_vector.md R337-R342).
-/

namespace Sys2Proof.Machine

/-! ### A vector load of a translated address that lies in no window but is among the tile's locations (O31) -/

/-- A tile whose usable bonded block is set to reach past the local window, and whose protection entry 0 lets reads through there. -/
def overfullTile : Tile :=
  { Tile.init with usable := 2 ^ 29, lpt := vset (Vector.replicate 16 0) 0 (BitVec.ofNat 64 (2 ^ 63 + 2 ^ 56 + 60)) }

/-- Thread 0 of that tile loads the translated address 2^48 with VL at 1, while a store of its own is on its way to the location that
the block would have there. -/
def overfullState : State :=
  { State.reset with
    tiles := [(0, overfullTile)]
    threads := [(0, { Thread.init with vl := 1, x := vset (Vector.replicate 32 0) 1 (BitVec.ofNat 64 (2 ^ 48)) })]
    net := [State.reset.item 0 0 false (.site 0) (.store (kBonded 0 + (2 ^ 48 - Config.bondedLocal)) [0] false)] }

/-- Whether a step leaves the current thread waiting for an instruction to be issued again. -/
def retries : Out → Bool
  | .next t => t.me.status == .blocked .retry
  | _ => false

theorem overfull_retries : retries (exec (.vld .i32 0 1 false) overfullState) = true := by decide +kernel

/-- Refutes O31: the load of a translated address waits for a store of the thread to the location that its tile's own block would have
at that address, where the number of usable bytes puts the address into the block; it does not ask the home. -/
theorem not_vectorMemoryResults : ¬ Obligations.VectorMemoryResults := by
  intro h
  obtain ⟨hload, -⟩ := h
  have hfree : NoStreams overfullState [0] := List.forall_mem_singleton.mpr (by decide +kernel)
  obtain ⟨hvld, -⟩ := hload overfullState .i32 0 1 0 false (fun _ => 0) { value := 0, data := [] } hfree
  obtain ⟨-, hfar⟩ := hvld fun _ => by decide +kernel
  obtain ⟨hasks, -⟩ := hfar (by decide +kernel) (by decide +kernel)
  obtain ⟨t, ht, ⟨hstatus, -⟩, -⟩ := hasks (by decide +kernel)
  have hretries := overfull_retries
  rw [ht, retries, hstatus] at hretries
  exact absurd hretries (by decide)

/-! ### Binding streams (O36) -/

theorem vset_eq_set {α : Type} {n : Nat} (v : Vector α n) {i : Nat} (h : i < n) (a : α) : vset v i a = v.set i a h := dif_pos h

theorem vget_eq_getElem {α : Type} {n : Nat} (d : α) (v : Vector α n) {i : Nat} (h : i < n) : vget d v i = v[i] := dif_pos h

/-- STRCFG of a descriptor that is in order (R338). -/
theorem exec_strcfg {s : State} {st : BitVec 2} {xs : BitVec 4} {k : Nat} {x : Stream} (ha : (s.rx (xs.setWidth 5)).toNat % 32 = 0)
    (hl : LocalAt s .read (s.rx (xs.setWidth 5)).toNat 32 k)
    (hx : streamDesc (s.num k 8) (s.num (k + 8) 8) (s.num (k + 16) 8) (s.num (k + 24) 8) = .ok x) :
    exec (.strcfg st xs) s = .next (s.setMe (s.me.setStream st.toNat (some x))).retire := by
  show execStrcfg st xs s = _
  have hpend := hl.2.2
  simp only [execStrcfg, lowReg, ha, ne_eq, not_true_eq_false, if_false, windowKey_local hl, hpend, Bool.false_eq_true, hx]

theorem retired_setStream (s : State) (st : BitVec 2) (x : Option Stream) :
    Retired s (s.setMe (s.me.setStream st.toNat x)).retire { s.me with streams := s.me.streams.set st.toNat x } := by
  rw [Thread.setStream, vset_eq_set _ st.isLt]
  exact State.retire_retired s _ rfl rfl rfl rfl rfl rfl rfl rfl rfl

/-! ### Rows of an instruction that names a stream (O36) -/

/-- The rows of a thread have no part in which streams its fields name. -/
theorem rowsThen_none {s : State} (k : List (List Byte) → State → Out) (hbeat : s.me.beat = 0) (hresp : s.me.resp = none) :
    rowsThen s [] k = k [] (s.keepRows []) := by
  simp [rowsThen, hbeat, hresp, State.rowBytes]

/-- The row of a stream that lies in the own memory is read at once (R340). -/
theorem rowsThen_local {s : State} {p : Int × Nat} {q : Nat} (k : List (List Byte) → State → Out) (hbeat : s.me.beat = 0)
    (hresp : s.me.resp = none) (hlen : p.2 ≠ 0) (hok : rowOk p = true) (hlocal : rowLocal p = true) (hkey : s.rowKey .read p = some q)
    (hpend : s.pendingLocal s.cur q p.2 = false) :
    rowsThen s [p] k = k [s.bytes q p.2] (s.keepRows [s.bytes q p.2]) := by
  simp [rowsThen, hbeat, hresp, hlen, hok, hlocal, hkey, hpend, State.rowBytes]

/-- The address of a row that lies in the local window. -/
structure LocalRow (x : Stream) (row : Nat) : Prop where
  typ   : x.typ = 3
  addr  : (x.base : Int) + (x.row : Int) * x.stride = row
  below : row + 4 * x.nelem ≤ 2 ^ 48
  some  : 1 ≤ x.nelem

theorem localRow {x : Stream} (ht : x.typ = 3) (hs : 0 ≤ x.stride) (hn : 1 ≤ x.nelem)
    (hb : x.base + x.row * x.stride.toNat + 4 * x.nelem ≤ 2 ^ 48) : LocalRow x (x.base + x.row * x.stride.toNat) :=
  ⟨ht, by push_cast; rw [Int.toNat_of_nonneg hs], hb, hn⟩

section
variable {x : Stream} {row : Nat} (h : LocalRow x row)
include h

theorem LocalRow.rowAt : x.rowAt x.row = [((row : Int), 4 * x.nelem)] := by
  have hlen : x.nelem * 32 / 8 = 4 * x.nelem := by omega
  simp [Stream.rowAt, h.typ, typeBits, h.addr, hlen]

theorem LocalRow.segs : segOf row = 0 ∧ segOf (row + 4 * x.nelem - 1) = 0 := by
  have hb := h.below
  have hs := h.some
  simp only [segOf, bitsN, Nat.shiftRight_eq_div_pow]
  rw [Nat.div_eq_of_lt (by omega), Nat.div_eq_of_lt (by omega)]
  exact ⟨rfl, rfl⟩

theorem LocalRow.rowLocal : Machine.rowLocal ((row : Int), 4 * x.nelem) = true := by
  simp [Machine.rowLocal, h.segs.1]

theorem LocalRow.rowOk : Machine.rowOk ((row : Int), 4 * x.nelem) = true := by
  have hb := h.below
  have hs := h.some
  obtain ⟨hfirst, hlast⟩ := h.segs
  have hroute : routeOf row = .localWin := routeOf_local (by omega)
  simp [Machine.rowOk, hfirst, hlast, hroute]
  omega

theorem LocalRow.typeOk : x.typeOk .f32 none = true := by simp [Stream.typeOk, h.typ, EType.code]

end

/-! ### An element-wise instruction that reads a row, and one that writes one (O36) -/

theorem beats_one {n : Nat} (h1 : 1 ≤ n) (h16 : n ≤ 16) : ceilDiv n 16 = 1 := by
  rw [ceilDiv]
  omega

theorem bound_eq (t : Thread) (n : BitVec 4) : t.bound n = (t.streamOf n).isSome := rfl

/-- The elements of a row of 32-bit numbers. -/
theorem at0_rowElems (s : State) (k n : Nat) {j : Nat} (hj : j < n) : at0 (rowElems 32 (s.bytes k (4 * n))) j = s.num (k + 4 * j) 4 := by
  have hlen : (s.bytes k (4 * n)).length = 4 * n := Memory.readN_length _ _ _
  have hpiece : ((s.bytes k (4 * n)).drop (j * 4)).take 4 = s.bytes (k + 4 * j) 4 := by
    have hsplit : 4 * n = 4 * j + (4 + 4 * (n - j - 1)) := by omega
    rw [State.bytes, hsplit, readN_add, readN_add, List.drop_left' (by rw [Memory.readN_length]; omega),
      List.take_left' (Memory.readN_length _ _ _)]
    rfl
  simp only [at0, rowElems, hlen]
  rw [List.getElem?_map, List.getElem?_range (by omega)]
  simp only [Option.map_some, Option.getD_some]
  rw [show (32 / 8 : Nat) = 4 from rfl, hpiece]
  rfl

theorem at0_flatMap_one (l : List Nat) (j : Nat) : at0 ((List.range 1).flatMap fun _ => l) j = at0 l j := by
  rw [List.range_one, List.flatMap_singleton]

/-- The only beat of an instruction that writes a register. -/
theorem streamEnd_register (s : State) (fs : List (BitVec 4)) (hfs : fs ≠ []) (vd : BitVec 4) (v : VReg) (hbeat : s.me.beat = 0) :
    streamEnd s fs vd 1 (fun _ => []) (some v) id =
      .next (s.setMe { (fs.foldl Thread.advance s.me).wv vd v with beat := 0, rows := [] }).retire := by
  simp [streamEnd, List.isEmpty_iff, hfs, hbeat, State.listWaits, State.storeList, Thread.wres]

/-- The elements of a register after the only beat of an instruction. -/
theorem foldl_oneBeat {n : Nat} (h1 : 1 ≤ n) (h16 : n ≤ 16) (act : Nat → Nat → Bool) (g : Nat → Nat → Nat → Nat) (v : VReg) :
    (beatsOf n 16).foldl (fun d b => foldBeat 16 (act b) (g b) d) (elems v 32) =
      (List.range 16).map fun j => if act 0 j then g 0 j (elem v 32 j) else elem v 32 j := by
  rw [beatsOf, beats_one h1 h16, List.range_one, List.foldl_cons, List.foldl_nil, foldBeat]
  refine List.map_congr_left fun j hj => ?_
  rw [getElem_elems _ _ (show j < 512 / 32 from List.mem_range.mp hj)]

/-- What a state in which the thread has kept its rows has of the state before. -/
structure KeptRows (s u : State) : Prop where
  streams : ∀ n, u.me.streamOf n = s.me.streamOf n
  regs    : ∀ n, u.me.rv n = s.me.rv n
  beat    : u.me.beat = s.me.beat

theorem kept_keepRows (s : State) (rows : List (List Byte)) : KeptRows s (s.keepRows rows) := by
  constructor <;> intros <;> rw [State.keepRows, State.me_setMe] <;> rfl

section
variable {s : State} {x : Stream} {row k d0 : Nat} {vd vs2 vs1 : BitVec 4} {f : Nat → Nat → Nat → Nat → Nat → Nat}
  (hbeat : s.me.beat = 0) (hresp : s.me.resp = none) (hrow : x.row < x.nrows) (h : LocalRow x row) (h16 : x.nelem ≤ 16)
  (h1 : s.me.streamOf vs1 = none)
include hbeat hresp hrow h h16 h1

/-- An element-wise instruction on the current row of a read stream. -/
theorem laneOut_reads (h2 : s.me.streamOf vs2 = some x) (hd : s.me.streamOf vd = none) (hw : x.write = false)
    (hl : LocalAt s .read row (4 * x.nelem) k) :
    laneOut s .f32 vd vs2 (.vec vs1) false none d0 f id =
      .next (s.setMe { (s.me.advance vs2).wv vd (pack 32 ((List.range 16).map fun j =>
        if j < x.nelem then f 0 j (s.num (k + 4 * j) 4) (elem (s.me.rv vs1) 32 j) (elem (s.me.rv vd) 32 j) else elem (s.me.rv vd) 32 j))
        with beat := 0, rows := [] }).retire := by
  have hfields : ((vs2 :: (Src1.vec vs1).field.toList) ++ [vd]).filter s.me.bound = [vs2] := by
    simp [Src1.field, bound_eq, h2, h1, hd]
  have hok : s.me.streamsOk .f32 none (vs2 :: (Src1.vec vs1).field.toList) (some vd) = true := by
    simp [Thread.streamsOk, Src1.field, bound_eq, h2, h1, hd, Stream.readable, hw, hrow, h.typeOk]
  have hlen : s.me.rowLen [vs2] = some x.nelem := by simp [Thread.rowLen, h2]
  have hrows : s.me.srcRows (vs2 :: (Src1.vec vs1).field.toList) = [((row : Int), 4 * x.nelem)] := by
    simp [Thread.srcRows, Src1.field, h2, h1, h.rowAt]
  have hkey : s.rowKey .read ((row : Int), 4 * x.nelem) = some k := by
    simp [State.rowKey, h.rowOk, hl.2.1]
  have hn := h.some
  have hthen (K : List (List Byte) → State → Out) : rowsThen s [((row : Int), 4 * x.nelem)] K =
      K [s.bytes k (4 * x.nelem)] (s.keepRows [s.bytes k (4 * x.nelem)]) :=
    rowsThen_local K hbeat hresp (by dsimp only; omega) h.rowOk h.rowLocal hkey hl.2.2
  have hbits : EType.f32.bits = 32 := rfl
  have hcount : EType.f32.count = 16 := rfl
  have hkept := kept_keepRows s [s.bytes k (4 * x.nelem)]
  rw [laneOut]
  simp only [hfields, hok, hlen, hrows, hthen, List.isEmpty_cons, Bool.false_eq_true, if_false, Bool.not_true, Option.getD_some,
    hbits, hcount, beats_one hn h16]
  generalize hu : s.keepRows [s.bytes k (4 * x.nelem)] = u at hkept ⊢
  have hsrcs : u.me.srcElems 32 16 x.nelem (vs2 :: (Src1.vec vs1).field.toList) [s.bytes k (4 * x.nelem)] =
      [rowElems 32 (s.bytes k (4 * x.nelem)), (List.range 1).flatMap fun _ => elems (s.me.rv vs1) 32] := by
    simp [Thread.srcElems, Src1.field, bound_eq, hkept.streams, hkept.regs, h2, h1, beats_one hn h16]
  have hdest : u.me.streamOf vd = none := (hkept.streams vd).trans hd
  simp only [hsrcs, hdest, List.head?_cons, List.tail_cons, Option.getD_some, Bool.not_false, Bool.true_or, Bool.and_true, at0_flatMap_one]
  rw [streamEnd_register _ _ (List.cons_ne_nil _ _) _ _ (hkept.beat.trans hbeat), hkept.regs vd, foldl_oneBeat hn h16, ← hu]
  have hlane : ∀ j ∈ List.range 16, (if decide (0 * 16 + j < x.nelem) = true then
        f 0 j (at0 (rowElems 32 (s.bytes k (4 * x.nelem))) (0 * 16 + j)) (at0 (elems (s.me.rv vs1) 32) (0 * 16 + j)) (elem (s.me.rv vd) 32 j)
      else elem (s.me.rv vd) 32 j) =
      if j < x.nelem then f 0 j (s.num (k + 4 * j) 4) (elem (s.me.rv vs1) 32 j) (elem (s.me.rv vd) 32 j) else elem (s.me.rv vd) 32 j := by
    intro j hj
    rw [Nat.zero_mul, Nat.zero_add, getElem_elems _ _ (show j < 512 / 32 from List.mem_range.mp hj)]
    simp only [decide_eq_true_eq]
    split
    · next hlt => rw [at0_rowElems s k x.nelem hlt]
    · rfl
  rw [List.map_congr_left hlane, State.keepRows, State.me_setMe, State.setMe_setMe, List.foldl_cons, List.foldl_nil]
  have hadvance (rows : List (List Byte)) : ({ s.me with rows := rows } : Thread).advance vs2 = { s.me.advance vs2 with rows := rows } := by
    have h2' : ({ s.me with rows := rows } : Thread).streamOf vs2 = some x := h2
    rw [Thread.advance, Thread.advance, h2', h2]
    rfl
  rw [hadvance]
  rfl

/-- An element-wise instruction whose destination is a write stream stores the stream's current row. -/
theorem laneOut_writes (h2 : s.me.streamOf vs2 = none) (hd : s.me.streamOf vd = some x) (hw : x.write = true)
    (hkey : (s.localKey s.site row (4 * x.nelem)).isSome = true) :
    laneOut s .f32 vd vs2 (.vec vs1) false none d0 f id =
      streamEnd (s.keepRows []) [vd] vd 1
        (fun b => x.beatStores 32 16 b (fun _ => true) fun j => f b j (at0 ((List.range 1).flatMap fun _ => elems (s.me.rv vs2) 32) (b * 16 + j))
          (at0 ((List.range 1).flatMap fun _ => elems (s.me.rv vs1) 32) (b * 16 + j)) d0) none id := by
  have hfields : ((vs2 :: (Src1.vec vs1).field.toList) ++ [vd]).filter s.me.bound = [vd] := by
    simp [Src1.field, bound_eq, h2, h1, hd]
  have hok : s.me.streamsOk .f32 none (vs2 :: (Src1.vec vs1).field.toList) (some vd) = true := by
    simp [Thread.streamsOk, Src1.field, bound_eq, h2, h1, hd, Stream.writable, hw, hrow, h.typeOk]
  have hlen : s.me.rowLen [vd] = some x.nelem := by simp [Thread.rowLen, hd]
  have hrows : s.me.srcRows (vs2 :: (Src1.vec vs1).field.toList) = [] := by
    simp [Thread.srcRows, Src1.field, h2, h1]
  have hn := h.some
  have hthen (K : List (List Byte) → State → Out) : rowsThen s [] K = K [] (s.keepRows []) := rowsThen_none K hbeat hresp
  have hbits : EType.f32.bits = 32 := rfl
  have hcount : EType.f32.count = 16 := rfl
  have hkept := kept_keepRows s []
  have hrowOk : (s.keepRows []).writeRowOk x = true := by
    have hlocal : (s.keepRows []).localKey (s.keepRows []).site row (4 * x.nelem) = s.localKey s.site row (4 * x.nelem) := rfl
    simp [State.writeRowOk, h.rowAt, h.rowOk, hlocal, hkey]
  rw [laneOut]
  simp only [hfields, hok, hlen, hrows, hthen, List.isEmpty_cons, Bool.false_eq_true, if_false, Bool.not_true, Option.getD_some,
    hbits, hcount, beats_one hn h16]
  generalize s.keepRows [] = u at hkept hrowOk ⊢
  have hsrcs : u.me.srcElems 32 16 x.nelem (vs2 :: (Src1.vec vs1).field.toList) [] =
      [(List.range 1).flatMap fun _ => elems (s.me.rv vs2) 32, (List.range 1).flatMap fun _ => elems (s.me.rv vs1) 32] := by
    simp [Thread.srcElems, Src1.field, bound_eq, hkept.streams, hkept.regs, h2, h1, beats_one hn h16]
  have hdest : u.me.streamOf vd = some x := (hkept.streams vd).trans hd
  simp only [hsrcs, hdest, hrowOk, List.head?_cons, List.tail_cons, Option.getD_some, Bool.not_false, Bool.true_or, Bool.not_true,
    Bool.false_eq_true, if_false]

end

/-- The stores of a row of one beat. -/
theorem beatStores_oneBeat {x : Stream} {row : Nat} (h : LocalRow x row) (h16 : x.nelem ≤ 16) (val : Nat → Nat) :
    x.beatStores 32 16 0 (fun _ => true) val = (List.range x.nelem).map fun j => (row + 4 * j, bytesOf 4 (val j)) := by
  have hrange : ∀ n ≤ 16, (List.range 16).filter (fun j => decide (0 * 16 + j < n) && true) = List.range n := by decide
  rw [Stream.beatStores, hrange _ h16, h.addr]
  refine List.map_congr_left fun j _ => ?_
  rw [Int.toNat_natCast, elemBytes]
  simp only [Nat.zero_mul, Nat.zero_add, show (32 / 8 : Nat) = 4 from rfl, Nat.mul_comm j 4]

/-- Stores of a list, one after the other, at the locations of their addresses. -/
def storesMem (key : Nat → Nat) (m : List Host.Cell) (l : List (Nat × List Byte)) : List Host.Cell :=
  l.foldl (fun m e => Memory.writeN m (key e.1) e.2) m

/-- No access of the thread is under way, so none is to any bytes. -/
theorem noPending {s : State} (h : ∀ i ∈ s.net, i.src = s.cur → i.access = false) (k n : Nat) :
    s.pendingLocal s.cur k n = false ∧ s.pendingFar s.cur k n = false := by
  have hitem : ∀ i ∈ s.net, i.src = s.cur → i.storesAt k n = false ∧ s.farStore k n i = false := by
    intro i hi hsrc
    have hacc := h i hi hsrc
    rw [Item.access] at hacc
    split at hacc
    · cases hacc
    · cases hacc
    · cases hacc
    · next hstore _ _ =>
      constructor
      · rw [Item.storesAt]
        split
        · next hb => exact absurd hb (hstore _ _ _)
        · rfl
      · rw [State.farStore]
        split
        · rfl
        · next hb _ => exact absurd hb (hstore _ _ _)
        · rfl
  constructor
  · rw [State.pendingLocal, List.any_eq_false]
    intro i hi
    by_cases hsrc : i.src = s.cur
    · obtain ⟨h1, h2⟩ := hitem i hi hsrc
      simp [h1, h2]
    · simp [hsrc]
  · rw [State.pendingFar, List.any_eq_false]
    intro i hi
    by_cases hsrc : i.src = s.cur
    · simp [(hitem i hi hsrc).2]
    · simp [hsrc]

/-- Local stores that are performed at once. -/
theorem storeList_local {key : Nat → Nat} {l : List (Nat × List Byte)} {s : State} (hnet : ∀ i ∈ s.net, i.src = s.cur → i.access = false)
    (h : ∀ e ∈ l, e.1 < 2 ^ 48 ∧ s.localAcc s.site .write e.1 e.2.length = some (key e.1) ∧ s.atHome e.1 = false) :
    ∃ dirty poison, s.storeList l = .ok { s with mem := storesMem key s.mem l, dirty := dirty, poison := poison } := by
  induction l generalizing s with
  | nil => exact ⟨_, _, rfl⟩
  | cons e l ih =>
    obtain ⟨⟨hlow, hacc, hhome⟩, hrest⟩ := List.forall_mem_cons.mp h
    have hstore : s.storeAt e.1 e.2 = .ok (s.putMem (key e.1) e.2) := by
      simp [State.storeAt, routeOf_local hlow, hacc, hhome, (noPending hnet _ _).1]
    rw [State.storeList, hstore]
    exact ih (s := s.putMem (key e.1) e.2) hnet hrest

theorem storesMem_concat (key : Nat → Nat) (m : List Host.Cell) (l : List (Nat × List Byte)) (e : Nat × List Byte) :
    storesMem key m (l ++ [e]) = Memory.writeN (storesMem key m l) (key e.1) e.2 := by
  rw [storesMem, List.foldl_append]
  rfl

theorem wf_storesMem {key : Nat → Nat} {m : List Host.Cell} (hm : Memory.wf m = true) (l : List (Nat × List Byte)) :
    Memory.wf (storesMem key m l) = true :=
  Memory.wf_foldl _ (fun _ _ hw => Memory.wf_writeN _ _ hw) l hm

/-- Memory after the stores of a row of 4-byte elements that lies at one place. -/
theorem storesMem_row {m : List Host.Cell} (hm : Memory.wf m = true) (row k : Nat) (val : Nat → Nat) (n : Nat) :
    let t := storesMem (fun a => k + (a - row)) m ((List.range n).map fun j => (row + 4 * j, bytesOf 4 (val j)))
    (∀ j < n, Memory.readN t (k + 4 * j) 4 = bytesOf 4 (val j)) ∧ ∀ b, (b < k ∨ k + 4 * n ≤ b) → Memory.read t b = Memory.read m b := by
  induction n with
  | zero => exact ⟨fun j hj => absurd hj (Nat.not_lt_zero j), fun b _ => rfl⟩
  | succ n ih =>
    obtain ⟨hin, hout⟩ := ih
    rw [List.range_succ, List.map_append, List.map_singleton, storesMem_concat]
    have hwf := wf_storesMem (key := fun a => k + (a - row)) hm ((List.range n).map fun j => (row + 4 * j, bytesOf 4 (val j)))
    have hplace : k + (row + 4 * n - row) = k + 4 * n := by omega
    simp only [hplace]
    refine ⟨fun j hj => ?_, fun b hb => ?_⟩
    · by_cases hjn : j = n
      · subst hjn
        have h := Memory.readN_writeN hwf (k + 4 * j) (bytesOf 4 (val j))
        rwa [bytesOf_length] at h
      · rw [Memory.readN_writeN_out hwf _ _ _ _ (by rw [bytesOf_length]; omega)]
        exact hin j (by omega)
    · rw [Memory.read_writeN_out hwf _ _ _ (by rw [bytesOf_length]; omega)]
      exact hout b (by omega)

/-- The thread after an instruction that moves its stream on. -/
theorem advance_eq {t : Thread} {n : BitVec 4} {st : BitVec 2} {x : Stream} (hn : n.toNat = 12 + st.toNat) (h : t.streamOf n = some x) :
    t.advance n = { t with streams := t.streams.set st.toNat (some { x with row := x.row + 1 }) } := by
  rw [Thread.advance, h]
  simp only [Thread.setStream, hn, Nat.add_sub_cancel_left, vset_eq_set _ st.isLt]

theorem streamOf_eq {t : Thread} {n : BitVec 4} {st : BitVec 2} {x : Stream} (hn : n.toNat = 12 + st.toNat)
    (h : t.streams[st.toNat]'st.isLt = some x) : t.streamOf n = some x := by
  rw [Thread.streamOf, if_pos (by omega), hn, Nat.add_sub_cancel_left, vget_eq_getElem _ _ st.isLt, h]

theorem streamOf_none {s : State} {n : BitVec 4} (h : NoStreams s [n]) : s.me.streamOf n = none := by
  simpa [bound_eq] using h n List.mem_cons_self

/-- The row of a write stream is stored, and the stream moves on. -/
theorem streamEnd_stores {s u : State} {vd : BitVec 4} {stores : Nat → List (Nat × List Byte)} (hbeat : s.me.beat = 0)
    (hwaits : s.listWaits (stores 0) = false) (hstores : s.storeList (stores 0) = .ok u) :
    streamEnd s [vd] vd 1 stores none id = .next (u.setMe { u.me.advance vd with beat := 0, rows := [] }).retire := by
  simp [streamEnd, hbeat, hwaits, hstores, Thread.wres]

theorem listWaits_none {s : State} (h : ∀ i ∈ s.net, i.src = s.cur → i.access = false) (l : List (Nat × List Byte)) :
    s.listWaits l = false := by
  rw [State.listWaits, List.any_eq_false]
  intro e _
  have hnone : ((s.localAcc s.site .write e.1 e.2.length).any fun k => s.pendingFar s.cur k e.2.length) = false := by
    cases s.localAcc s.site .write e.1 e.2.length with
    | none => rfl
    | some k => exact (noPending h k _).2
  simp [State.storeWaits, hnone]

/-- The elements of a row that is local and no orphan's lie where the row's locations do. -/
theorem rowStores_local {s : State} {x : Stream} {row k : Nat} {val : Nat → Nat}
    (hend : s.atHome (row + 4 * x.nelem - 1) = false) (hl : ∀ j < x.nelem, LocalAt s .write (row + 4 * j) 4 (k + 4 * j)) :
    ∀ e ∈ (List.range x.nelem).map fun j => (row + 4 * j, bytesOf 4 (val j)), e.1 < 2 ^ 48 ∧
      s.localAcc s.site .write e.1 e.2.length = some (k + (e.1 - row)) ∧ s.atHome e.1 = false := by
  intro e he
  obtain ⟨j, hj, rfl⟩ := List.mem_map.mp he
  obtain ⟨hlow, hacc, -⟩ := hl j (List.mem_range.mp hj)
  have hjn := List.mem_range.mp hj
  refine ⟨hlow, ?_, ?_⟩
  · dsimp only
    rw [bytesOf_length, hacc, Nat.add_sub_cancel_left]
  · rw [State.atHome, Bool.and_eq_false_iff, decide_eq_false_iff_not] at hend ⊢
    exact hend.imp_right fun h => by omega

/-- Settles O36. -/
theorem streamOperandResults : Obligations.StreamOperandResults := by
  intro s st xs vd vs2 vs1 rm k x a num row f m y z moved
  refine ⟨fun ha hl hx => ⟨_, exec_strcfg ha hl hx, retired_setStream s st _⟩, ⟨_, rfl, retired_setStream s st none⟩, ?_⟩
  intro hresp hbeat hstream htyp hrow hn h16 hstride hbelow hfree1
  have h : LocalRow x row := localRow htyp hstride hn hbelow
  have h1 := streamOf_none hfree1
  refine ⟨fun hw hfreed hl hvs2 => ?_, fun hw hfree2 hmem hhome hvd hnet hl hkey hend => ?_⟩
  · have h2 := streamOf_eq hvs2 hstream
    have hexec : exec (.vfadd .f32 vd vs2 vs1 rm false) s = fltOut s .f32 vd vs2 vs1 false fun fm a b _ => roundF fm m (addV m a b) := rfl
    rw [fltOut, laneOut_reads hbeat hresp hrow h h16 h1 h2 (streamOf_none hfreed) hw hl, advance_eq hvs2 h2] at hexec
    generalize hp : pack 32 _ = p at hexec
    have hret : Retired s (s.setMe (moved { s.me with v := vset s.me.v vd.toNat p })).retire (moved { s.me with v := vset s.me.v vd.toNat p }) :=
      State.retire_retired s _ rfl rfl rfl rfl rfl rfl rfl rfl rfl
    have hrv (r : BitVec 4) : (s.setMe (moved { s.me with v := vset s.me.v vd.toNat p })).retire.me.rv r = if r = vd then p else s.me.rv r := by
      rw [← Thread.rv_wv, hret.me]
      rfl
    refine ⟨_, hexec, fun r hr => (hrv r).trans (if_neg hr), fun j hj => ?_, _, hret⟩
    have hrvd := (hrv vd).trans (if_pos rfl)
    refine (congrArg (elem · 32 j) hrvd).trans ?_
    rw [← hp, elem_pack (by simp) (by simpa using hj)]
    simp only [List.getElem_map, List.getElem_range]
    split
    · rfl
    · exact elem_mod _ _ _
  · have hd := streamOf_eq hvd hstream
    have hexec : exec (.vfadd .f32 vd vs2 vs1 rm false) s = fltOut s .f32 vd vs2 vs1 false fun fm a b _ => roundF fm m (addV m a b) := rfl
    rw [fltOut, laneOut_writes hbeat hresp hrow h h16 h1 (streamOf_none hfree2) hd hw hkey] at hexec
    generalize hval : (fun j => roundF f m (addV m (z vs2 j) (y j))) = val
    have hlanes : ∀ j ∈ List.range x.nelem, (row + 4 * j, bytesOf 4 (roundF f m (addV m
        (decodeF f (at0 ((List.range 1).flatMap fun _ => elems (s.me.rv vs2) 32) (0 * 16 + j)))
        (decodeF f (at0 ((List.range 1).flatMap fun _ => elems (s.me.rv vs1) 32) (0 * 16 + j)))))) = (row + 4 * j, bytesOf 4 (val j)) := by
      intro j hj
      have hj' : j < 512 / 32 := (List.mem_range.mp hj).trans_le h16
      rw [at0_flatMap_one, at0_flatMap_one, Nat.zero_mul, Nat.zero_add, getElem_elems _ _ hj', getElem_elems _ _ hj', ← hval]
    obtain ⟨dirty, poison, hstores⟩ := storeList_local (s := s.keepRows []) (key := fun a => k + (a - row))
      (l := (List.range x.nelem).map fun j => (row + 4 * j, bytesOf 4 (val j))) hnet fun e he => rowStores_local (val := val) (s := s) hend hl e he
    obtain ⟨u, hstores, hthreaded, hmemory, hitems, htiles⟩ : ∃ u, (s.keepRows []).storeList
        ((List.range x.nelem).map fun j => (row + 4 * j, bytesOf 4 (val j))) = .ok u ∧ Threaded s u { s.me with rows := [] } ∧
        u.mem = storesMem (fun a => k + (a - row)) s.mem ((List.range x.nelem).map fun j => (row + 4 * j, bytesOf 4 (val j))) ∧
        u.net = s.net ∧ u.tiles = s.tiles :=
      ⟨_, hstores, Threaded.beside (u := s.keepRows []) ((Threaded.refl s).setMe (n := { s.me with rows := [] }) rfl)
        ⟨rfl, rfl, fun _ => rfl, fun _ => rfl⟩, rfl, rfl, rfl⟩
    rw [← List.map_congr_left hlanes, ← beatStores_oneBeat h h16] at hstores
    replace hexec := hexec.trans (streamEnd_stores ((kept_keepRows s []).beat.trans hbeat) (listWaits_none (s := s.keepRows []) hnet _) hstores)
    rw [hthreaded.me, advance_eq hvd (show ({ s.me with rows := [] } : Thread).streamOf vd = some x from hd)] at hexec
    obtain ⟨hin, hout⟩ := storesMem_row hmem row k val x.nelem
    rw [← hmemory] at hin hout
    exact ⟨_, hexec, fun j hj => (hin j hj).trans (congrArg (bytesOf 4) (congrFun hval j).symm), hout,
      (hthreaded.setMe (n := moved s.me) rfl).went ⟨rfl, rfl, rfl, rfl, rfl, rfl, rfl, rfl, rfl⟩, hitems, htiles⟩

end Sys2Proof.Machine
end

section
/-!
PROOFS. Power regions: throttles and their excursions, the governor, CSTEPLIM and the launch wave (spec/03_power.md R54-R57, R65).
-/

namespace Sys2Proof.Machine

/-! ### Setting a region -/

/-- The regions of a state, and nothing else, have changed to `r` at one region. -/
def OnlyRegion (s t : State) (region : Nat) (r : Region) : Prop :=
  { t with regions := s.regions } = s ∧ t.reg region = r ∧ ∀ j, j ≠ region → t.reg j = s.reg j

theorem reg_setReg_self (s : State) {region : Nat} (h : region < 16) (r : Region) : (s.setReg region r).reg region = r := by
  rw [State.reg, State.setReg, vget_vset, if_pos ⟨rfl, h⟩]

theorem reg_setReg_ne (s : State) {region j : Nat} (h : j ≠ region) (r : Region) : (s.setReg region r).reg j = s.reg j := by
  rw [State.reg, State.setReg, vget_vset, if_neg fun hj => h hj.1]
  rfl

theorem setReg_setReg (s : State) (region : Nat) (a b : Region) : (s.setReg region a).setReg region b = s.setReg region b := by
  simp only [State.setReg, vset]
  split
  · rw [Vector.set_set]
  · rfl

theorem onlyRegion_setReg (s : State) {region : Nat} (h : region < 16) (r : Region) : OnlyRegion s (s.setReg region r) region r :=
  ⟨rfl, reg_setReg_self s h r, fun _ hj => reg_setReg_ne s hj r⟩

theorem onlyRegion_refl (s : State) (region : Nat) : OnlyRegion s s region (s.reg region) := ⟨rfl, rfl, fun _ _ => rfl⟩

/-! ### Throttles (R57) -/

section
variable {s : State} {region : Nat} {c : Throttle}

theorem exec_trip (s : State) (region : Nat) (c : Throttle) : exec (match c with
    | .droop => .droopTrip region | .thermal => .thermalTrip region | .power => .powerCapTrip region) s = .next (s.trip region c) := by
  cases c <;> rfl

theorem exec_clear (s : State) (region : Nat) (c : Throttle) : exec (match c with
    | .droop => .droopClear region | .thermal => .thermalClear region | .power => .powerCapClear region) s =
      .next (s.clearCause region c) := by
  cases c <;> rfl

/-- The first cause starts the throttle, and in a reservation an excursion. -/
theorem trip_first (hr : region < 16) (h : (s.reg region).causes = []) : s.trip region c = s.setReg region { s.reg region with
    causes := [c], first := c.code, startC := (s.reg region).cycles, startT := s.refTime,
    excur := if (s.reservation region).isSome then min ((s.reg region).excur + 1) 0xFFFF else (s.reg region).excur } := by
  have hres (r : Region) : (s.setReg region r).reservation region = s.reservation region := rfl
  simp only [State.trip, h, List.contains_nil, Bool.false_eq_true, if_false, List.isEmpty_nil, if_true, hres]
  split
  · rw [State.countExcursion, reg_setReg_self s hr, setReg_setReg]
  · rfl

/-- A further cause joins the others. -/
theorem trip_more (h : (s.reg region).causes ≠ []) (hc : (s.reg region).causes.contains c = false) :
    s.trip region c = s.setReg region { s.reg region with causes := (s.reg region).causes ++ [c] } := by
  have hne : (s.reg region).causes.isEmpty = false := by simpa using h
  simp only [State.trip, hc, hne, Bool.false_eq_true, if_false]

theorem trip_again (hc : (s.reg region).causes.contains c = true) : s.trip region c = s := by
  simp only [State.trip, hc, if_true]

/-- The last cause ends the throttle. -/
theorem clear_last (h : (s.reg region).causes = [c]) : s.clearCause region c =
    match s.reservation region with
    | some p => (s.setReg region { s.reg region with causes := [] }).endExcursion p region
    | none => s.setReg region { s.reg region with causes := [] } := by
  have hres (r : Region) : (s.setReg region r).reservation region = s.reservation region := rfl
  simp only [State.clearCause, h, List.contains_cons, BEq.rfl, Bool.true_or, Bool.not_true, Bool.false_eq_true, if_false, List.erase_cons_head,
    List.length_singleton, if_true, hres] <;> rfl

theorem clear_other (hc : (s.reg region).causes.contains c = true) (h1 : (s.reg region).causes.length ≠ 1) :
    s.clearCause region c = s.setReg region { s.reg region with causes := (s.reg region).causes.erase c } := by
  simp only [State.clearCause, hc, Bool.not_true, Bool.false_eq_true, if_false, if_neg h1]

/-- The record of the excursion that ends in a region (R65). -/
def State.excursionBytes (s : State) (p region : Nat) : List Byte :=
  bytesOf 2 1 ++ bytesOf 1 region ++ bytesOf 1 (s.reg region).first ++ bytesOf 4 p ++ bytesOf 8 ((s.reg region).startC % 2 ^ 64) ++
    bytesOf 4 (min (s.refTime - (s.reg region).startT) 0xFFFFFFFF) ++
    bytesOf 4 (min ((s.refTime - (s.reg region).startT) * (s.reg region).mhz / 100 - ((s.reg region).cycles - (s.reg region).startC)) 0xFFFFFFFF) ++
    bytesOf 8 ((s.part p).excSeq + 1)

theorem excursionBytes_length (s : State) (p region : Nat) : (s.excursionBytes p region).length = 32 := by
  simp [State.excursionBytes, bytesOf_length]

/-- The end of an excursion counts it, and records it in the partition's ring. -/
theorem endExcursion_eq (s : State) (p region : Nat) : s.endExcursion p region =
    (s.setPart p { s.part p with excSeq := (s.part p).excSeq + 1 }).recordOwn p (s.excursionBytes p region) := rfl

/-- With no ring the excursion only counts. -/
theorem endExcursion_noRing {p : Nat} (h : (s.part p).ring = none) :
    s.endExcursion p region = s.setPart p { s.part p with excSeq := (s.part p).excSeq + 1 } := by
  rw [endExcursion_eq, State.recordOwn, part_setPart_self, h]

/-- A ring with room takes a record. -/
theorem recordOwn_room {p : Nat} {ring : EventRing} (b : List Byte) (h : (s.part p).ring = some ring)
    (hroom : (ring.count + 2 ^ 64 - s.num (kHost ring.base + 8) 8) % 2 ^ 64 ≠ 2 ^ ring.sizelog) :
    let at_ := 64 + 32 * (ring.count % 2 ^ ring.sizelog)
    ∃ mem dirty poison outs, s.recordOwn p b = { s with mem := mem, dirty := dirty, poison := poison, outs := outs }.setPart p
        { s.part p with ring := some { ring with count := ring.count + 1 } } ∧
      mem = Memory.writeN (Memory.writeN s.mem (kHost ring.base + at_) b) (kHost ring.base) (bytesOf 8 (ring.count + 1)) := by
  intro at_
  obtain ⟨mem₁, dirty₁, poison₁, outs₁, hwritten, hmem, -⟩ := ringWrite_room b hroom
  choose r' mem dirty poison outs _ hwrite using ringWrite_frame s
  have heq := (hwrite ring b).symm.trans hwritten
  unfold State.recordOwn
  rw [funext₂ hwrite, h]
  refine ⟨mem ring b, dirty ring b, poison ring b, outs ring b, ?_, (congrArg (fun x : EventRing × State => x.2.mem) heq).trans hmem⟩
  have hring : r' ring b = { ring with count := ring.count + 1 } := congrArg Prod.fst heq
  dsimp only
  rw [hring]
  rfl

/-- A ring with room takes the record of an excursion. -/
theorem endExcursion_ring {p : Nat} {ring : EventRing} (h : (s.part p).ring = some ring)
    (hroom : (ring.count + 2 ^ 64 - s.num (kHost ring.base + 8) 8) % 2 ^ 64 ≠ 2 ^ ring.sizelog) :
    let at_ := kHost ring.base + (64 + 32 * (ring.count % 2 ^ ring.sizelog))
    ∃ t, s.endExcursion p region = t ∧ t.regions = s.regions ∧ t.threads = s.threads ∧ (t.part p).excSeq = (s.part p).excSeq + 1 ∧
      (t.part p).ring = some { ring with count := ring.count + 1 } ∧
      t.mem = Memory.writeN (Memory.writeN s.mem at_ (s.excursionBytes p region)) (kHost ring.base) (bytesOf 8 (ring.count + 1)) := by
  intro at_
  have hcounted := part_setPart_self s p { s.part p with excSeq := (s.part p).excSeq + 1 }
  obtain ⟨mem, dirty, poison, outs, hwrite, hmem⟩ := recordOwn_room (s := s.setPart p { s.part p with excSeq := (s.part p).excSeq + 1 })
    (s.excursionBytes p region) ((congrArg Partition.ring hcounted).trans h) hroom
  refine ⟨_, (endExcursion_eq s p region).trans hwrite, rfl, rfl, ?_, ?_, hmem⟩
  · exact (congrArg Partition.excSeq (part_setPart_self _ _ _)).trans (congrArg Partition.excSeq hcounted)
  · exact congrArg Partition.ring (part_setPart_self _ _ _)

/-- Bytes of two ranges that lie apart, written one after the other. -/
theorem written_twice {m t : List Host.Cell} (hm : Memory.wf m = true) {a b : Nat} {bs cs : List Byte}
    (ht : t = Memory.writeN (Memory.writeN m a bs) b cs) (hapart : a + bs.length ≤ b ∨ b + cs.length ≤ a) :
    Memory.readN t a bs.length = bs ∧
      ∀ x, (x < b ∨ b + cs.length ≤ x) → (x < a ∨ a + bs.length ≤ x) → Memory.read t x = Memory.read m x := by
  have hwf := Memory.wf_writeN a bs hm
  subst ht
  refine ⟨?_, fun x hb ha => ?_⟩
  · rw [Memory.readN_writeN_out hwf _ _ _ _ hapart, Memory.readN_writeN hm]
  · rw [Memory.read_writeN_out hwf _ _ _ hb, Memory.read_writeN_out hm _ _ _ ha]

end

/-! ### The launch wave (R54) -/

/-- Items sent one after the other join those under way, in order. -/
theorem emitAll_net (s : State) (l : List Item) : ∃ sent ordCtr, s.emitAll l = { s with net := s.net ++ sent, ordCtr := ordCtr } ∧
    sent.map (·.body) = l.map (·.body) ∧ sent.map (·.dst) = l.map (·.dst) := by
  induction l generalizing s with
  | nil => exact ⟨[], s.ordCtr, by rw [List.append_nil]; rfl, rfl, rfl⟩
  | cons i l ih =>
    obtain ⟨sent, ordCtr, hsent, hbody, hdst⟩ := ih (s.emit i)
    refine ⟨{ i with ord := s.ordCtr } :: sent, ordCtr, ?_, ?_, ?_⟩
    · rw [State.emitAll, List.foldl_cons]
      refine hsent.trans ?_
      simp only [State.emit, List.append_assoc, List.singleton_append]
    · rw [List.map_cons, List.map_cons, hbody]
    · rw [List.map_cons, List.map_cons, hdst]

/-- A wave goes on to its next region. -/
theorem launchWaveForward_sends {s : State} {k reg : Nat} {w : Wave} {items : List Item} {rest : List (Nat × List Item)}
    (hw : s.waves[k]? = some w) (hheld : (s.taken.all fun x => x.id != w.packet || (s.part x.part).stage == .active) = true)
    (hrest : w.rest = (reg, items) :: rest) : Ends (.launchWaveForward k) s fun t =>
      t.net.take s.net.length = s.net ∧ (t.net.drop s.net.length).map (·.body) = items.map (·.body) ∧
        (t.net.drop s.net.length).map (·.dst) = items.map (·.dst) ∧ t.mem = s.mem ∧ t.threads = s.threads ∧
        t.waves = if rest = [] then s.waves.eraseIdx k else s.waves.set k { w with rest := rest } := by
  have hfree : (s.taken.any fun t => t.id == w.packet && (s.part t.part).stage != .active) = false := by
    rw [List.any_eq_false]
    intro x hx
    have := List.all_eq_true.mp hheld x hx
    revert this
    rw [bne, bne]
    cases x.id == w.packet <;> simp
  obtain ⟨sent, ordCtr, hsent, hbody, hdst⟩ := emitAll_net
    { s with waves := if rest.isEmpty then s.waves.eraseIdx k else s.waves.set k { w with rest := rest } } items
  have hexec : exec (.launchWaveForward k) s = .next
      ({ s with waves := if rest.isEmpty then s.waves.eraseIdx k else s.waves.set k { w with rest := rest } }.emitAll items) := by
    show execLaunchWaveForward k s = _
    simp only [execLaunchWaveForward, nth, hw, hfree, hrest, Bool.false_eq_true, if_false]
    rfl
  refine ⟨_, hexec.trans (congrArg Host.Outcome.next hsent), List.take_left' rfl, ?_, ?_, rfl, rfl, ?_⟩
  · exact (congrArg (List.map _) (List.drop_left' rfl)).trans hbody
  · exact (congrArg (List.map _) (List.drop_left' rfl)).trans hdst
  · simp only [List.isEmpty_iff]

/-- Settles O37. -/
theorem powerStepResults : Obligations.PowerStepResults := by
  intro s region c est drawn p k val w reg items rest ring r tripI clearI only hregion
  have htrip : exec tripI s = .next (s.trip region c) := exec_trip s region c
  have hclear : exec clearI s = .next (s.clearCause region c) := exec_clear s region c
  refine ⟨fun h => ⟨_, htrip, ?_⟩, fun h hc => ⟨_, htrip, ?_⟩, fun hc => ⟨_, htrip, trip_again hc⟩, fun h hres => ⟨_, hclear, ?_⟩,
    fun h hres hring => ⟨_, hclear, ?_⟩, fun h hres hring hmem hroom => ?_, fun hc h1 => ⟨_, hclear, ?_⟩,
    ⟨_, rfl, onlyRegion_setReg s hregion _⟩, ⟨_, rfl, ?_⟩, launchWaveForward_sends⟩
  · rw [trip_first hregion h]
    exact onlyRegion_setReg s hregion _
  · rw [trip_more h hc]
    exact onlyRegion_setReg s hregion _
  · rw [clear_last h, hres]
    exact onlyRegion_setReg s hregion _
  · rw [clear_last h, hres]
    have hring' : ((s.setReg region { s.reg region with causes := [] }).part p).ring = none := hring
    dsimp only
    rw [endExcursion_noRing hring']
    exact ⟨congrArg Region.causes (reg_setReg_self s hregion _), congrArg Partition.excSeq (part_setPart_self _ _ _), rfl, rfl⟩
  · have hring' : ((s.setReg region { s.reg region with causes := [] }).part p).ring = some ring := hring
    have hself := reg_setReg_self s hregion { s.reg region with causes := [] }
    obtain ⟨t, ht, hregions, hthreads, hseq, hcount, hwritten⟩ := endExcursion_ring (region := region) hring' hroom
    have hlen := excursionBytes_length (s.setReg region { s.reg region with causes := [] }) p region
    obtain ⟨hread, hkept⟩ := written_twice hmem hwritten (Or.inr (by rw [bytesOf_length]; omega))
    rw [hlen] at hread hkept
    rw [bytesOf_length] at hkept
    refine ⟨t, ?_, ?_, hthreads, hseq, hcount, ?_, hkept⟩
    · rw [hclear, clear_last h, hres]
      exact congrArg Host.Outcome.next ht
    · rw [State.reg, hregions]
      exact congrArg Region.causes hself
    · rw [hread, State.excursionBytes, hself]
      rfl
  · rw [clear_other hc h1]
    exact onlyRegion_setReg s hregion _
  · rw [show val.toNat / 2 ^ 32 % 2 ^ 16 = bitsN val.toNat 47 32 by simp [bitsN, Nat.shiftRight_eq_div_pow]]
    exact onlyRegion_setReg s hregion _

end Sys2Proof.Machine
end

section
/-!
PROOFS. Start-up, power-down and the flash port (spec/02_bringup.md R33-R46, spec/03_power.md R58).
-/

namespace Sys2Proof.Machine

/-! ### Start-up -/

/-- A part that has power and has started ignores a power-up. -/
theorem exec_powerUp_on {s : State} (bad : Nat) (failed : List (Nat × Nat)) (hp : s.powered = true) (hb : s.boot.state ≠ 0) :
    exec (.powerUp bad failed) s = .next s := by
  show execPowerUp bad failed s = _
  rw [execPowerUp, if_pos (by simp [hp, hb])]

/-- The stages of a start-up, each with the cause it fails by (R33, R34). -/
theorem exec_powerUp_off {s : State} (bad : Nat) (failed : List (Nat × Nat)) (h : s.powered = false ∨ s.boot.state = 0) :
    exec (.powerUp bad failed) s =
      if s.flash.imageOk = false then .next (s.cold.measure.bootFail 1 2)
      else if bad = 4 then .next (s.cold.measure.bootFail 4 3)
      else if bad = 2 then .next (s.cold.measure.bootFail 2 5)
      else if s.cold.measure.flash.logBroken = true then .next (s.cold.measure.bootFail 3 5)
      else if (s.cold.measure.stage5 failed).supervised = true then .next (s.cold.measure.stage5 failed).drawKey.stages6to8
      else .next ((s.cold.measure.stage5 failed).bootFail 5 5) := by
  have himage : s.cold.measure.flash.imageOk = s.flash.imageOk := rfl
  show execPowerUp bad failed s = _
  rw [execPowerUp, if_neg (by rcases h with h | h <;> simp [h])]
  simp only [himage, Bool.not_eq_true']

/-- The last stages leave STATE at 2, with the ranks counted. -/
theorem stages6to8_boot (s : State) : s.stages6to8.boot.state = 2 ∧ s.stages6to8.boot.stage = 8 ∧
    s.stages6to8.boot.ranked = s.stages6to8.binding.length := by
  obtain ⟨u, spares, short, hu⟩ : ∃ (u : State) (spares : Nat) (short : Bool), s.stages6to8 = { u with boot := { u.boot with
      ranked := u.binding.length, spares := spares, short := short, stage := 8, state := 2 } } := by
    unfold State.stages6to8
    extract_lets
    exact ⟨_, _, _, rfl⟩
  rw [hu]
  exact ⟨rfl, rfl, rfl⟩

/-! ### The flash port (R42) -/

section
variable {f : Flash} (ha : f.activeA = some true)
include ha

theorem slots_of_activeA : f.slots = f.bankA.slots := by rw [Flash.slots, ha]

theorem setSlots_of_activeA (l : List Slot) : f.setSlots l = { f with bankA := { f.bankA with slots := l } } := by
  rw [Flash.setSlots, ha]

/-- Other slots in bank A leave the generations of the banks, and so the active one. -/
theorem activeA_withSlots (l : List Slot) : ({ f with bankA := { f.bankA with slots := l } } : Flash).activeA = some true := ha

theorem mustCompact_eq_false (hroom : f.bankA.slots.length < 8191) : f.mustCompact = false := by
  rw [Flash.mustCompact, Flash.room, slots_of_activeA ha, beq_eq_false_iff_ne, bankSlots]
  omega

/-- An append to bank A with an erased slot adds the record with its commit word. -/
theorem append_of_room (hroom : f.bankA.slots.length < 8191) (r : Rec) : f.append r = { f with bankA := { f.bankA with
    slots := f.bankA.slots ++ [{ bytes := (f.numbered r).bytes, commit := commitWord f.nextSeq }] } } := by
  have hstart : f.startBank = f := by rw [Flash.startBank, ha]; rfl
  have hwrite : f.writeRecord (f.numbered r) = { f with bankA := { f.bankA with
      slots := f.bankA.slots ++ [{ bytes := (f.numbered r).bytes, commit := erasedWord }] } } := by
    rw [Flash.writeRecord, slots_of_activeA ha, setSlots_of_activeA ha]
  have hnew := activeA_withSlots ha (f.bankA.slots ++ [{ bytes := (f.numbered r).bytes, commit := erasedWord }])
  have hslots := slots_of_activeA hnew
  have hread : (f.writeRecord (f.numbered r)).readBack (f.numbered r) = true := by
    rw [hwrite, Flash.readBack, hslots]
    simp
  simp only [Flash.append, mustCompact_eq_false ha hroom, Bool.false_eq_true, if_false, hstart, hread, if_true]
  rw [hwrite, Flash.commitRecord, setSlots_of_activeA hnew, hslots]
  simp only [List.dropLast_concat]
  rfl

end

/-- No counted record bears the next sequence number or a later one. -/
theorem seq_lt_nextSeq (f : Flash) : ∀ x ∈ f.counted, x.seq < f.nextSeq := by
  have hmax (l : List Rec) : ∀ n, n ≤ l.foldl (fun n r => max n r.seq) n ∧ ∀ x ∈ l, x.seq ≤ l.foldl (fun n r => max n r.seq) n := by
    induction l with
    | nil => exact fun n => ⟨le_rfl, fun _ hx => nomatch hx⟩
    | cons r l ih =>
      intro n
      obtain ⟨hge, hall⟩ := ih (max n r.seq)
      refine ⟨(le_max_left _ _).trans hge, fun x hx => ?_⟩
      rcases List.mem_cons.mp hx with rfl | hx
      · exact (le_max_right _ _).trans hge
      · exact hall x hx
  exact fun x hx => Nat.lt_succ_of_le ((hmax f.counted 0).2 x hx)

/-- The flash port carries out the first append that is ready. -/
theorem exec_retirementAppend {s : State} {a : Append} (hfind : s.appends.find? (fun x => x.token.isNone) = some a)
    (ha : s.flash.activeA = some true) (hroom : s.flash.bankA.slots.length < 8191) : exec .retirementAppend s = .next
      { s with appends := s.appends.erase a, flash := { s.flash with bankA := { s.flash.bankA with
          slots := s.flash.bankA.slots ++ [{ bytes := (s.flash.numbered a.record).bytes, commit := commitWord s.flash.nextSeq }] } } } := by
  have hready : s.appends.find? Append.ready = some a := hfind
  have happend : s.appendRec a.record = { s with flash := { s.flash with bankA := { s.flash.bankA with
      slots := s.flash.bankA.slots ++ [{ bytes := (s.flash.numbered a.record).bytes, commit := commitWord s.flash.nextSeq }] } } } := by
    rw [State.appendRec, mustCompact_eq_false ha hroom, Bool.or_false, append_of_room ha hroom]
  show execRetirementAppend s = _
  rw [execRetirementAppend, hready]
  exact congrArg (fun u : State => Host.Outcome.next { u with appends := s.appends.erase a }) happend

/-- Settles O38. -/
theorem bootStepResults : Obligations.BootStepResults := by
  intro s bad stage failed img sig a u up stopped off
  have hoff (f : Flash) (hf : f = { s.flash with down := s.flash.down ++ s.downNow }) : off f s.dark :=
    ⟨rfl, hf.symm, rfl, rfl, rfl, rfl, fun c => by rw [State.dark, List.mem_filter, decide_eq_true_iff], rfl⟩
  have hup := exec_powerUp_off (s := s) bad failed
  refine ⟨fun hp hb => ⟨s, exec_powerUp_on bad failed hp hb, rfl⟩, fun h => ⟨fun himg => ?_, fun himg => ⟨fun h4 => ?_, fun h2 => ?_,
    fun h2 h4 hlog => ?_, fun h2 h4 hlog => ?_⟩⟩, fun hp => ?_, fun hp => ⟨fun hok => ?_, fun hbad => ?_, ?_⟩, fun hp => ?_,
    fun hp hall => ?_, fun hfind ha hroom => ⟨_, exec_retirementAppend hfind ha hroom, rfl, seq_lt_nextSeq s.flash⟩⟩
  · exact ⟨_, (hup h).trans (if_pos himg), rfl, rfl, rfl, rfl⟩
  · refine ⟨_, (hup h).trans ((if_neg (by simp [himg])).trans (if_pos h4)), rfl, rfl, rfl, rfl⟩
  · refine ⟨_, (hup h).trans ((if_neg (by simp [himg])).trans ((if_neg (by omega)).trans (if_pos h2))), rfl, rfl, rfl, rfl⟩
  · refine ⟨_, (hup h).trans ((if_neg (by simp [himg])).trans ((if_neg h4).trans ((if_neg h2).trans (if_pos hlog)))), rfl, rfl, rfl, rfl⟩
  · have hend := (hup h).trans ((if_neg (by simp [himg])).trans ((if_neg h4).trans ((if_neg h2).trans (if_neg (by simp [u] at hlog; simp [hlog])))))
    by_cases hsup : (u.stage5 failed).supervised = true
    · refine ⟨_, hend.trans (if_pos hsup), ?_⟩
      have hboot := stages6to8_boot (s.cold.measure.stage5 failed).drawKey
      generalize (s.cold.measure.stage5 failed).drawKey.stages6to8 = t at hboot ⊢
      simpa only [hsup, if_true] using hboot
    · refine ⟨_, hend.trans (if_neg hsup), ?_⟩
      have hboot : ((s.cold.measure.stage5 failed).bootFail 5 5).boot.state = 3 ∧ ((s.cold.measure.stage5 failed).bootFail 5 5).boot.cause = 5 ∧
          ((s.cold.measure.stage5 failed).bootFail 5 5).boot.stage = 5 := ⟨rfl, rfl, rfl⟩
      simpa only [hsup, Bool.false_eq_true, if_false] using hboot
  · exact ⟨s, by show execImageUpdateCommit _ s = _; simp [execImageUpdateCommit, hp], rfl⟩
  · exact ⟨_, by show execImageUpdateCommit _ s = _; simp [execImageUpdateCommit, hp, hok], rfl⟩
  · exact ⟨_, by show execImageUpdateCommit _ s = _; simp [execImageUpdateCommit, hp, hbad], rfl⟩
  · exact ⟨_, by show execImageUpdateCommit _ s = _; simp [execImageUpdateCommit, hp], rfl⟩
  · exact ⟨s.dark, by show execThermalShutdown s = _; rw [execThermalShutdown, if_pos hp], hoff _ rfl⟩
  · have hnone : s.appends.find? Append.ready = none := by
      rw [List.find?_eq_none]
      intro x hx
      have := List.all_eq_true.mp hall x hx
      rw [Append.ready]
      cases h : x.token <;> simp_all
    refine ⟨s.dark, ?_, hoff _ rfl⟩
    show execModulePowerLoss stage s = _
    simp only [execModulePowerLoss, hp, hnone, Bool.not_true, Bool.false_eq_true, if_false]

end Sys2Proof.Machine
end

section
/-!
PROOFS. Items at their receivers (spec/07_execution.md R137-R146, spec/16_messages.md R324, R331), and the backoff of a refused one.
-/

namespace Sys2Proof.Machine

/-! ### What a receiver notes of an item (R129, R137, R240) -/

/-- A tile as another, but for its log, its filter, its counts and its credits. -/
def Tile.LikeIn (t u : Tile) : Prop := { u with
  log := t.log, logBytes := t.logBytes, logHead := t.logHead, filter := t.filter, sent := t.sent, recv := t.recv,
  arrivals := t.arrivals, credits := t.credits } = t

/-- Receivers have noted, logged or counted items: nothing else has changed. -/
structure Noticed (s t : State) : Prop where
  rest : ∃ tiles homes firnMem, t = { s with tiles := tiles, homes := homes, firnMem := firnMem }
  tile : ∀ x, (s.tile x).LikeIn (t.tile x)

namespace Noticed

theorem refl (s : State) : Noticed s s := ⟨⟨_, _, _, rfl⟩, fun _ => rfl⟩

theorem trans {s t u : State} (h : Noticed s t) (g : Noticed t u) : Noticed s u := by
  obtain ⟨⟨_, _, _, ht⟩, htile⟩ := h
  obtain ⟨⟨_, _, _, hu⟩, hutile⟩ := g
  refine ⟨⟨_, _, _, hu.trans (by rw [ht])⟩, fun x => ?_⟩
  have h := htile x
  rw [← hutile x] at h
  exact h

/-- A tile that notes something. -/
theorem setTile {s : State} {x : Nat} {t : Tile} (h : (s.tile x).LikeIn t) : Noticed s (s.setTile x t) := by
  refine ⟨⟨_, s.homes, s.firnMem, rfl⟩, fun y => ?_⟩
  rw [State.tile_setTile]
  split
  · next hy => exact hy ▸ h
  · exact rfl

theorem logRec (s : State) (site : Nat) (r : LogRec) : Noticed s (s.logRec site r) := by
  refine ⟨⟨(s.logRec site r).tiles, s.homes, (s.logRec site r).firnMem, ?_⟩, fun x => ?_⟩
  · exact (congrArg (fun u : State => { u with tiles := (s.logRec site r).tiles, firnMem := (s.logRec site r).firnMem })
      (logRec_frame s site r) :)
  · by_cases h : x = site
    · subst h
      exact (congrArg (fun t : Tile => { t with
        filter := (s.tile x).filter, sent := (s.tile x).sent, recv := (s.tile x).recv, arrivals := (s.tile x).arrivals,
        credits := (s.tile x).credits }) (logRec_tile_self s x r) :)
    · rw [logRec_tile_ne s r h]
      exact rfl

theorem log (s : State) (site typ : Nat) (body : List Word) (m : Option Item) (size : Nat) :
    Noticed s (s.log site typ body m size) := logRec s site _

theorem noteSeq (s : State) (site : Nat) (d : Domain) (seq : Nat) : Noticed s (s.noteSeq site d seq) := setTile rfl

theorem countRecv (s : State) (site job n : Nat) : Noticed s (s.countRecv site job n) := by
  unfold State.countRecv
  split
  · exact ⟨⟨s.tiles, _, s.firnMem, rfl⟩, fun _ => rfl⟩
  · split
    · exact setTile rfl
    · exact refl s

variable {s t : State} (h : Noticed s t)
include h

theorem mem : t.mem = s.mem := by obtain ⟨⟨_, _, _, h⟩, _⟩ := h; rw [h]
theorem threads : t.threads = s.threads := by obtain ⟨⟨_, _, _, h⟩, _⟩ := h; rw [h]
theorem cores : t.cores = s.cores := by obtain ⟨⟨_, _, _, h⟩, _⟩ := h; rw [h]
theorem net : t.net = s.net := by obtain ⟨⟨_, _, _, h⟩, _⟩ := h; rw [h]
theorem parts : t.parts = s.parts := by obtain ⟨⟨_, _, _, h⟩, _⟩ := h; rw [h]
theorem ordCtr : t.ordCtr = s.ordCtr := by obtain ⟨⟨_, _, _, h⟩, _⟩ := h; rw [h]

theorem thread (x : Nat) : t.thread x = s.thread x := by rw [State.thread, State.thread, h.threads]
theorem core (x : Nat) : t.core x = s.core x := by rw [State.core, State.core, h.cores]
theorem part (p : Nat) : t.part p = s.part p := by rw [State.part, State.part, h.parts]
theorem rank (x : Nat) : (t.tile x).rank = (s.tile x).rank := (congrArg Tile.rank (h.tile x) :)
theorem barriers (x : Nat) : (t.tile x).barriers = (s.tile x).barriers := (congrArg Tile.barriers (h.tile x) :)

theorem localKey (x a n : Nat) : t.localKey x a n = s.localKey x a n := by
  have husable : (t.tile x).usable = (s.tile x).usable := (congrArg Tile.usable (h.tile x) :)
  have hhome : (t.tile x).home = (s.tile x).home := (congrArg Tile.home (h.tile x) :)
  have hpart : (t.tile x).homePart = (s.tile x).homePart := (congrArg Tile.homePart (h.tile x) :)
  simp only [State.localKey, husable, hhome, hpart]

theorem det (p : Nat) : t.det p = s.det p := by rw [State.det, State.det, h.part]

theorem partOfHart (x : Nat) : t.partOfHart x = s.partOfHart x := by
  simp only [State.partOfHart, State.partOfSite, h.thread, h.parts, h.rank]

theorem logCore (x : Nat) : t.logCore x = s.logCore x := by
  rw [State.logCore, State.logCore, State.rankOf, State.rankOf, h.rank]

theorem group (p g : Nat) : t.group p g = s.group p g := by
  simp only [State.group, State.num, State.bytes, h.mem]

end Noticed

theorem gone_append {l net : List Item} {ctr ord : Nat} {i : Item} (hi : i.ord = ctr) (hl : l = net.filter fun j => j.ord != ord) :
    ∀ j ∈ l ++ [i], j ∈ net ∨ ctr ≤ j.ord := by
  subst hl
  intro j hj
  rcases List.mem_append.mp hj with hj | hj
  · exact Or.inl (List.mem_filter.mp hj).1
  · exact Or.inr (by rw [List.mem_singleton.mp hj, hi])

/-! ### Messages (R142-R144) -/

section
variable {s : State} {k lc site : Nat} {i : Item} {m : Msg}

/-- A message with room in its queue joins it, its bytes at its place. -/
theorem enqueueMsg_queue (s : State) {key k : Nat} {m : Msg} (hk : k < 16) (hroom : ((s.core key).chan k).queue.length < 32)
    (hspill : ((s.core key).chan k).spill = []) :
    let ch := (s.core key).chan k
    let core := (s.core key).setChan k { ch with queue := ch.queue ++ [({ m with slot := ch.queueSlot }, false)] }
    ∃ mem dirty poison, s.enqueueMsg key k m = { s with cores := SMap.put s.cores key core, mem := mem, dirty := dirty, poison := poison } ∧
      (s.localKey (key / 4) ((s.core key).entryAt key k ch.queueSlot false) 80 = none → mem = s.mem) ∧
      ∀ q, s.localKey (key / 4) ((s.core key).entryAt key k ch.queueSlot false) 80 = some q → mem = Memory.writeN s.mem q m.bytes := by
  intro ch core
  have hqueues : (s.core key).queues k = true := by simp [Core.queues, hroom, hspill]
  have henqueue : (s.core key).enqueue k m = some core := by simp only [Core.enqueue, hqueues, if_true]; rfl
  have hlast : (((s.setCore key core).core key).chan k).queue.getLast? = some ({ m with slot := ch.queueSlot }, false) := by
    rw [State.core_setCore_self, chan_setChan _ _ hk, List.getLast?_concat]
  have hplace (a n : Nat) : (s.setCore key core).localKey (key / 4) a n = s.localKey (key / 4) a n := rfl
  have hnewest : s.enqueueMsg key k m = (s.setCore key core).putNewest key k := by
    simp only [State.enqueueMsg, henqueue, hqueues, if_true, Option.getD_some]
  rw [hnewest, State.putNewest, hlast]
  simp only [State.putEntry, State.unitKey]
  rw [entryAt_queue _ (s.core key), hplace]
  cases s.localKey (key / 4) ((s.core key).entryAt key k ch.queueSlot false) 80 with
  | none => exact ⟨_, _, _, rfl, fun _ => rfl, fun _ h => nomatch h⟩
  | some q => exact ⟨_, _, _, rfl, fun h => absurd h (by simp), fun q' h => by rw [← Option.some.inj h]; rfl⟩

theorem log_arrivals (s : State) (site : Nat) (r : LogRec) : ((s.logRec site r).tile site).arrivals = (s.tile site).arrivals :=
  (congrArg Tile.arrivals (logRec_tile_self s site r) :)

/-- A message that a core takes into its queue is noted, logged, queued, counted and acknowledged. -/
theorem acceptMsg_queues {key : Nat} (hfresh : (s.tile (key / 4)).freshMsg m (key % 4) = true) (hkind : m.hdr.kind = 0) (hcap : m.cap = none)
    (hroom : ((s.core key).chan m.hdr.chan).queue.length < 32) (hspill : ((s.core key).chan m.hdr.chan).spill = []) :
    ∃ u n free, Noticed (s.dropItem i.ord) u ∧ s.acceptMsg i m lc key false =
      ((u.enqueueMsg key m.hdr.chan { m with arr := (s.tile (key / 4)).arrivals }).countRecv (key / 4) m.hdr.job n).acknowledge i lc
        m.hdr.chan free := by
  obtain ⟨hdr, payload, cap, dom, mid, arr, slot⟩ := m
  dsimp only at hkind hcap hroom hspill
  subst hcap
  have hqueues : (s.core key).queues hdr.chan = true := by simp [Core.queues, hroom, hspill]
  have hfresh' : ((s.dropItem i.ord).tile (key / 4)).freshMsg ⟨hdr, payload, none, dom, mid, arr, slot⟩ (key % 4) = true := hfresh
  have hkind1 : (decide (hdr.kind = 1) && !((s.core key).handler hdr.chan).carry) = false := by simp [hkind]
  have hkind3 : (hdr.kind == 3) = false := by simp [hkind]
  have hkind5 : (decide (hdr.kind = 5) && !((s.core key).handler hdr.chan).en) = false := by simp [hkind]
  simp only [State.acceptMsg, hfresh, hfresh', hkind1, hkind3, hkind5, Core.enqueue, hqueues]
  simp only [Bool.not_true, Bool.and_false, Bool.false_eq_true, if_false, if_true]
  have hnoted : Noticed (s.dropItem i.ord) (((s.dropItem i.ord).noteMsg (key / 4) ⟨hdr, payload, none, dom, mid, arr, slot⟩ (key % 4)).log
      (key / 4) 1 [] (some i) 80) :=
    ((Noticed.noteSeq _ _ _ _).trans (Noticed.noteSeq _ _ _ _)).trans (Noticed.log _ _ _ _ _ _)
  have harr : ((((s.dropItem i.ord).noteMsg (key / 4) ⟨hdr, payload, none, dom, mid, arr, slot⟩ (key % 4)).log
      (key / 4) 1 [] (some i) 80).tile (key / 4)).arrivals = (s.tile (key / 4)).arrivals := by
    rw [State.log, log_arrivals, State.noteMsg, State.noteSeq, State.tile_setTile_self, State.noteSeq, State.tile_setTile_self]
    rfl
  generalize ((s.dropItem i.ord).noteMsg (key / 4) ⟨hdr, payload, none, dom, mid, arr, slot⟩ (key % 4)).log
      (key / 4) 1 [] (some i) 80 = v at hnoted harr ⊢
  rw [harr]
  refine ⟨_, _, _, hnoted.trans (Noticed.setTile ?_), rfl⟩
  rfl

/-- MESSAGE_ARRIVAL at a core whose channel has room. -/
theorem messageArrival_queues (hnet : s.net[k]? = some i) (hstage : i.stage = .waiting) (hbody : i.body = .message m)
    (hdst : i.dst = .core lc) (hinj : s.injectable i = true) (hsite : s.siteOfRank (lc / 4) = some site) (hdoor : s.door site i.part = .open_)
    (hpart : s.partOfSite site = some i.part) (hjob : ((s.part i.part).job m.hdr.job).isSome = true) (hdet : s.det i.part = false)
    (hfresh : (s.tile site).freshMsg m (lc % 4) = true) (hkind : m.hdr.kind = 0) (hchan : m.hdr.chan < 16) (hcap : m.cap = none)
    (hroom : ((s.core (site * 4 + lc % 4)).chan m.hdr.chan).queue.length < 32)
    (hspill : ((s.core (site * 4 + lc % 4)).chan m.hdr.chan).spill = []) :
    let key := site * 4 + lc % 4
    let ch := (s.core key).chan m.hdr.chan
    let place := s.localKey (key / 4) ((s.core key).entryAt key m.hdr.chan ch.queueSlot false) 80
    Ends (.messageArrival k) s fun t => (∀ j ∈ t.net, j ∈ s.net ∨ s.ordCtr ≤ j.ord) ∧ t.threads = s.threads ∧
      ((place = none → t.mem = s.mem) ∧ ∀ q, place = some q → MemWf s → Stored s t q m.bytes) ∧
      t.cores = SMap.put s.cores key ((s.core key).setChan m.hdr.chan
        { ch with queue := ch.queue ++ [({ m with arr := (s.tile site).arrivals, slot := ch.queueSlot }, false)] }) ∧
      ∃ j ∈ t.net, ∃ n, j.body = .ack lc m.hdr.chan n := by
  intro key ch place
  have hkey : key / 4 = site := by omega
  have hmod : key % 4 = lc % 4 := by omega
  have hbehind : s.behind i = false := by
    simp only [State.injectable, Bool.and_eq_true, Bool.not_eq_true'] at hinj
    exact hinj.1.1.1.1
  have hjoins : s.joinsHeld i = false := by simp [State.joinsHeld, hbehind]
  obtain ⟨u, n, free, hu, haccept⟩ := acceptMsg_queues (s := s) (lc := lc) (i := i) (m := m) (key := key) (by rwa [hkey, hmod]) hkind hcap hroom hspill
  have hoffer : s.offerMsg i m lc false = s.acceptMsg i m lc key false := by
    simp [State.offerMsg, hsite, hdoor, hpart, Option.isNone_eq_false_iff.mpr hjob, hdet, Item.passed, hstage, key]
    rfl
  obtain ⟨mem, dirty, poison, henqueue, hnone, hsome⟩ := enqueueMsg_queue u (key := key) (k := m.hdr.chan)
    (m := { m with arr := (s.tile (key / 4)).arrivals }) hchan (by rw [hu.core]; exact hroom) (by rw [hu.core]; exact hspill)
  obtain ⟨tiles, homes, hcount⟩ := countRecv_frame (u.enqueueMsg key m.hdr.chan { m with arr := (s.tile (key / 4)).arrivals }) (key / 4) m.hdr.job n
  obtain ⟨v, j, hv, hvnet, hjord, hjbody, hvthreads, hvmem, hvcores⟩ : ∃ v j, s.offerMsg i m lc false = v ∧
      v.net = (s.net.filter fun j => j.ord != i.ord) ++ [j] ∧ j.ord = s.ordCtr ∧ j.body = .ack lc m.hdr.chan free ∧
      v.threads = s.threads ∧ v.mem = mem ∧ v.cores = SMap.put s.cores key ((s.core key).setChan m.hdr.chan
        { ch with queue := ch.queue ++ [({ m with arr := (s.tile site).arrivals, slot := ch.queueSlot }, false)] }) := by
    rw [hcount, henqueue] at haccept
    refine ⟨_, _, hoffer.trans haccept, congrArg (· ++ [_]) hu.net, hu.ordCtr, rfl, hu.threads, rfl, ?_⟩
    rw [← hkey]
    exact (congrArg₂ (fun (a : List (Nat × Core)) (c : Core) => SMap.put a key (c.setChan m.hdr.chan { c.chan m.hdr.chan with
      queue := (c.chan m.hdr.chan).queue ++ [({ m with arr := (s.tile (key / 4)).arrivals, slot := (c.chan m.hdr.chan).queueSlot }, false)] }))
      hu.cores (hu.core key) :)
  obtain ⟨w, hexec, hnet', hthreads, hmem, hcores⟩ : ∃ w, exec (.messageArrival k) s = .next w ∧ w.net = v.net ∧ w.threads = v.threads ∧
      w.mem = v.mem ∧ w.cores = v.cores := by
    have hexec : exec (.messageArrival k) s = .next (if v.net.any fun j => j.ord == i.ord && j.stage == .waiting then v
        else v.spendCredit i lc m.hdr.chan) := by
      show execMessageArrival k s = _
      simp [execMessageArrival, nth, hnet, hbody, hdst, hstage, hjoins, hinj, hv]
    refine ⟨_, hexec, ?_⟩
    split
    · exact ⟨rfl, rfl, rfl, rfl⟩
    · rw [State.spendCredit]
      split <;> exact ⟨rfl, rfl, rfl, rfl⟩
  refine ⟨w, hexec, ?_, hthreads.trans hvthreads, ⟨fun h => ?_, fun q h hw => ?_⟩, hcores.trans hvcores, j, ?_, free, hjbody⟩
  · rw [hnet', hvnet]
    exact gone_append hjord rfl
  · rw [hmem, hvmem, hnone ?_]
    · exact hu.mem
    · rw [hu.localKey, hu.core]
      exact h
  · refine stored_write hw ?_
    rw [hmem, hvmem, hsome q ?_]
    · exact congrArg (Memory.writeN · q m.bytes) hu.mem
    · rw [hu.localKey, hu.core]
      exact h
  · rw [hnet', hvnet]
    exact List.mem_append_right _ (List.mem_singleton.mpr rfl)

/-! ### Acknowledgements, frames, barriers and capabilities -/

/-- MESSAGE_ACKNOWLEDGEMENT enters FREE, less what is outstanding (R144). -/
theorem messageAcknowledgement_enters {g free : Nat} (hnet : s.net[k]? = some i) (hbody : i.body = .ack lc g free)
    (hsite : siteOf i.src < Config.numSites) :
    Ends (.messageAcknowledgement k) s fun t => t.mem = s.mem ∧ t.cores = s.cores ∧ t.threads = s.threads ∧
      t.net = s.net.filter (fun j => j.ord != i.ord) ∧
      (t.tile (siteOf i.src)).credit lc g = free - (s.dropItem i.ord).unacked (siteOf i.src) lc g := by
  have hexec : exec (.messageAcknowledgement k) s = .next ((s.dropItem i.ord).setTile (siteOf i.src)
      ((s.tile (siteOf i.src)).setCredit lc g (free - (s.dropItem i.ord).unacked (siteOf i.src) lc g))) := by
    show execMessageAcknowledgement k s = _
    simp only [execMessageAcknowledgement, nth, hnet, hbody, if_neg (Nat.not_le.mpr hsite)]
    rfl
  refine ⟨_, hexec, rfl, rfl, rfl, rfl, ?_⟩
  rw [State.tile_setTile_self]
  simp [Tile.credit, Tile.setCredit]

/-- A frame joins a deque as its newest, its bytes at its place. -/
theorem pushFrame_queue (s : State) (key : Nat) (f : Frame) :
    let core := s.core key
    ∃ mem dirty poison, s.pushFrame key f = { s with
        cores := SMap.put s.cores key { core with deque := core.deque ++ [{ f with slot := core.frameSlot }] }
        mem := mem, dirty := dirty, poison := poison } ∧
      ((core.frameAt key core.frameSlot).bind (fun a => s.localKey (key / 4) a 80) = none → mem = s.mem) ∧
      ∀ q, (core.frameAt key core.frameSlot).bind (fun a => s.localKey (key / 4) a 80) = some q → mem = Memory.writeN s.mem q f.bytes := by
  intro core
  have hplace (c : Core) (a : Nat) : (s.setCore key c).unitKey (key / 4) a 80 = s.localKey (key / 4) a 80 := rfl
  simp only [State.pushFrame, hplace]
  cases (core.frameAt key core.frameSlot).bind fun a => s.localKey (key / 4) a 80 with
  | none => exact ⟨_, _, _, rfl, fun _ => rfl, fun _ h => absurd h (by simp)⟩
  | some q => exact ⟨_, _, _, rfl, fun h => absurd h (by simp), fun q' h => by rw [← Option.some.inj h]; rfl⟩

/-- SPAWN_FRAME_ARRIVAL at a deque that takes the frame (R146). -/
theorem spawnFrameArrival_pushes {f : Frame} {h key : Nat} (hnet : s.net[k]? = some i) (hstage : i.stage = .waiting)
    (hbody : i.body = .frame f h) (hdst : i.dst = .core lc) (hinj : s.injectable i = true) (hdet : s.det i.part = false)
    (hkey : s.coreKey i.part lc = some key) (hsite : key / 4 = site) (hdoor : s.door site i.part = .open_)
    (hfresh : (s.tile site).fresh (s.itemDomain i) i.seq = true) (htakes : (s.core key).takesFrame = true) :
    let core := s.core key
    let place := (core.frameAt key core.frameSlot).bind fun a => s.localKey (key / 4) a 80
    Ends (.spawnFrameArrival k) s fun t => t.threads = s.threads ∧
      ((place = none → t.mem = s.mem) ∧ ∀ q, place = some q → MemWf s → Stored s t q f.bytes) ∧
      t.cores = SMap.put s.cores key { core with deque := core.deque ++ [{ f with slot := core.frameSlot }] } ∧
      ∃ j ∈ t.net, j.body = .spawnAns true ∧ j.dst = .hart i.src := by
  intro core place
  let u := ((s.dropItem i.ord).noteSeq site (s.itemDomain i) i.seq).log site 1 [] (some i) 80
  have hu : Noticed (s.dropItem i.ord) u := (Noticed.noteSeq _ _ _ _).trans (Noticed.log _ _ _ _ _ _)
  have hexec : exec (.spawnFrameArrival k) s = .next (((u.pushFrame key f).countRecv site f.job 1).answerSpawn i true) := by
    show execSpawnFrameArrival k s = _
    simp only [execSpawnFrameArrival, nth, hnet, hbody, hdst, hstage, hinj, hdet, State.offerFrame, hkey, hsite, hdoor, hfresh, htakes]
    rfl
  obtain ⟨mem, dirty, poison, hpush, hnone, hsome⟩ := pushFrame_queue u key f
  obtain ⟨tiles, homes, hcount⟩ := countRecv_frame (u.pushFrame key f) site f.job 1
  clear_value u
  simp only [hu.core, hu.localKey] at hnone hsome
  rw [hcount, hpush] at hexec
  refine ⟨_, hexec, hu.threads, ⟨fun h => ?_, fun q h hw => ?_⟩, ?_, _, List.mem_append_right _ (List.mem_singleton.mpr rfl), rfl, rfl⟩
  · exact (hnone h).trans hu.mem
  · exact stored_write hw ((hsome q h).trans (congrArg (Memory.writeN · q f.bytes) hu.mem))
  · exact (congrArg₂ (fun (a : List (Nat × Core)) (c : Core) => SMap.put a key { c with deque := c.deque ++ [{ f with slot := c.frameSlot }] })
      hu.cores (hu.core key) :)

/-- BARRIER_ARRIVAL of the only member: its thread goes on (R324). -/
theorem barrierArrival_opens {g inst h hart : Nat} {t0 : Thread} (hnet : s.net[k]? = some i) (hbody : i.body = .barrier i.part g inst lc)
    (hdst : i.dst = .tile h) (hsite : s.siteOfRank h = some site) (hdoor : s.door site i.part = .open_) (hinj : s.injectable i = true)
    (hnone : (s.tile site).barriers = []) (hgroup : s.group i.part g = [lc]) (hdet : s.det i.part = false) (hmem : (hart, t0) ∈ s.threads)
    (hstatus : t0.status = .blocked (.barrier g inst)) (hpart : s.partOfHart hart = i.part) (hcore : s.logCore (coreOf hart) = lc) :
    Ends (.barrierArrival k) s fun t => t.mem = s.mem ∧ t.cores = s.cores ∧
      ∃ r : Resp, (hart, { t0 with status := .running, resp := some r }) ∈ t.threads := by
  let u := (s.dropItem i.ord).log site 12 [] (some i) 0
  have hu : Noticed (s.dropItem i.ord) u := Noticed.log _ _ _ _ _ _
  have hexec : exec (.barrierArrival k) s = .next (u.countBarrier site i.part g inst lc) := by
    show execBarrierArrival k s = _
    simp only [execBarrierArrival, nth, hnet, hbody, hdst, hsite, hdoor, hinj, BEq.rfl, Bool.true_or, Bool.and_true, if_true]
    rfl
  clear_value u
  let v := u.setTile site { u.tile site with barriers := [((i.part, g, inst), [lc])] }
  have hcount : u.countBarrier site i.part g inst lc = v.openBarrier i.part g inst [lc] := by
    have hb : (u.tile site).barriers = [] := (hu.barriers site).trans hnone
    have hg : v.group i.part g = [lc] := (hu.group i.part g).trans hgroup
    simp only [State.countBarrier, hb, List.find?_nil, List.filter_nil, Option.map_none, Option.getD_none, List.contains_nil,
      Bool.false_eq_true, if_false, List.nil_append]
    rw [show (u.setTile site { u.tile site with barriers := [((i.part, g, inst), [lc])] }).group i.part g = [lc] from hg,
      if_pos (by simp)]
  have hrank (y : Nat) : (v.tile y).rank = (s.tile y).rank := by
    rw [State.tile_setTile]
    split
    · next h => exact h ▸ hu.rank site
    · exact hu.rank y
  have hparts : v.parts = s.parts := hu.parts
  have hthreads : v.threads = s.threads := hu.threads
  have hpart' : v.partOfHart hart = i.part := ((Beside.of_ranks (s := s) (u := { v with cur := s.cur }) rfl hthreads hparts hrank).part hart).trans hpart
  have hcore' : v.logCore (coreOf hart) = lc := by
    rw [State.logCore, State.rankOf, hrank]
    exact hcore
  have hdet' : v.det i.part = false := by rw [State.det, State.part, hparts]; exact hdet
  rw [hcount] at hexec
  refine ⟨_, hexec, hu.mem, hu.cores, { value := 0, data := [] }, ?_⟩
  refine List.mem_map.mpr ⟨(hart, t0), by rw [hthreads]; exact hmem, ?_⟩
  simp [hstatus, hpart', hcore', hdet']

theorem ofBytes_bytesOf (n x : Nat) : ofBytes (bytesOf n x) = x % 256 ^ n := by
  induction n generalizing x with
  | zero => simp [bytesOf, ofBytes, Nat.mod_one]
  | succ n ih =>
    rw [bytesOf, ofBytes, ih, BitVec.toNat_ofNat, show 256 ^ (n + 1) = 256 * 256 ^ n from pow_succ' _ _]
    exact Nat.mod_mul.symm

/-- The holder's bits of a region word without HELD. -/
theorem regionWord_unheld (gen holder mode : Nat) : regionWord gen holder 0 mode % 256 ^ 8 % 2 ^ 32 / 4 = 0 := by
  simp only [regionWord]
  omega

/-- A capability at rest is an entry without a holder. -/
theorem restCap_eq {s : State} {p : Nat} {c : Cap} (h : bitsN (s.region p c.rid).2 63 48 = c.gen) : s.restCap p c = { s with
    mem := Memory.writeN s.mem (kWindow p + 0x100008 + 16 * c.rid) (bytesOf 8 (regionWord
      (bitsN (s.region p c.rid).2 63 48) (bitsN (s.region p c.rid).2 47 32) 0 (bitsN (s.region p c.rid).2 1 0))) } := by
  rw [State.restCap, if_pos h, State.setHeld]

/-- Word 1 of a region entry, once it has been written. -/
theorem region_written {s t : State} {p rid w : Nat} (hw : MemWf s)
    (ht : t.mem = Memory.writeN s.mem (kWindow p + 0x100008 + 16 * rid) (bytesOf 8 w)) : (t.region p rid).2 = w % 256 ^ 8 := by
  have h := Memory.readN_writeN hw (kWindow p + 0x100008 + 16 * rid) (bytesOf 8 w)
  rw [bytesOf_length] at h
  rw [State.region]
  simp only [State.num, State.bytes, ht]
  rw [h, ofBytes_bytesOf]

/-- A capability that returns to its entry leaves it without a holder, unless the entry has been written since (R331). -/
theorem capabilityReturnNotice_rests {g : Nat} {c : Cap} (hnet : s.net[k]? = some i) (hbody : i.body = .capReturn g c)
    (hfree : s.writesUnderAt (coreOf i.src) c = false) :
    Ends (.capabilityReturnNotice k) s fun t => t.threads = s.threads ∧ t.cores = s.cores ∧
      t.net = s.net.filter (fun j => j.ord != i.ord) ∧ (bitsN (s.region g c.rid).2 63 48 ≠ c.gen → t.mem = s.mem) ∧
      (bitsN (s.region g c.rid).2 63 48 = c.gen → MemWf s → (t.region g c.rid).2 % 2 ^ 32 / 4 = 0) ∧
      ∀ a, (a < kWindow g + 0x100008 + 16 * c.rid ∨ kWindow g + 0x100010 + 16 * c.rid ≤ a) → MemWf s →
        Memory.read t.mem a = Memory.read s.mem a := by
  have hexec : exec (.capabilityReturnNotice k) s = .next ((s.dropItem i.ord).restCap g c) := by
    show execCapabilityReturnNotice k s = _
    simp only [execCapabilityReturnNotice, nth, hnet, hbody, hfree, Bool.false_eq_true, if_false]
  have hregion : (s.dropItem i.ord).region g c.rid = s.region g c.rid := rfl
  by_cases hgen : bitsN (s.region g c.rid).2 63 48 = c.gen
  · obtain ⟨w, hrest⟩ : ∃ gen holder mode, (s.dropItem i.ord).restCap g c = { s.dropItem i.ord with
        mem := Memory.writeN s.mem (kWindow g + 0x100008 + 16 * c.rid) (bytesOf 8 (regionWord gen holder 0 mode)) } :=
      ⟨_, _, _, restCap_eq (hregion.symm ▸ hgen)⟩
    obtain ⟨holder, mode, hrest⟩ := hrest
    refine ⟨_, hexec.trans (congrArg Host.Outcome.next hrest), rfl, rfl, rfl, fun h => absurd hgen h, fun _ hw => ?_, fun a ha hw => ?_⟩
    · exact (congrArg (fun n => n % 2 ^ 32 / 4) (region_written hw rfl)).trans (regionWord_unheld _ _ _)
    · exact Memory.read_writeN_out hw _ _ _ (by rw [bytesOf_length]; omega)
  · refine ⟨_, hexec, ?_⟩
    rw [State.restCap, hregion, if_neg hgen]
    exact ⟨rfl, rfl, rfl, fun _ => rfl, fun h => absurd h hgen, fun _ _ _ => rfl⟩

/-- RESEND_BACKOFF of an item whose turn it is offers it once more (R144). -/
theorem resendBackoff_offers {b : Nat} (hnet : s.net[k]? = some i) (hstage : i.stage = .refused b) (hdet : s.det i.part = false)
    (hbehind : s.behind i = false) : exec (.resendBackoff k) s =
      let u := (s.setStage i.ord .waiting).offer { i with stage := .waiting } false
      if (s.tile (siteOf i.src)).failed then .next s
      else .next (if u.net.any fun j => j.ord == i.ord && (match j.stage with | .refused _ | .waiting => true | _ => false) then
        u.setStage i.ord (.refused (min (2 * b) 65536)) else u) := by
  show execResendBackoff k s = _
  simp only [execResendBackoff, nth, hnet, hstage, hdet, hbehind, Bool.false_or] <;> rfl

/-- Settles O39. -/
theorem itemArrivalResults : Obligations.ItemArrivalResults := by
  refine ⟨fun s k lc site free g inst h hart i m f c t0 => ?_, fun s k b i => ?_⟩
  · intro key core ch gone placed frame hnet hstage
    refine ⟨fun hbody hdst hinj hfailed hsite hdoor hpart hjob hdet hfresh hkind hchan hcap hroom hspill =>
      messageArrival_queues hnet hstage hbody hdst hinj hsite hdoor hpart hjob hdet hfresh hkind hchan hcap hroom hspill,
      messageAcknowledgement_enters hnet, fun hbody hdst hinj hdet hkey hsite hdoor hfresh htakes =>
      spawnFrameArrival_pushes hnet hstage hbody hdst hinj hdet hkey hsite hdoor hfresh htakes,
      fun hbody hdst hsite hdoor hinj hnone hgroup hdet hmem hstatus hpart hcore =>
      barrierArrival_opens hnet hbody hdst hsite hdoor hinj hnone hgroup hdet hmem hstatus hpart hcore,
      capabilityReturnNotice_rests hnet⟩
  · intro u hnet hstage hdet hbehind
    have hexec := resendBackoff_offers hnet hstage hdet hbehind
    refine ⟨fun hfailed => ⟨s, ?_, rfl⟩, fun hfailed hall => ⟨u, ?_, rfl⟩, fun hfailed ⟨j, hj, hord, hst⟩ => ⟨_, ?_, rfl⟩⟩
    · rw [hexec, if_pos hfailed]
    · rw [hexec, if_neg (by simp [hfailed]), if_neg]
      simp only [List.any_eq_true, Bool.and_eq_true, not_exists, not_and]
      intro j hj hord
      have := List.all_eq_true.mp hall j hj
      simp_all
    · rw [hexec, if_neg (by simp [hfailed]), if_pos]
      refine List.any_eq_true.mpr ⟨j, hj, ?_⟩
      rcases hst with hst | ⟨n, hst⟩ <;> simp [hord, hst]

end

end Sys2Proof.Machine
end

section
/-!
PROOFS. Accesses at their homes: translation, admission, stores and returning operations, responses, faults and wakes (spec/09_memory.md
R181-R199, spec/11_traps.md R218-R221).
-/

namespace Sys2Proof.Machine

/-! ### Translation (R181-R185) -/

/-- One level of a walk: the checks that the entry of a node goes through, in order. -/
theorem walk_cons (s : State) (home : Option Nat) (va lvl lo n node : Nat) (rest : List (Nat × Nat × Nat)) :
    s.walk home va ((lvl, lo, n) :: rest) node =
      let a := node + 8 * bitsN va (lo + n - 1) lo
      if Config.hbmBytes < a + 8 then .error 10
      else if s.poisoned a 8 then .error 11
      else if s.num a 8 % 2 = 0 then .error 8
      else if !pteClean (s.num a 8) then .error 10
      else if bitsN (s.num a 8) 4 4 = 1 then
        if 3 ≤ lvl then .error 10
        else if s.leafOk home va (s.num a 8) lo then .ok (s.num a 8, lo) else .error 10
      else if bitsN (s.num a 8) 3 3 = 1 then .error 10
      else s.walk home va rest (bitsN (s.num a 8) 47 8 * 256) := by
  rw [State.walk]

section
variable {e : Nat}

theorem pteClean_of_leaf (h : e % 8 = 1) (h4 : bitsN e 7 4 = 1) : pteClean e = true ∧ bitsN e 4 4 = 1 := by
  simp only [pteClean, bitsN, Nat.shiftRight_eq_div_pow, Bool.and_eq_true, beq_iff_eq] at *
  omega

theorem pteClean_of_tileHomed (h : e % 16 = 9) (h4 : bitsN e 7 4 = 0) : pteClean e = true ∧ bitsN e 4 4 = 0 ∧ bitsN e 3 3 = 1 := by
  simp only [pteClean, bitsN, Nat.shiftRight_eq_div_pow, Bool.and_eq_true, beq_iff_eq] at *
  omega

theorem pteClean_of_pointer (h : e % 256 = 1) : pteClean e = true ∧ bitsN e 4 4 = 0 ∧ bitsN e 3 3 = 0 := by
  simp only [pteClean, bitsN, Nat.shiftRight_eq_div_pow, Bool.and_eq_true, beq_iff_eq] at *
  omega

theorem pteClean_eq_false (h : bitsN e 7 5 ≠ 0 ∨ bitsN e 2 1 ≠ 0) : pteClean e = false := by
  rw [pteClean, Bool.and_eq_false_iff, beq_eq_false_iff_ne, beq_eq_false_iff_ne]
  exact h

end

/-- The entry that a walk reads of a node at a level. -/
structure ReadsEntry (s : State) (va node lo n e : Nat) : Prop where
  inside : node + 8 * bitsN va (lo + n - 1) lo + 8 ≤ Config.hbmBytes
  whole  : s.poisoned (node + 8 * bitsN va (lo + n - 1) lo) 8 = false
  entry  : s.num (node + 8 * bitsN va (lo + n - 1) lo) 8 = e

section
variable {s : State} {home : Option Nat} {va lvl lo n node e : Nat} {rest : List (Nat × Nat × Nat)}

theorem walk_outside (h : Config.hbmBytes < node + 8 * bitsN va (lo + n - 1) lo + 8) :
    s.walk home va ((lvl, lo, n) :: rest) node = .error 10 := by
  rw [walk_cons, if_pos h]

theorem walk_reads (h : ReadsEntry s va node lo n e) : s.walk home va ((lvl, lo, n) :: rest) node =
    if e % 2 = 0 then .error 8
    else if !pteClean e then .error 10
    else if bitsN e 4 4 = 1 then
      if 3 ≤ lvl then .error 10 else if s.leafOk home va e lo then .ok (e, lo) else .error 10
    else if bitsN e 3 3 = 1 then .error 10
    else s.walk home va rest (bitsN e 47 8 * 256) := by
  obtain ⟨hin, hwhole, rfl⟩ := h
  rw [walk_cons]
  dsimp only
  rw [if_neg (Nat.not_lt.mpr hin), hwhole, if_neg Bool.false_ne_true]

theorem walk_missing (h : ReadsEntry s va node lo n e) (he : e % 2 = 0) : s.walk home va ((lvl, lo, n) :: rest) node = .error 8 := by
  rw [walk_reads h, if_pos he]

theorem walk_unclean (h : ReadsEntry s va node lo n e) (he : e % 2 = 1) (hbits : bitsN e 7 5 ≠ 0 ∨ bitsN e 2 1 ≠ 0) :
    s.walk home va ((lvl, lo, n) :: rest) node = .error 10 := by
  rw [walk_reads h, if_neg (by omega), pteClean_eq_false hbits]
  rfl

theorem walk_leaf (h : ReadsEntry s va node lo n e) (he : e % 8 = 1) (h4 : bitsN e 7 4 = 1) :
    s.walk home va ((lvl, lo, n) :: rest) node =
      if 3 ≤ lvl then .error 10 else if s.leafOk home va e lo then .ok (e, lo) else .error 10 := by
  obtain ⟨hclean, hleaf⟩ := pteClean_of_leaf he h4
  rw [walk_reads h, if_neg (by omega), hclean, if_neg (by simp), if_pos hleaf]

theorem walk_tileHomed (h : ReadsEntry s va node lo n e) (he : e % 16 = 9) (h4 : bitsN e 7 4 = 0) :
    s.walk home va ((lvl, lo, n) :: rest) node = .error 10 := by
  obtain ⟨hclean, hleaf, hhome⟩ := pteClean_of_tileHomed he h4
  rw [walk_reads h, if_neg (by omega), hclean, if_neg (by simp), if_neg (by omega), if_pos hhome]

theorem walk_pointer (h : ReadsEntry s va node lo n e) (he : e % 256 = 1) :
    s.walk home va ((lvl, lo, n) :: rest) node = s.walk home va rest (bitsN e 47 8 * 256) := by
  obtain ⟨hclean, hleaf, hhome⟩ := pteClean_of_pointer he
  rw [walk_reads h, if_neg (by omega), hclean, if_neg (by simp), if_neg (by omega), if_neg (by omega)]

end

/-- The home of an address whose rank is in order. -/
def State.homeOfPage (s : State) (p va : Nat) : Option Nat := if segOf va = 1 then s.homeSite p va else none

/-- The entry that a leaf makes in a home's cache. -/
def State.leafEntry (s : State) (p va e lo : Nat) : TlbEntry :=
  { part := p, page := va / 2 ^ lo * 2 ^ lo, size := 2 ^ lo, leaf := BitVec.ofNat 64 e,
    w0 := BitVec.ofNat 64 (s.region p (bitsN e 63 48)).1, w1 := BitVec.ofNat 64 (s.region p (bitsN e 63 48)).2 }

section
variable {s : State} {p va : Nat}

/-- An address whose rank is in order is looked up, else walked. -/
theorem translate_inOrder (h : segOf va ≠ 1 ∨ bitsN va 47 45 = 0 ∧ (s.homeSite p va).isSome = true) : s.translate p va =
    match (s.tlbOf (s.homeOfPage p va) va).find? fun e => e.part == p && e.page ≤ va && va < e.page + e.size with
    | some e => (.ok e, s)
    | none =>
      if s.num (kWindow p + 0x40000) 8 = 0 then (.error 10, s)
      else match s.walk (s.homeOfPage p va) va ptLevels (s.num (kWindow p + 0x40000) 8) with
        | .error c => (.error c, s)
        | .ok (leaf, lo) => (.ok (s.leafEntry p va leaf lo), s.cache (s.homeOfPage p va) va (s.leafEntry p va leaf lo)) := by
  have h1 : ¬ (decide (segOf va = 1) && decide (bitsN va 47 45 ≠ 0)) = true := by
    rcases h with h | ⟨h, -⟩ <;> simp [h]
  have h2 : ¬ (decide (segOf va = 1) && (s.homeSite p va).isNone) = true := by
    rcases h with h | ⟨-, h⟩
    · simp [h]
    · cases hs : s.homeSite p va <;> simp_all
  rw [State.translate, if_neg h1, if_neg h2]
  rfl

/-- What the cache of an address's home holds for it. -/
def State.cachedEntry (s : State) (p va : Nat) : Option TlbEntry :=
  (s.tlbOf (s.homeOfPage p va) va).find? fun e => e.part == p && e.page ≤ va && va < e.page + e.size

theorem translate_cached {e : TlbEntry} (h : segOf va ≠ 1 ∨ bitsN va 47 45 = 0 ∧ (s.homeSite p va).isSome = true)
    (hc : s.cachedEntry p va = some e) : s.translate p va = (.ok e, s) := by
  rw [translate_inOrder h, ← State.cachedEntry, hc]

theorem translate_noRoot (h : segOf va ≠ 1 ∨ bitsN va 47 45 = 0 ∧ (s.homeSite p va).isSome = true)
    (hc : s.cachedEntry p va = none) (hr : s.num (kWindow p + 0x40000) 8 = 0) : s.translate p va = (.error 10, s) := by
  rw [translate_inOrder h, ← State.cachedEntry, hc]
  dsimp only
  rw [if_pos hr]

/-- A translation is what a walk from a node gives. -/
def TranslatesBy (s : State) (p va : Nat) (levels : List (Nat × Nat × Nat)) (node : Nat) : Prop := s.translate p va =
  match s.walk (s.homeOfPage p va) va levels node with
  | .error c => (.error c, s)
  | .ok (leaf, lo) => (.ok (s.leafEntry p va leaf lo), s.cache (s.homeOfPage p va) va (s.leafEntry p va leaf lo))

theorem translatesBy_root (h : segOf va ≠ 1 ∨ bitsN va 47 45 = 0 ∧ (s.homeSite p va).isSome = true)
    (hc : s.cachedEntry p va = none) (hr : s.num (kWindow p + 0x40000) 8 ≠ 0) :
    TranslatesBy s p va ptLevels (s.num (kWindow p + 0x40000) 8) := by
  rw [TranslatesBy, translate_inOrder h, ← State.cachedEntry, hc]
  dsimp only
  rw [if_neg hr]

theorem TranslatesBy.error {levels : List (Nat × Nat × Nat)} {node c : Nat} (h : TranslatesBy s p va levels node)
    (hw : s.walk (s.homeOfPage p va) va levels node = .error c) : s.translate p va = (.error c, s) := by
  rw [h, hw]

theorem TranslatesBy.leaf {levels : List (Nat × Nat × Nat)} {node e lo : Nat} (h : TranslatesBy s p va levels node)
    (hw : s.walk (s.homeOfPage p va) va levels node = .ok (e, lo)) :
    s.translate p va = (.ok (s.leafEntry p va e lo), s.cache (s.homeOfPage p va) va (s.leafEntry p va e lo)) := by
  rw [h, hw]

/-- A walk goes on at the node that a pointer names. -/
theorem TranslatesBy.pointer {lvl lo n node e : Nat} {rest : List (Nat × Nat × Nat)} (h : TranslatesBy s p va ((lvl, lo, n) :: rest) node)
    (hreads : ReadsEntry s va node lo n e) (he : e % 256 = 1) : TranslatesBy s p va rest (bitsN e 47 8 * 256) := by
  rw [TranslatesBy, ← walk_pointer (home := s.homeOfPage p va) (lvl := lvl) (rest := rest) hreads he]
  exact h

end

/-- The translation of an address, level by level. -/
theorem translate_spec : ∀ (s : State) (p va : Nat),
     let home := if segOf va = 1 then s.homeSite p va else none
     let cached := (s.tlbOf home va).find? fun e => e.part == p && e.page ≤ va && va < e.page + e.size
     let root := s.num (kWindow p + 0x40000) 8
     let slot (node lo n : Nat) : Nat := node + 8 * bitsN va (lo + n - 1) lo
     let fails (c : Nat) : Prop := s.translate p va = (.error c, s)
     let reads (node lo n e : Nat) : Prop :=
       slot node lo n + 8 ≤ Config.hbmBytes ∧ s.poisoned (slot node lo n) 8 = false ∧ s.num (slot node lo n) 8 = e
     let pointer (e next : Nat) : Prop := e % 256 = 1 ∧ next = bitsN e 47 8 * 256
     let leaf (e : Nat) : Prop := e % 8 = 1 ∧ bitsN e 7 4 = 1
     let level (node lo n : Nat) (allowed last : Bool) : Prop :=
       (Config.hbmBytes < slot node lo n + 8 → fails 10) ∧
       ∀ e, reads node lo n e →
         (e % 2 = 0 → fails 8) ∧
         (e % 2 = 1 → bitsN e 7 5 ≠ 0 ∨ bitsN e 2 1 ≠ 0 → fails 10) ∧
         (leaf e → allowed = false → fails 10) ∧
         (e % 16 = 9 → bitsN e 7 4 = 0 → fails 10) ∧
         (last = true → ∀ next, pointer e next → fails 10) ∧
         (allowed = true → leaf e →
           (s.leafOk home va e lo = false → fails 10) ∧
           (s.leafOk home va e lo = true →
             let w := s.region p (bitsN e 63 48)
             let t : TlbEntry := { part := p, page := va / 2 ^ lo * 2 ^ lo, size := 2 ^ lo, leaf := BitVec.ofNat 64 e,
                                   w0 := BitVec.ofNat 64 w.1, w1 := BitVec.ofNat 64 w.2 }
             s.translate p va = (.ok t, s.cache home va t)))
     (segOf va = 1 → bitsN va 47 45 ≠ 0 → fails 2) ∧
     (segOf va = 1 → bitsN va 47 45 = 0 → s.homeSite p va = none → fails 14) ∧
     (segOf va ≠ 1 ∨ bitsN va 47 45 = 0 ∧ (s.homeSite p va).isSome = true →
       (∀ e, cached = some e → s.translate p va = (.ok e, s)) ∧
       (cached = none → root = 0 → fails 10) ∧
       (cached = none → root ≠ 0 → level root 48 8 false false ∧ ∀ e n3, reads root 48 8 e → pointer e n3 →
         level n3 39 9 false false ∧ ∀ e n2, reads n3 39 9 e → pointer e n2 →
         level n2 30 9 true false ∧ ∀ e n1, reads n2 30 9 e → pointer e n1 →
         level n1 21 9 true false ∧ ∀ e n0, reads n1 21 9 e → pointer e n0 → level n0 16 5 true true)) := by
  intro s p va home cached root slot fails reads pointer leaf level
  have level_of_walk {lvl lo n node : Nat} {rest : List (Nat × Nat × Nat)} (allowed last : Bool)
      (h : TranslatesBy s p va ((lvl, lo, n) :: rest) node) (hallowed : allowed = decide (lvl < 3)) (hlast : last = true → rest = []) :
      level node lo n allowed last := by
    refine ⟨fun hout => h.error (walk_outside hout), fun e ⟨hin, hwhole, he⟩ => ?_⟩
    have hr : ReadsEntry s va node lo n e := ⟨hin, hwhole, he⟩
    refine ⟨fun h0 => h.error (walk_missing hr h0), fun h1 hbits => h.error (walk_unclean hr h1 hbits), fun ⟨h8, h4⟩ hno => h.error ?_,
      fun h9 h4 => h.error (walk_tileHomed hr h9 h4), fun hl next ⟨h1, _⟩ => h.error ?_, fun hyes ⟨h8, h4⟩ => ?_⟩
    · rw [walk_leaf hr h8 h4, if_pos (by simpa [hno] using hallowed)]
    · rw [walk_pointer hr h1, hlast hl, State.walk]
    · have hw := walk_leaf (home := s.homeOfPage p va) (lvl := lvl) (rest := rest) hr h8 h4
      rw [if_neg (by simpa [hyes] using hallowed)] at hw
      refine ⟨fun hbad => h.error ?_, fun hok => h.leaf ?_⟩
      · rw [hw, if_neg]
        exact Bool.eq_false_iff.mp hbad
      · rw [hw, if_pos]
        exact hok
  refine ⟨fun hseg hbits => ?_, fun hseg hbits hnone => ?_, fun hok => ⟨fun e he => translate_cached hok he,
    fun hc hroot => translate_noRoot hok hc hroot, fun hc hroot => ?_⟩⟩
  · show s.translate p va = _
    rw [State.translate, if_pos (by simp [hseg, hbits])]
  · show s.translate p va = _
    rw [State.translate, if_neg (by simp [hbits]), if_pos (by simp [hseg, hnone])]
  · have h4 : TranslatesBy s p va ptLevels root := translatesBy_root hok hc hroot
    refine ⟨level_of_walk false false h4 rfl nofun, fun e n3 hr ⟨h1, hn⟩ => ?_⟩
    subst hn
    have h3 := h4.pointer ⟨hr.1, hr.2.1, hr.2.2⟩ h1
    refine ⟨level_of_walk false false h3 rfl nofun, fun e n2 hr ⟨h1, hn⟩ => ?_⟩
    subst hn
    have h2 := h3.pointer ⟨hr.1, hr.2.1, hr.2.2⟩ h1
    refine ⟨level_of_walk true false h2 rfl nofun, fun e n1 hr ⟨h1, hn⟩ => ?_⟩
    subst hn
    have h1' := h2.pointer ⟨hr.1, hr.2.1, hr.2.2⟩ h1
    refine ⟨level_of_walk true false h1' rfl nofun, fun e n0 hr ⟨h1, hn⟩ => ?_⟩
    subst hn
    exact level_of_walk true true (h1'.pointer ⟨hr.1, hr.2.1, hr.2.2⟩ h1) rfl fun _ => rfl

/-! ### Admission (R188-R193) -/

theorem resolve_ok {s u : State} {p va : Nat} {w : Option WKind} {cap : Option (Nat × Nat)} {e : TlbEntry} (ht : s.translate p va = (.ok e, u)) :
    s.resolve p va w cap = (match w.bind fun k => e.grants k cap with | some c => .bad c | none => .ok (u.entryKey p e va), u) := by
  rw [State.resolve, ht]
  dsimp only
  cases w.bind fun k => e.grants k cap <;> rfl

/-- Reads are admitted in every mode, a write by the mode of its region. -/
theorem resolve_modes : ∀ (s u : State) (p va : Nat) (cap : Option (Nat × Nat)) (e : TlbEntry),
     let rid := bitsN e.leaf.toNat 63 48
     let mode := if rid = 0 then 3 else bitsN e.w1.toNat 1 0
     let owner := mode = 1 ∧ cap = some (rid, bitsN e.w1.toNat 63 48)
     let granted := HomeAns.ok (u.entryKey p e va)
     s.translate p va = (.ok e, u) →
     s.resolve p va none cap = (granted, u) ∧
     (owner → s.resolve p va (some .store) cap = (granted, u) ∧ s.resolve p va (some .atomic) cap = (granted, u)) ∧
     (mode = 2 → s.resolve p va (some .atomic) cap = (granted, u) ∧ s.resolve p va (some .store) cap = (.bad 2, u)) ∧
     (mode = 1 → ¬ owner → s.resolve p va (some .store) cap = (.bad 3, u) ∧ s.resolve p va (some .atomic) cap = (.bad 3, u)) ∧
     (mode = 0 ∨ mode = 3 → s.resolve p va (some .store) cap = (.bad 2, u) ∧ s.resolve p va (some .atomic) cap = (.bad 2, u)) := by
  intro s u p va cap e rid mode owner granted ht
  have hgrants (k : WKind) : e.grants k cap = match mode with
      | 1 => if cap = some (rid, bitsN e.w1.toNat 63 48) then none else some 3
      | 2 => if k = .atomic then none else some 2
      | _ => some 2 := rfl
  clear_value mode
  refine ⟨resolve_ok ht, fun ⟨hm, hc⟩ => ?_, fun hm => ?_, fun hm hno => ?_, fun hm => ?_⟩
  · subst hc
    simp [resolve_ok ht, hgrants, hm, granted]
  · simp [resolve_ok ht, hgrants, hm, granted]
  · have hc : ¬ cap = some (rid, bitsN e.w1.toNat 63 48) := fun hc => hno ⟨hm, hc⟩
    simp [resolve_ok ht, hgrants, hm, hc]
  · rcases hm with hm | hm <;> simp [resolve_ok ht, hgrants, hm]

theorem leafOk_hbm (s : State) (va e lo : Nat) : s.leafOk none va e lo = true ↔
    bitsN e 47 8 * 256 % 2 ^ lo = 0 ∧ bitsN e 3 3 = 0 ∧ bitsN e 47 8 * 256 + 2 ^ lo ≤ Config.hbmBytes ∧
      bitsN e 47 8 * 256 / 65536 % 48 = va / 2 ^ lo * 2 ^ lo / 65536 % 48 := by
  simp only [State.leafOk, Bool.and_eq_true, beq_iff_eq, decide_eq_true_eq, and_assoc]
  exact Iff.rfl

theorem leafOk_tile (s : State) (site va e lo : Nat) : s.leafOk (some site) va e lo = true ↔
    bitsN e 47 8 * 256 % 2 ^ lo = 0 ∧
      bitsN e 47 8 * 256 + 2 ^ lo ≤ if bitsN e 3 3 = 0 then 0x3D0000 else (s.tile site).usable * 2 ^ 20 := by
  simp only [State.leafOk, Bool.and_eq_true, beq_iff_eq]
  split
  · exact and_congr_right fun _ => decide_eq_true_iff
  · exact and_congr_right fun _ => decide_eq_true_iff

/-! ### Stores and returning operations (R189-R209) -/

/-- A home notes and counts an item that it takes. -/
theorem takenAt_noticed (s : State) (home : Dest) (i : Item) : Noticed s (s.takenAt home i) := by
  have hrecv {u : State} (h : Noticed s u) : Noticed s (if i.counted then u.recvAt home i.job else u) := by
    split
    · exact h.trans (Noticed.countRecv _ _ _ _)
    · exact h
  cases home with
  | site x => exact hrecv ((Noticed.noteSeq _ _ _ _).trans (Noticed.log _ _ _ _ _ _))
  | stack k => exact hrecv ⟨⟨s.tiles, _, s.firnMem, rfl⟩, fun _ => rfl⟩
  | _ => exact hrecv (Noticed.refl s)

/-- An atomic of a tile on its own memory counts among the local atomics of its thread (R241). -/
theorem ownTaken_spec (s : State) (home : Dest) (i : Item) (v : Word) : (s.ownTaken home i v).mem = s.mem ∧
    (s.ownTaken home i v).threads = SMap.put s.threads i.src { s.thread i.src with nAtomic := (s.thread i.src).nAtomic + 1 } := by
  have hnoted : Noticed s ((s.noteSeq (siteOf i.src) (s.itemDomain i) i.seq).log (siteOf i.src) 8
      [(s.noteSeq (siteOf i.src) (s.itemDomain i) i.seq).midOf i.src, BitVec.ofNat 64 (s.thread i.src).nAtomic, v, 0] none 32) :=
    (Noticed.noteSeq _ _ _ _).trans (Noticed.log _ _ _ _ _ _)
  unfold State.ownTaken
  extract_lets x t u src w
  have hu : Noticed s u := hnoted
  clear_value u
  have hw : w.mem = s.mem ∧ w.threads = SMap.put s.threads i.src { s.thread i.src with nAtomic := (s.thread i.src).nAtomic + 1 } := by
    refine ⟨hu.mem, ?_⟩
    show SMap.put u.threads i.src { u.thread i.src with nAtomic := t.nAtomic + 1 } = _
    rw [hu.threads, hu.thread]
  split
  · have hr := Noticed.countRecv w (homeSiteNo home) i.job 1
    exact ⟨hr.mem.trans hw.1, hr.threads.trans hw.2⟩
  · exact hw

/-- A returning operation that is due is looked at. -/
theorem retArrival_due {s : State} {i : Item} (hstage : i.stage = .waiting) (hinj : s.injectable i = true) (op : RetOp) :
    s.retArrival i op = .next (s.offerRet i op) := by
  simp [State.retArrival, State.retDue, hstage, hinj]

section
variable {s u : State} {k a key : Nat} {i : Item} (hnet : s.net[k]? = some i) (hstage : i.stage = .waiting) (hinj : s.injectable i = true)
  (hdoor : s.homeDoor i.part a = .open_)
include hnet hstage hinj hdoor

/-- REMOTE_STORE_ARRIVAL of an admitted store writes its bytes (R189). -/
theorem remoteStoreArrival_writes {bs : List Byte} (hw : MemWf s) (hbody : i.body = .store a bs false) (hdst : i.dst = homeOf a)
    (hfresh : s.freshAt (s.homePlace i.part a) i = true) (hres : s.resolve i.part a (some .store) i.cap = (.ok key, u)) (hmem : u.mem = s.mem) :
    Ends (.remoteStoreArrival k) s fun t => Stored s t key bs ∧ t.threads = u.threads ∧ t.cores = u.cores := by
  have hfar : ∀ x, i.dst ≠ .site x := by
    intro x h
    rw [hdst, homeOf] at h
    split at h <;> cases h
  let v := (u.dropItem i.ord).takenAt (s.homePlace i.part a) i
  have hv : Noticed (u.dropItem i.ord) v := takenAt_noticed _ _ _
  have hexec : exec (.remoteStoreArrival k) s = .next (v.putMem key bs) := by
    show execRemoteStoreArrival k s = _
    simp only [execRemoteStoreArrival, nth, hnet, hbody, hstage, hinj, bne_self_eq_false, Bool.false_eq_true, if_false, if_true]
    have hoffer : s.offerStore i a bs false = v.putMem key bs := by
      rw [State.offerStore.eq_def]
      split
      · next x hx => exact absurd hx (hfar x)
      · simp only [hdoor, hfresh, hres]
        rfl
    rw [hoffer]
  refine ⟨_, hexec, stored_write hw ?_, hv.threads, hv.cores⟩
  exact congrArg (Memory.writeN · key bs) (hv.mem.trans hmem)

/-- REMOTE_ATOMIC_PERFORM of an admitted atomic (R209, R241). -/
theorem remoteAtomicPerform_answers {op : AmoOp} {w v c : Nat} (hw : MemWf s) (hbody : i.body = .ret (.amo op a w v c))
    (hfresh : s.freshAt (s.homePlace i.part a) i = true) (hres : s.resolve i.part a (some .atomic) i.cap = (.ok key, u))
    (hmem : u.mem = s.mem) (hpois : u.poisoned key w = false) :
    let home := s.homePlace i.part a
    let old := s.num key w
    let new := if op = .cas ∧ old ≠ c then old else amoF op (8 * w) old v
    Ends (.remoteAtomicPerform k) s fun t =>
      (∃ j ∈ t.net, j.dst = .hart i.src ∧ j.body = .response 0 a true { value := sext (8 * w) old, data := [] } i.ord) ∧
        Stored s t key (bytesOf w new) ∧
        t.threads = if home = .site (siteOf i.src) then
          SMap.put u.threads i.src { u.thread i.src with nAtomic := (u.thread i.src).nAtomic + 1 } else u.threads := by
  intro home old new
  have hold : u.num key w = s.num key w := by rw [State.num, State.bytes, hmem]; rfl
  obtain ⟨x, hamo, ⟨hbeside, -⟩, hstored⟩ := amo_performs (s := u) (op := op) (k := key) (w := w) (v := v) (c := c)
    (show Memory.wf u.mem = true by rw [hmem]; exact hw)
  rw [hold] at hamo hstored
  have hexec : exec (.remoteAtomicPerform k) s = .next (((if home = .site (siteOf i.src) then (x.dropItem i.ord).ownTaken home i (sext (8 * w) old)
      else (x.dropItem i.ord).takenAt home i)).respond i 0 a true { value := sext (8 * w) old, data := [] } false) := by
    show execRemoteAtomicPerform k s = _
    simp only [execRemoteAtomicPerform, nth, hnet, hbody, retArrival_due hstage hinj, State.offerRet, RetOp.addr, hdoor, RetOp.wkind, hfresh,
      hres, State.readsAt, hpois, State.performAt, hamo]
    have hstage' : (i.stage == Stage.held 0) = false := by rw [hstage]; rfl
    have hown : (RetOp.amo op a w v c).ownAtomic i (s.homePlace i.part a) = decide (home = .site (siteOf i.src)) := by
      simp only [RetOp.ownAtomic, home, beq_eq_decide]
    simp only [Option.isSome_some, Bool.not_true, Bool.and_false, Bool.false_eq_true, if_false, if_true, hown, decide_eq_true_eq, hstage']
    rfl
  have hv : ∀ y : State, y.mem = x.mem → ∃ z, y.respond i 0 a true { value := sext (8 * w) old, data := [] } false = z ∧
      (∃ j ∈ z.net, j.dst = .hart i.src ∧ j.body = .response 0 a true { value := sext (8 * w) old, data := [] } i.ord) ∧
      Stored s z key (bytesOf w new) ∧ z.threads = y.threads := by
    intro y hy
    refine ⟨_, rfl, ⟨_, List.mem_append_right _ (List.mem_singleton.mpr rfl), rfl, rfl⟩, ?_, rfl⟩
    rw [Stored, ← hmem]
    exact hstored _ hy
  by_cases hh : home = .site (siteOf i.src)
  · obtain ⟨hmem', hthreads⟩ := ownTaken_spec (x.dropItem i.ord) home i (sext (8 * w) old)
    obtain ⟨z, hz, hans, hst, hzt⟩ := hv _ hmem'
    rw [if_pos hh] at hexec
    refine ⟨z, hexec.trans (congrArg _ hz), hans, hst, ?_⟩
    rw [if_pos hh, hzt, hthreads]
    exact congrArg (fun l : List (Nat × Thread) => SMap.put l i.src
      { SMap.get Thread.init l i.src with nAtomic := (SMap.get Thread.init l i.src).nAtomic + 1 }) hbeside.threads
  · have hn := takenAt_noticed (x.dropItem i.ord) home i
    obtain ⟨z, hz, hans, hst, hzt⟩ := hv _ hn.mem
    rw [if_neg hh] at hexec
    refine ⟨z, hexec.trans (congrArg _ hz), hans, hst, ?_⟩
    rw [if_neg hh, hzt, hn.threads]
    exact hbeside.threads

/-- REMOTE_LOAD_ARRIVAL of an LDF of a full word (R326). -/
theorem remoteLoadArrival_answers (hbody : i.body = .ret (.ldf a)) (hres : s.resolve i.part a none i.cap = (.ok key, u)) (hmem : u.mem = s.mem)
    (hfull : u.full = s.full) (hpois : u.poisoned key 8 = false) (hisFull : s.isFull key = true) :
    Ends (.remoteLoadArrival k) s fun t =>
      (∃ j ∈ t.net, j.dst = .hart i.src ∧ j.body = .response 0 a false { value := BitVec.ofNat 64 (s.num key 8), data := [] } i.ord) ∧
        t.mem = s.mem ∧ t.full = s.full ∧ t.threads = u.threads := by
  have hnum : u.num key 8 = s.num key 8 := by rw [State.num, State.bytes, hmem]; rfl
  have hfull' : u.isFull key = true := by rw [State.isFull, hfull]; exact hisFull
  obtain ⟨y, hy, hexec⟩ : ∃ y, Noticed (u.dropItem i.ord) y ∧ exec (.remoteLoadArrival k) s =
      .next (y.respond i 0 a false { value := BitVec.ofNat 64 (s.num key 8), data := [] } false) := by
    have hstage' : (i.stage == Stage.held 0) = false := by rw [hstage]; rfl
    refine ⟨match s.homePlace i.part a with | .site x => (u.dropItem i.ord).log x 1 [] (some i) 80 | _ => u.dropItem i.ord, ?_, ?_⟩
    · split
      · exact Noticed.log _ _ _ _ _ _
      · exact Noticed.refl _
    · show execRemoteLoadArrival k s = _
      simp only [execRemoteLoadArrival, nth, hnet, hbody, retArrival_due hstage hinj, State.offerRet, RetOp.addr, hdoor, RetOp.wkind,
        hres, State.readsAt, hpois, State.performAt, hfull', hnum, if_true, Option.isSome_none, Bool.false_and, Bool.false_eq_true, if_false,
        RetOp.ownAtomic, hstage', Bool.and_false] <;> rfl
  refine ⟨_, hexec, ⟨_, List.mem_append_right _ (List.mem_singleton.mpr rfl), rfl, rfl⟩, hy.mem.trans hmem, ?_, hy.threads⟩
  obtain ⟨⟨_, _, _, h⟩, -⟩ := hy
  subst h
  exact hfull

end

/-! ### Responses (R218-R220) -/

/-- Logging a response changes the tile's log alone. -/
theorem logResponse_noticed (s : State) (site : Nat) (i : Item) (cause : Nat) (r : Resp) : Noticed s (s.logResponse site i cause r) := by
  have hfold {α : Type} (f : State → α → State) (hf : ∀ s a, Noticed s (f s a)) (l : List α) : ∀ s, Noticed s (l.foldl f s) := by
    induction l with
    | nil => exact Noticed.refl
    | cons a l ih => exact fun s => (hf s a).trans (ih _)
  unfold State.logResponse
  split
  · exact Noticed.log _ _ _ _ _ _
  · exact hfold _ (fun _ _ => Noticed.log _ _ _ _ _ _) _ _

section
variable {s : State} {k a h req : Nat} {i : Item} {wr : Bool} {r : Resp} (hnet : s.net[k]? = some i) (hstage : i.stage = .waiting)
  (hdst : i.dst = .hart h) (hh : h < peerSites * 32) (htakes : (s.tile (siteOf h)).takesResponse = true)
  (hstatus : (s.thread h).status = .blocked .response) (hreq : (s.thread h).req = req + 1)
include hnet hstage hdst hh htakes hstatus hreq

/-- A response comes to the thread that waits for it. -/
theorem responseArrival_answers {cause : Nat} (hbody : i.body = .response cause a wr r req) : ∃ u, Noticed (s.dropItem i.ord) u ∧
    exec (.responseArrival k) s = .next (if cause = 0 then u.setThread h ((s.thread h).resume r)
      else if cause = 8 then u.setThread h ((s.thread h).park a wr) else u.raiseAt h cause (BitVec.ofNat 64 a)) := by
  have hthread : (s.dropItem i.ord).thread h = s.thread h := rfl
  refine ⟨_, logResponse_noticed (s.dropItem i.ord) (siteOf h) i cause r, ?_⟩
  show execResponseArrival k s = _
  simp only [execResponseArrival, nth, hnet, hbody, hdst, if_neg (Nat.not_le.mpr hh), hstage, htakes, State.answer, hthread, hstatus, hreq]
  simp

/-- The data of a response resumes its thread (R218). -/
theorem responseArrival_resumes (hbody : i.body = .response 0 a wr r req) : Ends (.responseArrival k) s fun t =>
    t.thread h = (s.thread h).resume r ∧ t.mem = s.mem ∧ t.cores = s.cores ∧ ∀ j, j ≠ h → t.thread j = s.thread j := by
  obtain ⟨u, hu, hexec⟩ := responseArrival_answers hnet hstage hdst hh htakes hstatus hreq hbody
  rw [if_pos rfl] at hexec
  refine ⟨_, hexec, State.thread_setThread_self _ _ _, hu.mem, hu.cores, fun j hj => ?_⟩
  rw [State.thread_setThread_ne _ _ hj]
  exact hu.thread j

/-- A missing page parks its thread (R219). -/
theorem responseArrival_parks (hbody : i.body = .response 8 a wr r req) : Ends (.responseArrival k) s fun t =>
    (t.thread h).status = .parked ∧ (t.thread h).haddr = BitVec.ofNat 64 (a % 2 ^ 56) ∧
      (t.thread h).pc = (s.thread h).pc ∧ (t.thread h).x = (s.thread h).x := by
  obtain ⟨u, hu, hexec⟩ := responseArrival_answers hnet hstage hdst hh htakes hstatus hreq hbody
  rw [if_neg (by decide), if_pos rfl] at hexec
  refine ⟨_, hexec, ?_⟩
  simp only [State.thread_setThread_self]
  exact ⟨rfl, rfl, rfl, rfl⟩

end

/-! ### Faults and wakes (R186, R187) -/

/-- An event record changes no partition but its ring and its count. -/
theorem record_faults (s : State) (p : Nat) (b : List Byte) (q : Nat) : ((s.record p b).part q).faults = (s.part q).faults := by
  choose r' mem dirty poison outs _ h using ringWrite_frame s
  have hset (u : State) (x : Partition) (hu : u.parts = s.parts) (hx : x.faults = (s.part p).faults) :
      ((u.setPart p x).part q).faults = (s.part q).faults := by
    rw [State.part_setPart]
    split
    · next hq => rw [hx, hq]
    · rw [State.part, hu]
      rfl
  unfold State.record
  rw [funext₂ h]
  split
  · cases s.ring0 <;> rfl
  · cases (s.part p).ring with
    | some r =>
      dsimp only
      generalize b ++ bytesOf 8 ((s.part p).evSeq + 1) = c
      exact hset { s with mem := mem r c, dirty := dirty r c, poison := poison r c, outs := outs r c } _ rfl rfl
    | none => exact hset s _ rfl rfl

/-- An error report leaves the fault entries of every partition. -/
theorem report_faults (s : State) (site : Nat) (r : Report) (q : Nat) : ((s.report site r).part q).faults = (s.part q).faults := by
  obtain ⟨tiles, homes, hsent⟩ := countSent_frame s site r.job 1
  unfold State.report
  rw [hsent]
  extract_lets u core
  clear_value core
  cases core with
  | some c => rfl
  | none =>
    obtain ⟨_, _, hrecv⟩ := countRecv_frame (u.record5 r.part r.cause r.job r.mid) site r.job 1
    have hu : (u.part q).faults = (s.part q).faults := rfl
    have hrec : ((u.record5 r.part r.cause r.job r.mid).part q).faults = (u.part q).faults := by
      rw [State.record5, record_faults]
    rw [hrecv, ← hu, ← hrec]
    generalize u.record5 r.part r.cause r.job r.mid = v
    rfl

theorem report_threads (s : State) (site : Nat) (r : Report) : (s.report site r).threads = s.threads := by
  obtain ⟨_, _, _, _, _, _, _, _, _, _, _, _, h⟩ := report_frame s site r
  rw [h]

section
variable {s u : State} {k page h : Nat} {i : Item}

/-- FAULT_MESSAGE climbs towards the root, and makes an entry there if its page has none (R186). -/
theorem faultMessage_climbs (hnet : s.net[k]? = some i) (hbody : i.body = .fault page h none)
    (hnone : ((s.part i.part).faults.find? fun e => e.page == pageOf page) = none) :
    let root := ((s.ctlTiles i.part).head?.map (·.2)).getD 0
    let start := entrySite (siteOf i.src)
    let up := s.climb i.part (pageOf page) ((wayTo start root).filter (· != root)) start
    (up = none → Ends (.faultMessage k) s fun t => t = s) ∧
    (up = some (false, u) → Ends (.faultMessage k) s fun t => t = u.dropItem i.ord) ∧
    (up = some (true, u) → (s.part i.part).assist = 0 → (s.part i.part).wakes.any (fun x => x.1 == pageOf page) = false →
      Ends (.faultMessage k) s fun t => t.threads = s.threads ∧
        (t.part i.part).faults.map (·.page) = (s.part i.part).faults.map (·.page) ++ [pageOf page]) := by
  intro root start up
  have hspec {top : Bool} (hup : up = some (top, u)) := climb_spec s i.part (pageOf page) _ _ hup
  have hpart {top : Bool} (hup : up = some (top, u)) : ∃ r, (u.dropItem i.ord).part i.part = { s.part i.part with routers := r } := by
    obtain ⟨-, -, -, -, hr, -⟩ := hspec hup
    exact hr
  refine ⟨fun hup => ⟨s, ?_, rfl⟩, fun hup => ⟨_, ?_, rfl⟩, fun hup hassist hwakes => ?_⟩
  · show execFaultMessage k s = _
    simp only [execFaultMessage, nth, hnet, hbody]
    rw [show s.climb i.part (pageOf page) _ _ = none from hup]
  · obtain ⟨r, hr⟩ := hpart hup
    show execFaultMessage k s = _
    simp only [execFaultMessage, nth, hnet, hbody]
    rw [show s.climb i.part (pageOf page) _ _ = some (false, u) from hup]
    simp only [Bool.false_and, Bool.false_eq_true, if_false, hr, hnone, Bool.not_false, if_true]
  · obtain ⟨r, hr⟩ := hpart hup
    obtain ⟨-, hthreads, -⟩ := hspec hup
    have hheld : ({ s.part i.part with routers := r } : Partition).assisted 2 = false := by
      rw [Partition.assisted]
      show (s.part i.part).assist.testBit 2 = false
      rw [hassist]
      rfl
    have hexec : ∃ f e, e.page = pageOf page ∧ exec (.faultMessage k) s = .next (((u.dropItem i.ord).setPart i.part
        { s.part i.part with routers := r, faults := (s.part i.part).faults ++ [e] }).faultReport i.part (pageOf page) f) := by
      obtain ⟨f, hf⟩ : ∃ f : Faulter, f = { job := h, mid := i.mid, srank := i.srank, chan := i.chan } := ⟨_, rfl⟩
      refine ⟨f, { page := pageOf page, jobs := [f], harts := [], token := none }, rfl, ?_⟩
      subst hf
      show execFaultMessage k s = _
      simp only [execFaultMessage, nth, hnet, hbody]
      rw [show s.climb i.part (pageOf page) _ _ = some (true, u) from hup]
      simp only [Bool.true_and, hwakes, Bool.false_eq_true, if_false, hr, hnone, Bool.not_true, hheld]
      rfl
    obtain ⟨f, e, he, hexec⟩ := hexec
    refine ⟨_, hexec, ?_, ?_⟩
    · exact (report_threads _ _ _).trans hthreads
    · rw [State.faultReport, report_faults, State.part_setPart_self, List.map_append, List.map_singleton, he]

end

theorem foldl_tiles {α : Type} {f : State → α → State} (hf : ∀ s a, ∃ tiles, f s a = { s with tiles := tiles }) (l : List α) (s : State) :
    ∃ tiles, l.foldl f s = { s with tiles := tiles } := by
  induction l generalizing s with
  | nil => exact ⟨s.tiles, rfl⟩
  | cons a l ih =>
    obtain ⟨_, ha⟩ := hf s a
    obtain ⟨tiles, hl⟩ := ih (f s a)
    exact ⟨tiles, hl.trans (by rw [ha])⟩

/-- The engines of a tile go on once a page is there: nothing but tiles changes. -/
theorem wakeEngines_present (s : State) (p page site : Nat) : ∃ tiles, s.wakeEngines p page site true = { s with tiles := tiles } := by
  unfold State.wakeEngines
  extract_lets t u
  have hu : ∃ tiles, u = { s with tiles := tiles } := by
    simp only [u, if_true]
    split
    · split
      · exact ⟨_, rfl⟩
      · exact ⟨s.tiles, rfl⟩
    · exact ⟨s.tiles, rfl⟩
  clear_value u
  obtain ⟨_, rfl⟩ := hu
  refine (foldl_tiles (fun v c => ?_) _ _).imp fun tiles h => h
  simp only [if_true]
  split
  · split
    · exact ⟨_, rfl⟩
    · exact ⟨v.tiles, rfl⟩
  · exact ⟨v.tiles, rfl⟩

/-- Whether an item waits at a home for a page behind an item that a wake comes to. -/
def followsOne (net : List Item) (mine : Item → Bool) (i : Item) : Bool :=
  i.atPage && net.any fun j => mine j && j.src == i.src && j.target == i.target && j.ord < i.ord

theorem woken_net (mine : Item → Bool) (net : List Item) :
    (net.map fun i => if (i.atPage && (net.filter mine).any fun j => j.src == i.src && j.target == i.target && j.ord < i.ord) && !mine i ||
      true && mine i then { i with stage := Stage.waiting } else i) =
    net.map fun i => if mine i || followsOne net mine i then { i with stage := Stage.waiting } else i := by
  refine List.map_congr_left fun i _ => ?_
  have hfollows : (i.atPage && (net.filter mine).any fun j => j.src == i.src && j.target == i.target && j.ord < i.ord) =
      followsOne net mine i := by
    simp only [followsOne, List.any_filter, Bool.and_assoc]
  rw [hfollows]
  cases mine i <;> cases followsOne net mine i <;> rfl

/-- What waits for a page is tried again, with what waits behind it (R187, R221). -/
theorem wake_present (s : State) (p page : Nat) (hwakes : (s.part p).wakes.contains (page, true) = true) :
    Ends (.wake p page true) s fun t => t.mem = s.mem ∧ t.threads = s.threads ∧
      (t.part p).routers = (s.part p).routers.filter (fun e => e.page != page) ∧
      t.net = s.net.map fun i => if s.wakes p page i || followsOne s.net (s.wakes p page) i then { i with stage := .waiting } else i := by
  have hexec : exec (.wake p page true) s = execWake p page true s := rfl
  rw [Ends, hexec, execWake, if_neg (by rw [hwakes]; decide)]
  extract_lets u1 mine engines hit follows u2 u3 u4 last
  have h1 : (u1.part p).routers = (s.part p).routers.filter fun e => e.page != page :=
    congrArg Partition.routers (State.part_setPart_self s p _)
  have hnet2 : u2.net = s.net.map fun i => if s.wakes p page i || followsOne s.net (s.wakes p page) i then { i with stage := .waiting } else i :=
    woken_net (s.wakes p page) s.net
  have h2 : u2.mem = s.mem ∧ u2.threads = s.threads ∧ (u2.part p).routers = (s.part p).routers.filter (fun e => e.page != page) ∧
      u2.net = s.net.map fun i => if s.wakes p page i || followsOne s.net (s.wakes p page) i then { i with stage := .waiting } else i :=
    ⟨rfl, rfl, h1, hnet2⟩
  have h3 : u3 = u2 := if_pos rfl
  have h5 : last.routers = (u4.part p).routers := rfl
  clear_value last
  clear hnet2
  clear_value u2
  have h4 : ∃ tiles, u4 = { u2 with tiles := tiles } := by
    simp only [u4, h3]
    clear_value u3
    split
    · exact foldl_tiles (f := fun (v : State) (t : Nat × Tile) => v.wakeEngines p page t.1 true)
        (fun v t => wakeEngines_present v p page t.1) u2.tiles u2
    · exact ⟨u2.tiles, rfl⟩
  clear_value u4
  obtain ⟨tiles, rfl⟩ := h4
  obtain ⟨hmem, hthreads, hrouters, hnet⟩ := h2
  split
  · split
    · rw [if_pos rfl]
      exact ⟨_, rfl, hmem, hthreads, (congrArg Partition.routers (State.part_setPart_self _ p _)).trans (h5.trans hrouters), hnet⟩
    · exact ⟨_, rfl, hmem, hthreads, hrouters, hnet⟩
  · exact ⟨_, rfl, hmem, hthreads, hrouters, hnet⟩

/-- Settles O40. -/
theorem homeAccessResults : Obligations.HomeAccessResults := by
  refine ⟨fun s u k a key w v c page bs op i wr r req h => ?_, resolve_modes, wake_present, translate_spec, fun s va e lo site =>
    ⟨leafOk_hbm s va e lo, leafOk_tile s site va e lo⟩⟩
  intro home answer hnet hstage
  exact ⟨fun hinj hdoor hw => ⟨remoteStoreArrival_writes hnet hstage hinj hdoor hw, remoteAtomicPerform_answers hnet hstage hinj hdoor hw,
      remoteLoadArrival_answers hnet hstage hinj hdoor⟩,
    fun hbody hdst hh htakes hstatus hreq => responseArrival_resumes hnet hstage hdst hh htakes hstatus hreq hbody,
    fun hbody hdst hh htakes hstatus hreq => responseArrival_parks hnet hstage hdst hh htakes hstatus hreq hbody,
    faultMessage_climbs hnet⟩

end Sys2Proof.Machine
end

section
/-!
PROOFS. The core scheduler, stealing, budgets, pre-emption, scan slices, the termination wave and the quantum end
(spec/06_scheduler.md R115-R133, spec/02_bringup.md R38).
-/

namespace Sys2Proof.Machine

/-! ### Filling a slot (R115, R133) -/

/-- One core has changed to `c`, and nothing else. -/
def OnlyCore (s t : State) (key : Nat) (c : Core) : Prop :=
  { t with cores := s.cores } = s ∧ t.core key = c ∧ ∀ x, x ≠ key → t.core x = s.core x

theorem onlyCore_setCore (s : State) (key : Nat) (c : Core) : OnlyCore s (s.setCore key c) key c :=
  ⟨rfl, State.core_setCore_self s key c, fun _ hx => State.core_setCore_ne s c hx⟩

/-- The note of a start changes the log alone. -/
theorem logStart_noticed (s : State) (h : Nat) : Noticed s (s.logStart h) := by
  rw [State.logStart]
  split
  · exact Noticed.refl s
  · exact Noticed.log _ _ _ _ _ _

/-- The thread on which the activation of a message starts, where the message carries no code. -/
theorem startMsg_plain (s : State) (h : Nat) {m : Msg} (hd : Handler) (hk : m.hdr.kind ≠ 1) : ∃ a msrc mchan mseq, a.entry = hd.haddr ∧
    a.mid = m.mid ∧ s.startMsg h m hd = s.setThread h ((s.thread h).begin a msrc mchan mseq m.payload) := by
  have hcarried : (m.hdr.kind == 1) = false := by simpa using hk
  simp only [State.startMsg, hcarried, Bool.false_eq_true, if_false]
  exact ⟨_, _, _, _, rfl, rfl, rfl⟩

section
variable {s : State} {site n h ch : Nat} {m : Msg}

/-- SLOT_FILL starts the head of the next channel on the lowest free slot. -/
theorem slotFill_starts (hfill : s.mayFill (site * 4 + n) = true) (hreplay : (s.tile site).replaying = false)
    (hdet : s.det ((s.partOfSite site).getD 0) = false) (hfree : s.freeSlot (site * 4 + n) = some h)
    (hnext : (s.core (site * 4 + n)).nextChannel = some ch) (hhead : ((s.core (site * 4 + n)).chan ch).head = some m) (hk : m.hdr.kind ≠ 1) :
    Ends (.slotFill site n) s fun t =>
      (t.thread h).status = .running ∧ (t.thread h).priv = .U ∧ (t.thread h).pc = ((s.core (site * 4 + n)).handler ch).haddr ∧
        (∀ r : Fin 32, (t.thread h).x[r] = if 10 ≤ r.val ∧ r.val < 18 then vget 0 m.payload (r.val - 10) else 0) ∧
        (t.thread h).hmsgid = m.mid ∧ (t.thread h).vl = 128 ∧ (t.thread h).lpcount = 0 ∧
        (t.thread h).seq = (s.thread h).seq ∧ t.mem = s.mem ∧ ∀ x, x ≠ h → t.thread x = s.thread x := by
  let key := site * 4 + n
  let u := s.setCore key ((s.core key).takeHead ch m)
  obtain ⟨a, msrc, mchan, mseq, hentry, hmid, hstart⟩ := startMsg_plain u h ((s.core key).handler ch) hk
  have hlog := logStart_noticed (u.setThread h ((u.thread h).begin a msrc mchan mseq m.payload)) h
  have hexec : exec (.slotFill site n) s = .next (s.fillCore key) := by
    show execSlotFill site n s = _
    simp only [execSlotFill, hfill, hreplay, hdet, key]
    rfl
  have hcore : s.fillCore key = ((u.startMsg h m ((s.core key).handler ch)).logStart h).setCore key
      { ((u.startMsg h m ((s.core key).handler ch)).logStart h).core key with scanRest := false } := by
    simp only [State.fillCore, key, hfree, State.fillThread, hnext, hhead] <;> rfl
  rw [hcore, hstart] at hexec
  have hthread : ((u.setThread h ((u.thread h).begin a msrc mchan mseq m.payload)).logStart h).thread h =
      (s.thread h).begin a msrc mchan mseq m.payload := by
    rw [hlog.thread, State.thread_setThread_self]
    rfl
  generalize (u.setThread h ((u.thread h).begin a msrc mchan mseq m.payload)).logStart h = v at hexec hlog hthread
  refine ⟨_, hexec, ?_⟩
  have ht : (v.setCore key { v.core key with scanRest := false }).thread h = (s.thread h).begin a msrc mchan mseq m.payload := hthread
  refine ⟨?_, ?_, ?_, fun r => ?_, ?_, ?_, ?_, ?_, hlog.mem, fun x hx => ?_⟩
  · rw [ht]; rfl
  · rw [ht]; rfl
  · rw [ht]; exact hentry
  · rw [ht]
    simp [Thread.begin]
  · rw [ht]; exact hmid
  · rw [ht]; rfl
  · rw [ht]; rfl
  · rw [ht]; rfl
  · exact (hlog.thread x).trans (State.thread_setThread_ne u _ hx)

end

/-! ### Stealing (R117) -/

section
variable {s : State} {k h p key site : Nat} {i : Item} {f : Frame}

/-- What a victim that is not pre-empted gives is its oldest frame; it notes the gift. -/
theorem grant_oldest {rest : List Frame} (hdeque : (s.core key).deque = f :: rest) (hpre : (s.core key).preempt = false) :
    ∃ u, Noticed s u ∧ s.grant key = (some f, u.setCore key { s.core key with deque := rest }) := by
  refine ⟨s.log (key / 4) 11 [1, BitVec.ofNat 64 (key % 4)] (some (s.coreItem key (.core (s.logCore key)) (.frame f 0))) 0,
    Noticed.log _ _ _ _ _ _, ?_⟩
  simp only [State.grant, hdeque, hpre, Bool.false_eq_true, if_false]

/-- STEAL_REQUEST at a victim with a frame: the oldest goes to the thief. -/
theorem stealRequest_grants {rest : List Frame} (hnet : s.net[k]? = some i) (hstage : i.stage = .waiting) (hbody : i.body = .stealReq h)
    (hdst : i.dst = .core p) (hkey : s.coreKey i.part p = some key) (hsite : key / 4 = site) (hworks : (s.tile site).works = true)
    (hreplay : (s.tile site).replaying = false) (hdeque : (s.core key).deque = f :: rest) (hpre : (s.core key).preempt = false) :
    Ends (.stealRequest k) s fun t => t.cores = SMap.put s.cores key { s.core key with deque := rest } ∧ t.mem = s.mem ∧
      t.threads = s.threads ∧ ∃ x ∈ t.net, x.body = .stealAns (some f) ∧ x.dst = .core h := by
  subst hsite
  obtain ⟨u, hu, hgrant⟩ : ∃ u, Noticed (s.dropItem i.ord) u ∧
      (s.dropItem i.ord).grant key = (some f, u.setCore key { s.core key with deque := rest }) := grant_oldest hdeque hpre
  obtain ⟨v, hcount, hcores, hmem, hthreads⟩ : ∃ v, (u.setCore key { s.core key with deque := rest }).countSent (key / 4) f.job 1 = v ∧
      v.cores = SMap.put s.cores key { s.core key with deque := rest } ∧ v.mem = s.mem ∧ v.threads = s.threads := by
    obtain ⟨tiles, homes, hcount⟩ := countSent_frame (u.setCore key { s.core key with deque := rest }) (key / 4) f.job 1
    have hput (c : Core) : SMap.put u.cores key c = SMap.put s.cores key c := by rw [hu.cores]; rfl
    exact ⟨_, hcount, hput _, hu.mem, hu.threads⟩
  have hexec : exec (.stealRequest k) s = .next (v.emit { v.coreItem key (.core h) (.stealAns (some f)) with part := i.part }) := by
    show execStealRequest k s = _
    simp only [execStealRequest, nth, hnet, hbody, hdst, hstage, hkey, hworks, hreplay, hgrant, hcount]
    rfl
  exact ⟨_, hexec, hcores, hmem, hthreads, _, List.mem_append_right _ (List.mem_singleton.mpr rfl), rfl, rfl⟩

/-- STEAL_ANSWER with a frame: it joins the thief's deque. -/
theorem stealAnswer_joins (hnet : s.net[k]? = some i) (hstage : i.stage = .waiting) (hbody : i.body = .stealAns (some f))
    (hdst : i.dst = .core p) (hkey : s.coreKey i.part p = some key) (hsite : key / 4 = site) (hworks : (s.tile site).works = true)
    (hreplay : (s.tile site).replaying = false) :
    let core := s.core key
    let place := (core.frameAt key core.frameSlot).bind fun a => s.localKey (key / 4) a 80
    Ends (.stealAnswer k) s fun t =>
      t.cores = SMap.put s.cores key { core with deque := core.deque ++ [{ f with slot := core.frameSlot }], steal := none } ∧
        (place = none → t.mem = s.mem) ∧ (∀ q, place = some q → MemWf s → Stored s t q f.bytes) ∧ t.threads = s.threads ∧
        t.net = s.net.filter fun x => x.ord != i.ord := by
  intro core place
  subst hsite
  have hexec : exec (.stealAnswer k) s = .next ((s.dropItem i.ord).stolen key f) := by
    show execStealAnswer k s = _
    simp only [execStealAnswer, nth, hnet, hbody, hdst, hstage, hkey, hworks, hreplay]
    rfl
  obtain ⟨u, hu, hstolen⟩ : ∃ u, Noticed (s.dropItem i.ord) u ∧ (s.dropItem i.ord).stolen key f =
      (u.pushFrame key f).setCore key { (u.pushFrame key f).core key with steal := none } :=
    ⟨_, (Noticed.countRecv _ _ _ _).trans (Noticed.log _ _ _ _ _ _), rfl⟩
  obtain ⟨mem, dirty, poison, hpush, hnone, hsome⟩ := pushFrame_queue u key f
  simp only [hu.core, hu.localKey] at hnone hsome
  rw [hstolen, hpush] at hexec
  have hsteal (c : Core) : SMap.put (SMap.put u.cores key c) key { SMap.get Core.init (SMap.put u.cores key c) key with steal := none } =
      SMap.put s.cores key { c with steal := none } := by
    rw [SMap.put_put, SMap.get_put_self, hu.cores]
    rfl
  have hcore : u.core key = s.core key := hu.core key
  refine ⟨_, hexec, (hsteal _).trans ?_, fun h => (hnone h).trans hu.mem,
    fun q h hw => stored_write hw ((hsome q h).trans (congrArg (Memory.writeN · q f.bytes) hu.mem)), hu.threads, hu.net⟩
  rw [hcore]

/-- STEAL_SWEEP_WAIT of a core that fills no slots. -/
theorem stealSweepWait_ends {n : Nat} {sw : Steal} (hsteal : (s.core (site * 4 + n)).steal = some sw) (hpause : sw.pausing = true)
    (hfill : s.mayFill (site * 4 + n) = false) :
    Ends (.stealSweepWait site n) s fun t => OnlyCore s t (site * 4 + n) { s.core (site * 4 + n) with steal := none } := by
  have hfill' : (s.setCore (site * 4 + n) { s.core (site * 4 + n) with steal := none }).mayFill (site * 4 + n) = false := by
    rw [← hfill]
    simp only [State.mayFill, State.scanHolds, State.scanUrgent, State.slicesOf, State.scanIndex, State.core_setCore_self] <;> rfl
  refine ⟨_, ?_, onlyCore_setCore s _ _⟩
  show execStealSweepWait site n s = _
  simp only [execStealSweepWait, hsteal, hpause, if_true, State.mayAsk, hfill', Bool.false_and, Bool.false_eq_true, if_false]

end

/-! ### Budget and pre-emption (R120, R122, R126) -/

theorem spentSpawn_thread (s : State) {h x : Nat} (hx : x ≠ h) : (s.spentSpawn h).thread x = s.thread x := by
  unfold State.spentSpawn
  split
  · exact State.thread_setThread_ne s _ hx
  · rfl

theorem closedFor_thread_ne (s : State) {h x : Nat} (act : Activation) (hx : x ≠ h) : (s.closedFor h act).thread x = s.thread x := by
  have hthread : (s.closedFor h act).thread x = ((s.spentSpawn h).freeThread h).thread x := by
    rw [State.closedFor]
    generalize s.spentSpawn h = u
    cases act.origin <;> rfl
  rw [hthread, ← spentSpawn_thread s hx]
  exact State.thread_setThread_ne _ _ hx

section
variable {s : State} {site n h : Nat}

/-- BUDGET_OVERRUN of an activation that has used its budget up: the slot is free again. -/
theorem budgetOverrun_aborts {a : Activation} (hact : (s.thread h).act = some a) (hpriv : (s.thread h).priv = .U)
    (hstatus : (s.thread h).status ≠ .parked) (hbudget : (s.thread h).budget = 0) (hworks : (s.tile (siteOf h)).works = true) :
    Ends (.budgetOverrun h) s fun t =>
      (t.thread h).act = none ∧ (t.thread h).status = .free ∧ ∀ x, x ≠ h → t.thread x = s.thread x := by
  have hover : (s.thread h).overdue = true := by
    simp [Thread.overdue, hact, hpriv, hstatus, hbudget]
  have hexec : exec (.budgetOverrun h) s = .next (s.abort h 4 0) := by
    show execBudgetOverrun h s = _
    simp only [execBudgetOverrun, hover, hworks, Bool.and_self, if_true]
  obtain ⟨net, site, r, habort⟩ := abort_some 4 0 hact
  obtain ⟨_, _, _, _, _, _, _, _, _, _, _, -, hframe⟩ := report_frame { s.closedFor h a with net := net } site r
  have hthreads (x : Nat) : (s.abort h 4 0).thread x = (s.closedFor h a).thread x := by
    rw [habort, hframe]; rfl
  obtain ⟨hnone, hfree, -⟩ := closedFor_thread s h a
  exact ⟨_, hexec, hthreads h ▸ hnone, hthreads h ▸ hfree, fun x hx => (hthreads x).trans (closedFor_thread_ne s a hx)⟩

/-- PREEMPTION_REQUEST, taken at once or at the next quantum end. -/
theorem preemptionRequest_ends (site n : Nat) (s : State) : Ends (.preemptionRequest site n) s fun t =>
    OnlyCore s t (site * 4 + n) (if s.det ((s.partOfSite site).getD 0) then { s.core (site * 4 + n) with preReq := true }
      else { s.core (site * 4 + n) with preempt := true }) := by
  have hexec : exec (.preemptionRequest site n) s = execPreemptionRequest site n s := rfl
  by_cases hdet : s.det ((s.partOfSite site).getD 0) = true
  · exact ⟨_, hexec.trans (if_pos hdet), by simp only [hdet, if_true]; exact onlyCore_setCore s _ _⟩
  · exact ⟨_, hexec.trans (if_neg hdet), by simp only [hdet]; exact onlyCore_setCore s _ _⟩

/-- PREEMPTION_COMPLETE of a core whose threads are free or parked. -/
theorem preemptionComplete_ends (hdet : s.det ((s.partOfSite site).getD 0) = false) (hpre : (s.core (site * 4 + n)).preempt = true)
    (hreplay : (s.tile ((site * 4 + n) / 4)).replaying = false) (hawait : (s.tile ((site * 4 + n) / 4)).awaits = false)
    (hstill : ∀ x < 8, (s.thread ((site * 4 + n) * 8 + x)).status = .free ∨ (s.thread ((site * 4 + n) * 8 + x)).status = .parked) :
    Ends (.preemptionComplete site n) s fun t => OnlyCore s t (site * 4 + n) { s.core (site * 4 + n) with preempted := true } := by
  have hdone : s.preemptDone (site * 4 + n) = true := by
    simpa [State.preemptDone, hpre, hreplay, hawait] using hstill
  refine ⟨_, ?_, onlyCore_setCore s _ _⟩
  show execPreemptionComplete site n s = _
  simp only [execPreemptionComplete, hdone, hdet, Bool.not_false, Bool.and_self, if_true]

/-! ### Scan self-tests (R38, R39, R388) -/

/-- SCAN_SLICE that passes short of the 64th, or where no test was asked for. -/
theorem scanSlice_passes (hdue : s.sliceDue (site * 4 + n) = true)
    (hless : s.slicesOf (site * 4 + n) + 1 ≠ 64 ∨ (s.core (site * 4 + n)).scanAsked = false) :
    Ends (.scanSlice site n true) s fun t => OnlyCore s t (site * 4 + n) { s.core (site * 4 + n) with
      slices := s.slicesOf (site * 4 + n) + 1, scanIv := s.scanIndex (site * 4 + n), scanDue := false
      scanRest := s.scanUrgent (site * 4 + n) } := by
  have hpass : s.passSlice (site * 4 + n) = { s.core (site * 4 + n) with
      slices := s.slicesOf (site * 4 + n) + 1, scanIv := s.scanIndex (site * 4 + n), scanDue := false
      scanRest := s.scanUrgent (site * 4 + n) } := by
    rw [State.passSlice]
    exact if_neg (by simpa [Decidable.imp_iff_not_or] using hless)
  refine ⟨_, ?_, onlyCore_setCore s _ _⟩
  show execScanSlice site n true s = _
  simp only [execScanSlice, hdue, hpass, State.core_setCore_self, Bool.not_true, Bool.and_not_self, Bool.false_eq_true, if_true, if_false]

/-- SCAN_SLICE that completes a test that was asked for: the tile's log notes it. -/
theorem scanSlice_completes (hdue : s.sliceDue (site * 4 + n) = true) (hlast : s.slicesOf (site * 4 + n) + 1 = 64)
    (hasked : (s.core (site * 4 + n)).scanAsked = true) :
    Ends (.scanSlice site n true) s fun t => { t with cores := s.cores, tiles := s.tiles, firnMem := s.firnMem } = s ∧
      t.core (site * 4 + n) = { s.core (site * 4 + n) with
        slices := 0, scanIv := 0, scanFrom := s.scanNow (site * 4 + n), scanDue := false, scanAsked := false, scanRest := false } ∧
      (∀ x, x ≠ site * 4 + n → t.core x = s.core x) ∧ ∀ x, x ≠ site → t.tile x = s.tile x := by
  have hpass : s.passSlice (site * 4 + n) = { s.core (site * 4 + n) with
      slices := 0, scanIv := 0, scanFrom := s.scanNow (site * 4 + n), scanDue := false, scanAsked := false, scanRest := false } := by
    rw [State.passSlice]
    exact if_pos (by simp [hlast, hasked])
  obtain ⟨u, hu, hcore, hne⟩ : ∃ u, s.setCore (site * 4 + n) (s.passSlice (site * 4 + n)) = u ∧
      u.core (site * 4 + n) = { s.core (site * 4 + n) with
        slices := 0, scanIv := 0, scanFrom := s.scanNow (site * 4 + n), scanDue := false, scanAsked := false, scanRest := false } ∧
      (∀ x, x ≠ site * 4 + n → u.core x = s.core x) :=
    ⟨_, rfl, (State.core_setCore_self s _ _).trans hpass, fun _ hx => State.core_setCore_ne s _ hx⟩
  let r : LogRec := { typ := 15, qn := 0, body := [BitVec.ofNat 64 ((site * 4 + n) % 4)], item := none, size := 0 }
  have hlog := logRec_frame u site r
  have hcores : (u.logRec site r).cores = u.cores := (congrArg State.cores hlog :)
  have hcoreOf (x : Nat) : (u.logRec site r).core x = u.core x := congrArg (fun l => SMap.get Core.init l x) hcores
  have hexec : exec (.scanSlice site n true) s = .next (u.logRec site r) := by
    show execScanSlice site n true s = _
    simp only [execScanSlice, hdue, hu, hcore, hasked, Bool.not_true, Bool.not_false, Bool.and_self, Bool.false_eq_true, if_true, if_false]
    rfl
  refine ⟨_, hexec, ?_, (hcoreOf _).trans hcore, fun x hx => (hcoreOf x).trans (hne x hx), fun x hx => ?_⟩
  · have hrest : { u with cores := s.cores } = s := by rw [← hu]; rfl
    rw [← hrest]
    exact (congrArg (fun v : State => { v with cores := s.cores }) hlog :)
  · rw [logRec_tile_ne u r hx, ← hu]
    rfl

/-- SCAN_SLICE that fails stops the tile. -/
theorem scanSlice_fails (hdue : s.sliceDue (site * 4 + n) = true) :
    Ends (.scanSlice site n false) s fun t => (t.tile site).failed = true ∧ t.mem = s.mem ∧ t.threads = s.threads ∧
      ((s.tile site).failed = false → (t.tile site).failc = 2) := by
  obtain ⟨hrest, hfailed, hcause⟩ := stopTile_frame (s.setCore (site * 4 + n) { s.core (site * 4 + n) with coreFail := true }) site 2
  refine ⟨_, ?_, hfailed, (congrArg State.mem hrest :), (congrArg State.threads hrest :), hcause⟩
  show execScanSlice site n false s = _
  simp only [execScanSlice, hdue, Bool.not_true, Bool.false_eq_true, if_false]

end

/-! ### Termination (R129-R131) -/

/-- The jobs of a partition with one's record of its last wave set. -/
def Partition.waved (p : Partition) (x : Job) (job : Nat) (w : Option (Nat × Nat)) : List Job :=
  p.jobs.map fun y => if y.num == job then { x with lastWave := w } else y

theorem find_waved {p : Partition} {j : Job} {job : Nat} (h : p.job job = some j) (w : Option (Nat × Nat)) :
    (p.waved j job w).find? (·.num == job) = some { j with lastWave := w } := by
  rw [Partition.job] at h
  have hnum := List.find?_some h
  rw [Partition.waved, List.find?_map]
  have hsame : ((fun x : Job => x.num == job) ∘ fun y => if y.num == job then { j with lastWave := w } else y) = fun y => y.num == job := by
    funext y
    simp only [Function.comp]
    split <;> simp_all
  rw [hsame, h]
  exact congrArg some (if_pos hnum)

/-- A running launch of a job that is complete is finished; other packets stay. -/
def Taken.finish (p job : Nat) (t : Taken) : Taken :=
  if t.part == p && t.job == job && t.typ == 1 && t.stage == .running then { t with stage := .finished } else t

theorem finish_names (p job : Nat) (t : Taken) : (t.finish p job).part = t.part ∧ (t.finish p job).job = t.job := by
  rw [Taken.finish]
  split <;> exact ⟨rfl, rfl⟩

theorem releaseJob_released {u : State} {p job : Nat} (h : u.jobTaken p job = false) :
    (u.releaseJob p job).mem = u.mem ∧ (u.releaseJob p job).threads = u.threads ∧ (((u.releaseJob p job).part p).job job).isNone = true := by
  have hrel : u.releaseJob p job = u.setPart p { u.part p with jobs := (u.part p).jobs.filter (·.num != job) } := by
    rw [State.releaseJob]
    exact if_neg (by simp [h])
  rw [hrel, State.part_setPart_self]
  refine ⟨rfl, rfl, ?_⟩
  simp [Partition.job]

section
variable {s : State} {p job : Nat} {j : Job}

/-- TERMINATION_WAVE of a quiet job with equal sums: the first such wave is noted, the second completes the job. -/
theorem terminationWave_quiet (hjob : (s.part p).job job = some j) (hstage : (s.part p).stage = .active)
    (hlaunch : s.launching p job = false) (htaken : s.jobTaken p job = false)
    (htiles : ((s.partTiles p).all fun b => s.quietTile b.2 job) = true) (hfloe : (s.part p).floeHolds job = false)
    (hhomes : s.homesQuiet job = true) (hsums : (s.sums p job).1 = (s.sums p job).2) :
    (j.lastWave ≠ some (s.sums p job) → Ends (.terminationWave p job) s fun t =>
      t.mem = s.mem ∧ t.threads = s.threads ∧ t.taken = s.taken ∧
        ∃ x : Job, (t.part p).job job = some x ∧ x.lastWave = some (s.sums p job)) ∧
    (j.lastWave = some (s.sums p job) → Ends (.terminationWave p job) s fun t =>
      t.mem = s.mem ∧ t.threads = s.threads ∧ ((t.part p).job job).isNone = true) := by
  have hexec : exec (.terminationWave p job) s = execTerminationWave p job s := rfl
  generalize hab : s.sums p job = ab at *
  obtain ⟨a, b⟩ := ab
  obtain rfl : a = b := hsums
  have hquiet : exec (.terminationWave p job) s =
      if j.lastWave = some (a, a) then .next ({ s.setPart p { s.part p with jobs := (s.part p).waved j job none } with
          taken := s.taken.map (Taken.finish p job) }.releaseJob p job)
      else .next (s.setPart p { s.part p with jobs := (s.part p).waved j job (some (a, a)) }) := by
    rw [hexec]
    simp only [execTerminationWave, hjob, hstage, hlaunch, htiles, hfloe, hhomes, hab, Bool.not_false, Bool.not_true, Bool.and_self, ne_eq,
      not_true_eq_false, Bool.or_false, bne_self_eq_false, Bool.false_eq_true, decide_false, if_false] <;> rfl
  constructor
  · intro hwave
    refine ⟨_, hquiet.trans (if_neg hwave), rfl, rfl, rfl, { j with lastWave := some (a, a) }, ?_, rfl⟩
    rw [State.part_setPart_self]
    exact find_waved hjob _
  · intro hwave
    have hkept : State.jobTaken { s.setPart p { s.part p with jobs := (s.part p).waved j job none } with
        taken := s.taken.map (Taken.finish p job) } p job = false := by
      rw [← htaken]
      simp only [State.jobTaken, List.any_map, Function.comp_def, finish_names]
    obtain ⟨hmem, hthreads, hnone⟩ := releaseJob_released hkept
    exact ⟨_, hquiet.trans (if_pos hwave), hmem, hthreads, hnone⟩

end

/-! ### The end of a quantum (R125, R126) -/

theorem foldl_fixed {α β : Type} {f : β → α → β} {b : β} (l : List α) (h : ∀ a ∈ l, f b a = b) : l.foldl f b = b := by
  induction l with
  | nil => rfl
  | cons a l ih =>
    rw [List.foldl_cons, h a (List.mem_cons_self ..)]
    exact ih fun x hx => h x (List.mem_cons_of_mem _ hx)

theorem foldl_keeps {α β γ : Type} (g : β → γ) {f : β → α → β} (h : ∀ b a, g (f b a) = g b) (l : List α) (b : β) :
    g (l.foldl f b) = g b := by
  induction l generalizing b with
  | nil => rfl
  | cons a l ih => exact (ih _).trans (h b a)

theorem startMsg_parts (s : State) (h : Nat) (m : Msg) (hd : Handler) : (s.startMsg h m hd).parts = s.parts := by
  simp only [State.startMsg]
  split <;> rfl

theorem fillThread_parts {s t : State} {key h : Nat} (ht : s.fillThread key h = some t) : t.parts = s.parts := by
  rw [State.fillThread] at ht
  split at ht
  · split at ht
    · next k _ m _ =>
      obtain rfl := Option.some.inj ht
      exact (logStart_noticed _ h).parts.trans (startMsg_parts _ _ _ _)
    · exact absurd ht (by simp)
  · split at ht
    · next f _ =>
      obtain rfl := Option.some.inj ht
      exact (logStart_noticed _ h).parts
    · exact absurd ht (by simp)

theorem beginSteal_parts (s : State) (key : Nat) : (s.beginSteal key).parts = s.parts := by
  rw [State.beginSteal]
  split
  · rfl
  · split
    · rfl
    · cases s.victims key <;> rfl

theorem fillSlots_parts (s : State) (key : Nat) : (s.fillSlots key).parts = s.parts := by
  rw [State.fillSlots]
  split
  · rfl
  · have hfold := foldl_keeps State.parts (f := fun (u : State) k =>
        if u.slotFree (key * 8 + k) then (u.fillThread key (key * 8 + k)).getD u else u) (fun u k => by
      split
      · cases ht : u.fillThread key (key * 8 + k) with
        | none => rfl
        | some t => exact fillThread_parts ht
      · rfl) (List.range 8) s
    dsimp only
    split
    · exact (beginSteal_parts _ key).trans hfold
    · exact hfold

theorem startTile_parts (s : State) (site : Nat) : (s.startTile site).parts = s.parts := by
  rw [State.startTile]
  dsimp only
  have hnext := foldl_keeps State.parts (f := fun (u : State) h => if u.threads.any (·.1 == h) then u.setThread h (u.thread h).nextQuantum
    else u) (fun u h => by split <;> rfl) (tileHarts site) s
  have hfill (u : State) (x : Tile) : ((tileCores site).foldl State.fillSlots (u.setTile site x)).parts = u.parts :=
    foldl_keeps State.parts fillSlots_parts (tileCores site) (u.setTile site x)
  exact (hfill _ _).trans hnext

theorem preemptCore_tiles (s : State) (key : Nat) : ∃ cores, s.preemptCore key = { s with cores := cores } := by
  have hdone (u : State) : ∃ cores, (if u.preemptDone key then u.setCore key { u.core key with preempted := true } else u) =
      { u with cores := cores } := by
    split
    · exact ⟨_, rfl⟩
    · exact ⟨u.cores, rfl⟩
  unfold State.preemptCore
  extract_lets c u
  obtain ⟨cores, hu⟩ : ∃ cores, u = { s with cores := cores } := by
    simp only [u]
    split
    · exact ⟨_, rfl⟩
    · exact ⟨s.cores, rfl⟩
  obtain ⟨cores', hd⟩ := hdone u
  exact ⟨cores', hd.trans (by rw [hu])⟩

theorem foldl_cores {α : Type} {f : State → α → State} (hf : ∀ s a, ∃ cores, f s a = { s with cores := cores }) (l : List α) (s : State) :
    ∃ cores, l.foldl f s = { s with cores := cores } := by
  induction l generalizing s with
  | nil => exact ⟨s.cores, rfl⟩
  | cons a l ih =>
    obtain ⟨_, ha⟩ := hf s a
    obtain ⟨cores, hl⟩ := ih (f s a)
    exact ⟨cores, hl.trans (by rw [ha])⟩

section
variable {s : State} {p : Nat}

theorem collected_nil (hnet : s.net = []) : s.collected p = [] := by
  rw [State.collected, hnet]
  rfl

theorem serveAll_nil (hnet : s.net = []) : s.serveAll p = s := by
  rw [State.serveAll, collected_nil hnet]
  rfl

theorem wakeWaiters_nil (hnet : s.net = []) : s.wakeWaiters = s := by
  rw [State.wakeWaiters, hnet]
  rfl

theorem serveFires_nil (hnet : s.net = []) : s.serveFires p = s := by
  rw [State.serveFires, collected_nil hnet]
  rfl

theorem serveAnswers_nil (hnet : s.net = []) : s.serveAnswers p = s := by
  rw [State.serveAnswers, collected_nil hnet]
  rfl

theorem fireAll_nil (hnet : s.net = []) (hqueues : ∀ b ∈ s.partTiles p, s.nextQueue b.2 = none) : s.fireAll p = s := by
  have hfire : ((s.partTiles p).map (·.2)).foldl (fun u t => u.fireTile t 4) s = s := by
    refine foldl_fixed _ fun t ht => ?_
    obtain ⟨b, hb, rfl⟩ := List.mem_map.mp ht
    rw [State.fireTile, hqueues b hb]
  simp only [State.fireAll, hfire, hnet]
  rfl

/-- QUANTUM_END with nothing collected and no queue or boundary due counts the quantum and starts the next. -/
theorem quantumEnd_counts (hover : s.quantumOver p = true) (hnet : s.net = []) (hqueues : ∀ b ∈ s.partTiles p, s.nextQueue b.2 = none)
    (hstages : ∀ b ∈ s.partTiles p, (s.tile b.2).stage ≠ .closing) :
    Ends (.quantumEnd p) s fun t => (t.part p).quanta = (s.part p).quanta + 1 ∧ ∀ q, q ≠ p → t.part q = s.part q := by
  let sites := (s.partTiles p).map (·.2)
  obtain ⟨cores, hpre⟩ := foldl_cores preemptCore_tiles (sites.flatMap tileCores) s
  have hbound : sites.foldl State.boundaryIf { s with cores := cores } = { s with cores := cores } := by
    refine foldl_fixed _ fun t ht => ?_
    obtain ⟨b, hb, rfl⟩ := List.mem_map.mp ht
    have hnot : State.atBoundary { s with cores := cores } b.2 = false := by
      have hstage : State.tile { s with cores := cores } b.2 = s.tile b.2 := rfl
      simp [State.atBoundary, hstage, hstages b hb]
    rw [State.boundaryIf, hnot]
    rfl
  let u := State.setPart { s with cores := cores } p { s.part p with quanta := (s.part p).quanta + 1 }
  have hexec : exec (.quantumEnd p) s = .next (sites.foldl State.startTile u) := by
    show execQuantumEnd p s = _
    simp only [execQuantumEnd, hover, serveAll_nil hnet, wakeWaiters_nil hnet, serveFires_nil hnet, fireAll_nil hnet hqueues,
      serveAnswers_nil hnet, sites, u] at *
    rw [hpre, hbound]
    rfl
  have hparts : (sites.foldl State.startTile u).parts = u.parts := foldl_keeps State.parts startTile_parts sites u
  have hpart (q : Nat) : (sites.foldl State.startTile u).part q = u.part q := congrArg (fun l => SMap.get Partition.init l q) hparts
  refine ⟨_, hexec, ?_, fun q hq => ?_⟩
  · rw [hpart, State.part_setPart_self]
  · rw [hpart]
    exact State.part_setPart_ne _ _ hq

end

/-- SELF_TEST_DEADLINE marks a core whose next slice is due, and leaves every other. -/
theorem selfTestDeadline_ends {s : State} {site n : Nat} :
    let core := s.core (site * 4 + n)
    let due := s.slicesOf (site * 4 + n) < 64 ∧
      (s.scanIndex (site * 4 + n) + 1) * s.scanSpan < s.scanNow (site * 4 + n) - core.scanFrom + 10 ^ 8 ∧ core.scanRest = false
    ((s.tile site).works = true → due → Ends (.selfTestDeadline site n) s fun t => OnlyCore s t (site * 4 + n) { core with scanDue := true }) ∧
      (¬ due → Ends (.selfTestDeadline site n) s fun t => t = s) := by
  intro core due
  have hexec : exec (.selfTestDeadline site n) s = execSelfTestDeadline site n s := rfl
  have hiff : (s.scanUrgent (site * 4 + n) && !(s.core (site * 4 + n)).scanRest) = true ↔ due := by
    simp only [State.scanUrgent, Bool.and_eq_true, decide_eq_true_eq, Bool.not_eq_true', due, core, and_assoc]
  refine ⟨fun hworks hdue => ⟨_, hexec.trans (if_pos ?_), onlyCore_setCore s _ _⟩, fun hdue => ⟨_, hexec.trans (if_neg fun h => ?_), rfl⟩⟩
  · rw [hworks, Bool.true_and]
    exact hiff.mpr hdue
  · rw [Bool.and_assoc, Bool.and_eq_true] at h
    exact hdue (hiff.mp h.2)

/-- Settles O41. -/
theorem schedulerStepResults : Obligations.SchedulerStepResults := by
  unfold Obligations.SchedulerStepResults
  refine ⟨fun s site n k ch h p job m f rest i a j sw => ?_, fun s p => quantumEnd_counts⟩
  intro key core set place due
  refine ⟨fun _ => slotFill_starts, ?_, ?_, stealSweepWait_ends, budgetOverrun_aborts, fun hdet => ⟨?_, preemptionComplete_ends hdet⟩, fun hdet => ?_,
    fun hdue => ⟨scanSlice_passes hdue, scanSlice_completes hdue, scanSlice_fails hdue⟩, selfTestDeadline_ends.1, selfTestDeadline_ends.2,
    terminationWave_quiet⟩
  · exact stealRequest_grants
  · exact stealAnswer_joins
  · have h := preemptionRequest_ends site n s
    rw [hdet] at h
    exact h
  · have h := preemptionRequest_ends site n s
    rw [hdet] at h
    exact h

end Sys2Proof.Machine
end

section
/-!
PROOFS. Checkpoint intervals, the restore of a firn copy and the rollback of a partition (spec/12_recovery.md R237-R248).
-/

namespace Sys2Proof.Machine

/-! ### Intervals and their boundary (R237, R238) -/

section
variable {s : State} {site : Nat}

theorem intervalClose_closes (hopen : (s.tile site).stage = .open_) (hchk : s.checkpoints site = true) (hdue : s.closeDue site = true) :
    Ends (.intervalClose site) s fun t => t = s.setTile site { s.tile site with stage := .closing } := by
  refine ⟨_, ?_, rfl⟩
  show execIntervalClose site s = _
  simp only [execIntervalClose, hopen, hchk, hdue, BEq.rfl, Bool.and_self, if_true]

/-- Bytes written to the firn areas change those areas alone. -/
theorem foldl_putFirn (g : (Nat × Nat) × List Byte → Nat) (l : List ((Nat × Nat) × List Byte)) (s : State) :
    ∃ firnMem, l.foldl (fun u x => u.putFirn (g x) x.2) s = { s with firnMem := firnMem } := by
  induction l generalizing s with
  | nil => exact ⟨s.firnMem, rfl⟩
  | cons a l ih => exact ih (s.putFirn (g a) a.2)

theorem putImage_frame (s : State) (site buddy ival : Nat) (g : TileImage) :
    ∃ firnMem freeCtr, s.putImage site buddy ival g = { s with firnMem := firnMem, freeCtr := freeCtr } := by
  unfold State.putImage
  generalize s.imageParts site ival g = parts
  generalize kLogArea buddy + slotAt ival = place
  dsimp only
  obtain ⟨firnMem, hfold⟩ := foldl_putFirn (fun x => place + x.1.1) (imageAreas.zip parts) { s with freeCtr := s.freeCtr + plainArea }
  rw [hfold]
  exact ⟨_, _, rfl⟩

/-- The boundary opens the next interval and keeps the image of the one before. -/
theorem boundary_spec (s : State) (site : Nat) :
    ((s.boundary site).tile site).ival = (s.tile site).ival + 1 ∧ ((s.boundary site).tile site).stage = .copying ∧
      (s.boundary site).mem = s.mem ∧ (s.boundary site).threads = s.threads ∧ (s.boundary site).cores = s.cores ∧
      ∃ (g : Firn) (r : List Firn), (s.boundary site).firns = g :: r ∧ g.ival = (s.tile site).ival := by
  unfold State.boundary
  extract_lets t p lines q u v _ img f w
  have hlog : { v with tiles := u.tiles, firnMem := u.firnMem } = u := logRec_frame u site _
  have htile := logRec_tile_self u site { typ := 9, qn := 0, body := [BitVec.ofNat 64 (t.ival + 1), 0], item := none, size := 16 }
  have hu : u.tile site = { t with
    ival := t.ival + 1, stage := .copying, closeReq := false, fullReq := false, rq := q, markQ := q, logMark := t.logHead } :=
    State.tile_setTile_self s site _
  obtain ⟨firnMem, freeCtr, hw⟩ : ∃ firnMem freeCtr, w = { v with firnMem := firnMem, freeCtr := freeCtr } := by
    simp only [w]
    cases t.buddy with
    | some b => exact putImage_frame v site b t.ival img
    | none => exact ⟨v.firnMem, v.freeCtr, rfl⟩
  have hival : (w.tile site).ival = t.ival + 1 := by
    rw [hw]
    exact (congrArg Tile.ival htile).trans (congrArg Tile.ival hu)
  have hstage : (w.tile site).stage = .copying := by
    rw [hw]
    exact (congrArg Tile.stage htile).trans (congrArg Tile.stage hu)
  refine ⟨hival, hstage, ?_, ?_, ?_, f, _, rfl, rfl⟩
  · rw [hw]; exact (congrArg State.mem hlog :)
  · rw [hw]; exact (congrArg State.threads hlog :)
  · rw [hw]; exact (congrArg State.cores hlog :)

theorem checkpointBoundary_spec (hat : s.atBoundary site = true) (hdet : s.det ((s.partOfSite site).getD 0) = false) :
    Ends (.checkpointBoundary site) s fun t =>
      (t.tile site).ival = (s.tile site).ival + 1 ∧ (t.tile site).stage = .copying ∧ t.mem = s.mem ∧ t.threads = s.threads ∧
        t.cores = s.cores ∧ ∃ (g : Firn) (r : List Firn), t.firns = g :: r ∧ g.ival = (s.tile site).ival := by
  refine ⟨_, ?_, boundary_spec s site⟩
  show execCheckpointBoundary site s = _
  simp only [execCheckpointBoundary, hat, hdet, Bool.not_false, Bool.and_self, if_true]

/-! ### The commit (R238) -/

theorem get_map {α : Type} (d : α) (f : α → α) (m : List (Nat × α)) (i : Nat) (h : m.any (·.1 == i) = true) :
    SMap.get d (m.map fun x => (x.1, f x.2)) i = f (SMap.get d m i) := by
  induction m with
  | nil => simp at h
  | cons c m ih =>
    rw [List.map_cons, SMap.get, SMap.get]
    split
    · rfl
    · next hc => exact ih (by simpa [hc] using h)

theorem any_key_put {α : Type} (m : List (Nat × α)) (i : Nat) (v : α) (j : Nat) (h : j = i ∨ m.any (·.1 == j) = true) :
    (SMap.put m i v).any (·.1 == j) = true := by
  induction m with
  | nil =>
    rcases h with rfl | h
    · simp [SMap.put]
    · simp at h
  | cons c m ih =>
    rw [List.any_cons, Bool.or_eq_true] at h
    rw [SMap.put]
    split
    · rcases h with rfl | h | h
      · simp
      · simp [h]
      · simp [h]
    · split
      · next hc =>
        rcases h with rfl | h | h
        · simp
        · simp [hc, h]
        · simp [h]
      · rw [List.any_cons, Bool.or_eq_true]
        rcases h with h | h | h
        · exact .inr (ih (.inl h))
        · exact .inl h
        · exact .inr (ih (.inr h))

theorem putArea_frame (s : State) (ward buddy ival : Nat) :
    ∃ firnMem, s.putArea ward buddy ival = { s with firnMem := firnMem } ∧ (Memory.wf s.firnMem = true → Memory.wf firnMem = true) := by
  unfold State.putArea
  split
  · exact ⟨_, rfl, Memory.wf_paste _ _ _⟩
  · exact ⟨s.firnMem, rfl, id⟩

end

theorem ofBytes_append (a b : List Byte) : ofBytes (a ++ b) = ofBytes a + 256 ^ a.length * ofBytes b := by
  induction a with
  | nil => simp [ofBytes]
  | cons x a ih =>
    simp only [List.cons_append, ofBytes, ih, List.length_cons, pow_succ]
    ring

theorem readN_take (m : List Host.Cell) (k n e : Nat) : Memory.readN m k n = (Memory.readN m k (n + e)).take n := by
  rw [readN_add, List.take_left' (Memory.readN_length m k n)]

theorem headIval_congr {s t : State} (h : t.firnMem = s.firnMem) (b : Nat) : t.headIval b = s.headIval b := by
  rw [State.headIval, State.headIval, State.firnBytes, State.firnBytes, h]

/-- The words of a header: the interval, and its low half with the mark of a commit. -/
def headWords (ival : Nat) : List Byte := bytesOf 8 ival ++ (bytesOf 4 ival ++ bytesOf 4 0x4649524E)

theorem headWords_reads (ival : Nat) (h64 : ival < 2 ^ 64) : ofBytes ((headWords ival).take 8) = ival ∧
    ofBytes ((headWords ival).drop 8) = 0x4649524E * 2 ^ 32 + ival % 2 ^ 32 := by
  constructor
  · rw [headWords, List.take_left' (bytesOf_length 8 ival), ofBytes_bytesOf, Nat.mod_eq_of_lt (by simpa using h64)]
  · rw [headWords, List.drop_left' (bytesOf_length 8 ival), ofBytes_append, ofBytes_bytesOf, ofBytes_bytesOf, bytesOf_length]
    omega

/-- A state whose firn area begins with those words at a buddy names the interval. -/
theorem headIval_of_written {s : State} {m : List Host.Cell} (buddy : Nat) {ival : Nat} (rest : List Byte)
    (hs : s.firnMem = Memory.writeN m (kLogArea buddy) (headWords ival ++ rest)) (hw : Memory.wf m = true) (h1 : 1 ≤ ival)
    (h64 : ival < 2 ^ 64) : s.headIval buddy = some ival := by
  have hlen : (headWords ival).length = 16 := by simp [headWords, bytesOf_length]
  have hhead : s.firnBytes (kLogArea buddy) 16 = headWords ival := by
    have hwhole := Memory.readN_writeN hw (kLogArea buddy) (headWords ival ++ rest)
    rw [List.length_append, hlen] at hwhole
    rw [State.firnBytes, hs, readN_take _ _ 16 rest.length, hwhole, List.take_left' hlen]
  obtain ⟨hival, hcommit⟩ := headWords_reads ival h64
  simp only [State.headIval, hhead, hival, hcommit, h1, decide_true, BEq.rfl, Bool.and_self, if_true]

theorem putHeader_frame (s : State) (ward buddy ival start : Nat) : ∃ rest,
    s.putHeader ward buddy ival start = { s with firnMem := Memory.writeN s.firnMem (kLogArea buddy) (headWords ival ++ rest) } := by
  unfold State.putHeader
  dsimp only
  generalize s.tag ward ival logAreaAt _ = tag
  refine ⟨bytesOf 8 start ++ tag, ?_⟩
  simp only [State.putFirn, headWords, List.append_assoc]

theorem release_nothing {s : State} (site ival : Nat) (h : s.egressQ = []) : s.release site ival = s := by
  simp only [State.release, h, List.filter_nil, List.foldl_nil]
  rw [← h]

/-- What the commit writes at the buddy. -/
theorem committed_frame (s : State) (buddy : Option Nat) (ward n start : Nat) :
    ∃ firnMem, (match buddy with | some b => (s.putArea ward b n).putHeader ward b n start | none => s) = { s with firnMem := firnMem } ∧
      ∀ b, buddy = some b → Memory.wf s.firnMem = true → 1 ≤ n → n < 2 ^ 64 →
        State.headIval { s with firnMem := firnMem } b = some n := by
  cases buddy with
  | none => exact ⟨s.firnMem, rfl, nofun⟩
  | some b =>
    obtain ⟨m, harea, hwf⟩ := putArea_frame s ward b n
    obtain ⟨rest, hput⟩ := putHeader_frame { s with firnMem := m } ward b n start
    dsimp only
    rw [harea, hput]
    exact ⟨_, rfl, fun c hc hw h1 h64 => Option.some.inj hc ▸ headIval_of_written b rest rfl (hwf hw) h1 h64⟩

/-- Items that are emitted one after another change the net alone. -/
theorem foldl_emit_keeps {β : Type} {P : State → Prop} (f : State → β → Item) (l : List β) (u : State)
    (h : ∀ net ordCtr, P { u with net := net, ordCtr := ordCtr }) : P (l.foldl (fun u w => u.emit (f u w)) u) := by
  induction l generalizing u with
  | nil => exact h u.net u.ordCtr
  | cons a l ih => exact ih (u.emit (f u a)) fun net ordCtr => h net ordCtr

section
variable {s : State} {site : Nat}

theorem intervalCommit_commits (hstage : (s.tile site).stage = .copying) (hchk : s.checkpoints site = true) (hnotices : (s.tile site).notices = [])
    (hegress : s.egressQ = []) (b : Nat) :
    Ends (.intervalCommit site) s fun t =>
      (t.tile site).stage = .open_ ∧ t.mem = s.mem ∧ t.threads = s.threads ∧ t.firns = s.firns ∧
        ((s.tile site).buddy = some b → Memory.wf s.firnMem = true → 2 ≤ (s.tile site).ival → (s.tile site).ival ≤ 2 ^ 64 →
          t.headIval b = some ((s.tile site).ival - 1)) := by
  have hexec : exec (.intervalCommit site) s = .next (s.commitInterval site) := by
    show execIntervalCommit site s = _
    simp only [execIntervalCommit, hstage, hchk, BEq.rfl, Bool.and_self, if_true]
  refine ⟨_, hexec, ?_⟩
  unfold State.commitInterval
  extract_lets t n log u v w
  have hn : n = (s.tile site).ival - 1 := rfl
  obtain ⟨firnMem, hu, hhead⟩ := committed_frame s t.buddy (t.rank.getD 0) n t.logMark
  replace hu : u = { s with firnMem := firnMem } := hu
  have hw : w = v := by
    show List.foldl _ v (List.filter _ (s.tile site).notices) = v
    rw [hnotices]
    rfl
  have hfield {α : Type} (f : State → α) (hf : f v = f u) (hs : f { s with firnMem := firnMem } = f s) : f v = f s := by
    rw [hf, hu, hs]
  have hnone : v.egressQ = [] := (hfield State.egressQ rfl rfl).trans hegress
  rw [hw, release_nothing site n hnone]
  refine ⟨?_, hfield State.mem rfl rfl, hfield State.threads rfl rfl, hfield State.firns rfl rfl, fun hb hw h2 h64 => ?_⟩
  · exact (congrArg Tile.stage (get_map Tile.init (fun t : Tile => { t with filter := t.filter.filter fun f => !lineOf _ n f }) _ site
      (any_key_put _ _ _ _ (.inl rfl)))).trans (congrArg Tile.stage (State.tile_setTile_self u site _))
  · have hfirn : v.firnMem = firnMem := (show v.firnMem = u.firnMem from rfl).trans (congrArg State.firnMem hu)
    exact (headIval_congr hfirn b).trans (hhead b hb hw (by omega) (by omega))

/-! ### The end of a replay (R242, R243) -/

theorem replayEnd_ends (hreplaying : (s.tile site).replaying = true) (hawaits : (s.tile site).awaits = false)
    (hreplay : (s.tile site).replay = []) (hbuddy : s.buddyWorks site = true) (hdet : s.det ((s.partOfSite site).getD 0) = false) :
    Ends (.replayEnd site) s fun t => (t.tile site).replaying = false ∧ t.mem = s.mem ∧ t.threads = s.threads ∧ t.cores = s.cores := by
  have hexec : exec (.replayEnd site) s = execReplayEnd site s := rfl
  rw [execReplayEnd] at hexec
  simp only [hreplaying, hawaits, hreplay, hbuddy, hdet, List.all_nil, Bool.not_true, Bool.false_and, Bool.or_self,
    Bool.false_eq_true, if_false] at hexec
  refine ⟨_, hexec, ?_⟩
  refine foldl_emit_keeps (P := fun t => (t.tile site).replaying = false ∧ t.mem = s.mem ∧ t.threads = s.threads ∧ t.cores = s.cores) _ _ _
    fun net ordCtr => ⟨?_, rfl, rfl, rfl⟩
  exact congrArg Tile.replaying (State.tile_setTile_self s site _)

end

end Sys2Proof.Machine
end

section
/-!
PROOFS. The restore of a firn copy and the rollback of a partition (spec/12_recovery.md R242-R248).
-/

namespace Sys2Proof.Machine

/-! ### Event records and stopped partitions (R106, R246) -/

/-- An event record of a partition changes its ring and its count of records, and no partition's presence. -/
theorem record_part (s : State) (p : Nat) (b : List Byte) (q : Nat) :
    (∃ ring evSeq, (s.record p b).part q = { s.part q with ring := ring, evSeq := evSeq }) ∧
      (s.hasPart q = true → (s.record p b).hasPart q = true) := by
  have hset (u : State) (r : Option EventRing) (n : Nat) (hu : u.parts = s.parts) :
      (∃ ring evSeq, (u.setPart p { u.part p with ring := r, evSeq := n }).part q =
        { s.part q with ring := ring, evSeq := evSeq }) ∧
        (s.hasPart q = true → (u.setPart p { u.part p with ring := r, evSeq := n }).hasPart q = true) := by
    have hpart (r : Nat) : u.part r = s.part r := congrArg (fun l => SMap.get Partition.init l r) hu
    refine ⟨?_, fun h => any_key_put _ p _ q (.inr ((congrArg (·.any (·.1 == q)) hu).trans h))⟩
    by_cases hq : q = p
    · subst hq
      exact ⟨r, n, (State.part_setPart_self _ _ _).trans (by rw [hpart])⟩
    · exact ⟨_, _, (State.part_setPart_ne _ _ hq).trans (hpart q)⟩
  obtain ⟨u, hrecord, hu⟩ : ∃ u : State, (s.record p b = u ∨ ∃ ring evSeq,
      s.record p b = u.setPart p { u.part p with ring := ring, evSeq := evSeq }) ∧ u.parts = s.parts := by
    choose r' mem dirty poison outs _ h using ringWrite_frame s
    unfold State.record
    rw [funext₂ h]
    split
    · cases s.ring0 with
      | some r => exact ⟨_, .inl rfl, rfl⟩
      | none => exact ⟨_, .inl rfl, rfl⟩
    · cases (s.part p).ring with
      | some r =>
        exact ⟨{ s with
          mem := mem r (b ++ bytesOf 8 ((s.part p).evSeq + 1)), dirty := dirty r (b ++ bytesOf 8 ((s.part p).evSeq + 1))
          poison := poison r (b ++ bytesOf 8 ((s.part p).evSeq + 1)), outs := outs r (b ++ bytesOf 8 ((s.part p).evSeq + 1)) },
          .inr ⟨_, _, rfl⟩, rfl⟩
      | none => exact ⟨s, .inr ⟨(s.part p).ring, _, rfl⟩, rfl⟩
  rcases hrecord with hrecord | ⟨ring, evSeq, hrecord⟩
  · rw [hrecord]
    exact ⟨⟨_, _, congrArg (fun l => SMap.get Partition.init l q) hu⟩, fun h => (congrArg (·.any (·.1 == q)) hu).trans h⟩
  · rw [hrecord]
    exact hset u ring evSeq hu

theorem stopPart_stops {s : State} {p : Nat} (h : s.hasPart p = true) : ((s.stopPart p).part p).stage = .stopped := by
  rw [State.stopPart, if_pos h, State.part_setPart_self]

theorem record7_stops {s : State} {p : Nat} (h : s.hasPart p = true) (obj l off : Nat) :
    (((s.record7 p obj l off).stopPart p).part p).stage = .stopped :=
  stopPart_stops ((record_part s p _ p).2 h)

/-! ### The restore of a firn copy (R242 steps 4 and 5, R246) -/

theorem rebase_log (s : State) (site at_ : Nat) : ((s.rebase site at_).tile site).log = (s.tile site).log ∧
    (s.rebase site at_).parts = s.parts := by
  rw [State.rebase]
  simp only [State.tile_setTile_self, true_and]
  rfl

/-- Loading an image keeps the site's own log. -/
theorem loadImage_log (s : State) (site : Nat) (g : TileImage) : ((s.loadImage site g).tile site).log = (s.tile site).log ∧
    (s.loadImage site g).parts = s.parts := by
  unfold State.loadImage
  generalize s.bondedPlace site = place
  obtain ⟨b, n⟩ := place
  dsimp -zeta only
  extract_lets old t i cores u v w x y
  have hcores : (x.tiles, x.parts) = (w.tiles, w.parts) := by
    refine foldl_keeps (fun u : State => (u.tiles, u.parts)) (fun _ _ => ?_) cores w
    rfl
  have hthreads : (y.tiles, y.parts) = (x.tiles, x.parts) := by
    refine foldl_keeps (fun u : State => (u.tiles, u.parts)) (fun _ _ => ?_) g.threads x
    rfl
  obtain ⟨htiles, hparts⟩ := Prod.mk.inj (hthreads.trans hcores)
  have hv : (v.tile site).log = t.log := by simp only [v, State.tile_setTile_self]
  obtain ⟨hlog, hwparts⟩ := rebase_log v site g.at_
  exact ⟨(congrArg (fun l => (SMap.get Tile.init l site).log) htiles).trans (hlog.trans hv), hparts.trans hwparts⟩

theorem holdCaps_frame (s : State) (p : Nat) (caps : List Nat) (held : Nat) : ∃ mem, s.holdCaps p caps held = { s with mem := mem } := by
  have hone (u : State) (rid : Nat) : ∃ mem, u.setHeld p rid held = { u with mem := mem } := by
    unfold State.setHeld
    exact ⟨_, rfl⟩
  unfold State.holdCaps
  induction caps generalizing s with
  | nil => exact ⟨s.mem, rfl⟩
  | cons c caps ih =>
    rw [List.foldl_cons]
    extract_lets rid
    split
    · obtain ⟨mem, hm⟩ := hone s rid
      obtain ⟨mem', h⟩ := ih (s.setHeld p rid held)
      exact ⟨mem', h.trans (by rw [hm])⟩
    · exact ih s

/-- A control tile's packets come back without a change of the tiles' own state. -/
theorem resumePackets_keeps (s : State) (site : Nat) (g : TileImage) :
    ((s.resumePackets site g).tiles, (s.resumePackets site g).parts) = (s.tiles, s.parts) := by
  let own (u : State) := (u.tiles, u.parts)
  have hold (l : List Taken) (u : State) (held : Nat) : own (l.foldl (fun s t => s.holdCaps t.part t.caps held) u) = own u :=
    foldl_keeps own (fun u t => by obtain ⟨_, h⟩ := holdCaps_frame u t.part t.caps held; rw [h]) l u
  have hback (log : List LogRec) : own (s.queuesBack log) = own s := by
    rw [State.queuesBack]
    refine foldl_keeps own (fun u r => ?_) _ s
    split
    · split
      · dsimp only
        split <;> rfl
      · rfl
    · rfl
  rw [State.resumePackets]
  exact (hold _ _ 1).trans ((hold _ _ 0).trans (hback _))

theorem ubnarCtl_frame (s : State) (p : Nat) : ∃ threads, s.ubnarCtl p = { s with threads := threads } := by
  rw [State.ubnarCtl]
  generalize s.ctlTiles p = l
  induction l generalizing s with
  | nil => exact ⟨s.threads, rfl⟩
  | cons b l ih => exact ih (s.ubnarThread (b.2 * 32 + 31))

/-- The restored tile begins to replay what its log holds since the boundary. -/
theorem restoreFirn_spec {s : State} {site p : Nat} (buddy : Nat) (f : Firn) (hdet : s.det p = false) :
    ((s.restoreFirn site p buddy f).tile site).awaits = false ∧ ((s.restoreFirn site p buddy f).tile site).replaying = true ∧
      ((s.restoreFirn site p buddy f).tile site).replay = sinceMark (s.tile site).log := by
  unfold State.restoreFirn
  extract_lets g₀ g u t v w x
  obtain ⟨htiles, hparts⟩ := Prod.mk.inj (resumePackets_keeps (s.loadImage site g) site g)
  obtain ⟨hlog, hloaded⟩ := loadImage_log s site g
  obtain ⟨threads, hx⟩ := ubnarCtl_frame w p
  replace hx : x = { w with threads := threads } := hx
  have ht : t.log = (s.tile site).log := (congrArg (fun l => (SMap.get Tile.init l site).log) htiles).trans hlog
  have hxdet : x.det p = false := by
    have hpart : w.part p = s.part p := congrArg (fun l => SMap.get Partition.init l p) (hparts.trans hloaded)
    rw [hx]
    exact (congrArg Partition.det hpart).trans hdet
  have htile : x.tile site = v.tile site := by rw [hx]; rfl
  rw [if_neg (by simp [hxdet]), htile]
  simp only [v, State.tile_setTile_self, ht, true_and]

/-! ### A partition that rolls back (R246, R247) -/

/-- What discarding the work of a partition keeps of it and of the saves. -/
def Discarded (p : Nat) (s t : State) : Prop :=
  t.saves = s.saves ∧ ∃ rbSeq ring evSeq, t.part p = { s.part p with rbSeq := rbSeq, ring := ring, evSeq := evSeq }

theorem Discarded.refl (p : Nat) (s : State) : Discarded p s s := ⟨rfl, _, _, _, rfl⟩

theorem Discarded.trans {p : Nat} {s t u : State} (h : Discarded p s t) (g : Discarded p t u) : Discarded p s u := by
  obtain ⟨hsaves, _, _, _, ht⟩ := h
  obtain ⟨gsaves, _, _, _, hu⟩ := g
  exact ⟨gsaves.trans hsaves, _, _, _, hu.trans (by rw [ht])⟩

theorem Discarded.foldl {α : Type} {p : Nat} {f : State → α → State} (hf : ∀ s a, Discarded p s (f s a)) (l : List α) (s : State) :
    Discarded p s (l.foldl f s) := by
  induction l generalizing s with
  | nil => exact Discarded.refl p s
  | cons a l ih => exact (hf s a).trans (ih (f s a))

theorem manageOut_discarded (s : State) (p dev : Nat) (slot : List Word) : Discarded p s (s.manageOut p dev slot) := by
  rw [State.manageOut]
  split
  · exact ⟨rfl, _, _, _, rfl⟩
  · exact Discarded.refl p s

theorem recordOwn_discarded (s : State) (p : Nat) (b : List Byte) : Discarded p s (s.recordOwn p b) := by
  choose r' mem dirty poison outs _ h using ringWrite_frame s
  unfold State.recordOwn
  rw [funext₂ h]
  cases (s.part p).ring with
  | none => exact Discarded.refl p s
  | some r => exact ⟨rfl, _, _, _, State.part_setPart_self _ p _⟩

theorem record8_discarded (s : State) (p : Nat) (w : Nat × Nat) : Discarded p s (s.record8 p w) := by
  obtain ⟨⟨ring, evSeq, hpart⟩, -⟩ := record_part s p (bytesOf 2 8 ++ bytesOf 1 w.1 ++ bytesOf 1 0 ++ bytesOf 4 p ++
    bytesOf 8 (s.part p).rpCur ++ bytesOf 8 w.2) p
  obtain ⟨_, _, _, _, _, _, _, -, hframe⟩ := record_frame s p (bytesOf 2 8 ++ bytesOf 1 w.1 ++ bytesOf 1 0 ++ bytesOf 4 p ++
    bytesOf 8 (s.part p).rpCur ++ bytesOf 8 w.2)
  exact ⟨(congrArg State.saves hframe :), _, _, _, hpart⟩

theorem manageAll_discarded (s : State) (p : Nat) (words : List Word) (l : List (Nat × Nat)) :
    Discarded p s (l.foldl (fun (v : State) (r : Nat × Nat) => v.manageOut p r.1 words) s) :=
  Discarded.foldl (f := fun (v : State) (r : Nat × Nat) => v.manageOut p r.1 words) (fun v r => manageOut_discarded v p r.1 words) l s

theorem discarded_outs (s : State) (p : Nat) (o : List Output) : Discarded p s { s with outs := o } := ⟨rfl, _, _, _, rfl⟩

theorem discarded_rbSeq (s : State) (p : Nat) (q : List (Nat × Nat)) : Discarded p s (s.setPart p { s.part p with rbSeq := q }) :=
  ⟨rfl, _, _, _, State.part_setPart_self s p _⟩

theorem notice_discarded (s : State) (p job : Nat) : Discarded p s (s.notice p job) := by
  unfold State.notice
  extract_lets x q bytes u words
  clear_value words bytes
  refine Discarded.trans ?_ (recordOwn_discarded _ p bytes)
  refine Discarded.trans ?_ (manageAll_discarded _ p words _)
  exact Discarded.trans (discarded_rbSeq s p _) (discarded_outs u p _)

/-- Discarding keeps the stage, the current recovery point and the settings of a partition. -/
theorem discard_keeps (s : State) (p : Nat) :
    (s.discard p).saves = s.saves ∧ ((s.discard p).part p).stage = (s.part p).stage ∧ ((s.discard p).part p).rpCur = (s.part p).rpCur ∧
      ((s.discard p).part p).badStacks = (s.part p).badStacks ∧ ((s.discard p).part p).restore = (s.part p).restore := by
  have hpurge : (s.purge p).saves = s.saves ∧ ((s.purge p).part p).stage = (s.part p).stage ∧ ((s.purge p).part p).rpCur = (s.part p).rpCur ∧
      ((s.purge p).part p).badStacks = (s.part p).badStacks ∧ ((s.purge p).part p).restore = (s.part p).restore := by
    unfold State.purge
    extract_lets here sites ranks gone x ours
    refine ⟨rfl, ?_⟩
    have hpart (l : List (Nat × Partition)) (v : Partition) (hl : l = SMap.put s.parts p v) (h : v.stage = x.stage ∧ v.rpCur = x.rpCur ∧
        v.badStacks = x.badStacks ∧ v.restore = x.restore) : (SMap.get Partition.init l p).stage = x.stage ∧
        (SMap.get Partition.init l p).rpCur = x.rpCur ∧ (SMap.get Partition.init l p).badStacks = x.badStacks ∧
        (SMap.get Partition.init l p).restore = x.restore := by
      rwa [hl, SMap.get_put_self]
    exact hpart _ _ rfl ⟨rfl, rfl, rfl, rfl⟩
  have hkeep : Discarded p (s.purge p) (s.discard p) := by
    unfold State.discard
    extract_lets jobs u v
    exact (Discarded.foldl (fun v j => notice_discarded v p j) _ u).trans (Discarded.foldl (fun v w => record8_discarded v p w) _ v)
  obtain ⟨hsaves, hstage, hcur, hbad, hrestore⟩ := hpurge
  obtain ⟨gsaves, _, _, _, hpart⟩ := hkeep
  rw [hpart]
  exact ⟨gsaves.trans hsaves, hstage, hcur, hbad, hrestore⟩

theorem fullInterval_parts (s : State) (ward : Nat) : (s.fullInterval ward).parts = s.parts := by
  unfold State.fullInterval
  extract_lets t u v
  have hv : v.parts = u.parts := by
    simp only [v]
    cases t.buddy <;> rfl
  exact hv

section
variable {s : State} {p : Nat}

/-- A restore without a recovery point ends every job, and the partition runs again. -/
theorem finishRestore_blank (hstage : (s.part p).stage = .restoring) (htodo : (s.part p).readTodo = []) (hbad : (s.part p).badStacks = [])
    (hcur : (s.part p).rpCur = 0) (hrestore : (s.part p).restore = none) :
    ((s.finishRestore p).part p).stage = .active ∧ ((s.finishRestore p).part p).jobs = [] := by
  have hfull (u : State) (l : List Nat) : (l.foldl State.fullInterval u).parts = u.parts := foldl_keeps State.parts fullInterval_parts l u
  have hall (u : State) : (u.fullAll p).parts = u.parts := by
    rw [State.fullAll]
    split
    · exact hfull u _
    · rfl
  have hnone : s.currentPoint p = none := by
    rw [State.currentPoint]
    exact if_pos hcur
  have hguard : ((s.part p).stage != .restoring || !(s.part p).readTodo.isEmpty || !(s.part p).badStacks.isEmpty) = false := by
    simp [hstage, htodo, hbad]
  unfold State.finishRestore
  simp only [hguard, hnone, hrestore, Bool.false_eq_true, if_false]
  rw [State.part_setPart_self]
  refine ⟨rfl, ?_⟩
  have hparts (u : State) : ((u.fullAll p).disableQueues p).parts = u.parts := hall u
  generalize hv : State.disableQueues _ p = v
  have hpart := congrArg (fun l => (SMap.get Partition.init l p).jobs) ((congrArg State.parts hv).symm.trans (hparts _))
  refine hpart.trans ?_
  exact congrArg Partition.jobs (State.part_setPart_self (s.blankPart p) p _)

theorem finishRestore_waits (h : (s.part p).stage ≠ .restoring ∨ (s.part p).readTodo ≠ []) : s.finishRestore p = s := by
  unfold State.finishRestore
  exact if_pos (by rcases h with h | h <;> simp [h])

theorem partitionRollback_restores (hstage : (s.part p).stage = .stopped) (hcur : (s.part p).rpCur = 0) (hbad : (s.part p).badStacks = [])
    (hrestore : (s.part p).restore = none) :
    Ends (.partitionRollback p) s fun t => (t.part p).stage = .active ∧ (t.part p).jobs = [] := by
  have hexec : exec (.partitionRollback p) s = .next ((s.discard p).readBack p) := by
    show execPartitionRollback p s = _
    simp only [execPartitionRollback, hstage, BEq.rfl, if_true]
  obtain ⟨-, -, dcur, dbad, drestore⟩ := discard_keeps s p
  generalize s.discard p = u at hexec dcur dbad drestore
  have hnone : u.currentPoint p = none := by
    rw [State.currentPoint]
    exact if_pos (dcur.trans hcur)
  refine ⟨_, hexec, ?_⟩
  simp only [State.readBack, hnone]
  have hself := State.part_setPart_self u p { u.part p with stage := .restoring, readTodo := [] }
  exact finishRestore_blank (congrArg Partition.stage hself) (congrArg Partition.readTodo hself)
    ((congrArg Partition.badStacks hself).trans (dbad.trans hbad)) ((congrArg Partition.rpCur hself).trans (dcur.trans hcur))
    ((congrArg Partition.restore hself).trans (drestore.trans hrestore))

theorem partitionRollback_out (hstage : (s.part p).stage = .out) (hlost : (s.part p).lost = true) :
    Ends (.partitionRollback p) s fun t =>
      (t.part p).stage = .out ∧ (t.part p).lost = false ∧ t.saves = s.saves.filter (fun r => r.part != p) := by
  have hexec : exec (.partitionRollback p) s = .next ({ s.discard p with saves := (s.discard p).saves.filter (·.part != p) }.setPart p
      { (s.discard p).part p with lost := false }) := by
    show execPartitionRollback p s = _
    simp only [execPartitionRollback, hstage, hlost]
    rfl
  obtain ⟨dsaves, dstage, -, -, -⟩ := discard_keeps s p
  generalize s.discard p = u at hexec dsaves dstage
  refine ⟨_, hexec, ?_, ?_, congrArg (List.filter _) dsaves⟩
  · rw [State.part_setPart_self]
    exact dstage.trans hstage
  · rw [State.part_setPart_self]

theorem segmentReadBack_spec {seg : Nat} (hstage : (s.part p).stage = .restoring) (hdev : s.devValid = true)
    (htodo : (s.part p).readTodo.contains seg = true) :
    ((s.part p).readTodo.erase seg ≠ [] → Ends (.segmentReadBack p seg true) s fun t =>
        t = s.setPart p { s.part p with readTodo := (s.part p).readTodo.erase seg }) ∧
      Ends (.segmentReadBack p seg false) s fun t => t = s := by
  have hexec (ok : Bool) : exec (.segmentReadBack p seg ok) s = execSegmentReadBack p seg ok s := rfl
  constructor
  · intro hmore
    refine ⟨_, ?_, rfl⟩
    rw [hexec]
    simp only [execSegmentReadBack, hstage, hdev, htodo]
    refine congrArg Host.Outcome.next (finishRestore_waits (.inr ?_))
    rw [State.part_setPart_self]
    exact hmore
  · exact ⟨_, (hexec false).trans (if_pos (by simp)), rfl⟩

theorem drop_drop (l : List Nat) (n : Nat) : KeySet.drop (KeySet.drop l n) n = KeySet.drop l n := by
  simp [KeySet.drop, List.filter_filter]

/-- What a retrained stack does to one partition: it is no longer missing, and the partition waits no longer for it. -/
def State.stackBack (n : Nat) (s : State) (p : Nat) : State :=
  (s.setPart p { s.part p with badStacks := KeySet.drop (s.part p).badStacks n }).finishRestore p

theorem stackBack_drops {n : Nat} (hstage : (s.part p).stage ≠ .restoring) :
    s.stackBack n p = s.setPart p { s.part p with badStacks := KeySet.drop (s.part p).badStacks n } := by
  rw [State.stackBack]
  exact finishRestore_waits (.inl (by rwa [State.part_setPart_self]))

theorem foldl_stackBack {n : Nat} (l : List Nat) (s : State) (hnone : ∀ q, (s.part q).stage ≠ .restoring) :
    (l.foldl (State.stackBack n) s).mem = s.mem ∧ (l.foldl (State.stackBack n) s).threads = s.threads ∧
      ∀ q, ((l.foldl (State.stackBack n) s).part q).badStacks = if q ∈ l then KeySet.drop (s.part q).badStacks n else (s.part q).badStacks := by
  induction l generalizing s with
  | nil => exact ⟨rfl, rfl, fun q => (if_neg (by simp)).symm⟩
  | cons p l ih =>
    rw [List.foldl_cons, stackBack_drops (hnone p)]
    have hpart (q : Nat) : (s.setPart p { s.part p with badStacks := KeySet.drop (s.part p).badStacks n }).part q =
        if q = p then { s.part p with badStacks := KeySet.drop (s.part p).badStacks n } else s.part q := State.part_setPart _ _ _ _
    generalize hu : s.setPart p { s.part p with badStacks := KeySet.drop (s.part p).badStacks n } = u at hpart
    obtain ⟨hmem, hthreads, hparts⟩ := ih u fun q => by
      rw [hpart]
      split
      · exact hnone p
      · exact hnone q
    refine ⟨hmem.trans (by rw [← hu]; rfl), hthreads.trans (by rw [← hu]; rfl), fun q => (hparts q).trans ?_⟩
    rw [hpart]
    by_cases hq : q = p
    · subst hq
      simp [drop_drop]
    · simp [hq]

/-- A retrained stack is no longer missing to the partitions. -/
theorem hbmStackRetrain_drops {n : Nat} (hnone : ∀ q, (s.part q).stage ≠ .restoring) :
    Ends (.hbmStackRetrain n true) s fun t => t.mem = s.mem ∧ t.threads = s.threads ∧ ∀ q, s.hasPart q = true →
      (t.part q).badStacks = KeySet.drop (s.part q).badStacks n := by
  obtain ⟨hmem, hthreads, hparts⟩ := foldl_stackBack (n := n) (s.parts.map (·.1)) s hnone
  refine ⟨(s.parts.map (·.1)).foldl (State.stackBack n) s, rfl, hmem, hthreads, fun q hq => (hparts q).trans (if_pos ?_)⟩
  simpa [State.hasPart] using hq

end

end Sys2Proof.Machine
end

section
/-!
PROOFS. Failures of tiles, memory errors and corrected errors, and the recoveries they lead to (spec/12_recovery.md R227-R248,
spec/09_memory.md R17, R197-R200).
-/

namespace Sys2Proof.Machine

/-! ### The restore of a firn copy (R242, R245, R246) -/

section
variable {s : State} {site : Nat}

theorem firnRestore_loads {b : Nat} {f : Firn} (hawaits : (s.tile site).awaits = true) (hfailed : (s.tile site).failed = false)
    (hbuddy : (s.tile site).buddy = some b) (hworks : (s.tile b).failed = false) (hfirn : s.firnOf ((s.tile site).rank.getD 0) = some f)
    (htag : s.badTag site ((s.tile site).rank.getD 0) b = none) (hdet : s.det ((s.partOfSite site).getD 0) = false) :
    Ends (.firnRestore site 0) s fun t => (t.tile site).awaits = false ∧ (t.tile site).replaying = true ∧
      (t.tile site).replay = sinceMark (s.tile site).log := by
  refine ⟨_, ?_, restoreFirn_spec b f hdet⟩
  show execFirnRestore site 0 s = _
  simp only [execFirnRestore, hawaits, hfailed, hbuddy, hworks, hfirn, htag]
  rfl

theorem firnRestore_stops {b bad : Nat} (hawaits : (s.tile site).awaits = true) (hfailed : (s.tile site).failed = false)
    (hpart : s.hasPart ((s.partOfSite site).getD 0) = true)
    (hbad : (s.tile site).buddy = none ∨ s.firnOf ((s.tile site).rank.getD 0) = none ∨ bad % 8 ≠ 0 ∨
      ((s.tile site).buddy = some b ∧ ((s.tile b).failed = true ∨ (s.badTag site ((s.tile site).rank.getD 0) b).isSome = true))) :
    Ends (.firnRestore site bad) s fun t => (t.part ((s.partOfSite site).getD 0)).stage = .stopped := by
  have hexec : exec (.firnRestore site bad) s = execFirnRestore site bad s := rfl
  have hawake : (!(s.tile site).awaits || (s.tile site).failed) = false := by rw [hawaits, hfailed]; rfl
  simp only [execFirnRestore, hawake, Bool.false_eq_true, if_false] at hexec
  cases hbuddy : (s.tile site).buddy with
  | none =>
    rw [hbuddy] at hexec
    exact ⟨_, hexec, stopPart_stops hpart⟩
  | some c =>
    cases hfirn : s.firnOf ((s.tile site).rank.getD 0) with
    | none =>
      simp only [hbuddy, hfirn] at hexec
      refine ⟨_, hexec, ?_⟩
      split
      · exact record7_stops hpart _ _ _
      · exact stopPart_stops hpart
    | some f =>
      simp only [hbuddy, hfirn] at hexec
      by_cases h5 : ((s.tile c).failed || decide (bad % 8 = 5)) = true
      · rw [if_pos h5] at hexec
        exact ⟨_, hexec, stopPart_stops hpart⟩
      · rw [if_neg h5] at hexec
        by_cases h0 : bad % 8 ≠ 0
        · rw [if_pos h0] at hexec
          exact ⟨_, hexec, record7_stops hpart _ _ _⟩
        · rw [if_neg h0] at hexec
          have htag : (s.badTag site ((s.tile site).rank.getD 0) c).isSome = true := by
            rw [hbuddy, hfirn] at hbad
            rcases hbad with h | h | h | ⟨hc, h | h⟩
            · exact absurd h (Option.some_ne_none c)
            · exact absurd h (Option.some_ne_none f)
            · exact absurd h h0
            · obtain rfl := Option.some.inj hc
              exact absurd (by rw [h, Bool.true_or]) h5
            · obtain rfl := Option.some.inj hc
              exact h
          obtain ⟨⟨obj, off⟩, hobj⟩ := Option.isSome_iff_exists.mp htag
          rw [hobj] at hexec
          exact ⟨_, hexec, record7_stops hpart _ _ _⟩

/-! ### Errors of a tile (R197-R200, R227) -/

theorem stopTile_running (hfailed : (s.tile site).failed = false) (cause : Nat) :
    s.stopTile site cause = s.setTile site { s.tile site with failed := true, failc := cause } := by
  rw [State.stopTile]
  exact if_neg (by simp [hfailed])

theorem setTile_setTile (s : State) (site : Nat) (x y : Tile) : (s.setTile site x).setTile site y = s.setTile site y := by
  simp only [State.setTile, SMap.put_put]

/-- A part that runs is neither failed, retired nor missing. -/
theorem running_tile (hfailed : (s.tile site).failed = false) (hretired : (s.tile site).role ≠ .retired) (hvoid : (s.tile site).role ≠ .void) :
    ((s.tile site).failed || (s.tile site).role == .retired || (s.tile site).role == .void) = false := by
  simp [hfailed, hretired, hvoid]

theorem bodyError_stops (hfailed : (s.tile site).failed = false) (u : State) (hu : u = s.stopTile site 5) :
    u.setTile site { u.tile site with bodyOnly := true } =
      s.setTile site { s.tile site with failed := true, failc := 5, bodyOnly := true } := by
  rw [hu, stopTile_running hfailed, State.tile_setTile_self, setTile_setTile]

theorem watchdog_stops (hfailed : (s.tile site).failed = false) (hretired : (s.tile site).role ≠ .retired)
    (hvoid : (s.tile site).role ≠ .void) (spine : Bool) :
    Ends (.hardwareWatchdog ⟨site, spine⟩) s fun t =>
      t = s.setTile site { s.tile site with failed := true, failc := if spine then 6 else 4 } := by
  refine ⟨_, ?_, rfl⟩
  show execHardwareWatchdog ⟨site, spine⟩ s = _
  have hnot : ((s.tile site).role == .retired && spine) = false := by simp [hretired]
  simp only [execHardwareWatchdog, hnot, running_tile hfailed hretired hvoid, stopTile_running hfailed, Bool.false_eq_true, if_false]

theorem tileErrors_stop (hfailed : (s.tile site).failed = false) (hretired : (s.tile site).role ≠ .retired)
    (hvoid : (s.tile site).role ≠ .void) :
    (Ends (.uncorrectableError 0 site) s fun t => t = s.setTile site { s.tile site with failed := true, failc := 5 }) ∧
      Ends (.uncorrectableError 4 site) s fun t => t = s.setTile site { s.tile site with failed := true, failc := 5, bodyOnly := true } := by
  have hr : ((s.tile site).role == .retired) = false := by simpa using hretired
  have hv : ((s.tile site).role == .void) = false := by simpa using hvoid
  refine ⟨⟨_, ?_, rfl⟩, ⟨_, ?_, rfl⟩⟩
  · show execUncorrectableError 0 site s = _
    simp only [execUncorrectableError, hr, hfailed, hv, Bool.or_self, Bool.false_eq_true, if_false, stopTile_running hfailed]
  · show execUncorrectableError 4 site s = _
    simp only [execUncorrectableError, hr, hfailed, hv, Bool.or_self, Bool.false_eq_true, if_false, bodyError_stops hfailed _ rfl]

theorem homeError_restores {n : Nat} (hhome : (s.tile site).home = some n) :
    Ends (.uncorrectableError 1 site) s fun t => t = s.loseHome n := by
  refine ⟨_, ?_, rfl⟩
  show execUncorrectableError 1 site s = _
  simp only [execUncorrectableError, hhome]

theorem lineError_poisons {l : Nat} (hl : l * 64 < Config.hbmBytes) :
    Ends (.uncorrectableError 2 l) s fun t => t = { s with poison := KeySet.add s.poison l } := by
  refine ⟨_, ?_, rfl⟩
  show execUncorrectableError 2 l s = _
  simp only [execUncorrectableError, hl, if_true]

/-- The loss of a stack, for one partition that maps it. -/
def State.stackLost (k : Nat) (s : State) (p : Nat) : State :=
  s.setPart p { s.part p with
    stage := if (s.part p).stage == .out then .out else .stopped
    lost := (s.part p).lost || (s.part p).stage == .out, badStacks := KeySet.add (s.part p).badStacks k }

theorem foldl_stackLost (k : Nat) (l : List Nat) (s : State) : (l.foldl (State.stackLost k) s).mem = s.mem ∧
    ∀ q, (((s.part q).stage ≠ .out → ((l.foldl (State.stackLost k) s).part q).stage = if q ∈ l then .stopped else (s.part q).stage) ∧
      ((s.part q).stage = .out → ((l.foldl (State.stackLost k) s).part q).stage = .out ∧
        ((l.foldl (State.stackLost k) s).part q).lost = ((s.part q).lost || decide (q ∈ l)))) := by
  induction l generalizing s with
  | nil => simp
  | cons p l ih =>
    obtain ⟨hmem, hparts⟩ := ih (s.stackLost k p)
    refine ⟨hmem, fun q => ?_⟩
    have hpart : (s.stackLost k p).part q = if q = p then { s.part p with
        stage := if (s.part p).stage == .out then .out else .stopped
        lost := (s.part p).lost || (s.part p).stage == .out, badStacks := KeySet.add (s.part p).badStacks k } else s.part q :=
      State.part_setPart _ _ _ _
    obtain ⟨hin, hout⟩ := hparts q
    rw [hpart] at hin hout
    rw [List.foldl_cons]
    by_cases hq : q = p
    · subst hq
      simp only [if_true] at hin hout
      refine ⟨fun h => ?_, fun h => ?_⟩
      · rw [hin (by simp [h])]
        simp [h]
      · obtain ⟨h1, h2⟩ := hout (by simp [h])
        exact ⟨h1, by rw [h2]; simp [h]⟩
    · simp only [hq, if_false] at hin hout
      simpa [hq] using ⟨hin, hout⟩

theorem stackError_stops {k : Nat} (hk : k < Config.numStacks) : Ends (.uncorrectableError 3 k) s fun t => t.mem = s.mem ∧
    ∀ q ∈ s.stackUsers k, ((s.part q).stage ≠ .out → (t.part q).stage = .stopped) ∧
      ((s.part q).stage = .out → (t.part q).stage = .out ∧ (t.part q).lost = true) := by
  obtain ⟨hmem, hparts⟩ := foldl_stackLost k (s.stackUsers k) s
  have hexec : exec (.uncorrectableError 3 k) s = .next ((s.stackUsers k).foldl (State.stackLost k) s) := by
    show execUncorrectableError 3 k s = _
    simp only [execUncorrectableError, Nat.not_le.mpr hk, if_false]
    rfl
  refine ⟨_, hexec, hmem, fun q hq => ⟨fun h => ?_, fun h => ?_⟩⟩
  · exact ((hparts q).1 h).trans (if_pos hq)
  · obtain ⟨hstage, hlost⟩ := (hparts q).2 h
    exact ⟨hstage, hlost.trans (by simp [hq])⟩

/-! ### Corrected errors and banks in erasure service (R197, R198, R200) -/

theorem scrub_counts (n m : Nat) :
    (agentOf site = none → Ends (.scrub site n m) s fun t => t = s.setTile site { s.tile site with
        bbce := Min.min ((s.tile site).bbce + n) 0xFFFF, spce := Min.min ((s.tile site).spce + m) 0xFFFF }) ∧
      ∀ k, agentOf site = some k → Ends (.scrub site n m) s fun t => t = s.setAgent k { s.agent k with ce := (s.agent k).ce + n } := by
  refine ⟨fun h => ⟨_, ?_, rfl⟩, fun k h => ⟨_, ?_, rfl⟩⟩
  · show execScrub site n m s = _
    simp only [execScrub, h]
  · show execScrub site n m s = _
    simp only [execScrub, h]

theorem bankRebuild_spec (hfailed : (s.tile site).failed = false) (hretired : (s.tile site).role ≠ .retired)
    (hvoid : (s.tile site).role ≠ .void) :
    let x := s.tile site
    let failing : Tile := { x with failb := Min.min (x.failb + 1) 5, spbuild := x.spbuild || !x.spused }
    let only (y : Tile) (t : State) : Prop := t = s.setTile site y
    (x.failb < 4 → Ends (.bankRebuild ⟨site, 0⟩) s (only failing)) ∧
      (4 ≤ x.failb → Ends (.bankRebuild ⟨site, 0⟩) s (only { failing with failed := true, failc := 5 })) ∧
      (x.spbuild = true → Ends (.bankRebuild ⟨site, 1⟩) s (only { x with spbuild := false, spused := true, failb := x.failb - 1 })) ∧
      (x.accbuild = false → Ends (.bankRebuild ⟨site, 2⟩) s (only { x with accbuild := true })) ∧
      (x.accbuild = true → Ends (.bankRebuild ⟨site, 2⟩) s (only { x with failed := true, failc := 5, bodyOnly := true })) ∧
      (x.accbuild = true → x.accused = false → Ends (.bankRebuild ⟨site, 3⟩) s (only { x with accbuild := false, accused := true })) := by
  intro x failing only
  have hexec (w : Nat) : exec (.bankRebuild ⟨site, w⟩) s = match w with
      | 0 => .next (s.failBank site)
      | 1 => if x.spbuild then .next (s.setTile site { x with spbuild := false, spused := true, failb := x.failb - 1 }) else .next s
      | 2 => .next (s.failAccBank site)
      | 3 => if x.accbuild && !x.accused then .next (s.setTile site { x with accbuild := false, accused := true }) else .next s
      | _ => .next s := by
    show execBankRebuild ⟨site, w⟩ s = _
    simp only [execBankRebuild, running_tile hfailed hretired hvoid, Bool.false_eq_true, if_false] <;> rfl
  have hfailing : ((s.setTile site failing).tile site).failed = false := by rw [State.tile_setTile_self]; exact hfailed
  refine ⟨fun h => ⟨_, (hexec 0).trans (congrArg Host.Outcome.next ?_), rfl⟩, fun h => ⟨_, (hexec 0).trans (congrArg Host.Outcome.next ?_), rfl⟩,
    fun h => ⟨_, (hexec 1).trans (if_pos h), rfl⟩, fun h => ⟨_, (hexec 2).trans (congrArg Host.Outcome.next ?_), rfl⟩,
    fun h => ⟨_, (hexec 2).trans (congrArg Host.Outcome.next ?_), rfl⟩, fun h g => ⟨_, (hexec 3).trans (if_pos ?_), rfl⟩⟩
  · exact if_pos h
  · refine (if_neg (Nat.not_lt.mpr h)).trans ?_
    rw [stopTile_running hfailing, State.tile_setTile_self, setTile_setTile]
  · exact if_pos (by simp [show (s.tile site).accbuild = false from h])
  · refine (if_neg (by simp [show (s.tile site).accbuild = true from h])).trans (bodyError_stops hfailed _ rfl)
  · simp [h, g]

end

/-! ### The failure of a site (R242-R246) -/

section
variable {u : State} {site l p : Nat}

theorem noteLost_plain (h : u.partOfSite site = none ∨ (u.tile site).rank = none) : u.noteLost site = u := by
  unfold State.noteLost
  split
  · next hp hl => rcases h with h | h <;> simp_all
  · rfl

theorem noteLost_ranked (hrank : (u.tile site).rank = some l) (hpart : u.partOfSite site = some p) :
    ∃ floe, u.noteLost site = u.setPart p { u.part p with floe := floe } := by
  simp only [State.noteLost, hrank, hpart]
  exact ⟨_, rfl⟩

/-- The note of a lost member leaves a site in its partition. -/
theorem noteLost_partOfSite (hrank : (u.tile site).rank = some l) (hpart : u.partOfSite site = some p) :
    (u.noteLost site).partOfSite site = some p := by
  obtain ⟨floe, hnote⟩ := noteLost_ranked hrank hpart
  have htile : (u.noteLost site).tile site = u.tile site := by rw [hnote]; rfl
  let f (q : Partition) : Bool := q.tiles.contains l && q.stage != .out
  have hfound : (u.parts.find? fun q => f q.2).map (·.1) = some p := by
    rw [State.partOfSite, hrank] at hpart
    exact hpart
  have hnow : (u.noteLost site).partOfSite site =
      ((SMap.put u.parts p { u.part p with floe := floe }).find? fun q => f q.2).map (·.1) := by
    rw [State.partOfSite, htile, hrank, hnote]
    rfl
  have hsome : (((SMap.put u.parts p { u.part p with floe := floe }).find? fun q => f q.2).map (·.1)).isSome = true := by
    have hany := SMap.any_put Partition.init u.parts p { u.part p with floe := floe } f rfl rfl
    have hwas : (u.parts.any fun q => f q.2) = true := by
      rw [← List.isSome_find?]
      exact (Option.isSome_map ..).symm.trans (congrArg Option.isSome hfound)
    rw [Option.isSome_map, List.isSome_find?, hany, hwas]
  have hfirst := SMap.find_put Partition.init f u.parts p { u.part p with floe := floe } rfl (by rw [hfound]; rfl)
  rw [hnow]
  obtain ⟨q, hq⟩ := Option.isSome_iff_exists.mp hsome
  rw [hq] at hfirst ⊢
  exact congrArg some hfirst

/-- What the failure of a site leads to, where no ward is being restored from it. -/
theorem failSite_spec (cause : Nat) (hurt : u.restoringFrom site = none) :
    ((u.tile site).rank = none → u.failSite site cause = u.retirePlain site cause) ∧
    ((u.tile site).rank = some l → u.partOfSite site = none → u.failSite site cause = (u.replaceTile l site cause).2) ∧
    ((u.tile site).rank = some l → u.partOfSite site = some p → (u.tile site).stage = .open_ → u.failSite site cause =
      if !(u.tile site).prot || !(u.noteLost site).hasFirn l then (u.noteLost site).rollTile p l site cause
      else if ((u.noteLost site).part p).assisted 4 then (u.noteLost site).assistFor 4 p (BitVec.ofNat 64 l) site
      else (u.noteLost site).recoverTile p l site cause) := by
  refine ⟨fun hrank => ?_, fun hrank hpart => ?_, fun hrank hpart hstage => ?_⟩
  · simp only [State.failSite, hurt, noteLost_plain (.inr hrank), hrank]
  · simp only [State.failSite, hurt, noteLost_plain (.inl hpart), hrank, hpart]
  · have htile : (u.noteLost site).tile site = u.tile site := by
      obtain ⟨floe, hnote⟩ := noteLost_ranked hrank hpart
      rw [hnote]
      rfl
    have hcopy : ((u.tile site).stage == .copying) = false := by rw [hstage]; rfl
    simp only [State.failSite, hurt, htile, hrank, noteLost_partOfSite hrank hpart, hcopy, Bool.false_and, Bool.or_false, Bool.false_eq_true,
      if_false]

end

section
variable {s : State} {site cause : Nat}

/-- A failure that is new is queued, and its region's supervisor begins the next recovery. -/
theorem exec_tileFailure (hretired : (s.tile site).role ≠ .retired) (hvoid : (s.tile site).role ≠ .void)
    (hassists : (s.assists.all fun a => !(a.func == 4 && a.obj == site)) = true) (hqueue : ∀ g ∈ s.failQ, g.1 ≠ site)
    (hsite : site < Config.numSites) (hfailed : (s.tile site).failed = false) : exec (.tileFailure site cause) s =
      .next ({ s.stopTile site cause with failQ := s.failQ ++ [(site, cause)] }.nextRecovery (regionOf site)) := by
  have hr : ((s.tile site).role == .retired) = false := by simpa using hretired
  have hv : ((s.tile site).role == .void) = false := by simpa using hvoid
  have hq : (s.failQ.any (·.1 == site)) = false := by simpa using fun a b h => hqueue (a, b) h
  have ha : (s.assists.any fun a => a.func == 4 && a.obj == site) = false := by simpa [Decidable.imp_iff_not_or] using hassists
  show execTileFailure site cause s = _
  simp only [execTileFailure, hr, hv, hq, ha, Nat.not_le.mpr hsite, hfailed, Bool.or_self, decide_false, Bool.false_eq_true, if_false]

/-- A failure behind a recovery that its region's supervisor is at waits. -/
theorem nextRecovery_waits {w : State} {region : Nat} (hrec : w.recovering region = true)
    (hsuper : ∀ g ∈ w.failQ, regionOf g.1 = region → (w.tile g.1).role ≠ .supervisor) : w.nextRecovery region = w := by
  have hnone : ((w.failQ.filter fun f => regionOf f.1 == region).find? fun f => (w.tile f.1).role == .supervisor) = none := by
    simpa using fun a b h => hsuper (a, b) h
  simp only [State.nextRecovery, hnone, hrec, Option.isNone_none, Bool.and_self, if_true]

/-- The only failure of a region is dealt with at once. -/
theorem nextRecovery_begins {w : State} {q : List (Nat × Nat)} (hq : w.failQ = q ++ [(site, cause)])
    (hothers : ∀ g ∈ q, regionOf g.1 ≠ regionOf site) (hfree : w.recovering (regionOf site) = false ∨ (w.tile site).role = .supervisor) :
    w.nextRecovery (regionOf site) = { w with failQ := q }.failSite site cause := by
  have hhere : (w.failQ.filter fun f => regionOf f.1 == regionOf site) = [(site, cause)] := by
    rw [hq, List.filter_append, List.filter_eq_nil_iff.mpr (by simpa using fun a b h => hothers (a, b) h)]
    simp
  have herase : w.failQ.erase (site, cause) = q := by
    rw [hq, List.erase_append_right _ fun h => hothers _ h rfl]
    simp
  by_cases hrole : (w.tile site).role = .supervisor
  · have hsuper : ([(site, cause)].find? fun f => (w.tile f.1).role == .supervisor) = some (site, cause) := by simp [hrole]
    have hfirst : (some (site, cause) <|> [(site, cause)].head?) = some (site, cause) := rfl
    simp only [State.nextRecovery, hhere, hsuper, hfirst, herase, Option.isNone_some, Bool.false_and, Bool.false_eq_true, if_false]
  · have hsuper : ([(site, cause)].find? fun f => (w.tile f.1).role == .supervisor) = none := by simp [hrole]
    have hfirst : ((none : Option (Nat × Nat)) <|> [(site, cause)].head?) = some (site, cause) := rfl
    simp only [State.nextRecovery, hhere, hsuper, hfirst, herase, hfree.resolve_right hrole, Bool.and_false, Bool.false_eq_true, if_false]

/-- A failure behind a recovery of its region is queued. -/
theorem tileFailure_waits (hretired : (s.tile site).role ≠ .retired) (hvoid : (s.tile site).role ≠ .void)
    (hassists : (s.assists.all fun a => !(a.func == 4 && a.obj == site)) = true) (hqueue : ∀ g ∈ s.failQ, g.1 ≠ site)
    (hsite : site < Config.numSites) (hfailed : (s.tile site).failed = false)
    (hrec : (s.stopTile site cause).recovering (regionOf site) = true) (hrole : (s.tile site).role ≠ .supervisor)
    (hsuper : ∀ g ∈ s.failQ, regionOf g.1 = regionOf site → (s.tile g.1).role ≠ .supervisor) :
    Ends (.tileFailure site cause) s fun t => t = { s.stopTile site cause with failQ := s.failQ ++ [(site, cause)] } := by
  refine ⟨_, (exec_tileFailure hretired hvoid hassists hqueue hsite hfailed).trans (congrArg Host.Outcome.next (nextRecovery_waits hrec ?_)), rfl⟩
  intro g hg hregion
  have hroleOf (x : Nat) : (State.tile { s.stopTile site cause with failQ := s.failQ ++ [(site, cause)] } x).role = (s.tile x).role := by
    rw [stopTile_running hfailed]
    show ((s.setTile site _).tile x).role = _
    rw [State.tile_setTile]
    split
    · next h => rw [h]
    · rfl
  rw [hroleOf]
  rcases List.mem_append.mp hg with hg | hg
  · exact hsuper g hg hregion
  · rw [List.mem_singleton.mp hg]
    exact hrole

/-- A failure that is alone in its region is dealt with at once. -/
theorem tileFailure_begins (hretired : (s.tile site).role ≠ .retired) (hvoid : (s.tile site).role ≠ .void)
    (hassists : (s.assists.all fun a => !(a.func == 4 && a.obj == site)) = true)
    (hregion : ∀ g ∈ s.failQ, regionOf g.1 ≠ regionOf site) (hsite : site < Config.numSites) (hfailed : (s.tile site).failed = false)
    (hfree : (s.stopTile site cause).recovering (regionOf site) = false ∨ (s.tile site).role = .supervisor) :
    exec (.tileFailure site cause) s = .next ((s.stopTile site cause).failSite site cause) := by
  have hqueue : ∀ g ∈ s.failQ, g.1 ≠ site := fun g hg h => hregion g hg (congrArg regionOf h)
  refine (exec_tileFailure hretired hvoid hassists hqueue hsite hfailed).trans (congrArg Host.Outcome.next ?_)
  have hrole : (State.tile { s.stopTile site cause with failQ := s.failQ ++ [(site, cause)] } site).role = (s.tile site).role := by
    rw [stopTile_running hfailed]
    show ((s.setTile site _).tile site).role = _
    rw [State.tile_setTile_self]
  have hfailQ : { s.stopTile site cause with failQ := s.failQ } = s.stopTile site cause := by
    rw [stopTile_running hfailed]
    rfl
  rw [nextRecovery_begins rfl hregion (hfree.imp_right hrole.trans)]
  exact congrArg (fun u : State => u.failSite site cause) hfailQ

/-- Settles O42. -/
theorem recoveryStepResults : Obligations.RecoveryStepResults := by
  unfold Obligations.RecoveryStepResults
  intro s site cause bad at_ p l n m seg b k spine f x pt only u v
  refine ⟨intervalClose_closes, checkpointBoundary_spec, fun h1 h2 h3 h4 => intervalCommit_commits h1 h2 h3 h4 b,
    tileFailure_waits, ?_, ?_, homeError_restores, lineError_poisons, stackError_stops, ?_, replayEnd_ends, (scrub_counts n m).1,
    (scrub_counts n m).2 k, fun h1 h2 h3 => bankRebuild_spec h1 h2 h3, partitionRollback_restores, partitionRollback_out, segmentReadBack_spec,
    ⟨s, rfl, rfl⟩, hbmStackRetrain_drops⟩
  · intro hretired hvoid hassists hregion hsite hfailed hfree hurt
    have hexec := tileFailure_begins (cause := cause) hretired hvoid hassists hregion hsite hfailed hfree
    have htile : u.tile site = { x with failed := true, failc := cause } := by
      rw [show u = _ from stopTile_running hfailed cause, State.tile_setTile_self]
    obtain ⟨hplain, hunplaced, hranked⟩ := failSite_spec (u := u) (l := l) (p := p) cause hurt
    rw [htile] at hplain hunplaced hranked
    refine ⟨fun hrank hpart => ⟨_, hexec, hunplaced hrank hpart⟩, fun hrank => ⟨_, hexec, hplain hrank⟩, fun hrank hpart hstage => ?_⟩
    have hdecides := hranked hrank hpart hstage
    have hcopied (hprot : x.prot = true) (hfirn : (u.noteLost site).hasFirn l = true) :
        ¬ (!({ x with failed := true, failc := cause } : Tile).prot || !(u.noteLost site).hasFirn l) = true := by
      rw [show ({ x with failed := true, failc := cause } : Tile).prot = true from hprot, hfirn]
      decide
    refine ⟨fun h => ⟨_, hexec, hdecides.trans (if_pos ?_)⟩, fun hprot hfirn hassist => ⟨_, hexec, hdecides.trans ?_⟩,
      fun hprot hfirn hassist => ⟨_, hexec, hdecides.trans ?_⟩⟩
    · rcases h with h | h
      · rw [show ({ x with failed := true, failc := cause } : Tile).prot = false from h]
        rfl
      · rw [show (u.noteLost site).hasFirn l = false from h, Bool.not_false, Bool.or_true]
    · exact (if_neg (hcopied hprot hfirn)).trans (if_neg (ne_true_of_eq_false hassist))
    · exact (if_neg (hcopied hprot hfirn)).trans (if_pos hassist)
  · intro hfailed hretired hvoid
    obtain ⟨htile, hbody⟩ := tileErrors_stop hfailed hretired hvoid
    exact ⟨watchdog_stops hfailed hretired hvoid spine, htile, hbody⟩
  · intro hawaits hfailed
    exact ⟨firnRestore_loads hawaits hfailed, firnRestore_stops hawaits hfailed⟩

end

end Sys2Proof.Machine
end

section
/-!
PROOFS. The host's registers and the flits of the Rypol ports (spec/04_links.md R72-R77, spec/05_command.md R83-R87).
-/

namespace Sys2Proof.Machine

/-! ### The registers of a queue (R83, R84, R87) -/

section
variable {s : State} {fn q : Nat} {val : Word}

/-- One queue's registers have changed, and nothing else. -/
def OnlyQueue (s t : State) (fn q : Nat) (r : QRegs) : Prop :=
  { t with queues := s.queues } = s ∧ t.queue fn q = r ∧ ∀ fn' q', q' < 16 → (fn', q') ≠ (fn, q) → t.queue fn' q' = s.queue fn' q'

theorem queue_setQueue_self (s : State) (fn q : Nat) (r : QRegs) : (s.setQueue fn q r).queue fn q = r := SMap.get_put_self _ _ _ _

theorem hasQueue_lt (h : hasQueue fn q = true) : q < 16 := by
  simp [hasQueue] at h
  omega

theorem onlyQueue_setQueue (h : hasQueue fn q = true) (r : QRegs) : OnlyQueue s (s.setQueue fn q r) fn q r := by
  refine ⟨rfl, queue_setQueue_self s fn q r, fun fn' q' hq' hne => SMap.get_put_ne _ _ _ fun heq => hne ?_⟩
  have hq := hasQueue_lt h
  simp only [queueKey] at heq
  obtain rfl : q' = q := by omega
  exact Prod.ext (by omega) rfl

/-- A write to a register of an open queue at STATE 2 has its effect. -/
theorem queueWrite_open (h : hasQueue fn q = true) (hbound : (s.partOfFn fn).isSome = true) (hstate : s.boot.state = 2) (off : Nat)
    (f : QRegs → State) : queueWrite s fn q off f = .next (f (s.queue fn q)) := by
  simp only [queueWrite, State.queueOpen, h, hbound, hstate, Bool.and_self, Bool.not_true, Bool.false_eq_true, ne_eq, not_true_eq_false,
    if_false]

theorem queueWrite_early (h : hasQueue fn q = true) (hbound : (s.partOfFn fn).isSome = true) (hstate : s.boot.state ≠ 2) (off : Nat)
    (f : QRegs → State) : queueWrite s fn q off f = .next s := by
  simp only [queueWrite, State.queueOpen, h, hbound, hstate, Bool.and_self, Bool.not_true, Bool.false_eq_true, ne_eq, not_false_eq_true,
    if_true, if_false]

theorem queueWrite_unbound (hfn : fn < 16) (hq : q < 16) (hbound : s.partOfFn fn = none) (off : Nat) (f : QRegs → State) :
    queueWrite s fn q off f = .next (s.unsupported fn (queuePage fn q + off)) := by
  have h : hasQueue fn q = true := by simp [hasQueue, hfn, hq]
  simp only [queueWrite, State.queueOpen, h, hbound, Option.isSome_none, Bool.and_false, Bool.not_true, Bool.not_false, Bool.false_eq_true,
    if_true, if_false]

theorem exec_qbaseWrite (s : State) (fn q : Nat) (val : Word) : exec (.qbaseWrite fn q val) s = queueWrite s fn q 0x00 fun r =>
    if r.en then s else s.setQueue fn q { r with base := val &&& ~~~0xFFF#64 } := rfl

theorem exec_qcfgWrite (s : State) (fn q : Nat) (val : Word) : exec (.qcfgWrite fn q val) s =
    queueWrite s fn q 0x08 fun r => s.setQueue fn q (r.writeCfg val) := rfl

theorem exec_qnotifyWrite (s : State) (fn q : Nat) (val : Word) : exec (.qnotifyWrite fn q val) s = queueWrite s fn q 0x10 fun r =>
    if r.accepts (val.setWidth 32) then s.setQueue fn q { r with notified := val.setWidth 32 }
    else s.stopQueue ((s.partOfFn fn).getD 0) fn q 8 (BitVec.toNat (val.setWidth 32)) := rfl

theorem exec_qstatWrite (s : State) (fn q : Nat) (val : Word) : exec (.qstatWrite fn q val) s = queueWrite s fn q 0x20 fun r =>
    if val.getLsbD 1 then s.setQueue fn q { r with stopped := false, errcode := 0 } else s := rfl

theorem earlyWrites_dropped (h : hasQueue fn q = true) (hbound : (s.partOfFn fn).isSome = true) (hstate : s.boot.state ≠ 2) :
    (Ends (.qbaseWrite fn q val) s fun t => t = s) ∧ (Ends (.qcfgWrite fn q val) s fun t => t = s) ∧
      (Ends (.qnotifyWrite fn q val) s fun t => t = s) ∧ Ends (.qstatWrite fn q val) s fun t => t = s :=
  ⟨⟨s, (exec_qbaseWrite s fn q val).trans (queueWrite_early h hbound hstate _ _), rfl⟩,
    ⟨s, (exec_qcfgWrite s fn q val).trans (queueWrite_early h hbound hstate _ _), rfl⟩,
    ⟨s, (exec_qnotifyWrite s fn q val).trans (queueWrite_early h hbound hstate _ _), rfl⟩,
    ⟨s, (exec_qstatWrite s fn q val).trans (queueWrite_early h hbound hstate _ _), rfl⟩⟩

theorem pageMask (val : Word) : val &&& ~~~0xFFF#64 = BitVec.ofNat 64 (val.toNat / 4096 * 4096) := by
  have hmask : ∀ i < 64, (~~~0xFFF#64).getLsbD i = decide (12 ≤ i) := by decide
  refine BitVec.eq_of_getLsbD_eq fun i hi => ?_
  rw [BitVec.getLsbD_and, hmask i hi, BitVec.getLsbD_ofNat, BitVec.getLsbD, show 4096 = 2 ^ 12 from rfl, Nat.testBit_mul_two_pow,
    Nat.testBit_div_two_pow]
  by_cases h : 12 ≤ i
  · simp [h, hi]
  · simp [h]

theorem qbaseWrite_sets (h : hasQueue fn q = true) (hbound : (s.partOfFn fn).isSome = true) (hstate : s.boot.state = 2) :
    ((s.queue fn q).en = true → Ends (.qbaseWrite fn q val) s fun t => t = s) ∧
      ((s.queue fn q).en = false → Ends (.qbaseWrite fn q val) s fun t =>
        OnlyQueue s t fn q { s.queue fn q with base := BitVec.ofNat 64 (val.toNat / 4096 * 4096) }) := by
  have hexec := (exec_qbaseWrite s fn q val).trans (queueWrite_open h hbound hstate _ _)
  refine ⟨fun hen => ⟨_, hexec, if_pos hen⟩, fun hen => ⟨_, hexec, ?_⟩⟩
  rw [if_neg (ne_true_of_eq_false hen), pageMask]
  exact onlyQueue_setQueue h _

theorem getLsbD_zero_eq (val : Word) : val.getLsbD 0 = (val.toNat % 2 == 1) := by
  rw [BitVec.getLsbD, Nat.testBit_zero]
  rfl

/-- QCFG after a write, by EN before and after (R84). -/
theorem writeCfg_cases (r : QRegs) (val : Word) :
    let v := val.toNat
    let cfg : QRegs := { r with errvec := bitsN v 31 24, prio := bitsN v 19 16 }
    (r.en = true → r.writeCfg val = { cfg with en := val.getLsbD 0 }) ∧
    (r.en = false → val.getLsbD 0 = true → 4 ≤ bitsN v 8 4 → bitsN v 8 4 ≤ 16 → r.writeCfg val = { cfg with
      sizelog := bitsN v 8 4, en := true, qread := 0, notified := 0, erridx := 0, errcode := 0, stopped := false, polls := 0,
      enables := r.enables + 1 }) ∧
    (r.en = false → val.getLsbD 0 = false → r.writeCfg val = { cfg with sizelog := bitsN v 8 4 }) := by
  intro v cfg
  refine ⟨fun hen => ?_, fun hen hbit h4 h16 => ?_, fun hen hbit => ?_⟩
  · rw [getLsbD_zero_eq]
    simp only [QRegs.writeCfg, hen, if_true]
    rfl
  · rw [getLsbD_zero_eq, beq_iff_eq] at hbit
    simp only [QRegs.writeCfg, hen, Bool.false_eq_true, if_false]
    exact if_pos (by simp [v, hbit, h4, h16])
  · rw [getLsbD_zero_eq, beq_eq_false_iff_ne] at hbit
    simp only [QRegs.writeCfg, hen, Bool.false_eq_true, if_false]
    refine (if_neg ?_).trans (by rw [show cfg.en = false from hen])
    simp [hbit]

theorem qcfgWrite_sets (h : hasQueue fn q = true) (hbound : (s.partOfFn fn).isSome = true) (hstate : s.boot.state = 2) :
    let r := s.queue fn q
    let v := val.toNat
    let cfg : QRegs := { r with errvec := bitsN v 31 24, prio := bitsN v 19 16 }
    (r.en = true → Ends (.qcfgWrite fn q val) s fun t => OnlyQueue s t fn q { cfg with en := val.getLsbD 0 }) ∧
    (r.en = false → val.getLsbD 0 = true → 4 ≤ bitsN v 8 4 → bitsN v 8 4 ≤ 16 → Ends (.qcfgWrite fn q val) s fun t => OnlyQueue s t fn q
      { cfg with
        sizelog := bitsN v 8 4, en := true, qread := 0, notified := 0, erridx := 0, errcode := 0, stopped := false, polls := 0,
        enables := r.enables + 1 }) ∧
    (r.en = false → val.getLsbD 0 = false → Ends (.qcfgWrite fn q val) s fun t => OnlyQueue s t fn q { cfg with sizelog := bitsN v 8 4 }) := by
  intro r v cfg
  have hends (r' : QRegs) (hr : r.writeCfg val = r') : Ends (.qcfgWrite fn q val) s fun t => OnlyQueue s t fn q r' :=
    ⟨_, (exec_qcfgWrite s fn q val).trans (queueWrite_open h hbound hstate _ _), by rw [← hr]; exact onlyQueue_setQueue h _⟩
  obtain ⟨hkeep, hstart, hset⟩ := writeCfg_cases r val
  exact ⟨fun hen => hends _ (hkeep hen), fun hen hbit h4 h16 => hends _ (hstart hen hbit h4 h16), fun hen hbit => hends _ (hset hen hbit)⟩

theorem qstatWrite_sets (h : hasQueue fn q = true) (hbound : (s.partOfFn fn).isSome = true) (hstate : s.boot.state = 2) :
    (val.getLsbD 1 = true → Ends (.qstatWrite fn q val) s fun t =>
        OnlyQueue s t fn q { s.queue fn q with stopped := false, errcode := 0 }) ∧
      (val.getLsbD 1 = false → Ends (.qstatWrite fn q val) s fun t => t = s) := by
  have hexec := (exec_qstatWrite s fn q val).trans (queueWrite_open h hbound hstate _ _)
  refine ⟨fun hbit => ⟨_, hexec, ?_⟩, fun hbit => ⟨_, hexec, if_neg (ne_true_of_eq_false hbit)⟩⟩
  rw [if_pos hbit]
  exact onlyQueue_setQueue h _

/-! ### A queue that stops (R102) -/

theorem OnlySeqs.refl (s : State) : OnlySeqs s s := fun _ => rfl

theorem onlySeqs_of_threads {s t u : State} (h : OnlySeqs s t) (hu : u.threads = t.threads) : OnlySeqs s u := by
  intro x
  have hx : u.thread x = t.thread x := congrArg (fun l => SMap.get Thread.init l x) hu
  rw [hx]
  exact h x

theorem takeSeq_onlySeqs (s : State) (x : Nat) : ∃ n threads, s.takeSeq x = (n, { s with threads := threads }) ∧
    OnlySeqs s { s with threads := threads } := by
  have honly : OnlySeqs s (s.setThread x { s.thread x with seq := (s.thread x).seq + 1 }) := by
    intro y
    rw [State.thread_setThread]
    split
    · next hy => rw [hy]
    · rfl
  exact ⟨_, _, rfl, honly⟩

theorem cpSeq_onlySeqs (s : State) (p c : Nat) : ∃ n threads, s.cpSeq p c = (n, { s with threads := threads }) ∧
    OnlySeqs s { s with threads := threads } := by
  rw [State.cpSeq]
  split
  · split
    · exact ⟨0, s.threads, rfl, OnlySeqs.refl s⟩
    · exact takeSeq_onlySeqs s _
  · exact ⟨0, s.threads, rfl, OnlySeqs.refl s⟩

theorem leaveOut_irq (s : State) {i : Item} {fn v : Nat} (h : i.body = .irq fn v) : ∃ ok outs, s.leaveOut i = (ok, { s with outs := outs }) := by
  simp only [State.leaveOut, h]
  split
  · exact ⟨_, s.outs, rfl⟩
  · exact ⟨_, _, rfl⟩

theorem commitOut_irq (s : State) (p c : Nat) {i : Item} {fn v : Nat} (h : i.body = .irq fn v) :
    ∃ tiles outs egressQ, s.commitOut p c i = { s with tiles := tiles, outs := outs, egressQ := egressQ } := by
  obtain ⟨ok, outs, hleave⟩ := leaveOut_irq s h
  simp only [State.commitOut, h]
  split
  · split
    · rw [State.askBoundary]
      split <;> exact ⟨_, _, _, rfl⟩
    · rw [State.leaveExposed, hleave]
      cases ok <;> exact ⟨s.tiles, outs, s.egressQ, rfl⟩
  · rw [State.leave, hleave]
    exact ⟨s.tiles, outs, s.egressQ, rfl⟩

theorem irqOut_frame (s : State) (p c fn id vector : Nat) : ∃ threads tiles outs egressQ,
    s.irqOut p c fn id vector = { s with threads := threads, tiles := tiles, outs := outs, egressQ := egressQ } ∧
      OnlySeqs s { s with threads := threads } := by
  obtain ⟨n, threads, hseq, honly⟩ := cpSeq_onlySeqs s p c
  unfold State.irqOut
  rw [hseq]
  obtain ⟨tiles, outs, egressQ, hout⟩ := commitOut_irq { s with threads := threads } p c (i := { State.cpItem { s with threads := threads } p c fn
    .hostMem (.irq fn vector) with ord := id, seq := n }) (fn := fn) (v := vector) rfl
  exact ⟨threads, tiles, outs, egressQ, hout, honly⟩

/-- A queue that stops on an error shows it, raises its vector and leaves a record. -/
theorem stopQueue_spec {p : Nat} (hpart : (s.partOfFn fn).getD p = p) (code idx : Nat) :
    (s.stopQueue p fn q code idx).queue fn q =
        { s.queue fn q with stopped := true, errcode := code, erridx := BitVec.ofNat 32 idx, polls := 0 } ∧
      (s.stopQueue p fn q code idx).cores = s.cores ∧ (s.stopQueue p fn q code idx).taken = s.taken ∧
      OnlySeqs s (s.stopQueue p fn q code idx) := by
  unfold State.stopQueue
  extract_lets r u
  rw [if_neg (not_not.mpr hpart)]
  obtain ⟨threads, tiles, outs, egressQ, hirq, honly⟩ := irqOut_frame u p (u.server p q) fn 0 r.errvec
  generalize u.irqOut p (u.server p q) fn 0 r.errvec = v at hirq ⊢
  obtain ⟨_, _, _, _, _, _, _, -, hrec⟩ := record_frame v p (bytesOf 2 3 ++
    bytesOf 1 (if fn = pf then 0xFF else fn) ++ bytesOf 1 q ++ bytesOf 4 p ++ bytesOf 8 idx ++ bytesOf 2 code ++ bytesOf 6 0)
  generalize hw : v.record3 p fn q idx code = w
  rw [← State.record3, hw] at hrec
  rw [hrec, hirq]
  exact ⟨queue_setQueue_self s fn q _, rfl, rfl, honly⟩

theorem qnotifyWrite_sets (h : hasQueue fn q = true) (hbound : (s.partOfFn fn).isSome = true) (hstate : s.boot.state = 2) :
    let r := s.queue fn q
    let n : BitVec 32 := val.setWidth 32
    let fits := (n - r.qread).toNat ≤ 2 ^ r.sizelog ∧ (n - r.notified).toNat ≤ 2 ^ r.sizelog
    (fits → Ends (.qnotifyWrite fn q val) s fun t => OnlyQueue s t fn q { r with notified := n }) ∧
    (¬ fits → Ends (.qnotifyWrite fn q val) s fun t =>
      t.queue fn q = { r with stopped := true, errcode := 8, erridx := n, polls := 0 } ∧ t.cores = s.cores ∧
        t.taken = s.taken ∧ OnlySeqs s t) := by
  intro r n fits
  have hexec := (exec_qnotifyWrite s fn q val).trans (queueWrite_open h hbound hstate _ _)
  have hiff : r.accepts n = true ↔ fits := by simp [QRegs.accepts, fits]
  refine ⟨fun hfits => ⟨_, hexec, ?_⟩, fun hfits => ⟨_, hexec, ?_⟩⟩
  · dsimp only
    rw [if_pos (hiff.mpr hfits)]
    exact onlyQueue_setQueue h _
  · dsimp only
    rw [if_neg (mt hiff.mp hfits)]
    have hpart : (s.partOfFn fn).getD ((s.partOfFn fn).getD 0) = (s.partOfFn fn).getD 0 := by
      obtain ⟨p, hp⟩ := Option.isSome_iff_exists.mp hbound
      rw [hp]
      rfl
    have hspec := stopQueue_spec (q := q) hpart 8 n.toNat
    rw [BitVec.ofNat_toNat, BitVec.setWidth_eq] at hspec
    exact hspec

/-! ### Accesses to BAR0 (R66-R69, R83) -/

theorem registerWrite_refused {off size : Nat} (hfn : fn ≤ 16) (h : size ≠ 8 ∨ s.partOfFn fn = none) :
    Ends (.registerWrite fn off size val) s fun t => t = s.unsupported fn off := by
  refine ⟨_, ?_, rfl⟩
  show execRegisterWrite fn off size val s = _
  have hpf : ¬ pf < fn := Nat.not_lt.mpr hfn
  rw [execRegisterWrite, if_neg hpf]
  exact if_pos (by rcases h with h | h <;> simp [h])

theorem registerWrite_page (h : hasQueue fn q = true) (hbound : (s.partOfFn fn).isSome = true) {r : Nat} (hr : r < 0x1000) (hr8 : r % 8 = 0) :
    exec (.registerWrite fn ((if fn = pf then 0x100000 else 0) + 0x1000 * q + r) 8 val) s = pageWrite s fn q r val := by
  have hq := hasQueue_lt h
  have hfn : ¬ pf < fn := by
    simp [hasQueue, pf] at h ⊢
    omega
  have hsome : (s.partOfFn fn).isNone = false := by
    rw [← Option.not_isSome, hbound]
    rfl
  show execRegisterWrite fn _ 8 val s = _
  rw [execRegisterWrite, if_neg hfn]
  have hrefused (off : Nat) (hoff : off % 8 = 0) : ¬ (decide (8 ≠ 8) || decide (off % 8 ≠ 0) || (s.partOfFn fn).isNone) = true := by
    simp [hoff, hsome]
  by_cases hpf : fn = pf
  · have hq4 : q < 4 := by
      simp [hasQueue, hpf, pf] at h
      exact h
    have hnot {lo hi : Nat} (hlo : hi ≤ 0x100000) : ¬ (decide (lo ≤ 0x100000 + 0x1000 * q + r) && decide (0x100000 + 0x1000 * q + r < hi)) = true := by
      simp only [Bool.and_eq_true, decide_eq_true_eq]
      omega
    have hin : (decide (0x100000 ≤ 0x100000 + 0x1000 * q + r) && decide (0x100000 + 0x1000 * q + r < 0x104000)) = true := by
      simp only [Bool.and_eq_true, decide_eq_true_eq]
      omega
    rw [if_pos hpf, if_neg (hrefused _ (by omega)), if_pos hpf, if_neg (hnot (by decide)), if_neg (hnot (by decide)), if_pos hin]
    rw [show (0x100000 + 0x1000 * q + r - 0x100000) / 0x1000 = q by omega, show (0x100000 + 0x1000 * q + r) % 0x1000 = r by omega]
  · rw [if_neg hpf, if_neg (hrefused _ (by omega)), if_neg hpf, if_pos (show 0 + 0x1000 * q + r < 0x10000 by omega),
      show (0 + 0x1000 * q + r) / 0x1000 = q by omega, show (0 + 0x1000 * q + r) % 0x1000 = r by omega]

theorem xor_sub {x : Nat} (h : x < 2 ^ 16) : 0xFFFF ^^^ x = 0xFFFF - x := by
  have hx := congrArg BitVec.toNat (BitVec.allOnes_xor (x := BitVec.ofNat 16 x))
  rw [BitVec.toNat_xor, BitVec.toNat_not, BitVec.toNat_ofNat, Nat.mod_eq_of_lt h, BitVec.toNat_allOnes] at hx
  exact hx

theorem portStatusWrite_clears {port : Nat} (hport : port < 64) : Ends (.portStatusWrite port val) s fun t =>
    { t with ports := s.ports } = s ∧ t.port port = { s.port port with
      crcerr := (s.port port).crcerr &&& (0xFFFF - val.toNat / 2 ^ 48)
      replay := (s.port port).replay &&& (0xFFFF - val.toNat / 2 ^ 32 % 2 ^ 16) } ∧ ∀ k, k ≠ port → t.port k = s.port k := by
  have hbits : bitsN val.toNat 63 48 = val.toNat / 2 ^ 48 ∧ bitsN val.toNat 47 32 = val.toNat / 2 ^ 32 % 2 ^ 16 := by
    have := val.isLt
    refine ⟨?_, by rw [bitsN, Nat.shiftRight_eq_div_pow]⟩
    rw [bitsN, Nat.shiftRight_eq_div_pow]
    exact Nat.mod_eq_of_lt (show val.toNat / 2 ^ 48 < 2 ^ 16 by omega)
  have hexec : exec (.portStatusWrite port val) s = .next (s.setPort port { s.port port with
      crcerr := (s.port port).crcerr &&& (0xFFFF - val.toNat / 2 ^ 48)
      replay := (s.port port).replay &&& (0xFFFF - val.toNat / 2 ^ 32 % 2 ^ 16) }) := by
    have h48 : val.toNat / 2 ^ 48 < 2 ^ 16 := by
      have := val.isLt
      omega
    show execPortStatusWrite port val s = _
    simp only [execPortStatusWrite, hbits.1, hbits.2, xor_sub h48, xor_sub (Nat.mod_lt (val.toNat / 2 ^ 32) (Nat.two_pow_pos 16))]
  refine ⟨_, hexec, rfl, ?_, fun k hk => ?_⟩
  · exact (vget_vset _ _ _ _ _).trans (if_pos ⟨rfl, hport⟩)
  · exact (vget_vset _ _ _ _ _).trans (if_neg fun h => hk h.1)

theorem registerWrite_port {port : Nat} (hport : port < 64) :
    exec (.registerWrite pf (0x10000 + 8 * port) 8 val) s = exec (.portStatusWrite port val) s := by
  show execRegisterWrite pf (0x10000 + 8 * port) 8 val s = execPortStatusWrite port val s
  have hsome : s.partOfFn pf = some 0 := if_pos rfl
  have hnot : ¬ (decide (0x1000 ≤ 0x10000 + 8 * port) && decide (0x10000 + 8 * port < 0x1080)) = true := by
    simp only [Bool.and_eq_true, decide_eq_true_eq]
    omega
  have hin : (decide (0x10000 ≤ 0x10000 + 8 * port) && decide (0x10000 + 8 * port < 0x10200)) = true := by
    simp only [Bool.and_eq_true, decide_eq_true_eq]
    omega
  have hrefused : ¬ (decide (8 ≠ 8) || decide ((0x10000 + 8 * port) % 8 ≠ 0) || (s.partOfFn pf).isNone) = true := by
    rw [hsome, show (0x10000 + 8 * port) % 8 = 0 by omega]
    decide
  rw [execRegisterWrite, if_neg (lt_irrefl pf), if_neg hrefused, if_pos rfl, if_neg hnot, if_pos hin,
    show (0x10000 + 8 * port - 0x10000) / 8 = port by omega]

end

/-! ### Flits (R72, R73) -/

section
variable {s : State} {port lanes : Nat} {ok : Bool} {words : List Word}

theorem flit_unserved (ask : Option Nat) (h2 : (s.port port).state ≠ 2) (h3 : (s.port port).state ≠ 3) :
    Ends (.flitReceive port ok ask lanes words) s fun t => t = s := by
  refine ⟨s, ?_, rfl⟩
  show execFlitReceive port ok ask lanes words s = _
  exact if_pos (by simp [Port.inService, h2, h3])

theorem inService_iff (x : Port) : x.inService = true ↔ x.state = 2 ∨ x.state = 3 := by simp [Port.inService]

theorem exec_flit (hup : (s.port port).state = 2 ∨ (s.port port).state = 3) (ask : Option Nat) :
    exec (.flitReceive port ok ask lanes words) s = match ask with
      | some q => .next (s.resend port q)
      | none =>
        let head := (words.getD 0 0).toNat
        if !ok || (head % 16 ≠ 1 && head % 16 ≠ 2) then
          let u := { s.setPort port ((s.port port).askReplay s.refTime lanes) with outs := s.outs ++ [.replayRequest port (s.port port).lseq] }
          .next (if (u.port port).inService then u else u.portDown port)
        else if bitsN head 23 8 ≠ (s.port port).lseq then .next s
        else .next ((s.setPort port { s.port port with lseq := ((s.port port).lseq + 1) % 2 ^ 16 }).flitData words) := by
  show execFlitReceive port ok ask lanes words s = _
  have hin : (!(s.port port).inService) = false := by rw [(inService_iff _).mpr hup]; rfl
  simp only [execFlitReceive, hin, Bool.false_eq_true, if_false] <;> rfl

/-- The flits that a request of the other end sends again: from the last with the number on, or none. -/
theorem resend_named {before after : List Flit} {named : Flit} {from_ : Nat} (hretry : (s.port port).retry = before ++ named :: after)
    (hnamed : named.seq = from_ % 2 ^ 16) (hafter : ∀ f ∈ after, f.seq ≠ from_ % 2 ^ 16) :
    s.resend port from_ = { s.setPort port { s.port port with retry := named :: after } with
      outs := s.outs ++ (named :: after).map fun f => .flit port f.words } := by
  have hrest : (s.port port).retry.reverse.takeWhile (fun f => !f.seq == from_ % 2 ^ 16) = after.reverse := by
    rw [hretry, List.reverse_append, List.reverse_cons, List.append_assoc, List.takeWhile_append_of_pos]
    · simp [hnamed]
    · simpa using hafter
  have hany : ((s.port port).retry.any fun f => f.seq == from_ % 2 ^ 16) = true := by simp [hretry, hnamed]
  have hdrop : (s.port port).retry.drop ((s.port port).retry.length - after.length - 1) = named :: after := by
    rw [hretry, List.length_append, List.length_cons, show before.length + (after.length + 1) - after.length - 1 = before.length by omega,
      List.drop_left]
  simp only [State.resend, hrest, hany, List.reverse_reverse, if_true, hdrop]

theorem resend_none {from_ : Nat} (h : ∀ f ∈ (s.port port).retry, f.seq ≠ from_ % 2 ^ 16) :
    s.resend port from_ = { s.setPort port { s.port port with retry := [] } with
      outs := s.outs ++ ([] : List Flit).map fun f => .flit port f.words } := by
  have hany : ((s.port port).retry.any fun f => f.seq == from_ % 2 ^ 16) = false := by simpa using h
  simp only [State.resend, hany, Bool.false_eq_true, if_false]

/-- The state of a port that asks for a replay is one in service, or 0. -/
theorem askReplay_state {x : Port} (hup : x.state = 2 ∨ x.state = 3) (now lanes : Nat) :
    (x.askReplay now lanes).inService = true ↔ (x.askReplay now lanes).state ≠ 0 := by
  rw [inService_iff, Port.askReplay]
  extract_lets
  split
  · simp only
    omega
  · dsimp only
    split
    · simp
    · split <;> simp

theorem port_setPort_self {x : Port} (hport : port < 64) : (s.setPort port x).port port = x :=
  (vget_vset _ _ _ _ _).trans (if_pos ⟨rfl, hport⟩)

theorem port_lt (hup : (s.port port).state = 2 ∨ (s.port port).state = 3) : port < 64 := by
  by_contra hge
  have hinit : s.port port = Port.init := by rw [State.port, vget, dif_neg hge]
  rw [hinit] at hup
  exact absurd hup (by decide)

/-- A flit that is not good asks for a replay; the port that no lane is left to goes down. -/
theorem flit_bad (hup : (s.port port).state = 2 ∨ (s.port port).state = 3)
    (hbad : ok = false ∨ ((words.getD 0 0).toNat % 16 ≠ 1 ∧ (words.getD 0 0).toNat % 16 ≠ 2)) :
    let x := s.port port
    let asked := { s.setPort port (x.askReplay s.refTime lanes) with outs := s.outs ++ [.replayRequest port x.lseq] }
    Ends (.flitReceive port ok none lanes words) s fun t =>
      ((x.askReplay s.refTime lanes).state ≠ 0 → t = asked) ∧ ((x.askReplay s.refTime lanes).state = 0 → t = asked.portDown port) := by
  intro x asked
  have hport : asked.port port = x.askReplay s.refTime lanes := port_setPort_self (port_lt hup)
  have hin := askReplay_state hup s.refTime lanes
  have hexec := exec_flit (ok := ok) (lanes := lanes) (words := words) hup none
  dsimp only at hexec
  rw [if_pos (by rcases hbad with h | ⟨h1, h2⟩ <;> simp_all)] at hexec
  refine ⟨_, hexec, fun h => ?_, fun h => ?_⟩
  · exact if_pos ((congrArg Port.inService hport).trans (hin.mpr h))
  · exact if_neg fun g => hin.mp ((congrArg Port.inService hport).symm.trans g) h

section
variable (hup : (s.port port).state = 2 ∨ (s.port port).state = 3) (hok : ok = true)
  (htyp : (words.getD 0 0).toNat % 16 = 1 ∨ (words.getD 0 0).toNat % 16 = 2)
include hup hok htyp

theorem exec_goodFlit : exec (.flitReceive port ok none lanes words) s =
    if (words.getD 0 0).toNat / 2 ^ 8 % 2 ^ 16 ≠ (s.port port).lseq then .next s
    else .next ((s.setPort port { s.port port with lseq := ((s.port port).lseq + 1) % 2 ^ 16 }).flitData words) := by
  have hseq : bitsN (words.getD 0 0).toNat 23 8 = (words.getD 0 0).toNat / 2 ^ 8 % 2 ^ 16 := by
    rw [bitsN, Nat.shiftRight_eq_div_pow]
  rw [exec_flit hup none]
  dsimp only
  generalize (words.getD 0 0).toNat = head at htyp hseq ⊢
  rw [if_neg (by rcases htyp with h | h <;> simp [hok, h]), hseq]

theorem flit_outOfSequence (hseq : (words.getD 0 0).toNat / 2 ^ 8 % 2 ^ 16 ≠ (s.port port).lseq) :
    Ends (.flitReceive port ok none lanes words) s fun t => t = s :=
  ⟨s, (exec_goodFlit hup hok htyp).trans (if_pos hseq), rfl⟩

theorem flit_inSequence (hseq : (words.getD 0 0).toNat / 2 ^ 8 % 2 ^ 16 = (s.port port).lseq) :
    exec (.flitReceive port ok none lanes words) s =
      .next ((s.setPort port { s.port port with lseq := ((s.port port).lseq + 1) % 2 ^ 16 }).flitData words) :=
  (exec_goodFlit hup hok htyp).trans (if_neg (not_not.mpr hseq))

end

theorem flitData_bulk (h : (words.getD 0 0).toNat % 16 = 2) : s.flitData words = s := by
  rw [State.flitData]
  exact if_neg (by rw [h]; decide)

theorem getD_slot (o j : Nat) (hj : j < 10) : ((words.drop o).take 10).getD j 0 = words.getD (o + j) 0 := by
  simp [List.getD_eq_getElem?_getD, hj]

theorem peerSlot_empty {w : List Word} (h0 : w.getD 0 0 = 0) (h1 : w.getD 1 0 = 0) : s.peerSlot w = s := by
  rw [State.peerSlot, h0, h1]
  rfl

/-- A message flit with its first slot in use. -/
theorem flitData_first (htyp : (words.getD 0 0).toNat % 16 = 1) (hempty : ∀ j ∈ [11, 12, 21, 22], words.getD j 0 = 0) :
    s.flitData words = s.peerSlot ((words.drop 1).take 10) := by
  have hslot (u : State) {o : Nat} (h0 : words.getD o 0 = 0) (h1 : words.getD (o + 1) 0 = 0) : u.peerSlot ((words.drop o).take 10) = u :=
    peerSlot_empty ((getD_slot o 0 (by decide)).trans h0) ((getD_slot o 1 (by decide)).trans h1)
  rw [State.flitData, if_pos htyp, List.foldl_cons, List.foldl_cons, List.foldl_cons, List.foldl_nil,
    hslot _ (hempty 11 (by simp)) (hempty 12 (by simp)), hslot _ (hempty 21 (by simp)) (hempty 22 (by simp))]

/-- A message of another device, of a job that a partition holds, goes to its core. -/
theorem peerSlot_message {p : Nat} (w : List Word) (h0 : w.getD 0 0 ≠ 0) (hkind : (headerOf (w.getD 0 0).toNat (w.getD 1 0).toNat).kind < 6)
    (howner : s.jobOwner (headerOf (w.getD 0 0).toNat (w.getD 1 0).toNat).job = some p) :
    ∃ i m, s.peerSlot w = s.emit i ∧ i.body = .message m ∧
      i.dst = .core ((headerOf (w.getD 0 0).toNat (w.getD 1 0).toNat).drank / 8) ∧ i.part = p ∧
      m.hdr = headerOf (w.getD 0 0).toNat (w.getD 1 0).toNat ∧ i.stage = .waiting ∧ ∀ j, j < 8 → vget 0 m.payload j = w.getD (2 + j) 0 := by
  have ha : (w.getD 0 0).toNat ≠ 0 := fun h => h0 (BitVec.eq_of_toNat_eq h)
  have hsmall : bitsN (w.getD 0 0).toNat 11 8 < 7 := lt_trans hkind (by decide)
  have hmsg : s.peerSlot w = s.peerMessage w := by
    simp only [State.peerSlot, ha, hsmall, decide_false, Bool.false_and, Bool.false_eq_true, if_false, if_true]
  rw [hmsg]
  unfold State.peerMessage
  extract_lets a b h m _ i
  refine ⟨i, m, ?_, rfl, rfl, ?_, rfl, rfl, fun j hj => ?_⟩
  · have hsent : ¬ (decide (a = 0) && decide (b = 0) || decide (6 ≤ h.kind)) = true := by
      simp [show a ≠ 0 from ha, show h.kind < 6 from hkind]
    rw [if_neg hsent, if_neg (by rw [show s.jobOwner h.job = some p from howner]; simp)]
  · show (s.jobOwner h.job).getD 0 = p
    rw [show s.jobOwner h.job = some p from howner]
    rfl
  · show vget 0 (Vector.ofFn fun i : Fin 8 => w.getD (2 + i.val) 0) j = _
    rw [vget, dif_pos hj, Vector.getElem_ofFn]

end

/-- Settles O43. -/
theorem hostPortResults : Obligations.HostPortResults := by
  unfold Obligations.HostPortResults
  constructor
  · intro s fn q port val r v bound page only cfg refusedAt same portOnly
    refine ⟨earlyWrites_dropped, fun h hbound hstate => ?_, fun hfn hq hnone => ?_, fun size hfn hsize => registerWrite_refused hfn (.inl hsize),
      fun hport => ⟨portStatusWrite_clears hport, ?_⟩⟩
    · have hpage (off : Nat) (hoff : off < 0x1000) (h8 : off % 8 = 0) :
          exec (.registerWrite fn (page + off) 8 val) s = pageWrite s fn q off val := registerWrite_page h hbound hoff h8
      obtain ⟨hkeep, hbase⟩ := qbaseWrite_sets (val := val) h hbound hstate
      obtain ⟨hcfg, hstart, hset⟩ := qcfgWrite_sets (val := val) h hbound hstate
      obtain ⟨hstat, hsame⟩ := qstatWrite_sets (val := val) h hbound hstate
      refine ⟨hkeep, hbase, hcfg, hstart, hset, qnotifyWrite_sets h hbound hstate, hstat, hsame, fun hen => ?_, hpage 8 (by decide) rfl,
        hpage 0x10 (by decide) rfl, hpage 0x20 (by decide) rfl⟩
      obtain ⟨t, hexec, ht⟩ := hbase hen
      exact ⟨t, (hpage 0 (by decide) rfl).trans hexec, ht⟩
    · have hqueue : queuePage fn q = page := rfl
      exact ⟨⟨_, (exec_qbaseWrite s fn q val).trans (queueWrite_unbound hfn hq hnone _ _), rfl⟩,
        ⟨_, (exec_qcfgWrite s fn q val).trans (queueWrite_unbound hfn hq hnone _ _), rfl⟩,
        ⟨_, (exec_qnotifyWrite s fn q val).trans (queueWrite_unbound hfn hq hnone _ _), rfl⟩,
        ⟨_, (exec_qstatWrite s fn q val).trans (queueWrite_unbound hfn hq hnone _ _), rfl⟩,
        registerWrite_refused (by omega) (.inr hnone)⟩
    · obtain ⟨t, hexec, ht⟩ := portStatusWrite_clears (s := s) (val := val) hport
      exact ⟨t, (registerWrite_port hport).trans hexec, ht⟩
  · intro s port from_ lanes p ok words before after named x typ lseq flit again asked resent h next
    refine ⟨fun h2 h3 => ⟨flit_unserved none h2 h3, flit_unserved (some from_) h2 h3⟩, fun hup => ?_⟩
    have hagain : exec again s = .next (s.resend port from_) := exec_flit hup (some from_)
    refine ⟨fun hretry hnamed hafter => ⟨_, hagain, resend_named hretry hnamed hafter⟩, fun hnone => ⟨_, hagain, resend_none hnone⟩,
      flit_bad hup, fun hok htyp hseq => flit_outOfSequence hup hok htyp hseq, fun hok htyp hseq => ?_, fun hok htyp hseq h1 hkind howner hempty => ?_⟩
    · exact ⟨_, flit_inSequence hup hok (.inr htyp) hseq, flitData_bulk htyp⟩
    · obtain ⟨i, m, hslot, hi⟩ := peerSlot_message (s := next) (p := p) ((words.drop 1).take 10)
        (by rwa [getD_slot 1 0 (by decide)]) (by rwa [getD_slot 1 0 (by decide), getD_slot 1 1 (by decide)])
        (by rwa [getD_slot 1 0 (by decide), getD_slot 1 1 (by decide)])
      rw [getD_slot 1 0 (by decide), getD_slot 1 1 (by decide)] at hi
      obtain ⟨hbody, hdst, hpart, hhdr, hstage, hpayload⟩ := hi
      refine ⟨_, flit_inSequence hup hok (.inl htyp) hseq, ?_⟩
      rw [flitData_first htyp hempty, hslot]
      refine ⟨rfl, _, m, rfl, hbody, hdst, hpart, hhdr, hstage, fun j hj => (hpayload j hj).trans ?_⟩
      rw [getD_slot 1 (2 + j) (by omega), show 1 + (2 + j) = 3 + j by omega]

end Sys2Proof.Machine
end

section
/-!
PROOFS. Packets as a command processor takes them, and the polls of a slot (spec/05_command.md R86-R103, R150).
-/

namespace Sys2Proof.Machine

/-! ### Accepting and failing (R93, R96, R102, R107) -/

theorem notePacket_frame (s : State) (t : Taken) (typ : Nat) (body : List Word) :
    { s.notePacket t typ body with tiles := s.tiles, firnMem := s.firnMem } = s := by
  rw [State.notePacket]
  split
  · exact logRec_frame s _ _
  · rfl

theorem addPacket_frame (s : State) (t : Taken) : ∃ tiles firnMem, s.addPacket t =
    { s with taken := s.taken ++ [t], tiles := tiles, firnMem := firnMem } := by
  unfold State.addPacket
  extract_lets body
  have h := notePacket_frame { s with taken := s.taken ++ [t] } t 13 body
  generalize State.notePacket { s with taken := s.taken ++ [t] } t 13 body = u at h
  exact ⟨u.tiles, u.firnMem, (congrArg (fun v : State => { v with tiles := u.tiles, firnMem := u.firnMem }) h :)⟩

theorem addPacket_taken (s : State) (t : Taken) : (s.addPacket t).taken = s.taken ++ [t] := by
  obtain ⟨_, _, h⟩ := addPacket_frame s t
  rw [h]

/-- What accepting a packet leaves. -/
def Accepted (u : State) (y : Taken) (t : State) : Prop :=
  (u.addPacket y).taken = u.taken ++ [y] ∧
    (y.typ ≠ 1 → y.typ ≠ 3 → y.typ ≠ 4 → y.typ ≠ 6 → y.typ ≠ 7 → t = u.addPacket y) ∧
    (y.typ = 3 ∨ y.typ = 4 → t =
      if (u.addPacket y).startable y = true ∧ (u.part y.part).assist.testBit 1 = false
      then (((u.addPacket y).setPacket y.id .running).evaluate y).2 else u.addPacket y)

theorem assistTaken_plain {u : State} {y : Taken} (h6 : y.typ ≠ 6) (h7 : y.typ ≠ 7) : u.assistTaken y = u := by
  simp [State.assistTaken, h6, h7]

theorem acceptPacket_accepted (u : State) (y : Taken) : Accepted u y (u.acceptPacket y) := by
  refine ⟨addPacket_taken u y, fun h1 h3 h4 h6 h7 => ?_, fun h => ?_⟩
  · unfold State.acceptPacket
    split
    · contradiction
    · contradiction
    · contradiction
    · contradiction
    · exact assistTaken_plain h6 h7
  · have hpart : ((u.addPacket y).part y.part).assisted 1 = (u.part y.part).assist.testBit 1 := by
      obtain ⟨_, _, hadd⟩ := addPacket_frame u y
      rw [hadd]
      rfl
    have haccept : u.acceptPacket y = if (u.addPacket y).startable y && !((u.addPacket y).part y.part).assisted 1
        then (((u.addPacket y).setPacket y.id .running).evaluate y).2 else u.addPacket y := by
      rcases h with h | h <;> simp only [State.acceptPacket, h]
    rw [haccept, hpart]
    simp only [Bool.and_eq_true, Bool.not_eq_true']

theorem takePacket_accepted {u : State} {y : Taken} (h : u.checkPacket y = 0) : Accepted u y (u.takePacket y) := by
  have htake : u.takePacket y = u.acceptPacket y := by
    rw [State.takePacket]
    exact if_pos h
  exact htake ▸ acceptPacket_accepted u y

/-- A packet of a host queue that fails its checks stops the queue. -/
theorem takePacket_fails {u : State} {y : Taken} {fn q : Nat} (hsrc : y.src = .vf fn q) (hcaps : y.caps = [])
    (hpart : (u.partOfFn fn).getD y.part = y.part) (h : u.checkPacket y ≠ 0) :
    (u.takePacket y).queue fn q =
        { u.queue fn q with stopped := true, errcode := u.checkPacket y, erridx := BitVec.ofNat 32 y.idx, polls := 0 } ∧
      OnlySeqs u (u.takePacket y) ∧ ∀ x ∈ (u.takePacket y).taken, x ∈ u.taken := by
  let v : State := { u with taken := u.taken.filter fun x => x.id != y.id }
  have htake : u.takePacket y = (v.noteFailed y).stopQueue y.part fn q (u.checkPacket y) y.idx := by
    rw [State.takePacket, if_neg h, State.failPacket, hsrc]
    simp only [State.failTop, State.dropPacket, hcaps, hsrc, State.holdCaps, List.foldl_nil]
    rfl
  have hnote := notePacket_frame v y 14 [BitVec.ofNat 64 y.id]
  rw [← State.noteFailed] at hnote
  obtain ⟨tiles, firnMem, hnote⟩ : ∃ tiles firnMem, v.noteFailed y = { v with tiles := tiles, firnMem := firnMem } :=
    ⟨(v.noteFailed y).tiles, (v.noteFailed y).firnMem,
      (congrArg (fun w : State => { w with tiles := (v.noteFailed y).tiles, firnMem := (v.noteFailed y).firnMem }) hnote :)⟩
  rw [htake, hnote]
  obtain ⟨hqueue, -, htaken, honly⟩ := stopQueue_spec (s := { v with tiles := tiles, firnMem := firnMem }) (fn := fn) (q := q) hpart
    (u.checkPacket y) y.idx
  refine ⟨hqueue, honly, fun x hx => ?_⟩
  rw [htaken] at hx
  exact List.mem_of_mem_filter hx

/-! ### A slot on the host (R86, R87) -/

section
variable {s : State} {p c fn q : Nat}

theorem wordsOfBytes_words8 (s : State) (k : Nat) : wordsOfBytes (s.bytes k 64) = s.words8 k := by
  unfold wordsOfBytes State.words8
  refine congrArg Vector.ofFn (funext fun i => congrArg (BitVec.ofNat 64) ?_)
  have hi := i.isLt
  have hsplit : Memory.readN s.mem k 64 = Memory.readN s.mem k (8 * i.val) ++ (Memory.readN s.mem (k + 8 * i.val) 8 ++
      Memory.readN s.mem (k + 8 * i.val + 8) (64 - 8 * i.val - 8)) := by
    rw [← readN_add, ← readN_add]
    congr 1
    omega
  rw [imgWord, State.num, State.bytes, State.bytes, hsplit, List.drop_left' (Memory.readN_length ..), List.take_left' (Memory.readN_length ..)]

/-- The header word of 64 bytes: its bytes, and its VALID bit. -/
theorem headerWord (s : State) (k : Nat) : ofBytes ((s.bytes k 64).take 8) = (vget 0 (s.words8 k) 0).toNat ∧
    ((s.bytes k 64).getD 0 0).getLsbD 0 = (vget 0 (s.words8 k) 0).getLsbD 0 := by
  have hword : vget 0 (s.words8 k) 0 = BitVec.ofNat 64 (ofBytes (Memory.readN s.mem k 8)) := by
    rw [vget, dif_pos (by decide), State.words8, Vector.getElem_ofFn]
    rfl
  have htake : (s.bytes k 64).take 8 = Memory.readN s.mem k 8 := (readN_take s.mem k 8 56).symm
  have hlt : ofBytes (Memory.readN s.mem k 8) < 2 ^ 64 := by
    have h := ofBytes_lt (Memory.readN s.mem k 8)
    rwa [Memory.readN_length] at h
  rw [hword, htake]
  refine ⟨(BitVec.toNat_ofNat _ _ ▸ Nat.mod_eq_of_lt hlt).symm, ?_⟩
  have hfirst : (s.bytes k 64).getD 0 0 = Memory.read s.mem k := rfl
  rw [hfirst, BitVec.getLsbD_ofNat, Memory.readN, ofBytes, BitVec.getLsbD, Nat.testBit_zero, Nat.testBit_zero]
  have hodd (b x : Nat) : (b + 256 * x) % 2 = b % 2 := by omega
  simp [hodd]

/-- What a read of a slot on the host does: the packet is taken, nothing while what it is read with does not answer, or a poll. -/
theorem readSlot_host (hslot : (s.queue fn q).slot.getLsbD 63 = true) :
    let r := s.queue fn q
    let at_ := kHost r.slot.toNat
    let w8 := s.words8 at_
    let back := (s.putNum at_ 8 ((vget 0 w8 0).toNat - 1)).sawHost fn (r.slot.toNat % 2 ^ 63) 8
    let u := { back.setQueue fn q { r with qread := r.qread + 1, polls := 0 } with nextId := s.nextId + 1 }
    s.readSlot p c fn q =
      if (vget 0 w8 0).getLsbD 0 then
        if s.readableNow p w8 then
          u.takePacket { newTaken s.nextId (.vf fn q) r.qread.toNat p c r.prio w8 0 0 with era := r.enables }
        else s
      else if 1000 ≤ r.polls + 1 then
        ((s.setQueue fn q { r with qread := r.qread + 1, polls := 0 }).noteFailed
          { newTaken 0 (.vf fn q) r.qread.toNat p c r.prio (wordsOfBytes []) 0 0 with era := r.enables }).stopQueue p fn q 7 r.qread.toNat
      else s.setQueue fn q { r with polls := r.polls + 1 } := by
  intro r at_ w8 back u
  have hdoors : s.doorsOpen p r.slot 64 = true := if_pos hslot
  have hform : pform r.slot = .host := if_pos hslot
  obtain ⟨hnum, hbit⟩ := headerWord s at_
  have hread : s.formRead p r.slot 64 = (some (s.bytes at_ 64), s) := by
    rw [State.formRead, hform]
  have hback (v : Nat) : s.headerBack p fn r.slot v = (s.putNum at_ 8 v).sawHost fn (r.slot.toNat % 2 ^ 63) 8 := by
    rw [State.headerBack, hform]
  have hwords : wordsOfBytes (s.bytes at_ 64) = w8 := wordsOfBytes_words8 s at_
  unfold State.readSlot
  extract_lets valid
  have hvalid : valid (some (s.bytes at_ 64)) = if (vget 0 w8 0).getLsbD 0 then some (s.bytes at_ 64) else none := by
    simp only [valid, Option.bind_some, hbit]
    rfl
  rw [show s.doorsOpen p r.slot 64 = true from hdoors, show s.formRead p r.slot 64 = (some (s.bytes at_ 64), s) from hread]
  simp only [hvalid, Bool.not_true, Bool.false_eq_true, if_false]
  by_cases hv : (vget 0 w8 0).getLsbD 0 = true
  · rw [if_pos hv, if_pos hv]
    dsimp only
    rw [hwords]
    cases hnow : s.readableNow p w8 with
    | false => rfl
    | true =>
      rw [show s.headerBack p fn r.slot _ = _ from hback _, hnum]
      rfl
  · rw [if_neg hv, if_neg hv]

/-- What is left by a read of the slot of a queue on the host. -/
def SlotRead (s : State) (p c fn q : Nat) (t : State) : Prop :=
  let r := s.queue fn q
  let at_ := kHost r.slot.toNat
  let w8 := s.words8 at_
  let pk := { newTaken s.nextId (.vf fn q) r.qread.toNat p c r.prio w8 0 0 with era := r.enables }
  let back := (s.putNum at_ 8 ((vget 0 w8 0).toNat - 1)).sawHost fn (r.slot.toNat % 2 ^ 63) 8
  let u := { back.setQueue fn q { r with qread := r.qread + 1, polls := 0 } with nextId := s.nextId + 1 }
  ((vget 0 w8 0).getLsbD 0 = true → s.readableNow p w8 = false → t = s) ∧
    ((vget 0 w8 0).getLsbD 0 = true → s.readableNow p w8 = true →
      (u.checkPacket pk = 0 → Accepted u pk t ∧ (pk.typ = 2 ∨ pk.typ = 5 ∨ 8 ≤ pk.typ →
        Stored s t at_ (bytesOf 8 ((vget 0 w8 0).toNat - 1)))) ∧
      (u.checkPacket pk ≠ 0 → t.queue fn q = { r with
        qread := r.qread + 1, polls := 0, stopped := true, errcode := u.checkPacket pk, erridx := r.qread } ∧ OnlySeqs s t ∧
        ∀ x ∈ t.taken, x ∈ s.taken)) ∧
    ((vget 0 w8 0).getLsbD 0 = false →
      (r.polls < 999 → t = s.setQueue fn q { r with polls := r.polls + 1 }) ∧
      (999 ≤ r.polls → t.queue fn q = { r with
        qread := r.qread + 1, polls := 0, stopped := true, errcode := 7, erridx := r.qread } ∧ t.taken = s.taken))

/-- The thousandth read of a slot that is not valid stops its queue. -/
theorem lastPoll_stops (hpart : (s.partOfFn fn).getD p = p) (y : Taken) (r : QRegs) (code idx : Nat) :
    (((s.setQueue fn q r).noteFailed y).stopQueue p fn q code idx).queue fn q =
        { r with stopped := true, errcode := code, erridx := BitVec.ofNat 32 idx, polls := 0 } ∧
      (((s.setQueue fn q r).noteFailed y).stopQueue p fn q code idx).taken = s.taken := by
  have hnote := notePacket_frame (s.setQueue fn q r) y 14 [BitVec.ofNat 64 y.id]
  rw [← State.noteFailed] at hnote
  generalize (s.setQueue fn q r).noteFailed y = v at hnote ⊢
  have hqueue : v.queue fn q = r := by
    rw [← queue_setQueue_self s fn q r, ← hnote]
    rfl
  have htaken : v.taken = s.taken := (congrArg State.taken hnote :)
  have hfn : v.partOfFn fn = s.partOfFn fn := (congrArg (State.partOfFn · fn) hnote :)
  obtain ⟨hstop, -, hlist, -⟩ := stopQueue_spec (s := v) (fn := fn) (q := q) (p := p) (by rw [hfn, hpart]) code idx
  rw [hstop, hlist, hqueue, htaken]
  exact ⟨rfl, rfl⟩

theorem readSlot_spec (hw : MemWf s) (hpart : (s.partOfFn fn).getD p = p) (hslot : (s.queue fn q).slot.getLsbD 63 = true) :
    SlotRead s p c fn q (s.readSlot p c fn q) := by
  have hread := readSlot_host (p := p) (c := c) hslot
  unfold SlotRead
  intro r at_ w8 pk back u
  rw [hread]
  refine ⟨fun hv hnow => ?_, fun hv hnow => ?_, fun hv => ?_⟩
  · rw [if_pos hv, if_neg (by rw [hnow]; decide)]
  · rw [if_pos hv, if_pos hnow]
    refine ⟨fun hok => ?_, fun hbad => ?_⟩
    · have haccept := takePacket_accepted hok
      refine ⟨haccept, fun htyp => stored_write hw ?_⟩
      have heq := haccept.2.1 (by omega) (by omega) (by omega) (by omega) (by omega)
      obtain ⟨tiles, firnMem, hadd⟩ := addPacket_frame u pk
      exact ((congrArg State.mem heq).trans (congrArg State.mem hadd) :)
    · have hback : u.queue fn q = { r with qread := r.qread + 1, polls := 0 } := queue_setQueue_self back fn q _
      obtain ⟨hqueue, honly, htaken⟩ := takePacket_fails (u := u) (y := pk) rfl rfl hpart hbad
      refine ⟨?_, onlySeqs_of_threads honly rfl, htaken⟩
      rw [hback] at hqueue
      refine hqueue.trans ?_
      simp only [pk, newTaken, BitVec.ofNat_toNat, BitVec.setWidth_eq]
  · rw [if_neg (by rw [hv]; decide)]
    refine ⟨fun hlt => if_neg (show ¬ 1000 ≤ r.polls + 1 by omega), fun hle => ?_⟩
    rw [if_pos (show 1000 ≤ r.polls + 1 by omega)]
    obtain ⟨hqueue, htaken⟩ := lastPoll_stops hpart
      { newTaken 0 (.vf fn q) r.qread.toNat p c r.prio (wordsOfBytes []) 0 0 with era := r.enables }
      { r with qread := r.qread + 1, polls := 0 } 7 r.qread.toNat
    refine ⟨hqueue.trans ?_, htaken⟩
    simp only [BitVec.ofNat_toNat, BitVec.setWidth_eq]

end

/-! ### Which queue is next (R101, R150) -/

/-- A queue that a control tile takes from next is one of those it may take from. -/
theorem nextTake_mem {s : State} {p c : Nat} {x : Nat × Nat × QSrc} (h : s.nextTake p c = some x) : x ∈ s.takeable p c := by
  unfold State.nextTake at h
  extract_lets l top l' at h
  have hsub : ∀ y ∈ l', y ∈ s.takeable p c := fun y hy => (List.mem_filter.mp hy).1
  split at h
  · rcases Option.or_eq_some_iff.mp h with h | ⟨-, h⟩
    · exact hsub x (List.mem_of_find?_eq_some h)
    · exact hsub x (List.mem_of_head? h)
  · exact hsub x (List.mem_of_head? h)

/-- A host queue that a control tile takes from belongs to its partition. -/
theorem partOfFn_of_nextTake {s : State} {p c prio key fn q : Nat} (h : s.nextTake p c = some (prio, key, .vf fn q)) :
    (s.partOfFn fn).getD p = p := by
  have hmem := nextTake_mem h
  unfold State.takeable at hmem
  rcases List.mem_append.mp hmem with hvf | hdev
  · obtain ⟨fn', hfn, hq⟩ := List.mem_flatMap.mp hvf
    obtain ⟨q', -, hsome⟩ := List.mem_filterMap.mp hq
    dsimp only at hsome
    split at hsome
    · obtain ⟨-, -, hsrc⟩ := Prod.mk.inj (Option.some.inj hsome) |>.imp id Prod.mk.inj
      obtain ⟨rfl, rfl⟩ := QSrc.vf.inj hsrc
      split at hfn
      · next hp =>
        split at hfn
        · rw [List.mem_singleton.mp hfn, State.partOfFn, if_pos rfl, hp]
          rfl
        · exact absurd hfn List.not_mem_nil
      · obtain ⟨hlt, hpart⟩ := List.mem_filter.mp hfn
        have hvf : fn' ≠ pf := Nat.ne_of_lt (List.mem_range.mp hlt)
        rw [State.partOfFn, if_neg hvf, beq_iff_eq.mp hpart]
        rfl
    · cases hsome
  · split at hdev
    · exact absurd hdev List.not_mem_nil
    · cases List.mem_singleton.mp hdev

/-! ### The steps (O45) -/

theorem packetTake_turn {s : State} {p c prio key : Nat} {src : QSrc} (hruns : s.cpRuns p c = true)
    (hnext : s.nextTake p c = some (prio, key, src)) :
    let turned := { s with turns := SMap.put s.turns (turnKey p c prio) key }
    exec (.packetTake p c) s = match (motive := QSrc → Out) src with
      | .vf fn q => .next (turned.readSlot p c fn q)
      | .device p c => .next (turned.takeDevice p c)
      | .graph _ => .next turned := by
  intro turned
  have hexec : exec (.packetTake p c) s = execPacketTake p c s := rfl
  rw [hexec, execPacketTake, hruns, hnext]
  cases src <;> rfl

theorem packetTake_none {s : State} {p c : Nat} (hruns : s.cpRuns p c = true) (hnext : s.nextTake p c = none) :
    exec (.packetTake p c) s = .next s := by
  have hexec : exec (.packetTake p c) s = execPacketTake p c s := rfl
  rw [hexec, execPacketTake, hruns, hnext]
  rfl

theorem takeDevice_takes {s : State} {p c n ch : Nat} {w : Vector Word 8} {mid : Word} {rest : List (Vector Word 8 × Word × Nat × Nat)}
    (hslots : (SMap.get DevQueue.init s.devq (p * 4 + c)).slots = (w, mid, n, ch) :: rest) :
    s.takeDevice p c = if !s.readableNow p w then s else
      { s with devq := SMap.put s.devq (p * 4 + c) { SMap.get DevQueue.init s.devq (p * 4 + c) with slots := rest }, nextId := s.nextId + 1
        }.takePacket (newTaken s.nextId (.device p c) 0 p c 8 w mid ch) := by
  unfold State.takeDevice
  simp only [hslots]

theorem validPoll_eq {s : State} {p c fn q : Nat} (hpart : s.partOfFn fn = some p) (hctl : c = if p = 0 then 0 else s.server p q)
    (hpolls : (s.queue fn q).polls ≠ 0) (hruns : s.cpRuns p c = true) :
    exec (.validPoll fn q) s =
      if !(s.queue fn q).en then .next (s.setQueue fn q { s.queue fn q with polls := 0 })
      else if (s.takeable p c).any fun x => (s.queue fn q).prio < x.1 then .next s
      else .next (s.readSlot p c fn q) := by
  have hexec : exec (.validPoll fn q) s = execValidPoll fn q s := rfl
  rw [hexec, execValidPoll, hpart]
  dsimp only
  rw [← hctl, hruns, decide_eq_false hpolls]
  rfl

/-- Settles O45: what is taken belongs to the partition, and a read of its slot takes the packet, waits or polls. -/
theorem packetTakeResults : Obligations.PacketTakeResults := by
  unfold Obligations.PacketTakeResults
  intro s p c prio key fn q w mid n ch rest r at_ w8 pk accept from_ turned hw hruns
  refine ⟨fun hnext hslot => ?_, fun hnext hslots => ?_, fun hnext => ⟨s, packetTake_none hruns hnext, rfl⟩,
    fun hpart hctl hpolls hen hslot => ⟨fun hle => ?_, fun hgt => ?_⟩, fun hpart hctl hpolls hen => ?_⟩
  · have hpart : (turned.partOfFn fn).getD p = p := (partOfFn_of_nextTake hnext :)
    exact ⟨_, packetTake_turn hruns hnext, readSlot_spec (s := turned) hw hpart hslot⟩
  · intro dev u
    have hturn := packetTake_turn hruns hnext
    have htake : turned.takeDevice p c = if !turned.readableNow p w then turned else u.takePacket dev := takeDevice_takes hslots
    refine ⟨fun hnow hok => ⟨_, hturn, ?_⟩, fun hnow => ⟨_, hturn, ?_⟩⟩
    · rw [htake, hnow]
      exact takePacket_accepted hok
    · rw [htake, hnow]
      rfl
  · refine ⟨s.readSlot p c fn q, ?_, readSlot_spec hw (by rw [hpart]; rfl) hslot⟩
    have hnone : ((s.takeable p c).any fun x => decide (r.prio < x.1)) = false := by
      simp only [List.any_eq_false, decide_eq_true_eq]
      exact fun x hx => Nat.not_lt.mpr (hle x hx)
    rw [validPoll_eq hpart hctl hpolls hruns, hen, hnone]
    rfl
  · obtain ⟨x, hx, hlt⟩ := hgt
    have hany : ((s.takeable p c).any fun x => decide (r.prio < x.1)) = true :=
      List.any_eq_true.mpr ⟨x, hx, decide_eq_true hlt⟩
    refine ⟨s, ?_, rfl⟩
    rw [validPoll_eq hpart hctl hpolls hruns, hen, hany]
    rfl
  · refine ⟨_, ?_, rfl⟩
    rw [validPoll_eq hpart hctl hpolls hruns]
    exact if_pos (by rw [hen]; rfl)

end Sys2Proof.Machine
end

section
/-!
PROOFS. Partition operations that change one setting, the answers to held assists, and refused operands (spec/05_command.md R100,
R108, R109).
-/

namespace Sys2Proof.Machine

section
variable {s u : State} {k : Nat} {x : Taken}

/-! ### Packets that complete (R90, R100) -/

/-- The packet of an id is at a stage; the others are where they were. -/
def Staged (id : Nat) (st : PStage) (s t : State) : Prop :=
  t.taken = s.taken.map fun z => if z.id = id then { z with stage := st } else z

theorem setPacket_staged (s : State) (id : Nat) (st : PStage) : Staged id st s (s.setPacket id st) := by
  simp only [Staged, State.setPacket, beq_iff_eq]

/-- A state with a partition operation accepted. -/
def State.completed (s : State) (x : Taken) : State := (s.attestOp x.words).setPacket x.id .finished

theorem completed_frame (s : State) (x : Taken) : ∃ attest, s.completed x =
    { s with attest := attest, taken := (s.setPacket x.id .finished).taken } := ⟨_, rfl⟩

theorem accepted_completes (hfind : s.taken.find? (fun z => z.id == x.id) = some x) : s.accepted x.id = s.completed x := by
  rw [State.accepted, hfind]
  rfl

/-- A packet has completed, and neither the threads nor the items under way have changed. -/
def Fin (s : State) (x : Taken) (t : State) : Prop :=
  Staged x.id .finished s t ∧ t.threads = s.threads ∧ t.attest = (s.attestOp x.words).attest ∧ t.net = s.net

theorem fin_completed (h : u.taken = s.taken ∧ u.threads = s.threads ∧ u.attest = s.attest ∧ u.net = s.net) : Fin s x (u.completed x) := by
  obtain ⟨htaken, hthreads, hattest, hnet⟩ := h
  refine ⟨?_, hthreads, ?_, hnet⟩
  · have h := setPacket_staged (u.attestOp x.words) x.id .finished
    rwa [Staged, show (u.attestOp x.words).taken = s.taken from htaken] at h
  · have h : (u.attestOp x.words).attest = (s.attestOp x.words).attest := by simp only [State.attestOp, hattest]
    exact h

/-- An instruction that completes a packet of which `u` has the effect. -/
theorem Ends.of_completed {i : Instr} {P : State → Prop} (hexec : exec i s = .next (u.completed x))
    (hfields : u.taken = s.taken ∧ u.threads = s.threads ∧ u.attest = s.attest ∧ u.net = s.net)
    (h : ∀ attest taken, P { u with attest := attest, taken := taken }) :
    Ends i s fun t => Fin s x t ∧ P t := ⟨_, hexec, fin_completed hfields, h _ _⟩

/-! ### Operations (R100) -/

variable {op : Nat} {zero : Bool} {ok : State → Taken → Bool} {f : State → Taken → State}

theorem partOp_runs (hk : s.taken[k]? = some x) (htyp : x.typ = 16) (hstart : s.startable x = true) (hop : x.op = op) :
    partOp op zero ok f k s = if (if zero then x.target == 0 else s.hasPart x.target) && ok s x then .next (f s x)
      else .next (s.failPacket x 11) := by
  rw [partOp, nth, hk]
  simp [htyp, hop, hstart]

theorem simpleOp_completes (hk : s.taken[k]? = some x) (hfind : s.taken.find? (fun z => z.id == x.id) = some x) (htyp : x.typ = 16)
    (hstart : s.startable x = true) (hop : x.op = op) (hpart : (if zero then x.target == 0 else s.hasPart x.target) = true)
    (hok : ok s x = true) (htaken : (f s x).taken = s.taken) : simpleOp op zero ok f k s = .next ((f s x).completed x) := by
  have hfind' : (f s x).taken.find? (fun z => z.id == x.id) = some x := by rw [htaken, hfind]
  rw [simpleOp, partOp_runs hk htyp hstart hop, hpart, hok, accepted_completes hfind']
  rfl

theorem partOp_refuses (hk : s.taken[k]? = some x) (htyp : x.typ = 16) (hstart : s.startable x = true) (hop : x.op = op)
    (hno : ((if zero then x.target == 0 else s.hasPart x.target) && ok s x) = false) :
    partOp op zero ok f k s = .next (s.failPacket x 11) := by
  rw [partOp_runs hk htyp hstart hop, hno]
  rfl

/-! ### Refused operands (R102, R103) -/

/-- A queue of the PF has stopped with the code of a refused operand. -/
def Refused (s : State) (q : Nat) (t : State) : Prop :=
  (t.queue pf q).stopped = true ∧ (t.queue pf q).errcode = 11 ∧ t.threads = s.threads ∧ t.vfs = s.vfs ∧ t.regions = s.regions

/-- A queue of the PF that stops: nothing of its egress is numbered. -/
theorem stopQueue_privileged (s : State) (q code idx : Nat) :
    ((s.stopQueue 0 pf q code idx).queue pf q).stopped = true ∧ ((s.stopQueue 0 pf q code idx).queue pf q).errcode = code ∧
      (s.stopQueue 0 pf q code idx).threads = s.threads ∧ (s.stopQueue 0 pf q code idx).vfs = s.vfs ∧
      (s.stopQueue 0 pf q code idx).regions = s.regions := by
  have hpart : (s.partOfFn pf).getD 0 = 0 := rfl
  unfold State.stopQueue
  extract_lets r u
  rw [if_neg (not_not.mpr hpart)]
  have hseq : u.cpSeq 0 (u.server 0 q) = (0, u) := by
    rw [State.cpSeq]
    split <;> rfl
  obtain ⟨tiles, outs, egressQ, hout⟩ := commitOut_irq u 0 (u.server 0 q)
    (i := { u.cpItem 0 (u.server 0 q) pf .hostMem (.irq pf r.errvec) with ord := 0, seq := 0 }) (fn := pf) (v := r.errvec) rfl
  have hirq : u.irqOut 0 (u.server 0 q) pf 0 r.errvec = { u with tiles := tiles, outs := outs, egressQ := egressQ } := by
    rw [State.irqOut, hseq]
    exact hout
  obtain ⟨_, _, _, _, _, _, _, -, hrec⟩ := record_frame { u with tiles := tiles, outs := outs, egressQ := egressQ } 0 (bytesOf 2 3 ++
    bytesOf 1 (if pf = pf then 0xFF else pf) ++ bytesOf 1 q ++ bytesOf 4 0 ++ bytesOf 8 idx ++ bytesOf 2 code ++ bytesOf 6 0)
  rw [hirq, State.record3, hrec]
  have hqueue := queue_setQueue_self s pf q { r with stopped := true, errcode := code, erridx := BitVec.ofNat 32 idx, polls := 0 }
  exact ⟨congrArg QRegs.stopped hqueue, congrArg QRegs.errcode hqueue, rfl, rfl, rfl⟩

theorem failPacket_refused {q : Nat} (hsrc : x.src = .vf pf q) (hpart : x.part = 0) : Refused s q (s.failPacket x 11) := by
  obtain ⟨mem, hcaps⟩ := holdCaps_frame { s with taken := s.taken.filter fun y => y.id != x.id } x.part x.caps 0
  have hdrop : s.dropPacket x = { s with taken := s.taken.filter fun y => y.id != x.id, mem := mem } := hcaps
  have hnote := notePacket_frame (s.dropPacket x) x 14 [BitVec.ofNat 64 x.id]
  rw [← State.noteFailed] at hnote
  have hfail : s.failPacket x 11 = ((s.dropPacket x).noteFailed x).stopQueue 0 pf q 11 x.idx := by
    simp only [State.failPacket, State.failTop, hsrc, hpart]
  rw [hfail]
  generalize hv : (s.dropPacket x).noteFailed x = v at hnote ⊢
  rw [hdrop] at hnote
  obtain ⟨hstop, hcode, hthreads, hvfs, hregions⟩ := stopQueue_privileged v q 11 x.idx
  exact ⟨hstop, hcode, hthreads.trans (congrArg State.threads hnote :), hvfs.trans (congrArg State.vfs hnote :),
    hregions.trans (congrArg State.regions hnote :)⟩

end

/-! ### The operations that change one setting (R38, R56, R69, R77, R81, R106, R108) -/

section
variable {s : State} {k : Nat} {x : Taken} (hk : s.taken[k]? = some x) (hfind : s.taken.find? (fun z => z.id == x.id) = some x)
  (htyp : x.typ = 16) (hstart : s.startable x = true)
include hk hfind htyp hstart

theorem bindvf_binds (hop : x.op = 3) (hok : vfOk s x = true) (hpart : s.hasPart x.target = true) (hbind : x.num 25 1 = 0) :
    Ends (.bindvf k) s fun t => Fin s x t ∧ t.mem = s.mem ∧ t.parts = s.parts ∧ t.vfs = vset s.vfs (x.num 24 1) (some x.target) := by
  have hexec : exec (.bindvf k) s = execBindvf k s := rfl
  refine Ends.of_completed (u := { s with vfs := vset s.vfs (x.num 24 1) (some x.target) }) ?_ ⟨rfl, rfl, rfl, rfl⟩ fun _ _ => ⟨rfl, rfl, rfl⟩
  rw [hexec, execBindvf, nth, hk]
  dsimp only
  rw [hbind]
  exact simpleOp_completes hk hfind htyp hstart hop hpart hok rfl

theorem unbindvf_unbinds (hop : x.op = 3) (hok : vfOk s x = true) (hpart : s.hasPart x.target = true) (hbind : x.num 25 1 = 1)
    (hoff : s.queuesOff (x.num 24 1) = true) :
    Ends (.unbindvf k) s fun t => Fin s x t ∧ t.mem = s.mem ∧ t.parts = s.parts ∧ t.vfs = vset s.vfs (x.num 24 1) none := by
  have hexec : exec (.unbindvf k) s = execUnbindvf k s := rfl
  refine Ends.of_completed (u := { s with vfs := vset s.vfs (x.num 24 1) none }) ?_ ⟨rfl, rfl, rfl, rfl⟩ fun _ _ => ⟨rfl, rfl, rfl⟩
  rw [hexec, execUnbindvf, nth, hk]
  dsimp only
  rw [hbind, if_neg (by decide)]
  exact simpleOp_completes (ok := fun s t => vfOk s t && s.queuesOff (t.num 24 1)) (f := fun s t => s.unbind (t.num 24 1)) hk hfind htyp
    hstart hop hpart (Bool.and_eq_true_iff.mpr ⟨hok, hoff⟩) rfl

theorem egress_sets (hop : x.op = 4) (hok : egressOk s x = true) (hpart : s.hasPart x.target = true) :
    Ends (.egress k) s fun t => Fin s x t ∧ t.mem = s.mem ∧
      (let w := vget { kind := 0, dest := 0, base := 0, len := 0, sent := 0 } (t.part x.target).egress (x.num 24 1)
       w.kind = x.num 25 1 ∧ w.dest = x.num 26 2 ∧ w.base = x.num 32 8 ∧ w.len = x.num 40 8 ∧
         w.sent = (vget { kind := 0, dest := 0, base := 0, len := 0, sent := 0 } (s.part x.target).egress (x.num 24 1)).sent) ∧
      ∀ r, r ≠ x.target → t.part r = s.part r := by
  have hexec : exec (.egress k) s = execEgress k s := rfl
  have hlt : x.num 24 1 < 16 := by
    simp only [egressOk, Bool.and_eq_true, decide_eq_true_eq] at hok
    omega
  refine ⟨_, hexec.trans (simpleOp_completes hk hfind htyp hstart hop hpart hok rfl), fin_completed ⟨rfl, rfl, rfl, rfl⟩, rfl, ?_,
    fun r hr => part_setPart_ne s _ hr⟩
  have hw := congrArg (fun q : Partition => vget { kind := 0, dest := 0, base := 0, len := 0, sent := 0 } q.egress (x.num 24 1))
    (part_setPart_self s x.target { s.part x.target with egress := vset (s.part x.target).egress (x.num 24 1) {
      kind := x.num 25 1, dest := x.num 26 2, base := x.num 32 8, len := x.num 40 8
      sent := (vget { kind := 0, dest := 0, base := 0, len := 0, sent := 0 } (s.part x.target).egress (x.num 24 1)).sent } })
  dsimp only at hw
  rw [vget_vset, if_pos ⟨rfl, hlt⟩] at hw
  exact ⟨(congrArg Egress.kind hw :), (congrArg Egress.dest hw :), (congrArg Egress.base hw :), (congrArg Egress.len hw :),
    (congrArg Egress.sent hw :)⟩

theorem cstep_limits (hop : x.op = 5) (hp : x.target = 0) (hlt : x.num 24 1 < 16) (hz : x.num 25 1 = 0) (hlo : 20 ≤ x.num 26 2)
    (hhi : x.num 26 2 ≤ 600) (hz' : x.zero 28 36 = true) :
    Ends (.cstep k) s fun t => Fin s x t ∧ t.mem = s.mem ∧ t.reg (x.num 24 1) = { s.reg (x.num 24 1) with limit := x.num 26 2 } ∧
      ∀ r, r ≠ x.num 24 1 → t.reg r = s.reg r := by
  have hexec : exec (.cstep k) s = execCstep k s := rfl
  obtain ⟨regions, hregions⟩ : ∃ regions, s.setReg (x.num 24 1) { s.reg (x.num 24 1) with limit := x.num 26 2 } = { s with regions := regions } :=
    ⟨_, rfl⟩
  have hself := reg_setReg_self s hlt { s.reg (x.num 24 1) with limit := x.num 26 2 }
  have hne (r : Nat) (hr : r ≠ x.num 24 1) := reg_setReg_ne s hr { s.reg (x.num 24 1) with limit := x.num 26 2 }
  refine Ends.of_completed (hexec.trans (simpleOp_completes hk hfind htyp hstart hop (beq_iff_eq.mpr hp) ?_ ?_)) ?_ ?_
  · simp [Taken.zero, hlt, hz, hlo, hhi, show x.num 28 36 = 0 from beq_iff_eq.mp hz']
  · rw [hregions]
  · rw [hregions]
    exact ⟨rfl, rfl, rfl, rfl⟩
  · intro attest taken
    simp only [hregions] at hself hne ⊢
    exact ⟨trivial, hself, hne⟩

theorem selftest_sets (hop : x.op = 6) (hp : x.target = 0) (hlo : 30 ≤ x.num 24 2) (hhi : x.num 24 2 ≤ 300) (hz : x.zero 26 38 = true) :
    Ends (.selftest k) s fun t => Fin s x t ∧ t.mem = s.mem ∧ t.selfSecs = x.num 24 2 := by
  have hexec : exec (.selftest k) s = execSelftest k s := rfl
  refine ⟨_, hexec.trans (simpleOp_completes hk hfind htyp hstart hop (beq_iff_eq.mpr hp) ?_ rfl), fin_completed ⟨rfl, rfl, rfl, rfl⟩, rfl, rfl⟩
  simp [hlo, hhi, hz]

theorem devid_sets (hop : x.op = 7) (hp : x.target = 0) (hlt : x.num 24 2 < 4096) (hz : x.zero 26 38 = true)
    (hnone : ∀ z ∈ s.parts, z.2.stage ≠ .out → z.2.flits = []) :
    Ends (.devid k) s fun t => Fin s x t ∧ t.mem = s.mem ∧ t.devid = BitVec.ofNat 12 (x.num 24 2) ∧ t.devValid = true := by
  have hexec : exec (.devid k) s = execDevid k s := rfl
  refine ⟨_, hexec.trans (simpleOp_completes hk hfind htyp hstart hop (beq_iff_eq.mpr hp) ?_ rfl), fin_completed ⟨rfl, rfl, rfl, rfl⟩, rfl, rfl, rfl⟩
  have hany : (s.parts.any fun z => z.2.stage != .out && !z.2.flits.isEmpty) = false := by
    simpa using fun a b hz hne => hnone (a, b) hz hne
  simp [hlt, hz, hany]

omit hfind in
theorem readmit_asks {site : Nat} (hop : x.op = 8) (hp : x.target = 0) (hsite : siteOfCoord (x.num 24 2) = some site)
    (hz : x.zero 26 38 = true) (hown : s.appendPart site = none) :
    Ends (.readmit k) s fun t => Staged x.id .running s t ∧ t.threads = s.threads ∧ t.mem = s.mem ∧
      t.appends = s.appends ++ [{ record := readmitRec site, token := none }] := by
  have hexec : exec (.readmit k) s = execReadmit k s := rfl
  have hready : x.stage = .ready := by
    simp only [State.startable, Bool.and_eq_true, beq_iff_eq] at hstart
    exact hstart.1.1
  refine ⟨({ s with appends := s.appends ++ [{ record := readmitRec site, token := none }] } : State).setPacket x.id .running, ?_,
    setPacket_staged _ _ _, rfl, rfl, rfl⟩
  rw [hexec, execReadmit, nth, hk]
  dsimp only
  rw [hsite]
  dsimp only
  rw [if_neg (by simp [hready]), partOp_runs hk htyp hstart hop, if_pos (by simp [hp, hz]), hown]
  rfl

theorem modes_sets (hop : x.op = 9) (hpart : s.hasPart x.target = true) (hlt : x.num 24 1 < 64) (hz : x.zero 25 39 = true) :
    Ends (.modes k) s fun t => Fin s x t ∧ t.mem = s.mem ∧ t.part x.target = { s.part x.target with assist := x.num 24 1 } ∧
      ∀ r, r ≠ x.target → t.part r = s.part r := by
  have hexec : exec (.modes k) s = execModes k s := rfl
  refine ⟨_, hexec.trans (simpleOp_completes hk hfind htyp hstart hop hpart ?_ rfl), fin_completed ⟨rfl, rfl, rfl, rfl⟩, rfl,
    part_setPart_self s _ _, fun r hr => part_setPart_ne s _ hr⟩
  simp [hlt, hz]

end

/-! ### An event ring is placed (R106) -/

theorem kHost_mod (a : Nat) : kHost (a % 2 ^ 63) = kHost a := by rw [kHost, kHost, Nat.mod_mod]

/-- The registers of an event ring at a base. -/
def newRing (base : Word) (sizelog vector : Nat) : EventRing :=
  { base := base.toNat % 2 ^ 63, sizelog := sizelog, vector := vector, count := 0 }

/-- Memory with WRITE and LOST of a ring at 0. -/
def ringCleared (m : List Host.Cell) (k : Nat) : List Host.Cell := Memory.writeN (Memory.writeN m k (bytesOf 8 0)) (k + 16) (bytesOf 8 0)

theorem putMem_frame (s : State) (k : Nat) (bs : List Byte) : ∃ dirty poison,
    s.putMem k bs = { s with mem := Memory.writeN s.mem k bs, dirty := dirty, poison := poison } := ⟨_, _, rfl⟩

/-- A partition of which no power-down has left a record has nothing to report. -/
theorem reportDown_none {s : State} {p : Nat} (hdown : ∀ d ∈ s.flash.down, d.part ≠ p) :
    ∃ flash, s.reportDown p = { s with flash := flash } := by
  have hnone : s.flash.down.filter (fun d => d.part == p) = [] :=
    List.filter_eq_nil_iff.mpr fun d hd => by simp [hdown d hd]
  rw [State.reportDown, hnone]
  exact ⟨_, List.foldl_nil⟩

/-- The state with WRITE and LOST of an event ring at 0, and the ring placed. -/
theorem placeRing_frame (s : State) (p : Nat) (base : Word) (sizelog vector : Nat) (hdown : ∀ d ∈ s.flash.down, d.part ≠ p) :
    ∃ u dirty poison outs flash, u = { s with mem := ringCleared s.mem (kHost base.toNat), dirty := dirty, poison := poison, outs := outs } ∧
      s.placeRing p base sizelog vector = if p = 0 then { u with ring0 := some (newRing base sizelog vector) }
        else { u.setPart p { u.part p with ring := some (newRing base sizelog vector) } with flash := flash } := by
  obtain ⟨d₁, p₁, h₁⟩ := putMem_frame s (kHost base.toNat) (bytesOf 8 0)
  obtain ⟨d₂, p₂, h₂⟩ := putMem_frame { s with mem := Memory.writeN s.mem (kHost base.toNat) (bytesOf 8 0), dirty := d₁, poison := p₁ }
    (kHost base.toNat + 16) (bytesOf 8 0)
  unfold State.placeRing
  extract_lets b r u
  obtain ⟨outs, hu⟩ : ∃ outs, u = { s with mem := ringCleared s.mem (kHost base.toNat), dirty := d₂, poison := p₂, outs := outs } := by
    refine ⟨s.outs ++ [.hostWrite 16 b 8] ++ [.hostWrite 16 (b + 16) 8], ?_⟩
    simp only [u, b, State.putNum, kHost_mod, h₁, h₂, State.sawHost, ringCleared]
  have hr : r = newRing base sizelog vector := rfl
  clear_value u r
  have hflash : (u.setPart p { u.part p with ring := some r }).flash = s.flash := (congrArg State.flash hu :)
  obtain ⟨flash, hdone⟩ := reportDown_none (s := u.setPart p { u.part p with ring := some r }) (p := p) (by rw [hflash]; exact hdown)
  refine ⟨u, d₂, p₂, outs, flash, hu, ?_⟩
  rw [hdone, hr]

/-- What clearing WRITE and LOST leaves of memory. -/
theorem ringCleared_reads {m : List Host.Cell} (hw : Memory.wf m = true) (k : Nat) :
    ofBytes (Memory.readN (ringCleared m k) k 8) = 0 ∧ ofBytes (Memory.readN (ringCleared m k) (k + 16) 8) = 0 ∧
      ∀ b, (b < k ∨ k + 24 ≤ b) → Memory.read (ringCleared m k) b = Memory.read m b := by
  have hlen : (bytesOf 8 0).length = 8 := bytesOf_length 8 0
  have hw' := Memory.wf_writeN k (bytesOf 8 0) hw
  have hread (m' : List Host.Cell) (hm : Memory.wf m' = true) (a : Nat) : Memory.readN (Memory.writeN m' a (bytesOf 8 0)) a 8 = bytesOf 8 0 := by
    have h := Memory.readN_writeN hm a (bytesOf 8 0)
    rwa [hlen] at h
  have hzero : ofBytes (bytesOf 8 0) = 0 := by decide
  unfold ringCleared
  refine ⟨?_, ?_, fun b hb => ?_⟩
  · rw [Memory.readN_writeN_out hw' _ _ _ _ (by omega), hread m hw, hzero]
  · rw [hread _ hw', hzero]
  · rw [Memory.read_writeN_out hw' _ _ _ (by omega), Memory.read_writeN_out hw _ _ _ (by omega)]

theorem events_places {s : State} {k : Nat} {x : Taken} (hk : s.taken[k]? = some x)
    (hfind : s.taken.find? (fun z => z.id == x.id) = some x) (htyp : x.typ = 16) (hstart : s.startable x = true) (hop : x.op = 10)
    (hform : (x.word 3).getLsbD 63 = true) (hlo : 4 ≤ x.num 32 1) (hhi : x.num 32 1 ≤ 16) (hz : x.zero 34 30 = true)
    (hpart : x.target = 0 ∨ s.hasPart x.target = true) (hw : MemWf s) (hdown : ∀ d ∈ s.flash.down, d.part ≠ x.target) :
    Ends (.events k) s fun t => Fin s x t ∧
      (let ring : EventRing :=
        { base := (x.word 3).toNat % 2 ^ 63, sizelog := x.num 32 1, vector := x.num 33 1, count := 0 }
       if x.target = 0 then t.ring0 = some ring else (t.part x.target).ring = some ring) ∧
      t.num (kHost (x.word 3).toNat) 8 = 0 ∧ t.num (kHost (x.word 3).toNat + 16) 8 = 0 ∧
      ∀ b, (b < kHost (x.word 3).toNat ∨ kHost (x.word 3).toNat + 24 ≤ b) → Memory.read t.mem b = Memory.read s.mem b := by
  have hexec : exec (.events k) s = execEvents k s := rfl
  obtain ⟨u, dirty, poison, outs, flash, hu, hplace⟩ := placeRing_frame s x.target (x.word 3) (x.num 32 1) (x.num 33 1) hdown
  obtain ⟨hwrite, hlost, hout⟩ := ringCleared_reads hw (kHost (x.word 3).toNat)
  have hparts : ∃ ring0 parts flash, s.placeRing x.target (x.word 3) (x.num 32 1) (x.num 33 1) =
      { u with ring0 := ring0, parts := parts, flash := flash } ∧
      if x.target = 0 then ring0 = some (newRing (x.word 3) (x.num 32 1) (x.num 33 1))
      else (SMap.get Partition.init parts x.target).ring = some (newRing (x.word 3) (x.num 32 1) (x.num 33 1)) := by
    rw [hplace]
    by_cases hp : x.target = 0
    · rw [if_pos hp]
      exact ⟨_, u.parts, u.flash, rfl, by rw [if_pos hp]⟩
    · rw [if_neg hp]
      exact ⟨u.ring0, _, flash, rfl, by rw [if_neg hp]; exact congrArg Partition.ring (SMap.get_put_self ..)⟩
  obtain ⟨ring0, parts, flash, hplace, hring⟩ := hparts
  subst hu
  refine Ends.of_completed (u := s.placeRing x.target (x.word 3) (x.num 32 1) (x.num 33 1)) ?_ ?_ ?_
  · have htaken := congrArg State.taken hplace
    rw [hexec, execEvents, nth, hk]
    refine simpleOp_completes (f := fun s t => s.placeRing t.target (t.word 3) (t.num 32 1) (t.num 33 1)) hk hfind htyp hstart hop ?_ ?_
      htaken
    · rcases hpart with h | h
      · rw [beq_iff_eq.mpr h]
        exact if_pos rfl
      · by_cases h0 : x.target = 0
        · rw [beq_iff_eq.mpr h0]
          exact if_pos rfl
        · rw [beq_eq_false_iff_ne.mpr h0]
          exact h
    · have hhost : pform (x.word 3) = .host := if_pos hform
      simp [hhost, hlo, hhi, hz]
  · rw [hplace]
    exact ⟨rfl, rfl, rfl, rfl⟩
  · intro attest taken
    rw [hplace]
    refine ⟨hring, ?_⟩
    rw [State.num, State.num, State.bytes, State.bytes]
    dsimp only
    exact ⟨hwrite, hlost, hout⟩

/-! ### Held assists (R108, R109) -/

/-- A state without a held assist. -/
def State.answered (s : State) (a : Assist) : State := { s with assists := s.assists.filter fun z => z.token != a.token }

/-- The requests of the flash port when the host has agreed to one. -/
def agreed (l : List Append) (tok : Nat) : List Append := l.map fun z => if z.token = some tok then { z with token := none } else z

section
variable {s : State} {a : Assist}

theorem decide_barrier {y : Taken} (hfunc : a.func = 1) (hfind : s.taken.find? (fun z => z.id == a.obj) = some y) (yes : Bool) :
    s.decide a yes = if yes then (s.answered a).setPacket y.id .finished
      else if ((s.answered a).evaluate y).1 then ((s.answered a).evaluate y).2 else ((s.answered a).evaluate y).2.holdPacket y 1 y.idx := by
  unfold State.decide
  extract_lets u packet
  have hpacket : packet = some y := hfind
  clear_value packet
  subst hpacket
  simp only [hfunc]
  have hu : u = s.answered a := rfl
  clear_value u
  rw [hu]
  generalize (s.answered a).evaluate y = r
  cases yes <;> obtain ⟨_ | _, _⟩ := r <;> rfl

theorem decide_fault (hfunc : a.func = 2) (yes : Bool) : s.decide a yes = (s.answered a).answerFault a yes := by
  unfold State.decide
  simp only [hfunc, State.answered]

theorem decide_append (hfunc : a.func = 5) : s.decide a true = { s.answered a with appends := agreed s.appends a.token } := by
  unfold State.decide
  simp only [hfunc, State.answered, agreed, beq_iff_eq, if_true]

theorem exec_assist {k : Nat} {x : Taken} (hk : s.taken[k]? = some x) (htyp : x.typ = 16) (hstart : s.startable x = true) (hop : x.op = 13)
    (hp : x.target = 0) (ha : s.assistOf (x.num 24 8) = some a) (hyes : x.num 32 1 = 1) (hz : x.zero 33 31 = true) :
    exec (.assist k) s = .next ((s.decide a true).accepted x.id) := by
  have hexec : exec (.assist k) s = execAssist k s := rfl
  rw [hexec, execAssist, simpleOp, partOp_runs hk htyp hstart hop]
  simp only [ha, hp, hyes, hz]
  rfl

theorem mem_setPacket {id : Nat} {st : PStage} {z : Taken} (hz : z ∈ (s.setPacket id st).taken) :
    ∃ w ∈ s.taken, w.id = z.id ∧ z.stage = if z.id = id then st else w.stage := by
  obtain ⟨w, hw, rfl⟩ := List.mem_map.mp hz
  refine ⟨w, hw, ?_⟩
  by_cases h : w.id = id <;> simp [h]

theorem find_setPacket_ne {id id' : Nat} {st : PStage} {x : Taken} (hfind : s.taken.find? (fun z => z.id == id') = some x) (hne : id ≠ id') :
    (s.setPacket id st).taken.find? (fun z => z.id == id') = some x := by
  have hid : x.id = id' := beq_iff_eq.mp (List.find?_some hfind :)
  have hkey : ((fun z : Taken => z.id == id') ∘ fun z => if z.id == id then { z with stage := st } else z) = fun z => z.id == id' := by
    funext z
    rw [Function.comp_apply]
    split <;> rfl
  rw [State.setPacket, List.find?_map, hkey, hfind, Option.map_some, if_neg (by rw [hid, beq_iff_eq]; exact hne.symm)]

theorem assist_barrier {k : Nat} {x y : Taken} (hfind : s.taken.find? (fun z => z.id == x.id) = some x)
    (hexec : exec (.assist k) s = .next ((s.decide a true).accepted x.id)) (hfunc : a.func = 1)
    (hy : s.taken.find? (fun z => z.id == a.obj) = some y) (hne : y.id ≠ x.id) :
    Ends (.assist k) s fun t => t.assists = s.assists.filter (fun z => z.token != a.token) ∧ t.mem = s.mem ∧ t.threads = s.threads ∧
      ∀ z ∈ t.taken, (z.id = y.id ∨ z.id = x.id) → z.stage = .finished := by
  have hdecide : s.decide a true = (s.answered a).setPacket y.id .finished := (decide_barrier hfunc hy true).trans (if_pos rfl)
  obtain ⟨attest, hdone⟩ := completed_frame ((s.answered a).setPacket y.id .finished) x
  rw [hdecide, accepted_completes (find_setPacket_ne (s := s.answered a) hfind hne), hdone] at hexec
  refine ⟨_, hexec, rfl, rfl, rfl, fun z hz hid => ?_⟩
  obtain ⟨w, hw, hwz, hstage⟩ := mem_setPacket hz
  rw [hstage]
  split
  · rfl
  · next hx =>
    obtain ⟨v, -, -, hstage'⟩ := mem_setPacket (show w ∈ ((s.answered a).setPacket y.id .finished).taken from hw)
    rw [hstage', if_pos (by omega)]

theorem assist_fault {k : Nat} {x : Taken} (hfind : s.taken.find? (fun z => z.id == x.id) = some x)
    (hexec : exec (.assist k) s = .next ((s.decide a true).accepted x.id)) (hfunc : a.func = 2) :
    Ends (.assist k) s fun t => (t.part a.part).faults = (s.part a.part).faults.filter (fun e => e.token != some a.token) ∧
      (t.part a.part).wakes = (s.part a.part).wakes ++ [(a.obj, true)] ∧ Fin s x t ∧ t.mem = s.mem := by
  have hpart := part_setPart_self (s.answered a) a.part { (s.answered a).part a.part with
    faults := ((s.answered a).part a.part).faults.filter fun e => e.token != some a.token,
    wakes := ((s.answered a).part a.part).wakes ++ [(a.obj, true)] }
  rw [accepted_completes (s := s.decide a true) (x := x) (by rw [decide_fault hfunc]; exact hfind), decide_fault hfunc] at hexec
  exact ⟨_, hexec, congrArg Partition.faults hpart, congrArg Partition.wakes hpart, fin_completed ⟨rfl, rfl, rfl, rfl⟩, rfl⟩

theorem assist_append {k : Nat} {x : Taken} (hfind : s.taken.find? (fun z => z.id == x.id) = some x)
    (hexec : exec (.assist k) s = .next ((s.decide a true).accepted x.id)) (hfunc : a.func = 5) :
    Ends (.assist k) s fun t => Fin s x t ∧ t.mem = s.mem ∧ t.appends = agreed s.appends a.token := by
  rw [accepted_completes (s := s.decide a true) (x := x) (by rw [decide_append hfunc]; exact hfind), decide_append hfunc] at hexec
  exact Ends.of_completed hexec ⟨rfl, rfl, rfl, rfl⟩ fun _ _ => ⟨rfl, rfl⟩

/-! ### No answer within a second (R109) -/

theorem record_uncollected {p : Nat} (hp : p ≠ 0) (hring : (s.part p).ring = none) (b : List Byte) :
    s.record p b = s.setPart p { s.part p with evSeq := (s.part p).evSeq + 1 } := by
  rw [State.record, if_neg hp, hring]

theorem readSignals_host (p : Nat) {l : List Word} (h : ∀ v ∈ l, v.getLsbD 63 = true) :
    s.readSignals p l = (l.map fun v => some (s.num (kHost v.toNat) 8), s) := by
  induction l with
  | nil => rfl
  | cons v l ih =>
    have hread : s.sigRead p v = (some (s.num (kHost v.toNat) 8), s) := if_pos (h v List.mem_cons_self)
    rw [State.readSignals, hread, List.map_cons]
    dsimp only
    rw [ih fun w hw => h w (List.mem_cons_of_mem v hw)]

/-- Whether the signals of a barrier packet on the host meet it. -/
def barrierMet (s : State) (y : Taken) : Prop :=
  let down (v : Word) : Prop := s.num (kHost v.toNat) 8 = 0 ∨ 2 ^ 63 ≤ s.num (kHost v.toNat) 8
  if y.typ = 3 then ∀ v ∈ y.signals, down v else ∃ v ∈ y.signals, down v

theorem evaluate_host {y : Taken} (h : ∀ v ∈ y.signals, v.getLsbD 63 = true) :
    (barrierMet s y → s.evaluate y = (true, s.setPacket y.id .finished)) ∧ (¬ barrierMet s y → s.evaluate y = (false, s)) := by
  have hdown (n : Nat) : signalDown (some n) = true ↔ n = 0 ∨ 2 ^ 63 ≤ n := by
    simp only [signalDown, Option.map_some, Option.getD_some, Bool.or_eq_true, beq_iff_eq, decide_eq_true_eq]
  unfold State.evaluate barrierMet
  rw [readSignals_host y.part h]
  obtain ⟨f, hf⟩ : ∃ f : Word → Nat, ∀ v, s.num (kHost v.toNat) 8 = f v := ⟨_, fun _ => rfl⟩
  simp only [hf]
  have hmet : (if y.typ = 3 then (y.signals.map fun v => some (f v)).all signalDown
      else (y.signals.map fun v => some (f v)).any signalDown) = true ↔
      if y.typ = 3 then ∀ v ∈ y.signals, f v = 0 ∨ 2 ^ 63 ≤ f v else ∃ v ∈ y.signals, f v = 0 ∨ 2 ^ 63 ≤ f v := by
    split <;> simp only [List.all_map, List.all_eq_true, List.any_map, List.any_eq_true, Function.comp_apply, hdown]
  exact ⟨fun hy => if_pos (hmet.mpr hy), fun hn => if_neg (mt hmet.mp hn)⟩

/-- A barrier packet that is held again is asked for with a fresh token. -/
theorem holdPacket_uncollected {y : Taken} (hp : y.part ≠ 0) (hring : (s.part y.part).ring = none) (func arg : Nat) :
    ∃ (parts : List (Nat × Partition)) (b : Assist), s.holdPacket y func arg = ({ s with
        nextId := s.nextId + 1, assists := s.assists ++ [b], parts := parts } : State).setPacket y.id (.held s.nextId) ∧
      b.token = s.nextId ∧ b.func = func ∧ b.part = y.part ∧ b.obj = y.id ∧ (SMap.get Partition.init parts y.part).ring = none := by
  unfold State.holdPacket State.assistFor
  extract_lets tok a u
  rw [record_uncollected (s := u) hp hring]
  exact ⟨_, a, rfl, rfl, rfl, rfl, rfl, (congrArg Partition.ring (SMap.get_put_self ..)).trans hring⟩

theorem exec_assistTimeout {tok : Nat} {u : State} (ha : s.assistOf tok = some a) (hp : a.part ≠ 0) (hu : s.decideHw a = u)
    (hring : (u.part a.part).ring = none) : ∃ parts, exec (.assistTimeout tok) s = .next { u with parts := parts } := by
  have hexec : exec (.assistTimeout tok) s = execAssistTimeout tok s := rfl
  rw [hexec, execAssistTimeout, ha]
  dsimp only
  rw [hu, record_uncollected hp hring]
  exact ⟨_, rfl⟩

theorem timeout_barrier {tok : Nat} {y : Taken} (ha : s.assistOf tok = some a) (hring : (s.part a.part).ring = none) (hp : a.part ≠ 0)
    (hfunc : a.func = 1) (hy : s.taken.find? (fun z => z.id == a.obj) = some y) (hpart : y.part = a.part)
    (hhost : ∀ v ∈ y.signals, v.getLsbD 63 = true) :
    Ends (.assistTimeout tok) s fun t => t.mem = s.mem ∧ t.threads = s.threads ∧
      (barrierMet s y → t.assists = (s.answered a).assists ∧ ∀ z ∈ t.taken, z.id = a.obj → z.stage = .finished) ∧
      (¬ barrierMet s y → (∀ z ∈ t.taken, z.id = a.obj → z.stage = .held s.nextId) ∧ ∃ b : Assist,
        t.assists = (s.answered a).assists ++ [b] ∧ b.token = s.nextId ∧ b.func = 1 ∧ b.part = a.part ∧ b.obj = a.obj) := by
  have hid : y.id = a.obj := beq_iff_eq.mp (List.find?_some hy :)
  obtain ⟨hmet, hunmet⟩ := evaluate_host (s := s.answered a) hhost
  have hhw : s.decideHw a = s.decide a false := by simp only [State.decideHw, hfunc]
  have hdecide := hhw.trans (decide_barrier hfunc hy false)
  rw [if_neg Bool.false_ne_true] at hdecide
  by_cases h : barrierMet s y
  · rw [hmet h, if_pos rfl] at hdecide
    obtain ⟨parts, hexec⟩ := exec_assistTimeout ha hp hdecide hring
    refine ⟨_, hexec, rfl, rfl, fun _ => ⟨rfl, fun z hz hobj => ?_⟩, fun hn => absurd h hn⟩
    obtain ⟨w, -, -, hstage⟩ := mem_setPacket (s := s.answered a) hz
    rw [hstage, if_pos (hobj.trans hid.symm)]
  · obtain ⟨parts, b, hheld, htok, hbfunc, hbpart, hobj, hquiet⟩ := holdPacket_uncollected (s := s.answered a) (y := y)
      (by rw [hpart]; exact hp) (by rw [hpart]; exact hring) 1 y.idx
    rw [hpart] at hquiet
    rw [hunmet h, if_neg Bool.false_ne_true, hheld] at hdecide
    obtain ⟨parts', hexec⟩ := exec_assistTimeout ha hp hdecide hquiet
    refine ⟨_, hexec, rfl, rfl, fun hy => absurd hy h, fun _ => ⟨fun z hz hzobj => ?_, b, rfl, htok, hbfunc, hbpart.trans hpart, hobj.trans hid⟩⟩
    obtain ⟨w, -, -, hstage⟩ := mem_setPacket (s := s) (id := y.id) (st := .held s.nextId) hz
    rw [hstage, if_pos (hzobj.trans hid.symm)]

theorem timeout_append {tok : Nat} (ha : s.assistOf tok = some a) (hring : (s.part a.part).ring = none) (hp : a.part ≠ 0)
    (hfunc : a.func = 5) : Ends (.assistTimeout tok) s fun t => t.taken = s.taken ∧ t.mem = s.mem ∧ t.threads = s.threads ∧
      t.appends = agreed s.appends a.token := by
  have hhw : s.decideHw a = s.decide a true := by simp only [State.decideHw, hfunc]
  obtain ⟨parts, hexec⟩ := exec_assistTimeout ha hp (hhw.trans (decide_append hfunc)) hring
  exact ⟨_, hexec, rfl, rfl, rfl, rfl⟩

end

/-! ### The obligation (O48) -/

/-- A queue of the PF stops with code 11 at a partition operation. -/
def Refuses (s : State) (x : Taken) (q : Nat) (i : Instr) (op : Nat) : Prop :=
  x.src = .vf pf q → x.part = 0 → x.op = op → Ends i s (Refused s q)

section
variable {s : State} {k q : Nat} {x : Taken} (hk : s.taken[k]? = some x) (htyp : x.typ = 16) (hstart : s.startable x = true)
include hk htyp hstart

theorem create_refuses (hused : s.hasPart x.target = true ∨ x.target = 0) : Refuses s x q (.create k) 1 := by
  intro hsrc hpart hop
  have hexec : exec (.create k) s = execCreate k s := rfl
  have hno : createOk s x = false := by
    rcases hused with h | h <;> simp [createOk, h]
  refine ⟨_, ?_, failPacket_refused hsrc hpart⟩
  rw [hexec, execCreate, nth, hk]
  simp [htyp, hop, hstart, hno]

/-- A partition that is not in use is refused by every operation that names one, and so is a partition other than 0 by the others. -/
theorem unused_refuses (hused : s.hasPart x.target = false) (hp : x.target ≠ 0) (hbind : x.num 25 1 = 0) :
    Refuses s x q (.destroy k) 2 ∧ Refuses s x q (.bindvf k) 3 ∧ Refuses s x q (.egress k) 4 ∧ Refuses s x q (.cstep k) 5 ∧
      Refuses s x q (.selftest k) 6 ∧ Refuses s x q (.devid k) 7 ∧ Refuses s x q (.modes k) 9 ∧ Refuses s x q (.events k) 10 ∧
      Refuses s x q (.assist k) 13 := by
  have h0 : (x.target == 0) = false := beq_eq_false_iff_ne.mpr hp
  have hno (zero : Bool) (b : Bool) : ((if zero then x.target == 0 else s.hasPart x.target) && b) = false := by
    cases zero <;> simp [hused, h0]
  have hrefuses {i : Instr} {op : Nat} {zero : Bool} {ok : State → Taken → Bool} {f : State → Taken → State}
      (hexec : exec i s = simpleOp op zero ok f k s) : Refuses s x q i op := fun hsrc hpart hop =>
    ⟨_, hexec.trans (partOp_refuses hk htyp hstart hop (hno zero _)), failPacket_refused hsrc hpart⟩
  have hbindvf : exec (.bindvf k) s = execBindvf k s := rfl
  have hevents : exec (.events k) s = execEvents k s := rfl
  rw [execBindvf, nth, hk] at hbindvf
  rw [execEvents, nth, hk] at hevents
  dsimp only at hbindvf
  rw [hbind, if_neg (by decide)] at hbindvf
  exact ⟨hrefuses (execDestroy.eq_1 k s), hrefuses hbindvf, hrefuses (execEgress.eq_1 k s), hrefuses (execCstep.eq_1 k s),
    hrefuses (execSelftest.eq_1 k s), hrefuses (execDevid.eq_1 k s), hrefuses (execModes.eq_1 k s), hrefuses hevents,
    hrefuses (execAssist.eq_1 k s)⟩

end

/-- Settles O48: each operation's own effect, the answers to held assists, and the refusals. -/
theorem partitionOperationResults : Obligations.PartitionOperationResults := by
  unfold Obligations.PartitionOperationResults
  intro s k q tok x y a p pt packets fin run refused used hk hfind htyp hstart
  refine ⟨fun hok hused hbind hop => bindvf_binds hk hfind htyp hstart hop hok hused hbind,
    fun hok hused hbind hoff hop => unbindvf_unbinds hk hfind htyp hstart hop hok hused hbind hoff,
    fun hok hused hop => egress_sets hk hfind htyp hstart hop hok hused,
    fun hp hlt hz hlo hhi hz' hop => cstep_limits hk hfind htyp hstart hop hp hlt hz hlo hhi hz',
    fun hp hlo hhi hz hop => selftest_sets hk hfind htyp hstart hop hp hlo hhi hz,
    fun hp hlt hz hnone hop => devid_sets hk hfind htyp hstart hop hp hlt hz hnone,
    fun site hp hsite hz hown hop => readmit_asks hk htyp hstart hop hp hsite hz hown,
    fun hlt hz hused hop => modes_sets hk hfind htyp hstart hop hused hlt hz,
    fun hform hlo hhi hz hpart hw hdown hop => events_places hk hfind htyp hstart hop hform hlo hhi hz hpart hw hdown,
    fun hp ha hyes hz => ⟨fun hfunc hy hne hop => ?_, fun hfunc hop => ?_, fun hfunc hop => ?_⟩,
    fun hused hp hbind => unused_refuses hk htyp hstart hused hp hbind, fun hused => create_refuses hk htyp hstart hused,
    fun ha hring hp => ⟨fun hfunc hy hpart hhost => timeout_barrier ha hring hp hfunc hy hpart hhost,
      fun hfunc => timeout_append ha hring hp hfunc⟩⟩
  · exact assist_barrier hfind (exec_assist hk htyp hstart hop hp ha hyes hz) hfunc hy hne
  · exact assist_fault hfind (exec_assist hk htyp hstart hop hp ha hyes hz) hfunc
  · exact assist_append hfind (exec_assist hk htyp hstart hop hp ha hyes hz) hfunc

end Sys2Proof.Machine
end

section
/-!
PROOFS. The life of a partition: CREATE, DESTROY, SWITCHOUT, SWITCHIN, RESTORE and READMIT (spec/05_command.md R100,
spec/11_traps.md R229-R233).
-/

namespace Sys2Proof.Machine

/-! ### Tiles that enter a partition (R14, R20, R239) -/

/-- Nothing but tiles, cores and threads has changed. -/
def OnlySite (s t : State) : Prop := ∃ tiles cores threads, t = { s with tiles := tiles, cores := cores, threads := threads }

theorem OnlySite.refl (s : State) : OnlySite s s := ⟨_, _, _, rfl⟩

theorem OnlySite.trans {s t u : State} (h : OnlySite s t) (h' : OnlySite t u) : OnlySite s u := by
  obtain ⟨_, _, _, rfl⟩ := h
  obtain ⟨_, _, _, rfl⟩ := h'
  exact ⟨_, _, _, rfl⟩

theorem OnlySite.foldl {α : Type} {f : State → α → State} (hf : ∀ s a, OnlySite s (f s a)) (l : List α) (s : State) :
    OnlySite s (l.foldl f s) := by
  induction l generalizing s with
  | nil => exact OnlySite.refl s
  | cons a l ih => exact (hf s a).trans (ih _)

theorem onlySite_setTile (s : State) (x : Nat) (t : Tile) : OnlySite s (s.setTile x t) := ⟨_, s.cores, s.threads, rfl⟩

/-- A site as a partition finds it; other tiles stay. -/
theorem plainSite_spec (s : State) (site : Nat) : OnlySite s (s.plainSite site) ∧
    (s.plainSite site).tiles = (s.setTile site (s.tile site).plain).tiles := by
  have hcores (u : State) (l : List Nat) : ∃ cores, l.foldl (fun s c => if s.cores.any (·.1 == c) then s.setCore c (s.core c).plain else s) u =
      { u with cores := cores } := by
    refine foldl_cores (f := fun s c => if s.cores.any (·.1 == c) then s.setCore c (s.core c).plain else s) (fun s c => ?_) l u
    split
    · exact ⟨_, rfl⟩
    · exact ⟨s.cores, rfl⟩
  have hthreads (u : State) (l : List Nat) : ∃ threads, l.foldl (fun s h =>
      if s.threads.any (·.1 == h) then s.setThread h { (s.thread h).clear with priv := .U } else s) u = { u with threads := threads } := by
    induction l generalizing u with
    | nil => exact ⟨u.threads, rfl⟩
    | cons a l ih =>
      rw [List.foldl_cons]
      split
      · exact ih (u.setThread a _)
      · exact ih u
  obtain ⟨cores, hc⟩ := hcores (s.setTile site (s.tile site).plain) (tileCores site)
  obtain ⟨threads, ht⟩ := hthreads { s.setTile site (s.tile site).plain with cores := cores } (tileHarts site)
  have hplain : s.plainSite site = { s.setTile site (s.tile site).plain with cores := cores, threads := threads } := by
    unfold State.plainSite
    dsimp only
    rw [hc, ht]
  rw [hplain]
  exact ⟨⟨_, cores, threads, rfl⟩, rfl⟩

/-- What a tile of a partition shows of it as it enters. -/
def Entered (prot : Bool) (t : Tile) : Prop := t.prot = prot ∧ t.ival = 1

section
variable {s : State} {prot : Bool}

theorem tile_setTile_entered {x y : Nat} {t : Tile} (hx : Entered prot (s.tile x)) (ht : y = x → Entered prot t) :
    Entered prot ((s.setTile y t).tile x) := by
  rw [State.tile, State.setTile, SMap.get_put]
  split
  · next h => exact ht h.symm
  · exact hx

theorem giveBuddy_keeps (ward skip x : Nat) (hx : Entered prot (s.tile x)) : Entered prot ((s.giveBuddy ward skip).tile x) := by
  unfold State.giveBuddy
  generalize s.buddyFor ward skip = found
  cases found with
  | none => exact tile_setTile_entered hx fun h => by subst h; exact ⟨hx.1, hx.2⟩
  | some b =>
    have hb := tile_setTile_entered (y := ward) (t := { s.tile ward with buddy := some b }) hx fun h => by subst h; exact ⟨hx.1, hx.2⟩
    dsimp only
    split
    · exact tile_setTile_entered hb fun h => by subst h; exact ⟨hb.1, hb.2⟩
    · exact hb

theorem giveBuddy_only (s : State) (ward skip : Nat) : OnlySite s (s.giveBuddy ward skip) := by
  unfold State.giveBuddy
  generalize s.buddyFor ward skip = found
  cases found with
  | none => exact onlySite_setTile ..
  | some b =>
    dsimp only
    split
    · exact (onlySite_setTile ..).trans (onlySite_setTile ..)
    · exact onlySite_setTile ..

theorem needBuddy_keeps (site x : Nat) (hx : Entered prot (s.tile x)) : Entered prot ((s.needBuddy site).tile x) := by
  rw [State.needBuddy]
  split
  · exact giveBuddy_keeps _ _ _ hx
  · exact hx

theorem needBuddy_only (s : State) (site : Nat) : OnlySite s (s.needBuddy site) := by
  rw [State.needBuddy]
  split
  · exact giveBuddy_only ..
  · exact OnlySite.refl s

theorem enterTile_only (s : State) (prot : Bool) (site : Nat) : ∃ firns, OnlySite { s with firns := firns } (s.enterTile prot site) := by
  obtain ⟨⟨tiles, cores, threads, hplain⟩, -⟩ := plainSite_spec s site
  unfold State.enterTile
  extract_lets u t
  have hu : ∃ firns, OnlySite { s with firns := firns } u := by
    simp only [u, hplain]
    exact ⟨_, tiles, cores, threads, rfl⟩
  obtain ⟨firns, hu⟩ := hu
  exact ⟨firns, (hu.trans (onlySite_setTile ..)).trans (needBuddy_only ..)⟩

theorem enterTile_enters (s : State) (prot : Bool) (site : Nat) : Entered prot ((s.enterTile prot site).tile site) := by
  unfold State.enterTile
  refine needBuddy_keeps _ _ ?_
  simp only [State.tile_setTile_self]
  exact ⟨rfl, rfl⟩

theorem enterTile_keeps (site x : Nat) (hx : Entered prot (s.tile x)) : Entered prot ((s.enterTile prot site).tile x) := by
  by_cases h : x = site
  · rw [h]
    exact enterTile_enters s prot site
  · unfold State.enterTile
    refine needBuddy_keeps _ _ ?_
    have htiles := (plainSite_spec s site).2
    have hplain : ((s.plainSite site).dropFirn site).tile x = s.tile x := by
      rw [State.tile, State.dropFirn, htiles]
      exact SMap.get_put_ne _ _ _ h
    exact tile_setTile_entered (by rw [hplain]; exact hx) fun heq => absurd heq.symm h

/-- Every tile of a list enters. -/
theorem enterTiles_enter (l : List Nat) (s : State) : ∀ x ∈ l, Entered prot ((l.foldl (fun s b => s.enterTile prot b) s).tile x) := by
  have hkeep (l : List Nat) (s : State) (x : Nat) (hx : Entered prot (s.tile x)) :
      Entered prot ((l.foldl (fun s b => s.enterTile prot b) s).tile x) := by
    induction l generalizing s with
    | nil => exact hx
    | cons a l ih =>
      rw [List.foldl_cons]
      exact ih _ (enterTile_keeps a x hx)
  intro x hx
  induction l generalizing s with
  | nil => exact absurd hx List.not_mem_nil
  | cons a l ih =>
    rw [List.foldl_cons]
    rcases List.mem_cons.mp hx with rfl | hx
    · exact hkeep l _ x (enterTile_enters s prot x)
    · exact ih _ hx

theorem enterTiles_only (prot : Bool) (l : List Nat) (s : State) :
    ∃ firns, OnlySite { s with firns := firns } (l.foldl (fun s b => s.enterTile prot b) s) := by
  induction l generalizing s with
  | nil => exact ⟨s.firns, OnlySite.refl s⟩
  | cons a l ih =>
    obtain ⟨firns, tiles, cores, threads, ha⟩ := enterTile_only s prot a
    obtain ⟨firns', tiles', cores', threads', hl⟩ := ih (s.enterTile prot a)
    rw [ha] at hl
    exact ⟨firns', tiles', cores', threads', by rw [List.foldl_cons, ha, hl]⟩

end

/-! ### Regions that change their clock (R49, R60, R65) -/

theorem clockRegions_frame (s : State) (l : List Nat) (mhz : Nat) (fixed : Bool) :
    ∃ regions, s.clockRegions l mhz fixed = { s with regions := regions } ∧
      ∀ r ∈ l, r < 16 → (vget Region.init regions r).mhz = mhz ∧ (vget Region.init regions r).fixed = fixed := by
  have hkeep (l : List Nat) (s : State) : ∃ regions, s.clockRegions l mhz fixed = { s with regions := regions } ∧
      ∀ r, r < 16 → (r ∈ l ∨ ((s.reg r).mhz = mhz ∧ (s.reg r).fixed = fixed)) →
        (vget Region.init regions r).mhz = mhz ∧ (vget Region.init regions r).fixed = fixed := by
    unfold State.clockRegions
    induction l generalizing s with
    | nil => exact ⟨s.regions, rfl, fun r _ h => h.resolve_left List.not_mem_nil⟩
    | cons a l ih =>
      obtain ⟨regions, hl, hspec⟩ := ih (s.setReg a { s.reg a with mhz := mhz, fixed := fixed })
      refine ⟨regions, hl, fun r hr h => hspec r hr ?_⟩
      by_cases ha : r = a
      · refine .inr ?_
        rw [ha, reg_setReg_self s (ha ▸ hr)]
        exact ⟨rfl, rfl⟩
      · rw [reg_setReg_ne s ha]
        exact h.imp_left fun hm => (List.mem_cons.mp hm).resolve_left ha
  obtain ⟨regions, h, hspec⟩ := hkeep l s
  exact ⟨regions, h, fun r hr hlt => hspec r hlt (.inl hr)⟩

theorem beginExcursions_frame (s : State) (l : List Nat) : ∃ regions, s.beginExcursions l = { s with regions := regions } := by
  unfold State.beginExcursions
  generalize l.filter (fun k => !(s.reg k).causes.isEmpty) = m
  induction m generalizing s with
  | nil => exact ⟨s.regions, rfl⟩
  | cons a m ih => exact ih ((s.setReg a { s.reg a with startC := (s.reg a).cycles, startT := s.refTime }).countExcursion a)

theorem markPairs_frame (s : State) (l : List (Nat × Nat)) (on : Bool) : ∃ ports, s.markPairs l on = { s with ports := ports } := by
  unfold State.markPairs
  induction l generalizing s with
  | nil => exact ⟨s.ports, rfl⟩
  | cons a l ih =>
    rw [List.foldl_cons]
    exact ih (s.setPort a.1 _)

/-! ### CREATE (R100) -/

/-- The partition that a CREATE makes, without routes or a floe. -/
def createdPart (s : State) (x : Taken) (wheel : Nat) : Partition :=
  { Partition.init with
    regions := regionsOf (x.num 24 2), tiles := s.tilesIn (regionsOf (x.num 24 2)), mhz := x.num 26 2, hslots := x.num 28 1,
    fslots := x.num 29 1, prot := (x.num 30 1).testBit 0, det := (x.num 30 1).testBit 1, quantum := x.num 32 4, wheel := wheel }

theorem addPart_frame (s : State) (x : Taken) (wheel : Nat) (hfloe : (x.num 30 1).testBit 2 = false) :
    ∃ tiles cores threads firns regions ports, s.addPart x [] wheel [] [] =
      { s with
        mem := Memory.clear s.mem (kWindow x.target) (2 ^ 21), parts := SMap.put s.parts x.target (createdPart s x wheel)
        tiles := tiles, cores := cores, threads := threads, firns := firns, regions := regions, ports := ports } ∧
      (∀ r ∈ regionsOf (x.num 24 2), (vget Region.init regions r).mhz = (if x.num 26 2 = 0 then 3000 else x.num 26 2) ∧
        (vget Region.init regions r).fixed = (x.num 26 2 != 0)) ∧
      ∀ b ∈ s.binding, b.1 ∈ s.tilesIn (regionsOf (x.num 24 2)) → Entered ((x.num 30 1).testBit 0) (SMap.get Tile.init tiles b.2) := by
  let u : State := { s with
    mem := Memory.clear s.mem (kWindow x.target) (2 ^ 21), parts := SMap.put s.parts x.target (createdPart s x wheel) }
  let l := (u.partTiles x.target).map (·.2)
  have hpart : u.part x.target = createdPart s x wheel := SMap.get_put_self _ _ _ _
  have hl : ∀ b ∈ s.binding, b.1 ∈ s.tilesIn (regionsOf (x.num 24 2)) → b.2 ∈ l := fun b hb ht => by
    refine List.mem_map_of_mem (List.mem_filter.mpr ⟨hb, ?_⟩)
    rw [hpart]
    exact List.contains_iff_mem.mpr ht
  have hentered := enterTiles_enter (prot := (x.num 30 1).testBit 0) l u
  obtain ⟨firns, tiles, cores, threads, henter⟩ := enterTiles_only ((x.num 30 1).testBit 0) l u
  rw [henter] at hentered
  obtain ⟨threads', hctl⟩ := ubnarCtl_frame { u with firns := firns, tiles := tiles, cores := cores, threads := threads } x.target
  obtain ⟨regions, hbegin⟩ : ∃ regions, (if x.num 26 2 = 0 then ({ u with
      firns := firns, tiles := tiles, cores := cores, threads := threads' } : State)
      else State.beginExcursions { u with firns := firns, tiles := tiles, cores := cores, threads := threads' } (regionsOf (x.num 24 2))) =
      { u with firns := firns, tiles := tiles, cores := cores, threads := threads', regions := regions } := by
    split
    · exact ⟨s.regions, rfl⟩
    · exact beginExcursions_frame _ _
  obtain ⟨regions', hclock, hregions⟩ := clockRegions_frame
    { u with firns := firns, tiles := tiles, cores := cores, threads := threads', regions := regions } (regionsOf (x.num 24 2))
    (if x.num 26 2 = 0 then 3000 else x.num 26 2) (x.num 26 2 != 0)
  obtain ⟨ports, hmark⟩ := markPairs_frame
    { u with firns := firns, tiles := tiles, cores := cores, threads := threads', regions := regions' } [] true
  refine ⟨tiles, cores, threads', firns, regions', ports, ?_, fun r hr => hregions r hr ?_, fun b hb ht => hentered b.2 (hl b hb ht)⟩
  · unfold State.addPart
    extract_lets p rs mhz flags ts _ v w w' e _ f g h
    have he : e = { u with firns := firns, tiles := tiles, cores := cores, threads := threads } := henter
    have hf : f = e := if_neg (ne_true_of_eq_false hfloe)
    have hg : g = { u with firns := firns, tiles := tiles, cores := cores, threads := threads' } := by
      rw [← hctl, ← he, ← hf]
    have hh : h = { u with firns := firns, tiles := tiles, cores := cores, threads := threads', regions := regions } := by
      rw [← hbegin, ← hg]
    rw [hh, hclock, hmark]
  · have hlt := (List.mem_filter.mp hr).1
    exact List.mem_range.mp hlt

/-- A host write of the privileged queues leaves at once. -/
theorem hostOut_privileged (s : State) (c fn id : Nat) (a : Word) (bs : List Byte) : ∃ dirty poison outs,
    s.hostOut 0 c fn id a bs = { s with mem := Memory.writeN s.mem (kHost a.toNat) bs, dirty := dirty, poison := poison, outs := outs } := by
  have hseq : s.cpSeq 0 c = (0, s) := by
    rw [State.cpSeq]
    split <;> rfl
  have hleave (i : Item) (hpart : i.part = 0) (hbody : i.body = .store a.toNat bs true) : ∃ dirty poison outs,
      s.leaveNow i = { s with mem := Memory.writeN s.mem (kHost a.toNat) bs, dirty := dirty, poison := poison, outs := outs } := by
    have hsent : s.sentToHost i = false := by simp [State.sentToHost, hpart]
    have hnote : s.noteHost i = s := if_pos hpart
    obtain ⟨dirty, poison, hput⟩ := putMem_frame s (kHost a.toNat) bs
    rw [State.leaveNow, State.leave, State.leaveOut, hbody]
    dsimp only
    rw [hsent, hnote, if_neg Bool.false_ne_true, hput]
    exact ⟨dirty, poison, _, rfl⟩
  unfold State.hostOut
  rw [hseq]
  dsimp only
  split
  · exact hleave _ rfl rfl
  · exact hleave _ rfl rfl

theorem exec_create {s : State} {k wheel : Nat} {x : Taken} (hk : s.taken[k]? = some x) (htyp : x.typ = 16) (hop : x.op = 1)
    (hstart : s.startable x = true) (hok : createOk s x = true) (hroutes : x.num 48 2 = 0)
    (hgrant : s.wheelGrant x.target (x.num 28 1) = some wheel) :
    exec (.create k) s = .next (((if x.word 7 = 0 then s.addPart x [] wheel [] []
      else (s.addPart x [] wheel [] []).hostOut 0 0 pf x.id (x.word 7) (grantBytes wheel []))).accepted x.id) := by
  have hexec : exec (.create k) s = execCreate k s := rfl
  have hread : s.readRoutes x = (some [], s) := by
    rw [State.readRoutes]
    exact if_pos hroutes
  have hports : portsOf 0 = [] := by decide
  have hgrants (b : Bool) : s.portGrants x.target (x.num 29 1) (if b then portsOf 0 else []) = some ([], []) := by
    rw [hports, ite_self]
    rfl
  rw [hexec, execCreate, nth, hk]
  simp only [htyp, hop, hstart, hok, hread, ne_eq, not_true_eq_false, decide_false, Bool.not_true, Bool.or_self, Bool.false_eq_true,
    if_false, List.isEmpty_nil, Bool.and_false, Bool.false_and, List.foldl_nil, hgrant, hgrants]

theorem get_filter_out {α : Type} (d : α) (p : Nat × α → Bool) (m : List (Nat × α)) (i : Nat) (h : ∀ v, p (i, v) = false) :
    SMap.get d (m.filter p) i = d := by
  induction m with
  | nil => rfl
  | cons c m ih =>
    obtain ⟨j, v⟩ := c
    rw [List.filter_cons]
    split
    · next hp =>
      have hne : j ≠ i := fun hj => by rw [hj, h v] at hp; exact Bool.false_ne_true hp
      rw [SMap.get, if_neg hne, ih]
    · exact ih

theorem read_clear (m : List Host.Cell) {lo n a : Nat} (hlo : lo ≤ a) (hhi : a < lo + n) : Memory.read (Memory.clear m lo n) a = 0 :=
  get_filter_out Memory.blank _ m a fun v => by simp [hlo, hhi]

theorem grantBytes_length (wheel : Nat) : (grantBytes wheel []).length = 520 := by
  simp [grantBytes, bytesOf_length, List.length_flatMap, SMap.get]

theorem target_lt (x : Taken) : x.target < 2 ^ 32 := by
  have h := ofBytes_lt (((x.words.toList.flatMap fun w => bytesOf 8 w.toNat).drop 20).take 4)
  have hlen : (((x.words.toList.flatMap fun w => bytesOf 8 w.toNat).drop 20).take 4).length ≤ 4 := List.length_take_le _ _
  exact Nat.lt_of_lt_of_le h (Nat.pow_le_pow_right (by decide) hlen)

theorem create_makes {s : State} {k wheel : Nat} {x : Taken} (hk : s.taken[k]? = some x)
    (hfind : s.taken.find? (fun z => z.id == x.id) = some x) (htyp : x.typ = 16) (hw : MemWf s) (hop : x.op = 1)
    (hstart : s.startable x = true) (hok : createOk s x = true) (hroutes : x.num 48 2 = 0) (hfloe : (x.num 30 1).testBit 2 = false)
    (hgrant : s.wheelGrant x.target (x.num 28 1) = some wheel) :
    Ends (.create k) s fun t =>
      Staged x.id .finished s t ∧ t.attest = (s.attestOp x.words).attest ∧ t.vfs = s.vfs ∧ t.part x.target = createdPart s x wheel ∧
        (∀ q, q ≠ x.target → t.part q = s.part q) ∧
        (∀ r ∈ regionsOf (x.num 24 2), (t.reg r).mhz = (if x.num 26 2 = 0 then 3000 else x.num 26 2) ∧
          (t.reg r).fixed = (x.num 26 2 != 0)) ∧
        (∀ a, kWindow x.target ≤ a → a < kWindow x.target + 2 ^ 21 → Memory.read t.mem a = 0) ∧
        (x.word 7 ≠ 0 → Memory.readN t.mem (kHost (x.word 7).toNat) 520 = grantBytes wheel []) ∧
        ∀ b ∈ s.binding, b.1 ∈ s.tilesIn (regionsOf (x.num 24 2)) →
          (t.tile b.2).prot = (x.num 30 1).testBit 0 ∧ (t.tile b.2).ival = 1 := by
  obtain ⟨tiles, cores, threads, firns, regions, ports, hadd, hregions, hentered⟩ := addPart_frame s x wheel hfloe
  have hexec := exec_create hk htyp hop hstart hok hroutes hgrant
  have hbelow : kWindow x.target + 2 ^ 21 ≤ 2 ^ 64 := by
    have h := target_lt x
    rw [kWindow]
    omega
  have hwrite : ∃ mem dirty poison outs, (if x.word 7 = 0 then s.addPart x [] wheel [] []
      else (s.addPart x [] wheel [] []).hostOut 0 0 pf x.id (x.word 7) (grantBytes wheel [])) =
        { s.addPart x [] wheel [] [] with mem := mem, dirty := dirty, poison := poison, outs := outs } ∧
      HostOnly (s.addPart x [] wheel [] []).mem mem ∧
      (x.word 7 ≠ 0 → mem = Memory.writeN (s.addPart x [] wheel [] []).mem (kHost (x.word 7).toNat) (grantBytes wheel [])) := by
    split
    · next h => exact ⟨_, _, _, _, rfl, HostOnly.refl _, fun hn => absurd h hn⟩
    · obtain ⟨dirty, poison, outs, hout⟩ := hostOut_privileged (s.addPart x [] wheel [] []) 0 pf x.id (x.word 7) (grantBytes wheel [])
      exact ⟨_, dirty, poison, outs, hout, HostOnly.writeN _ _ (le_kHost _), fun _ => rfl⟩
  obtain ⟨mem, dirty, poison, outs, hout, hhost, hgrants⟩ := hwrite
  rw [hadd] at hout hhost hgrants
  rw [hadd, hout] at hexec
  have hcleared : Memory.wf (Memory.clear s.mem (kWindow x.target) (2 ^ 21)) = true := Memory.wf_clear _ _ hw
  have hread := (hhost hcleared).2
  let u : State := { s with
    mem := mem, dirty := dirty, poison := poison, outs := outs, parts := SMap.put s.parts x.target (createdPart s x wheel)
    tiles := tiles, cores := cores, threads := threads, firns := firns, regions := regions, ports := ports }
  have hdone : u.accepted x.id = u.completed x := accepted_completes (s := u) hfind
  refine ⟨u.completed x, hexec.trans (congrArg Host.Outcome.next hdone), setPacket_staged (s.attestOp x.words) x.id .finished, rfl, rfl,
    SMap.get_put_self _ _ _ _, fun q hq => SMap.get_put_ne _ _ _ hq, hregions, fun a hlo hhi => ?_, fun h7 => ?_, hentered⟩
  · exact (hread a (by omega)).trans (read_clear s.mem hlo hhi)
  · have h := Memory.readN_writeN hcleared (kHost (x.word 7).toNat) (grantBytes wheel [])
    rw [grantBytes_length, ← hgrants h7] at h
    exact h

end Sys2Proof.Machine
end

section
/-!
PROOFS. Partitions that are switched out and in, restored and destroyed, and a READMIT that completes (spec/11_traps.md R229-R233,
spec/05_command.md R100).
-/

namespace Sys2Proof.Machine

theorem accepted_frame (s : State) (id : Nat) : ∃ taken attest, s.accepted id = { s with taken := taken, attest := attest } := by
  rw [State.accepted]
  split
  · exact ⟨_, _, rfl⟩
  · exact ⟨s.taken, s.attest, rfl⟩

section
variable {s : State} {k : Nat} {x : Taken} (hk : s.taken[k]? = some x) (htyp : x.typ = 16)
include hk htyp

/-! ### READMIT and RESTORE (R100) -/

theorem readmit_completes {site : Nat} (hfind : s.taken.find? (fun z => z.id == x.id) = some x) (hop : x.op = 8) (hrun : x.stage = .running)
    (hsite : siteOfCoord (x.num 24 2) = some site) (hnone : ∀ a ∈ s.appends, a.record ≠ readmitRec site) :
    Ends (.readmit k) s fun t => Staged x.id .finished s t ∧ t.mem = s.mem ∧ t.threads = s.threads ∧
      t.attest = (s.attestOp x.words).attest := by
  have hexec : exec (.readmit k) s = execReadmit k s := rfl
  have hany : (s.appends.any fun a => a.record == readmitRec site) = false := by simpa using hnone
  refine ⟨s.completed x, ?_, setPacket_staged (s.attestOp x.words) x.id .finished, rfl, rfl, rfl⟩
  rw [hexec, execReadmit, nth, hk]
  dsimp only
  rw [hsite]
  dsimp only
  rw [if_pos (by simp [htyp, hop, hrun]), hany, accepted_completes hfind]
  rfl

theorem restore_reads (hop : x.op = 14) (hstart : s.startable x = true) (hpart : s.hasPart x.target = true) (hok : restoreOk s x = true)
    (hports : s.portsUsable x.target (x.num 24 2) (x.num 32 8) = true) {r : RecPoint} (hpoint : s.pointOf x = some r) (hsegs : 0 < r.segs) :
    Ends (.restore k) s fun t => Staged x.id .running s t ∧ t.mem = s.mem ∧ t.threads = s.threads ∧
      (∃ r : RecPoint, s.pointOf x = some r ∧ (t.part x.target).readTodo = List.range r.segs) ∧ (t.part x.target).stage = .restoring ∧
      (t.part x.target).rpCur = x.num 40 8 ∧ (t.part x.target).rpSrc = (x.num 26 2, x.num 48 4) ∧
      (t.part x.target).restore = some x.id ∧ ∀ q, q ≠ x.target → t.part q = s.part q := by
  have hexec : exec (.restore k) s = execRestore k s := rfl
  have hstage : (s.part x.target).stage = .active := by
    simp only [restoreOk, Bool.and_eq_true, beq_iff_eq] at hok
    tauto
  have hsettled : s.unsettled x.target = false := by simp [State.unsettled, hstage]
  let v : Partition := { s.part x.target with
    rpDev := x.num 24 2, rpPorts := x.num 32 8, rpSrc := (x.num 26 2, x.num 48 4), rpCur := x.num 40 8
    rpTiles := (s.partTiles x.target).map (·.1), restore := some x.id, stage := .restoring, readTodo := List.range r.segs }
  have hv : ((s.setPart x.target v).setPacket x.id .running).part x.target = v := part_setPart_self s x.target v
  have htodo : v.readTodo ≠ [] := by
    show List.range r.segs ≠ []
    rw [ne_eq, List.range_eq_nil]
    omega
  have hwaits : ((s.setPart x.target v).setPacket x.id .running).finishRestore x.target = (s.setPart x.target v).setPacket x.id .running :=
    finishRestore_waits (.inr (by rw [hv]; exact htodo))
  refine ⟨(s.setPart x.target v).setPacket x.id .running, ?_, setPacket_staged (s.setPart x.target v) x.id .running, rfl, rfl,
    ⟨r, hpoint, congrArg Partition.readTodo hv⟩, congrArg Partition.stage hv, congrArg Partition.rpCur hv, congrArg Partition.rpSrc hv,
    congrArg Partition.restore hv, fun q hq => part_setPart_ne s v hq⟩
  rw [hexec, execRestore, nth, hk]
  simp only [htyp, hop, hstart, hsettled, hpart, hok, hports, ne_eq, not_true_eq_false, decide_false, Bool.not_true, Bool.or_self,
    Bool.false_eq_true, if_false, hpoint, Option.map_some, Option.getD_some]
  exact congrArg Host.Outcome.next hwaits

/-! ### SWITCHOUT (R229) -/

theorem switchout_ends (hop : x.op = 11) (hrun : x.stage = .running) (hpacket : (s.part x.target).swPacket = some x.id)
    (hready : s.switchReady x.target = true) :
    Ends (.switchout k) s fun t => (t.part x.target).stage = .out ∧ (t.part x.target).swPacket = none ∧
      ∃ y ∈ t.saves, y.part = x.target ∧ y.base = (s.part x.target).save ∧ y.images.length = (s.partTiles x.target).length := by
  have hexec : exec (.switchout k) s = execSwitchout k s := rfl
  have haway : exec (.switchout k) s = .next (s.switchAway x.target x.id) := by
    rw [hexec, execSwitchout, nth, hk]
    simp [htyp, hop, hrun, hpacket, hready]
  refine ⟨_, haway, ?_⟩
  unfold State.switchAway
  extract_lets pt tiles images u v save others w
  obtain ⟨taken, attest, hdone⟩ := accepted_frame (w.setPart x.target { w.part x.target with stage := .out, swPacket := none }) x.id
  have hself := part_setPart_self w x.target { w.part x.target with stage := .out, swPacket := none }
  rw [hdone]
  exact ⟨congrArg Partition.stage hself, congrArg Partition.swPacket hself, save, List.mem_append_right _ (List.mem_singleton_self save), rfl, rfl,
    List.length_map ..⟩

omit hk htyp in
/-- Pre-emption is asked of every core of a partition. -/
theorem preemptAll_spec (s : State) (p : Nat) : ∃ cores, s.preemptAll p = { s with cores := cores } ∧
    (s.det p = false → ∀ b ∈ s.partTiles p, ∀ c, c < 4 → (SMap.get Core.init cores (b.2 * 4 + c)).preempt = true) := by
  have hall (l : List Nat) (u : State) : ∃ cores, l.foldl (fun s c =>
      if s.det p then s.setCore c { s.core c with preReq := true } else s.setCore c { s.core c with preempt := true }) u =
        { u with cores := cores } ∧
      (u.det p = false → ∀ c, (c ∈ l ∨ (u.core c).preempt = true) → (SMap.get Core.init cores c).preempt = true) := by
    induction l generalizing u with
    | nil => exact ⟨u.cores, rfl, fun _ c h => h.resolve_left List.not_mem_nil⟩
    | cons a l ih =>
      rw [List.foldl_cons]
      by_cases hdet : u.det p = true
      · rw [if_pos hdet]
        obtain ⟨cores, hl, -⟩ := ih (u.setCore a { u.core a with preReq := true })
        exact ⟨cores, hl, fun h => absurd (hdet.symm.trans h) (by decide)⟩
      · rw [if_neg hdet]
        obtain ⟨cores, hl, hspec⟩ := ih (u.setCore a { u.core a with preempt := true })
        refine ⟨cores, hl, fun h c hc => hspec h c ?_⟩
        rw [State.core, State.setCore, SMap.get_put]
        by_cases ha : c = a
        · exact .inr (by rw [if_pos ha])
        · rw [if_neg ha]
          exact hc.imp_left fun hm => (List.mem_cons.mp hm).resolve_left ha
  obtain ⟨cores, h, hspec⟩ := hall (((s.partTiles p).map (·.2)).flatMap tileCores) s
  refine ⟨cores, h, fun hdet b hb c hc => hspec hdet _ (.inl ?_)⟩
  refine List.mem_flatMap.mpr ⟨b.2, List.mem_map_of_mem hb, ?_⟩
  exact List.mem_map_of_mem (List.mem_range.mpr hc)

theorem switchout_begins (hop : x.op = 11) (hstart : s.startable x = true) (hpart : s.hasPart x.target = true)
    (hstage : (s.part x.target).stage = .active) (hz : x.zero 32 32 = true)
    (hsave : s.saveOk x.target (x.num 24 8) (s.partTiles x.target).length = true) :
    Ends (.switchout k) s fun t => Staged x.id .running s t ∧ t.mem = s.mem ∧ t.threads = s.threads ∧
      t.part x.target = { s.part x.target with stage := .draining, swPacket := some x.id, save := x.num 24 8 } ∧
      ((s.part x.target).det = false → ∀ b ∈ s.partTiles x.target, ∀ c, c < 4 → (t.core (b.2 * 4 + c)).preempt = true) := by
  have hexec : exec (.switchout k) s = execSwitchout k s := rfl
  have hready : x.stage = .ready := by
    simp only [State.startable, Bool.and_eq_true, beq_iff_eq] at hstart
    exact hstart.1.1
  have hsettled : s.unsettled x.target = false := by simp [State.unsettled, hstage]
  let v : Partition := { s.part x.target with stage := .draining, swPacket := some x.id, save := x.num 24 8 }
  have hv : (s.setPart x.target v).part x.target = v := part_setPart_self s x.target v
  have hbegin : exec (.switchout k) s = .next (((s.setPart x.target v).preemptAll x.target).setPacket x.id .running) := by
    rw [hexec, execSwitchout, nth, hk]
    simp only [htyp, hop, hready, hstart, hsettled, hpart, hstage, hz, hsave, ne_eq, not_true_eq_false, decide_false, Bool.not_true,
      Bool.or_self, Bool.false_eq_true, if_false]
    rfl
  obtain ⟨cores, hall, hcores⟩ := preemptAll_spec (s.setPart x.target v) x.target
  rw [hall] at hbegin
  have htiles : (s.setPart x.target v).partTiles x.target = s.partTiles x.target := by
    rw [State.partTiles, hv]
    rfl
  have hdet : (s.setPart x.target v).det x.target = (s.part x.target).det := by
    rw [State.det, hv]
  rw [htiles, hdet] at hcores
  exact ⟨_, hbegin, setPacket_staged (s.setPart x.target v) x.id .running, rfl, rfl, hv, hcores⟩

end

/-! ### SWITCHIN (R233) -/

/-- Partitions and the binding of logical tiles. -/
def State.placed (s : State) : List (Nat × Partition) × List (Nat × Nat) := (s.parts, s.binding)

theorem OnlySite.placed {s t : State} (h : OnlySite s t) : t.placed = s.placed := by
  obtain ⟨_, _, _, rfl⟩ := h
  rfl

theorem loadImage_placed (s : State) (site : Nat) (g : TileImage) : (s.loadImage site g).placed = s.placed := by
  unfold State.loadImage
  generalize s.bondedPlace site = place
  obtain ⟨b, n⟩ := place
  dsimp -zeta only
  extract_lets old t i cores u v w x y
  have hcores : x.placed = w.placed := by
    refine foldl_keeps State.placed (fun _ _ => ?_) cores w
    rfl
  have hthreads : y.placed = x.placed := by
    refine foldl_keeps State.placed (fun _ _ => ?_) g.threads x
    rfl
  have hw : w.placed = s.placed := rfl
  exact hthreads.trans (hcores.trans hw)

theorem enterSite_placed (s : State) (p : Nat) (prot : Bool) (site : Nat) (g : TileImage) :
    (s.enterSite p prot site g).placed = s.placed := by
  unfold State.enterSite
  extract_lets u t v w i base y z r egress home waves net
  have hdrop (r : State) : (r.dropFirn site).placed = r.placed := rfl
  have hset (r : State) (t : Tile) : (r.setTile site t).placed = r.placed := rfl
  have hu : u.placed = s.placed := (hdrop (s.plainSite site)).trans (plainSite_spec s site).1.placed
  have hr : r.placed = z.placed := by
    refine foldl_keeps State.placed (fun _ _ => ?_) (tileCores site) z
    rfl
  clear_value r
  have hbuddy (r : State) : (r.needBuddy site).placed = r.placed := (needBuddy_only r site).placed
  have hsend (a : State) : (a.resendIssued site g).placed = a.placed := by
    obtain ⟨net, hnet⟩ : ∃ net, a.resendIssued site g = { a with net := net } := ⟨_, rfl⟩
    rw [hnet]
    rfl
  have hnet (e : List (Nat × Nat × Item)) (w : List Wave) (n : List Item) :
      ({ r with egressQ := e, waves := w, net := n } : State).placed = r.placed := rfl
  rw [hbuddy, hsend]
  exact (hnet _ _ _).trans (hr.trans ((hset w _).trans ((loadImage_placed v site g).trans ((hset u _).trans hu))))

theorem switchBack_returns {s : State} {p : Nat} (images : List TileImage) (hall : (s.partTiles p).length = (s.part p).tiles.length) :
    ((s.switchBack p images).part p).stage = .active ∧ ((s.switchBack p images).part p).save = 0 ∧
      ∀ y ∈ (s.switchBack p images).saves, y.part ≠ p := by
  unfold State.switchBack
  extract_lets x u v w y z r
  have hclock : v.placed = u.placed := by
    obtain ⟨regions, hregions, -⟩ := clockRegions_frame u x.regions (if x.mhz = 0 then 3000 else x.mhz) (x.mhz != 0)
    obtain ⟨ports, hports⟩ := markPairs_frame (u.clockRegions x.regions (if x.mhz = 0 then 3000 else x.mhz) (x.mhz != 0)) x.vcs true
    simp only [v, hports, hregions]
    rfl
  have hbegin : w.placed = v.placed := by
    obtain ⟨regions, hregions⟩ := beginExcursions_frame v x.regions
    simp only [w, hregions]
    split <;> rfl
  have henter : z.placed = y.placed := by
    refine foldl_keeps State.placed (fun u g => ?_) images y
    split
    · exact enterSite_placed ..
    · rfl
  have hforget : y.placed = w.placed := rfl
  have hr : r.placed = u.placed := (show r.placed = z.placed from rfl).trans (henter.trans (hforget.trans (hbegin.trans hclock)))
  have hpart : r.part p = { x with stage := .active, save := 0 } := by
    have hparts : r.parts = u.parts := congrArg Prod.fst hr
    rw [State.part, hparts]
    exact part_setPart_self s p _
  have htiles : (r.partTiles p).length = x.tiles.length := by
    have hbinding : r.binding = s.binding := congrArg Prod.snd hr
    rw [State.partTiles, hpart, hbinding]
    exact hall
  rw [if_neg (by omega), hpart]
  refine ⟨rfl, rfl, fun y hy => ?_⟩
  simpa using (List.mem_filter.mp hy).2

theorem switchin_returns {s u : State} {k : Nat} {x : Taken} {l : List TileImage} (hk : s.taken[k]? = some x) (htyp : x.typ = 16)
    (hop : x.op = 12) (hstart : s.startable x = true) (hpart : s.hasPart x.target = true) (hstage : (s.part x.target).stage = .out)
    (hz : x.zero 32 32 = true) (hgrant : s.grantAgain x.target = true) (hlost : (s.part x.target).lost = false)
    (hsaved : (s.saves.find? fun y => y.part == x.target).isSome = true)
    (hsave : s.saveOk x.target (x.num 24 8) (((s.saves.find? fun y => y.part == x.target).map (·.images)).getD []).length = true)
    (hread : s.readRecords x.target (x.num 24 8)
      ((List.range (((s.saves.find? fun y => y.part == x.target).map (·.images)).getD []).length).zip
        (((s.saves.find? fun y => y.part == x.target).map (·.images)).getD [])) = (some l, u))
    (hu : u.part x.target = s.part x.target) (hall : (u.partTiles x.target).length = (s.part x.target).tiles.length) :
    Ends (.switchin k) s fun t => (t.part x.target).stage = .active ∧ (t.part x.target).save = 0 ∧ ∀ y ∈ t.saves, y.part ≠ x.target := by
  have hexec : exec (.switchin k) s = execSwitchin k s := rfl
  have hback : exec (.switchin k) s = .next ((u.switchBack x.target l).accepted x.id) := by
    rw [hexec, execSwitchin, nth, hk]
    simp only [htyp, hop, hstart, hlost, hpart, hstage, hz, hgrant, hsave, hread, BEq.rfl, Bool.and_self, ne_eq, not_true_eq_false, decide_false,
      Bool.not_true, Bool.or_self, Bool.false_eq_true, if_false]
    exact if_neg fun hn => by rw [Option.isNone_iff_eq_none] at hn; rw [hn] at hsaved; cases hsaved
  obtain ⟨taken, attest, hdone⟩ := accepted_frame (u.switchBack x.target l) x.id
  rw [hdone] at hback
  exact ⟨_, hback, switchBack_returns l (by rw [hu]; exact hall)⟩

/-! ### DESTROY (R100) -/

/-- Of the partitions only one has changed, and neither the packets nor the functions have. -/
structure OnlyPart (p : Nat) (s t : State) : Prop where
  others : ∀ q, q ≠ p → t.part q = s.part q
  sorted : s.parts.Pairwise (fun a b => a.1 < b.1) → t.parts.Pairwise (fun a b => a.1 < b.1)
  taken : t.taken = s.taken
  vfs : t.vfs = s.vfs

section
variable {p : Nat} {s t u : State}

theorem OnlyPart.refl (s : State) : OnlyPart p s s := ⟨fun _ _ => rfl, id, rfl, rfl⟩

theorem OnlyPart.trans (h : OnlyPart p s t) (h' : OnlyPart p t u) : OnlyPart p s u :=
  ⟨fun q hq => (h'.others q hq).trans (h.others q hq), fun hs => h'.sorted (h.sorted hs), h'.taken.trans h.taken, h'.vfs.trans h.vfs⟩

theorem OnlyPart.of_parts (h : t.parts = s.parts ∧ t.taken = s.taken ∧ t.vfs = s.vfs) : OnlyPart p s t := by
  obtain ⟨hparts, htaken, hvfs⟩ := h
  exact ⟨fun q _ => congrArg (fun l => SMap.get Partition.init l q) hparts, fun hs => hparts ▸ hs, htaken, hvfs⟩

theorem OnlyPart.foldl {α : Type} {f : State → α → State} (hf : ∀ s a, OnlyPart p s (f s a)) (l : List α) (s : State) :
    OnlyPart p s (l.foldl f s) := by
  induction l generalizing s with
  | nil => exact OnlyPart.refl s
  | cons a l ih => exact (hf s a).trans (ih _)

theorem onlyPart_setPart (s : State) (v : Partition) : OnlyPart p s (s.setPart p v) :=
  ⟨fun _ hq => part_setPart_ne s v hq, fun hs => SMap.sorted_put p v hs, rfl, rfl⟩

theorem OnlySite.onlyPart (h : OnlySite s t) : OnlyPart p s t := by
  obtain ⟨_, _, _, rfl⟩ := h
  exact OnlyPart.of_parts ⟨rfl, rfl, rfl⟩

theorem onlyPart_recordOwn (s : State) (p : Nat) (b : List Byte) : OnlyPart p s (s.recordOwn p b) := by
  choose r' mem dirty poison outs _ hwrite using ringWrite_frame s
  unfold State.recordOwn
  rw [funext₂ hwrite]
  cases (s.part p).ring with
  | none => exact OnlyPart.refl s
  | some r =>
    have hfields : OnlyPart p s { s with mem := mem r b, dirty := dirty r b, poison := poison r b, outs := outs r b } :=
      OnlyPart.of_parts ⟨rfl, rfl, rfl⟩
    exact hfields.trans (onlyPart_setPart _ _)

theorem onlyPart_recordExcursion (s : State) (p region cause start dur lost : Nat) :
    OnlyPart p s (s.recordExcursion p region cause start dur lost) := by
  unfold State.recordExcursion
  extract_lets q _ u
  generalize bytesOf 2 1 ++ bytesOf 1 region ++ bytesOf 1 cause ++ bytesOf 4 p ++ bytesOf 8 (start % 2 ^ 64) ++
    bytesOf 4 (min dur 0xFFFFFFFF) ++ bytesOf 4 (min lost 0xFFFFFFFF) ++ bytesOf 8 q = b
  exact (onlyPart_setPart s { s.part p with excSeq := q }).trans (onlyPart_recordOwn u p b)

theorem onlyPart_foreignEnd (s : State) (p l : Nat) : OnlyPart p s (s.foreignEnd p l) := by
  unfold State.foreignEnd
  extract_lets x
  split
  · exact OnlyPart.refl s
  · exact (onlyPart_setPart s _).trans (onlyPart_recordExcursion _ p _ _ _ _ _)

theorem onlyPart_releaseRegions (s : State) (p : Nat) : OnlyPart p s (s.releaseRegions p) := by
  have hend : OnlyPart p s (s.endExcursions p) := by
    unfold State.endExcursions
    split
    · exact OnlyPart.refl s
    · refine OnlyPart.foldl (f := fun s k => s.endExcursion p k) (fun s k => ?_) _ s
      unfold State.endExcursion
      extract_lets r dur
      exact onlyPart_recordExcursion s p k r.first r.startC dur (r.lost r.mhz r.startC dur)
  unfold State.releaseRegions
  extract_lets x
  generalize s.endExcursions p = e at hend
  obtain ⟨regions, hregions, -⟩ := clockRegions_frame e x.regions 3000 false
  obtain ⟨ports, hports⟩ := markPairs_frame (e.clockRegions x.regions 3000 false) x.vcs false
  rw [hports, hregions]
  exact hend.trans (OnlyPart.of_parts ⟨rfl, rfl, rfl⟩)

theorem leaveBuddy_only (s : State) (ward : Nat) : OnlySite s (s.leaveBuddy ward) := by
  unfold State.leaveBuddy
  extract_lets t
  split
  · exact OnlySite.refl s
  · dsimp only
    split
    · exact (onlySite_setTile ..).trans (onlySite_setTile ..)
    · exact onlySite_setTile ..

/-- The functions of a partition are bound to none. -/
theorem unbindAll_frame (l : List Nat) (s : State) : ∃ queues vfs, l.foldl (fun s fn => (s.forgetPosted fn).unbind fn) s =
      { s with queues := queues, vfs := vfs } ∧
    ∀ v, v < 16 → (vget none vfs v = none ∨ (v ∉ l ∧ vget none vfs v = vget none s.vfs v)) := by
  induction l generalizing s with
  | nil => exact ⟨s.queues, s.vfs, rfl, fun v _ => .inr ⟨List.not_mem_nil, rfl⟩⟩
  | cons a l ih =>
    obtain ⟨queues, vfs, hl, hspec⟩ := ih ((s.forgetPosted a).unbind a)
    refine ⟨queues, vfs, hl, fun v hv => ?_⟩
    rcases hspec v hv with h | ⟨hmem, h⟩
    · exact .inl h
    · have hset : vget none vfs v = vget none (vset s.vfs a none) v := h
      rw [vget_vset] at hset
      by_cases ha : v = a
      · exact .inl (by rw [hset, if_pos ⟨ha, ha ▸ hv⟩])
      · exact .inr ⟨fun hm => (List.mem_cons.mp hm).elim ha hmem, by rw [hset, if_neg fun h => ha h.1]⟩

theorem retryBuddies_keeps (s : State) : s.retryBuddies.parts = s.parts ∧ s.retryBuddies.taken = s.taken ∧ s.retryBuddies.vfs = s.vfs := by
  have hgive (u : State) (w : Nat) : ∃ tiles cores threads, u.giveBuddy w Config.numSites =
      { u with tiles := tiles, cores := cores, threads := threads } := giveBuddy_only u w Config.numSites
  have hfull (u : State) (w : Nat) : ∃ tiles firnMem firns, u.fullInterval w = { u with tiles := tiles, firnMem := firnMem, firns := firns } := by
    unfold State.fullInterval
    extract_lets t v r
    have hr : ∃ firnMem, r = { v with firnMem := firnMem } := by
      cases hb : t.buddy with
      | none => exact ⟨v.firnMem, by simp only [r, hb]⟩
      | some b => exact ⟨_, by simp only [r, hb]; rfl⟩
    obtain ⟨firnMem, hr⟩ := hr
    rw [hr]
    exact ⟨_, _, _, rfl⟩
  unfold State.retryBuddies
  generalize (s.tiles.filter fun t => t.2.rank.isSome && t.2.buddy.isNone && t.2.prot) = l
  have h := foldl_keeps (fun u : State => (u.parts, u.taken, u.vfs)) (f := fun s t =>
    let s := s.giveBuddy t.1 Config.numSites
    if (s.tile t.1).buddy.isSome then s.fullInterval t.1 else s) (fun u t => ?_) l s
  · exact ⟨congrArg (·.1) h, congrArg (·.2.1) h, congrArg (·.2.2) h⟩
  · obtain ⟨_, _, _, hg⟩ := hgive u t.1
    dsimp only
    rw [hg]
    split
    · obtain ⟨_, _, _, hf⟩ := hfull { u with tiles := _, cores := _, threads := _ } t.1
      rw [hf]
    · rfl

theorem key_ne_of_mem_del {α : Type} {m : List (Nat × α)} (hm : m.Pairwise fun a b => a.1 < b.1) {i : Nat} {c : Nat × α}
    (hc : c ∈ SMap.del m i) : c.1 ≠ i := by
  induction m with
  | nil => exact absurd hc List.not_mem_nil
  | cons a m ih =>
    obtain ⟨hlt, hrest⟩ := List.pairwise_cons.mp hm
    rw [SMap.del] at hc
    split at hc
    · next ha =>
      have h : a.1 < c.1 := hlt c hc
      omega
    · next ha =>
      rcases List.mem_cons.mp hc with rfl | hc
      · exact fun h => ha h.symm
      · exact ih hrest hc

/-- What DESTROY leaves before the packet completes. -/
theorem destroyPart_spec (hpacket : (s.part p).swPacket = none) (hsorted : s.parts.Pairwise fun a b => a.1 < b.1) :
    (s.destroyPart p).hasPart p = false ∧ (∀ q, q ≠ p → (s.destroyPart p).part q = s.part q) ∧
      (s.destroyPart p).taken = s.taken.filter (fun z => z.part != p) ∧
      ∀ v, v < 16 → vget none (s.destroyPart p).vfs v ≠ some p := by
  unfold State.destroyPart
  extract_lets x s₁ s₂ s₃ s₄ s₅
  have h₁ : s₁ = s := by simp only [s₁, x, hpacket, Option.bind_none]
  have hpurge : (∀ q, q ≠ p → s₂.part q = s.part q) ∧ s₂.parts.Pairwise (fun a b => a.1 < b.1) ∧
      s₂.taken = s.taken.filter (fun z => z.part != p) ∧ s₂.vfs = s.vfs := by
    simp only [s₂, h₁]
    exact ⟨fun q hq => SMap.get_put_ne _ _ _ hq, SMap.sorted_put p _ hsorted, rfl, rfl⟩
  clear_value s₂
  obtain ⟨hothers, hkeys, htaken, hvfs⟩ := hpurge
  obtain ⟨queues, vfs, h₃, hunbound⟩ := unbindAll_frame (s₂.vfsOf p) s₂
  have h₃ : s₃ = { s₂ with queues := queues, vfs := vfs } := h₃
  have hfree : ∀ v, v < 16 → vget none vfs v ≠ some p := fun v hv heq => by
    rcases hunbound v hv with hnone | ⟨hmem, hsame⟩
    · rw [hnone] at heq
      cases heq
    · refine hmem (List.mem_filter.mpr ⟨List.mem_range.mpr hv, ?_⟩)
      rw [← hsame, heq]
      exact beq_self_eq_true _
  have h₄ : OnlyPart p s₃ s₄ := OnlyPart.foldl (f := fun s e => s.foreignEnd p e.1) (fun s e => onlyPart_foreignEnd s p e.1) x.foreign s₃
  have h₅ : OnlyPart p s₄ s₅ := by
    simp only [s₅]
    split
    · exact OnlyPart.refl s₄
    · refine (onlyPart_releaseRegions s₄ p).trans (OnlyPart.foldl (f := fun s b => (s.leaveBuddy b).plainSite b) (fun s b => ?_) _ _)
      exact ((leaveBuddy_only s b).trans (plainSite_spec _ b).1).onlyPart
  have hall := h₄.trans h₅
  clear_value s₅ s₄ s₃
  obtain ⟨others, sorted, taken, functions⟩ := hall
  subst h₃
  have hsorted₅ := sorted hkeys
  obtain ⟨hparts, hpackets, hbound⟩ := retryBuddies_keeps
    { s₅ with parts := SMap.del s₅.parts p, saves := s₅.saves.filter (·.part != p) }
  refine ⟨?_, fun q hq => ?_, hpackets.trans (taken.trans htaken), fun v hv => ?_⟩
  · rw [State.hasPart, hparts, List.any_eq_false]
    exact fun c hc hcp => key_ne_of_mem_del hsorted₅ hc (beq_iff_eq.mp hcp)
  · rw [State.part, hparts, SMap.get_del Partition.init hsorted₅, if_neg hq]
    exact (others q hq).trans (hothers q hq)
  · rw [hbound, functions]
    exact hfree v hv

end

theorem destroy_ends {s : State} {k : Nat} {x : Taken} (hk : s.taken[k]? = some x)
    (hfind : s.taken.find? (fun z => z.id == x.id) = some x) (htyp : x.typ = 16) (hop : x.op = 2) (hstart : s.startable x = true)
    (hpart : s.hasPart x.target = true) (hz : x.zero 24 40 = true) (hown : x.part ≠ x.target)
    (hpacket : (s.part x.target).swPacket = none) (hsorted : (s.parts.map (·.1)).Pairwise (· < ·)) :
    Ends (.destroy k) s fun t => t.hasPart x.target = false ∧ (∀ q, q ≠ x.target → t.part q = s.part q) ∧
      (∀ v, v < 16 → vget none t.vfs v ≠ some x.target) ∧
      ∀ z ∈ t.taken, z.part ≠ x.target ∧ (z.id = x.id → z.stage = .finished) := by
  obtain ⟨hgone, hothers, htaken, hvfs⟩ := destroyPart_spec hpacket (List.pairwise_map.mp hsorted)
  have hfind' : (s.destroyPart x.target).taken.find? (fun z => z.id == x.id) = some x := by
    obtain ⟨hid, as, bs, hl, has⟩ := List.find?_eq_some_iff_append.mp hfind
    rw [htaken, List.find?_filter, List.find?_eq_some_iff_append]
    refine ⟨?_, as, bs, hl, fun a ha => ?_⟩
    · simp [hown]
    · have h := has a ha
      simp only [Bool.not_eq_true', decide_eq_false_iff_not, not_and, Bool.not_eq_true] at h ⊢
      exact fun _ => h
  have hexec : exec (.destroy k) s = execDestroy k s := rfl
  rw [execDestroy, simpleOp, partOp_runs hk htyp hstart hop, hpart, hz, accepted_completes hfind'] at hexec
  generalize s.destroyPart x.target = u at *
  obtain ⟨attest, hdone⟩ := completed_frame u x
  refine ⟨u.completed x, hexec, ?_⟩
  rw [hdone]
  refine ⟨hgone, hothers, hvfs, fun z hz => ?_⟩
  obtain ⟨w, hw, rfl⟩ := List.mem_map.mp hz
  rw [htaken] at hw
  have hother : w.part ≠ x.target := by simpa using (List.mem_filter.mp hw).2
  split
  · exact ⟨hother, fun _ => rfl⟩
  · next h => exact ⟨hother, fun hid => absurd (beq_iff_eq.mpr hid) h⟩

/-- Settles O49: what each operation makes of the partition, and that the others stay. -/
theorem partitionLifeResults : Obligations.PartitionLifeResults := by
  unfold Obligations.PartitionLifeResults
  intro s u k wheel site x l p pt regions flags mhz packets hk hfind htyp hw
  refine ⟨fun hop hstart hok hroutes hfloe hgrant => create_makes hk hfind htyp hw hop hstart hok hroutes hfloe hgrant,
    fun hop hstart hpart hz hown hpacket hsorted => destroy_ends hk hfind htyp hop hstart hpart hz hown hpacket hsorted,
    fun hop hstart hpart hstage hz hsave => switchout_begins hk htyp hop hstart hpart hstage hz hsave,
    fun hop hrun hpacket hready => switchout_ends hk htyp hop hrun hpacket hready,
    fun hop hstart hpart hstage hz hgrant hlost hsaved hsave hread hu hall =>
      switchin_returns hk htyp hop hstart hpart hstage hz hgrant hlost hsaved hsave hread hu hall,
    fun hop hstart hpart hok hports hpoint => ?_,
    fun hop hrun hsite hnone => readmit_completes hk htyp hfind hop hrun hsite hnone⟩
  obtain ⟨r, hpoint, hsegs⟩ := hpoint
  exact restore_reads hk htyp hop hstart hpart hok hports hpoint hsegs

end Sys2Proof.Machine
end

section
/-!
PROOFS. Steps of the copy engine (spec/09_memory.md, spec/18_matrix.md R375-R380).
-/

namespace Sys2Proof.Machine

/-! ### A line of a transfer whose last byte lies beyond its 2^48 bytes (O50) -/

/-- A transfer of 64 bytes from 8 bytes below 2^48 to the bottom of the own scratchpad. -/
def edgeTransfer : Xfer :=
  { op := .copy, src := BitVec.ofNat 64 (2 ^ 48 - 8), dst := 0, len := 64, arr := 0, send := false, chan := 0, mc := [], red := 0,
    slot := 0, user := 0, tag := 0, hart := 0, srank := 0, job := 0, part := 1, ach := 0, seq := 0, ord := 0, caps := [], done := [],
    landed := 0, denied := [], pending := false, park := none }

/-- A tile whose usable bonded block is set to reach past 2^48, whose protection entry 0 lets reads and writes through everywhere, and
whose copy channel 0 holds that transfer. -/
def edgeTile : Tile :=
  { Tile.init with
    usable := 2 ^ 29
    lpt := vset (Vector.replicate 16 0) 0 (BitVec.ofNat 64 (2 ^ 63 + 2 ^ 57 + 2 ^ 56 + 60))
    xfers := vset (Vector.replicate 4 none) 0 (some edgeTransfer) }

/-- The part at reset with that tile at site 0. -/
def edgeState : State := { State.reset with tiles := [(0, edgeTile)] }

/-- Whether a step leaves copy channel 0 of the tile at site 0 free. -/
def frees : Out → Bool
  | .next t => (vget none (t.tile 0).xfers 0).isNone
  | _ => false

theorem edge_frees : frees (exec (.engineChunk 0 0 [0]) edgeState) = true := by decide +kernel

/-- Refutes O50: the line whose first byte lies below 2^48 and whose last one lies above ends its transfer with an error, where the
number of usable bytes puts all of it among the tile's locations; the transfer does not go on. -/
theorem not_copyStepResults : ¬ Obligations.CopyStepResults := by
  intro h
  obtain ⟨hsteps, -⟩ := h
  obtain ⟨hchannel, -⟩ := hsteps edgeState 0 0 0 (kBonded 0 + (2 ^ 48 - 8 - Config.bondedLocal)) (kScratch 0) 0 edgeTransfer
    (State.reset.item 0 0 false (.site 0) (.store 0 [] false)) 0 0 0 0 [] 0 0 0
    (by decide +kernel : Memory.wf edgeState.mem = true)
  obtain ⟨hline, -⟩ := hchannel (by decide) (by decide +kernel)
  obtain ⟨t, ht, -, -, -, (hgoes : vget none (t.tile 0).xfers 0 = some _), -⟩ := hline (by decide +kernel) (by decide +kernel) (by decide +kernel) (by decide +kernel)
    (by decide +kernel) (by decide +kernel) (by decide +kernel) (by decide +kernel) (by decide +kernel) (by decide +kernel)
    (by decide +kernel) (by decide +kernel)
  have hfrees := edge_frees
  rw [ht, frees, hgoes] at hfrees
  exact absurd hfrees (by decide)

end Sys2Proof.Machine
end

section
/-!
PROOFS. Expert queues: pushes, fires, releases, status and firing (spec/08_experts.md, spec/18_matrix.md R379-R381).
-/

namespace Sys2Proof.Machine

/-! ### What leaves queues, memory, threads and cores as they are -/

theorem Noticed.queue {s t : State} (h : Noticed s t) (x n : Nat) : (t.tile x).eq n = (s.tile x).eq n :=
  (congrArg (fun y : Tile => y.eq n) (h.tile x) :)

theorem noticed_foldl {α : Type} (f : State → α → State) (hf : ∀ u a, Noticed u (f u a)) (l : List α) (s : State) :
    Noticed s (l.foldl f s) := by
  induction l generalizing s with
  | nil => exact Noticed.refl s
  | cons a l ih => exact (hf s a).trans (ih (f s a))

theorem logWrite_noticed (s : State) (site part a k n : Nat) (fe : Bool) (mark : Option (Nat × Nat × Nat)) :
    Noticed s (s.logWrite site part a k n fe mark) := by
  unfold State.logWrite
  split
  · split
    · exact Noticed.refl s
    · exact noticed_foldl _ (fun u _ => Noticed.log u _ _ _ _ _) _ s
  · exact Noticed.refl s

/-- A translation is at most cached. -/
theorem translate_frame (s : State) (p va : Nat) : ∃ tiles homes, (s.translate p va).2 = { s with tiles := tiles, homes := homes } := by
  have hsame : ∃ tiles homes, s = { s with tiles := tiles, homes := homes } := ⟨_, _, rfl⟩
  have hcache (home : Option Nat) (e : TlbEntry) : ∃ tiles homes, s.cache home va e = { s with tiles := tiles, homes := homes } := by
    cases home <;> exact ⟨_, _, rfl⟩
  unfold State.translate
  split
  · exact hsame
  · split
    · exact hsame
    · dsimp only
      split
      · exact hsame
      · split
        · exact hsame
        · split
          · exact hsame
          · exact hcache _ _

theorem translated_frame {s u : State} {p va : Nat} {r : Except Nat TlbEntry} (h : s.translate p va = (r, u)) :
    ∃ tiles homes, u = { s with tiles := tiles, homes := homes } := by
  obtain ⟨tiles, homes, hu⟩ := translate_frame s p va
  rw [h] at hu
  exact ⟨tiles, homes, hu⟩

/-! ### Taking an item -/

/-- What an accepted item leaves: its threads, cores and items, and one queue of one tile. -/
structure Took (s : State) (ord site n : Nat) (q : ExpertQueue) (mem : List Host.Cell) (t : State) : Prop where
  threads : t.threads = s.threads
  cores   : t.cores = s.cores
  net     : t.net = s.net.filter fun j => j.ord != ord
  queue   : (t.tile site).eq n = q
  mem     : t.mem = mem

/-! ### An item at the home of its queue -/

section
variable {s : State} {i : Item} {qid site n : Nat} {q : ExpertQueue} (hfind : s.findEq i.part qid = some (site, n, q))
include hfind

theorem findEq_spec : (∃ b, (s.partTiles i.part).find? (·.1 == qid / 64) = some b ∧ b.2 = site) ∧ q = (s.tile site).eq n ∧
    q.configured = true := by
  unfold State.findEq at hfind
  split at hfind
  · cases hfind
  · next b hb =>
    dsimp only at hfind
    split at hfind
    · next hq =>
      obtain ⟨rfl, rfl, rfl⟩ := (by simpa using hfind : b.2 = site ∧ qid % 64 = n ∧ (s.tile b.2).eq (qid % 64) = q)
      exact ⟨⟨b, hb, rfl⟩, rfl, (Bool.and_eq_true_iff.mp hq).1⟩
    · cases hfind

/-- An item that the open home of its queue has not had yet is dealt with there. -/
theorem atQueue_takes (take : Nat → Nat → ExpertQueue → State) (hdoor : s.door site i.part = .open_)
    (hfresh : (s.tile site).fresh (s.itemDomain i) i.seq = true) : s.atQueue i qid take = take site n q := by
  obtain ⟨⟨b, hb, rfl⟩, -⟩ := findEq_spec hfind
  simp only [State.atQueue, hb, hdoor, hfresh, hfind, Bool.not_true, Bool.and_false, Bool.false_eq_true, if_false]

end

/-! ### Pushes (R156) -/

/-- A push that has been accepted is taken, noted, counted and logged. -/
def State.notePush (s : State) (site : Nat) (i : Item) : State :=
  let s := s.takeItem i
  let s := if (s.tile site).fresh (s.itemDomain i) i.seq then s.noteSeq site (s.itemDomain i) i.seq else s
  let s := s.countRecv site i.job 1
  if i.passed then s else s.log site 1 [] (some i) 80

theorem notePush_noticed (s : State) (site : Nat) (i : Item) : Noticed (s.takeItem i) (s.notePush site i) := by
  have hseq (u : State) (c : Bool) (d : Domain) : Noticed u (if c then u.noteSeq site d i.seq else u) := by
    cases c
    · exact Noticed.refl u
    · exact Noticed.noteSeq u site d i.seq
  have hlog (u : State) : Noticed u (if i.passed then u else u.log site 1 [] (some i) 80) := by
    split
    · exact Noticed.refl u
    · exact Noticed.log u site 1 [] (some i) 80
  exact ((hseq _ _ _).trans (Noticed.countRecv _ _ _ _)).trans (hlog _)

/-- An EQFIRE or EQDONE that has been accepted is taken, noted and logged. -/
def State.noteOrder (s : State) (site : Nat) (i : Item) : State :=
  if i.passed then s.takeItem i
  else ((s.takeItem i).noteSeq site (s.itemDomain i) i.seq).log site 1 [] (some i) 80

theorem noteOrder_noticed (s : State) (site : Nat) (i : Item) : Noticed (s.takeItem i) (s.noteOrder site i) := by
  unfold State.noteOrder
  split
  · exact Noticed.refl _
  · exact (Noticed.noteSeq _ _ _ _).trans (Noticed.log _ _ _ _ _ _)

/-- A state that has taken an item and noted it, with a queue set after. -/
theorem Took.of_noticed {s u v : State} {i : Item} {site n : Nat} {q : ExpertQueue} (hthreads : u.threads = s.threads)
    (hcores : u.cores = s.cores) (hnet : u.net = s.net) (hv : Noticed (u.takeItem i) v) :
    Took s i.ord site n q u.mem (v.setEq site n q) :=
  ⟨hv.threads.trans hthreads, hv.cores.trans hcores, hv.net.trans (by rw [← hnet]; rfl), State.eq_setEq_self .., hv.mem⟩

/-- The state that has taken an item and noted it, the queue set before. -/
theorem Took.of_set {s u v : State} {i : Item} {site n : Nat} {q : ExpertQueue} (hthreads : u.threads = s.threads)
    (hcores : u.cores = s.cores) (hnet : u.net = s.net) (hv : Noticed ((u.setEq site n q).takeItem i) v) :
    Took s i.ord site n q u.mem v :=
  ⟨hv.threads.trans hthreads, hv.cores.trans hcores, hv.net.trans (by rw [← hnet]; rfl),
    (hv.queue site n).trans (State.eq_setEq_self u site n q), hv.mem⟩

/-- The entry that a push makes (R154). -/
def State.pushed (s : State) (i : Item) (q : ExpertQueue) (site : Nat) (bs : List Byte) : EqEntry :=
  { bytes := bs.take 24 ++ bytesOf 4 (i.srank % 2 ^ 18) ++ bs.drop 28, since := s.eqNow site q.part, job := i.job }

section
variable {s : State} {i : Item} {qid site n : Nat} {q : ExpertQueue} {bs : List Byte}

theorem pushed_length (h : bs.length = 32) : (s.pushed i q site bs).bytes.length = 32 := by
  simp [State.pushed, h, bytesOf_length]

section
variable (hfind : s.findEq i.part qid = some (site, n, q)) (hdoor : s.door site i.part = .open_)
  (hfresh : (s.tile site).fresh (s.itemDomain i) i.seq = true)
include hfind hdoor hfresh

/-- A push into a ring with a free slot and nothing spilled. -/
theorem acceptPush_ring (hspill : q.spill = []) (hroom : q.occupied < 2 ^ q.ringlog) : ∃ top,
    Took s i.ord site n { q with ring := q.ring ++ [s.pushed i q site bs], top := top }
      (Memory.writeN s.mem (kScratch site + q.ringoff + 32 * ((q.head + q.occupied) % 2 ^ q.ringlog)) (s.pushed i q site bs).bytes)
      (s.acceptPush i qid bs) := by
  obtain rfl := (findEq_spec hfind).2.1
  have hpush : s.acceptPush i qid bs =
      let v := (s.toRing site n (s.pushed i ((s.tile site).eq n) site bs)).notePush site i
      v.setEq site n (((v.tile site).eq n).noteTop (v.eqNow site ((s.tile site).eq n).part)) := by
    rw [State.acceptPush, atQueue_takes hfind _ hdoor hfresh]
    simp only [hspill, List.isEmpty_nil, hroom, decide_true, Bool.and_self, if_true]
    rfl
  have hnoted := notePush_noticed (s.toRing site n (s.pushed i ((s.tile site).eq n) site bs)) site i
  rw [hpush]
  dsimp only
  rw [(hnoted.queue site n).trans (State.eq_setEq_self _ site n _)]
  exact ⟨_, Took.of_noticed (u := s.toRing site n (s.pushed i ((s.tile site).eq n) site bs)) rfl rfl rfl hnoted⟩

/-- A push into a spill area with room. -/
theorem acceptPush_spill (hfull : q.spill ≠ [] ∨ 2 ^ q.ringlog ≤ q.occupied) (hroom : (q.spill.length + 1) * 32 ≤ q.spillLen) :
    let e : EqEntry := { s.pushed i q site bs with slot := q.spillSlot }
    s.acceptPush i qid bs = ((s.putSpill site q i e).setEq site n { q with spill := q.spill ++ [e] }).notePush site i := by
  intro e
  have hno : (q.spill.isEmpty && decide (q.occupied < 2 ^ q.ringlog)) = false := by
    rcases hfull with h | h
    · simp [h]
    · simp [Nat.not_lt.mpr h]
  rw [State.acceptPush, atQueue_takes hfind _ hdoor hfresh]
  simp only [hno, Bool.false_eq_true, if_false, hroom, if_true]
  rw [← (findEq_spec hfind).2.1]
  rfl

theorem acceptPush_spill_took (hfull : q.spill ≠ [] ∨ 2 ^ q.ringlog ≤ q.occupied) (hroom : (q.spill.length + 1) * 32 ≤ q.spillLen)
    {u : State} (hthreads : u.threads = s.threads) (hcores : u.cores = s.cores) (hnet : u.net = s.net)
    (hput : Noticed u (s.putSpill site q i { s.pushed i q site bs with slot := q.spillSlot })) :
    Took s i.ord site n { q with spill := q.spill ++ [{ s.pushed i q site bs with slot := q.spillSlot }] } u.mem
      (s.acceptPush i qid bs) := by
  rw [acceptPush_spill hfind hdoor hfresh hfull hroom, ← hput.mem]
  exact Took.of_set (hput.threads.trans hthreads) (hput.cores.trans hcores) (hput.net.trans hnet) (notePush_noticed _ site i)

/-- A push into a queue that is full, the report of which has been made. -/
theorem acceptPush_full (hfull : q.spill ≠ [] ∨ 2 ^ q.ringlog ≤ q.occupied) (hroom : q.spillLen < (q.spill.length + 1) * 32)
    (hreported : q.spflt = true) : s.acceptPush i qid bs = s.bounce i := by
  have hno : (q.spill.isEmpty && decide (q.occupied < 2 ^ q.ringlog)) = false := by
    rcases hfull with h | h
    · simp [h]
    · simp [Nat.not_lt.mpr h]
  rw [State.acceptPush, atQueue_takes hfind _ hdoor hfresh]
  simp only [hno, Bool.false_eq_true, if_false, Nat.not_le.mpr hroom, hreported, if_true]

end

/-- An entry whose page is missing is kept by the unit. -/
theorem putSpill_error {e : EqEntry} {c : Nat} {u : State} (h : s.translate q.part (q.spillAt + 32 * e.slot) = (.error c, u)) :
    Noticed u (s.putSpill site q i e) := by
  unfold State.putSpill
  dsimp only
  rw [h]
  exact Noticed.refl u

/-- An entry that its page's home takes. -/
theorem putSpill_ok {e : EqEntry} {v : TlbEntry} {u : State} (h : s.translate q.part (q.spillAt + 32 * e.slot) = (.ok v, u))
    (hgrants : v.grants .atomic (some (bitsN v.leaf.toNat 63 48, bitsN v.w1.toNat 63 48)) = none) :
    Noticed (u.putMem (u.entryKey q.part v (q.spillAt + 32 * e.slot)) e.bytes) (s.putSpill site q i e) := by
  unfold State.putSpill
  dsimp only
  rw [h]
  dsimp only
  rw [hgrants]
  exact logWrite_noticed _ _ _ _ _ _ _ _

/-- A refused push waits for its resend. -/
theorem bounce_push (hstage : i.stage = .waiting) (hbody : i.body = .push qid bs) :
    s.bounce i = { s with net := s.net.map fun j => if j.ord = i.ord then { j with stage := .refused 1024 } else j } := by
  simp only [State.bounce, hbody, hstage, State.setStage, beq_iff_eq]
  cases i.dst <;> rfl

/-! ### EQFIRE, EQDONE and EQSTAT at the home (R157, R158, R160) -/

section
variable (hfind : s.findEq i.part qid = some (site, n, q)) (hdoor : s.door site i.part = .open_)
  (hfresh : (s.tile site).fresh (s.itemDomain i) i.seq = true)
include hfind hdoor hfresh

theorem acceptFire_took :
    Took s i.ord site n { q with force := q.force || decide (1 ≤ q.waiting) } s.mem (s.acceptFire i qid) := by
  have hfire : s.acceptFire i qid = (s.noteOrder site i).setEq site n { q with force := q.force || decide (1 ≤ q.waiting) } :=
    atQueue_takes hfind _ hdoor hfresh
  rw [hfire]
  exact Took.of_noticed (s := s) rfl rfl rfl (noteOrder_noticed s site i)

/-- An EQDONE of the only batch of a queue with nothing spilled. -/
theorem acceptDone_eq {b : Batch} {fire : Nat} (hb : q.batches = [b]) (hf : b.fire = fire) (hg : b.got < b.need) (hs : q.spill = []) :
    s.acceptDone i qid fire =
      ((s.noteOrder site i).setEq site n { q with batches := [{ b with got := b.got + 1 }] }).freeBatches site n 1 := by
  rw [State.acceptDone, atQueue_takes hfind _ hdoor hfresh]
  simp only [hb, hs, List.any_cons, hf, beq_self_eq_true, hg, decide_true, Bool.true_and, Bool.true_or, if_true, List.map_cons,
    List.map_nil, List.length_cons, List.length_nil, State.unspill]
  rfl

end

/-- A batch that waits for more EQDONEs holds its slots. -/
theorem freeBatches_waits {v : State} {q : ExpertQueue} {b : Batch} (hb : q.batches = [b]) (hg : b.got < b.need) :
    (v.setEq site n q).freeBatches site n 1 = v.setEq site n q := by
  rw [State.freeBatches, State.eq_setEq_self, hb]
  simp only [hg, if_true]

theorem setEmpty_foldl_frame (f : Nat → Nat) (l : List Nat) (v : State) : ∃ full,
    l.foldl (fun v j => v.setEmpty (f j) 32) v = { v with full := full } := by
  induction l generalizing v with
  | nil => exact ⟨_, rfl⟩
  | cons j l ih =>
    obtain ⟨full, h⟩ := ih (v.setEmpty (f j) 32)
    exact ⟨full, h⟩

/-- A batch with all its EQDONEs frees its slots. -/
theorem freeBatches_frees {v : State} {q : ExpertQueue} {b : Batch} (hb : q.batches = [b]) (hg : ¬ b.got < b.need) : ∃ full,
    (v.setEq site n q).freeBatches site n 1 =
      ({ v.setEq site n q with full := full }).setEq site n
        { q with head := (q.head + b.count) % 2 ^ q.ringlog, batches := [], spflt := false } := by
  rw [State.freeBatches, State.eq_setEq_self, hb]
  simp only [hg, if_false, State.freeBatches]
  obtain ⟨full, h⟩ := setEmpty_foldl_frame
    (fun j => kScratch site + q.ringoff + 32 * ((q.head + j) % 2 ^ q.ringlog)) (List.range b.count) (v.setEq site n q)
  exact ⟨full, by rw [h]⟩

/-- One bit of a number that is put together from fields. -/
theorem testBit_flag {hi lo k : Nat} (b : Bool) (hlo : lo < 2 ^ k) : ((hi * 2 + ofBool b) * 2 ^ k + lo).testBit k = b := by
  have hdiv : ((hi * 2 + ofBool b) * 2 ^ k + lo) / 2 ^ k = hi * 2 + ofBool b := by
    rw [Nat.add_comm, Nat.add_mul_div_right _ _ (Nat.two_pow_pos k), Nat.div_eq_of_lt hlo, Nat.zero_add]
  rw [Nat.testBit_eq_decide_div_mod_eq, hdiv, Nat.mul_add_mod_self_right]
  cases b <;> rfl

/-- The fields of a status word (R157). -/
theorem status_eq {q : ExpertQueue} (now : Nat) (hconf : q.configured = true) (hw : q.waiting < 2 ^ 32) :
    ∃ spill busy prio, spill < 2 ^ 16 ∧ busy < 2 ^ 3 ∧ prio < 2 ^ 3 ∧ q.status now = BitVec.ofNat 64 (spill * 2 ^ 48 +
      ofBool q.spflt * 2 ^ 44 + busy * 2 ^ 41 + ofBool q.force * 2 ^ 40 + ofBool (q.eligible now) * 2 ^ 39 +
      ofBool q.enable * 2 ^ 38 + prio * 2 ^ 35 + q.waiting) := by
  refine ⟨min q.spill.length 0xFFFF, q.inFlight % 8, q.eprio now % 8, by omega, by omega, by omega, ?_⟩
  rw [ExpertQueue.status, if_pos hconf, Nat.mod_eq_of_lt hw]

theorem ofBool_le (b : Bool) : ofBool b ≤ 1 := by cases b <;> decide

/-- What a status word tells (R157). -/
theorem status_tells {q : ExpertQueue} (now : Nat) (hconf : q.configured = true) (hw : q.waiting < 2 ^ 32) :
    (q.status now).toNat % 2 ^ 32 = q.waiting ∧ (q.status now).getLsbD 38 = q.enable ∧ (q.status now).getLsbD 39 = q.eligible now ∧
      (q.status now).getLsbD 40 = q.force ∧ (q.status now).getLsbD 44 = q.spflt := by
  obtain ⟨spill, busy, prio, hspill, hbusy, hprio, hstatus⟩ := status_eq now hconf hw
  have hspflt := ofBool_le q.spflt
  have hforce := ofBool_le q.force
  have heligible := ofBool_le (q.eligible now)
  have henable := ofBool_le q.enable
  have hbit {k hi lo v : Nat} {b : Bool} (hk : k < 64) (hlo : lo < 2 ^ k) (hv : v = (hi * 2 + ofBool b) * 2 ^ k + lo) :
      (BitVec.ofNat 64 v).getLsbD k = b := by
    rw [BitVec.getLsbD_ofNat, decide_eq_true hk, Bool.true_and, hv, testBit_flag b hlo]
  rw [hstatus]
  refine ⟨?_, ?_, ?_, ?_, ?_⟩
  · rw [BitVec.toNat_ofNat]
    omega
  · exact hbit (by decide) (lo := prio * 2 ^ 35 + q.waiting) (by omega) (hi := spill * 2 ^ 9 + ofBool q.spflt * 2 ^ 5 + busy * 2 ^ 2 +
      ofBool q.force * 2 + ofBool (q.eligible now)) (by omega)
  · exact hbit (by decide) (lo := ofBool q.enable * 2 ^ 38 + prio * 2 ^ 35 + q.waiting) (by omega)
      (hi := spill * 2 ^ 8 + ofBool q.spflt * 2 ^ 4 + busy * 2 + ofBool q.force) (by omega)
  · exact hbit (by decide) (lo := ofBool (q.eligible now) * 2 ^ 39 + ofBool q.enable * 2 ^ 38 + prio * 2 ^ 35 + q.waiting) (by omega)
      (hi := spill * 2 ^ 7 + ofBool q.spflt * 2 ^ 3 + busy) (by omega)
  · exact hbit (by decide) (lo := busy * 2 ^ 41 + ofBool q.force * 2 ^ 40 + ofBool (q.eligible now) * 2 ^ 39 + ofBool q.enable * 2 ^ 38 +
      prio * 2 ^ 35 + q.waiting) (by omega) (hi := spill * 2 ^ 3) (by omega)

/-- An EQSTAT at its home is answered with the status word. -/
theorem offerStat_open (hdoor : s.door ((s.siteOfRank (qid / 64)).getD Config.numSites) i.part = .open_) : ∃ j : Item,
    s.offerStat i qid = { s with net := (s.net.filter fun j => j.ord != i.ord) ++ [j], ordCtr := s.ordCtr + 1 } ∧ j.dst = .hart i.src ∧
      j.body = .response 0 0 false { value := s.eqWord i.part qid, data := [] } i.ord := by
  rw [State.offerStat, hdoor]
  exact ⟨_, rfl, rfl, rfl⟩

theorem eqWord_none (hfind : s.findEq i.part qid = none) : s.eqWord i.part qid = 0 := by
  rw [State.eqWord, hfind]

theorem eqWord_some (hfind : s.findEq i.part qid = some (site, n, q)) (hdet : s.det i.part = false) :
    s.eqWord i.part qid = q.status (s.eqNow site i.part) := by
  rw [State.eqWord, hfind]
  exact if_neg (by rw [State.det] at hdet; simp [hdet])

end

/-! ### Items that are offered to their queue -/

section
variable {s : State} {k : Nat} {i : Item} (hnet : s.net[k]? = some i) (hstage : i.stage = .waiting) (hinj : s.injectable i = true)
include hnet hstage hinj

theorem exec_pushAccept {qid : Nat} {bs : List Byte} (hdet : s.det i.part = false) (hbody : i.body = .push qid bs) :
    exec (.pushAccept k) s = .next (s.acceptPush i qid bs) := by
  show execPushAccept k s = _
  simp [execPushAccept, nth, hnet, hbody, hstage, hinj, hdet]

theorem exec_eqfireArrival {qid : Nat} (hdet : s.det i.part = false) (hbody : i.body = .eqfire qid) :
    exec (.eqfireArrival k) s = .next (s.acceptFire i qid) := by
  show execEqfireArrival k s = _
  simp [execEqfireArrival, nth, hnet, hbody, hstage, hinj, hdet]

theorem exec_eqdoneArrival {qid fire : Nat} (hdet : s.det i.part = false) (hbody : i.body = .eqdone qid fire) :
    exec (.eqdoneArrival k) s = .next (s.acceptDone i qid fire) := by
  show execEqdoneArrival k s = _
  simp [execEqdoneArrival, nth, hnet, hbody, hstage, hinj, hdet]

theorem exec_eqstatRequest {qid : Nat} (hbody : i.body = .ret (.eqstat qid)) :
    exec (.eqstatRequest k) s = .next (s.offerStat i qid) := by
  show execEqstatRequest k s = _
  simp [execEqstatRequest, nth, hnet, hbody, hstage, hinj]

end

/-! ### Firing (R159-R161) -/

theorem execEntryAge_aged {s : State} {site n : Nat} (hconf : ((s.tile site).eq n).configured = true)
    (haged : ((s.tile site).eq n).aged (s.eqNow site ((s.tile site).eq n).part) = true) :
    execEntryAge site n s =
      .next (s.setEq site n (((s.tile site).eq n).noteTop (s.eqNow site ((s.tile site).eq n).part))) := by
  simp only [execEntryAge, hconf, haged, Bool.and_self, if_true]

theorem exec_entryAge_unused {s : State} {site n : Nat} (hconf : ((s.tile site).eq n).configured = false) :
    exec (.entryAge site n) s = .next s := by
  show execEntryAge site n s = _
  simp [execEntryAge, hconf]

@[simp] theorem part_setEq (s : State) (site n p : Nat) (q : ExpertQueue) : (s.setEq site n q).part p = s.part p := rfl

/-- A firing of a queue with one destination, in a partition that is not deterministic. -/
theorem fire_single {s : State} {site n : Nat} {q : ExpertQueue} (hmcast : q.mcast = false) (hdet : (s.part q.part).det = false) :
    let count := Min.min q.maxbatch q.ring.length
    let at_ := (q.head + (q.batches.map (·.count)).sum) % 2 ^ q.ringlog
    let b : Batch := { base := at_, count := count, fire := q.fires + 1, need := 1, got := 0, jobs := (q.ring.take count).map (·.job) }
    ∃ (v : State) (top : Option Int) (j : Item) (m : Msg), Noticed (s.setEq site n { q with
        ring := q.ring.drop count, batches := q.batches ++ [b], fires := q.fires + 1, force := false, top := top }) v ∧
      s.fire site n q = (v.countSent site q.job 1).emit j ∧ j.body = .message m ∧ j.dst = .core q.target ∧ m.hdr.kind = 2 ∧
      m.hdr.chan = q.chan ∧ m.hdr.drank = q.target * 8 ∧ m.hdr.job = q.job ∧ vget 0 m.payload 1 = BitVec.ofNat 64 at_ ∧
      vget 0 m.payload 2 = BitVec.ofNat 64 count ∧ vget 0 m.payload 3 = BitVec.ofNat 64 (q.wait (s.eqNow site q.part)) ∧
      vget 0 m.payload 6 = BitVec.ofNat 64 (q.fires + 1) ∧ vget 0 m.payload 7 = 1 := by
  intro count at_ b
  rw [State.fire]
  simp only [hmcast, hdet, part_setEq, Bool.false_eq_true, if_false]
  exact ⟨_, _, _, _, Noticed.log _ site 6 _ none 16, rfl, rfl, rfl, rfl, rfl, rfl, rfl, rfl, rfl, rfl, rfl, rfl⟩

/-- Settles O52: each item at the open home of its queue is dealt with there, noted and logged, which changes neither memory nor the
queues; what it does to its queue and to memory is one lemma per kind of item. -/
theorem expertStepResults : Obligations.ExpertStepResults := by
  intro s k site n qid fire i q bs b now slot bytes e gone queue hwf
  refine ⟨fun hnet hstage hinj hdet hfind hdoor hfresh => ⟨fun hbody hlen => ⟨fun hspill hroom => ?_, fun hfull hroom => ?_,
    fun hfull hroom hreported => ?_⟩, fun hbody => ?_, fun hbody hb hf hg hs => ⟨fun hless => ?_, fun hlast => ?_⟩⟩,
    fun hnet hstage hinj hbody hdoor => ?_, fun hq => ⟨fun hconf hage hwaiting hwait => ?_, fun hconf => ?_⟩,
    fun hfailed hlive hactive hdet hqdet hnext hmcast hq hroom => ?_⟩
  · obtain ⟨top, htook⟩ := acceptPush_ring (bs := bs) hfind hdoor hfresh hspill hroom
    refine ⟨_, exec_pushAccept hnet hstage hinj hdet hbody, ⟨htook.threads, htook.cores, htook.net⟩, stored_write hwf htook.mem, ?_⟩
    rw [show queue (s.acceptPush i qid bs) = _ from htook.queue]
    exact ⟨rfl, hspill, rfl⟩
  · refine ⟨fun c u htr => ⟨_, exec_pushAccept hnet hstage hinj hdet hbody, ?_⟩,
      fun v u htr hgrants => ⟨_, exec_pushAccept hnet hstage hinj hdet hbody, ?_⟩⟩
    · obtain ⟨tiles, homes, rfl⟩ := translated_frame htr
      have hput := putSpill_error (i := i) (site := site) (e := { e with slot := q.spillSlot }) htr
      have htook := acceptPush_spill_took (bs := bs) (u := { s with tiles := tiles, homes := homes }) hfind hdoor hfresh hfull hroom
        rfl rfl rfl hput
      exact ⟨⟨⟨htook.threads, htook.cores, htook.net⟩, htook.queue⟩, htook.mem⟩
    · obtain ⟨tiles, homes, rfl⟩ := translated_frame htr
      have hput := putSpill_ok (i := i) (site := site) (e := { e with slot := q.spillSlot }) htr hgrants
      have htook := acceptPush_spill_took (bs := bs)
        (u := ({ s with tiles := tiles, homes := homes } : State).putMem (State.entryKey _ q.part v (q.spillAt + 32 * q.spillSlot)) bytes)
        hfind hdoor hfresh hfull hroom rfl rfl rfl hput
      exact ⟨⟨⟨htook.threads, htook.cores, htook.net⟩, htook.queue⟩, stored_write hwf htook.mem⟩
  · refine ⟨_, exec_pushAccept hnet hstage hinj hdet hbody, ?_⟩
    rw [acceptPush_full hfind hdoor hfresh hfull hroom hreported, bounce_push hstage hbody]
    exact ⟨rfl, rfl, rfl⟩
  · have htook := acceptFire_took hfind hdoor hfresh
    exact ⟨_, exec_eqfireArrival hnet hstage hinj hdet hbody, ⟨htook.threads, htook.cores, htook.net⟩, htook.mem, htook.queue⟩
  · refine ⟨_, exec_eqdoneArrival hnet hstage hinj hdet hbody, ?_⟩
    rw [acceptDone_eq hfind hdoor hfresh hb hf hg hs, freeBatches_waits rfl hless]
    have htook := Took.of_noticed (s := s) (site := site) (n := n) (q := { q with batches := [{ b with got := b.got + 1 }] }) rfl rfl rfl
      (noteOrder_noticed s site i)
    exact ⟨⟨htook.threads, htook.cores, htook.net⟩, htook.mem, htook.queue⟩
  · obtain ⟨full, hfreed⟩ := freeBatches_frees (v := s.noteOrder site i) (site := site) (n := n)
      (q := { q with batches := [{ b with got := b.got + 1 }] }) rfl (by simp only [hlast]; exact Nat.lt_irrefl _)
    have hnoted := noteOrder_noticed s site i
    refine ⟨_, exec_eqdoneArrival hnet hstage hinj hdet hbody, ?_⟩
    rw [acceptDone_eq hfind hdoor hfresh hb hf hg hs, hfreed]
    exact ⟨⟨hnoted.threads, hnoted.cores, hnoted.net⟩, hnoted.mem, State.eq_setEq_self ..⟩
  · obtain ⟨j, hoffer, hdst, hj⟩ := offerStat_open hdoor
    refine ⟨_, exec_eqstatRequest hnet hstage hinj hbody, ?_⟩
    rw [hoffer]
    refine ⟨rfl, rfl, rfl, j, _, List.mem_append_right _ (List.mem_singleton_self j), hdst, hj, eqWord_none,
      fun hfind hdet hpart hwaiting => ?_⟩
    rw [eqWord_some hfind hdet, ← hpart]
    exact status_tells _ (findEq_spec hfind).2.2 hwaiting
  · subst hq
    refine ⟨_, execEntryAge_aged hconf ?_, State.eq_setEq_self .., rfl, rfl, rfl⟩
    simp only [ExpertQueue.aged, Bool.and_eq_true, bne_iff_ne, decide_eq_true_eq]
    exact ⟨hage, hwaiting, hwait⟩
  · subst hq
    exact ⟨_, exec_entryAge_unused hconf, rfl⟩
  · obtain ⟨v, top, j, m, hnoted, hfire, hm⟩ := fire_single (s := s) (site := site) (n := n) hmcast hqdet
    obtain ⟨tiles, homes, hsent⟩ := countSent_frame v site q.job 1
    have hqueue : (((v.countSent site q.job 1).emit j).tile site).eq n = _ :=
      ((countSent_sameQueues v site q.job 1).eq site n).trans ((hnoted.queue site n).trans (State.eq_setEq_self ..))
    refine ⟨_, execExpertFiring_of_nextQueue hfailed hlive hdet hactive hroom hnext, ?_⟩
    rw [hfire]
    dsimp only
    rw [show queue ((v.countSent site q.job 1).emit j) = _ from hqueue, hsent]
    exact ⟨hnoted.mem, hnoted.threads, hnoted.cores, rfl, rfl, rfl, rfl, rfl, { j with ord := v.ordCtr }, m,
      by rw [← show v.net = s.net from hnoted.net]; rfl, hm⟩

end Sys2Proof.Machine
end

section
/-!
PROOFS. Steps of the matrix engine and of the floe (spec/18_matrix.md R358-R373, spec/01_wafer.md R29).
-/

namespace Sys2Proof.Machine

/-! ### What an engine reads changes nothing but the cached translations -/

/-- Homes have at most cached translations. -/
def OnlyCaches (s t : State) : Prop := ∃ tiles homes, t = { s with tiles := tiles, homes := homes }

namespace OnlyCaches

theorem refl (s : State) : OnlyCaches s s := ⟨_, _, rfl⟩

theorem trans {s t u : State} (h : OnlyCaches s t) (g : OnlyCaches t u) : OnlyCaches s u := by
  obtain ⟨_, _, ht⟩ := h
  obtain ⟨tiles, homes, hu⟩ := g
  exact ⟨tiles, homes, by rw [hu, ht]⟩

variable {s t : State} (h : OnlyCaches s t)
include h

theorem mem : t.mem = s.mem := by obtain ⟨_, _, h⟩ := h; rw [h]
theorem threads : t.threads = s.threads := by obtain ⟨_, _, h⟩ := h; rw [h]

end OnlyCaches

theorem resolve_caches (s : State) (p va : Nat) (w : Option WKind) (cap : Option (Nat × Nat)) :
    OnlyCaches s (s.resolve p va w cap).2 := by
  have hframe : OnlyCaches s (s.translate p va).2 := translate_frame s p va
  unfold State.resolve
  split
  · next h => rwa [h] at hframe
  · next h =>
    rw [h] at hframe
    split <;> exact hframe

theorem readAll_caches (p : Nat) (l : List (Nat × Nat)) (s : State) : OnlyCaches s (s.readAll p l).2 := by
  induction l generalizing s with
  | nil => exact OnlyCaches.refl s
  | cons x l ih =>
    have hres := resolve_caches s p x.1 none none
    unfold State.readAll
    split
    · next h => rwa [h] at hres
    · next h =>
      rw [h] at hres
      split
      · exact hres
      · next u _ =>
        have hrest := hres.trans (ih u)
        split
        · next h => rwa [h] at hrest
        · next h => rwa [h] at hrest

theorem engRead_caches (s : State) (site part a n : Nat) : OnlyCaches s (s.engRead site part a n).2 := by
  unfold State.engRead
  split
  · exact OnlyCaches.refl s
  · split
    · exact OnlyCaches.refl s
    · split <;> exact OnlyCaches.refl s
    · split
      · exact OnlyCaches.refl s
      · split
        · exact readAll_caches part _ s
        · exact OnlyCaches.refl s

theorem slice_caches (s : State) (site part t kdim base scale k : Nat) :
    OnlyCaches s (s.slice site part t kdim base scale k).2 := by
  have hread := engRead_caches s site part (base + 16 * k * matBits t / 8) (ceilDiv (min 16 (kdim - 16 * k) * matBits t) 8)
  unfold State.slice
  dsimp only
  split
  · next h => rwa [h] at hread
  · next u h =>
    rw [h] at hread
    have hscale : OnlyCaches u (if t = 11 then u.engRead site part (scale + 16 * k / 32) 1 else (.ok [], u)).2 := by
      split
      · exact engRead_caches u site part _ 1
      · exact OnlyCaches.refl u
    split <;> exact hread.trans hscale

theorem slices_caches (site part t kdim k : Nat) (l : List (Nat × Nat)) (idx : Nat) (s : State) :
    OnlyCaches s (s.slices site part t kdim k idx l).2 := by
  induction l generalizing idx s with
  | nil => exact OnlyCaches.refl s
  | cons x l ih =>
    have hslice := slice_caches s site part t kdim x.1 x.2 k
    unfold State.slices
    split
    · exact OnlyCaches.refl s
    · split
      · next h => rwa [h] at hslice
      · next u h =>
        rw [h] at hslice
        have hrest := hslice.trans (ih (idx + 1) u)
        split
        · next h => rwa [h] at hrest
        · next h => rwa [h] at hrest

theorem operands_caches (s : State) (g : Geom) (c : MatCmd) (k : Nat) : OnlyCaches s (s.operands g c k).2 := by
  unfold State.operands
  extract_lets d sc rows cols refused
  clear_value refused
  cases refused with
  | some x => exact OnlyCaches.refl s
  | none =>
    have hrows := slices_caches g.siteA c.part d.atype d.k k rows 0 s
    dsimp only
    split
    · next h => rwa [h] at hrows
    · next u h =>
      rw [h] at hrows
      have hcols := hrows.trans (slices_caches g.siteB c.part d.btype d.k k cols d.mrow u)
      split
      · next h => rwa [h] at hcols
      · next h => rwa [h] at hcols

theorem ksteps_caches (g : Geom) (c : MatCmd) (n k : Nat) (w : List (List Nat)) (s : State) :
    OnlyCaches s (s.ksteps g c n k w).2 := by
  induction n generalizing k w s with
  | zero => exact OnlyCaches.refl s
  | succ n ih =>
    have hread := operands_caches s g c k
    unfold State.ksteps
    split
    · next h => rwa [h] at hread
    · next h =>
      rw [h] at hread
      exact hread.trans (ih _ _ _)

/-- A member of a floe writes its working copy: threads stay. -/
theorem floeWrite_spec (s : State) (f : Floe) (c : MatCmd) (k m : Nat) : (s.floeWrite f c k m).threads = s.threads ∧
    ∀ (v' : State) (x : List (List Nat)) (why : Option (Nat × Nat × Nat)),
      s.ksteps (s.geom m { c with op := .floe }) c (k - f.k) f.k
        (if f.begun then s.accRows m c.acc else c.prepare (s.accRows m c.acc)) = ((k, x, why), v') →
      (s.floeWrite f c k m).mem = (v'.setAccRows m c.acc x).mem := by
  have hsteps := ksteps_caches (s.geom m { c with op := .floe }) c (k - f.k) f.k
    (if f.begun then s.accRows m c.acc else c.prepare (s.accRows m c.acc)) s
  refine ⟨hsteps.threads, fun v' x why hx => ?_⟩
  unfold State.floeWrite
  dsimp only
  rw [hx]
  rfl

theorem floeWrites_threads (f : Floe) (c : MatCmd) (k : Nat) (l : List Nat) (s : State) :
    (l.foldl (fun v m => v.floeWrite f c k m) s).threads = s.threads :=
  foldl_keeps State.threads (f := fun (v : State) m => v.floeWrite f c k m) (fun v m => (floeWrite_spec v f c k m).1) l s

/-! ### What an engine logs of its reads -/

theorem logReads_mrun (s : State) (site part : Nat) (id : Word) (l : List (Nat × Nat)) :
    ((s.logReads site part id l).tile site).mrun = (s.tile site).mrun := by
  refine foldl_keeps (fun u : State => (u.tile site).mrun) (fun u x => ?_) _ s
  dsimp only
  split
  · split
    · simp only [State.tile_setTile, if_true]
    · rfl
  · split
    · rfl
    · split
      · have hlog (v : State) (y typ : Nat) (body : List Word) (m : Option Item) (size : Nat) :
            ((v.log y typ body m size).tile site).mrun = (v.tile site).mrun :=
          (congrArg Tile.mrun ((Noticed.log v y typ body m size).tile site) :)
        rw [hlog]
        split
        · exact hlog _ _ _ _ _ _
        · rfl
      · rfl

/-- Local reads are not logged. -/
theorem logReads_local {s : State} {site part : Nat} {id : Word} {l : List (Nat × Nat)} (h : ∀ y ∈ l, routeOf y.1 ≠ .translated) :
    s.logReads site part id l = s := by
  have hnone : l.filter (fun x => routeOf x.1 == .translated) = [] :=
    List.filter_eq_nil_iff.mpr fun y hy => by simpa using h y hy
  unfold State.logReads
  rw [hnone]
  rfl

/-! ### A command starts and runs its chunks -/

/-- One tile has changed alone. -/
def OnlyTile (s : State) (site : Nat) (y : Tile) (t : State) : Prop :=
  t.tile site = y ∧ t.threads = s.threads ∧ t.cores = s.cores ∧ ∀ x, x ≠ site → t.tile x = s.tile x

theorem onlyTile_setTile (s : State) (site : Nat) (y : Tile) : OnlyTile s site y (s.setTile site y) :=
  ⟨State.tile_setTile_self .., rfl, rfl, fun _ h => State.tile_setTile_ne s y h⟩

/-- The accumulator and the command after K-steps of a chunk up to `k`. -/
def State.stepped (s : State) (site : Nat) (r : MatRun) (k : Nat) (w : List (List Nat)) : State :=
  (s.setAccRows site r.cmd.acc w).setTile site
    { s.tile site with mrun := some { r with k := k, row := 0, begun := true, till := 0 } }

section
variable {s : State} {site : Nat}

/-- A command of a tile's own that completes without a message leaves its result. -/
theorem finishCmd_quiet (s : State) {c : MatCmd} (hop : c.op = .mma) (hsend : c.desc.send = false) (addr prog k landed : Nat) :
    s.finishCmd site c 0 addr prog k landed [] = s.setTile site { s.tile site with
      mdone := addResult (s.tile site).mdone { tag := c.tag, cause := 0, prog := prog, kstep := k } } := by
  have hnote (u : State) (x : EngResult) : u.noteFloe c x = u := by
    unfold State.noteFloe
    rw [hop]
  unfold State.finishCmd
  dsimp only
  rw [hsend]
  exact hnote _ _

theorem floeNext_none {p : Nat} (h : (s.part p).floe = none) : s.floeNext p = s := by
  unfold State.floeNext
  rw [h]

theorem exec_matrixCommandStart {c : MatCmd} {rest : List MatCmd} (hrun : (s.tile site).mrun = none)
    (hqueue : (s.tile site).mqueue = c :: rest) (hgate : s.chunkGate site c.part = true) (hbefore : s.accessBefore c.src c.ord = false) :
    exec (.matrixCommandStart site) s = .next (s.setTile site { s.tile site with
      mqueue := rest, mrun := some { cmd := c, k := if c.op.isAcc then 0 else c.koff, row := 0, park := none, begun := false,
                                     ready := false, landed := 0, denied := [] } }) := by
  show execMatrixCommandStart site s = _
  simp only [execMatrixCommandStart, hrun, hqueue, hgate, hbefore, Bool.not_false, Bool.and_self, if_true]

section
variable {r : MatRun} (hrun : (s.tile site).mrun = some r) (hgate : s.chunkGate site r.cmd.part = true)
  (hdet : s.det r.cmd.part = false) (hpark : r.park = none)

include hdet in
theorem noteChunk_live : s.noteChunk site r.cmd.part 1 = s := by
  rw [State.det] at hdet
  simp only [State.noteChunk, hdet, Bool.false_eq_true, if_false]

include hdet in
theorem chunkDue_live : s.chunkDue site r.cmd.part 1 = true := by
  rw [State.det] at hdet
  simp only [State.chunkDue, hdet, Bool.not_false, Bool.true_or]

/-- Outside the deterministic mode no chunk is given its quantum again. -/
theorem matrixAgain_live {p : Nat} (h : s.det p = false) : s.matrixAgain site p = s := by
  rw [State.det] at h
  unfold State.matrixAgain
  dsimp only
  split
  · simp only [h, Bool.and_false, Bool.false_and, Bool.false_eq_true, if_false]
  · rfl

include hrun hgate hdet hpark

theorem exec_matrixChunk_acc (hop : r.cmd.op.isAcc = true) (hk : r.k = 0) :
    exec (.matrixChunk site) s = .next ((s.accOp site r).matrixAgain site r.cmd.part) := by
  show execMatrixChunk site s = _
  have hdue := chunkDue_live (site := site) hdet
  have hnote := noteChunk_live (site := site) hdet
  unfold execMatrixChunk
  rw [hrun]
  simp only [hpark, hgate, hdue, hnote, Option.isSome_none, Bool.not_true, Bool.or_self, Bool.false_eq_true, if_false, hk]
  cases h : r.cmd.op <;> simp [h, MatOp.isAcc] at hop ⊢

theorem exec_matrixChunk_acczero (hop : r.cmd.op = .acczero) (hk : r.k = 0) :
    exec (.matrixChunk site) s = .next (({ s with mem := Memory.clear s.mem (accAt site r.cmd.acc) 12288 } : State).setTile site
      { s.tile site with mrun := some { r with k := 1, landed := 0, wrote := 0 } }) := by
  rw [exec_matrixChunk_acc hrun hgate hdet hpark (by rw [hop]; rfl) hk, State.accOp, hop]
  exact congrArg _ (matrixAgain_live hdet)

theorem exec_matrixChunk_accwr {a first count : Nat} {bs : List Byte} (hop : r.cmd.op = .accwr a first count) (hk : r.k = 0)
    (hread : s.engRead site r.cmd.part a (192 * count) = (.ok bs, s)) :
    exec (.matrixChunk site) s =
      .next (({ s with mem := Memory.writeN s.mem (accAt site r.cmd.acc + 192 * first) bs } : State).setTile site
        { s.tile site with mrun := some { r with k := 1, landed := 192 * count, wrote := 0 } }) := by
  rw [exec_matrixChunk_acc hrun hgate hdet hpark (by rw [hop]; rfl) hk, State.accOp, hop]
  simp only [hread]
  exact congrArg _ (matrixAgain_live hdet)

/-- A chunk of an MMA or MCMD that nothing stops. -/
theorem exec_matrixChunk_steps {k' : Nat} {w : List (List Nat)} (hop : r.cmd.op = .mma ∨ r.cmd.op = .mcmd)
    (hk : r.k < r.cmd.desc.steps) (htill : r.till ≤ r.k)
    (hsteps : s.ksteps (s.geom site r.cmd) r.cmd (min (matChunk r.cmd.desc.atype) (r.cmd.desc.steps - r.k)) r.k
      (if r.begun then s.accRows site r.cmd.acc else r.cmd.prepare (s.accRows site r.cmd.acc)) = ((k', w, none), s)) (hgoes : r.k < k') :
    exec (.matrixChunk site) s = .next ((s.stepped site r k' w).logReads site r.cmd.part
        (BitVec.ofNat 64 r.cmd.tag) (r.cmd.stepReads (s.geom site r.cmd) r.k k')) := by
  show execMatrixChunk site s = _
  have hdue := chunkDue_live (site := site) hdet
  have hnote := noteChunk_live (site := site) hdet
  have hlast : (if r.k < r.till then r.till else min (r.k + matChunk r.cmd.desc.atype) r.cmd.desc.steps) - r.k =
      min (matChunk r.cmd.desc.atype) (r.cmd.desc.steps - r.k) := by
    rw [if_neg (Nat.not_lt.mpr htill)]
    omega
  have hchunk : s.localChunk site r = (s.stepped site r k' w).logReads site r.cmd.part
        (BitVec.ofNat 64 r.cmd.tag) (r.cmd.stepReads (s.geom site r.cmd) r.k k') := by
    have hne : k' ≠ r.k := Nat.ne_of_gt hgoes
    have hbegun : (r.begun || k' != r.k) = true := by simp [hne]
    unfold State.localChunk
    simp only [hlast, hsteps, if_neg hne, hbegun]
    rfl
  have hsame := logReads_onlyNotes (s.stepped site r k' w) site r.cmd.part
    (BitVec.ofNat 64 r.cmd.tag) (r.cmd.stepReads (s.geom site r.cmd) r.k k')
  obtain ⟨-, -, -, -, hparts, -⟩ := hsame
  unfold execMatrixChunk
  rw [hrun]
  simp only [hpark, hgate, hdue, hnote, Option.isSome_none, Bool.not_true, Bool.or_self, Bool.false_eq_true, if_false]
  have hnot : ¬ r.cmd.desc.steps ≤ r.k := Nat.not_le.mpr hk
  have hend : ((s.stepped site r k' w).logReads site r.cmd.part (BitVec.ofNat 64 r.cmd.tag)
      (r.cmd.stepReads (s.geom site r.cmd) r.k k')).det r.cmd.part = false := by
    rw [State.det, State.part, hparts]
    exact hdet
  rcases hop with h | h <;> rw [h] <;> simp only [hnot, if_false, hchunk, matrixAgain_live hend]

/-- A member of a floe finishes its chunk. -/
theorem exec_matrixChunk_floe {f : Floe} (hop : r.cmd.op = .floe) (hfloe : (s.part r.cmd.part).floe = some f) (hready : r.ready = false)
    (hfpark : f.park = none) (hk : f.k < r.cmd.desc.steps) : exec (.matrixChunk site) s =
      .next (s.setTile site { s.tile site with mrun := some { r with ready := true } }) := by
  show execMatrixChunk site s = _
  have hdue := chunkDue_live (site := site) hdet
  have hnote := noteChunk_live (site := site) hdet
  have hnot : ¬ r.cmd.desc.steps ≤ f.k := Nat.not_le.mpr hk
  unfold execMatrixChunk
  rw [hrun]
  simp only [hpark, hgate, hdue, hnote, Option.isSome_none, Bool.not_true, Bool.or_self, Bool.false_eq_true, if_false, hop, hfloe,
    hready, hfpark, hnot, decide_false]

omit hdet in
/-- An MMA without a store-back completes; with no floe in its partition, none goes on. -/
theorem exec_matrixCommandComplete (hop : r.cmd.op = .mma) (hk : r.cmd.desc.steps ≤ r.k) (hstore : r.cmd.store = false)
    (hdenied : r.denied = []) (hsend : r.cmd.desc.send = false) (hfloe : (s.part r.cmd.part).floe = none) :
    exec (.matrixCommandComplete site) s = .next (s.setTile site { s.tile site with
      mrun := none
      mdone := addResult (s.tile site).mdone { tag := r.cmd.tag, cause := 0, prog := r.k - r.cmd.koff, kstep := r.k } }) := by
  show execMatrixCommandComplete site s = _
  have hnot : ¬ r.k < r.cmd.desc.steps := Nat.not_lt.mpr hk
  unfold execMatrixCommandComplete
  rw [hrun]
  simp only [hpark, hgate, Option.isSome_none, Bool.not_true, Bool.or_self, Bool.false_eq_true, if_false, hop, hnot, hstore,
    Bool.false_and, decide_false]
  simp only [State.completeLocal, hstore, Bool.not_false, if_true, State.endMatrix, hop, MatOp.isAcc, hdenied, Bool.false_eq_true,
    if_false]
  rw [finishCmd_quiet _ hop hsend, setTile_setTile, State.tile_setTile, if_pos rfl]
  exact congrArg _ (floeNext_none hfloe)

end

end

end Sys2Proof.Machine
end

section
/-!
PROOFS. The floe commits its chunks and forms again, and an MCMD arrives (spec/18_matrix.md R367-R371).
-/

namespace Sys2Proof.Machine

/-! ### The floe commits a chunk (R369) -/

theorem exec_floeChunkCommit {s u : State} {p k' : Nat} {f : Floe} {c : MatCmd} (hfloe : (s.part p).floe = some f)
    (hin : (s.part p).stage ≠ .out) (hrun : f.run = some c) (hpark : f.park = none) (hk : f.k < c.desc.steps) (hmembers : f.members ≠ [])
    (hready : ∀ m ∈ f.members, (s.tile m).failed = false ∧ ∃ q : MatRun, (s.tile m).mrun = some q ∧ q.cmd.op = .floe ∧ q.ready = true)
    (hreach : s.floeReach f c (min (matChunk c.desc.atype) (c.desc.steps - f.k)) f.members
      (f.k + min (matChunk c.desc.atype) (c.desc.steps - f.k), none) = ((k', none), u)) (hgoes : f.k < k') :
    let go := f.members.foldl (fun v m => v.floeWrite f c k' m) u
    exec (.floeChunkCommit p) s = .next (go.setPart p { go.part p with
      floe := some { f with k := k', row := 0, begun := true, park := none } }) := by
  intro go
  show execFloeChunkCommit p s = _
  have hall : f.members.all (fun m => ((s.tile m).mrun.map fun r => r.cmd.op == .floe && r.ready).getD false) = true := by
    refine List.all_eq_true.mpr fun m hm => ?_
    obtain ⟨-, q, hq, hop, hqready⟩ := hready m hm
    simp [hq, hop, hqready]
  have hworks : f.members.any (fun m => (s.tile m).failed) = false :=
    List.any_eq_false.mpr fun m hm => by simp [(hready m hm).1]
  have hout : ((s.part p).stage == .out) = false := beq_eq_false_iff_ne.mpr hin
  have hsome : f.members.isEmpty = false := by rwa [List.isEmpty_eq_false_iff]
  have hne : k' ≠ f.k := Nat.ne_of_gt hgoes
  have hbeq : (k' == f.k) = false := beq_eq_false_iff_ne.mpr hne
  have hbne : (k' != f.k) = true := bne_iff_ne.mpr hne
  have hleft : ¬ c.desc.steps ≤ f.k := Nat.not_le.mpr hk
  unfold execFloeChunkCommit
  rw [hfloe]
  dsimp only
  rw [hrun]
  dsimp only
  rw [hall, hworks, hpark, hout, hsome, decide_eq_false hleft, hreach]
  simp only [hne, hbeq, hbne, Option.isSome_none, Bool.not_true, Bool.or_self, Bool.false_and, Bool.or_true, Bool.false_eq_true, if_false,
    Option.filter_none, Option.map_none, Option.getD_none]
  rfl

/-! ### An MCMD arrives (R367) -/

theorem accept_tile (s : State) (site : Nat) (c : MatCmd) :
    ((s.accept site c).2.tile site).mqueue = (s.tile site).mqueue ++ [{ c with tag := ((s.tile site).mtag + 1) % 2 ^ 32 }] ∧
      ((s.accept site c).2.tile site).mtag = ((s.tile site).mtag + 1) % 2 ^ 32 := by
  rw [State.accept, State.tile_setTile_self]
  exact ⟨rfl, rfl⟩

theorem exec_mcmdArrival {s : State} {n rank site : Nat} {i : Item} {c : MatCmd} (hnet : s.net[n]? = some i) (hbody : i.body = .mcmd c)
    (hdst : i.dst = .tile rank) (hstage : i.stage = .waiting) (hinj : s.injectable i = true) (hsite : s.siteOfRank rank = some site)
    (hdoor : s.door site i.part = .open_) (hmay : s.mayCommand i.part rank c.guard = (true, s))
    (hfresh : (s.tile site).fresh (s.itemDomain i) i.seq = true) (hroom : (s.tile site).matLoad < 16) :
    exec (.mcmdArrival n) s = .next ((((s.dropItem i.ord).noteSeq site (s.itemDomain i) i.seq).log site 1 [] (some i) 80).accept site
      { c with part := i.part }).2 := by
  show execMcmdArrival n s = _
  simp [execMcmdArrival, nth, hnet, hbody, hdst, hstage, hinj, State.offerMcmd, hsite, hdoor, hmay, hfresh, Nat.not_le.mpr hroom]

/-! ### The floe forms again (R370, R371) -/

/-- A tile has the result that abandons a command. -/
def GaveUp (s : State) (site tag : Nat) : Prop := ∃ e ∈ (s.tile site).mdone, e.tag = tag ∧ e.cause = 23

theorem gaveUp_addResult (l : List EngResult) (r : EngResult) (tag : Nat) (hr : r.cause = 23)
    (h : (∃ e ∈ l, e.tag = tag ∧ e.cause = 23) ∨ r.tag = tag) : ∃ e ∈ addResult l r, e.tag = tag ∧ e.cause = 23 := by
  by_cases htag : r.tag = tag
  · exact ⟨r, List.mem_append_right _ (List.mem_singleton_self r), htag, hr⟩
  · obtain ⟨e, he, htag', hcause⟩ := h.resolve_right htag
    refine ⟨e, List.mem_append_left _ (List.mem_filter.mpr ⟨he, ?_⟩), htag', hcause⟩
    simpa [htag'] using Ne.symm htag

/-- The K-steps that a firn copy records depend on the bindings, the buddies and the firn areas. -/
theorem krest_congr {s t : State} (h : ∃ tiles homes parts ctr net,
    t = { s with tiles := tiles, homes := homes, parts := parts, net := net, ordCtr := ctr })
    (hbuddy : ∀ m, (t.tile m).buddy = (s.tile m).buddy) (failed : Nat) (c : MatCmd) : t.krest failed c = s.krest failed c := by
  have hfirn : t.firnOf failed = s.firnOf failed := by
    obtain ⟨tiles, homes, parts, ctr, net, ht⟩ := h
    have hrank : t.siteOfRank failed = s.siteOfRank failed := by rw [ht]; rfl
    have hival (b : Nat) : t.firnIval failed b = s.firnIval failed b := by rw [ht]; rfl
    have hfirns : t.firns = s.firns := by rw [ht]
    simp only [State.firnOf, hrank, hbuddy, hival, hfirns]
  rw [State.krest, State.krest, hfirn]

/-- What a step of a reform leaves of a state: it changes tiles, home agents and partitions, and sends items; no queue changes,
the floe keeps its form, and no result that abandons a command goes. -/
structure Reforms (p : Nat) (s t : State) : Prop where
  rest  : ∃ tiles homes parts ctr l, s.ordCtr ≤ ctr ∧
    t = { s with tiles := tiles, homes := homes, parts := parts, net := s.net ++ l, ordCtr := ctr }
  tile  : ∀ m, (t.tile m).mqueue = (s.tile m).mqueue ∧ (t.tile m).buddy = (s.tile m).buddy
  floe  : ∀ y, (s.part p).floe = some y → ∃ known, (t.part p).floe = some { y with known := known }
  given : ∀ m tag, GaveUp s m tag → GaveUp t m tag

namespace Reforms

variable {p : Nat}

theorem refl (s : State) : Reforms p s s :=
  ⟨⟨_, _, _, _, [], Nat.le_refl _, by rw [List.append_nil]⟩, fun _ => ⟨rfl, rfl⟩, fun y h => ⟨y.known, h⟩, fun _ _ h => h⟩

theorem trans {s t u : State} (h : Reforms p s t) (g : Reforms p t u) : Reforms p s u := by
  obtain ⟨⟨_, _, _, _, l, hctr, ht⟩, htile, hfloe, hgiven⟩ := h
  obtain ⟨⟨tiles, homes, parts, ctr, l', hctr', hu⟩, hutile, hufloe, hugiven⟩ := g
  refine ⟨⟨tiles, homes, parts, ctr, l ++ l', ?_, ?_⟩, fun m => ?_, fun y hy => ?_, fun m tag h => hugiven m tag (hgiven m tag h)⟩
  · exact hctr.trans (by rwa [ht] at hctr')
  · rw [hu, ht, List.append_assoc]
  · exact ⟨(hutile m).1.trans (htile m).1, (hutile m).2.trans (htile m).2⟩
  · obtain ⟨known, hy⟩ := hfloe y hy
    obtain ⟨known, hy⟩ := hufloe _ hy
    exact ⟨known, hy⟩

variable {s t : State} (h : Reforms p s t)
include h

theorem mem : t.mem = s.mem := by obtain ⟨⟨_, _, _, _, _, _, h⟩, _⟩ := h; rw [h]
theorem threads : t.threads = s.threads := by obtain ⟨⟨_, _, _, _, _, _, h⟩, _⟩ := h; rw [h]
theorem ordCtr_le : s.ordCtr ≤ t.ordCtr := by obtain ⟨⟨_, _, _, _, _, hctr, h⟩, _⟩ := h; rw [h]; exact hctr
theorem net_subset {j : Item} (hj : j ∈ s.net) : j ∈ t.net := by
  obtain ⟨⟨_, _, _, _, _, _, h⟩, _⟩ := h
  rw [h]
  exact List.mem_append_left _ hj

/-- The K-steps that a firn copy records are read from what stays. -/
theorem krest (failed : Nat) (c : MatCmd) : t.krest failed c = s.krest failed c := by
  obtain ⟨⟨tiles, homes, parts, ctr, l, -, ht⟩, htile, -⟩ := h
  exact krest_congr ⟨tiles, homes, parts, ctr, _, ht⟩ (fun m => (htile m).2) failed c

end Reforms

/-- A tile's results change, the one that abandons a command having been added. -/
theorem reforms_setTile {p : Nat} {s : State} {site : Nat} {y : Tile} (hqueue : y.mqueue = (s.tile site).mqueue)
    (hbuddy : y.buddy = (s.tile site).buddy)
    (hdone : ∀ tag, (∃ e ∈ (s.tile site).mdone, e.tag = tag ∧ e.cause = 23) → ∃ e ∈ y.mdone, e.tag = tag ∧ e.cause = 23) :
    Reforms p s (s.setTile site y) := by
  refine ⟨⟨_, s.homes, s.parts, s.ordCtr, [], Nat.le_refl _, by rw [List.append_nil]; rfl⟩, fun m => ?_, fun y hy => ⟨y.known, hy⟩,
    fun m tag hgave => ?_⟩
  · rw [State.tile_setTile]
    split
    · next hm => rw [hm]; exact ⟨hqueue, hbuddy⟩
    · exact ⟨rfl, rfl⟩
  · rw [GaveUp, State.tile_setTile]
    split
    · next hm => exact hdone tag (by rw [← hm]; exact hgave)
    · exact hgave

theorem noteFloe_reforms (p : Nat) (s : State) (c : MatCmd) (r : EngResult) : Reforms p s (s.noteFloe c r) := by
  unfold State.noteFloe
  split
  · next f _ hf =>
    refine ⟨⟨s.tiles, s.homes, _, s.ordCtr, [], Nat.le_refl _, by rw [List.append_nil]; rfl⟩, fun _ => ⟨rfl, rfl⟩, fun y hy => ?_,
      fun _ _ h => h⟩
    rw [State.part_setPart]
    split
    · next hp =>
      rw [← hp, hy] at hf
      cases hf
      exact ⟨_, rfl⟩
    · exact ⟨y.known, hy⟩
  · exact Reforms.refl s

theorem countSent_reforms (p : Nat) (s : State) (site job n : Nat) : Reforms p s (s.countSent site job n) := by
  unfold State.countSent
  split
  · exact ⟨⟨s.tiles, _, s.parts, s.ordCtr, [], Nat.le_refl _, by rw [List.append_nil]; rfl⟩, fun _ => ⟨rfl, rfl⟩, fun y h => ⟨y.known, h⟩,
      fun _ _ h => h⟩
  · split
    · exact reforms_setTile rfl rfl fun _ h => h
    · exact Reforms.refl s

theorem emit_reforms (p : Nat) (s : State) (i : Item) : Reforms p s (s.emit i) :=
  ⟨⟨s.tiles, s.homes, s.parts, _, _, Nat.le_succ _, rfl⟩, fun _ => ⟨rfl, rfl⟩, fun y h => ⟨y.known, h⟩, fun _ _ h => h⟩

/-- The event of a reform for an abandoned command (R371), with the K-steps done and the K-steps that the failed member has left. -/
def ReformEvent (y : Floe) (lost rest kdone ord : Nat) (stored : Bool) (x : MatCmd) (j : Item) : Prop :=
  ∃ m : Msg, ord ≤ j.ord ∧ j.body = .message m ∧ j.dst = .core (x.srank / 8) ∧ m.hdr.kind = 4 ∧ m.hdr.chan = x.desc.chan ∧
    vget 0 m.payload 0 = BitVec.ofNat 64 x.tag ∧ vget 0 m.payload 1 = BitVec.ofNat 64 (kdone + ofBool stored * 2 ^ 32) ∧
    vget 0 m.payload 2 = BitVec.ofNat 64 lost ∧ vget 0 m.payload 3 = BitVec.ofNat 64 (if lost = 0x3FFF then 0 else rest) ∧
    vget 0 m.payload 4 = BitVec.ofNat 64 (y.rows.length + y.cols.length * 2 ^ 16 + y.fgen % 2 ^ 16 * 2 ^ 32) ∧
    vget 0 m.payload 5 = x.descAt

/-- The result of an abandoned command (R370). -/
def MatCmd.abandoned (c : MatCmd) (kdone : Nat) : EngResult := { tag := c.tag, cause := 23, prog := kdone - c.koff, kstep := kdone }

/-- The tile that gave a command its tag has the result of an abandoned one. -/
def State.giveUp (s : State) (c : MatCmd) (kdone : Nat) : State :=
  s.setTile (siteOf c.src) { s.tile (siteOf c.src) with mdone := addResult (s.tile (siteOf c.src)).mdone (c.abandoned kdone) }

theorem giveUp_spec (p : Nat) (s : State) (c : MatCmd) (kdone : Nat) :
    Reforms p s (s.giveUp c kdone) ∧ GaveUp (s.giveUp c kdone) (siteOf c.src) c.tag := by
  refine ⟨reforms_setTile rfl rfl fun tag h => gaveUp_addResult _ _ tag rfl (Or.inl h), ?_⟩
  rw [GaveUp, State.giveUp, State.tile_setTile_self]
  exact gaveUp_addResult _ _ c.tag rfl (Or.inr rfl)

theorem reformOne_spec (s : State) (p failed krest : Nat) (new : Floe) (stored : Bool) (c : MatCmd) (kdone : Nat) :
    let t := s.reformOne p failed krest new stored c kdone
    Reforms p s t ∧ GaveUp t (siteOf c.src) c.tag ∧
      ∃ j ∈ t.net, ReformEvent new (if failed < 0x3FFF then failed else 0x3FFF) krest kdone s.ordCtr stored c j := by
  intro t
  have hsends : ∃ (u : State) (i : Item), t = u.emit i ∧ Reforms p ((s.giveUp c kdone).noteFloe c (c.abandoned kdone)) u ∧
      ∀ ord ctr, ord ≤ ctr → ReformEvent new (if failed < 0x3FFF then failed else 0x3FFF) krest kdone ord stored c { i with ord := ctr } :=
    ⟨_, _, rfl, countSent_reforms p _ _ _ _, fun ord ctr h => ⟨_, h, rfl, rfl, rfl, rfl, rfl, rfl, rfl, rfl, rfl, rfl⟩⟩
  obtain ⟨u, i, ht, hcounted, hevent⟩ := hsends
  obtain ⟨hresult, hgave⟩ := giveUp_spec p s c kdone
  have hnoted := noteFloe_reforms p (s.giveUp c kdone) c (c.abandoned kdone)
  have hall := (hresult.trans hnoted).trans hcounted
  rw [ht]
  exact ⟨hall.trans (emit_reforms p u i), (emit_reforms p u i).given _ _ (hcounted.given _ _ (hnoted.given _ _ hgave)),
    { i with ord := u.ordCtr }, List.mem_append_right _ (List.mem_singleton_self _), hevent _ _ hall.ordCtr_le⟩

theorem ReformEvent.mono {y : Floe} {lost rest kdone ord ord' : Nat} {stored : Bool} {x : MatCmd} {j : Item} (h : ord ≤ ord')
    (hj : ReformEvent y lost rest kdone ord' stored x j) : ReformEvent y lost rest kdone ord stored x j := by
  obtain ⟨m, hord, hm⟩ := hj
  exact ⟨m, h.trans hord, hm⟩

/-- Every command that waits is abandoned. -/
theorem reformAll_spec (p failed : Nat) (new : Floe) (l : List MatCmd) (s : State) :
    let t := l.foldl (fun v c => v.reformOne p failed (v.krest failed c) new false c c.koff) s
    Reforms p s t ∧ ∀ x ∈ l, GaveUp t (siteOf x.src) x.tag ∧
      ∃ j ∈ t.net, ReformEvent new (if failed < 0x3FFF then failed else 0x3FFF) (s.krest failed x) x.koff s.ordCtr false x j := by
  induction l generalizing s with
  | nil => exact ⟨Reforms.refl s, fun x hx => nomatch hx⟩
  | cons c l ih =>
    obtain ⟨hfirst, hgave, j, hj, hevent⟩ := reformOne_spec s p failed (s.krest failed c) new false c c.koff
    obtain ⟨hrest, hothers⟩ := ih (s.reformOne p failed (s.krest failed c) new false c c.koff)
    refine ⟨hfirst.trans hrest, fun x hx => ?_⟩
    rcases List.mem_cons.mp hx with rfl | hx
    · exact ⟨hrest.given _ _ hgave, j, hrest.net_subset hj, hevent⟩
    · obtain ⟨hgave, j, hj, hevent⟩ := hothers x hx
      rw [hfirst.krest] at hevent
      exact ⟨hgave, j, hj, hevent.mono hfirst.ordCtr_le⟩

/-- A tile's queue holds no entry of a floe. -/
def NoFloeEntry (s : State) (m : Nat) : Prop := ∀ q ∈ (s.tile m).mqueue, q.op ≠ .floe

/-- Commands leave tiles. -/
structure Clears (s t : State) : Prop where
  rest  : ∃ tiles, t = { s with tiles := tiles }
  buddy : ∀ m, (t.tile m).buddy = (s.tile m).buddy
  queue : ∀ m, NoFloeEntry s m → NoFloeEntry t m

theorem Clears.refl (s : State) : Clears s s := ⟨⟨_, rfl⟩, fun _ => rfl, fun _ h => h⟩

theorem Clears.trans {s t u : State} (h : Clears s t) (g : Clears t u) : Clears s u := by
  obtain ⟨⟨_, ht⟩, hbuddy, hqueue⟩ := h
  obtain ⟨⟨tiles, hu⟩, hubuddy, huqueue⟩ := g
  exact ⟨⟨tiles, by rw [hu, ht]⟩, fun m => (hubuddy m).trans (hbuddy m), fun m hm => huqueue m (hqueue m hm)⟩

theorem clears_setTile {s : State} {site : Nat} {y : Tile} (hbuddy : y.buddy = (s.tile site).buddy)
    (hqueue : ∀ q ∈ y.mqueue, q ∈ (s.tile site).mqueue) : Clears s (s.setTile site y) := by
  refine ⟨⟨_, rfl⟩, fun m => ?_, fun m hm => ?_⟩
  · rw [State.tile_setTile]
    split
    · next h => rw [h, hbuddy]
    · rfl
  · rw [NoFloeEntry, State.tile_setTile]
    split
    · next h => exact fun q hq => hm q (h ▸ hqueue q hq)
    · exact hm

theorem clears_foldl {α : Type} (f : State → α → State) (hf : ∀ u a, Clears u (f u a)) (l : List α) (s : State) : Clears s (l.foldl f s) := by
  induction l generalizing s with
  | nil => exact Clears.refl s
  | cons a l ih => exact (hf s a).trans (ih (f s a))

/-- The members are cleared of the entries of their floe. -/
theorem clearMembers_spec (l : List Nat) (cause : Nat) (s : State) : Clears s (s.clearMembers l cause) ∧
    ∀ m ∈ l, NoFloeEntry (s.clearMembers l cause) m := by
  have hstep (u : State) (m : Nat) : Clears u (u.clearMembers [m] cause) :=
    clears_setTile rfl fun q hq => (List.mem_filter.mp hq).1
  induction l generalizing s with
  | nil => exact ⟨Clears.refl s, fun m hm => nomatch hm⟩
  | cons m l ih =>
    obtain ⟨hrest, hothers⟩ := ih (s.clearMembers [m] cause)
    refine ⟨(hstep s m).trans hrest, fun x hx => ?_⟩
    rcases List.mem_cons.mp hx with rfl | hx
    · refine hrest.queue x fun q hq => ?_
      have hq' : q ∈ (s.tile x).mqueue.filter (·.op != .floe) := by
        rw [State.clearMembers, List.foldl_cons, List.foldl_nil, State.tile_setTile_self] at hq
        exact hq
      simpa using (List.mem_filter.mp hq').2
    · exact hothers x hx

/-- A member keeps its store-back that has begun. -/
theorem keepTails_clears (l : List (Nat × Option MatRun)) (s : State) : Clears s (l.foldl (fun s x => match x.2 with
    | some r => s.setTile x.1 { s.tile x.1 with mrun := some r }
    | none => s) s) := by
  refine clears_foldl _ (fun u x => ?_) l s
  split
  · exact clears_setTile rfl fun q hq => hq
  · exact Clears.refl u

/-- The floe that a reform leaves (R370). -/
def Floe.reformed (f : Floe) (g : List Nat × List Nat) : Floe :=
  { known := f.known, cols := g.2, rows := g.1, region := f.region, fgen := (f.fgen + 1) % 2 ^ 16, run := none, k := 0, row := 0,
    begun := false, park := none, stored := [], landed := 0, denied := [], waiting := [] }

/-- The tiles that a reform leaves before the commands are abandoned. -/
def State.reformTiles (s : State) (f : Floe) : State :=
  (f.members.map fun m => (m, f.run.bind fun c => s.keepTail f c m)).foldl (fun s x => match x.2 with
    | some r => s.setTile x.1 { s.tile x.1 with mrun := some r }
    | none => s) (s.clearMembers f.members 23)

/-- The tiles that a reform leaves, and the floe as it forms again, before the commands are abandoned. -/
def State.reformStart (s : State) (p : Nat) (f : Floe) (g : List Nat × List Nat) : State :=
  (s.reformTiles f).setPart p { (s.reformTiles f).part p with floe := some (f.reformed g) }

theorem reformStart_spec (s : State) (p : Nat) (f : Floe) (g : List Nat × List Nat) :
    (∃ tiles parts, s.reformStart p f g = { s with tiles := tiles, parts := parts }) ∧
      ((s.reformStart p f g).part p).floe = some (f.reformed g) ∧ (∀ m, ((s.reformStart p f g).tile m).buddy = (s.tile m).buddy) ∧
      ∀ m ∈ f.members, NoFloeEntry (s.reformStart p f g) m := by
  obtain ⟨hclear, hnone⟩ := clearMembers_spec f.members 23 s
  have htails : Clears (s.clearMembers f.members 23) (s.reformTiles f) := keepTails_clears _ _
  obtain ⟨⟨tiles, hu⟩, hbuddy, -⟩ := hclear.trans htails
  have hparts : s.reformStart p f g = { s.reformTiles f with parts := (s.reformStart p f g).parts } := rfl
  refine ⟨⟨tiles, (s.reformStart p f g).parts, hparts.trans (by rw [hu])⟩, ?_, hbuddy, fun m hm => htails.queue m (hnone m hm)⟩
  exact congrArg Partition.floe (State.part_setPart_self ..)

/-- The state after the running command of a floe has been abandoned. -/
def State.reformRun (s : State) (p failed : Nat) (new : Floe) (stored : Bool) (f : Floe) : State :=
  match f.run with
  | some c => s.reformOne p failed (s.krest failed c) new stored c f.k
  | none => s

theorem reformRun_spec (s : State) (p failed : Nat) (new : Floe) (stored : Bool) (f : Floe) :
    let t := s.reformRun p failed new stored f
    Reforms p s t ∧ ∀ c, f.run = some c → GaveUp t (siteOf c.src) c.tag ∧
      ∃ j ∈ t.net, ReformEvent new (if failed < 0x3FFF then failed else 0x3FFF) (s.krest failed c) f.k s.ordCtr stored c j := by
  intro t
  have ht : t = s.reformRun p failed new stored f := rfl
  cases hrun : f.run with
  | none =>
    rw [State.reformRun, hrun] at ht
    rw [ht]
    exact ⟨Reforms.refl s, fun c hc => nomatch hc⟩
  | some c =>
    rw [State.reformRun, hrun] at ht
    rw [ht]
    obtain ⟨hstep, hc⟩ := reformOne_spec s p failed (s.krest failed c) new stored c f.k
    exact ⟨hstep, fun x hx => Option.some.inj hx ▸ hc⟩

/-- Whether every member that is left of a floe's running command has stored its block. -/
def State.allStored (s : State) (f : Floe) : Bool :=
  let alive := f.members.filter fun m => !(s.tile m).failed && (s.tile m).rank.isSome
  !alive.isEmpty && alive.all f.stored.contains && (f.run.map (·.store)).getD false

theorem exec_floeReform {s : State} {p n : Nat} {f : Floe} (hfloe : (s.part p).floe = some f) (hin : (s.part p).stage ≠ .out) :
    exec (.floeReform p n) s = if s.formGrid p f.region = (f.rows, f.cols) then .next s else .next
      (f.waiting.foldl (fun v c => v.reformOne p (s.lostMember f n) (v.krest (s.lostMember f n) c)
        (f.reformed (s.formGrid p f.region)) false c c.koff)
        ((s.reformStart p f (s.formGrid p f.region)).reformRun p (s.lostMember f n) (f.reformed (s.formGrid p f.region))
          (s.allStored f) f)) := by
  show execFloeReform p n s = _
  have hout : ((s.part p).stage == .out) = false := beq_eq_false_iff_ne.mpr hin
  unfold execFloeReform
  rw [hfloe]
  dsimp only
  rw [hout, Bool.false_or]
  by_cases hg : s.formGrid p f.region = (f.rows, f.cols)
  · rw [if_pos hg, hg]
    simp only [beq_self_eq_true, Bool.and_self, if_true]
  · have hne : ((s.formGrid p f.region).1 == f.rows && (s.formGrid p f.region).2 == f.cols) = false := by
      rw [← Bool.not_eq_true]
      intro h
      obtain ⟨h1, h2⟩ := Bool.and_eq_true_iff.mp h
      exact hg (Prod.ext (eq_of_beq h1) (eq_of_beq h2))
    rw [if_neg hg, hne, if_neg Bool.false_ne_true]
    rfl

/-- A floe whose grid has changed forms again and abandons its commands. -/
theorem floeReform_spec {s : State} {p n : Nat} {f : Floe} (hfloe : (s.part p).floe = some f) (hin : (s.part p).stage ≠ .out)
    (hg : s.formGrid p f.region ≠ (f.rows, f.cols)) :
    let new := f.reformed (s.formGrid p f.region)
    let lost := if s.lostMember f n < 0x3FFF then s.lostMember f n else 0x3FFF
    ∃ t, exec (.floeReform p n) s = .next t ∧ (∃ known, (t.part p).floe = some { new with known := known }) ∧ t.mem = s.mem ∧
      t.threads = s.threads ∧ (∀ m ∈ f.members, NoFloeEntry t m) ∧
      (∀ c, f.run = some c → GaveUp t (siteOf c.src) c.tag ∧
        ∃ j ∈ t.net, ReformEvent new lost (s.krest (s.lostMember f n) c) f.k s.ordCtr (s.allStored f) c j) ∧
      ∀ x ∈ f.waiting, GaveUp t (siteOf x.src) x.tag ∧
        ∃ j ∈ t.net, ReformEvent new lost (s.krest (s.lostMember f n) x) x.koff s.ordCtr false x j := by
  intro new lost
  obtain ⟨⟨tiles, parts, hstart⟩, hnew, hbuddy, hnone⟩ := reformStart_spec s p f (s.formGrid p f.region)
  obtain ⟨hrun, hran⟩ := reformRun_spec (s.reformStart p f (s.formGrid p f.region)) p (s.lostMember f n) new (s.allStored f) f
  obtain ⟨hwait, hwaited⟩ := reformAll_spec p (s.lostMember f n) new f.waiting
    ((s.reformStart p f (s.formGrid p f.region)).reformRun p (s.lostMember f n) new (s.allStored f) f)
  have hall := hrun.trans hwait
  have hctr : (s.reformStart p f (s.formGrid p f.region)).ordCtr = s.ordCtr := by rw [hstart]
  have hkrest (x : MatCmd) : (s.reformStart p f (s.formGrid p f.region)).krest (s.lostMember f n) x = s.krest (s.lostMember f n) x :=
    krest_congr ⟨tiles, s.homes, parts, s.ordCtr, s.net, hstart⟩ hbuddy _ x
  refine ⟨_, (exec_floeReform hfloe hin).trans (if_neg hg), hall.floe _ hnew, hall.mem.trans (by rw [hstart]),
    hall.threads.trans (by rw [hstart]), fun m hm q hq => hnone m hm q (by rwa [← (hall.tile m).1]), fun c hc => ?_, fun x hx => ?_⟩
  · obtain ⟨hgave, j, hj, hevent⟩ := hran c hc
    rw [hkrest, hctr] at hevent
    exact ⟨hwait.given _ _ hgave, j, hwait.net_subset hj, hevent⟩
  · obtain ⟨hgave, j, hj, hevent⟩ := hwaited x hx
    rw [hrun.krest, hkrest] at hevent
    exact ⟨hgave, j, hj, hevent.mono (hctr ▸ hrun.ordCtr_le)⟩

theorem get_filter_in {α : Type} (d : α) (p : Nat × α → Bool) (m : List (Nat × α)) (i : Nat) (h : ∀ v, p (i, v) = true) :
    SMap.get d (m.filter p) i = SMap.get d m i := by
  induction m with
  | nil => rfl
  | cons x m ih =>
    obtain ⟨j, v⟩ := x
    by_cases hj : j = i
    · rw [List.filter_cons, hj, if_pos (h v), SMap.get, SMap.get, if_pos rfl, if_pos rfl]
    · rw [List.filter_cons]
      split
      · rw [SMap.get, SMap.get, if_neg hj, if_neg hj, ih]
      · rw [ih, SMap.get, if_neg hj]

theorem read_clear_out {m : List Host.Cell} {lo n a : Nat} (h : a < lo ∨ lo + n ≤ a) :
    Memory.read (Memory.clear m lo n) a = Memory.read m a :=
  get_filter_in Memory.blank _ m a fun v => by simpa using h

/-- Settles O51: a chunk and a completion change the tile of the engine; a floe's members write their copies; every command that a
reform abandons gets its result and its event in turn. -/
theorem matrixStepResults : Obligations.MatrixStepResults := by
  intro s u site p k' rank n c rest r w f i bs a first count tile only gate acc steps chunk alive lost abandoned hwf
  refine ⟨fun hrun hqueue hgate hbefore => ?_, fun hrun hgate => ?_, fun hfloe hin => ⟨fun hrun hpark hk hmembers hready hreach hgoes => ?_, ?_⟩,
    fun hnet hbody hdst hstage hinj hsite hdoor hmay hfresh hroom => ?_⟩
  · exact ⟨_, exec_matrixCommandStart hrun hqueue hgate hbefore, rfl, onlyTile_setTile s site _⟩
  · obtain ⟨hgate, hdet, hpark⟩ := hgate
    refine ⟨fun hop hk => ?_, fun hop hk hread => ?_, fun hop hk htill hsteps hgoes => ?_, fun hop hfloe hready hfpark hk => ?_,
      fun hop hk hstore hdenied hsend hfloe => ?_⟩
    · exact ⟨_, exec_matrixChunk_acczero hrun hgate hdet hpark hop hk, onlyTile_setTile _ site _,
        fun b hlo hhi => read_clear s.mem hlo hhi, fun b hb => read_clear_out hb⟩
    · exact ⟨_, exec_matrixChunk_accwr hrun hgate hdet hpark hop hk hread, onlyTile_setTile _ site _, stored_write hwf rfl⟩
    · obtain ⟨hmem, hthreads, hcores, -⟩ := logReads_onlyNotes (s.stepped site r k' w) site r.cmd.part (BitVec.ofNat 64 r.cmd.tag)
        (r.cmd.stepReads (s.geom site r.cmd) r.k k')
      refine ⟨_, exec_matrixChunk_steps hrun hgate hdet hpark hop hk htill hsteps hgoes, hmem, hthreads, hcores, ?_, fun hlocal => ?_⟩
      · rw [logReads_mrun, State.stepped, State.tile_setTile_self]
      · rw [logReads_local hlocal]
        exact onlyTile_setTile _ site _
    · exact ⟨_, exec_matrixChunk_floe hrun hgate hdet hpark hop hfloe hready hfpark hk, rfl, onlyTile_setTile s site _⟩
    · exact ⟨_, exec_matrixCommandComplete hrun hgate hpark hop hk hstore hdenied hsend hfloe, rfl, rfl, onlyTile_setTile s site _⟩
  · refine ⟨_, exec_floeChunkCommit hfloe hin hrun hpark hk hmembers hready hreach hgoes, congrArg Partition.floe (State.part_setPart_self ..),
      floeWrites_threads f c k' f.members u, rfl, fun v v' m x why h => (floeWrite_spec v f c k' m).2 v' x why h⟩
  · refine ⟨fun hg => ⟨s, (exec_floeReform hfloe hin).trans (if_pos hg), rfl⟩, fun hg => ?_⟩
    obtain ⟨t, ht, ⟨known, hnew⟩, hmem, hthreads, hnone, hran, hwaited⟩ := floeReform_spec (n := n) hfloe hin hg
    have habandoned (x : MatCmd) (kdone : Nat) (stored : Bool) (hgave : GaveUp t (siteOf x.src) x.tag)
        (hevent : ∃ j ∈ t.net, ReformEvent (f.reformed (s.formGrid p f.region)) lost (s.krest (s.lostMember f n) x) kdone s.ordCtr
          stored x j) : abandoned t x kdone stored := by
      obtain ⟨j, hj, m, hord, hbody, hdst, hkind, hchan, h0, h1, h2, h3, h4, h5⟩ := hevent
      refine ⟨hgave, j, m, _, hj, hord, hbody, hdst, hkind, hchan, hnew, h0, h1, h2, h3, h4.trans ?_, h5⟩
      have hgen : ((f.fgen + 1) % 2 ^ 16) % 2 ^ 16 = (f.fgen + 1) % 2 ^ 16 := Nat.mod_mod _ _
      simp only [Floe.reformed, hgen]
    refine ⟨t, ht, ⟨_, hnew, rfl, rfl, rfl, rfl, rfl, rfl⟩, hmem, hthreads, hnone, fun hc => ?_, fun x hx => ?_⟩
    · obtain ⟨hgave, hevent⟩ := hran c hc
      have hstored : s.allStored f = (c.store && !alive.isEmpty && alive.all f.stored.contains) := by
        simp only [State.allStored, hc, Option.map_some, Option.getD_some]
        rw [Bool.and_comm c.store, Bool.and_right_comm]
      exact habandoned c f.k _ hgave (hstored ▸ hevent)
    · obtain ⟨hgave, hevent⟩ := hwaited x hx
      exact habandoned x x.koff false hgave hevent
  · have hnoted : Noticed (s.dropItem i.ord) (((s.dropItem i.ord).noteSeq site (s.itemDomain i) i.seq).log site 1 [] (some i) 80) :=
      (Noticed.noteSeq _ _ _ _).trans (Noticed.log _ _ _ _ _ _)
    have hqueue := (congrArg Tile.mqueue (hnoted.tile site) :)
    have htag := (congrArg Tile.mtag (hnoted.tile site) :)
    refine ⟨_, exec_mcmdArrival hnet hbody hdst hstage hinj hsite hdoor hmay hfresh hroom, hnoted.mem, hnoted.threads, hnoted.net, ?_, ?_⟩
    · rw [(accept_tile _ site _).1, hqueue, htag]
      rfl
    · rw [(accept_tile _ site _).2, htag]
      rfl

end Sys2Proof.Machine
end

section
/-!
PROOFS. What every step keeps: the canonical form of the memory and of the firn areas (log 1), and, of an instruction, that a
thread at U stays there (spec/14_encoding.md R282). The rules for the operations on the state.
-/

namespace Sys2Proof.Machine

/-- A state on the way of a step from `s₀`: memory and firn areas are in their canonical form if they were; on the way of an
instruction (`u`) the same thread is the current one, and it is at U if it was. -/
structure Keeps (u : Bool) (s₀ s : State) : Prop where
  mem  : Memory.wf s₀.mem = true → Memory.wf s.mem = true
  firn : Memory.wf s₀.firnMem = true → Memory.wf s.firnMem = true
  user : u = true → s.cur = s₀.cur ∧ (s₀.me.priv = .U → s.me.priv = .U)

/-- A meaning goes on, to a state that keeps what `Keeps` says. -/
def Goes (u : Bool) (s₀ : State) (o : Out) : Prop := ∃ t, o = .next t ∧ Keeps u s₀ t

theorem Keeps.refl (u : Bool) (s : State) : Keeps u s s := ⟨id, id, fun _ => ⟨rfl, id⟩⟩

section
-- One proof after the other: side by side they would wait for each other, each on a stack of its own.
set_option Elab.async false
variable {u : Bool} {s₀ s t : State} {o o' : Out}

theorem Keeps.goes (hk : Keeps u s₀ s) : Goes u s₀ (.next s) := ⟨s, rfl, hk⟩

/-! ### Shapes of meanings -/

theorem Keeps.branch {c : Prop} [Decidable c] (hs : Keeps u s₀ s) (ht : Keeps u s₀ t) : Keeps u s₀ (if c then s else t) := by
  split
  · exact hs
  · exact ht

theorem Goes.branch {c : Prop} [Decidable c] (ho : Goes u s₀ o) (ho' : Goes u s₀ o') : Goes u s₀ (if c then o else o') := by
  split
  · exact ho
  · exact ho'

theorem Keeps.branchSnd {α : Type} {c : Prop} [Decidable c] {p q : α × State} (hp : Keeps u s₀ p.2) (hq : Keeps u s₀ q.2) :
    Keeps u s₀ (if c then p else q).2 := by
  split
  · exact hp
  · exact hq

theorem Keeps.snd {α : Type} {a : α} (hk : Keeps u s₀ s) : Keeps u s₀ (a, s).2 := hk

/-- The state of an answer that comes with one. -/
theorem Keeps.ofSnd {α : Type} {p : α × State} {a : α} (hk : Keeps u s₀ p.2) (h : p = (a, t)) : Keeps u s₀ t := by
  rw [h] at hk
  exact hk

theorem Keeps.ofFst {α : Type} {p : State × α} {a : α} (hk : Keeps u s₀ p.1) (h : p = (t, a)) : Keeps u s₀ t := by
  rw [h] at hk
  exact hk

theorem Keeps.ofSndSnd {α β : Type} {p : α × β × State} {a : α} {b : β} (hk : Keeps u s₀ p.2.2) (h : p = (a, b, t)) : Keeps u s₀ t := by
  rw [h] at hk
  exact hk

theorem Keeps.foldl {α : Type} {f : State → α → State} {l : List α} (hf : ∀ v a, Keeps u s₀ v → Keeps u s₀ (f v a)) (hk : Keeps u s₀ s) :
    Keeps u s₀ (l.foldl f s) := by
  induction l generalizing s with
  | nil => exact hk
  | cons a l ih => exact ih (hf s a hk)

theorem Keeps.foldlFst {α β : Type} {f : State × β → α → State × β} {l : List α} {v : State × β}
    (hf : ∀ v a, Keeps u s₀ v.1 → Keeps u s₀ (f v a).1) (hk : Keeps u s₀ v.1) : Keeps u s₀ (l.foldl f v).1 := by
  induction l generalizing v with
  | nil => exact hk
  | cons a l ih => exact ih (hf v a hk)

theorem Keeps.foldlSnd {α β : Type} {f : β × State → α → β × State} {l : List α} {v : β × State}
    (hf : ∀ v a, Keeps u s₀ v.2 → Keeps u s₀ (f v a).2) (hk : Keeps u s₀ v.2) : Keeps u s₀ (l.foldl f v).2 := by
  induction l generalizing v with
  | nil => exact hk
  | cons a l ih => exact ih (hf v a hk)

theorem Keeps.getD {x : Option State} (hx : ∀ v, x = some v → Keeps u s₀ v) (hk : Keeps u s₀ s) : Keeps u s₀ (x.getD s) := by
  cases x with
  | none => exact hk
  | some v => exact hx v rfl

/-! ### Fields of the state -/

/-- What changes neither memory, firn areas nor threads. -/
theorem Keeps.frame {agenda freeCtr refTime ordCtr powered full mapped poison dirty instrs cores tiles regions parts homes binding unbound
    fenced boot devid devValid attest flash appends queues devq taken turns replays waves nextId vfs selfSecs floe0 ports net egressQ
    egressed aer assists ring0 ev0Seq firns tagKey failQ saves points outs} (hk : Keeps u s₀ s) :
    Keeps u s₀ { s with
      agenda := agenda, freeCtr := freeCtr, refTime := refTime, ordCtr := ordCtr, powered := powered, full := full, mapped := mapped,
      poison := poison, dirty := dirty, instrs := instrs, cores := cores, tiles := tiles, regions := regions, parts := parts,
      homes := homes, binding := binding, unbound := unbound, fenced := fenced, boot := boot, devid := devid, devValid := devValid,
      attest := attest, flash := flash, appends := appends, queues := queues, devq := devq, taken := taken, turns := turns,
      replays := replays, waves := waves, nextId := nextId, vfs := vfs, selfSecs := selfSecs, floe0 := floe0, ports := ports, net := net,
      egressQ := egressQ, egressed := egressed, aer := aer, assists := assists, ring0 := ring0, ev0Seq := ev0Seq, firns := firns,
      tagKey := tagKey, failQ := failQ, saves := saves, points := points, outs := outs } :=
  ⟨hk.mem, hk.firn, hk.user⟩

/-- What a step of the part may do to everything but memory and the firn areas. -/
theorem Keeps.part {agenda cur freeCtr refTime ordCtr powered full mapped poison dirty instrs threads cores tiles regions parts homes
    binding unbound fenced boot devid devValid attest flash appends queues devq taken turns replays waves nextId vfs selfSecs floe0 ports
    net egressQ egressed aer assists ring0 ev0Seq firns tagKey failQ saves points outs} (hk : Keeps false s₀ s) :
    Keeps false s₀ { s with
      agenda := agenda, cur := cur, freeCtr := freeCtr, refTime := refTime, ordCtr := ordCtr, powered := powered, full := full,
      mapped := mapped, poison := poison, dirty := dirty, instrs := instrs, threads := threads, cores := cores, tiles := tiles,
      regions := regions, parts := parts, homes := homes, binding := binding, unbound := unbound, fenced := fenced, boot := boot,
      devid := devid, devValid := devValid, attest := attest, flash := flash, appends := appends, queues := queues, devq := devq,
      taken := taken, turns := turns, replays := replays, waves := waves, nextId := nextId, vfs := vfs, selfSecs := selfSecs,
      floe0 := floe0, ports := ports, net := net, egressQ := egressQ, egressed := egressed, aer := aer, assists := assists,
      ring0 := ring0, ev0Seq := ev0Seq, firns := firns, tagKey := tagKey, failQ := failQ, saves := saves, points := points,
      outs := outs } :=
  ⟨hk.mem, hk.firn, nofun⟩

theorem Keeps.ofCaches (hk : Keeps u s₀ s) (h : OnlyCaches s t) : Keeps u s₀ t := by
  obtain ⟨tiles, homes, rfl⟩ := h
  exact hk.frame

/-- Memory with some of it changed. -/
theorem Keeps.withMem {mem : List Host.Cell} (hmem : Memory.wf s.mem = true → Memory.wf mem = true) (hk : Keeps u s₀ s) :
    Keeps u s₀ { s with mem := mem } := ⟨fun h => hmem (hk.mem h), hk.firn, hk.user⟩

theorem Keeps.withFirn {mem : List Host.Cell} (hmem : Memory.wf s.firnMem = true → Memory.wf mem = true) (hk : Keeps u s₀ s) :
    Keeps u s₀ { s with firnMem := mem } := ⟨hk.mem, fun h => hmem (hk.firn h), hk.user⟩

/-- A thread is set; the current one is at U if it was. -/
theorem Keeps.setLevel {h : Nat} {x : Thread} (hk : Keeps u s₀ s) (hx : u = true → (s.thread h).priv = .U → x.priv = .U) :
    Keeps u s₀ (s.setThread h x) := by
  refine ⟨hk.mem, hk.firn, fun hu => ⟨(hk.user hu).1, fun hU => ?_⟩⟩
  have hme := (hk.user hu).2 hU
  show (SMap.get Thread.init (SMap.put s.threads h x) s.cur).priv = .U
  rw [SMap.get_put]
  split
  · next heq => exact hx hu (heq ▸ hme)
  · exact hme

/-- A thread is set, its level as it was. -/
theorem Keeps.setThread {h : Nat} {x : Thread} (hk : Keeps u s₀ s)
    (hx : u = true → x.priv = (s.thread h).priv := by exact fun _ => rfl) : Keeps u s₀ (s.setThread h x) := hk.setLevel fun hu hU => (hx hu).trans hU

/-- The current thread is set, with its level as it is. -/
theorem Keeps.setMe {x : Thread} (hk : Keeps u s₀ s) (hx : u = true → x.priv = s.me.priv := by exact fun _ => rfl) :
    Keeps u s₀ (s.setMe x) := hk.setThread hx

/-- The current thread is set, its level as it was before. -/
theorem Keeps.setMeAs {x : Thread} (hk : Keeps u s₀ s) (ht : Keeps u s₀ t) (hx : u = true → x.priv = t.me.priv := by exact fun _ => rfl) :
    Keeps u s₀ (s.setMe x) := by
  refine ⟨hk.mem, hk.firn, fun hu => ⟨(hk.user hu).1, fun hU => ?_⟩⟩
  show (SMap.get Thread.init (SMap.put s.threads s.cur x) s.cur).priv = .U
  rw [SMap.get_put_self]
  exact (hx hu).trans ((ht.user hu).2 hU)

/-- A step of the part may set any thread. -/
theorem Keeps.putThread {h : Nat} {x : Thread} (hk : Keeps false s₀ s) : Keeps false s₀ (s.setThread h x) := hk.part

end

end Sys2Proof.Machine
end

section
/-!
PROOFS. What `Keeps` says, of the operations on the state, homes, and the messages of threads.
-/

namespace Sys2Proof.Machine

section
-- One proof after the other: side by side they would wait for each other, each on a stack of its own.
set_option Elab.async false
variable {u : Bool} {s₀ s t : State} {o o' : Out}

/-! ### Operations on threads, memory and messages -/

theorem Keeps.setCore {c : Nat} {x : Core} (hk : Keeps u s₀ s) : Keeps u s₀ (s.setCore c x) := hk.frame

theorem Keeps.setTile {i : Nat} {x : Tile} (hk : Keeps u s₀ s) : Keeps u s₀ (s.setTile i x) := hk.frame

theorem Keeps.setPart {p : Nat} {x : Partition} (hk : Keeps u s₀ s) : Keeps u s₀ (s.setPart p x) := hk.frame

theorem Keeps.setAgent {k : Nat} {x : HomeAgent} (hk : Keeps u s₀ s) : Keeps u s₀ (s.setAgent k x) := hk.frame

theorem Thread.wx_priv (x : Thread) (n : Reg) (v : Word) : (x.wx n v).priv = x.priv := by
  unfold Thread.wx
  split <;> rfl

theorem Keeps.wx {n : Reg} {v : Word} (hk : Keeps u s₀ s) : Keeps u s₀ (s.wx n v) := hk.setMe fun _ => Thread.wx_priv ..

theorem Keeps.free (hk : Keeps u s₀ s) : Keeps u s₀ s.free.2 := hk.frame

theorem Keeps.putMem {k : Nat} {bs : List Byte} (hk : Keeps u s₀ s) : Keeps u s₀ (s.putMem k bs) :=
  ⟨fun h => Memory.wf_writeN _ _ (hk.mem h), hk.firn, hk.user⟩

theorem Keeps.putNum {k n v : Nat} (hk : Keeps u s₀ s) : Keeps u s₀ (s.putNum k n v) := hk.putMem

theorem Keeps.setFull {k n : Nat} (hk : Keeps u s₀ s) : Keeps u s₀ (s.setFull k n) := hk.frame

theorem Keeps.setEmpty {k n : Nat} (hk : Keeps u s₀ s) : Keeps u s₀ (s.setEmpty k n) := hk.frame

theorem Keeps.putEngine {k : Nat} {bs : List Byte} (hk : Keeps u s₀ s) : Keeps u s₀ (s.putEngine k bs) := hk.putMem.setFull

theorem Keeps.takeSeq {h : Nat} (hk : Keeps u s₀ s) : Keeps u s₀ (s.takeSeq h).2 := hk.setThread

theorem Keeps.countSent {site job n : Nat} (hk : Keeps u s₀ s) : Keeps u s₀ (s.countSent site job n) := by
  unfold State.countSent
  split
  · exact hk.setAgent
  · exact Keeps.branch hk.setTile hk

theorem Keeps.countRecv {site job n : Nat} (hk : Keeps u s₀ s) : Keeps u s₀ (s.countRecv site job n) := by
  unfold State.countRecv
  split
  · exact hk.setAgent
  · exact Keeps.branch hk.setTile hk

theorem Keeps.emit {i : Item} (hk : Keeps u s₀ s) : Keeps u s₀ (s.emit i) := hk.frame

theorem Keeps.sendTo {h : Nat} {m : Msg} {release : Bool} (hk : Keeps u s₀ s) : Keeps u s₀ (s.sendTo h m release) := hk.countSent.emit

theorem Keeps.putFirn {k : Nat} {bs : List Byte} (hk : Keeps u s₀ s) : Keeps u s₀ (s.putFirn k bs) := hk.withFirn (Memory.wf_writeN _ _)

theorem Keeps.emptyFirn {buddy : Nat} (hk : Keeps false s₀ s) : Keeps false s₀ (s.emptyFirn buddy) :=
  hk.withFirn fun h => Memory.wf_clear _ _ h

theorem Keeps.putRing {buddy off : Nat} {bs : List Byte} (hk : Keeps u s₀ s) : Keeps u s₀ (s.putRing buddy off bs) := hk.putFirn.putFirn

theorem Keeps.ringRecord {site buddy : Nat} {r : LogRec} (hk : Keeps u s₀ s) : Keeps u s₀ (s.ringRecord site buddy r) :=
  Keeps.branch hk.putRing hk

theorem Keeps.logRec {site : Nat} {r : LogRec} (hk : Keeps u s₀ s) : Keeps u s₀ (s.logRec site r) := by
  unfold State.logRec
  dsimp only
  split
  · exact Keeps.branch hk.ringRecord.setTile hk
  · exact hk

theorem Keeps.logAnswer {i : Item} {v : Word} (hk : Keeps u s₀ s) : Keeps u s₀ (s.logAnswer i v) := hk.logRec

theorem Keeps.log {site typ : Nat} {body : List Word} {m : Option Item} {size : Nat} (hk : Keeps u s₀ s) :
    Keeps u s₀ (s.log site typ body m size) :=
  hk.logRec

theorem Keeps.replayed {typ n : Nat} {v : Word} (hk : Keeps u s₀ s) (h : s.replayed typ n = .value v t) : Keeps u s₀ t := by
  unfold State.replayed at h
  extract_lets x mine at h
  split at h
  · cases h
  · split at h
    · split at h <;> cases h
      exact hk.setTile
    · split at h
      · split at h <;> cases h
        exact hk.setTile
      · cases h

theorem Keeps.sawHost {fn at_ n : Nat} (hk : Keeps u s₀ s) : Keeps u s₀ (s.sawHost fn at_ n) := hk.frame

theorem Keeps.ringWrite {r : EventRing} {record : List Byte} (hk : Keeps u s₀ s) : Keeps u s₀ (s.ringWrite r record).2 := by
  unfold State.ringWrite
  extract_lets base
  clear_value base
  split
  · exact hk.putNum.sawHost
  · exact Keeps.frame hk.putMem.sawHost.putNum.sawHost

theorem Keeps.recordOwn {p : Nat} {b32 : List Byte} (hk : Keeps u s₀ s) : Keeps u s₀ (s.recordOwn p b32) := by
  have hw := fun r b => hk.ringWrite (r := r) (record := b)
  choose r' mem dirty poison outs _ h using ringWrite_frame s
  unfold State.recordOwn
  rw [funext₂ h] at hw ⊢
  split
  · exact (hw _ _).setPart
  · exact hk

theorem Keeps.record {p : Nat} {b24 : List Byte} (hk : Keeps u s₀ s) : Keeps u s₀ (s.record p b24) := by
  have hw := fun r b => hk.ringWrite (r := r) (record := b)
  choose r' mem dirty poison outs _ h using ringWrite_frame s
  unfold State.record
  rw [funext₂ h] at hw ⊢
  split
  · split
    · exact (hw _ _).frame
    · exact hk.frame
  · split
    · exact (hw _ _).setPart
    · exact hk.setPart

theorem Keeps.record5 {p cause job : Nat} {mid : Word} (hk : Keeps u s₀ s) : Keeps u s₀ (s.record5 p cause job mid) := hk.record

theorem Keeps.record6 {p cause : Nat} {mid : Word} {a : Nat} (hk : Keeps false s₀ s) : Keeps false s₀ (s.record6 p cause mid a) := hk.record

theorem Keeps.report {site : Nat} {r : Report} (hk : Keeps u s₀ s) : Keeps u s₀ (s.report site r) := by
  unfold State.report
  dsimp only
  split
  · exact hk.countSent.emit
  · exact hk.countSent.record5.countRecv

theorem Keeps.freeThread {h : Nat} (hk : Keeps u s₀ s) : Keeps u s₀ (s.freeThread h) := Keeps.frame (hk.setLevel fun _ _ => rfl)

theorem Keeps.closedFor {h : Nat} {act : Activation} (hk : Keeps u s₀ s) : Keeps u s₀ (s.closedFor h act) := by
  have hspent : Keeps u s₀ (s.spentSpawn h) := by
    unfold State.spentSpawn
    split
    · exact hk.setThread
    · exact hk
  unfold State.closedFor
  generalize s.spentSpawn h = v at hspent
  cases act.origin
  · exact hspent.freeThread.setCore
  · exact hspent.freeThread

theorem Keeps.abort {h cause : Nat} {a : Word} (hk : Keeps u s₀ s) : Keeps u s₀ (s.abort h cause a) := by
  cases hact : (s.thread h).act with
  | none => rwa [abort_none cause a hact]
  | some act =>
    obtain ⟨net, site, r, ht⟩ := abort_some cause a hact
    rw [ht]
    exact (Keeps.frame hk.closedFor).report

theorem Keeps.raise {cause : Nat} {at_ : Site} {addr mval : Word} (hk : Keeps u s₀ s) : Keeps u s₀ (s.raise cause at_ addr mval) := by
  unfold State.raise
  split
  · exact hk.abort
  · exact hk.setMe

theorem Keeps.raiseAt {h cause : Nat} {a : Word} (hk : Keeps false s₀ s) : Keeps false s₀ (s.raiseAt h cause a) := hk.part.raise.part

theorem Keeps.raiseOut {cause : Nat} {at_ : Site} {addr : Word} (hk : Keeps u s₀ s) : Goes u s₀ (raiseOut s cause at_ addr) := hk.raise.goes

theorem Keeps.operandError (hk : Keeps u s₀ s) : Goes u s₀ (operandError s) := hk.raiseOut

theorem Keeps.illegalOut {word : Word} (hk : Keeps u s₀ s) : Goes u s₀ (illegalOut s word) := hk.raise.goes

theorem Keeps.retireTo {next : Word} {jump : Bool} (hk : Keeps u s₀ s) : Keeps u s₀ (s.retireTo next jump) := hk.setMe.frame

theorem Keeps.retire (hk : Keeps u s₀ s) : Keeps u s₀ s.retire := hk.retireTo

theorem Keeps.writeReg {rd : Reg} {v : Word} (hk : Keeps u s₀ s) : Goes u s₀ (writeReg s rd v) := hk.wx.retire.goes

theorem Keeps.blockOn {w : Wait} (hk : Keeps u s₀ s) : Goes u s₀ (blockOn s w) := hk.setMe.goes

theorem Keeps.mret (hk : Keeps u s₀ s) : Keeps u s₀ s.mret := hk.retireTo

/-! ### Homes -/

theorem Keeps.cache {home : Option Nat} {va : Nat} {e : TlbEntry} (hk : Keeps false s₀ s) : Keeps false s₀ (s.cache home va e) := by
  unfold State.cache
  split
  · exact hk.setTile
  · exact hk.setAgent

theorem Keeps.translate {p va : Nat} (hk : Keeps false s₀ s) : Keeps false s₀ (s.translate p va).2 := by
  unfold State.translate
  refine Keeps.branchSnd ?_ ?_
  · exact hk
  · refine Keeps.branchSnd ?_ ?_
    · exact hk
    · dsimp only
      split
      · exact hk
      · refine Keeps.branchSnd ?_ ?_
        · exact hk
        · split
          · exact hk
          · exact hk.cache

theorem Keeps.dropTlb {f : TlbEntry → Bool} (hk : Keeps false s₀ s) : Keeps false s₀ (s.dropTlb f) := hk.frame

theorem Keeps.resolve {p va : Nat} {w : Option WKind} {cap : Option (Nat × Nat)} (hk : Keeps false s₀ s) :
    Keeps false s₀ (s.resolve p va w cap).2 := by
  unfold State.resolve
  split
  · next heq =>
      exact hk.translate.ofSnd heq
  · next heq =>
      split <;> exact hk.translate.ofSnd heq

theorem Keeps.readAll {p : Nat} {l : List (Nat × Nat)} (hk : Keeps false s₀ s) : Keeps false s₀ (s.readAll p l).2 :=
  hk.ofCaches (readAll_caches p l s)

theorem Keeps.amo {op : AmoOp} {k w v c : Nat} (hk : Keeps u s₀ s) : Keeps u s₀ (s.amo op k w v c).2 := Keeps.branchSnd hk hk.putNum

theorem Keeps.sentAt {home : Dest} {job : Nat} (hk : Keeps u s₀ s) : Keeps u s₀ (s.sentAt home job) := hk.countSent

theorem Keeps.recvAt {home : Dest} {job : Nat} (hk : Keeps false s₀ s) : Keeps false s₀ (s.recvAt home job) := hk.countRecv

theorem Keeps.homeMsg {w : Sender} {kind drank chan : Nat} {pl : Vector Word 8} (hk : Keeps u s₀ s) :
    Keeps u s₀ (s.homeMsg w kind drank chan pl) :=
  hk.sentAt.emit

theorem Keeps.join {k : Nat} {w : Sender} (hk : Keeps u s₀ s) : Keeps u s₀ (s.join k w).2 := by
  unfold State.join
  extract_lets word count v
  have hv : Keeps u s₀ v := hk.putNum
  clear_value v
  split
  · exact hk
  · split
    · exact hv.homeMsg
    · exact hv

theorem Keeps.arriveMsg {w : Sender} {drank chan : Nat} {pl : Vector Word 8} (hk : Keeps false s₀ s) :
    Keeps false s₀ (s.arriveMsg w drank chan pl) :=
  hk.sentAt.emit

theorem Keeps.arrive {k len : Nat} {w : Sender} (hk : Keeps false s₀ s) : Keeps false s₀ (s.arrive k len w) :=
  Keeps.branch (Keeps.branch hk.putNum.arriveMsg hk.putNum) hk.putNum

theorem Keeps.refusePosted {i : Item} {cause a : Nat} (hk : Keeps false s₀ s) : Keeps false s₀ (s.refusePosted i cause a) :=
  Keeps.report (Keeps.branch hk.record6 hk)

theorem Keeps.faultFor {i : Item} {va : Nat} {hart : Option Nat} (hk : Keeps false s₀ s) : Keeps false s₀ (s.faultFor i va hart) := hk.emit

theorem Keeps.performAt {op : RetOp} {k : Nat} {w : Sender} (hk : Keeps u s₀ s) : Keeps u s₀ (s.performAt op k w).2 := by
  cases op with
  | ldf | waitgen => exact Keeps.branchSnd hk hk
  | ldfe => exact Keeps.branchSnd hk.setEmpty hk
  | read | eqstat => exact hk
  | amo f a n v c =>
    have h : Keeps u s₀ (s.amo f k n v c).2 := hk.amo
    unfold State.performAt
    dsimp only
    generalize s.amo f k n v c = p at h ⊢
    exact h
  | joindec =>
    have h : Keeps u s₀ (s.join k w).2 := hk.join
    unfold State.performAt
    dsimp only
    generalize s.join k w = p at h ⊢
    exact h

theorem Keeps.respond {i : Item} {cause a : Nat} {wr : Bool} {r : Resp} {waited : Bool} (hk : Keeps false s₀ s) :
    Keeps false s₀ (s.respond i cause a wr r waited) :=
  hk.emit

theorem Keeps.dropItem {ord : Nat} (hk : Keeps false s₀ s) : Keeps false s₀ (s.dropItem ord) := hk.frame

theorem Keeps.setStage {ord : Nat} {st : Stage} (hk : Keeps false s₀ s) : Keeps false s₀ (s.setStage ord st) := hk.frame

theorem Keeps.logWrite {site part a k n : Nat} {fe : Bool} {mark : Option (Nat × Nat × Nat)} (hk : Keeps false s₀ s) :
    Keeps false s₀ (s.logWrite site part a k n fe mark) := by
  unfold State.logWrite
  split
  · exact Keeps.branch hk (hk.foldl (fun _ _ hv => hv.log))
  · exact hk

theorem Keeps.noteLine {home : Dest} {d : Domain} {ival : Nat} (hk : Keeps false s₀ s) : Keeps false s₀ (s.noteLine home d ival) := by
  unfold State.noteLine
  split
  · exact hk.setTile
  · exact hk.setAgent
  · exact hk

theorem Keeps.forgetLines {rank ival : Nat} (hk : Keeps false s₀ s) : Keeps false s₀ (s.forgetLines rank ival) := hk.frame

/-! ### Operands -/

theorem Keeps.ask {op : RetOp} {release : Bool} (hk : Keeps u s₀ s) : Keeps u s₀ (s.ask op release) := by
  unfold State.ask
  split
  next heq =>
    have hq := Keeps.ofSnd (Keeps.branchSnd hk.takeSeq hk) heq
    exact (Keeps.branch hq.countSent hq).emit.setMe

theorem Keeps.post {a : Nat} {bs : List Byte} {fe release : Bool} (hk : Keeps u s₀ s) : Keeps u s₀ (s.post a bs fe release) :=
  hk.takeSeq.countSent.emit

theorem Keeps.postHome {home k : Nat} {bs : List Byte} {fe release : Bool} (hk : Keeps u s₀ s) :
    Keeps u s₀ (s.postHome home k bs fe release) :=
  hk.emit

theorem Keeps.loadThen {a n : Nat} {f : List Byte → State → Out} (hk : Keeps u s₀ s) (hf : ∀ bs, Goes u s₀ (f bs s)) :
    Goes u s₀ (loadThen s a n f) := by
  unfold Machine.loadThen
  split
  · exact hf _
  · split
    · exact hk.raiseOut
    · split
      · exact hk.raiseOut
      · exact Goes.branch hk.blockOn (hf _)
    · exact Goes.branch hk.ask.goes hk.raiseOut

theorem Keeps.storeAt {a : Nat} {bs : List Byte} (hk : Keeps u s₀ s) (h : s.storeAt a bs = .ok t) : Keeps u s₀ t := by
  unfold State.storeAt at h
  split at h
  · cases h
  · split at h
    · cases h
    · split at h <;> cases h
      · exact hk.postHome
      · exact hk.putMem
  · split at h <;> cases h
    exact hk.post

theorem Keeps.storeOut {a : Nat} {bs : List Byte} (hk : Keeps u s₀ s) : Goes u s₀ (storeOut s a bs) := by
  unfold Machine.storeOut
  refine Goes.branch ?_ ?_
  · exact hk.blockOn
  · split
    · next heq =>
        exact (hk.storeAt heq).retire.goes
    · exact hk.raiseOut

theorem Keeps.blockThen {a : Word} {f : Vector Word 8 → Out} (hk : Keeps u s₀ s) (hf : ∀ w, Goes u s₀ (f w)) :
    Goes u s₀ (blockThen s a f) := by
  unfold Machine.blockThen
  split
  · exact hk.raiseOut
  · split
    · exact hk.raiseOut
    · exact Goes.branch hk.blockOn (hf _)

/-! ### CSRs -/

theorem Thread.writeCsr_priv (x : Thread) (n : Nat) (v : Word) : (x.writeCsr n v).priv = x.priv := by
  unfold Thread.writeCsr
  split
  case h_6 =>
    dsimp only
    split <;> rfl
  all_goals repeat' split
  all_goals rfl

theorem Keeps.writeCsr {n : Nat} {v : Word} (hk : Keeps u s₀ s) : Keeps u s₀ (s.writeCsr n v) := by
  unfold State.writeCsr
  split
  · exact hk.setCore
  · exact hk.setTile
  · exact hk.setMe fun _ => Thread.writeCsr_priv ..

/-! ### Items under way -/

theorem Keeps.sendAll {h : Nat} {d : DestWord} {kind : Nat} {pl : Vector Word 8} {cap : Option Cap} {dranks : List Nat} (hk : Keeps u s₀ s)
    :
    Keeps u s₀ (s.sendAll h d kind pl cap dranks) :=
  hk.takeSeq.foldl fun _ _ hv => hv.sendTo

theorem Keeps.releaseHeld {h n : Nat} (hk : Keeps u s₀ s) : Keeps u s₀ (s.releaseHeld h n) := by
  induction n generalizing s with
  | zero => exact hk
  | succ n ih =>
    unfold State.releaseHeld
    extract_lets x
    split
    · exact hk
    · split
      · exact hk
      · have hset := hk.setThread (h := h) (x := { x with held := ‹List HeldSend› })
        split
        · exact ih hset.sendAll
        · exact ih hset

theorem Keeps.noteSeq {site : Nat} {d : Domain} {seq : Nat} (hk : Keeps false s₀ s) : Keeps false s₀ (s.noteSeq site d seq) := hk.setTile

theorem Keeps.ended {i : Item} (hk : Keeps false s₀ s) : Keeps false s₀ (s.ended i) := Keeps.branch hk.dropItem.countRecv hk.dropItem

theorem Keeps.bounce {i : Item} (hk : Keeps false s₀ s) : Keeps false s₀ (s.bounce i) := by
  unfold State.bounce
  dsimp only
  split
  · split
    · exact Keeps.branch hk.setTile hk
    · exact hk
  · refine Keeps.setStage ?_
    split
    · exact Keeps.branch hk.setTile hk
    · exact hk
  · refine Keeps.setStage ?_
    split
    · exact Keeps.branch hk.setTile hk
    · exact hk

theorem Keeps.joinHeld {i : Item} (hk : Keeps false s₀ s) : Keeps false s₀ (s.joinHeld i) := Keeps.branch hk.bounce hk.setStage

/-! ### Message, task, synchronisation, atomic and capability instructions -/

theorem Keeps.sendNow {group : Bool} {rs1 : Reg} (hk : Keeps u s₀ s) : Goes u s₀ (sendNow s group rs1) := by
  unfold Machine.sendNow
  split
  · exact hk.operandError
  · exact Goes.branch hk.operandError (Goes.branch hk.blockOn hk.sendAll.retire.goes)

theorem Keeps.sendHeld {group : Bool} {rs1 : Reg} (hk : Keeps u s₀ s) : Goes u s₀ (sendHeld s group rs1) := by
  unfold Machine.sendHeld
  split
  · exact hk.operandError
  · exact Goes.branch hk.operandError (Goes.branch hk.raiseOut hk.setMe.retire.goes)

theorem Keeps.execSendc {rs1 rs2 : Reg} (hk : Keeps u s₀ s) : Goes u s₀ (execSendc rs1 rs2 s) := by
  unfold Machine.execSendc
  split
  · exact hk.operandError
  · exact hk.blockThen fun _ => Goes.branch hk.blockOn hk.sendAll.retire.goes

theorem Keeps.pushFrame {core : Nat} {f : Frame} (hk : Keeps u s₀ s) : Keeps u s₀ (s.pushFrame core f) := by
  unfold State.pushFrame
  dsimp only
  split
  · exact hk.setCore.putMem
  · exact hk.setCore

theorem Keeps.spawnOwn {rd : Reg} {h : Word} (hk : Keeps u s₀ s) : Goes u s₀ (spawnOwn s rd h) :=
  Goes.branch hk.blockOn (Goes.branch hk.takeSeq.pushFrame.countSent.countRecv.writeReg hk.writeReg)

theorem Keeps.spawnFar {rd : Reg} {h : Word} {lc : Nat} (hk : Keeps u s₀ s) : Goes u s₀ (spawnFar s rd h lc) := by
  unfold Machine.spawnFar
  split
  · exact Goes.branch hk.takeSeq.writeReg hk.writeReg
  · exact (hk.countSent.emit.setMeAs hk).goes

theorem Keeps.execSpawn {rd rs1 rs2 : Reg} (hk : Keeps u s₀ s) : Goes u s₀ (execSpawn rd rs1 rs2 s) := by
  unfold Machine.execSpawn
  refine Goes.branch ?_ ?_
  · exact hk.raiseOut
  · refine Goes.branch ?_ ?_
    · exact hk.operandError
    · refine Goes.branch ?_ ?_
      · exact hk.spawnOwn
      · refine Goes.branch ?_ ?_
        · exact hk.operandError
        · split
          · exact hk.operandError
          · exact Goes.branch hk.spawnOwn hk.spawnFar

theorem Keeps.localAtomic {rd : Reg} {f : State → Word × State} (hk : Keeps u s₀ s) (hf : ∀ v, Keeps u s₀ v → Keeps u s₀ (f v).2) :
    Goes u s₀ (localAtomic s rd f) := by
  unfold Machine.localAtomic
  split
  · exact hk.blockOn
  · next heq => exact ((hf _ (hk.replayed heq)).setMe).writeReg
  · exact Goes.branch hk.blockOn ((hf s hk).log.setMe).writeReg

theorem Keeps.execJoindec {rd rs1 : Reg} (hk : Keeps u s₀ s) : Goes u s₀ (execJoindec rd rs1 s) := by
  unfold Machine.execJoindec
  split
  · exact hk.writeReg
  · refine Goes.branch ?_ ?_
    · exact hk.raiseOut
    · split
      · exact hk.raiseOut
      · refine Goes.branch ?_ ?_
        · exact hk.raiseOut
        · split
          · exact hk.raiseOut
          · exact Goes.branch hk.blockOn (hk.localAtomic (fun _ hv => hv.takeSeq.join))
      · exact hk.ask.goes

theorem Keeps.execLaunch {rs1 : Reg} (hk : Keeps u s₀ s) : Goes u s₀ (execLaunch rs1 s) :=
  hk.blockThen (fun _ => Goes.branch hk.blockOn (Goes.branch hk.takeSeq.emit.retire.goes hk.takeSeq.frame.retire.goes))

theorem Keeps.putEntry {core ch : Nat} {m : Msg} {spilled : Bool} (hk : Keeps u s₀ s) : Keeps u s₀ (s.putEntry core ch m spilled) := by
  unfold State.putEntry
  split
  · exact hk.putMem
  · exact hk

theorem Keeps.putNewest {core ch : Nat} (hk : Keeps u s₀ s) : Keeps u s₀ (s.putNewest core ch) := by
  unfold State.putNewest
  split
  · exact hk.putEntry
  · exact hk

theorem Keeps.finish {h : Nat} (hk : Keeps u s₀ s) : Keeps u s₀ (s.finish h) := by
  unfold State.finish
  split
  · exact hk
  · dsimp only
    split
    · exact Keeps.branch hk.freeThread.setCore hk.freeThread.setCore.putNewest
    · exact hk.freeThread

theorem Keeps.execBar {rs1 : Reg} (hk : Keeps u s₀ s) : Goes u s₀ (execBar rs1 s) := by
  unfold Machine.execBar
  split
  · exact hk.retire.goes
  · refine Goes.branch ?_ ?_
    · exact hk.operandError
    · split
      · exact hk.operandError
      · exact hk.setCore.emit.setMe.goes

theorem Keeps.localWait {rd : Reg} {op : RetOp} {k home : Nat} (hk : Keeps u s₀ s) : Goes u s₀ (localWait s rd op k home) := by
  unfold Machine.localWait
  refine Goes.branch ?_ ?_
  · exact hk.emit.setMe.goes
  · split
    · next heq =>
        exact Goes.branch hk.blockOn ((hk.performAt.ofSnd heq).logAnswer.writeReg)
    · next heq =>
        exact hk.emit.setMe.goes

theorem Keeps.execWaitgen {rd rs2 rs1 : Reg} (hk : Keeps u s₀ s) : Goes u s₀ (execWaitgen rd rs2 rs1 s) := by
  unfold Machine.execWaitgen
  split
  · exact hk.writeReg
  · refine Goes.branch ?_ ?_
    · exact hk.raiseOut
    · refine Goes.branch ?_ ?_
      · exact hk.operandError
      · split
        · exact hk.raiseOut
        · refine Goes.branch ?_ ?_
          · exact hk.raiseOut
          · split
            · exact hk.raiseOut
            · exact Goes.branch hk.blockOn hk.localWait
        · exact hk.ask.goes

theorem Keeps.ldfOut {rd rs1 : Reg} {op : Nat → RetOp} {k : AccKind} (hk : Keeps u s₀ s) : Goes u s₀ (ldfOut s rd rs1 op k) := by
  unfold Machine.ldfOut
  split
  · exact hk.writeReg
  · refine Goes.branch ?_ ?_
    · exact hk.raiseOut
    · split
      · exact hk.raiseOut
      · split
        · exact hk.raiseOut
        · exact Goes.branch hk.blockOn hk.localWait
      · exact hk.ask.goes

theorem Keeps.execStf {rs2 rs1 : Reg} (hk : Keeps u s₀ s) : Goes u s₀ (execStf rs2 rs1 s) := by
  unfold Machine.execStf
  refine Goes.branch ?_ ?_
  · exact hk.raiseOut
  · split
    · exact hk.raiseOut
    · split
      · exact hk.raiseOut
      · exact Goes.branch hk.postHome.retire.goes hk.putEngine.retire.goes
    · exact hk.post.retire.goes

theorem Keeps.amoOut {op : AmoOp} {order : Order} {dbl : Bool} {rd : Reg} {rs2 : BitVec 4} {rs1 : Reg} (hk : Keeps u s₀ s) :
    Goes u s₀ (amoOut s op order dbl rd rs2 rs1) := by
  unfold Machine.amoOut
  split
  · exact hk.writeReg
  · refine Goes.branch ?_ ?_
    · exact hk.raiseOut
    · split
      · exact hk.raiseOut
      · split
        · exact hk.raiseOut
        · exact Goes.branch hk.blockOn (hk.localAtomic (fun _ hv => hv.amo))
      · exact hk.ask.goes

theorem Keeps.clearSlot {n : BitVec 2} (hk : Keeps u s₀ s) : Keeps u s₀ (s.clearSlot n) := hk.setCore

theorem Keeps.handoverWait {k : Cap} (hk : Keeps u s₀ s) : Goes u s₀ (handoverWait s k) := Goes.branch hk.blockOn hk.retire.goes

theorem Keeps.execHandover {rs1 : Reg} {cap : BitVec 2} (hk : Keeps u s₀ s) : Goes u s₀ (execHandover rs1 cap s) := by
  unfold Machine.execHandover
  split
  · exact hk.handoverWait
  · split
    · exact hk.operandError
    · split
      · exact hk.raiseOut
      · exact Goes.branch hk.blockOn hk.clearSlot.sendAll.handoverWait

theorem Keeps.capdropWait {k : Cap} (hk : Keeps u s₀ s) : Goes u s₀ (capdropWait s k) := Goes.branch hk.blockOn hk.retire.goes

theorem Keeps.execCapdrop {cap : BitVec 2} (hk : Keeps u s₀ s) : Goes u s₀ (execCapdrop cap s) := by
  unfold Machine.execCapdrop
  split
  · exact hk.capdropWait
  · split
    · exact hk.retire.goes
    · exact hk.clearSlot.emit.capdropWait

/-! ### What the engines of a tile share -/

theorem Keeps.engRead {site part a n : Nat} (hk : Keeps false s₀ s) : Keeps false s₀ (s.engRead site part a n).2 := by
  unfold State.engRead
  refine Keeps.branchSnd ?_ ?_
  · exact hk
  · split
    · exact hk
    · split <;> exact hk
    · split
      · exact hk
      · exact Keeps.branchSnd hk.readAll hk

theorem Keeps.logReads {site part : Nat} {id : Word} {l : List (Nat × Nat)} (hk : Keeps false s₀ s) :
    Keeps false s₀ (s.logReads site part id l) := by
  unfold State.logReads
  refine hk.foldl fun _ _ hv => ?_
  refine Keeps.branch ?_ ?_
  · split
    · exact hv.setTile
    · exact hv
  · refine Keeps.branch ?_ ?_
    · exact hv
    · split
      · refine Keeps.log ?_
        split
        · exact hv.log
        · exact hv
      · exact hv

theorem Keeps.takeLine {site : Nat} {home : Dest} {d : Domain} (hk : Keeps false s₀ s) : Keeps false s₀ (s.takeLine site home d) :=
  Keeps.branch hk.noteLine hk

theorem Keeps.engPut {site part num line red a : Nat} {cap : Option (Nat × Nat)} {bs : List Byte} (hk : Keeps false s₀ s) :
    Keeps false s₀ (s.engPut site part num line cap red a bs).2 := by
  unfold State.engPut
  extract_lets home rank d
  clear_value home rank d
  refine Keeps.branchSnd hk (Keeps.branchSnd hk ?_)
  split
  · next heq =>
    have hv := Keeps.ofSnd hk.resolve heq
    refine Keeps.branchSnd hv ?_
    dsimp only
    exact hv.putEngine.takeLine.logWrite
  · next heq => exact Keeps.ofSnd hk.resolve heq

theorem Keeps.engWrite {site part num line : Nat} {caps : List Cap} {red a : Nat} {bs : List Byte} (hk : Keeps false s₀ s) :
    Keeps false s₀ (s.engWrite site part num line caps red a bs).2 := by
  unfold State.engWrite
  refine Keeps.branchSnd ?_ ?_
  · exact hk
  · split
    · exact hk
    · split
      · exact hk.putEngine
      · exact hk
    · exact hk.engPut

theorem Keeps.deny {part : Nat} {mid : Word} {l : List (Nat × Nat × Nat)} {dest cause a : Nat} (hk : Keeps false s₀ s) :
    Keeps false s₀ (s.deny part mid l dest cause a).2 := by
  unfold State.deny
  split
  · exact hk
  · dsimp only
    exact hk.record6

theorem Keeps.engFault {hart srank job part a : Nat} (hk : Keeps false s₀ s) : Keeps false s₀ (s.engFault hart srank job part a) := hk.emit

theorem Keeps.noteChunk {site part eng : Nat} (hk : Keeps false s₀ s) : Keeps false s₀ (s.noteChunk site part eng) :=
  Keeps.branch hk.setTile hk

theorem Keeps.engineMsg {site hart srank job part kind chan seq : Nat} {dom : Domain} {pl : Vector Word 8} (hk : Keeps false s₀ s) :
    Keeps false s₀ (s.engineMsg site hart srank job part kind chan seq dom pl) :=
  hk.countSent.emit

theorem Keeps.waitTag {rd rs1 : Reg} {last : Nat} {open_ : Nat → Bool} {finished : List EngResult} (hk : Keeps u s₀ s) :
    Goes u s₀ (waitTag s rd rs1 last open_ finished) :=
  Goes.branch hk.operandError (Goes.branch hk.blockOn (Goes.branch hk.writeReg hk.writeReg))

end

end Sys2Proof.Machine
end

section
/-!
PROOFS. What `Keeps` says, of the matrix unit, windows, the copy engine, system instructions, the scheduler and egress.
-/

namespace Sys2Proof.Machine

section
-- One proof after the other: side by side they would wait for each other, each on a stack of its own.
set_option Elab.async false
variable {u : Bool} {s₀ s t : State} {o o' : Out}

/-! ### Matrix, floe and accumulator instructions -/

theorem Keeps.matIssue {store : Bool} {rs1 rs2 : Reg} {xtra : MatDesc → Bool} {f : MatDesc → Out} (hk : Keeps u s₀ s) (hf : ∀ d, Goes u s₀
    (f d)) :
    Goes u s₀ (matIssue s store rs1 rs2 xtra f) :=
  hk.blockThen fun _ => Goes.branch hk.operandError (Goes.branch hk.raiseOut (hf _))

theorem Keeps.accept {site : Nat} {c : MatCmd} (hk : Keeps u s₀ s) : Keeps u s₀ (s.accept site c).2 := hk.setTile

theorem Keeps.noteCmd {eng site tag : Nat} (hk : Keeps u s₀ s) : Keeps u s₀ (s.noteCmd eng site tag) := hk.setMe

theorem Keeps.acceptOut {rd : Reg} {eng : Nat} {c : MatCmd} (hk : Keeps u s₀ s) : Goes u s₀ (acceptOut s rd eng c) :=
  Goes.branch hk.blockOn hk.accept.noteCmd.writeReg

theorem Keeps.execMma {store decay zero : Bool} {rd : Reg} {acc : BitVec 3} {rs1 rs2 : Reg} (hk : Keeps u s₀ s) :
    Goes u s₀ (execMma store decay zero rd acc rs1 rs2 s) := by
  unfold Machine.execMma
  refine hk.matIssue fun _ => ?_
  split
  · exact hk.raiseOut
  · split
    · exact hk.raiseOut
    · exact hk.acceptOut

theorem Keeps.floeNext {p : Nat} (hk : Keeps u s₀ s) : Keeps u s₀ (s.floeNext p) := by
  unfold State.floeNext
  split
  · exact hk
  · split
    · exact Keeps.branch hk (hk.setPart.foldl (fun _ _ hv => hv.accept))
    · exact hk

theorem Keeps.nextTag (hk : Keeps u s₀ s) : Keeps u s₀ s.nextTag.2 := hk.setTile

theorem Keeps.giveResult {site : Nat} {r : Option EngResult} {tag : Nat} (hk : Keeps u s₀ s) : Keeps u s₀ (s.giveResult site r tag) := by
  unfold State.giveResult
  split
  · exact hk.setTile
  · exact hk

theorem Keeps.execFmma {store decay zero : Bool} {rd : Reg} {acc : BitVec 3} {rs1 rs2 : Reg} (hk : Keeps u s₀ s) :
    Goes u s₀ (execFmma store decay zero rd acc rs1 rs2 s) := by
  unfold Machine.execFmma
  refine hk.matIssue fun _ => ?_
  split
  · exact hk.operandError
  · exact hk.nextTag.giveResult.noteCmd.writeReg
  · exact Goes.branch hk.blockOn hk.nextTag.setPart.noteCmd.floeNext.writeReg

theorem Keeps.execMcmd {store decay zero : Bool} {cap : BitVec 2} {acc : BitVec 3} {rs1 rs2 : Reg} (hk : Keeps u s₀ s) :
    Goes u s₀ (execMcmd store decay zero cap acc rs1 rs2 s) := by
  unfold Machine.execMcmd
  exact hk.matIssue fun _ => hk.takeSeq.emit.noteCmd.retire.goes

theorem Keeps.setAccRows {site acc : Nat} {w : List (List Nat)} (hk : Keeps false s₀ s) : Keeps false s₀ (s.setAccRows site acc w) :=
  hk.withMem fun h => Memory.wf_writeN _ _ h

theorem Keeps.ksteps {g : Geom} {c : MatCmd} {n k : Nat} {w : List (List Nat)} (hk : Keeps u s₀ s) : Keeps u s₀ (s.ksteps g c n k w).2 :=
  hk.ofCaches (ksteps_caches g c n k w s)

theorem Keeps.snapshot {site : Nat} {r : MatRun} (hk : Keeps u s₀ s) : Keeps u s₀ (s.snapshot site r).2.2 := by
  unfold State.snapshot
  extract_lets w
  split
  · exact hk
  · split
    split
    next heq =>
      have hv := Keeps.ofSnd hk.free heq
      extract_lets n
      clear_value n
      split
      · exact hv
      · split
        next heq => exact Keeps.ofSnd hv.ksteps heq

theorem Keeps.execAccrd {rd : Reg} {acc : BitVec 3} {rs1 rs2 : Reg} (hk : Keeps u s₀ s) : Goes u s₀ (execAccrd rd acc rs1 rs2 s) := by
  unfold Machine.execAccrd
  refine Goes.branch ?_ ?_
  · exact hk.raiseOut
  · split
    · exact hk.operandError
    · split
      · exact hk.raiseOut
      · refine Goes.branch ?_ ?_
        · exact hk.raiseOut
        · refine Goes.branch ?_ ?_
          · exact hk.blockOn
          · refine Keeps.writeReg (Keeps.putMem ?_)
            split
            · exact hk.snapshot
            · exact hk

theorem Keeps.accAddress {a : Word} {k : AccKind} {n : Nat} {far : Bool} {o : Out} (hk : Keeps u s₀ s) (ho : Goes u s₀ o) :
    Goes u s₀ (accAddress s a k n far o) := by
  unfold Machine.accAddress
  refine Goes.branch hk.raiseOut ?_
  split
  · exact hk.raiseOut
  · exact Goes.branch hk.raiseOut ho
  · exact Goes.branch ho hk.operandError

theorem Keeps.execAccwr {rd : Reg} {acc : BitVec 3} {rs1 rs2 : Reg} (hk : Keeps u s₀ s) : Goes u s₀ (execAccwr rd acc rs1 rs2 s) := by
  unfold Machine.execAccwr
  split
  · exact hk.operandError
  · exact hk.accAddress hk.acceptOut

/-! ### On-chip windows -/

theorem Keeps.installCap {core : Nat} {c : Cap} (hk : Keeps false s₀ s) (h : s.installCap core c = some t) : Keeps false s₀ t := by
  obtain ⟨_, _, rfl⟩ := Option.map_eq_some_iff.1 h
  exact hk.setCore

theorem Keeps.setHeld {p rid held : Nat} (hk : Keeps false s₀ s) : Keeps false s₀ (s.setHeld p rid held) := by
  unfold State.setHeld
  exact hk.withMem (Memory.wf_writeN _ _)

theorem Keeps.restCap {p : Nat} {c : Cap} (hk : Keeps false s₀ s) : Keeps false s₀ (s.restCap p c) := Keeps.branch hk.setHeld hk

theorem Keeps.regionWrite {p rid w0 w1 : Nat} (hk : Keeps false s₀ s) : Keeps false s₀ (s.regionWrite p rid w0 w1) := by
  unfold State.regionWrite
  extract_lets gen base holder cap k v
  have hv : Keeps false s₀ v := hk.dropTlb
  clear_value v
  have hput {w : State} (n : Nat) (hw : Keeps false s₀ w) : Keeps false s₀
      { w with mem := Memory.writeN (Memory.writeN w.mem k (bytesOf 8 (base + bitsN w0 5 0))) (k + 8)
                 (bytesOf 8 (regionWord gen holder n (bitsN w1 1 0))) } :=
    hw.withMem fun h => Memory.wf_writeN _ _ (Memory.wf_writeN _ _ h)
  split
  next held w heq =>
    refine hput held ?_
    split at heq
    · split at heq
      · next hcap =>
        obtain ⟨_, _, hcap⟩ := Option.bind_eq_some_iff.1 hcap
        cases heq
        exact hv.installCap hcap
      · cases heq
        exact hv
    · cases heq
      exact hv

theorem Keeps.runRead {w : Window} {r : WinRun} (hk : Keeps false s₀ s) : Keeps false s₀ (s.runRead w r).2 := by
  unfold State.runRead
  dsimp only
  split
  · exact hk
  · split
    · exact hk
    · exact hk
    · exact hk
    · exact hk
    · exact hk
    · exact hk.frame

theorem Keeps.winRead {w : Window} {o n : Nat} (hk : Keeps false s₀ s) : Keeps false s₀ (s.winRead w o n).2 := by
  unfold State.winRead
  split
  · exact hk
  · exact Keeps.foldlSnd (v := ([], s)) (fun _ _ h => Keeps.runRead h) hk

theorem Keeps.runWrite {w : Window} {r : WinRun} {bs : List Byte} {b : Bool} (hk : Keeps false s₀ s) (h : s.runWrite w r bs = some (b, t)) :
    Keeps false s₀ t := by
  have hput {k : Nat} : Keeps false s₀ { s with mem := Memory.writeN s.mem k bs } := hk.withMem (Memory.wf_writeN _ _)
  unfold State.runWrite at h
  extract_lets at_ at h
  split at h
  · split at h
    · cases h
      exact hput
    · extract_lets at h
      split at h <;> cases h
      exact Keeps.dropTlb hput
    · split at h
      · cases h
      · extract_lets at h
        split at h <;> cases h
        exact hk.foldl fun _ _ hv => hv.regionWrite
  · split at h
    · split at h <;> cases h
      · exact hk
      · exact hput
    · extract_lets at h
      split at h
      · cases h
        exact hk
      · split at h <;> cases h
        · exact hk.putThread
        · exact hk.putThread
    · cases h
      exact hk.setCore
    · extract_lets at h
      split at h <;> cases h
      exact hk.setCore
    · extract_lets at h
      split at h <;> cases h
      exact hk.setTile
    · cases h
      exact hk.putEngine

theorem Keeps.runsWrite {w : Window} {o : Nat} {bs : List Byte} {l : List WinRun} {b b' : Bool} (hk : Keeps false s₀ s) (h : s.runsWrite w
    o bs l b = some (b', t)) :
    Keeps false s₀ t := by
  induction l generalizing s b with
  | nil =>
    cases h
    exact hk
  | cons r rest ih =>
    unfold State.runsWrite at h
    split at h
    · cases h
    · next heq => exact ih (hk.runWrite heq) h

theorem Keeps.winWrite {w : Window} {control : Bool} {o : Nat} {bs : List Byte} (hk : Keeps false s₀ s) :
    Keeps false s₀ (s.winWrite w control o bs).2 := by
  unfold State.winWrite
  split
  · exact hk
  · refine Keeps.branchSnd hk ?_
    split
    · exact hk
    · next heq =>
      have hv := hk.runsWrite heq
      split
      · exact Keeps.branchSnd hk hv
      · exact hv

theorem Keeps.logWindow {site part : Nat} {w : Window} {a : Nat} {bs : List Byte} (hk : Keeps false s₀ s) :
    Keeps false s₀ (s.logWindow site part w a bs) := by
  unfold State.logWindow
  split
  · exact Keeps.branch hk (hk.foldl (fun _ _ hv => hv.log))
  · exact hk

/-! ### The copy engine -/

theorem Keeps.startXfer {x : Xfer} {ch : Nat} (hk : Keeps u s₀ s) : Keeps u s₀ (s.startXfer x ch).2 := hk.setTile

theorem Keeps.xferIssue {op : XferOp} {rd rs1 : Reg} (hk : Keeps u s₀ s) : Goes u s₀ (xferIssue s op rd rs1) := by
  unfold Machine.xferIssue
  refine hk.blockThen fun _ => ?_
  extract_lets mc p x
  refine Goes.branch hk.operandError ?_
  split
  · exact hk.raiseOut
  · exact hk.raiseOut
  · refine Goes.branch hk.raiseOut (Goes.branch hk.operandError (Goes.branch hk.raiseOut ?_))
    split
    · exact hk.raiseOut
    · split
      · exact hk.blockOn
      · split
        next heq =>
          have hv := (Keeps.branchSnd hk hk.takeSeq).ofSnd heq
          exact (Keeps.branch hv hv.countSent).startXfer.noteCmd.writeReg

theorem Keeps.setXfer {site ch : Nat} {x : Option Xfer} (hk : Keeps false s₀ s) : Keeps false s₀ (s.setXfer site ch x) := hk.setTile

theorem Keeps.xferReport {site : Nat} {x : Xfer} {a0 : Word} {cause : Nat} {a4 : Word} {a : Nat} (hk : Keeps false s₀ s) :
    Keeps false s₀ (s.xferReport site x a0 cause a4 a) :=
  hk.report

theorem Keeps.finishXfer {site ch : Nat} {x : Xfer} {cause addr : Nat} (hk : Keeps false s₀ s) :
    Keeps false s₀ (s.finishXfer site ch x cause addr) := by
  unfold State.finishXfer
  refine Keeps.branch ?_ ?_
  · refine Keeps.engineMsg ?_
    split
    · exact Keeps.xferReport (Keeps.branch hk.setTile hk.setTile.xferReport)
    · exact Keeps.branch hk.setTile hk.setTile.xferReport
  · refine Keeps.branch ?_ ?_
    · split
      · exact Keeps.xferReport (Keeps.branch hk.setTile hk.setTile.xferReport)
      · exact Keeps.branch hk.setTile hk.setTile.xferReport
    · refine Keeps.countRecv ?_
      split
      · exact Keeps.xferReport (Keeps.branch hk.setTile hk.setTile.xferReport)
      · exact Keeps.branch hk.setTile hk.setTile.xferReport

theorem Keeps.parkXfer {site ch : Nat} {x : Xfer} {a : Nat} (hk : Keeps false s₀ s) : Keeps false s₀ (s.parkXfer site ch x a) :=
  hk.setXfer.engFault

theorem Keeps.xferRead {site : Nat} {x : Xfer} {a n : Nat} (hk : Keeps false s₀ s) : Keeps false s₀ (s.xferRead site x a n).2 := by
  unfold State.xferRead
  refine Keeps.branchSnd ?_ ?_
  · split
    · exact hk
    · refine Keeps.branchSnd ?_ ?_
      · exact hk
      · refine Keeps.branchSnd ?_ ?_
        · exact hk
        · split
          · next heq =>
              exact hk.winRead.ofSnd heq
          · next heq =>
              exact hk.winRead.ofSnd heq
  · exact hk.engRead

theorem Keeps.holdPiece {site piece a : Nat} {x : Xfer} {bs : List Byte} {missing : Bool} (hk : Keeps false s₀ s) (h : s.holdPiece site x
    piece a bs missing = some t) :
    Keeps false s₀ t := by
  unfold State.holdPiece at h
  split at h
  · cases h
  · cases h
    exact Keeps.branch hk.emit.faultFor hk.emit

theorem Keeps.pieceWrite {site piece a : Nat} {x : Xfer} {bs : List Byte} (hk : Keeps false s₀ s) :
    Keeps false s₀ (s.pieceWrite site x piece a bs).2.2 := by
  unfold State.pieceWrite
  extract_lets hold
  have hhold {v : State} {missing : Bool} (hv : Keeps false s₀ v) : Keeps false s₀ (hold v missing).2.2 := by
    unfold hold
    split
    · next heq => exact hv.holdPiece heq
    · exact hv
  clear_value hold
  split
  · exact hhold hk
  · split
    · next heq => exact Keeps.ofSnd hk.engWrite heq
    · next heq =>
      have hv := Keeps.ofSnd hk.engWrite heq
      split
      · exact hhold hv
      · exact hv
    · next heq => exact Keeps.ofSnd hk.engWrite heq

theorem Keeps.linePieces {site n i j : Nat} {d : Word} {l : List (Nat × List Byte)} {x : Xfer} (hk : Keeps false s₀ s) :
    Keeps false s₀ (s.linePieces site n i d l j x).2.2 := by
  induction l generalizing s j x with
  | nil => exact hk
  | cons y rest ih =>
    obtain ⟨a, bs⟩ := y
    have hw := hk.pieceWrite (site := site) (piece := 2 * n + j) (a := a) (x := x) (bs := bs)
    unfold State.linePieces
    split
    · next heq =>
      rw [heq] at hw
      exact ih hw
    · next heq =>
      rw [heq] at hw
      split
      next heq => exact ih (Keeps.ofSnd hw.deny heq)
    · next heq =>
      rw [heq] at hw
      exact hw

theorem Keeps.oneLine {site n : Nat} {x : Xfer} (hk : Keeps false s₀ s) : Keeps false s₀ (s.oneLine site x n).2.2 := by
  unfold State.oneLine
  extract_lets i off len d
  split
  · next heq => exact Keeps.ofSnd hk.xferRead heq
  · next heq =>
    have hv := Keeps.ofSnd hk.xferRead heq
    split
    · next heq => exact Keeps.ofSndSnd hv.linePieces heq
    · exact hv.linePieces

theorem Keeps.logBlocks {site : Nat} {x : Xfer} {l : List Nat} (hk : Keeps false s₀ s) : Keeps false s₀ (s.logBlocks site x l) :=
  Keeps.branch (hk.foldl (fun _ _ hv => hv.log)) hk

theorem Keeps.moveLines {site ch : Nat} {l : List Nat} {x : Xfer} (hk : Keeps false s₀ s) : Keeps false s₀ (s.moveLines site ch l x).2 := by
  induction l generalizing s x with
  | nil => exact hk.setXfer
  | cons n rest ih =>
    unfold State.moveLines
    split
    · next heq => exact ih (Keeps.ofSndSnd hk.oneLine heq)
    · next heq => exact (Keeps.ofSndSnd hk.oneLine heq).parkXfer
    · next heq => exact (Keeps.ofSndSnd hk.oneLine heq).finishXfer
    · next heq => exact (Keeps.ofSndSnd hk.oneLine heq).setXfer

theorem Keeps.stopRead {site ch : Nat} {x : Xfer} {cause a : Nat} (hk : Keeps false s₀ s) : Keeps false s₀ (s.stopRead site ch x cause a) :=
  Keeps.branch hk.parkXfer (Keeps.branch hk.setXfer hk.finishXfer)

theorem Keeps.chipChunk {site ch : Nat} {x : Xfer} (hk : Keeps false s₀ s) : Keeps false s₀ (s.chipChunk site ch x) := by
  unfold State.chipChunk
  extract_lets first n off len d
  split
  · next heq => exact (Keeps.ofSnd hk.xferRead heq).stopRead
  · next heq =>
    have hv := Keeps.ofSnd hk.xferRead heq
    split
    · exact hv.finishXfer
    · refine Keeps.branch hv.setXfer ?_
      extract_lets control stop good
      clear_value stop
      split
      · next heq =>
        have hw := (Keeps.branchSnd hv hv.winWrite).ofSnd heq
        cases stop
        · exact hw.logWindow.setXfer
        · exact hw.logWindow.finishXfer
      · next heq => exact ((Keeps.branchSnd hv hv.winWrite).ofSnd heq).finishXfer
      · next heq => exact ((Keeps.branchSnd hv hv.winWrite).ofSnd heq).finishXfer

theorem Keeps.depositChunk {site ch : Nat} {x : Xfer} (hk : Keeps false s₀ s) : Keeps false s₀ (s.depositChunk site ch x) := by
  unfold State.depositChunk
  split
  · next heq =>
      exact (hk.engRead.ofSnd heq).stopRead
  · next heq =>
      exact (hk.engRead.ofSnd heq).emit.setXfer

theorem Keeps.chunkAgain {site ch part : Nat} (hk : Keeps false s₀ s) : Keeps false s₀ (s.chunkAgain site ch part) := by
  unfold State.chunkAgain
  split
  · exact Keeps.branch hk.setTile.setXfer hk
  · exact hk

theorem Keeps.execEngineChunk {site ch : Nat} {lines : List Nat} (hk : Keeps false s₀ s) :
    Goes false s₀ (execEngineChunk site ch lines s) := by
  unfold Machine.execEngineChunk
  split
  · exact hk.goes
  · refine Goes.branch ?_ ?_
    · exact hk.goes
    · refine Goes.branch ?_ ?_
      · exact hk.setXfer.goes
      · refine Goes.branch ?_ ?_
        · exact hk.goes
        · dsimp only
          split
          · exact hk.noteChunk.depositChunk.chunkAgain.goes
          · exact Goes.branch hk.noteChunk.chipChunk.chunkAgain.goes hk.noteChunk.moveLines.logBlocks.chunkAgain.goes

theorem Keeps.execChunkRetry {site ch : Nat} (hk : Keeps false s₀ s) : Goes false s₀ (execChunkRetry site ch s) := by
  unfold Machine.execChunkRetry
  split
  · exact Goes.branch hk.setXfer.goes hk.goes
  · exact hk.goes

theorem Keeps.arriveAt {site i a len : Nat} {x : Xfer} (hk : Keeps false s₀ s) : Keeps false s₀ (s.arriveAt site x i a len).2 := by
  unfold State.arriveAt
  extract_lets w home d
  clear_value w home d
  split
  · exact hk.xferReport.snd
  · split
    · exact hk.arrive.snd
    · exact hk.xferReport.snd
  · refine Keeps.branchSnd hk ?_
    split
    · next heq =>
      have hv := Keeps.ofSnd hk.resolve heq
      exact Keeps.branchSnd hv.xferReport.snd hv.arrive.takeLine.logWrite.snd
    · next heq =>
      have hv := Keeps.ofSnd hk.resolve heq
      exact Keeps.branchSnd hv (Keeps.branch hv.record6 hv).xferReport.snd

theorem Keeps.arriveAll {site : Nat} {x : Xfer} {l : List (Nat × Word)} (hk : Keeps false s₀ s) :
    Keeps false s₀ (s.arriveAll site x l).2 := by
  induction l generalizing s with
  | nil => exact hk
  | cons y rest ih =>
    unfold State.arriveAll
    split
    · next heq => exact Keeps.ofSnd hk.arriveAt heq
    · next heq => exact ih (Keeps.ofSnd hk.arriveAt heq)

theorem Keeps.execTransferComplete {site ch : Nat} (hk : Keeps false s₀ s) : Goes false s₀ (execTransferComplete site ch s) := by
  unfold Machine.execTransferComplete
  split
  · exact hk.goes
  · refine Goes.branch ?_ ?_
    · exact hk.goes
    · refine Goes.branch ?_ ?_
      · exact hk.finishXfer.goes
      · dsimp only
        split
        · next heq =>
            exact hk.parkXfer.goes
        · next heq =>
            exact (hk.arriveAll.ofSnd heq).finishXfer.goes

theorem Keeps.onTransfer {i : Item} {num site : Nat} {f : Xfer → Xfer} (hk : Keeps false s₀ s) :
    Keeps false s₀ (s.onTransfer i num site f) :=
  hk.setTile.frame

theorem Keeps.offerLine {i : Item} {a : Nat} {bs : List Byte} {red num piece site : Nat} (hk : Keeps false s₀ s) :
    Keeps false s₀ (s.offerLine i a bs red num piece site) := by
  unfold State.offerLine
  dsimp only
  split
  · next heq =>
      exact (hk.engPut.ofSnd heq).dropItem.onTransfer
  · next heq =>
      exact Keeps.onTransfer (Keeps.dropItem (Keeps.branch ((hk.engPut.ofSnd heq).record6) (hk.engPut.ofSnd heq)))
  · next heq =>
      exact Keeps.branch ((hk.engPut.ofSnd heq).setStage) ((hk.engPut.ofSnd heq).setStage.faultFor)
  · next heq =>
      exact (hk.engPut.ofSnd heq).dropItem.refusePosted.onTransfer
  · next heq =>
      exact hk.engPut.ofSnd heq
  · next heq =>
      exact hk.engPut.ofSnd heq

theorem Keeps.depositDone {site ch : Nat} {ans : Landed} (hk : Keeps false s₀ s) : Keeps false s₀ (s.depositDone site ch ans) := by
  unfold State.depositDone
  split
  · exact hk
  · split
    · exact hk.setXfer
    · exact hk.setXfer
    · exact hk.setXfer
    · exact hk.finishXfer
    · exact hk.parkXfer
    · exact hk

theorem Keeps.slotPieces {i : Item} {base n : Nat} {l : List (Nat × List Byte)} {d : List (Nat × Nat × Nat)} (hk : Keeps false s₀ s) :
    Keeps false s₀ (s.slotPieces i base l d n).2 := by
  induction l generalizing s d n with
  | nil => exact hk
  | cons x rest ih =>
    unfold State.slotPieces
    split
    · split
      · next heq => exact ih (Keeps.ofSnd hk.resolve heq).putEngine
      · next heq =>
        have hv := Keeps.ofSnd hk.resolve heq
        refine Keeps.branchSnd hv (Keeps.branchSnd ?_ hv)
        split
        next heq => exact ih (Keeps.ofSnd hv.deny heq)
    · split
      · split
        · exact ih hk.putEngine
        · exact hk
      · exact hk

theorem Keeps.deposit {i : Item} {a slot key : Nat} {bs : List Byte} {home : Dest} (hk : Keeps false s₀ s) :
    Keeps false s₀ (s.deposit i a slot bs key home).2 := by
  unfold State.deposit
  extract_lets w0 k filled bytes
  refine Keeps.branchSnd hk.report ?_
  split
  · next heq =>
    have hv := Keeps.ofSnd hk.slotPieces heq
    exact Keeps.branchSnd hv.putNum.homeMsg hv.putNum
  · exact hk.slotPieces

theorem Keeps.noteDeposit {i : Item} {home : Dest} (hk : Keeps false s₀ s) : Keeps false s₀ (s.noteDeposit i home) := by
  unfold State.noteDeposit
  split
  · exact hk.setTile.log
  · exact hk.setAgent
  · exact hk

theorem Keeps.depositOnce {i : Item} {a slot : Nat} {bs : List Byte} {key : Nat} {home : Dest} (hk : Keeps false s₀ s) :
    Keeps false s₀ (s.depositOnce i a slot bs key home).2 := by
  unfold State.depositOnce
  refine Keeps.branchSnd ?_ ?_
  · exact hk
  · split
    · next heq =>
        exact hk
    · next heq =>
        exact (hk.deposit.ofSnd heq).noteDeposit

theorem Keeps.offerDeposit {i : Item} {a slot : Nat} {bs : List Byte} (hk : Keeps false s₀ s) :
    Keeps false s₀ (s.offerDeposit i a slot bs).2 := by
  unfold State.offerDeposit
  dsimp only
  refine Keeps.branchSnd ?_ ?_
  · exact hk
  · split
    · split
      · exact hk.depositOnce
      · exact hk
    · split
      · next heq =>
          exact (hk.resolve.ofSnd heq).depositOnce
      · next heq =>
          exact hk.resolve.ofSnd heq

theorem Keeps.execDeposit {k : Nat} (hk : Keeps false s₀ s) : Goes false s₀ (execDeposit k s) := by
  unfold Machine.execDeposit
  split
  · exact hk.goes
  · split
    · refine Goes.branch ?_ ?_
      · exact hk.goes
      · refine (Keeps.depositDone ?_).goes
        split
        · exact hk.dropItem.offerDeposit.record6
        · exact hk.dropItem.offerDeposit
    · exact hk.goes

/-! ### The issue port -/

theorem Keeps.passTurn {h : Nat} (hk : Keeps false s₀ s) : Keeps false s₀ (s.passTurn h) := hk.putThread

theorem Keeps.issueAs {h : Nat} (hk : Keeps false s₀ s) : Keeps false s₀ (s.issueAs h) := hk.setCore.part

/-! ### TLBINV, CHKPT and SELFREPORT -/

theorem Keeps.execTlbinv {rs1 rs2 : Reg} (hk : Keeps u s₀ s) : Goes u s₀ (execTlbinv rs1 rs2 s) := by
  unfold Machine.execTlbinv
  split
  · exact hk.retire.goes
  · exact Goes.branch hk.operandError (Goes.branch hk.blockOn (Goes.branch hk.retire.goes hk.blockOn))

theorem Keeps.wakeRange {p base size : Nat} (hk : Keeps false s₀ s) : Keeps false s₀ (s.wakeRange p base size) := hk.setPart

theorem Keeps.execInvalidationAcknowledgement {hart : Nat} (hk : Keeps false s₀ s) :
    Goes false s₀ (execInvalidationAcknowledgement hart s) := by
  unfold Machine.execInvalidationAcknowledgement
  dsimp only
  split
  · exact Goes.branch hk.goes hk.dropTlb.wakeRange.putThread.goes
  · exact hk.goes

theorem Keeps.sendNotice {n : Notice} (hk : Keeps u s₀ s) : Keeps u s₀ (s.sendNotice n) := hk.emit

theorem Keeps.execChkpt {rd rs1 : Reg} (hk : Keeps u s₀ s) : Goes u s₀ (execChkpt rd rs1 s) := by
  unfold Machine.execChkpt
  refine Goes.branch ?_ ?_
  · exact (Keeps.retire (Keeps.branch hk.wx.setTile hk.wx)).goes
  · split
    · exact hk.operandError
    · refine Goes.branch ?_ ?_
      · exact hk.blockOn
      · refine Goes.branch ?_ ?_
        · exact (Keeps.retire (Keeps.branch hk.wx.takeSeq.countSent.setTile.setTile hk.wx.takeSeq.countSent.setTile)).goes
        · exact hk.wx.takeSeq.countSent.sendNotice.retire.goes

theorem Keeps.stopTile {site cause : Nat} (hk : Keeps u s₀ s) : Keeps u s₀ (s.stopTile site cause) := Keeps.branch hk hk.setTile

theorem Keeps.record9 {code : Word} (hk : Keeps u s₀ s) : Keeps u s₀ (s.record9 code) := by
  unfold State.record9
  exact hk.record

theorem Keeps.askScan {core : Nat} (hk : Keeps u s₀ s) : Keeps u s₀ (s.askScan core) := Keeps.branch hk hk.setCore

theorem Keeps.selfreport {rs1 rs2 : Reg} (hk : Keeps u s₀ s) : Goes u s₀ (selfreport s rs1 rs2) := by
  unfold Machine.selfreport
  refine Goes.branch ?_ ?_
  · exact Goes.branch hk.operandError hk.askScan.retire.goes
  · refine Goes.branch ?_ ?_
    · exact Goes.branch hk.operandError hk.retire.stopTile.goes
    · exact Goes.branch hk.record9.retire.goes hk.operandError

/-! ### The core scheduler -/

theorem Keeps.startMsg {h : Nat} {m : Msg} {hd : Handler} (hk : Keeps false s₀ s) : Keeps false s₀ (s.startMsg h m hd) :=
  Keeps.putThread (Keeps.branch hk.putMem hk)

theorem Keeps.startFrame {h : Nat} {f : Frame} (hk : Keeps false s₀ s) : Keeps false s₀ (s.startFrame h f) := hk.putThread

theorem Keeps.logStart {h : Nat} (hk : Keeps false s₀ s) : Keeps false s₀ (s.logStart h) := Keeps.branch hk hk.log

theorem Keeps.fillThread {core h : Nat} (hk : Keeps false s₀ s) (hfill : s.fillThread core h = some t) : Keeps false s₀ t := by
  unfold State.fillThread at hfill
  extract_lets c at hfill
  split at hfill
  · split at hfill <;> cases hfill
    exact hk.setCore.startMsg.logStart
  · split at hfill <;> cases hfill
    exact hk.setCore.startFrame.logStart

theorem Keeps.askVictim {core : Nat} {l : List Nat} (hk : Keeps false s₀ s) : Keeps false s₀ (s.askVictim core l) := by
  unfold State.askVictim
  split
  · exact hk.setCore
  · exact hk.setCore.emit

theorem Keeps.beginSteal {core : Nat} (hk : Keeps false s₀ s) : Keeps false s₀ (s.beginSteal core) :=
  Keeps.branch hk (Keeps.branch hk.setCore.emit hk.askVictim)

theorem Keeps.fillCore {core : Nat} (hk : Keeps false s₀ s) : Keeps false s₀ (s.fillCore core) := by
  unfold State.fillCore
  split
  · exact hk
  · split
    · next heq =>
        exact (hk.fillThread heq).setCore
    · exact hk.beginSteal

theorem Keeps.grant {core : Nat} (hk : Keeps false s₀ s) : Keeps false s₀ (s.grant core).2 := by
  unfold State.grant
  dsimp only
  split
  · exact Keeps.branchSnd hk hk.log.setCore
  · exact hk

theorem Keeps.execStealRequest {k : Nat} (hk : Keeps false s₀ s) : Goes false s₀ (execStealRequest k s) := by
  unfold Machine.execStealRequest
  split
  · exact hk.goes
  · split
    · refine Goes.branch ?_ ?_
      · exact hk.goes
      · split
        · exact hk.dropItem.emit.goes
        · refine Goes.branch ?_ ?_
          · exact hk.goes
          · refine (Keeps.emit ?_).goes
            split
            · exact hk.dropItem.grant.countSent
            · exact hk.dropItem.grant
    · exact hk.goes

theorem Keeps.stolen {core : Nat} {f : Frame} (hk : Keeps false s₀ s) : Keeps false s₀ (s.stolen core f) :=
  hk.countRecv.log.pushFrame.setCore

theorem Keeps.execStealAnswer {k : Nat} (hk : Keeps false s₀ s) : Goes false s₀ (execStealAnswer k s) := by
  unfold Machine.execStealAnswer
  split
  · exact hk.goes
  · split
    · split
      · exact hk.dropItem.goes
      · refine Goes.branch ?_ ?_
        · exact hk.goes
        · dsimp only
          split
          · exact hk.dropItem.stolen.goes
          · exact Goes.branch hk.dropItem.askVictim.goes hk.dropItem.setCore.goes
    · exact hk.goes

theorem Keeps.execStealSweepWait {site core : Nat} (hk : Keeps false s₀ s) : Goes false s₀ (execStealSweepWait site core s) := by
  unfold Machine.execStealSweepWait
  dsimp only
  split
  · exact Goes.branch (Goes.branch hk.setCore.beginSteal.goes hk.setCore.goes) hk.goes
  · exact hk.goes

theorem Keeps.execBudgetOverrun {hart : Nat} (hk : Keeps false s₀ s) : Goes false s₀ (execBudgetOverrun hart s) :=
  Goes.branch hk.abort.goes hk.goes

theorem Keeps.releaseJob {p j : Nat} (hk : Keeps false s₀ s) : Keeps false s₀ (s.releaseJob p j) := Keeps.branch hk hk.setPart

theorem Keeps.execTerminationWave {part job : Nat} (hk : Keeps false s₀ s) : Goes false s₀ (execTerminationWave part job s) := by
  unfold Machine.execTerminationWave
  dsimp only
  split
  · exact hk.goes
  · refine Goes.branch ?_ ?_
    · exact hk.goes
    · exact Goes.branch hk.setPart.goes (Goes.branch hk.setPart.frame.releaseJob.goes hk.setPart.goes)

/-! ### Egress -/

theorem Keeps.countWindow {p : Nat} {w : Option Nat} (hk : Keeps false s₀ s) : Keeps false s₀ (s.countWindow p w) := by
  unfold State.countWindow
  split
  · exact hk
  · exact hk.setPart

theorem Keeps.sigRead {p : Nat} {a : Word} (hk : Keeps false s₀ s) : Keeps false s₀ (s.sigRead p a).2 := by
  unfold State.sigRead
  refine Keeps.branchSnd ?_ ?_
  · exact hk
  · refine Keeps.branchSnd ?_ ?_
    · exact hk
    · refine Keeps.branchSnd ?_ ?_
      · split
        · split
          · next heq =>
              exact hk.winRead.ofSnd heq
          · next heq =>
              exact hk.winRead.ofSnd heq
        · exact hk
      · split
        · next heq =>
            exact hk.readAll.ofSnd heq
        · next heq =>
            exact hk.readAll.ofSnd heq

theorem Keeps.sigRefused {p : Nat} {mid a : Word} (hk : Keeps false s₀ s) : Keeps false s₀ (s.sigRefused p mid a).2 := by
  unfold State.sigRefused
  dsimp only
  exact hk.record6

theorem Keeps.sigUpdate {p : Nat} {mid a : Word} {f : Nat → Nat} (hk : Keeps false s₀ s) : Keeps false s₀ (s.sigUpdate p mid a f).2 := by
  unfold State.sigUpdate
  refine Keeps.branchSnd hk.putNum (Keeps.branchSnd ?_ ?_)
  · split
    · exact hk.sigRefused
    · split
      · next heq =>
        have hv := Keeps.ofSnd hk.winRead heq
        extract_lets new
        split
        · next heq =>
          have hw := Keeps.ofSnd hv.winWrite heq
          dsimp only
          exact hw.logWindow
        · next heq => exact (Keeps.ofSnd hv.winWrite heq).sigRefused
      · next heq => exact (Keeps.ofSnd hk.winRead heq).sigRefused
  · split
    · next heq =>
      have hv := Keeps.ofSnd hk.resolve heq
      refine Keeps.branchSnd hv ?_
      dsimp only
      exact hv.putNum.logWrite
    · next heq =>
      have hv := Keeps.ofSnd hk.resolve heq
      exact Keeps.branchSnd hv.sigRefused hv

theorem Keeps.setPacket {id : Nat} {st : PStage} (hk : Keeps false s₀ s) : Keeps false s₀ (s.setPacket id st) := hk.frame

theorem Keeps.readSignals {p : Nat} {l : List Word} (hk : Keeps false s₀ s) : Keeps false s₀ (s.readSignals p l).2 := by
  induction l generalizing s with
  | nil => exact hk
  | cons a rest ih =>
    unfold State.readSignals
    split
    next heq => exact ih (Keeps.ofSnd hk.sigRead heq)

theorem Keeps.evaluate {t : Taken} (hk : Keeps false s₀ s) : Keeps false s₀ (s.evaluate t).2 :=
  Keeps.branchSnd hk.readSignals.setPacket hk.readSignals

theorem Keeps.signalChanged {p : Nat} {a : Word} (hk : Keeps false s₀ s) : Keeps false s₀ (s.signalChanged p a) :=
  Keeps.branch hk (hk.foldl (fun _ _ hv => hv.evaluate))

theorem Keeps.setPort {k : Nat} {p : Port} (hk : Keeps false s₀ s) : Keeps false s₀ (s.setPort k p) := hk.frame

theorem Keeps.transmit {port : Nat} {f : Flit} (hk : Keeps false s₀ s) : Keeps false s₀ (s.transmit port f) := hk.setPort.frame

theorem Keeps.manageOut {p dev : Nat} {slot : List Word} (hk : Keeps false s₀ s) : Keeps false s₀ (s.manageOut p dev slot) := by
  unfold State.manageOut
  split
  · exact hk.transmit
  · exact hk

theorem Keeps.returnPeer {i : Item} {dev cause : Nat} (hk : Keeps false s₀ s) : Keeps false s₀ (s.returnPeer i dev cause) :=
  hk.frame.manageOut

theorem Keeps.leavePort {i : Item} {m : Msg} {d : Nat} (hk : Keeps false s₀ s) : Keeps false s₀ (s.leavePort i m d).2 := by
  unfold State.leavePort
  split
  · exact hk.frame
  · exact Keeps.branchSnd hk.frame.transmit hk

theorem Keeps.noteHost {i : Item} (hk : Keeps false s₀ s) : Keeps false s₀ (s.noteHost i) := Keeps.branch hk hk.frame

theorem Keeps.leaveOut {i : Item} (hk : Keeps false s₀ s) : Keeps false s₀ (s.leaveOut i).2 := by
  unfold State.leaveOut
  split
  · exact Keeps.branchSnd hk hk.noteHost.putMem.sawHost
  · refine Keeps.branchSnd ?_ ?_
    · exact hk.frame
    · exact Keeps.branch hk.sigUpdate.sawHost (Keeps.branch hk.sigUpdate.signalChanged hk.sigUpdate)
  · exact Keeps.branchSnd hk hk.frame
  · exact hk.leavePort
  · exact hk

theorem Keeps.leave {i : Item} (hk : Keeps false s₀ s) : Keeps false s₀ (s.leave i) := hk.leaveOut

theorem Keeps.leaveExposed {i : Item} {w : Option Nat} (hk : Keeps false s₀ s) : Keeps false s₀ (s.leaveExposed i w) := by
  unfold State.leaveExposed
  split
  · next heq =>
      exact (hk.leaveOut.ofSnd heq).countWindow
  · next heq =>
      exact hk.leaveOut.ofSnd heq

theorem Keeps.depart {site : Nat} {i : Item} {dest : Nat} {range : Option (Nat × Nat)} (hk : Keeps false s₀ s) :
    Keeps false s₀ (s.depart site i dest range) :=
  Keeps.branch hk.frame hk.leaveExposed

theorem Keeps.leaveNow {i : Item} (hk : Keeps false s₀ s) : Keeps false s₀ (s.leaveNow i) := hk.leave

theorem Keeps.release {site ival : Nat} (hk : Keeps false s₀ s) : Keeps false s₀ (s.release site ival) :=
  hk.frame.foldl fun _ _ hv => hv.leave

theorem Keeps.sendSegment {p : Nat} {r : RpStream} {seg port : Nat} (hk : Keeps false s₀ s) : Keeps false s₀ (s.sendSegment p r seg port) :=
  hk.frame.foldl fun _ _ hv => hv.transmit

theorem Keeps.portDown {port : Nat} (hk : Keeps false s₀ s) : Keeps false s₀ (s.portDown port) := by
  unfold State.portDown
  refine Keeps.foldl (fun _ _ hv => ?_) (hk.setPort.foldl (fun _ _ hv => ?_))
  · split
    · exact hv
    · exact hv.setPart.foldl fun _ _ hw => hw.sendSegment
  · split
    · exact hv.transmit
    · exact hv.setPort

end

end Sys2Proof.Machine
end

section
/-!
PROOFS. What `Keeps` says, of expert queues, the steps of the matrix unit, items at their receivers, and start-up.
-/

namespace Sys2Proof.Machine

section
-- One proof after the other: side by side they would wait for each other, each on a stack of its own.
set_option Elab.async false
variable {u : Bool} {s₀ s t : State} {o o' : Out}

/-! ### Expert queues -/

theorem Keeps.setEq {site i : Nat} {q : ExpertQueue} (hk : Keeps false s₀ s) : Keeps false s₀ (s.setEq site i q) := hk.setTile

theorem Keeps.execEqpush {rs2 rs1 : Reg} (hk : Keeps u s₀ s) : Goes u s₀ (execEqpush rs2 rs1 s) := by
  unfold Machine.execEqpush
  refine Goes.branch ?_ ?_
  · exact hk.raiseOut
  · split
    · exact hk.raiseOut
    · refine Goes.branch ?_ ?_
      · exact hk.blockOn
      · exact Goes.branch hk.operandError (Goes.branch hk.blockOn hk.takeSeq.countSent.emit.retire.goes)

theorem Keeps.eqPost {qid : Nat} {release : Bool} {b : Body} (hk : Keeps u s₀ s) : Goes u s₀ (eqPost s qid release b) :=
  hk.takeSeq.emit.retire.goes

theorem Keeps.execEqstat {rd rs1 : Reg} (hk : Keeps u s₀ s) : Goes u s₀ (execEqstat rd rs1 s) := by
  unfold Machine.execEqstat
  split
  · exact hk.writeReg
  · exact Goes.branch hk.operandError hk.emit.setMe.goes

theorem Keeps.putSlot {site : Nat} {q : ExpertQueue} {n : Nat} {bs : List Byte} (hk : Keeps false s₀ s) :
    Keeps false s₀ (s.putSlot site q n bs) :=
  hk.putEngine

theorem Keeps.toRing {site i : Nat} {e : EqEntry} (hk : Keeps false s₀ s) : Keeps false s₀ (s.toRing site i e) := hk.putSlot.setEq

theorem Keeps.unspill {site i n : Nat} (hk : Keeps false s₀ s) : Keeps false s₀ (s.unspill site i n) := by
  induction n generalizing s with
  | zero => exact hk
  | succ n ih =>
    unfold State.unspill
    extract_lets q
    split
    · exact hk
    · exact Keeps.branch (ih hk.setEq.toRing) hk

theorem Keeps.freeBatches {site i n : Nat} (hk : Keeps false s₀ s) : Keeps false s₀ (s.freeBatches site i n) := by
  induction n generalizing s with
  | zero => exact hk
  | succ n ih =>
    unfold State.freeBatches
    extract_lets q
    split
    · exact Keeps.branch hk (ih (hk.foldl fun _ _ h => h.setEmpty).setEq)
    · exact hk

theorem Keeps.takeItem {i : Item} (hk : Keeps false s₀ s) : Keeps false s₀ (s.takeItem i) := hk.dropItem

theorem Keeps.atQueue {i : Item} {qid : Nat} {take : Nat → Nat → ExpertQueue → State} (hk : Keeps false s₀ s) (hf : ∀ site n q, Keeps false
    s₀ (take site n q)) :
    Keeps false s₀ (s.atQueue i qid take) := by
  unfold State.atQueue
  split
  · exact hk.ended.report
  · split
    · exact hk
    · exact hk.bounce
    · refine Keeps.branch hk.takeItem ?_
      split
      · exact hk.ended.report
      · exact hf _ _ _

theorem Keeps.putSpill {site : Nat} {q : ExpertQueue} {i : Item} {e : EqEntry} (hk : Keeps false s₀ s) :
    Keeps false s₀ (s.putSpill site q i e) := by
  unfold State.putSpill
  dsimp only
  split
  · next heq =>
      exact hk.translate.ofSnd heq
  · next heq =>
      split
      · exact (hk.translate.ofSnd heq).putMem.logWrite
      · exact (hk.translate.ofSnd heq).record6.report

theorem Keeps.acceptPush {i : Item} {qid : Nat} {bs : List Byte} (hk : Keeps false s₀ s) : Keeps false s₀ (s.acceptPush i qid bs) := by
  unfold State.acceptPush
  refine hk.atQueue fun _ _ _ => ?_
  refine Keeps.branch ?_ ?_
  · refine Keeps.setEq ?_
    refine Keeps.branch ?_ ?_
    · exact Keeps.countRecv (Keeps.branch hk.toRing.takeItem.noteSeq hk.toRing.takeItem)
    · exact Keeps.log (Keeps.countRecv (Keeps.branch hk.toRing.takeItem.noteSeq hk.toRing.takeItem))
  · refine Keeps.branch ?_ ?_
    · refine Keeps.branch ?_ ?_
      · exact Keeps.countRecv (Keeps.branch hk.putSpill.setEq.takeItem.noteSeq hk.putSpill.setEq.takeItem)
      · exact Keeps.log (Keeps.countRecv (Keeps.branch hk.putSpill.setEq.takeItem.noteSeq hk.putSpill.setEq.takeItem))
    · exact Keeps.branch hk.bounce hk.bounce.setEq.report

theorem Keeps.collect {i : Item} {qid : Nat} (hk : Keeps false s₀ s) : Keeps false s₀ (s.collect i qid) := by
  unfold State.collect
  split
  · exact hk.setStage
  · split
    · exact hk
    · exact hk.bounce
    · exact Keeps.branch hk.log.noteSeq.setStage hk.takeItem

theorem Keeps.execPushAccept {k : Nat} (hk : Keeps false s₀ s) : Goes false s₀ (execPushAccept k s) := by
  unfold Machine.execPushAccept
  split
  · exact hk.goes
  · split
    · exact Goes.branch hk.goes (Goes.branch hk.collect.goes hk.acceptPush.goes)
    · exact hk.goes

theorem Keeps.fireMessages {site : Nat} {q : ExpertQueue} {qid fire : Nat} {dest : List Nat} {pl : Vector Word 8} (hk : Keeps false s₀ s) :
    Keeps false s₀ (s.fireMessages site q qid fire dest pl) :=
  hk.foldl fun _ _ hv => hv.countSent.emit

theorem Keeps.fire {site n : Nat} {q : ExpertQueue} (hk : Keeps false s₀ s) : Keeps false s₀ (s.fire site n q) :=
  Keeps.fireMessages (Keeps.branch hk.setEq hk.setEq.log)

theorem Keeps.execExpertFiring {site : Nat} (hk : Keeps false s₀ s) : Goes false s₀ (execExpertFiring site s) := by
  unfold Machine.execExpertFiring
  refine Goes.branch ?_ ?_
  · exact hk.goes
  · refine Goes.branch ?_ ?_
    · split
      · exact Goes.branch hk.setTile.fire.goes hk.goes
      · exact hk.goes
    · split
      · exact hk.goes
      · exact hk.fire.goes

theorem Keeps.acceptFire {i : Item} {qid : Nat} (hk : Keeps false s₀ s) : Keeps false s₀ (s.acceptFire i qid) :=
  hk.atQueue (fun _ _ _ => Keeps.setEq (Keeps.branch hk.takeItem hk.takeItem.noteSeq.log))

theorem Keeps.execEqfireArrival {k : Nat} (hk : Keeps false s₀ s) : Goes false s₀ (execEqfireArrival k s) := by
  unfold Machine.execEqfireArrival
  split
  · exact hk.goes
  · split
    · exact Goes.branch hk.goes (Goes.branch hk.collect.goes hk.acceptFire.goes)
    · exact hk.goes

theorem Keeps.acceptDone {i : Item} {qid fire : Nat} (hk : Keeps false s₀ s) : Keeps false s₀ (s.acceptDone i qid fire) := by
  unfold State.acceptDone
  refine hk.atQueue fun _ _ _ => ?_
  refine Keeps.branch ?_ ?_
  · exact Keeps.unspill (Keeps.freeBatches (Keeps.setEq (Keeps.branch hk.takeItem hk.takeItem.noteSeq.log)))
  · exact Keeps.report (Keeps.branch hk.takeItem hk.takeItem.noteSeq.log)

theorem Keeps.execEqdoneArrival {k : Nat} (hk : Keeps false s₀ s) : Goes false s₀ (execEqdoneArrival k s) := by
  unfold Machine.execEqdoneArrival
  split
  · exact hk.goes
  · split
    · exact Goes.branch hk.goes (Goes.branch hk.collect.goes hk.acceptDone.goes)
    · exact hk.goes

theorem Keeps.offerStat {i : Item} {qid : Nat} (hk : Keeps false s₀ s) : Keeps false s₀ (s.offerStat i qid) := by
  unfold State.offerStat
  split
  · exact hk
  · exact hk.bounce
  · exact hk.takeItem.respond

theorem Keeps.execEqstatRequest {k : Nat} (hk : Keeps false s₀ s) : Goes false s₀ (execEqstatRequest k s) := by
  unfold Machine.execEqstatRequest
  split
  · exact hk.goes
  · split
    · exact Goes.branch hk.goes hk.offerStat.goes
    · exact hk.goes

theorem Keeps.configureEq {part : Nat} {w : Vector Word 8} (hk : Keeps false s₀ s) : Keeps false s₀ (s.configureEq part w) := by
  unfold State.configureEq
  dsimp only
  split
  · exact hk
  · exact hk.setEq

/-! ### Steps of the matrix engine and of the floe -/

theorem Keeps.cmdReport {site : Nat} {c : MatCmd} {cause : Nat} {a4 : Word} {a : Nat} (hk : Keeps false s₀ s) :
    Keeps false s₀ (s.cmdReport site c cause a4 a) :=
  hk.report

theorem Keeps.noteEnded {c : MatCmd} (hk : Keeps false s₀ s) : Keeps false s₀ (s.noteEnded c) := by
  unfold State.noteEnded
  dsimp only
  split
  · exact Keeps.branch hk.putThread hk
  · exact hk

theorem Keeps.noteFloe {c : MatCmd} {r : EngResult} (hk : Keeps false s₀ s) : Keeps false s₀ (s.noteFloe c r) := by
  unfold State.noteFloe
  split
  · exact hk.setPart
  · exact hk

theorem Keeps.finishCmd {site : Nat} {c : MatCmd} {cause addr prog k landed : Nat} {denied : List (Nat × Nat × Nat)} (hk : Keeps false s₀
    s) :
    Keeps false s₀ (s.finishCmd site c cause addr prog k landed denied) := by
  unfold State.finishCmd
  refine Keeps.branch ?_ ?_
  · dsimp only
    split
    · refine Keeps.engineMsg ?_
      split
      · refine Keeps.cmdReport (Keeps.noteFloe ?_)
        refine Keeps.branch ?_ ?_
        · exact Keeps.noteEnded (Keeps.branch hk.setTile hk.setTile.cmdReport)
        · exact Keeps.branch hk.setTile hk.setTile.cmdReport
      · refine Keeps.noteFloe ?_
        refine Keeps.branch ?_ ?_
        · exact Keeps.noteEnded (Keeps.branch hk.setTile hk.setTile.cmdReport)
        · exact Keeps.branch hk.setTile hk.setTile.cmdReport
    · refine Keeps.engineMsg ?_
      split
      · refine Keeps.cmdReport (Keeps.noteFloe ?_)
        refine Keeps.branch ?_ ?_
        · exact Keeps.noteEnded (Keeps.branch hk.setTile hk.setTile.cmdReport)
        · exact Keeps.branch hk.setTile hk.setTile.cmdReport
      · refine Keeps.noteFloe ?_
        refine Keeps.branch ?_ ?_
        · exact Keeps.noteEnded (Keeps.branch hk.setTile hk.setTile.cmdReport)
        · exact Keeps.branch hk.setTile hk.setTile.cmdReport
  · split
    · refine Keeps.cmdReport (Keeps.noteFloe ?_)
      refine Keeps.branch ?_ ?_
      · exact Keeps.noteEnded (Keeps.branch hk.setTile hk.setTile.cmdReport)
      · exact Keeps.branch hk.setTile hk.setTile.cmdReport
    · refine Keeps.noteFloe ?_
      refine Keeps.branch ?_ ?_
      · exact Keeps.noteEnded (Keeps.branch hk.setTile hk.setTile.cmdReport)
      · exact Keeps.branch hk.setTile hk.setTile.cmdReport

theorem Keeps.endMatrix {site : Nat} {r : MatRun} {cause addr : Nat} (hk : Keeps false s₀ s) :
    Keeps false s₀ (s.endMatrix site r cause addr) :=
  hk.setTile.finishCmd.floeNext

theorem Keeps.parkMatrix {site : Nat} {r : MatRun} {a : Nat} (hk : Keeps false s₀ s) : Keeps false s₀ (s.parkMatrix site r a) :=
  hk.setTile.engFault

theorem Keeps.execMatrixCommandStart {site : Nat} (hk : Keeps false s₀ s) : Goes false s₀ (execMatrixCommandStart site s) := by
  unfold Machine.execMatrixCommandStart
  dsimp only
  split
  · exact Goes.branch hk.setTile.goes hk.goes
  · exact hk.goes

theorem Keeps.putPieces {site : Nat} {c : MatCmd} {pages : List Nat} {l : List (Nat × List Byte)} {x : WriteSum} (hk : Keeps false s₀ s) :
    Keeps false s₀ (s.putPieces site c pages l x).2 := by
  induction l generalizing s x with
  | nil => exact hk
  | cons y rest ih =>
    unfold State.putPieces
    split
    · next heq => exact ih (Keeps.ofSnd hk.engWrite heq)
    · next heq =>
      split
      next heq' => exact ih (Keeps.ofSnd (Keeps.ofSnd hk.engWrite heq).deny heq')
    · next heq => exact Keeps.ofSnd hk.engWrite heq

theorem Keeps.storeBack {site : Nat} {c : MatCmd} {x : WriteSum} (hk : Keeps false s₀ s) : Keeps false s₀ (s.storeBack site c x).2 := by
  unfold State.storeBack
  dsimp only
  split
  · exact hk
  · exact hk.putPieces

theorem Keeps.stopAcc {site : Nat} {r : MatRun} {cause a : Nat} (hk : Keeps false s₀ s) : Keeps false s₀ (s.stopAcc site r cause a) :=
  Keeps.branch hk.parkMatrix (Keeps.branch hk hk.endMatrix)

theorem Keeps.accOp {site : Nat} {r : MatRun} (hk : Keeps false s₀ s) : Keeps false s₀ (s.accOp site r) := by
  unfold State.accOp
  dsimp only
  split
  · exact Keeps.setTile (hk.withMem (fun h => Memory.wf_clear _ _ h))
  · split
    · next heq =>
        exact Keeps.setTile ((hk.engRead.ofSnd heq).withMem (fun h => Memory.wf_writeN _ _ h))
    · next heq =>
        exact (hk.engRead.ofSnd heq).stopAcc
  · split
    · next heq =>
        exact Keeps.logReads (Keeps.setTile ((hk.engRead.ofSnd heq).withMem (fun h => Memory.wf_writeN _ _ h)))
    · next heq =>
        exact (hk.engRead.ofSnd heq).stopAcc
  · split
    · exact hk.putPieces.parkMatrix
    · exact hk.putPieces.endMatrix
    · exact hk.putPieces.setTile
    · exact Keeps.setTile (Keeps.branch (hk.putPieces.withMem (fun h => Memory.wf_clear _ _ h)) hk.putPieces)
  · exact hk
  · exact hk
  · exact hk

theorem Keeps.localChunk {site : Nat} {r : MatRun} (hk : Keeps false s₀ s) : Keeps false s₀ (s.localChunk site r) := by
  unfold State.localChunk
  dsimp only
  split
  · exact Keeps.logReads (Keeps.setTile (Keeps.branch hk.ksteps hk.ksteps.setAccRows))
  · refine Keeps.branch ?_ ?_
    · exact Keeps.logReads (Keeps.parkMatrix (Keeps.branch hk.ksteps hk.ksteps.setAccRows))
    · refine Keeps.branch ?_ ?_
      · exact Keeps.logReads (Keeps.setTile (Keeps.branch hk.ksteps hk.ksteps.setAccRows))
      · exact hk.ksteps.endMatrix

theorem Keeps.matrixAgain {site part : Nat} (hk : Keeps false s₀ s) : Keeps false s₀ (s.matrixAgain site part) := by
  unfold State.matrixAgain
  dsimp only
  split
  · exact Keeps.branch hk.setTile hk
  · exact hk

theorem Keeps.execMatrixChunk {site : Nat} (hk : Keeps false s₀ s) : Goes false s₀ (execMatrixChunk site s) := by
  unfold Machine.execMatrixChunk
  split
  · exact hk.goes
  · refine Goes.branch ?_ ?_
    · exact hk.goes
    · dsimp only
      split
      · exact Goes.branch hk.goes hk.noteChunk.localChunk.matrixAgain.goes
      · exact Goes.branch hk.goes hk.noteChunk.localChunk.matrixAgain.goes
      · split
        · exact Goes.branch hk.goes hk.noteChunk.setTile.goes
        · exact hk.goes
      · exact Goes.branch hk.goes hk.noteChunk.accOp.matrixAgain.goes

theorem Keeps.clearMembers {members : List Nat} {cause : Nat} (hk : Keeps false s₀ s) : Keeps false s₀ (s.clearMembers members cause) :=
  hk.foldl fun _ _ hv => hv.setTile

theorem Keeps.endFloe {p cause addr : Nat} (hk : Keeps false s₀ s) : Keeps false s₀ (s.endFloe p cause addr) := by
  unfold State.endFloe
  split
  · exact hk
  · split
    · exact hk
    · exact hk.clearMembers.setPart.finishCmd.floeNext

theorem Keeps.floeReach {f : Floe} {c : MatCmd} {n : Nat} {l : List Nat} {x : Nat × Option (Nat × Nat × Nat)} (hk : Keeps false s₀ s) :
    Keeps false s₀ (s.floeReach f c n l x).2 := by
  induction l generalizing s x with
  | nil => exact hk
  | cons m rest ih =>
    unfold State.floeReach
    extract_lets g
    split
    next heq => exact ih (Keeps.ofSnd hk.ksteps heq)

theorem Keeps.floeWrite {f : Floe} {c : MatCmd} {k m : Nat} (hk : Keeps false s₀ s) : Keeps false s₀ (s.floeWrite f c k m) :=
  hk.ksteps.setAccRows.setTile

theorem Keeps.execFloeChunkCommit {part : Nat} (hk : Keeps false s₀ s) : Goes false s₀ (execFloeChunkCommit part s) := by
  unfold Machine.execFloeChunkCommit
  split
  · exact hk.goes
  · split
    · exact hk.goes
    · refine Goes.branch ?_ ?_
      · exact hk.goes
      · refine Goes.branch ?_ ?_
        · exact hk.floeReach.goes
        · split
          · exact (Keeps.setPart (Keeps.branch hk.floeReach (hk.floeReach.foldl (fun _ _ hv => hv.floeWrite)))).goes
          · refine Goes.branch ?_ ?_
            · exact (Keeps.setPart (Keeps.branch hk.floeReach (hk.floeReach.foldl (fun _ _ hv => hv.floeWrite)))).goes
            · refine Goes.branch ?_ ?_
              · exact (Keeps.engFault (Keeps.foldl (fun _ _ hv => hv.setTile) (Keeps.setPart (Keeps.branch hk.floeReach (hk.floeReach.foldl
                    (fun _ _ hv => hv.floeWrite)))))).goes
              · exact hk.floeReach.endFloe.goes

theorem Keeps.reformOne {p failed krest : Nat} {new : Floe} {stored : Bool} {c : MatCmd} {kdone : Nat} (hk : Keeps false s₀ s) :
    Keeps false s₀ (s.reformOne p failed krest new stored c kdone) :=
  hk.setTile.noteFloe.engineMsg

theorem Keeps.execFloeReform {part named : Nat} (hk : Keeps false s₀ s) : Goes false s₀ (execFloeReform part named s) := by
  unfold Machine.execFloeReform
  split
  · exact hk.goes
  · refine Goes.branch ?_ ?_
    · exact hk.goes
    · refine (Keeps.foldl (fun _ _ hv => hv.reformOne) ?_).goes
      split
      · refine Keeps.reformOne (Keeps.setPart (hk.clearMembers.foldl (fun _ _ hv => ?_)))
        split
        · exact hv.setTile
        · exact hv
      · refine Keeps.setPart (hk.clearMembers.foldl (fun _ _ hv => ?_))
        split
        · exact hv.setTile
        · exact hv

theorem Keeps.completeLocal {site : Nat} {r : MatRun} (hk : Keeps false s₀ s) : Keeps false s₀ (s.completeLocal site r) := by
  unfold State.completeLocal
  refine Keeps.branch hk.endMatrix ?_
  split
  next heq =>
    have hv := Keeps.ofSnd hk.storeBack heq
    split
    · exact hv.parkMatrix
    · exact hv.endMatrix
    · exact hv.setTile
    · exact hv.endMatrix

theorem Keeps.completeMember {site p : Nat} {f : Floe} {c : MatCmd} (hk : Keeps false s₀ s) :
    Keeps false s₀ (s.completeMember site p f c) := by
  unfold State.completeMember
  dsimp only
  split
  · exact Keeps.engFault (Keeps.setPart (Keeps.setTile (Keeps.branchSnd hk.storeBack hk)))
  · exact Keeps.endFloe (Keeps.setPart (Keeps.setTile (Keeps.branchSnd hk.storeBack hk)))
  · exact Keeps.setPart (Keeps.setTile (Keeps.branchSnd hk.storeBack hk))
  · refine Keeps.branch ?_ ?_
    · exact Keeps.endFloe (Keeps.setPart (Keeps.setTile (Keeps.branchSnd hk.storeBack hk)))
    · exact Keeps.setPart (Keeps.setTile (Keeps.branchSnd hk.storeBack hk))

theorem Keeps.execMatrixCommandComplete {site : Nat} (hk : Keeps false s₀ s) : Goes false s₀ (execMatrixCommandComplete site s) := by
  unfold Machine.execMatrixCommandComplete
  split
  · exact hk.goes
  · refine Goes.branch ?_ ?_
    · exact hk.goes
    · split
      · exact Goes.branch hk.goes ((Keeps.completeLocal (Keeps.branch hk.noteChunk hk)).goes)
      · exact Goes.branch hk.goes ((Keeps.completeLocal (Keeps.branch hk.noteChunk hk)).goes)
      · split
        · split
          · exact Goes.branch hk.goes ((Keeps.completeMember (Keeps.branch hk.noteChunk hk)).goes)
          · exact hk.goes
        · exact hk.goes
      · exact Goes.branch hk.goes hk.endMatrix.goes

theorem translate_pair (s : State) (p va : Nat) : ∃ r tiles homes, s.translate p va = (r, { s with tiles := tiles, homes := homes }) := by
  obtain ⟨tiles, homes, h⟩ := translate_frame s p va
  exact ⟨_, tiles, homes, Prod.ext rfl h⟩

theorem Keeps.mayCommand {p rank : Nat} {g : Option Cap} (hk : Keeps false s₀ s) : Keeps false s₀ (s.mayCommand p rank g).2 := by
  choose r tiles homes h using translate_pair
  have hdef : State.mayCommand = State.mayCommand := rfl
  conv at hdef =>
    rhs
    delta State.mayCommand
  rw [show State.translate = _ from funext fun s => funext₂ (h s)] at hdef
  rw [hdef]
  dsimp only
  split <;> (next heq => exact (Keeps.ofSnd hk.frame.snd heq).snd)

theorem Keeps.offerMcmd {i : Item} {c : MatCmd} {rank : Nat} (hk : Keeps false s₀ s) : Keeps false s₀ (s.offerMcmd i c rank) := by
  unfold State.offerMcmd
  split
  · exact hk
  · split
    · exact hk
    · exact hk.bounce
    · refine Keeps.branch ?_ ?_
      · exact hk.dropItem
      · split
        · next heq =>
            exact (hk.mayCommand.ofSnd heq).dropItem.record6.noteEnded.report
        · next heq =>
            exact Keeps.branch ((hk.mayCommand.ofSnd heq).bounce) ((hk.mayCommand.ofSnd heq).dropItem.noteSeq.log.accept)

theorem Keeps.execMcmdArrival {k : Nat} (hk : Keeps false s₀ s) : Goes false s₀ (execMcmdArrival k s) := by
  unfold Machine.execMcmdArrival
  split
  · exact hk.goes
  · split
    · exact Goes.branch hk.goes hk.offerMcmd.goes
    · exact hk.goes

/-! ### Items at their receivers -/

theorem Keeps.noteMsg {site : Nat} {m : Msg} {k : Nat} (hk : Keeps false s₀ s) : Keeps false s₀ (s.noteMsg site m k) := hk.noteSeq.noteSeq

theorem Keeps.enqueueMsg {core k : Nat} {m : Msg} (hk : Keeps false s₀ s) : Keeps false s₀ (s.enqueueMsg core k m) := by
  unfold State.enqueueMsg
  refine Keeps.branch ?_ ?_
  · exact hk.setCore.putNewest
  · split
    · exact hk.setCore.putEntry
    · exact hk.setCore

theorem Keeps.acknowledge {i : Item} {lc chan free : Nat} (hk : Keeps false s₀ s) : Keeps false s₀ (s.acknowledge i lc chan free) := hk.emit

theorem Keeps.returnMsg {i : Item} {m : Msg} {cause : Nat} (hk : Keeps false s₀ s) : Keeps false s₀ (s.returnMsg i m cause) := by
  unfold State.returnMsg
  refine Keeps.branch ?_ ?_
  · refine Keeps.returnPeer ?_
    split
    · exact hk.ended.restCap
    · exact hk.ended
  · refine Keeps.branch ?_ ?_
    · refine Keeps.record5 ?_
      split
      · exact hk.ended.restCap
      · exact hk.ended
    · refine Keeps.report ?_
      split
      · exact hk.ended.restCap
      · exact hk.ended

theorem Keeps.acceptMsg {i : Item} {m : Msg} {lc key : Nat} {passed : Bool} (hk : Keeps false s₀ s) :
    Keeps false s₀ (s.acceptMsg i m lc key passed) := by
  unfold State.acceptMsg
  extract_lets site c v w x y z z' z'' block a b
  refine Keeps.branch hk.dropItem.acknowledge (Keeps.branch hk.returnMsg ?_)
  split
  · exact hk.bounce
  · have hw : Keeps false s₀ w := Keeps.branch hk.dropItem.noteMsg hk.dropItem
    clear_value w
    have hx : Keeps false s₀ x := Keeps.branch hw hw.log
    clear_value x
    have hy : Keeps false s₀ y := by
      unfold y
      split
      · exact hx
      · split
        · next heq => exact hx.installCap heq
        · exact hx.restCap.report
    clear_value y
    have ha : Keeps false s₀ a := hy.setTile.enqueueMsg.countRecv
    clear_value a
    have hb : Keeps false s₀ b := Keeps.branch ha.record5 ha
    exact Keeps.branch hb hb.acknowledge

theorem Keeps.offerMsg {i : Item} {m : Msg} {lc : Nat} {atEnd : Bool} (hk : Keeps false s₀ s) :
    Keeps false s₀ (s.offerMsg i m lc atEnd) := by
  unfold State.offerMsg
  split
  · exact hk.returnMsg
  · split
    · exact hk
    · exact hk.bounce
    · refine Keeps.branch ?_ ?_
      · exact hk.returnMsg
      · exact Keeps.branch (Keeps.branch hk.dropItem.acknowledge hk.log.noteMsg.setStage.acknowledge) hk.acceptMsg

theorem Keeps.spendCredit {i : Item} {lc chan : Nat} (hk : Keeps false s₀ s) : Keeps false s₀ (s.spendCredit i lc chan) :=
  Keeps.branch hk.setTile hk

theorem Keeps.execMessageArrival {k : Nat} (hk : Keeps false s₀ s) : Goes false s₀ (execMessageArrival k s) := by
  unfold Machine.execMessageArrival
  split
  · exact hk.goes
  · split
    · exact Goes.branch hk.joinHeld.goes (Goes.branch hk.goes ((Keeps.branch hk.offerMsg hk.offerMsg.spendCredit).goes))
    · exact Goes.branch hk.goes hk.dropItem.depart.goes
    · exact hk.goes

theorem Keeps.execMessageAcknowledgement {k : Nat} (hk : Keeps false s₀ s) : Goes false s₀ (execMessageAcknowledgement k s) := by
  unfold Machine.execMessageAcknowledgement
  split
  · exact hk.goes
  · split
    · exact Goes.branch hk.dropItem.goes hk.dropItem.setTile.goes
    · exact hk.goes

theorem Keeps.answerSpawn {i : Item} {ok : Bool} (hk : Keeps false s₀ s) : Keeps false s₀ (s.answerSpawn i ok) := hk.emit

theorem Keeps.offerFrame {i : Item} {f : Frame} {lc : Nat} (hk : Keeps false s₀ s) : Keeps false s₀ (s.offerFrame i f lc) := by
  unfold State.offerFrame
  split
  · exact hk.ended.answerSpawn
  · dsimp only
    split
    · exact hk
    · exact hk.bounce
    · refine Keeps.branch ?_ ?_
      · exact hk.dropItem.answerSpawn
      · exact Keeps.branch hk.dropItem.noteSeq.log.pushFrame.countRecv.answerSpawn hk.ended.answerSpawn

theorem Keeps.execSpawnFrameArrival {k : Nat} (hk : Keeps false s₀ s) : Goes false s₀ (execSpawnFrameArrival k s) := by
  unfold Machine.execSpawnFrameArrival
  split
  · exact hk.goes
  · split
    · exact Goes.branch hk.goes (Goes.branch hk.setStage.goes hk.offerFrame.goes)
    · exact hk.goes

theorem Keeps.openBarrier {p g inst : Nat} {cores : List Nat} (hk : Keeps false s₀ s) : Keeps false s₀ (s.openBarrier p g inst cores) :=
  hk.part

theorem Keeps.countBarrier {site p g inst lc : Nat} (hk : Keeps false s₀ s) : Keeps false s₀ (s.countBarrier site p g inst lc) := by
  unfold State.countBarrier
  exact Keeps.branch hk.setTile.openBarrier hk.setTile

theorem Keeps.execBarrierArrival {k : Nat} (hk : Keeps false s₀ s) : Goes false s₀ (execBarrierArrival k s) := by
  unfold Machine.execBarrierArrival
  split
  · exact hk.goes
  · split
    · split
      · exact hk.dropItem.goes
      · exact Goes.branch hk.dropItem.log.countBarrier.goes hk.goes
    · exact hk.goes

theorem Keeps.execCapabilityReturnNotice {k : Nat} (hk : Keeps false s₀ s) : Goes false s₀ (execCapabilityReturnNotice k s) := by
  unfold Machine.execCapabilityReturnNotice
  split
  · exact hk.goes
  · split
    · exact Goes.branch hk.goes hk.dropItem.restCap.goes
    · exact hk.goes

theorem Keeps.takenAt {home : Dest} {i : Item} (hk : Keeps false s₀ s) : Keeps false s₀ (s.takenAt home i) := by
  unfold State.takenAt
  refine Keeps.branch ?_ ?_
  · refine Keeps.recvAt ?_
    split
    · exact hk.noteSeq.log
    · exact hk.setAgent
    · exact hk
  · split
    · exact hk.noteSeq.log
    · exact hk.setAgent
    · exact hk

theorem Keeps.offerStore {i : Item} {a : Nat} {bs : List Byte} {fe : Bool} (hk : Keeps false s₀ s) :
    Keeps false s₀ (s.offerStore i a bs fe) := by
  unfold State.offerStore
  split
  · exact Keeps.branch hk (Keeps.branch hk.dropItem.putEngine hk.dropItem.putMem)
  · split
    · exact hk
    · exact hk.bounce
    · refine Keeps.branch ?_ ?_
      · exact hk.dropItem
      · split
        · next heq =>
            refine Keeps.branch ?_ ?_
            · exact (hk.resolve.ofSnd heq).dropItem.takenAt.putEngine
            · exact (hk.resolve.ofSnd heq).dropItem.takenAt.putMem
        · next heq =>
            refine Keeps.branch ?_ ?_
            · exact Keeps.branch ((hk.resolve.ofSnd heq).setStage) ((hk.resolve.ofSnd heq).setStage.faultFor)
            · exact (hk.resolve.ofSnd heq).ended.refusePosted

theorem Keeps.execRemoteStoreArrival {k : Nat} (hk : Keeps false s₀ s) : Goes false s₀ (execRemoteStoreArrival k s) := by
  unfold Machine.execRemoteStoreArrival
  split
  · exact hk.goes
  · split
    · exact Goes.branch hk.goes (Goes.branch hk.offerStore.goes (Goes.branch hk.joinHeld.goes hk.goes))
    · exact Goes.branch hk.offerLine.goes hk.goes
    · exact hk.goes

theorem Keeps.refuseRet {i : Item} {op : RetOp} {c a : Nat} (hk : Keeps false s₀ s) : Keeps false s₀ (s.refuseRet i op c a) :=
  Keeps.respond (Keeps.ended (Keeps.branch hk.record6 hk))

theorem Keeps.parkRet {i : Item} {op : RetOp} {a : Nat} (hk : Keeps false s₀ s) : Keeps false s₀ (s.parkRet i op a) :=
  hk.setStage.respond.faultFor

theorem Keeps.redirect {i : Item} (hk : Keeps false s₀ s) : Keeps false s₀ (s.redirect i) := hk.dropItem.frame

theorem Keeps.ownTaken {home : Dest} {i : Item} {v : Word} (hk : Keeps false s₀ s) : Keeps false s₀ (s.ownTaken home i v) :=
  Keeps.branch hk.noteSeq.log.putThread.recvAt hk.noteSeq.log.putThread

theorem Keeps.offerRet {i : Item} {op : RetOp} (hk : Keeps false s₀ s) : Keeps false s₀ (s.offerRet i op) := by
  unfold State.offerRet
  dsimp only
  split
  · exact hk
  · exact hk.bounce
  · split
    · split
      · next heq =>
          refine Keeps.respond (Keeps.dropItem ?_)
          split
          · exact (hk.readAll.ofSnd heq).log
          · exact hk.readAll.ofSnd heq
      · next heq =>
          exact Keeps.branch ((hk.readAll.ofSnd heq).parkRet) ((hk.readAll.ofSnd heq).refuseRet)
    · refine Keeps.branch ?_ ?_
      · exact hk.redirect
      · split
        · next heq =>
            exact Keeps.branch ((hk.resolve.ofSnd heq).parkRet) ((hk.resolve.ofSnd heq).refuseRet)
        · next heq =>
            refine Keeps.branch ?_ ?_
            · exact (hk.resolve.ofSnd heq).refuseRet
            · split
              · next heq1 =>
                  exact (hk.resolve.ofSnd heq).setStage
              · next heq1 =>
                  refine Keeps.respond ?_
                  refine Keeps.branch ?_ ?_
                  · exact (((hk.resolve.ofSnd heq).performAt).ofSnd heq1).dropItem.ownTaken
                  · refine Keeps.branch ?_ ?_
                    · exact (((hk.resolve.ofSnd heq).performAt).ofSnd heq1).dropItem.takenAt
                    · split
                      · exact (((hk.resolve.ofSnd heq).performAt).ofSnd heq1).dropItem.log
                      · exact (((hk.resolve.ofSnd heq).performAt).ofSnd heq1).dropItem

theorem Keeps.retArrival {i : Item} {op : RetOp} (hk : Keeps false s₀ s) : Goes false s₀ (s.retArrival i op) :=
  Goes.branch hk.offerRet.goes (Goes.branch hk.joinHeld.goes hk.goes)

theorem Keeps.localWaiter {i : Item} {op : RetOp} (hk : Keeps false s₀ s) : Keeps false s₀ (s.localWaiter i op) := by
  unfold State.localWaiter
  refine Keeps.branch ?_ ?_
  · exact hk
  · split
    · next heq =>
        exact hk
    · next heq =>
        exact (hk.performAt.ofSnd heq).dropItem.logAnswer.putThread

theorem Keeps.waiter {i : Item} (hk : Keeps false s₀ s) : Keeps false s₀ (s.waiter i) := by
  unfold State.waiter
  split
  · exact hk.localWaiter
  · exact Keeps.branch hk.offerRet hk
  · exact hk

theorem Keeps.wakeWaiters (hk : Keeps false s₀ s) : Keeps false s₀ s.wakeWaiters := hk.foldl fun _ _ hv => hv.waiter

theorem Keeps.execRemoteAtomicPerform {k : Nat} (hk : Keeps false s₀ s) : Goes false s₀ (execRemoteAtomicPerform k s) := by
  unfold Machine.execRemoteAtomicPerform
  split
  · exact hk.goes
  · split
    · exact hk.retArrival
    · exact hk.retArrival
    · exact hk.goes

theorem Keeps.execRemoteLoadArrival {k : Nat} (hk : Keeps false s₀ s) : Goes false s₀ (execRemoteLoadArrival k s) := by
  unfold Machine.execRemoteLoadArrival
  split
  · exact hk.goes
  · split
    · exact hk.retArrival
    · exact hk.retArrival
    · exact hk.retArrival
    · exact hk.retArrival
    · exact hk.goes

theorem Keeps.logResponse {site : Nat} {i : Item} {cause : Nat} {r : Resp} (hk : Keeps false s₀ s) :
    Keeps false s₀ (s.logResponse site i cause r) :=
  Keeps.branch hk.log (hk.foldl (fun _ _ hv => hv.log))

theorem Keeps.answer {i : Item} {h cause a : Nat} {wr : Bool} {r : Resp} {req : Nat} (hk : Keeps false s₀ s) :
    Keeps false s₀ (s.answer i h cause a wr r req) := by
  unfold State.answer
  refine Keeps.branch ?_ ?_
  · exact hk.dropItem
  · refine Keeps.branch ?_ ?_
    · exact hk.dropItem.logResponse.putThread
    · exact Keeps.branch hk.dropItem.logResponse.putThread hk.dropItem.logResponse.raiseAt

theorem Keeps.spawnAnswered {i : Item} {h : Nat} {ok : Bool} (hk : Keeps false s₀ s) : Keeps false s₀ (s.spawnAnswered i h ok) :=
  Keeps.branch hk.dropItem.log.putThread hk.dropItem

theorem Keeps.peerAnswer {i : Item} {a : Nat} (hk : Keeps false s₀ s) : Keeps false s₀ (s.peerAnswer i a) := by
  unfold State.peerAnswer
  refine Keeps.branch ?_ ?_
  · exact hk
  · split
    · exact hk.dropItem.frame.transmit
    · exact hk

theorem Keeps.execResponseArrival {k : Nat} (hk : Keeps false s₀ s) : Goes false s₀ (execResponseArrival k s) := by
  unfold Machine.execResponseArrival
  split
  · exact hk.goes
  · split
    · exact Goes.branch hk.peerAnswer.goes (Goes.branch hk.goes (Goes.branch hk.setStage.goes hk.answer.goes))
    · exact Goes.branch hk.goes (Goes.branch hk.setStage.goes hk.spawnAnswered.goes)
    · exact hk.goes

theorem Keeps.assistFor {func part : Nat} {arg : Word} {obj : Nat} (hk : Keeps false s₀ s) :
    Keeps false s₀ (s.assistFor func part arg obj) := by
  unfold State.assistFor
  exact hk.frame.record

theorem Keeps.faultReport {p page : Nat} {f : Faulter} (hk : Keeps false s₀ s) : Keeps false s₀ (s.faultReport p page f) := hk.report

theorem Keeps.climb {p page from_ : Nat} {l : List Nat} {b : Bool} (hk : Keeps false s₀ s) (h : s.climb p page l from_ = some (b, t)) :
    Keeps false s₀ t := by
  induction l generalizing s from_ with
  | nil =>
    cases h
    exact hk
  | cons r rest ih =>
    unfold State.climb at h
    extract_lets x at h
    split at h
    · cases h
      exact hk.setPart
    · split at h
      · cases h
      · exact ih hk.setPart h

theorem Keeps.execFaultMessage {k : Nat} (hk : Keeps false s₀ s) : Goes false s₀ (execFaultMessage k s) := by
  unfold Machine.execFaultMessage
  split
  · exact hk.goes
  · split
    · extract_lets page root from_
      split
      · exact hk.goes
      · next heq =>
        have hv := hk.climb heq
        refine Goes.branch hk.goes ?_
        extract_lets f w p
        have hw : Keeps false s₀ w := hv.dropItem
        clear_value w p
        split
        · exact (Keeps.branch hw.setPart.faultReport hw.setPart).goes
        · exact Goes.branch hw.goes (Keeps.branch hw.setPart.assistFor hw.setPart.faultReport).goes
    · exact hk.goes

theorem Keeps.failHeld {i : Item} {page : Nat} (hk : Keeps false s₀ s) : Keeps false s₀ (s.failHeld i page) := by
  unfold State.failHeld
  split
  · exact Keeps.branch hk.ended.raiseAt hk.ended.respond
  · exact Keeps.report (Keeps.branch hk.dropItem.recvAt hk.dropItem)
  · exact hk.dropItem.report.onTransfer
  · exact hk.ended.report

theorem Keeps.wakeEngines {p page site : Nat} {present : Bool} (hk : Keeps false s₀ s) :
    Keeps false s₀ (s.wakeEngines p page site present) := by
  unfold State.wakeEngines
  refine Keeps.foldl (fun _ _ hv => ?_) ?_
  · split
    · exact Keeps.branch (Keeps.branch hv.setXfer hv.finishXfer) hv
    · exact hv
  · split
    · exact Keeps.branch (Keeps.branch hk.setTile hk.endMatrix) hk
    · exact hk

theorem Keeps.execWake {part page : Nat} {present : Bool} (hk : Keeps false s₀ s) : Goes false s₀ (execWake part page present s) := by
  unfold Machine.execWake
  refine Goes.branch ?_ ?_
  · exact hk.goes
  · dsimp only
    split
    · refine Goes.branch ?_ ?_
      · refine Goes.branch ?_ ?_
        · refine (Keeps.setPart ?_).goes
          refine Keeps.branch ?_ ?_
          · exact Keeps.foldl (fun _ _ hv => hv.wakeEngines) (Keeps.branch hk.setPart.frame (hk.setPart.frame.foldl (fun _ _ hv =>
                hv.failHeld)))
          · exact Keeps.branch hk.setPart.frame (hk.setPart.frame.foldl (fun _ _ hv => hv.failHeld))
        · refine (Keeps.endFloe ?_).goes
          refine Keeps.branch ?_ ?_
          · exact Keeps.foldl (fun _ _ hv => hv.wakeEngines) (Keeps.branch hk.setPart.frame (hk.setPart.frame.foldl (fun _ _ hv =>
                hv.failHeld)))
          · exact Keeps.branch hk.setPart.frame (hk.setPart.frame.foldl (fun _ _ hv => hv.failHeld))
      · refine Keeps.goes ?_
        refine Keeps.branch ?_ ?_
        · exact Keeps.foldl (fun _ _ hv => hv.wakeEngines) (Keeps.branch hk.setPart.frame (hk.setPart.frame.foldl (fun _ _ hv =>
              hv.failHeld)))
        · exact Keeps.branch hk.setPart.frame (hk.setPart.frame.foldl (fun _ _ hv => hv.failHeld))
    · refine Keeps.goes ?_
      refine Keeps.branch ?_ ?_
      · exact Keeps.foldl (fun _ _ hv => hv.wakeEngines) (Keeps.branch hk.setPart.frame (hk.setPart.frame.foldl (fun _ _ hv =>
            hv.failHeld)))
      · exact Keeps.branch hk.setPart.frame (hk.setPart.frame.foldl (fun _ _ hv => hv.failHeld))

theorem Keeps.offer {i : Item} {atEnd : Bool} (hk : Keeps false s₀ s) : Keeps false s₀ (s.offer i atEnd) := by
  unfold State.offer
  split
  · exact hk.offerMsg
  · exact hk.offerStore
  · exact hk.offerStat
  · exact hk.offerRet
  · exact hk.offerFrame
  · exact hk.acceptPush
  · exact hk.acceptFire
  · exact hk.acceptDone
  · exact hk.offerMcmd
  · exact hk

theorem Keeps.execResendBackoff {k : Nat} (hk : Keeps false s₀ s) : Goes false s₀ (execResendBackoff k s) := by
  unfold Machine.execResendBackoff
  split
  · exact hk.goes
  · split
    · exact Goes.branch hk.goes ((Keeps.branch hk.setStage.offer.setStage hk.setStage.offer).goes)
    · exact hk.goes

/-! ### Start-up -/

theorem Keeps.giveHome {orphan : Nat} (hk : Keeps false s₀ s) : Keeps false s₀ (s.giveHome orphan) := by
  unfold State.giveHome
  split
  · exact hk.setTile
  · exact Keeps.branch hk.setTile.setTile hk.setTile.setTile

theorem Keeps.freeHome {home : Nat} (hk : Keeps false s₀ s) : Keeps false s₀ (s.freeHome home) :=
  Keeps.branch hk (Keeps.branch hk.setTile (Keeps.branch hk.setTile hk))

theorem Keeps.leaveHome {orphan : Nat} (hk : Keeps false s₀ s) : Keeps false s₀ (s.leaveHome orphan) := by
  unfold State.leaveHome
  dsimp only
  split
  · exact hk
  · exact hk.setTile.freeHome

theorem Keeps.plain {cls : Nat → Nat} {retired : List Nat} (hk : Keeps false s₀ s) : Keeps false s₀ (s.plain cls retired) := hk.frame

theorem Keeps.assignRoles {cls : Nat → Nat} {retired : List Nat} (hk : Keeps false s₀ s) : Keeps false s₀ (s.assignRoles cls retired) := by
  unfold State.assignRoles
  refine Keeps.frame (Keeps.foldl (fun _ _ hv => hv.setTile) (Keeps.foldl (fun _ _ hv => hv.setTile) (Keeps.foldl (fun _ _ hv => ?_)
      (hk.plain.foldl (fun _ _ hv => hv.giveHome)))))
  split
  · exact hv.setTile
  · exact hv

theorem Keeps.bind {l site : Nat} (hk : Keeps false s₀ s) : Keeps false s₀ (s.bind l site) := hk.frame

theorem Keeps.retireSite {site : Nat} (hk : Keeps false s₀ s) : Keeps false s₀ (s.retireSite site) := hk.setTile.leaveHome

theorem Keeps.retireUnbound {site : Nat} (hk : Keeps false s₀ s) : Keeps false s₀ (s.retireUnbound site) := hk.retireSite.frame

theorem Keeps.moveRank {l old new : Nat} (hk : Keeps false s₀ s) : Keeps false s₀ (s.moveRank l old new) := hk.retireSite.setTile.bind

theorem Keeps.giveBuddy {ward skip : Nat} (hk : Keeps false s₀ s) : Keeps false s₀ (s.giveBuddy ward skip) := by
  unfold State.giveBuddy
  split
  · exact hk.setTile
  · exact Keeps.branch hk.setTile.setTile hk.setTile

theorem Keeps.leaveBuddy {ward : Nat} (hk : Keeps false s₀ s) : Keeps false s₀ (s.leaveBuddy ward) := by
  unfold State.leaveBuddy
  dsimp only
  split
  · exact hk
  · exact Keeps.branch hk.setTile.setTile hk.setTile

theorem Keeps.appendRec {r : Rec} (hk : Keeps false s₀ s) : Keeps false s₀ (s.appendRec r) := hk.frame

theorem Keeps.readmitSite {x : Nat} (hk : Keeps false s₀ s) : Keeps false s₀ (s.readmitSite x) :=
  Keeps.branch hk.frame.setTile.giveHome hk.frame.setTile

theorem Keeps.replayRec {r : Rec} (hk : Keeps false s₀ s) : Keeps false s₀ (s.replayRec r) := by
  unfold State.replayRec
  split
  · exact hk
  · refine Keeps.branch ?_ ?_
    · split
      · exact hk.moveRank
      · exact hk.retireUnbound
    · exact Keeps.branch hk.readmitSite hk

theorem Keeps.retireNew {x : State × List Rec} {n : Nat} (hk : Keeps false s₀ x.1) : Keeps false s₀ (State.retireNew x n).1 := by
  unfold State.retireNew
  extract_lets l spare r t v
  have ht : Keeps false s₀ t := hk.appendRec
  clear_value t spare l
  have hv : Keeps false s₀ v := by
    unfold v
    split
    · exact ht.moveRank
    · exact ht.retireUnbound
  exact hv.frame

theorem Keeps.rehomeNew {x : State × List Rec} {n : Nat} (hk : Keeps false s₀ x.1) : Keeps false s₀ (State.rehomeNew x n).1 := by
  unfold State.rehomeNew
  extract_lets t v
  have ht : Keeps false s₀ t := hk.leaveHome
  have hv : Keeps false s₀ v := ht.giveHome
  clear_value v t
  split
  · exact hv
  · exact Keeps.retireNew (x := (t, x.2)) ht

theorem Keeps.supervise {region : Nat} (hk : Keeps false s₀ s) : Keeps false s₀ (s.supervise region) := by
  unfold State.supervise
  refine Keeps.branch ?_ ?_
  · exact hk
  · split
    · exact hk.setTile
    · exact hk

theorem Keeps.ubnarThread {h : Nat} (hk : Keeps false s₀ s) : Keeps false s₀ (s.ubnarThread h) := hk.putThread

theorem Keeps.ubnarCtl {p : Nat} (hk : Keeps false s₀ s) : Keeps false s₀ (s.ubnarCtl p) := hk.foldl fun _ _ hv => hv.ubnarThread

theorem Keeps.runUbnar {site : Nat} (hk : Keeps false s₀ s) : Keeps false s₀ (s.runUbnar site) := hk.foldl fun _ _ hv => hv.ubnarThread

theorem Keeps.classed {failed : List (Nat × Nat)} (hk : Keeps false s₀ s) : Keeps false s₀ (s.classed failed) :=
  hk.foldl fun _ _ hv => hv.setTile

theorem Keeps.denseRanks (hk : Keeps false s₀ s) : Keeps false s₀ s.denseRanks := hk.assignRoles.appendRec.frame

theorem Keeps.rankMap {failed : List (Nat × Nat)} (hk : Keeps false s₀ s) : Keeps false s₀ (s.rankMap failed) := by
  have hroles {cls : Nat → Nat} {l : List Nat} : Keeps false s₀ (s.assignRoles cls l) := hk.assignRoles
  have hretire {v : State} {l : List Nat} (hv : Keeps false s₀ v) : Keeps false s₀ (l.foldl State.retireNew (v, [])).1 :=
    Keeps.foldlFst (fun _ _ h => h.retireNew) hv
  have hrehome {v : State} {l : List Nat} {w : List Rec} (hv : Keeps false s₀ v) :
      Keeps false s₀ (l.foldl State.rehomeNew (v, w)).1 := Keeps.foldlFst (fun _ _ h => h.rehomeNew) hv
  have hclassed {v : State} {failed : List (Nat × Nat)} (hv : Keeps false s₀ v) : Keeps false s₀ (State.classed v failed) := hv.classed
  rw [State.rankMap.eq_1]
  generalize s.assignRoles = roles at hroles ⊢
  generalize State.classed = classed at hclassed ⊢
  generalize allSites = sites
  generalize State.stranded = stranded
  revert roles classed sites stranded
  refine id fun roles hroles classed hclassed sites stranded => ?_
  split
  extract_lets fuse v w bad x
  have hw : Keeps false s₀ w := hroles.foldl fun _ _ h => h.replayRec
  have hx : Keeps false s₀ x := hw.foldl fun _ _ h => Keeps.branch h.setTile (Keeps.branch h.setTile h)
  clear_value x bad
  split
  next heq =>
    have hy := Keeps.ofFst (hretire hx) heq
    extract_lets z
    have hz : Keeps false s₀ z := hclassed hy
    clear_value z
    split
    next heq =>
      extract_lets r
      have hr : Keeps false s₀ r := (Keeps.ofFst (hrehome hz) heq).foldl fun _ _ h => h.supervise
      exact Keeps.branch (hclassed hr.denseRanks) hr

theorem Keeps.measure (hk : Keeps false s₀ s) : Keeps false s₀ s.measure := hk.frame

theorem Keeps.trainPorts (hk : Keeps false s₀ s) : Keeps false s₀ s.trainPorts := hk.frame

theorem Keeps.cold (hk : Keeps false s₀ s) : Keeps false s₀ s.cold := ⟨fun h => Memory.wf_filter _ (hk.mem h), fun _ => rfl, nofun⟩

theorem Keeps.bootFail {cause stage : Nat} (hk : Keeps false s₀ s) : Keeps false s₀ (s.bootFail cause stage) := hk.frame

theorem Keeps.stage5 {failed : List (Nat × Nat)} (hk : Keeps false s₀ s) : Keeps false s₀ (s.stage5 failed) :=
  Keeps.frame (Keeps.rankMap (Keeps.frame (Keeps.branch hk.frame hk)))

theorem Keeps.formWafer (hk : Keeps false s₀ s) : Keeps false s₀ s.formWafer := hk.frame

theorem Keeps.reformWafer (hk : Keeps false s₀ s) : Keeps false s₀ s.reformWafer := by
  unfold State.reformWafer
  split
  · exact hk
  · exact Keeps.branch hk hk.frame

theorem Keeps.stages6to8 (hk : Keeps false s₀ s) : Keeps false s₀ s.stages6to8 :=
  Keeps.frame (Keeps.trainPorts (Keeps.frame (Keeps.foldl (fun _ _ hv => hv.runUbnar) (Keeps.formWafer (hk.foldl (fun _ _ hv =>
      hv.giveBuddy))))))

theorem Keeps.drawKey (hk : Keeps false s₀ s) : Keeps false s₀ s.drawKey := hk.frame

theorem Keeps.execPowerUp {bad : Nat} {failed : List (Nat × Nat)} (hk : Keeps false s₀ s) : Goes false s₀ (execPowerUp bad failed s) := by
  unfold Machine.execPowerUp
  refine Goes.branch ?_ ?_
  · exact hk.goes
  · refine Goes.branch ?_ ?_
    · exact hk.cold.measure.bootFail.goes
    · refine Goes.branch ?_ ?_
      · exact hk.cold.measure.bootFail.goes
      · refine Goes.branch ?_ ?_
        · exact hk.cold.measure.bootFail.goes
        · refine Goes.branch ?_ ?_
          · exact hk.cold.measure.bootFail.goes
          · exact Goes.branch hk.cold.measure.stage5.drawKey.stages6to8.goes hk.cold.measure.stage5.bootFail.goes

theorem Keeps.dark (hk : Keeps false s₀ s) : Keeps false s₀ s.dark := ⟨fun h => Memory.wf_filter _ (hk.mem h), fun _ => rfl, nofun⟩

theorem Keeps.execModulePowerLoss {stage : Nat} (hk : Keeps false s₀ s) : Goes false s₀ (execModulePowerLoss stage s) := by
  unfold Machine.execModulePowerLoss
  refine Goes.branch ?_ ?_
  · exact hk.goes
  · split
    · exact hk.frame.dark.goes
    · exact hk.dark.goes

theorem Keeps.execRetirementAppend (hk : Keeps false s₀ s) : Goes false s₀ (execRetirementAppend s) := by
  unfold Machine.execRetirementAppend
  split
  · exact hk.appendRec.frame.goes
  · exact hk.goes

end

end Sys2Proof.Machine
end

section
/-!
PROOFS. What `Keeps` says, of checkpoints, power, recovery, the quantum end and the ports.
-/

namespace Sys2Proof.Machine

section
-- One proof after the other: side by side they would wait for each other, each on a stack of its own.
set_option Elab.async false
variable {u : Bool} {s₀ s t : State} {o o' : Out}

/-! ### Checkpoints -/

theorem Keeps.putImage {site buddy ival : Nat} {g : TileImage} (hk : Keeps false s₀ s) : Keeps false s₀ (s.putImage site buddy ival g) :=
  Keeps.putFirn (hk.frame.foldl (fun _ _ hv => hv.putFirn))

theorem Keeps.boundary {site : Nat} (hk : Keeps false s₀ s) : Keeps false s₀ (s.boundary site) := by
  unfold State.boundary
  refine Keeps.frame ?_
  split
  · exact hk.setTile.log.putImage
  · exact hk.setTile.log

theorem Keeps.putHeader {ward buddy ival start : Nat} (hk : Keeps false s₀ s) : Keeps false s₀ (s.putHeader ward buddy ival start) :=
  hk.putFirn

theorem Keeps.putArea {ward buddy ival : Nat} (hk : Keeps false s₀ s) : Keeps false s₀ (s.putArea ward buddy ival) := by
  unfold State.putArea
  split
  · exact hk.withFirn fun h => Memory.wf_paste _ _ _ h
  · exact hk

theorem Keeps.commitInterval {site : Nat} (hk : Keeps false s₀ s) : Keeps false s₀ (s.commitInterval site) := by
  unfold State.commitInterval
  refine Keeps.release (Keeps.foldl (fun _ _ hv => hv.sendNotice) (Keeps.forgetLines (Keeps.setTile ?_)))
  split
  · exact hk.putArea.putHeader
  · exact hk

/-! ### The start of a quantum and the replay of a log -/

theorem Keeps.fillSlots {core : Nat} (hk : Keeps false s₀ s) : Keeps false s₀ (s.fillSlots core) := by
  unfold State.fillSlots
  refine Keeps.branch hk ?_
  extract_lets v
  have hv : Keeps false s₀ v :=
    hk.foldl fun _ _ h => Keeps.branch (Keeps.getD (fun _ heq => h.fillThread heq) h) h
  exact Keeps.branch hv.beginSteal hv

theorem Keeps.startTile {site : Nat} (hk : Keeps false s₀ s) : Keeps false s₀ (s.startTile site) :=
  Keeps.foldl (fun _ _ hv => hv.fillSlots) (Keeps.setTile (hk.foldl (fun _ _ hv => Keeps.branch hv.putThread hv)))

theorem Keeps.fireTile {site n : Nat} (hk : Keeps false s₀ s) : Keeps false s₀ (s.fireTile site n) := by
  induction n generalizing s with
  | zero => exact hk
  | succ n ih =>
    unfold State.fireTile
    split
    · exact hk
    · exact ih hk.fire

theorem Keeps.bypass {site : Nat} {f : State → State} (hk : Keeps false s₀ s) (hf : ∀ v, Keeps false s₀ v → Keeps false s₀ (f v)) :
    Keeps false s₀ (s.bypass site f) := by
  unfold State.bypass
  extract_lets x quanta old v w
  have hquanta {n : Nat} {y : State} (hy : Keeps false s₀ y) : Keeps false s₀ (quanta n y) := by
    unfold quanta
    split
    · exact hy.setPart
    · exact hy
  have hv : Keeps false s₀ v := hf _ (hquanta hk).setTile
  clear_value v
  exact (hquanta hv.setTile).frame

theorem Keeps.markLine {site : Nat} {i : Item} (hk : Keeps false s₀ s) : Keeps false s₀ (s.markLine site i) := Keeps.branch hk hk.noteLine

theorem Keeps.offerLogged {site : Nat} {i : Item} (hk : Keeps false s₀ s) (h : s.offerLogged site i = some t) : Keeps false s₀ t := by
  unfold State.offerLogged at h
  extract_lets j v at h
  have hv : Keeps false s₀ v := hk.bypass fun _ h => h.emit.offer
  clear_value v
  split at h
  · split at h <;> cases h
    exact hv.dropItem
  · cases h
    exact hv

theorem Keeps.deliverLogged {site : Nat} {i : Item} (hk : Keeps false s₀ s) (h : s.deliverLogged site i = some t) : Keeps false s₀ t := by
  unfold State.deliverLogged at h
  extract_lets j at h
  split at h
  · cases h
    exact hk.bypass fun _ h => h.offerDeposit
  · cases h
    exact hk
  · cases h
    refine hk.bypass fun v hv => Keeps.branch hv.offer (Keeps.branch hv.winWrite ?_)
    split
    · next heq =>
      have hw := Keeps.ofSnd hv.resolve heq
      exact (Keeps.branch hw.putEngine hw.putMem).markLine
    · next heq => exact Keeps.ofSnd hv.resolve heq
  · cases h
    exact hk.bypass fun _ h => h.configureEq
  · split at h
    · split at h
      · exact hk.offerLogged h
      · cases h
    · cases h
      exact hk
  · exact hk.offerLogged h

theorem Keeps.dropRepeat {site : Nat} {i : Item} (hk : Keeps false s₀ s) : Keeps false s₀ (s.dropRepeat site i) := by
  unfold State.dropRepeat
  dsimp only
  split
  · exact Keeps.branch hk hk.dropItem.acknowledge
  · exact Keeps.branch hk.dropItem hk
  · exact Keeps.branch hk.dropItem hk
  · exact Keeps.branch hk.dropItem hk
  · exact Keeps.branch hk.dropItem hk
  · exact hk

theorem Keeps.dropRepeats {site : Nat} (hk : Keeps false s₀ s) : Keeps false s₀ (s.dropRepeats site) := hk.foldl fun _ _ hv => hv.dropRepeat

theorem Keeps.answerLogged {h : Nat} {i : Item} (hk : Keeps false s₀ s) : Keeps false s₀ (s.answerLogged h i) := by
  unfold State.answerLogged
  dsimp only
  split
  · refine Keeps.branch ?_ ?_
    · exact hk.frame.putThread
    · refine Keeps.branch ?_ ?_
      · refine Keeps.putThread (Keeps.frame ?_)
        split
        · split
          · exact hk.performAt
          · exact hk
        · exact hk
      · refine Keeps.raiseAt (Keeps.frame ?_)
        split
        · split
          · exact hk.performAt
          · exact hk
        · exact hk
  · exact hk.frame.putThread
  · exact hk

theorem Keeps.landLogged {site ch : Nat} {x : Xfer} {r : LogRec} (hk : Keeps false s₀ s) : Keeps false s₀ (s.landLogged site ch x r) :=
  hk.linePieces.setXfer

theorem Keeps.startLogged {site slot : Nat} {mid : Word} (hk : Keeps false s₀ s) (h : s.startLogged site mid slot = some t) :
    Keeps false s₀ t := by
  unfold State.startLogged at h
  extract_lets hart core c at h
  split at h
  · cases h
  · split at h
    · cases h
      exact hk.setCore.startMsg
    · split at h <;> cases h
      exact hk.setCore.startFrame

theorem Keeps.stealLogged {site : Nat} {r : LogRec} (hk : Keeps false s₀ s) : Keeps false s₀ (s.stealLogged site r) := by
  unfold State.stealLogged
  split
  · refine Keeps.branch ?_ ?_
    · split
      · exact hk.countRecv.pushFrame.setCore
      · exact hk
    · exact hk.countSent.setCore
  · exact hk

theorem Keeps.holdJob {t : Taken} {members : List Nat} (hk : Keeps false s₀ s) : Keeps false s₀ (s.holdJob t members).2 := by
  unfold State.holdJob
  split
  · exact hk
  · exact hk.setPart

theorem Keeps.replayAgain {t : Taken} {id top count : Nat} (hk : Keeps false s₀ s) : Keeps false s₀ (s.replayAgain t id top count) := by
  unfold State.replayAgain
  refine Keeps.branch ?_ ?_
  · exact hk.frame
  · split
    · exact hk
    · exact hk.frame.setPacket

theorem Keeps.passAgain {t : Taken} (hk : Keeps false s₀ s) : Keeps false s₀ (s.passAgain t) := by
  unfold State.passAgain
  split
  · exact Keeps.branch hk.frame hk
  · exact hk

theorem Keeps.retake {t : Taken} {body : List Word} (hk : Keeps false s₀ s) : Keeps false s₀ (s.retake t body) := by
  unfold State.retake
  dsimp only
  split
  · exact Keeps.replayAgain (Keeps.frame (Keeps.passAgain (Keeps.branch hk.holdJob hk)))
  · exact Keeps.frame (Keeps.passAgain (Keeps.branch hk.holdJob hk))

theorem Keeps.forgetPacket {id : Nat} (hk : Keeps false s₀ s) : Keeps false s₀ (s.forgetPacket id) := hk.frame

theorem Keeps.performedAgain {site id seq : Nat} (hk : Keeps false s₀ s) : Keeps false s₀ (s.performedAgain site id seq) :=
  hk.frame.putThread

theorem Keeps.relaunch {site : Nat} {i : Item} {packet : Nat} (hk : Keeps false s₀ s) : Keeps false s₀ (s.relaunch site i packet) :=
  Keeps.branch hk.setPacket.putThread.countSent hk.setPacket.putThread.countSent.emit

theorem Keeps.atomicLogged {site : Nat} {r : LogRec} (hk : Keeps false s₀ s) (h : s.atomicLogged site r = some t) : Keeps false s₀ t := by
  unfold State.atomicLogged at h
  extract_lets mine at h
  split at h
  · cases h
  · split at h
    · split at h <;> cases h
      · next heq => exact (Keeps.ofSnd hk.resolve heq).bypass fun _ h => h.performAt.ownTaken
      · next heq => exact Keeps.ofSnd hk.resolve heq
    · cases h

theorem Keeps.barrierLogged {site : Nat} {i : Item} (hk : Keeps false s₀ s) : Keeps false s₀ (s.barrierLogged site i) := by
  unfold State.barrierLogged
  split
  · exact hk.countBarrier
  · exact hk

theorem Keeps.runRecord {site : Nat} {r : LogRec} (hk : Keeps false s₀ s) (h : s.runRecord site r = some t) : Keeps false s₀ t := by
  unfold State.runRecord at h
  split at h
  case h_1 =>
    split at h
    · split at h
      · exact hk.deliverLogged h
      · cases h
    · cases h
      exact hk
  case h_2 | h_3 =>
    split at h
    · extract_lets hart at h
      split at h <;> cases h
      exact hk.answerLogged
    · split at h
      · cases h
        exact hk
      · obtain ⟨_, _, rfl⟩ := Option.map_eq_some_iff.1 h
        exact hk.landLogged
  case h_4 => exact hk.startLogged h
  case h_5 | h_6 =>
    split at h <;> cases h
    exact hk.stealLogged
  case h_7 =>
    extract_lets n q at h
    split at h <;> cases h
    exact hk.fire
  case h_8 => exact hk.atomicLogged h
  case h_9 =>
    cases h
    exact hk
  case h_10 =>
    obtain ⟨_, _, rfl⟩ := Option.map_eq_some_iff.1 h
    exact hk.relaunch
  case h_11 =>
    obtain ⟨_, _, rfl⟩ := Option.map_eq_some_iff.1 h
    exact hk.barrierLogged
  case h_12 =>
    obtain ⟨_, _, rfl⟩ := Option.map_eq_some_iff.1 h
    exact hk.retake
  case h_13 =>
    cases h
    refine Keeps.forgetPacket (Keeps.getD (fun v hv => ?_) hk)
    obtain ⟨_, _, rfl⟩ := Option.map_eq_some_iff.1 hv
    exact hk.passAgain
  case h_14 =>
    cases h
    exact hk
  case h_15 =>
    cases h
    exact hk.performedAgain
  case h_16 => cases h

theorem Keeps.dropRecord {site : Nat} {r : LogRec} (hk : Keeps false s₀ s) : Keeps false s₀ (s.dropRecord site r) := hk.setTile

theorem Keeps.pumpNormal {site : Nat} (hk : Keeps false s₀ s) (h : s.pumpNormal site = some t) : Keeps false s₀ t := by
  unfold State.pumpNormal at h
  split at h
  · cases h
  · obtain ⟨_, hv, rfl⟩ := Option.map_eq_some_iff.1 h
    exact (hk.runRecord hv).dropRecord

theorem Keeps.serveLogged {site : Nat} {r : LogRec} (hk : Keeps false s₀ s) : Keeps false s₀ (s.serveLogged site r) := by
  unfold State.serveLogged
  split
  · next heq =>
      exact (hk.runRecord heq).dropRecord
  · exact hk

theorem Keeps.runDue {site : Nat} {r : LogRec} (hk : Keeps false s₀ s) (h : s.runDue site r = some t) : Keeps false s₀ t := by
  unfold State.runDue at h
  split at h
  · cases h
  · split at h
    · next heq =>
      cases h
      exact (hk.runRecord heq).dropRecord
    · split at h <;> cases h
      exact hk.dropRecord

theorem Keeps.endReplayed {site : Nat} {now : List LogRec} (hk : Keeps false s₀ s) : Keeps false s₀ (s.endReplayed site now) := by
  unfold State.endReplayed
  exact Keeps.startTile (Keeps.setTile (Keeps.foldl (fun _ _ hv => hv.serveLogged) (Keeps.fireTile (hk.foldl (fun _ _ hv =>
      hv.serveLogged)))))

theorem Keeps.pumpDet {site p : Nat} (hk : Keeps false s₀ s) (h : s.pumpDet site p = some t) : Keeps false s₀ t := by
  unfold State.pumpDet at h
  extract_lets x at h
  split at h
  · obtain ⟨_, hv, rfl⟩ := Option.map_eq_some_iff.1 h
    exact (hk.runRecord hv).dropRecord
  · split at h
    · cases h
    · split at h
      · next heq =>
        cases h
        obtain ⟨_, _, _, _, hr, _⟩ := List.findSome?_eq_some_iff.1 heq
        exact hk.runDue hr
      · split at h
        · obtain rfl := Option.some.inj h
          exact hk.endReplayed
        · cases h

theorem Keeps.pump {site n : Nat} (hk : Keeps false s₀ s) : Keeps false s₀ (s.pump site n) := by
  induction n generalizing s with
  | zero => exact hk
  | succ n ih =>
    unfold State.pump
    extract_lets p next
    have hnext {v : State} (hv : next = some v) : Keeps false s₀ v := by
      unfold next at hv
      split at hv
      · exact hk.pumpDet hv
      · exact hk.pumpNormal hv
    clear_value next
    split
    · exact ih (hnext rfl)
    · exact hk

theorem Keeps.pumpAll (hk : Keeps false s₀ s) : Keeps false s₀ s.pumpAll := hk.foldl fun _ _ hv => hv.pump.dropRepeats

/-! ### Power regions -/

theorem Keeps.setReg {region : Nat} {r : Region} (hk : Keeps false s₀ s) : Keeps false s₀ (s.setReg region r) := hk.frame

theorem Keeps.recordExcursion {p region cause start dur lost : Nat} (hk : Keeps false s₀ s) :
    Keeps false s₀ (s.recordExcursion p region cause start dur lost) := by
  unfold State.recordExcursion
  exact hk.setPart.recordOwn

theorem Keeps.countExcursion {region : Nat} (hk : Keeps false s₀ s) : Keeps false s₀ (s.countExcursion region) := hk.setReg

theorem Keeps.trip {region : Nat} {c : Throttle} (hk : Keeps false s₀ s) : Keeps false s₀ (s.trip region c) :=
  Keeps.branch hk (Keeps.branch (Keeps.branch hk.setReg.countExcursion hk.setReg) hk.setReg)

theorem Keeps.endExcursion {p region : Nat} (hk : Keeps false s₀ s) : Keeps false s₀ (s.endExcursion p region) := by
  unfold State.endExcursion
  exact hk.recordExcursion

theorem Keeps.beginExcursions {regions : List Nat} (hk : Keeps false s₀ s) : Keeps false s₀ (s.beginExcursions regions) :=
  hk.foldl fun _ _ hv => hv.setReg.countExcursion

theorem Keeps.endExcursions {p : Nat} (hk : Keeps false s₀ s) : Keeps false s₀ (s.endExcursions p) :=
  Keeps.branch hk (hk.foldl (fun _ _ hv => hv.endExcursion))

theorem Keeps.clearCause {region : Nat} {c : Throttle} (hk : Keeps false s₀ s) : Keeps false s₀ (s.clearCause region c) := by
  unfold State.clearCause
  refine Keeps.branch ?_ ?_
  · exact hk
  · refine Keeps.branch ?_ ?_
    · split
      · exact hk.setReg.endExcursion
      · exact hk.setReg
    · exact hk.setReg

theorem Keeps.foreignStart {p l site : Nat} (hk : Keeps false s₀ s) : Keeps false s₀ (s.foreignStart p l site) :=
  Keeps.branch hk hk.setPart.countExcursion

theorem Keeps.foreignEnd {p l : Nat} (hk : Keeps false s₀ s) : Keeps false s₀ (s.foreignEnd p l) := by
  unfold State.foreignEnd
  dsimp only
  split
  · exact hk
  · exact hk.setPart.recordExcursion

theorem Keeps.execCsteplimWrite {region : Nat} {val : Word} (hk : Keeps false s₀ s) : Goes false s₀ (execCsteplimWrite region val s) :=
  hk.setReg.goes

theorem Keeps.emitAll {l : List Item} (hk : Keeps false s₀ s) : Keeps false s₀ (s.emitAll l) := hk.foldl fun _ _ hv => hv.emit

theorem Keeps.execLaunchWaveForward {k : Nat} (hk : Keeps false s₀ s) : Goes false s₀ (execLaunchWaveForward k s) := by
  unfold Machine.execLaunchWaveForward
  split
  · exact hk.goes
  · refine Goes.branch ?_ ?_
    · exact hk.goes
    · split
      · exact hk.frame.goes
      · exact hk.frame.emitAll.goes

/-! ### Failures and tile recovery -/

theorem Keeps.askAppend {p : Option Nat} {site : Nat} {r : Rec} (hk : Keeps false s₀ s) : Keeps false s₀ (s.askAppend p site r) := by
  unfold State.askAppend
  split
  · exact Keeps.branch hk.assistFor.frame hk.frame
  · exact hk.frame

theorem Keeps.dropFirn {ward : Nat} (hk : Keeps false s₀ s) : Keeps false s₀ (s.dropFirn ward) := hk.frame

theorem Keeps.fullInterval {ward : Nat} (hk : Keeps false s₀ s) : Keeps false s₀ (s.fullInterval ward) := by
  unfold State.fullInterval
  refine Keeps.dropFirn ?_
  split
  · exact hk.setTile.emptyFirn
  · exact hk.setTile

theorem Keeps.reassignBuddy {old : Nat} (hk : Keeps false s₀ s) : Keeps false s₀ (s.reassignBuddy old) := by
  unfold State.reassignBuddy
  split
  · exact hk
  · exact hk.leaveBuddy.giveBuddy.fullInterval

theorem Keeps.superviseNow {region : Nat} (hk : Keeps false s₀ s) : Keeps false s₀ (s.superviseNow region) :=
  Keeps.foldl (fun _ _ hv => hv.reassignBuddy) (hk.supervise.foldl (fun _ _ hv => hv.runUbnar))

theorem Keeps.retryBuddies (hk : Keeps false s₀ s) : Keeps false s₀ s.retryBuddies :=
  hk.foldl fun _ _ hv => Keeps.branch hv.giveBuddy.fullInterval hv.giveBuddy

theorem Keeps.moveItems {old new : Nat} (hk : Keeps false s₀ s) : Keeps false s₀ (s.moveItems old new) := hk.frame

theorem Keeps.blankSite {site : Nat} (hk : Keeps false s₀ s) : Keeps false s₀ (s.blankSite site) :=
  ⟨fun h => Memory.wf_clear _ _ (Memory.wf_clear _ _ (hk.mem h)), hk.firn, nofun⟩

theorem Keeps.handOver {old : Nat} {new : Option Nat} (hk : Keeps false s₀ s) : Keeps false s₀ (s.handOver old new) := by
  unfold State.handOver
  dsimp only
  split
  · exact hk.setTile.fullInterval
  · exact hk.reassignBuddy
  · exact hk

theorem Keeps.carryRequests {old new : Nat} (hk : Keeps false s₀ s) : Keeps false s₀ (s.carryRequests old new) :=
  hk.foldl fun _ _ hv => hv.setCore

theorem Keeps.takeover {l site y : Nat} (hk : Keeps false s₀ s) : Keeps false s₀ (s.takeover l site y) := by
  unfold State.takeover
  exact hk.reassignBuddy.foreignEnd.moveRank.moveItems.blankSite.carryRequests.setTile.setTile.handOver.ubnarCtl.foreignStart

theorem Keeps.rebase {site at_ : Nat} (hk : Keeps false s₀ s) : Keeps false s₀ (s.rebase site at_) := hk.setTile

theorem Keeps.loadImage {site : Nat} {g : TileImage} (hk : Keeps false s₀ s) : Keeps false s₀ (s.loadImage site g) := by
  unfold State.loadImage
  extract_lets old x i cores v₁ v₂ v₃ v₄ v m
  have hv : Keeps false s₀ v :=
    Keeps.foldl (fun _ _ h => h.putThread) (hk.blankSite.setTile.rebase.foldl fun _ _ h => h.setCore)
  clear_value v
  exact ⟨fun h => Memory.wf_paste _ _ _ (Memory.wf_paste _ _ _ (Memory.wf_paste _ _ _ (hv.mem h))), hv.firn, nofun⟩

theorem Keeps.resendIssued {site : Nat} {g : TileImage} (hk : Keeps false s₀ s) : Keeps false s₀ (s.resendIssued site g) := hk.frame

theorem Keeps.stopPart {p : Nat} (hk : Keeps false s₀ s) : Keeps false s₀ (s.stopPart p) := Keeps.branch hk.setPart hk

theorem Keeps.awaitRestore {l region : Nat} (hk : Keeps false s₀ s) : Keeps false s₀ (s.awaitRestore l region) := by
  unfold State.awaitRestore
  split
  · exact hk
  · dsimp only
    split
    · exact hk
    · exact Keeps.branch hk.setTile hk.stopPart

theorem Keeps.restoreHere {x : Nat} (hk : Keeps false s₀ s) : Keeps false s₀ (s.restoreHere x) := by
  unfold State.restoreHere
  dsimp only
  split
  · exact Keeps.branch hk.stopPart hk.moveItems.awaitRestore
  · exact hk

theorem Keeps.swapTile {l site cause : Nat} (hk : Keeps false s₀ s) : Keeps false s₀ (s.swapTile l site cause).2 := by
  unfold State.swapTile
  extract_lets p v w x y
  have hy : Keeps false s₀ y := hk.askAppend.handOver.leaveBuddy.retireSite.setTile.frame
  clear_value y p
  split
  · cases p
    · exact hy
    · exact hy.ubnarCtl
  · dsimp only
    exact hk.askAppend.takeover

theorem Keeps.rehomeOne {x : Nat} (hk : Keeps false s₀ s) : Keeps false s₀ (s.rehomeOne x) := by
  unfold State.rehomeOne
  extract_lets l v p
  have hv : Keeps false s₀ v := hk.leaveHome.giveHome
  clear_value v l p
  split
  · exact hv.restoreHere
  · cases l with
    | none => exact hv
    | some l =>
      have hw := hv.swapTile (l := l) (site := x) (cause := 5)
      dsimp only
      generalize v.swapTile l x 5 = q at hw ⊢
      obtain ⟨ok, w⟩ := q
      cases p
      · cases ok <;> exact hw
      · cases ok
        · exact hw.stopPart
        · exact hw.awaitRestore

theorem Keeps.disablePorts (hk : Keeps false s₀ s) : Keeps false s₀ s.disablePorts :=
  hk.foldl fun _ _ hv => Keeps.branch hv.setPort.portDown hv

theorem Keeps.afterRetire (hk : Keeps false s₀ s) : Keeps false s₀ s.afterRetire :=
  Keeps.disablePorts (Keeps.reformWafer (Keeps.retryBuddies (hk.foldl (fun _ _ hv => hv.rehomeOne))))

theorem Keeps.restartRecoveries {region : Nat} (hk : Keeps false s₀ s) : Keeps false s₀ (s.restartRecoveries region) :=
  hk.foldl fun _ _ hv => hv.moveItems.setTile

theorem Keeps.retirePlain {site cause : Nat} (hk : Keeps false s₀ s) : Keeps false s₀ (s.retirePlain site cause) :=
  Keeps.afterRetire (Keeps.branch hk.askAppend.retireSite.handOver.superviseNow.restartRecoveries hk.askAppend.retireSite.handOver)

theorem Keeps.replaceTile {l site cause : Nat} (hk : Keeps false s₀ s) : Keeps false s₀ (s.replaceTile l site cause).2 := by
  have hw := hk.swapTile (l := l) (site := site) (cause := cause)
  unfold State.replaceTile
  generalize s.swapTile l site cause = q at hw ⊢
  obtain ⟨ok, w⟩ := q
  dsimp only at hw ⊢
  exact hw.afterRetire

theorem Keeps.recoverTile {p l site cause : Nat} (hk : Keeps false s₀ s) : Keeps false s₀ (s.recoverTile p l site cause) := by
  unfold State.recoverTile
  split
  · next heq =>
      exact (hk.swapTile.ofSnd heq).stopPart.afterRetire
  · next heq =>
      exact (hk.swapTile.ofSnd heq).awaitRestore.afterRetire

theorem Keeps.rollTile {p l site cause : Nat} (hk : Keeps false s₀ s) : Keeps false s₀ (s.rollTile p l site cause) :=
  hk.replaceTile.stopPart

theorem Keeps.noteLost {site : Nat} (hk : Keeps false s₀ s) : Keeps false s₀ (s.noteLost site) := by
  unfold State.noteLost
  split
  · exact hk.setPart
  · exact hk

theorem Keeps.failSite {site cause : Nat} (hk : Keeps false s₀ s) : Keeps false s₀ (s.failSite site cause) := by
  unfold State.failSite
  dsimp only
  split
  · refine Keeps.stopPart ?_
    split
    · exact hk.noteLost.retirePlain
    · split
      · exact hk.noteLost.replaceTile
      · refine Keeps.branch ?_ ?_
        · exact Keeps.rollTile (Keeps.branch hk.noteLost.commitInterval hk.noteLost)
        · refine Keeps.branch ?_ ?_
          · exact Keeps.assistFor (Keeps.branch hk.noteLost.commitInterval hk.noteLost)
          · exact Keeps.recoverTile (Keeps.branch hk.noteLost.commitInterval hk.noteLost)
  · split
    · exact hk.noteLost.retirePlain
    · split
      · exact hk.noteLost.replaceTile
      · refine Keeps.branch ?_ ?_
        · exact Keeps.rollTile (Keeps.branch hk.noteLost.commitInterval hk.noteLost)
        · refine Keeps.branch ?_ ?_
          · exact Keeps.assistFor (Keeps.branch hk.noteLost.commitInterval hk.noteLost)
          · exact Keeps.recoverTile (Keeps.branch hk.noteLost.commitInterval hk.noteLost)

theorem Keeps.nextRecovery {region : Nat} (hk : Keeps false s₀ s) : Keeps false s₀ (s.nextRecovery region) := by
  unfold State.nextRecovery
  dsimp only
  split
  · exact hk
  · exact hk.frame.failSite

theorem Keeps.recoverNext (hk : Keeps false s₀ s) : Keeps false s₀ s.recoverNext := hk.foldl fun _ _ hv => hv.nextRecovery

theorem Keeps.lateFailure {site cause : Nat} (hk : Keeps false s₀ s) : Keeps false s₀ (s.lateFailure site cause) :=
  Keeps.branch hk.setTile.afterRetire hk

theorem Keeps.emptyMapped (hk : Keeps false s₀ s) : Keeps false s₀ s.emptyMapped := hk.frame

theorem Keeps.loseHome {home : Nat} (hk : Keeps false s₀ s) : Keeps false s₀ (s.loseHome home) := hk.foldl fun _ _ hv => hv.restoreHere

theorem Keeps.loseStack {k : Nat} (hk : Keeps false s₀ s) : Keeps false s₀ (s.loseStack k) := hk.foldl fun _ _ hv => hv.setPart

theorem Keeps.execUncorrectableError {kind at_ : Nat} (hk : Keeps false s₀ s) : Goes false s₀ (execUncorrectableError kind at_ s) := by
  unfold Machine.execUncorrectableError
  split
  · exact Goes.branch hk.lateFailure.goes (Goes.branch hk.goes hk.stopTile.goes)
  · split
    · exact hk.loseHome.goes
    · exact hk.goes
  · exact Goes.branch hk.frame.goes hk.goes
  · exact Goes.branch hk.goes hk.loseStack.goes
  · exact Goes.branch hk.goes hk.stopTile.setTile.goes
  · exact hk.goes

theorem Keeps.record7 {p obj l off : Nat} (hk : Keeps false s₀ s) : Keeps false s₀ (s.record7 p obj l off) := hk.record

theorem Keeps.holdCaps {p : Nat} {caps : List Nat} {held : Nat} (hk : Keeps false s₀ s) : Keeps false s₀ (s.holdCaps p caps held) :=
  hk.foldl fun _ _ hv => Keeps.branch hv.setHeld hv

theorem Keeps.queuesBack {log : List LogRec} (hk : Keeps false s₀ s) : Keeps false s₀ (s.queuesBack log) := by
  unfold State.queuesBack
  refine hk.foldl fun _ _ hv => ?_
  split
  · split
    · exact Keeps.branch hv.frame hv
    · exact hv
  · exact hv

theorem Keeps.resumePackets {site : Nat} {g : TileImage} (hk : Keeps false s₀ s) : Keeps false s₀ (s.resumePackets site g) :=
  Keeps.foldl (fun _ _ hv => hv.holdCaps) (Keeps.frame (hk.queuesBack.foldl (fun _ _ hv => hv.holdCaps)))

theorem Keeps.dropLogged {site : Nat} (hk : Keeps false s₀ s) : Keeps false s₀ (s.dropLogged site) := hk.frame

theorem Keeps.restoreFirn {site p buddy : Nat} {f : Firn} (hk : Keeps false s₀ s) : Keeps false s₀ (s.restoreFirn site p buddy f) := by
  unfold State.restoreFirn
  refine Keeps.branch ?_ ?_
  · exact hk.loadImage.resumePackets.dropLogged.setTile.resendIssued.ubnarCtl.startTile
  · exact hk.loadImage.resumePackets.dropLogged.setTile.resendIssued.ubnarCtl

theorem Keeps.execFirnRestore {site bad : Nat} (hk : Keeps false s₀ s) : Goes false s₀ (execFirnRestore site bad s) := by
  unfold Machine.execFirnRestore
  refine Goes.branch ?_ ?_
  · exact hk.goes
  · split
    · refine Goes.branch ?_ ?_
      · exact hk.stopPart.goes
      · refine Goes.branch ?_ ?_
        · exact hk.record7.stopPart.goes
        · split
          · exact hk.record7.stopPart.goes
          · exact hk.restoreFirn.goes
    · exact (Keeps.stopPart (Keeps.branch hk.record7 hk)).goes
    · exact hk.stopPart.goes

theorem Keeps.putBack {site : Nat} {l : List LogRec} (hk : Keeps false s₀ s) : Keeps false s₀ (s.putBack site l) := hk.frame

theorem Keeps.execReplayEnd {site : Nat} (hk : Keeps false s₀ s) : Goes false s₀ (execReplayEnd site s) := by
  unfold Machine.execReplayEnd
  refine Goes.branch ?_ ?_
  · exact hk.goes
  · exact Goes.branch hk.stopPart.goes ((hk.setTile.putBack.frame.foldl (fun _ _ hv => hv.emit)).goes)

theorem Keeps.execScrub {site bonded scratch : Nat} (hk : Keeps false s₀ s) : Goes false s₀ (execScrub site bonded scratch s) := by
  unfold Machine.execScrub
  split
  · exact hk.setAgent.goes
  · exact hk.setTile.goes

theorem Keeps.failBank {site : Nat} (hk : Keeps false s₀ s) : Keeps false s₀ (s.failBank site) :=
  Keeps.branch hk.setTile hk.setTile.stopTile

theorem Keeps.failAccBank {site : Nat} (hk : Keeps false s₀ s) : Keeps false s₀ (s.failAccBank site) :=
  Keeps.branch hk.setTile hk.stopTile.setTile

theorem Keeps.execBankRebuild {event : BankEvent} (hk : Keeps false s₀ s) : Goes false s₀ (execBankRebuild event s) := by
  unfold Machine.execBankRebuild
  refine Goes.branch ?_ ?_
  · exact hk.goes
  · split
    · exact hk.failBank.goes
    · exact Goes.branch hk.setTile.goes hk.goes
    · exact hk.failAccBank.goes
    · exact Goes.branch hk.setTile.goes hk.goes
    · exact hk.goes

/-! ### Recovery points and partition rollback -/

theorem Keeps.purge {p : Nat} (hk : Keeps false s₀ s) : Keeps false s₀ (s.purge p) := hk.part

theorem Keeps.notice {p job : Nat} (hk : Keeps false s₀ s) : Keeps false s₀ (s.notice p job) := by
  unfold State.notice
  exact Keeps.recordOwn (hk.setPart.frame.foldl (fun _ _ hv => hv.manageOut))

theorem Keeps.record8 {p : Nat} {w : Nat × Nat} (hk : Keeps false s₀ s) : Keeps false s₀ (s.record8 p w) := hk.record

theorem Keeps.blankPart {p : Nat} (hk : Keeps false s₀ s) : Keeps false s₀ (s.blankPart p) :=
  ⟨fun h => Memory.wf_filter _ (hk.mem h), hk.firn, nofun⟩

theorem Keeps.loadTiles {l : List ((Nat × Nat) × TileImage)} (hk : Keeps false s₀ s) : Keeps false s₀ (s.loadTiles l) := by
  induction l generalizing s with
  | nil => exact hk
  | cons x rest ih => exact ih hk.loadImage.resendIssued

theorem Keeps.loadPoint {p : Nat} {r : RecPoint} (hk : Keeps false s₀ s) : Keeps false s₀ (s.loadPoint p r) := by
  have hblank : Keeps false s₀ (s.blankPart p) := hk.blankPart
  unfold State.loadPoint
  extract_lets v mem full w
  have hw : Keeps false s₀ w :=
    ⟨fun h => Memory.wf_foldl _ (fun _ _ => Memory.wf_write _ _) _ (hblank.mem h), hblank.firn, nofun⟩
  clear_value w
  exact hw.loadTiles.setPart.frame

theorem Keeps.fullAll {p : Nat} (hk : Keeps false s₀ s) : Keeps false s₀ (s.fullAll p) :=
  Keeps.branch (hk.foldl (fun _ _ hv => hv.fullInterval)) hk

theorem Keeps.disableQueues {p : Nat} (hk : Keeps false s₀ s) : Keeps false s₀ (s.disableQueues p) := hk.frame

theorem Keeps.attestOp {w : Vector Word 8} (hk : Keeps false s₀ s) : Keeps false s₀ (s.attestOp w) := hk.frame

theorem Keeps.accepted {id : Nat} (hk : Keeps false s₀ s) : Keeps false s₀ (s.accepted id) := by
  unfold State.accepted
  split
  · exact hk.attestOp.setPacket
  · exact hk

theorem Keeps.finishRestore {p : Nat} (hk : Keeps false s₀ s) : Keeps false s₀ (s.finishRestore p) := by
  unfold State.finishRestore
  refine Keeps.branch ?_ ?_
  · exact hk
  · refine Keeps.setPart (Keeps.ubnarCtl ?_)
    split
    · refine Keeps.accepted (Keeps.disableQueues (Keeps.fullAll ?_))
      split
      · exact hk.loadPoint
      · exact hk.blankPart.setPart
    · refine Keeps.disableQueues (Keeps.fullAll ?_)
      split
      · exact hk.loadPoint
      · exact hk.blankPart.setPart

theorem Keeps.discard {part : Nat} (hk : Keeps false s₀ s) : Keeps false s₀ (s.discard part) :=
  Keeps.foldl (fun _ _ hv => hv.record8) (hk.purge.foldl (fun _ _ hv => hv.notice))

theorem Keeps.readBack {part : Nat} (hk : Keeps false s₀ s) : Keeps false s₀ (s.readBack part) := hk.setPart.finishRestore

/-! ### The end of a quantum -/

theorem Keeps.serveSteal {i : Item} {thief : Nat} (hk : Keeps false s₀ s) : Keeps false s₀ (s.serveSteal i thief) := by
  unfold State.serveSteal
  dsimp only
  split
  · exact hk.dropItem
  · split
    · exact hk.dropItem.setCore
    · split
      · exact hk.dropItem
      · split
        · next heq =>
            exact (hk.dropItem.grant.ofSnd heq).countSent.stolen
        · next heq =>
            exact (hk.dropItem.grant.ofSnd heq).setCore

theorem Keeps.servePacket {i : Item} {w : Vector Word 8} (hk : Keeps false s₀ s) : Keeps false s₀ (s.servePacket i w) := hk.dropItem.frame

theorem Keeps.serve {i : Item} (hk : Keeps false s₀ s) : Keeps false s₀ (s.serve i) := by
  unfold State.serve
  split
  · exact hk
  · refine Keeps.branch ?_ ?_
    · exact hk
    · split
      · exact hk.serveSteal
      · exact hk.servePacket
      · exact hk
      · exact hk
      · exact hk
      · exact hk.offer

theorem Keeps.serveAll {p : Nat} (hk : Keeps false s₀ s) : Keeps false s₀ (s.serveAll p) :=
  Keeps.foldl (fun _ _ hv => hv.serve) (hk.foldl (fun _ _ hv => hv.serve))

theorem Keeps.serveFires {p : Nat} (hk : Keeps false s₀ s) : Keeps false s₀ (s.serveFires p) := by
  unfold State.serveFires
  refine hk.foldl fun _ _ hv => ?_
  split
  · exact Keeps.branch hv hv.acceptFire
  · exact hv

theorem Keeps.fireAll {p : Nat} (hk : Keeps false s₀ s) : Keeps false s₀ (s.fireAll p) :=
  Keeps.foldl (fun _ _ hv => hv.serve) (hk.foldl (fun _ _ hv => hv.fireTile))

theorem Keeps.serveAnswers {p : Nat} (hk : Keeps false s₀ s) : Keeps false s₀ (s.serveAnswers p) := by
  unfold State.serveAnswers
  refine hk.foldl fun _ _ hv => ?_
  split
  · exact hv.answer
  · exact hv.spawnAnswered
  · exact hv

theorem Keeps.preemptCore {core : Nat} (hk : Keeps false s₀ s) : Keeps false s₀ (s.preemptCore core) :=
  Keeps.branch (Keeps.setCore (Keeps.branch hk.setCore hk)) (Keeps.branch hk.setCore hk)

theorem Keeps.boundaryIf {site : Nat} (hk : Keeps false s₀ s) : Keeps false s₀ (s.boundaryIf site) := Keeps.branch hk.boundary hk

theorem Keeps.execQuantumEnd {part : Nat} (hk : Keeps false s₀ s) : Goes false s₀ (execQuantumEnd part s) := by
  unfold Machine.execQuantumEnd
  refine Goes.branch ?_ ?_
  · exact hk.goes
  · exact (Keeps.foldl (fun _ _ hv => hv.startTile) (Keeps.setPart (Keeps.foldl (fun _ _ hv => hv.boundaryIf)
        (hk.serveAll.wakeWaiters.serveFires.fireAll.serveAnswers.foldl (fun _ _ hv => hv.preemptCore))))).goes

/-! ### The host port and the Rypol ports -/

theorem Keeps.setQueue {fn q : Nat} {r : QRegs} (hk : Keeps false s₀ s) : Keeps false s₀ (s.setQueue fn q r) := hk.frame

theorem Keeps.cpSeq {p c : Nat} (hk : Keeps false s₀ s) : Keeps false s₀ (s.cpSeq p c).2 := by
  unfold State.cpSeq
  split
  · exact Keeps.branchSnd hk hk.takeSeq
  · exact hk

theorem Keeps.askBoundary {site : Nat} (hk : Keeps false s₀ s) : Keeps false s₀ (s.askBoundary site) := Keeps.branch hk.setTile hk

theorem Keeps.commitOut {p c : Nat} {i : Item} (hk : Keeps false s₀ s) : Keeps false s₀ (s.commitOut p c i) := by
  unfold State.commitOut
  split
  · exact Keeps.branch hk.frame.askBoundary hk.leaveExposed
  · exact hk.leave

theorem Keeps.signalOut {p c fn id : Nat} {a : Word} {op : Nat} {v : Word} (hk : Keeps false s₀ s) :
    Keeps false s₀ (s.signalOut p c fn id a op v) :=
  hk.cpSeq.commitOut

theorem Keeps.irqOut {p c fn id vector : Nat} (hk : Keeps false s₀ s) : Keeps false s₀ (s.irqOut p c fn id vector) := hk.cpSeq.commitOut

theorem Keeps.record3 {p fn q idx code : Nat} (hk : Keeps false s₀ s) : Keeps false s₀ (s.record3 p fn q idx code) := hk.record

theorem Keeps.stopQueue {p fn q code idx : Nat} (hk : Keeps false s₀ s) : Keeps false s₀ (s.stopQueue p fn q code idx) :=
  Keeps.branch hk.record3 hk.setQueue.irqOut.record3

theorem Keeps.unsupported {fn off : Nat} (hk : Keeps false s₀ s) : Keeps false s₀ (s.unsupported fn off) := hk.frame

theorem Keeps.queueWrite {fn q off : Nat} {f : QRegs → State} (hk : Keeps false s₀ s) (hf : ∀ x, Keeps false s₀ (f x)) :
    Goes false s₀ (queueWrite s fn q off f) := by
  unfold Machine.queueWrite
  exact Goes.branch hk.goes (Goes.branch hk.unsupported.goes (Goes.branch hk.goes (hf _).goes))

theorem Keeps.execQbaseWrite {fn q : Nat} {val : Word} (hk : Keeps false s₀ s) : Goes false s₀ (execQbaseWrite fn q val s) :=
  hk.queueWrite fun _ => Keeps.branch hk hk.setQueue

theorem Keeps.execQcfgWrite {fn q : Nat} {val : Word} (hk : Keeps false s₀ s) : Goes false s₀ (execQcfgWrite fn q val s) :=
  hk.queueWrite fun _ => hk.setQueue

theorem Keeps.execQnotifyWrite {fn q : Nat} {val : Word} (hk : Keeps false s₀ s) : Goes false s₀ (execQnotifyWrite fn q val s) :=
  hk.queueWrite fun _ => Keeps.branch hk.setQueue hk.stopQueue

theorem Keeps.execQstatWrite {fn q : Nat} {val : Word} (hk : Keeps false s₀ s) : Goes false s₀ (execQstatWrite fn q val s) :=
  hk.queueWrite fun _ => Keeps.branch hk.setQueue hk

theorem Keeps.execPortStatusWrite {port : Nat} {val : Word} (hk : Keeps false s₀ s) : Goes false s₀ (execPortStatusWrite port val s) :=
  hk.setPort.goes

theorem Keeps.pageWrite {fn q r : Nat} {val : Word} (hk : Keeps false s₀ s) : Goes false s₀ (pageWrite s fn q r val) := by
  unfold Machine.pageWrite
  split
  · exact hk.execQbaseWrite
  · exact hk.execQcfgWrite
  · exact hk.execQnotifyWrite
  · exact hk.execQstatWrite
  · exact hk.goes

theorem Keeps.execRegisterWrite {fn off size : Nat} {val : Word} (hk : Keeps false s₀ s) :
    Goes false s₀ (execRegisterWrite fn off size val s) := by
  unfold Machine.execRegisterWrite
  refine Goes.branch ?_ ?_
  · exact hk.goes
  · refine Goes.branch ?_ ?_
    · exact hk.unsupported.goes
    · refine Goes.branch ?_ ?_
      · exact Goes.branch hk.execCsteplimWrite (Goes.branch hk.execPortStatusWrite (Goes.branch hk.pageWrite hk.goes))
      · exact Goes.branch hk.pageWrite hk.goes

theorem Keeps.peerMessage {w : List Word} (hk : Keeps false s₀ s) : Keeps false s₀ (s.peerMessage w) :=
  Keeps.branch hk (Keeps.branch hk.returnMsg hk.emit)

theorem Keeps.peerStart {w : List Word} (hk : Keeps false s₀ s) : Keeps false s₀ (s.peerStart w) := by
  unfold State.peerStart
  dsimp only
  split
  · exact hk
  · exact Keeps.branch hk.returnPeer hk.emit

theorem Keeps.peerSlot {w : List Word} (hk : Keeps false s₀ s) : Keeps false s₀ (s.peerSlot w) :=
  Keeps.branch hk (Keeps.branch hk.peerMessage hk.peerStart)

theorem Keeps.flitData {words : List Word} (hk : Keeps false s₀ s) : Keeps false s₀ (s.flitData words) :=
  Keeps.branch (hk.foldl (fun _ _ hv => hv.peerSlot)) hk

theorem Keeps.resend {port from_ : Nat} (hk : Keeps false s₀ s) : Keeps false s₀ (s.resend port from_) := hk.setPort.frame

theorem Keeps.execFlitReceive {port : Nat} {crcOk : Bool} {ask : Option Nat} {lanes : Nat} {words : List Word} (hk : Keeps false s₀ s) :
    Goes false s₀ (execFlitReceive port crcOk ask lanes words s) := by
  unfold Machine.execFlitReceive
  refine Goes.branch ?_ ?_
  · exact hk.goes
  · split
    · exact hk.resend.goes
    · refine Goes.branch ?_ ?_
      · exact (Keeps.branch hk.setPort.frame hk.setPort.frame.portDown).goes
      · exact Goes.branch hk.goes hk.setPort.flitData.goes

end

end Sys2Proof.Machine
end

section
/-!
PROOFS. What `Keeps` says, of packets, scalar and vector instructions.
-/

namespace Sys2Proof.Machine

section
-- One proof after the other: side by side they would wait for each other, each on a stack of its own.
set_option Elab.async false
variable {u : Bool} {s₀ s t : State} {o o' : Out}

/-! ### The command processor -/

theorem Keeps.formRead {p : Nat} {a : Word} {n : Nat} (hk : Keeps false s₀ s) : Keeps false s₀ (s.formRead p a n).2 := by
  unfold State.formRead
  split
  · exact hk
  · split
    · exact hk.winRead
    · exact hk
  · split
    · next heq =>
        exact hk.readAll.ofSnd heq
    · next heq =>
        exact hk.readAll.ofSnd heq

theorem Keeps.restCaps {p : Nat} {l : List (Nat × Nat)} {acc : List Nat} (hk : Keeps false s₀ s) :
    Keeps false s₀ (s.restCaps p l acc).2 := by
  induction l generalizing s acc with
  | nil => exact hk
  | cons x rest ih =>
    unfold State.restCaps
    split
    · next heq => exact Keeps.ofSnd hk.translate heq
    · next heq =>
      have hv := Keeps.ofSnd hk.translate heq
      exact Keeps.branchSnd (ih hv) hv

theorem Keeps.devicePut {p : Nat} {l : List (Nat × List Byte)} (hk : Keeps false s₀ s) : Keeps false s₀ (s.devicePut p l) := by
  induction l generalizing s with
  | nil => exact hk
  | cons x rest ih =>
    unfold State.devicePut
    split
    · next heq => exact ih (Keeps.ofSnd hk.resolve heq).putEngine.logWrite
    · next heq => exact ih (Keeps.ofSnd hk.resolve heq)

theorem Keeps.hostOut {p c fn id : Nat} {a : Word} {bs : List Byte} (hk : Keeps false s₀ s) :
    Keeps false s₀ (s.hostOut p c fn id a bs) := by
  unfold State.hostOut
  split
  next heq =>
    have hv := Keeps.ofSnd hk.cpSeq heq
    split
    · split
      · exact hv.leaveNow
      · exact hv.depart.askBoundary
    · exact hv.leaveNow

theorem Keeps.hostWrite {t : Taken} {fn : Nat} {a : Word} {bs : List Byte} (hk : Keeps false s₀ s) :
    Keeps false s₀ (s.hostWrite t fn a bs) :=
  Keeps.branch hk hk.hostOut

theorem Keeps.resultOut {x : Taken} {fn : Nat} {a : Word} {bs : List Byte} (hk : Keeps false s₀ s) (h : s.resultOut x fn a bs = some t) :
    Keeps false s₀ t := by
  unfold State.resultOut at h
  extract_lets p at h
  split at h
  · cases h
    exact hk.hostWrite
  · split at h
    · cases h
      exact hk
    · split at h
      · cases h
        exact hk
      · split at h
        · cases h
        · split at h <;> cases h
          next heq => exact (Keeps.ofSnd hk.winWrite heq).logWindow
      · split at h <;> cases h
        next heq => exact (Keeps.ofSnd hk.restCaps heq).devicePut

theorem Keeps.dropPacket {t : Taken} (hk : Keeps false s₀ s) : Keeps false s₀ (s.dropPacket t) := hk.frame.holdCaps

theorem Keeps.notePacket {t : Taken} {typ : Nat} {body : List Word} (hk : Keeps false s₀ s) : Keeps false s₀ (s.notePacket t typ body) := by
  unfold State.notePacket
  split
  · exact hk.logRec
  · exact hk

theorem Keeps.noteFailed {t : Taken} (hk : Keeps false s₀ s) : Keeps false s₀ (s.noteFailed t) := hk.notePacket

theorem Keeps.notePerformed {t : Taken} (hk : Keeps false s₀ s) : Keeps false s₀ (s.notePerformed t) := by
  unfold State.notePerformed
  split
  · exact hk.notePacket
  · exact hk

theorem Keeps.failTop {t : Taken} {code : Nat} (hk : Keeps false s₀ s) : Keeps false s₀ (s.failTop t code) := by
  unfold State.failTop
  dsimp only
  split
  · exact hk.dropPacket.noteFailed.stopQueue
  · exact hk.dropPacket.noteFailed.report
  · exact hk.dropPacket.noteFailed

theorem Keeps.failPacket {t : Taken} {code : Nat} (hk : Keeps false s₀ s) : Keeps false s₀ (s.failPacket t code) := by
  unfold State.failPacket
  split
  · dsimp only
    split
    · exact hk.dropPacket.noteFailed.frame.failTop
    · exact hk.dropPacket.noteFailed
  · exact hk.failTop

theorem Keeps.endReplay {src : QSrc} (hk : Keeps false s₀ s) : Keeps false s₀ (s.endReplay src) := by
  unfold State.endReplay
  split
  · split
    · exact Keeps.branch hk hk.frame.setPacket
    · exact hk
  · exact hk

theorem Keeps.execPacketComplete {k : Nat} (hk : Keeps false s₀ s) : Goes false s₀ (execPacketComplete k s) := by
  unfold Machine.execPacketComplete
  split
  · exact hk.goes
  · refine Goes.branch ?_ ?_
    · exact hk.goes
    · refine (Keeps.endReplay ?_).goes
      refine Keeps.branch ?_ ?_
      · refine Keeps.releaseJob ?_
        split
        · exact Keeps.irqOut (Keeps.branch hk.dropPacket hk.dropPacket.signalOut)
        · exact Keeps.branch hk.dropPacket hk.dropPacket.signalOut
      · split
        · exact Keeps.irqOut (Keeps.branch hk.dropPacket hk.dropPacket.signalOut)
        · exact Keeps.branch hk.dropPacket hk.dropPacket.signalOut

theorem Keeps.readGraph {t : Taken} (hk : Keeps false s₀ s) : Keeps false s₀ (s.readGraph t).2 := by
  unfold State.readGraph
  dsimp only
  split
  · next heq =>
      exact hk.formRead.ofSnd heq
  · next heq =>
      refine Keeps.branchSnd ?_ ?_
      · exact hk.formRead.ofSnd heq
      · split
        · next heq1 =>
            exact (((hk.formRead.ofSnd heq).formRead).ofSnd heq1)
        · next heq1 =>
            split
            · next heq2 =>
                exact (((((hk.formRead.ofSnd heq).formRead).ofSnd heq1).formRead).ofSnd heq2)
            · next heq2 =>
                split
                · refine Keeps.branchSnd ?_ ?_
                  · exact (((((hk.formRead.ofSnd heq).formRead).ofSnd heq1).formRead).ofSnd heq2)
                  · exact (((((hk.formRead.ofSnd heq).formRead).ofSnd heq1).formRead).ofSnd heq2)
                · exact (((((hk.formRead.ofSnd heq).formRead).ofSnd heq1).formRead).ofSnd heq2)

theorem Keeps.holdPacket {t : Taken} {func arg : Nat} (hk : Keeps false s₀ s) : Keeps false s₀ (s.holdPacket t func arg) :=
  hk.assistFor.setPacket

theorem Keeps.assistTaken {t : Taken} (hk : Keeps false s₀ s) : Keeps false s₀ (s.assistTaken t) :=
  Keeps.branch hk.holdPacket (Keeps.branch hk.holdPacket hk)

theorem Keeps.addPacket {t : Taken} (hk : Keeps false s₀ s) : Keeps false s₀ (s.addPacket t) := hk.frame.notePacket

theorem Keeps.acceptPacket {t : Taken} (hk : Keeps false s₀ s) : Keeps false s₀ (s.acceptPacket t) := by
  unfold State.acceptPacket
  split
  · dsimp only
    split
    · next heq =>
        exact (hk.holdJob.ofSnd heq).addPacket
    · next heq =>
        exact (hk.holdJob.ofSnd heq).failPacket
  · exact Keeps.branch hk.addPacket.setPacket.evaluate hk.addPacket
  · exact Keeps.branch hk.addPacket.setPacket.evaluate hk.addPacket
  · split
    · next heq =>
        exact (hk.readGraph.ofSnd heq).addPacket.assistTaken
    · next heq =>
        exact (hk.readGraph.ofSnd heq).failPacket
  · exact hk.addPacket.assistTaken

theorem Keeps.takePacket {t : Taken} (hk : Keeps false s₀ s) : Keeps false s₀ (s.takePacket t) := Keeps.branch hk.acceptPacket hk.failPacket

theorem Keeps.headerBack {p fn : Nat} {a : Word} {v : Nat} (hk : Keeps false s₀ s) : Keeps false s₀ (s.headerBack p fn a v) := by
  unfold State.headerBack
  split
  · exact hk.putNum.sawHost
  · split
    · exact hk.winWrite
    · exact hk
  · split
    · next heq =>
        exact (hk.resolve.ofSnd heq).putNum
    · next heq =>
        exact hk.resolve.ofSnd heq

theorem Keeps.readSlot {p c fn q : Nat} (hk : Keeps false s₀ s) : Keeps false s₀ (s.readSlot p c fn q) := by
  unfold State.readSlot
  refine Keeps.branch ?_ ?_
  · exact hk
  · dsimp only
    split
    · exact Keeps.branch hk.formRead hk.formRead.headerBack.setQueue.frame.takePacket
    · exact Keeps.branch hk.formRead.setQueue.noteFailed.stopQueue hk.formRead.setQueue

theorem Keeps.takeDevice {p c : Nat} (hk : Keeps false s₀ s) : Keeps false s₀ (s.takeDevice p c) := by
  unfold State.takeDevice
  dsimp only
  split
  · exact hk
  · exact Keeps.branch hk hk.frame.takePacket

theorem Keeps.execPacketTake {part ctl : Nat} (hk : Keeps false s₀ s) : Goes false s₀ (execPacketTake part ctl s) := by
  unfold Machine.execPacketTake
  refine Goes.branch ?_ ?_
  · exact hk.goes
  · split
    · exact hk.goes
    · dsimp only
      split
      · exact hk.frame.readSlot.goes
      · exact hk.frame.takeDevice.goes
      · exact hk.frame.goes

theorem Keeps.execValidPoll {fn q : Nat} (hk : Keeps false s₀ s) : Goes false s₀ (execValidPoll fn q s) := by
  unfold Machine.execValidPoll
  dsimp only
  split
  · exact hk.goes
  · exact Goes.branch hk.goes (Goes.branch hk.setQueue.goes (Goes.branch hk.goes hk.readSlot.goes))

theorem Keeps.launchData {t : Taken} (hk : Keeps false s₀ s) : Keeps false s₀ (s.launchData t).2 := by
  unfold State.launchData
  split
  · exact hk
  · exact hk.formRead
  · exact hk.formRead

theorem Keeps.launchItems {x : Taken} {bs : List Byte} {l : List (Nat × Nat)} (hk : Keeps false s₀ s) :
    Keeps false s₀ (s.launchItems x bs l).2 := by
  induction l generalizing s with
  | nil => exact hk
  | cons y rest ih =>
    unfold State.launchItems
    extract_lets h
    split
    next heq => exact ih (Keeps.ofSnd hk.takeSeq heq).countSent

theorem Keeps.logLaunch {site packet : Nat} {l : List Item} (hk : Keeps false s₀ s) : Keeps false s₀ (s.logLaunch site packet l) :=
  hk.foldl fun _ _ hv => hv.log

theorem Keeps.execLaunchPacket {k : Nat} (hk : Keeps false s₀ s) : Goes false s₀ (execLaunchPacket k s) := by
  unfold Machine.execLaunchPacket
  split
  · exact hk.goes
  · refine Goes.branch ?_ ?_
    · exact hk.goes
    · split
      · next heq =>
          exact (hk.launchData.ofSnd heq).failPacket.goes
      · next heq =>
          exact (hk.launchData.ofSnd heq).launchItems.logLaunch.frame.setPacket.goes

theorem Keeps.copyRead {p : Nat} {fa : Word} {l : List (Nat × Nat)} (hk : Keeps false s₀ s) : Keeps false s₀ (s.copyRead p fa l).2.2 := by
  induction l generalizing s with
  | nil => exact hk
  | cons x rest ih =>
    unfold State.copyRead
    split
    next heq =>
      have hv := ih (Keeps.ofSnd hk.formRead heq)
      split
      next heq =>
        rw [heq] at hv
        split <;> exact hv

theorem Keeps.copyChip {p : Nat} {ta : Word} {l : List (Nat × List Byte)} {b b' : Bool} (hk : Keeps false s₀ s) (h : s.copyChip p ta l b =
    some (b', t)) :
    Keeps false s₀ t := by
  induction l generalizing s b with
  | nil =>
    cases h
    exact hk
  | cons x rest ih =>
    unfold State.copyChip at h
    extract_lets a at h
    split at h
    · exact ih hk h
    · split at h
      · cases h
      · next heq => exact ih (Keeps.ofSnd hk.winWrite heq) h
      · next heq => exact ih (Keeps.ofSnd hk.winWrite heq).logWindow h

theorem Keeps.copyRun {t : Taken} (hk : Keeps false s₀ s) : Keeps false s₀ (s.copyRun t).2.2.2 := by
  unfold State.copyRun
  dsimp only
  split
  · exact hk.copyRead.foldl fun _ _ hv => hv.hostWrite
  · split
    · exact hk
    · split
      · exact hk
      · split
        · exact hk.copyRead
        · next heq =>
            exact (hk.copyRead.copyChip heq)
      · split
        · next heq =>
            exact hk.restCaps.ofSnd heq
        · next heq =>
            exact (hk.restCaps.ofSnd heq).holdCaps.copyRead.devicePut

theorem Keeps.updPacket {t : Taken} (hk : Keeps false s₀ s) : Keeps false s₀ (s.updPacket t) := hk.frame

theorem Keeps.execCopyPacket {k : Nat} (hk : Keeps false s₀ s) : Goes false s₀ (execCopyPacket k s) := by
  unfold Machine.execCopyPacket
  split
  · exact hk.goes
  · refine Goes.branch ?_ ?_
    · exact hk.goes
    · exact (Keeps.branch hk.copyRun.updPacket.notePerformed hk.copyRun.updPacket.notePerformed.failPacket).goes

theorem Keeps.startBarrier {typ k : Nat} (hk : Keeps false s₀ s) : Goes false s₀ (startBarrier s typ k) := by
  unfold Machine.startBarrier
  split
  · exact hk.goes
  · exact Goes.branch hk.goes (Goes.branch hk.holdPacket.goes hk.setPacket.evaluate.goes)

theorem Keeps.execBarrierEvaluation {k : Nat} (hk : Keeps false s₀ s) : Goes false s₀ (execBarrierEvaluation k s) := by
  unfold Machine.execBarrierEvaluation
  split
  · exact hk.goes
  · exact Goes.branch hk.goes (Goes.branch hk.holdPacket.goes hk.evaluate.goes)

theorem Keeps.changeSignal {op k : Nat} (hk : Keeps false s₀ s) : Goes false s₀ (changeSignal s op k) := by
  unfold Machine.changeSignal
  split
  · exact hk.goes
  · exact Goes.branch hk.goes hk.signalOut.setPacket.goes

theorem Keeps.execGraphReplayPacket {k : Nat} (hk : Keeps false s₀ s) : Goes false s₀ (execGraphReplayPacket k s) := by
  unfold Machine.execGraphReplayPacket
  split
  · exact hk.goes
  · refine Goes.branch ?_ ?_
    · exact hk.goes
    · split
      · next heq =>
          exact (hk.formRead.ofSnd heq).failPacket.goes
      · next heq =>
          exact (hk.formRead.ofSnd heq).frame.setPacket.goes

theorem Keeps.execGraphReplayStart {k : Nat} (hk : Keeps false s₀ s) : Goes false s₀ (execGraphReplayStart k s) := by
  unfold Machine.execGraphReplayStart
  split
  · exact hk.goes
  · split
    · exact hk.goes
    · refine Goes.branch ?_ ?_
      · exact hk.goes
      · split
        · next heq =>
            exact (hk.formRead.ofSnd heq).frame.failPacket.goes
        · next heq =>
            exact Goes.branch ((hk.formRead.ofSnd heq).frame.failPacket.goes) ((hk.formRead.ofSnd heq).frame.takePacket.goes)

theorem Keeps.execExpertQueueConfiguration {k : Nat} (hk : Keeps false s₀ s) : Goes false s₀ (execExpertQueueConfiguration k s) := by
  unfold Machine.execExpertQueueConfiguration
  split
  · exact hk.goes
  · refine Goes.branch ?_ ?_
    · exact hk.goes
    · refine Goes.branch ?_ ?_
      · exact hk.failPacket.goes
      · split
        · exact hk.goes
        · exact Goes.branch hk.setPacket.goes (Goes.branch hk.goes hk.log.configureEq.setPacket.notePerformed.goes)

theorem Keeps.execRecoveryPoint {k : Nat} (hk : Keeps false s₀ s) : Goes false s₀ (execRecoveryPoint k s) := by
  unfold Machine.execRecoveryPoint
  split
  · exact hk.goes
  · refine Goes.branch ?_ ?_
    · exact hk.goes
    · refine Goes.branch ?_ ?_
      · exact hk.setPart.setPacket.goes
      · exact Goes.branch ((hk.frame.setPart.foldl (fun _ _ hv => hv.sendSegment)).goes) hk.goes

theorem Keeps.pointDone {p : Nat} {r : RpStream} (hk : Keeps false s₀ s) : Keeps false s₀ (s.pointDone p r) := by
  unfold State.pointDone
  dsimp only
  split
  · exact hk.frame.setPart
  · split
    · next heq =>
        exact (hk.frame.setPart.resultOut heq).setPacket.notePerformed
    · exact hk.frame.setPart.failPacket

theorem Keeps.execSegmentAcknowledgement {part seg : Nat} (hk : Keeps false s₀ s) :
    Goes false s₀ (execSegmentAcknowledgement part seg s) := by
  unfold Machine.execSegmentAcknowledgement
  dsimp only
  split
  · exact hk.goes
  · exact Goes.branch (Goes.branch hk.pointDone.goes hk.goes) hk.setPart.goes

theorem Keeps.execQuote {k : Nat} (hk : Keeps false s₀ s) : Goes false s₀ (execQuote k s) := by
  unfold Machine.execQuote
  split
  · exact hk.goes
  · refine Goes.branch ?_ ?_
    · exact hk.goes
    · dsimp only
      split
      · next heq =>
          exact (hk.frame.resultOut heq).setPacket.notePerformed.goes
      · exact hk.frame.failPacket.goes

/-! ### Partition operations -/

theorem Keeps.partOp {op : Nat} {zero : Bool} {ok : State → Taken → Bool} {f : State → Taken → State} {k : Nat} (hk : Keeps false s₀ s) (hf
    : ∀ x, Keeps false s₀ (f s x)) :
    Goes false s₀ (partOp op zero ok f k s) := by
  unfold Machine.partOp
  split
  · exact hk.goes
  · exact Goes.branch hk.goes (Goes.branch (hf _).goes hk.failPacket.goes)

theorem Keeps.simpleOp {op : Nat} {zero : Bool} {ok : State → Taken → Bool} {f : State → Taken → State} {k : Nat} (hk : Keeps false s₀ s)
    (hf : ∀ x, Keeps false s₀ (f s x)) :
    Goes false s₀ (simpleOp op zero ok f k s) := by
  unfold Machine.simpleOp
  exact hk.partOp fun x => (hf x).accepted

theorem Keeps.clockRegions {l : List Nat} {mhz : Nat} {fixed : Bool} (hk : Keeps false s₀ s) :
    Keeps false s₀ (s.clockRegions l mhz fixed) :=
  hk.foldl fun _ _ hv => hv.setReg

theorem Keeps.markPairs {l : List (Nat × Nat)} {on : Bool} (hk : Keeps false s₀ s) : Keeps false s₀ (s.markPairs l on) :=
  hk.foldl fun _ _ hv => hv.setPort

theorem Keeps.readRoutes {t : Taken} (hk : Keeps false s₀ s) : Keeps false s₀ (s.readRoutes t).2 := by
  unfold State.readRoutes
  dsimp only
  refine Keeps.branchSnd ?_ ?_
  · exact hk
  · refine Keeps.branchSnd ?_ ?_
    · exact hk
    · split
      · next heq =>
          exact hk.formRead.ofSnd heq
      · next heq =>
          exact hk.formRead.ofSnd heq

theorem Keeps.plainSite {site : Nat} (hk : Keeps false s₀ s) : Keeps false s₀ (s.plainSite site) :=
  Keeps.foldl (fun _ _ hv => Keeps.branch hv.putThread hv) (hk.setTile.foldl (fun _ _ hv => Keeps.branch hv.setCore hv))

theorem Keeps.needBuddy {site : Nat} (hk : Keeps false s₀ s) : Keeps false s₀ (s.needBuddy site) := Keeps.branch hk.giveBuddy hk

theorem Keeps.enterTile {prot : Bool} {site : Nat} (hk : Keeps false s₀ s) : Keeps false s₀ (s.enterTile prot site) := by
  unfold State.enterTile
  exact hk.plainSite.dropFirn.setTile.needBuddy

theorem Keeps.addPart {t : Taken} {routes : List (Nat × Nat)} {wheel : Nat} {flits vcs : List (Nat × Nat)} (hk : Keeps false s₀ s) :
    Keeps false s₀ (s.addPart t routes wheel flits vcs) := by
  unfold State.addPart
  refine Keeps.markPairs (Keeps.clockRegions ?_)
  refine Keeps.branch ?_ ?_
  · refine Keeps.ubnarCtl ?_
    refine Keeps.branch ?_ ?_
    · exact Keeps.setPart (Keeps.foldl (fun _ _ hv => hv.enterTile) (Keeps.setPart (hk.withMem (fun h => Memory.wf_clear _ _ h))))
    · exact Keeps.foldl (fun _ _ hv => hv.enterTile) (Keeps.setPart (hk.withMem (fun h => Memory.wf_clear _ _ h)))
  · refine Keeps.beginExcursions (Keeps.ubnarCtl ?_)
    refine Keeps.branch ?_ ?_
    · exact Keeps.setPart (Keeps.foldl (fun _ _ hv => hv.enterTile) (Keeps.setPart (hk.withMem (fun h => Memory.wf_clear _ _ h))))
    · exact Keeps.foldl (fun _ _ hv => hv.enterTile) (Keeps.setPart (hk.withMem (fun h => Memory.wf_clear _ _ h)))

theorem Keeps.execCreate {k : Nat} (hk : Keeps false s₀ s) : Goes false s₀ (execCreate k s) := by
  unfold Machine.execCreate
  split
  · exact hk.goes
  · refine Goes.branch ?_ ?_
    · exact hk.goes
    · refine Goes.branch ?_ ?_
      · exact hk.failPacket.goes
      · split
        · next heq =>
            exact (hk.readRoutes.ofSnd heq).failPacket.goes
        · next heq =>
            refine Goes.branch ?_ ?_
            · exact (hk.readRoutes.ofSnd heq).failPacket.goes
            · split
              · exact (Keeps.accepted (Keeps.branch ((hk.readRoutes.ofSnd heq).addPart) ((hk.readRoutes.ofSnd heq).addPart.hostOut))).goes
              · exact (hk.readRoutes.ofSnd heq).failPacket.goes

theorem Keeps.forgetPosted {fn : Nat} (hk : Keeps false s₀ s) : Keeps false s₀ (s.forgetPosted fn) := hk.frame

theorem Keeps.unbind {fn : Nat} (hk : Keeps false s₀ s) : Keeps false s₀ (s.unbind fn) := hk.frame

theorem Keeps.releaseRegions {p : Nat} (hk : Keeps false s₀ s) : Keeps false s₀ (s.releaseRegions p) :=
  hk.endExcursions.clockRegions.markPairs

theorem Keeps.destroyPart {p : Nat} (hk : Keeps false s₀ s) : Keeps false s₀ (s.destroyPart p) := by
  unfold State.destroyPart
  refine Keeps.retryBuddies (Keeps.frame ?_)
  refine Keeps.branch ?_ ?_
  · refine Keeps.foldl (fun _ _ hv => hv.foreignEnd) (Keeps.foldl (fun _ _ hv => hv.forgetPosted.unbind) (Keeps.purge ?_))
    split
    · exact hk.failPacket
    · exact hk
  · refine Keeps.foldl (fun _ _ hv => hv.leaveBuddy.plainSite) (Keeps.releaseRegions (Keeps.foldl (fun _ _ hv => hv.foreignEnd)
        (Keeps.foldl (fun _ _ hv => hv.forgetPosted.unbind) (Keeps.purge ?_))))
    split
    · exact hk.failPacket
    · exact hk

theorem Keeps.execBindvf {k : Nat} (hk : Keeps false s₀ s) : Goes false s₀ (execBindvf k s) := by
  unfold Machine.execBindvf
  split
  · exact hk.goes
  · exact Goes.branch hk.goes (hk.simpleOp (fun _ => hk.frame))

theorem Keeps.execUnbindvf {k : Nat} (hk : Keeps false s₀ s) : Goes false s₀ (execUnbindvf k s) := by
  unfold Machine.execUnbindvf
  split
  · exact hk.goes
  · exact Goes.branch hk.goes (hk.simpleOp (fun _ => hk.unbind))

theorem Keeps.execReadmit {k : Nat} (hk : Keeps false s₀ s) : Goes false s₀ (execReadmit k s) := by
  unfold Machine.execReadmit
  split
  · exact hk.goes
  · split
    · exact Goes.branch (Goes.branch hk.goes hk.accepted.goes) (hk.partOp (fun _ => hk.askAppend.setPacket))
    · exact hk.partOp fun _ => hk

theorem Keeps.reportDown {p : Nat} (hk : Keeps false s₀ s) : Keeps false s₀ (s.reportDown p) :=
  hk.frame.foldl fun _ _ hv => hv.recordExcursion

theorem Keeps.placeRing {p : Nat} {base : Word} {sizelog vector : Nat} (hk : Keeps false s₀ s) :
    Keeps false s₀ (s.placeRing p base sizelog vector) :=
  Keeps.branch hk.putNum.putNum.sawHost.sawHost.frame hk.putNum.putNum.sawHost.sawHost.setPart.reportDown

theorem Keeps.execEvents {k : Nat} (hk : Keeps false s₀ s) : Goes false s₀ (execEvents k s) := by
  unfold Machine.execEvents
  split
  · exact hk.goes
  · exact hk.simpleOp fun _ => hk.placeRing

theorem Keeps.answerFault {a : Assist} {present : Bool} (hk : Keeps false s₀ s) : Keeps false s₀ (s.answerFault a present) := hk.setPart

theorem Keeps.decide {a : Assist} {yes : Bool} (hk : Keeps false s₀ s) : Keeps false s₀ (s.decide a yes) := by
  unfold State.decide
  dsimp only
  split
  · exact Keeps.branch hk.frame.failPacket (Keeps.branch hk.frame.holdPacket hk.frame.setPacket)
  · refine Keeps.branch ?_ ?_
    · exact hk.frame.setPacket
    · split
      · next heq =>
          exact hk.frame.evaluate.ofSnd heq
      · next heq =>
          exact (hk.frame.evaluate.ofSnd heq).holdPacket
  · exact hk.frame.answerFault
  · exact Keeps.branch hk.frame.setPacket hk.frame.failPacket
  · exact Keeps.branch hk.frame.recoverTile hk.frame.rollTile
  · exact Keeps.branch hk.frame.frame hk.frame.frame
  · exact hk.frame

theorem Keeps.execAssist {k : Nat} (hk : Keeps false s₀ s) : Goes false s₀ (execAssist k s) := by
  unfold Machine.execAssist
  refine hk.simpleOp fun _ => ?_
  split
  · exact hk.decide
  · exact hk

theorem Keeps.decideHw {a : Assist} (hk : Keeps false s₀ s) : Keeps false s₀ (s.decideHw a) := by
  unfold State.decideHw
  dsimp only
  split
  · exact hk.decide
  · exact hk.frame.setPart.foldl (fun _ _ hv => hv.foldl (fun _ _ hw => hw.faultReport))
  · exact hk.decide

theorem Keeps.execAssistTimeout {token : Nat} (hk : Keeps false s₀ s) : Goes false s₀ (execAssistTimeout token s) := by
  unfold Machine.execAssistTimeout
  split
  · exact hk.goes
  · exact hk.decideHw.record.goes

theorem Keeps.execRestore {k : Nat} (hk : Keeps false s₀ s) : Goes false s₀ (execRestore k s) := by
  unfold Machine.execRestore
  split
  · exact hk.goes
  · refine Goes.branch ?_ ?_
    · exact hk.goes
    · exact Goes.branch hk.failPacket.goes (Goes.branch hk.failPacket.goes hk.setPart.setPacket.finishRestore.goes)

/-! ### The switch of a partition -/

theorem Keeps.writeRecord {p save i site : Nat} (hk : Keeps false s₀ s) : Keeps false s₀ (s.writeRecord p save i site) :=
  Keeps.devicePut (hk.frame.foldl (fun _ _ hv => hv.devicePut))

theorem Keeps.preemptAll {p : Nat} (hk : Keeps false s₀ s) : Keeps false s₀ (s.preemptAll p) :=
  hk.foldl fun _ _ hv => Keeps.branch hv.setCore hv.setCore

theorem Keeps.leaveSite {p save : Nat} {x : Nat × Nat × Nat} (hk : Keeps false s₀ s) : Keeps false s₀ (s.leaveSite p save x) :=
  hk.writeRecord.frame.plainSite.setTile

theorem Keeps.switchAway {p id : Nat} (hk : Keeps false s₀ s) : Keeps false s₀ (s.switchAway p id) :=
  Keeps.accepted (Keeps.setPart (Keeps.frame (Keeps.releaseRegions (hk.foldl (fun _ _ hv => hv.leaveSite)))))

theorem Keeps.execSwitchout {k : Nat} (hk : Keeps false s₀ s) : Goes false s₀ (execSwitchout k s) := by
  unfold Machine.execSwitchout
  split
  · exact hk.goes
  · refine Goes.branch ?_ ?_
    · exact hk.goes
    · refine Goes.branch ?_ ?_
      · exact Goes.branch hk.switchAway.goes hk.goes
      · exact Goes.branch hk.goes (Goes.branch hk.failPacket.goes hk.setPart.preemptAll.setPacket.goes)

theorem Keeps.readAreas {p a : Nat} {l : List (Nat × Nat)} (hk : Keeps false s₀ s) : Keeps false s₀ (s.readAreas p a l).2 := by
  induction l generalizing s with
  | nil => exact hk
  | cons x rest ih =>
    unfold State.readAreas
    split
    · next heq => exact Keeps.ofSnd hk.readAll heq
    · next heq =>
      have hv := ih (Keeps.ofSnd hk.readAll heq)
      split <;> (next heq => exact Keeps.ofSnd hv heq)

theorem readRecords_cons (s : State) (p save i : Nat) (g : TileImage) (l : List (Nat × TileImage)) :
    ∃ B : PProd (State → Option (List TileImage) × State) (List.below (motive := fun _ => State → Option (List TileImage) × State) l), B.1
      = (State.readRecords · p save l) ∧ s.readRecords p save ((i, g) :: l) = State.readRecords._f p save ((i, g) :: l) B s := by
  delta State.readRecords
  generalize State.readRecords._f p save = F
  revert F
  refine id fun F => ?_
  exact ⟨_, rfl, rfl⟩

theorem Keeps.recordRead {p save i : Nat} {g : TileImage} {l : List (Nat × TileImage)} {B : PProd (State → Option (List TileImage) × State)
    (List.below (motive := fun _ => State → Option (List TileImage) × State) l)} (hB : ∀ v, Keeps false s₀ v → Keeps false s₀ (B.1 v).2)
    (hk : Keeps false s₀ s) :
    Keeps false s₀ (State.readRecords._f p save ((i, g) :: l) B s).2 := by
  have hareas : ∀ a l, Keeps false s₀ (State.readAreas s p a l).2 := fun _ _ => hk.readAreas
  have hread : ∀ v l, Keeps false s₀ v → Keeps false s₀ (State.readAll v p l).2 := fun _ _ h => h.readAll
  delta State.readRecords._f
  generalize State.readAreas = readAreas at hareas ⊢
  generalize State.readAll = readAll at hread ⊢
  revert readAreas readAll
  refine id fun readAreas hareas readAll hread => ?_
  dsimp only
  split
  · next heq => exact Keeps.ofSnd (hareas _ _) heq
  · next heq =>
    have hv := Keeps.ofSnd (hareas _ _) heq
    split
    · next heq => exact Keeps.ofSnd (hread _ _ hv) heq
    · next heq =>
      have hw := Keeps.ofSnd (hread _ _ hv) heq
      split
      · exact hw
      · split <;> (next heq => exact Keeps.ofSnd (hB _ hw) heq)

theorem Keeps.readRecords {p save : Nat} {l : List (Nat × TileImage)} (hk : Keeps false s₀ s) :
    Keeps false s₀ (s.readRecords p save l).2 := by
  induction l generalizing s with
  | nil => exact hk
  | cons x rest ih =>
    obtain ⟨B, hB, hcons⟩ := readRecords_cons s p save x.1 x.2 rest
    rw [hcons]
    refine Keeps.recordRead (fun v hv => ?_) hk
    rw [hB]
    exact ih hv

theorem Keeps.enterSite {p : Nat} {prot : Bool} {site : Nat} {g : TileImage} (hk : Keeps false s₀ s) :
    Keeps false s₀ (s.enterSite p prot site g) := by
  unfold State.enterSite
  exact Keeps.needBuddy (Keeps.resendIssued (Keeps.frame (hk.plainSite.dropFirn.setTile.loadImage.setTile.foldl (fun _ _ hv =>
      hv.setCore))))

theorem Keeps.forgetRanks {ranks : List Nat} (hk : Keeps false s₀ s) : Keeps false s₀ (s.forgetRanks ranks) := hk.frame

theorem Keeps.switchBack {p : Nat} {images : List TileImage} (hk : Keeps false s₀ s) : Keeps false s₀ (s.switchBack p images) := by
  unfold State.switchBack
  refine Keeps.branch ?_ ?_
  · refine Keeps.stopPart (Keeps.frame (Keeps.foldl (fun _ _ hv => ?_) (Keeps.forgetRanks (Keeps.branch hk.setPart.clockRegions.markPairs
        hk.setPart.clockRegions.markPairs.beginExcursions))))
    split
    · exact hv.enterSite
    · exact hv
  · refine Keeps.frame (Keeps.foldl (fun _ _ hv => ?_) (Keeps.forgetRanks (Keeps.branch hk.setPart.clockRegions.markPairs
        hk.setPart.clockRegions.markPairs.beginExcursions)))
    split
    · exact hv.enterSite
    · exact hv

theorem Keeps.comeBack {p : Nat} (hk : Keeps false s₀ s) : Keeps false s₀ (s.comeBack p) := by
  unfold State.comeBack
  refine Keeps.branch ?_ ?_
  · exact Keeps.ubnarCtl (hk.switchBack.foldl (fun _ _ hv => hv.enterTile))
  · exact Keeps.readBack (Keeps.ubnarCtl (hk.switchBack.foldl (fun _ _ hv => hv.enterTile)))

theorem Keeps.execSwitchin {k : Nat} (hk : Keeps false s₀ s) : Goes false s₀ (execSwitchin k s) := by
  unfold Machine.execSwitchin
  split
  · exact hk.goes
  · refine Goes.branch ?_ ?_
    · exact hk.goes
    · refine Goes.branch ?_ ?_
      · exact hk.failPacket.goes
      · refine Goes.branch ?_ ?_
        · exact hk.comeBack.accepted.goes
        · split
          · next heq =>
              exact (hk.readRecords.ofSnd heq).failPacket.goes
          · next heq =>
              exact (hk.readRecords.ofSnd heq).switchBack.accepted.goes

/-! ### Scalar instructions -/

theorem Keeps.execLb {rd rs1 : Reg} {imm : BitVec 12} (hk : Keeps u s₀ s) : Goes u s₀ (execLb rd rs1 imm s) :=
  hk.loadThen fun _ => hk.writeReg

theorem Keeps.execLh {rd rs1 : Reg} {imm : BitVec 12} (hk : Keeps u s₀ s) : Goes u s₀ (execLh rd rs1 imm s) :=
  hk.loadThen fun _ => hk.writeReg

theorem Keeps.execLw {rd rs1 : Reg} {imm : BitVec 12} (hk : Keeps u s₀ s) : Goes u s₀ (execLw rd rs1 imm s) :=
  hk.loadThen fun _ => hk.writeReg

theorem Keeps.execLd {rd rs1 : Reg} {imm : BitVec 12} (hk : Keeps u s₀ s) : Goes u s₀ (execLd rd rs1 imm s) :=
  hk.loadThen fun _ => hk.writeReg

theorem Keeps.execLbu {rd rs1 : Reg} {imm : BitVec 12} (hk : Keeps u s₀ s) : Goes u s₀ (execLbu rd rs1 imm s) :=
  hk.loadThen fun _ => hk.writeReg

theorem Keeps.execLhu {rd rs1 : Reg} {imm : BitVec 12} (hk : Keeps u s₀ s) : Goes u s₀ (execLhu rd rs1 imm s) :=
  hk.loadThen fun _ => hk.writeReg

theorem Keeps.execLwu {rd rs1 : Reg} {imm : BitVec 12} (hk : Keeps u s₀ s) : Goes u s₀ (execLwu rd rs1 imm s) :=
  hk.loadThen fun _ => hk.writeReg

theorem Keeps.jumpTo {rd : Reg} {t : Word} (hk : Keeps u s₀ s) : Goes u s₀ (jumpTo s rd t) := Goes.branch hk.raiseOut hk.wx.retireTo.goes

theorem Keeps.branchOut {c : Cond} {rs1 rs2 : Reg} {off : BitVec 12} (hk : Keeps u s₀ s) : Goes u s₀ (branchOut s c rs1 rs2 off) :=
  Goes.branch (Goes.branch hk.raiseOut hk.retireTo.goes) hk.retire.goes

theorem Keeps.execMret (hk : Keeps u s₀ s) : Goes u s₀ (execMret s) := by
  unfold Machine.execMret
  split
  · exact hk.mret.goes
  · exact hk.illegalOut

theorem Keeps.execIllegalInstruction {word : BitVec 32} (hk : Keeps u s₀ s) : Goes u s₀ (execIllegalInstruction word s) := hk.illegalOut

theorem Keeps.csrOut {i : Instr} {rd : Reg} {csr : BitVec 12} {writes : Bool} {f : Word → Word} (hk : Keeps u s₀ s) :
    Goes u s₀ (csrOut s i rd csr writes f) := by
  have hwrite {v : State} {n : Nat} {old x : Word} (hv : Keeps u s₀ v) :
      Goes u s₀ (Machine.writeReg (if writes then v.writeCsr n x else v) rd old) := (Keeps.branch hv.writeCsr hv).writeReg
  have hcount {v : State} (hv : Keeps u s₀ v) : Keeps u s₀ (v.setMe { v.me with nCycle := v.me.nCycle + 1 }) := hv.setMe
  unfold Machine.csrOut
  extract_lets n
  split
  · exact hk.illegalOut
  · split
    · exact hk.illegalOut
    · split
      · split
        · exact hk.blockOn
        · next heq => exact hwrite (hcount (hk.replayed heq))
        · exact Goes.branch hk.blockOn (hwrite (hcount hk.log))
      · exact hwrite hk

theorem Keeps.loopOut {n : Word} {last : BitVec 12} (hk : Keeps u s₀ s) : Goes u s₀ (loopOut s n last) :=
  Goes.branch hk.setMe.retireTo.goes hk.setMe.retire.goes

/-! ### Vector and stream instructions -/

theorem Keeps.countDraw (hk : Keeps u s₀ s) : Keeps u s₀ s.countDraw := hk.setMe

theorem Keeps.keepRows {rows : List (List Byte)} (hk : Keeps u s₀ s) : Keeps u s₀ (s.keepRows rows) := hk.setMe

theorem Keeps.rowsThen {ps : List (Int × Nat)} {f : List (List Byte) → State → Out} (hk : Keeps u s₀ s) (hf : ∀ rows v, Keeps u s₀ v → Goes
    u s₀ (f rows v)) :
    Goes u s₀ (rowsThen s ps f) := by
  unfold Machine.rowsThen
  extract_lets ps' go
  have hgo (rows : List (List Byte)) : Goes u s₀ (go rows) := hf rows _ hk.keepRows
  split
  · exact hf _ s hk
  · split
    · exact hk.raiseOut
    · split
      · exact hk.blockOn
      · split
        · exact hgo _
        · exact Goes.branch (hgo _) hk.keepRows.ask.goes

theorem Keeps.storeList {l : List (Nat × List Byte)} (hk : Keeps u s₀ s) (h : s.storeList l = .ok t) : Keeps u s₀ t := by
  induction l generalizing s with
  | nil =>
    cases h
    exact hk
  | cons x l ih =>
    unfold State.storeList at h
    split at h
    · next heq => exact ih (hk.storeAt heq) h
    · cases h

theorem Thread.wres_priv (x : Thread) (vd : BitVec 4) (res : Option VReg) : (x.wres vd res).priv = x.priv := by
 cases res <;> rfl

theorem Thread.advance_priv (x : Thread) (n : BitVec 4) : (x.advance n).priv = x.priv := by
  unfold Thread.advance
  split <;> rfl

theorem Keeps.streamEnd {fs : List (BitVec 4)} {vd : BitVec 4} {nb : Nat} {stores : Nat → List (Nat × List Byte)} {res : Option VReg} {fin
    : State → State} (hk : Keeps u s₀ s) (hf : ∀ v, Keeps u s₀ v → Keeps u s₀ (fin v)) :
    Goes u s₀ (streamEnd s fs vd nb stores res fin) := by
  unfold Machine.streamEnd
  refine Goes.branch (hf _ (hk.setMe fun _ => Thread.wres_priv ..)).retire.goes ?_
  dsimp only
  refine Goes.branch hk.blockOn ?_
  split
  · exact hk.raiseOut
  · next v heq =>
    have hv := hk.storeList heq
    refine Goes.branch hv.setMe.goes (hf _ (hv.setMe fun _ => ?_)).retire.goes
    exact (Thread.wres_priv ..).trans (foldl_keeps Thread.priv (fun x n => Thread.advance_priv x n) fs v.me)

theorem Keeps.laneOut {et : EType} {vd vs2 : BitVec 4} {src1 : Src1} {pm : Bool} {nat : Option Bool} {d0 : Nat} {f : Nat → Nat → Nat → Nat
    → Nat → Nat} {fin : State → State} (hk : Keeps u s₀ s) (hf : ∀ v, Keeps u s₀ v → Keeps u s₀ (fin v)) :
    Goes u s₀ (laneOut s et vd vs2 src1 pm nat d0 f fin) := by
  unfold Machine.laneOut
  refine Goes.branch (hf _ hk.setMe).retire.goes (Goes.branch hk.operandError (hk.rowsThen fun rows v hv => ?_))
  dsimp only
  split
  · exact Goes.branch hv.raiseOut (hv.streamEnd hf)
  · exact hv.streamEnd hf

theorem Keeps.intOut {et : EType} {vd vs2 vs1 : BitVec 4} {var : BitVec 3} {pm distinct : Bool} {f : Nat → Nat → Nat → Nat} (hk : Keeps u
    s₀ s) :
    Goes u s₀ (intOut s et vd vs2 vs1 var pm distinct f) :=
  hk.laneOut fun _ hv => hv

theorem Keeps.fltOut {et : EType} {vd vs2 vs1 : BitVec 4} {pm : Bool} {f : Fmt → FVal → FVal → FVal → Nat} (hk : Keeps u s₀ s) :
    Goes u s₀ (fltOut s et vd vs2 vs1 pm f) := by
  unfold Machine.fltOut
  exact hk.laneOut fun _ hv => hv

theorem Keeps.oneOut {et : EType} {vd vs2 : BitVec 4} {pm : Bool} {f : Fmt → Nat → Nat} (hk : Keeps u s₀ s) :
    Goes u s₀ (oneOut s et vd vs2 pm f) :=
  hk.laneOut fun _ hv => hv

theorem Keeps.gatherThen {as : List Nat} {n : Nat} {f : List Nat → State → Out} (hk : Keeps u s₀ s) (hf : ∀ l, Goes u s₀ (f l s)) :
    Goes u s₀ (gatherThen s as n f) := by
  unfold Machine.gatherThen
  split
  · exact hk.raiseOut
  · split
    · exact hk.raiseOut
    · split
      · exact hk.blockOn
      · extract_lets far vals
        split
        · exact hf _
        · exact Goes.branch (hf _) hk.ask.goes

theorem Keeps.vloadOut {et : EType} {vd : BitVec 4} {pm : Bool} {addr : Nat → Nat} (hk : Keeps u s₀ s) :
    Goes u s₀ (vloadOut s et vd pm addr) := by
  unfold Machine.vloadOut
  exact hk.gatherThen fun _ => hk.setMe.retire.goes

theorem Keeps.vstoreOut {et : EType} {vs : BitVec 4} {pm : Bool} {addr : Nat → Nat} (hk : Keeps u s₀ s) :
    Goes u s₀ (vstoreOut s et vs pm addr) := by
  unfold Machine.vstoreOut
  dsimp only
  split
  · exact hk.raiseOut
  · refine Goes.branch ?_ ?_
    · exact hk.blockOn
    · split
      · next heq =>
          exact (hk.storeList heq).retire.goes
      · exact hk.raiseOut

theorem Keeps.execStrcfg {st : BitVec 2} {xs : BitVec 4} (hk : Keeps u s₀ s) : Goes u s₀ (execStrcfg st xs s) := by
  unfold Machine.execStrcfg
  refine Goes.branch ?_ ?_
  · exact hk.raiseOut
  · split
    · exact hk.raiseOut
    · refine Goes.branch ?_ ?_
      · exact hk.blockOn
      · split
        · exact hk.raiseOut
        · exact hk.setMe.retire.goes

theorem Keeps.cmpOut {c : VCmp} {et : EType} {md : BitVec 2} {vs2 vs1 : BitVec 4} {var : BitVec 3} {pm : Bool} (hk : Keeps u s₀ s) :
    Goes u s₀ (cmpOut s c et md vs2 vs1 var pm) :=
  Goes.branch hk.operandError hk.setMe.retire.goes

theorem Keeps.maskOut {md : BitVec 2} {v : Word} (hk : Keeps u s₀ s) : Goes u s₀ (maskOut s md v) := hk.setMe.retire.goes

theorem Keeps.reduceThen {et : EType} {vd vs2 : BitVec 4} {pm : Bool} {nat : Option Bool} {f : List (List (Option Nat)) → List (BitVec 4) →
    State → Out} (hk : Keeps u s₀ s) (hf : ∀ l r v, Keeps u s₀ v → Goes u s₀ (f l r v)) :
    Goes u s₀ (reduceThen s et vd vs2 pm nat f) := by
  unfold Machine.reduceThen
  exact Goes.branch hk.operandError (Goes.branch (hf _ _ s hk) (Goes.branch hk.operandError (hk.rowsThen fun _ v hv => hf _ _ v hv)))

theorem Keeps.cvtFin {rm : BitVec 3} (hk : Keeps u s₀ s) : Keeps u s₀ (cvtFin rm s) := Keeps.branch hk.countDraw hk

theorem Keeps.cvtReg {et : EType} {src : Nat} {vd vs2 : BitVec 4} {rm : BitVec 3} {pm : Bool} (hk : Keeps u s₀ s) :
    Goes u s₀ (cvtReg s et src vd vs2 rm pm) :=
  Goes.branch hk.operandError hk.setMe.cvtFin.retire.goes

theorem Keeps.cvtStream {et : EType} {src : Nat} {vd vs2 : BitVec 4} {rm : BitVec 3} {pm : Bool} (hk : Keeps u s₀ s) :
    Goes u s₀ (cvtStream s et src vd vs2 rm pm) := by
  unfold Machine.cvtStream
  refine Goes.branch ?_ ?_
  · exact hk.operandError
  · refine hk.rowsThen fun _ _ hv => ?_
    dsimp only
    split
    · refine Goes.branch ?_ ?_
      · exact hv.raiseOut
      · exact Goes.branch (hv.streamEnd (fun _ hw => hw.cvtFin)) (hv.streamEnd (fun _ hw => hw.cvtFin))
    · exact hv.streamEnd fun _ hw => hw.cvtFin

theorem Keeps.randOut {vd : BitVec 4} {pm : Bool} {f : Nat → Nat → Nat} (hk : Keeps u s₀ s) : Goes u s₀ (randOut s vd pm f) := by
  unfold Machine.randOut
  dsimp only
  split
  · exact hk.setMe.countDraw.retire.goes
  · exact Goes.branch hk.operandError (Goes.branch hk.raiseOut (hk.streamEnd (fun _ hv => hv.countDraw)))

theorem Keeps.permOut {et : EType} {vd : BitVec 4} {srcs : List (BitVec 4)} {pm : Bool} {f : Nat → Option Nat} (hk : Keeps u s₀ s) :
    Goes u s₀ (permOut s et vd srcs pm f) :=
  Goes.branch hk.operandError hk.setMe.retire.goes

end

end Sys2Proof.Machine
end

section
/-!
PROOFS. What every step keeps: each instruction and step of the table, the turns, and the step of the part.
-/

namespace Sys2Proof.Machine

section
-- One proof after the other: side by side they would wait for each other, each on a stack of its own.
set_option Elab.async false
variable {u : Bool} {s₀ s t : State} {o o' : Out}

/-- Every row of the table: an instruction, or a step of the part by itself. -/
theorem Keeps.exec {i : Instr} (hi : u = true → Instr.isStep i = false) (hk : Keeps u s₀ s) : Goes u s₀ (exec i s) := by
  unfold Machine.exec
  cases i
  case lb => exact hk.execLb
  case lh => exact hk.execLh
  case lw => exact hk.execLw
  case ld => exact hk.execLd
  case lbu => exact hk.execLbu
  case lhu => exact hk.execLhu
  case lwu => exact hk.execLwu
  case sb | sh | sw | sd => exact hk.storeOut
  case addi | slti | sltiu | xori | ori | andi | slli | srli | srai | addiw | slliw | srliw | sraiw | add | sub | sll | slt | sltu | xor |
      srl | sra | or | and | mul | mulh | mulhsu | mulhu | div | divu | rem | remu | addw | subw | sllw | srlw | sraw | mulw | divw |
      divuw | remw | remuw | lui | auipc | min | max | minu | maxu | clz | ctz | cpop | bfx | bfxu | captest | captestId | vmaskTox =>
    exact hk.writeReg
  case jal | jalr => exact hk.jumpTo
  case beq | bne | blt | bge | bltu | bgeu => exact hk.branchOut
  case ecall | ebreak => exact hk.raiseOut
  case mret => exact hk.execMret
  case csrrw | csrrs | csrrc | csrrwi | csrrsi | csrrci => exact hk.csrOut
  case bfi => exact Goes.branch hk.retire.goes hk.writeReg
  case loop | loopi => exact hk.loopOut
  case send | sendG => exact hk.sendNow
  case sendS | sendGs => exact hk.sendHeld
  case sendc => exact hk.execSendc
  case commit => exact Goes.branch hk.releaseHeld.retire.goes hk.releaseHeld.blockOn
  case abort | strend => exact hk.setMe.retire.goes
  case spawn => exact hk.execSpawn
  case joindec => exact hk.execJoindec
  case launch => exact hk.execLaunch
  case done => exact Goes.branch hk.releaseHeld.retire.finish.goes hk.releaseHeld.blockOn
  case sync => exact Goes.branch hk.blockOn hk.retire.goes
  case bar => exact hk.execBar
  case waitgen => exact hk.execWaitgen
  case handover => exact hk.execHandover
  case capdrop => exact hk.execCapdrop
  case tlbinv => exact hk.execTlbinv
  case chkpt => exact hk.execChkpt
  case selfreportScan | selfreportFail | selfreportEvent => exact hk.selfreport
  case amoadd | amoand | amoor | amoxor | amomin | amomax | amominu | amomaxu | amoswap | amocas | amofadd => exact hk.amoOut
  case ldf | ldfe => exact hk.ldfOut
  case stf => exact hk.execStf
  case eqpush => exact hk.execEqpush
  case eqfire | eqdone => exact Goes.branch hk.operandError hk.eqPost
  case eqstat => exact hk.execEqstat
  case rdblk | wrblk | wrblkDep | copy => exact hk.xferIssue
  case cpwait | mwait => exact hk.waitTag
  case mma => exact hk.execMma
  case fmma => exact hk.execFmma
  case mcmd => exact hk.execMcmd
  case accrd => exact hk.execAccrd
  case accwr => exact hk.execAccwr
  case acczero => exact hk.acceptOut
  case accspill | accfill => exact hk.accAddress hk.acceptOut
  case vld => exact Goes.branch hk.operandError (Goes.branch hk.raiseOut hk.vloadOut)
  case vst => exact Goes.branch hk.operandError (Goes.branch hk.raiseOut hk.vstoreOut)
  case vlds | vgath => exact Goes.branch hk.operandError hk.vloadOut
  case vsts | vscat => exact Goes.branch hk.operandError hk.vstoreOut
  case strcfg => exact hk.execStrcfg
  case vadd | vsub | vmul | vmulh | vaddsat | vsubsat | vand | vor | vxor | vsll | vsrl | vsra => exact hk.intOut
  case vmin | vmax => exact Goes.branch hk.intOut (hk.laneOut (fun _ hv => hv))
  case vfadd | vfsub | vfmul | vfma | vfnma => exact hk.fltOut
  case vminn | vmaxn => exact hk.laneOut fun _ hv => hv
  case vexp2 | vlog2 | vrcp | vrsqrt | vtanh | vfabs | vfneg => exact hk.oneOut
  case vcmpeq | vcmpne | vcmplt | vcmple => exact hk.cmpOut
  case vsel | vmvx => exact Goes.branch hk.operandError hk.setMe.retire.goes
  case vmaskAnd | vmaskOr | vmaskXor | vmaskAndn | vmaskNot | vmaskFromx | vmaskFirst => exact hk.maskOut
  case vredsum | vredmax | vargmax => exact hk.reduceThen (fun _ _ _ hv => hv.streamEnd (fun _ hw => hw))
  case vcvt => exact Goes.branch hk.cvtStream hk.cvtReg
  case vrand => exact hk.randOut
  case vrandLat => exact Goes.branch hk.operandError hk.randOut
  case vmvxGet => exact Goes.branch hk.operandError hk.writeReg
  case vperm | vslideup | vslidedn | vzip | vunzip | vbcast => exact hk.permOut
  case illegalInstruction => exact hk.execIllegalInstruction
  all_goals
    cases u
    case true => cases hi rfl
  case powerUp.false => exact hk.execPowerUp
  case imageUpdateCommit.false => exact Goes.branch hk.goes (Goes.branch hk.frame.goes hk.frame.goes)
  case thermalShutdown.false => exact Goes.branch hk.dark.goes hk.goes
  case droopTrip.false | thermalTrip.false | powerCapTrip.false => exact hk.trip.goes
  case droopClear.false | thermalClear.false | powerCapClear.false => exact hk.clearCause.goes
  case governorWindow.false => exact hk.setReg.goes
  case launchWaveForward.false => exact hk.execLaunchWaveForward
  case csteplimWrite.false => exact hk.execCsteplimWrite
  case portStatusWrite.false => exact hk.execPortStatusWrite
  case registerWrite.false => exact hk.execRegisterWrite
  case qbaseWrite.false => exact hk.execQbaseWrite
  case qcfgWrite.false => exact hk.execQcfgWrite
  case qnotifyWrite.false => exact hk.execQnotifyWrite
  case qstatWrite.false => exact hk.execQstatWrite
  case packetTake.false => exact hk.execPacketTake
  case validPoll.false => exact hk.execValidPoll
  case packetComplete.false => exact hk.execPacketComplete
  case launchPacket.false => exact hk.execLaunchPacket
  case copyPacket.false => exact hk.execCopyPacket
  case barrierAndPacket.false | barrierOrPacket.false => exact hk.startBarrier
  case barrierEvaluation.false => exact hk.execBarrierEvaluation
  case signalStore.false | signalAdd.false | signalSubtract.false => exact hk.changeSignal
  case graphReplayPacket.false => exact hk.execGraphReplayPacket
  case graphReplayStart.false => exact hk.execGraphReplayStart
  case expertQueueConfiguration.false => exact hk.execExpertQueueConfiguration
  case recoveryPoint.false => exact hk.execRecoveryPoint
  case segmentAcknowledgement.false => exact hk.execSegmentAcknowledgement
  case quote.false => exact hk.execQuote
  case create.false => exact hk.execCreate
  case destroy.false => exact hk.simpleOp fun _ => hk.destroyPart
  case bindvf.false => exact hk.execBindvf
  case unbindvf.false => exact hk.execUnbindvf
  case egress.false | modes.false => exact hk.simpleOp fun _ => hk.setPart
  case cstep.false => exact hk.simpleOp fun _ => hk.setReg
  case selftest.false | devid.false => exact hk.simpleOp fun _ => hk.frame
  case readmit.false => exact hk.execReadmit
  case events.false => exact hk.execEvents
  case switchout.false => exact hk.execSwitchout
  case switchin.false => exact hk.execSwitchin
  case assist.false => exact hk.execAssist
  case restore.false => exact hk.execRestore
  case assistTimeout.false => exact hk.execAssistTimeout
  case terminationWave.false => exact hk.execTerminationWave
  case slotFill.false => exact Goes.branch hk.goes hk.fillCore.goes
  case stealRequest.false => exact hk.execStealRequest
  case stealAnswer.false => exact hk.execStealAnswer
  case stealSweepWait.false => exact hk.execStealSweepWait
  case budgetOverrun.false => exact hk.execBudgetOverrun
  case preemptionRequest.false => exact Goes.branch hk.setCore.goes hk.setCore.goes
  case preemptionComplete.false | selfTestDeadline.false => exact Goes.branch hk.setCore.goes hk.goes
  case quantumEnd.false => exact hk.execQuantumEnd
  case scanSlice.false => exact Goes.branch hk.goes (Goes.branch ((Keeps.branch hk.setCore.log hk.setCore).goes) hk.setCore.stopTile.goes)
  case messageArrival.false => exact hk.execMessageArrival
  case messageAcknowledgement.false => exact hk.execMessageAcknowledgement
  case resendBackoff.false => exact hk.execResendBackoff
  case remoteStoreArrival.false => exact hk.execRemoteStoreArrival
  case remoteAtomicPerform.false => exact hk.execRemoteAtomicPerform
  case responseArrival.false => exact hk.execResponseArrival
  case faultMessage.false => exact hk.execFaultMessage
  case wake.false => exact hk.execWake
  case engineChunk.false => exact hk.execEngineChunk
  case chunkRetry.false => exact hk.execChunkRetry
  case matrixCommandStart.false => exact hk.execMatrixCommandStart
  case matrixChunk.false => exact hk.execMatrixChunk
  case floeChunkCommit.false => exact hk.execFloeChunkCommit
  case floeReform.false => exact hk.execFloeReform
  case matrixCommandComplete.false => exact hk.execMatrixCommandComplete
  case transferComplete.false => exact hk.execTransferComplete
  case pushAccept.false => exact hk.execPushAccept
  case entryAge.false => exact Goes.branch hk.setEq.goes hk.goes
  case expertFiring.false => exact hk.execExpertFiring
  case eqfireArrival.false => exact hk.execEqfireArrival
  case eqdoneArrival.false => exact hk.execEqdoneArrival
  case eqstatRequest.false => exact hk.execEqstatRequest
  case deposit.false => exact hk.execDeposit
  case barrierArrival.false => exact hk.execBarrierArrival
  case capabilityReturnNotice.false => exact hk.execCapabilityReturnNotice
  case invalidationAcknowledgement.false => exact hk.execInvalidationAcknowledgement
  case intervalClose.false => exact Goes.branch hk.setTile.goes hk.goes
  case checkpointBoundary.false => exact Goes.branch hk.boundary.goes hk.goes
  case intervalCommit.false => exact Goes.branch hk.commitInterval.goes hk.goes
  case tileFailure.false => exact Goes.branch hk.lateFailure.goes (Goes.branch hk.goes hk.stopTile.frame.nextRecovery.goes)
  case hardwareWatchdog.false => exact Goes.branch hk.lateFailure.goes (Goes.branch hk.goes hk.stopTile.goes)
  case uncorrectableError.false => exact hk.execUncorrectableError
  case firnRestore.false => exact hk.execFirnRestore
  case replayEnd.false => exact hk.execReplayEnd
  case retirementAppend.false => exact hk.execRetirementAppend
  case partitionRollback.false => exact Goes.branch hk.discard.readBack.goes (Goes.branch hk.discard.frame.setPart.goes hk.goes)
  case scrub.false => exact hk.execScrub
  case bankRebuild.false => exact hk.execBankRebuild
  case flitReceive.false => exact hk.execFlitReceive
  case modulePowerLoss.false => exact hk.execModulePowerLoss
  case remoteLoadArrival.false => exact hk.execRemoteLoadArrival
  case mcmdArrival.false => exact hk.execMcmdArrival
  case spawnFrameArrival.false => exact hk.execSpawnFrameArrival
  case segmentReadBack.false => exact Goes.branch hk.goes hk.setPart.finishRestore.goes
  case hbmStackRetrain.false => exact Goes.branch hk.goes ((hk.foldl (fun _ _ hv => hv.setPart.finishRestore)).goes)

theorem Keeps.row (i : Instr) (hk : Keeps false s₀ s) : Goes false s₀ (Machine.exec i s) := hk.exec fun h => nomatch h

/-! ### Turns -/

theorem Keeps.elapse {n : Nat} (hk : Keeps false s₀ s) : Keeps false s₀ (s.elapse n) := hk.part

theorem Keeps.settle {h : Nat} (hk : Keeps false s₀ s) : Keeps false s₀ (s.settle h) := by
  unfold State.settle
  dsimp only
  split
  · exact hk
  · exact Keeps.branch hk.putThread hk
  · exact Keeps.branch hk.putThread hk
  · exact hk

theorem Keeps.holdFor {h : Nat} {i : Instr} (hk : Keeps false s₀ s) : Keeps false s₀ (s.holdFor h i) := Keeps.branch hk hk.putThread

theorem Keeps.execHeld {i : Instr} {h : Nat} (hk : Keeps false s₀ s) : Goes false s₀ (execHeld i h s) := by
  obtain ⟨t, ht, hkeeps⟩ := hk.row i
  unfold Machine.execHeld
  rw [ht]
  exact hkeeps.holdFor.goes

theorem Keeps.runThread {h : Nat} (hk : Keeps false s₀ s) : Goes false s₀ (s.runThread h) := by
  unfold State.runThread
  refine Goes.branch ?_ ?_
  · exact hk.issueAs.execBudgetOverrun
  · split
    · exact hk.issueAs.raiseOut
    · split
      · exact hk.issueAs.execIllegalInstruction
      · exact Goes.branch hk.issueAs.execHeld hk.issueAs.raiseOut

theorem Keeps.issueFrom {l : List Nat} (hk : Keeps false s₀ s) : Goes false s₀ (s.issueFrom l) := by
  induction l generalizing s with
  | nil => exact hk.goes
  | cons h rest ih =>
    unfold State.issueFrom
    refine Goes.branch (ih hk.passTurn) (Goes.branch (ih hk) ?_)
    obtain ⟨t, ht, hkeeps⟩ := hk.runThread (h := h)
    rw [ht]
    exact Goes.branch (ih hk.settle) hkeeps.settle.goes

theorem Keeps.issue {core : Nat} (hk : Keeps false s₀ s) : Goes false s₀ (s.issue core) := hk.issueFrom

theorem Keeps.turn {x : Turn} (hk : Keeps false s₀ s) : Goes false s₀ (s.turn x) := by
  cases x with
  | event => exact Goes.branch (hk.row _) hk.goes
  | issue => exact hk.issue
  | elapse => exact hk.elapse.goes

theorem Keeps.settled (hk : Keeps false s₀ s) : Keeps false s₀ s.settled := hk.emptyMapped.wakeWaiters.pumpAll.recoverNext

/-! ### The step of the part -/

/-- A choice of the part goes on, to a state that keeps what `Keeps` says. -/
def Kept (c : Choice) : Prop := ∀ {s₀ s : State}, Keeps false s₀ s → Goes false s₀ (c s)

theorem Kept.exec (i : Instr) : Kept (Machine.exec i) := fun hk => hk.row i

/-- Every choice of a list does. -/
def AllKept (l : List Choice) : Prop := ∀ c ∈ l, Kept c

namespace AllKept

theorem nil : AllKept [] := nofun

theorem cons {c : Choice} {l : List Choice} (hc : Kept c) (hl : AllKept l) : AllKept (c :: l) := List.forall_mem_cons.2 ⟨hc, hl⟩

theorem append {l l' : List Choice} (hl : AllKept l) (hl' : AllKept l') : AllKept (l ++ l') := List.forall_mem_append.2 ⟨hl, hl'⟩

theorem map {α : Type} {f : α → Choice} {l : List α} (hf : ∀ x, Kept (f x)) : AllKept (l.map f) := List.forall_mem_map.2 fun x _ => hf x

theorem flatMap {α : Type} {f : α → List Choice} {l : List α} (hf : ∀ x, AllKept (f x)) : AllKept (l.flatMap f) := fun c hc => by
  obtain ⟨x, _, hx⟩ := List.mem_flatMap.1 hc
  exact hf x c hx

theorem filterMap {α : Type} {f : α → Option Choice} {l : List α} (hf : ∀ x c, f x = some c → Kept c) : AllKept (l.filterMap f) :=
  fun c hc => by
    obtain ⟨x, _, hx⟩ := List.mem_filterMap.1 hc
    exact hf x c hx

end AllKept

theorem arrival_kept (i : Item) (k : Nat) : Kept (i.arrival k) := by
  unfold Item.arrival
  split
  case h_1 => exact Kept.exec (.messageArrival k)
  case h_2 | h_3 => exact Kept.exec (.remoteStoreArrival k)
  case h_4 =>
    split
    · exact Kept.exec (.eqstatRequest k)
    · exact Kept.exec (.remoteAtomicPerform k)
    · exact Kept.exec (.remoteAtomicPerform k)
    · exact Kept.exec (.remoteLoadArrival k)
  case h_5 | h_6 => exact Kept.exec (.responseArrival k)
  case h_7 => exact Kept.exec (.messageAcknowledgement k)
  case h_8 => exact Kept.exec (.spawnFrameArrival k)
  case h_9 => exact Kept.exec (.pushAccept k)
  case h_10 => exact Kept.exec (.eqfireArrival k)
  case h_11 => exact Kept.exec (.eqdoneArrival k)
  case h_12 => exact Kept.exec (.deposit k)
  case h_13 => exact Kept.exec (.barrierArrival k)
  case h_14 => exact Kept.exec (.capabilityReturnNotice k)
  case h_15 => exact Kept.exec (.mcmdArrival k)
  case h_16 => exact Kept.exec (.stealRequest k)
  case h_17 => exact Kept.exec (.stealAnswer k)
  case h_18 => exact Kept.exec (.faultMessage k)
  case h_19 | h_20 | h_21 => exact Keeps.goes

theorem engineChoices_kept (s : State) (site : Nat) : AllKept (s.engineChoices site) := by
  refine .append (.cons (Kept.exec (.matrixCommandComplete site)) (.cons (Kept.exec (.matrixCommandStart site))
    (.cons (Kept.exec (.matrixChunk site)) .nil))) (.flatMap fun c => ?_)
  split
  · exact .cons (Kept.exec (.transferComplete site c)) (.cons (Kept.exec (.chunkRetry site c)) (.cons (Kept.exec (.engineChunk site c _)) .nil))
  · exact .nil

theorem taken_steps_kept (t : Taken) (k : Nat) : AllKept (t.steps k) := by
  unfold Taken.steps
  split
  · exact .cons (Kept.exec (.launchPacket k)) .nil
  · exact .cons (Kept.exec (.copyPacket k)) .nil
  · exact .cons (Kept.exec (.barrierAndPacket k)) (.cons (Kept.exec (.barrierEvaluation k)) .nil)
  · exact .cons (Kept.exec (.barrierOrPacket k)) (.cons (Kept.exec (.barrierEvaluation k)) .nil)
  · exact .cons (Kept.exec (.signalStore k)) (.cons (Kept.exec (.signalAdd k)) (.cons (Kept.exec (.signalSubtract k)) .nil))
  · exact .cons (Kept.exec (.graphReplayPacket k)) .nil
  · exact .cons (Kept.exec (.expertQueueConfiguration k)) .nil
  · exact .cons (Kept.exec (.recoveryPoint k)) .nil
  · exact .cons (Kept.exec (.quote k)) .nil
  · exact AllKept.map (f := Machine.exec) (l := [.create k, .destroy k, .bindvf k, .unbindvf k, .egress k, .cstep k, .selftest k,
      .devid k, .readmit k, .modes k, .events k, .switchout k, .switchin k, .assist k, .restore k]) Kept.exec

theorem packetChoices_kept (s : State) : AllKept s.packetChoices :=
  .append (.append (.append (.append (.map fun k => Kept.exec (.packetComplete k)) (.flatMap fun x => taken_steps_kept x.2 x.1))
    (.map fun k => Kept.exec (.graphReplayStart k))) (.map fun k => Kept.exec (.launchWaveForward k)))
    (.map fun x => Kept.exec (.packetTake x.1 x.2))

theorem recoveryChoices_kept (s : State) : AllKept s.recoveryChoices := by
  refine .append (.append (.append (.append (.map fun t => Kept.exec (.tileFailure t.1 t.2.failc)) (.filterMap fun p c hc => ?_))
    (.map fun p => Kept.exec (.partitionRollback p.1))) (.map fun x => Kept.exec (.firnRestore x 0))) (.map fun x => Kept.exec (.replayEnd x))
  split at hc <;> cases hc
  exact Kept.exec (.floeReform p.1 0x3FFF)

theorem checkpointChoices_kept (s : State) : AllKept s.checkpointChoices :=
  .append (.append (.map fun x => Kept.exec (.intervalClose x)) (.map fun x => Kept.exec (.checkpointBoundary x)))
    (.map fun x => Kept.exec (.intervalCommit x))

/-- What a part may choose from are steps of the table, and issues of its cores. -/
theorem choices_kept (s : State) : AllKept s.choices := by
  unfold State.choices
  refine .append (.append (.append (.append (.append (.append (.append (.append (.append (.append (.append (.append (.append (.append
    (.append (.append (.append (.append (.append (recoveryChoices_kept s) ?_) ?_) ?_) ?_) ?_) ?_) (packetChoices_kept s)) ?_) ?_) ?_)
    (checkpointChoices_kept s)) ?_) ?_) ?_) ?_) ?_) ?_) ?_) ?_
  · exact .map fun x => Kept.exec (.budgetOverrun x.1)
  · exact .map fun x => arrival_kept x.2 x.1
  · exact .flatMap (engineChoices_kept s)
  · exact .map fun p => Kept.exec (.floeChunkCommit p)
  · refine .filterMap fun x c hc => ?_
    split at hc <;> cases hc
    exact Kept.exec (.invalidationAcknowledgement x.1)
  · exact .flatMap fun p => .map fun w => Kept.exec (.wake p.1 w.1 w.2)
  · exact .map fun x => Kept.exec (.slotFill x.1 x.2)
  · exact .map fun x => Kept.exec (.expertFiring x)
  · exact .map fun x => Kept.exec (.preemptionComplete x.1 x.2)
  · exact .cons (Kept.exec .retirementAppend) .nil
  · exact .map fun x _ _ hk => hk.issue
  · exact .map fun k => Kept.exec (.resendBackoff k)
  · exact .map fun x => Kept.exec (.stealSweepWait x.1 x.2)
  · exact .flatMap fun p => .map fun j => Kept.exec (.terminationWave p.1 j.num)
  · exact .map fun x => Kept.exec (.selfTestDeadline x.1 x.2)
  · exact .map fun x => Kept.exec (.scanSlice x.1 x.2 true)
  · exact .map fun p => Kept.exec (.quantumEnd p)

theorem Keeps.tryTurns {l : List Choice} (hk : Keeps false s₀ s) (hl : AllKept l) : Goes false s₀ (s.tryTurns l) := by
  induction l with
  | nil => exact hk.goes
  | cons c rest ih =>
    obtain ⟨t, ht, hkeeps⟩ := hl c (.head rest) hk
    unfold State.tryTurns
    rw [ht]
    exact Goes.branch (ih fun c hc => hl c (.tail _ hc)) hkeeps.goes

theorem Keeps.nextTurn (hk : Keeps false s₀ s) : Goes false s₀ s.nextTurn := by
  unfold State.nextTurn
  split
  · exact hk.frame.turn
  · exact Goes.branch hk.issue (hk.tryTurns (choices_kept s))

theorem Keeps.run (hk : Keeps false s₀ s) : Goes false s₀ s.run := by
  obtain ⟨t, ht, hkeeps⟩ := hk.nextTurn
  unfold State.run
  rw [ht]
  exact hkeeps.settled.goes

/-- A step keeps the canonical forms: a part without power takes none, unless it comes up again. -/
theorem Steps.keeps (hst : Steps s t) : Keeps false s t := by
  obtain ⟨v, hv, hkeeps⟩ := (Keeps.refl false s).run
  unfold Steps step at hst
  split at hst
  · cases hv.symm.trans hst
    exact hkeeps
  · cases hst

end

/-- Settles O59: a step of a powered part is its turn and what follows from it, and every step of the table goes on. -/
theorem poweredStepsGoOn : Obligations.PoweredStepsGoOn := by
  intro s hs
  obtain ⟨t, ht, _⟩ := (Keeps.refl false s).run
  exact ⟨t, by rw [step, hs]; exact ht⟩

/-- Settles O56: `Keeps` says it of every step of the table, so of a turn and what follows it. -/
theorem memoryKept : Obligations.MemoryKept :=
  ⟨fun _ _ hmem hst => (Steps.keeps hst).mem hmem, fun _ _ hfirn hst => (Steps.keeps hst).firn hfirn⟩

theorem isStep_of_wf {i : Instr} (hi : i.wf = true) : Instr.isStep i = false := by
  unfold Instr.isStep
  split
  · rfl
  · rfl
  · rfl
  · rw [hi]
    rfl

/-- Settles O60: of an instruction `Keeps` says that the current thread is as it was, and at U if it was. -/
theorem userStaysUser : Obligations.UserStaysUser := by
  intro s t i hwf hU hexec
  obtain ⟨v, hv, hkeeps⟩ := (Keeps.refl true s).exec (i := i) fun _ => isStep_of_wf hwf
  have heq : v = t := Host.Outcome.next.inj (hv.symm.trans hexec)
  rw [← heq]
  exact (hkeeps.user rfl).2 hU

end Sys2Proof.Machine
end
